-- ==== Sys2Proof/Word.lean ====
section
/-! DEFINITION. The word types of the block and the type of its sparse tables. -/

namespace Sys2Proof

/-- A byte. -/
abbrev Byte := BitVec 8

/-- A byte string, first byte first. -/
abbrev Bytes := List Byte

/-- A sparse table: pairs of a key and a value, keys strictly rising, no value equal to what an unlisted key reads as
(the default that every read and write names). -/
abbrev Tbl (α : Type) := List (Nat × α)

/-- A tagged word of a Serge core (08 R420): tag [35:32], value [31:0]. The empty word is VOID 0. -/
structure W36 where
  tag : BitVec 4 := 0
  val : BitVec 32 := 0
  deriving DecidableEq, Repr

end Sys2Proof
end

