-- ==== Sys2Proof/Syntax.lean ====
section
/-! DEFINITION. The commands of the block: one constructor of Instr for each row of spec/opcode_table.json, with its operands,
and the types those operands have. -/

namespace Sys2Proof

/-- The Serge cores (09 R473, ID_CORE: 0 A, 1 B, 2 G). -/
inductive CoreId where
  | a | b | g
  deriving DecidableEq, Repr

/-- The variants of the family (00 R1). -/
inductive Variant where
  | slx4816 | slx4812 | slx4806
  deriving DecidableEq, Repr

/-- The Pergola ports (07 R348). -/
inductive Port where
  | xp | xm | yp | ym | zp | zm
  deriving DecidableEq, Repr

/-- Completion status codes (03 R153). -/
inductive Status where
  | done | badLength | badFormat | reservedField | unitAbsent | keyUnusable | keyOrphaned | keyDenied
  | timeUnanchored | serialsExhausted | homeUnreachable | durabilityTimeout | tamperAbort | randomNotReady
  | paused | eventUnknown | authFailed | ledgerMissTimeout | internalFault
  deriving DecidableEq, Repr

/-- Verdict codes (05 R267). -/
inductive VCode where
  | admitted | admitReentry | exitRecorded | checkValid | refuseSpent | refuseInside | refuseNotIssued | refuseVoid
  | refuseEarly | refuseExpired | refuseZone | refuseForged | refuseEventClosed | refusePassback | refuseNotExit
  | undecided
  deriving DecidableEq, Repr

/-- The states of a unit (14 R750). -/
inductive UState where
  | absent | active | draining | retired | testing | disputed | failed
  deriving DecidableEq, Repr

/-- The states of a ledger entry (06 R274). -/
inductive LState where
  | unissued | live | inside | closed
  deriving DecidableEq, Repr

/-- Journal record types (06 R303). -/
inductive JKind where
  | pad | mint | close | enter | exit | voidFirst | voidLast | roll
  deriving DecidableEq, Repr

/-- A journal record (06 R303). -/
structure JRec where
  kind : JKind := .pad
  lane : Nat := 0
  serial : Nat := 0
  extra : BitVec 4 := 0
  t : Nat := 0
  deriving DecidableEq, Repr

/-- A journal block as replay or the rebuild reads it (06 R301). -/
structure JBlock where
  seq : Nat := 0
  home : Nat := 0
  source : BitVec 2 := 0
  epoch : BitVec 4 := 0
  group : Nat := 0
  tFirst : Nat := 0
  recs : List JRec := []
  chain : BitVec 128 := 0
  magic : Bytes := []
  seq2 : Nat := 0
  deriving DecidableEq, Repr

/-- What HELLO carries (07 R352). -/
structure Hello where
  version : BitVec 16 := 0x0100
  variant : Variant := .slx4816
  unit : BitVec 64 := 0
  addr : Nat := 0
  extX : Nat := 1
  extY : Nat := 1
  extZ : Nat := 1
  port : Port := .xp
  nonce : Bytes := []
  delay : Nat := 0
  deriving DecidableEq, Repr

/-- Link control blocks (07, Links). KEYX carries the confirmation MAC and, when it re-keys, the fresh nonce and the
frame count of the switch (R355, R357). -/
inductive LinkBlock where
  | training
  | align
  | hello (h : Hello)
  | keyx (mac : Bytes) (nonce : Bytes) (switchAt : Nat)
  | ack (linkSeq : Nat)
  | nak (linkSeq : Nat)
  | degrade (lane : BitVec 1)
  | down
  deriving DecidableEq, Repr

/-- MEMBERSHIP kinds (07 R374). -/
inductive MKind where
  | join | withdraw | takeover | exclude | shadowComplete | handbackOffer | handbackAccept | rollQuery | rollConfirm
  | rollRefuse | view | viewRequest | decisionAck
  deriving DecidableEq, Repr

/-- Answers of a witness (07 R392). -/
inductive WAnswer where
  | grant | refuse | abstain
  deriving DecidableEq, Repr

/-- Payloads of the frame types (07 R366, R373, R378-R382, R385, R392, R406, R410). -/
inductive FrameBody where
  | verdictFwd (lane ctx : Nat) (gate : Byte) (cred : Bytes) (seq : BitVec 32)
  | verdictReply (lane ctx : Nat) (status verdict : Byte) (seq : BitVec 32) (info : Byte) (detail decider : BitVec 16)
      (serial : BitVec 56)
  | mirrorGroup (epoch : BitVec 4) (group tFirst : Nat) (recs : List JRec)
  | pageRequest (epoch : BitVec 4) (subject page : Nat)
  | voidRequest (epoch : BitVec 4) (subject block : Nat)
  | groupAck (epoch : BitVec 4) (group : Nat)
  | leaseAck (epoch : BitVec 4) (ceiling : Nat)
  | page (epoch : BitVec 4) (subject page groupEnd : Nat) (entries : Tbl LState)
  | pageAbsent (epoch : BitVec 4) (subject page : Nat)
  | voidBlock (epoch : BitVec 4) (subject block : Nat) (ranges : List (Nat × Nat))
  | leaseMirror (epoch : BitVec 4) (ceiling : Nat)
  | heartbeat (ownAuth twinAuth shadow dataOpen : Bool) (epoch : BitVec 4) (term groupEnd : Nat)
  | witnessQuery (excl : Bool) (home term : Nat)
  | witnessReply (excl : Bool) (answer : WAnswer) (home term : Nat)
  | timePulse (time unc : Nat) (anchored : Bool)
  | keyTransport (kind : Byte) (slot : Nat) (xfer : BitVec 32) (blob : Bytes)
  | membership (kind : MKind) (epoch : BitVec 4) (subject term value : Nat) (unit : BitVec 64)
  deriving DecidableEq, Repr

/-- A frame (07 R363): the header fields that routing uses, and the payload. -/
structure Frame where
  src : Nat := 0
  dest : Nat := 0
  vc : Bool := false
  detour : Bool := false
  flood : Bool := false
  relayed : Bool := false
  hops : Nat := 0
  body : FrameBody := .timePulse 0 0 false
  deriving DecidableEq, Repr

/-- A MEMBERSHIP frame as it arrives (07 R373), with the port it came by. -/
structure MFrame where
  src : Nat := 0
  port : Port := .xp
  flood : Bool := false
  hops : Nat := 0
  epoch : BitVec 4 := 0
  subject : Nat := 0
  term : Nat := 0
  value : Nat := 0
  unit : BitVec 64 := 0
  deriving DecidableEq, Repr

/-- What a relay of a frame keeps of its header (07 R365, R371, R378): hops, detour, vc, and the dimension of the port it arrived on. -/
structure Carry where
  hops : Nat := 0
  detour : Bool := false
  vc : Bool := false
  dim : Option Nat := none
  deriving DecidableEq, Repr

/-- A VERDICT_FWD as it reaches this node (07 R378). `bad` is the status of R367 when the frame is malformed. -/
structure FwdFrame where
  src : Nat := 0
  lane : Nat := 0
  ctx : Nat := 0
  gate : Byte := 0
  cred : Bytes := []
  seq : BitVec 32 := 0
  relayed : Bool := false
  carry : Carry := {}
  bad : Option Status := none
  deriving DecidableEq, Repr

/-- A SMART / Health log page (06 R295, 03 R164). -/
structure SmartLog where
  written : BitVec 64 := 0
  read : BitVec 64 := 0
  used : BitVec 64 := 0
  temp : BitVec 64 := 0
  deriving DecidableEq, Repr

/-- What Identify says of a drive (06 R294): the version register of NVM Express, the LBA size and metadata size of namespace 1, its LBAs, whether
the controller reports a volatile write cache, and how many LBAs its atomic write unit on power fail covers. -/
structure DriveId where
  version : Nat := 0x00010400
  lbaSize : Nat := 4096
  metaSize : Nat := 0
  lbas : Nat := 76296192
  capacity : Nat := 400000000000
  writeCache : Bool := false
  atomicLbas : Nat := 1
  deriving DecidableEq, Repr

/-- What a link-level reception failure was (07 R358). -/
inductive RxFault where
  | crc | gcm | gap
  deriving DecidableEq, Repr

/-- The rc fields of the device (00 R12): PWR_ROLE.refused of a core, PWR_STATE.refused, OVERFLOW of a pulse crossing. -/
inductive RcField where
  | pwrRoleRefused (c : CoreId)
  | pwrStateRefused
  | pulseOverflow (x : Nat)
  deriving DecidableEq, Repr

/-- The windows with result registers (09 R484). -/
inductive ResultWin where
  | key | dig | led | lane (n : Nat) | rng
  deriving DecidableEq, Repr

/-- Where a register write goes: a BAR0 or BAR2 access of 4 or 8 bytes, a configuration write to a register of the function's Advanced Error
Reporting capability, or a word of a core at a data address. `setNow` holds the w1c bits that the device sets in the cycle of the write (00 R13). -/
inductive RegTarget where
  | bar0 (addr size : Nat) (value : BitVec 64) (setNow : BitVec 32)
  | bar2 (addr size : Nat) (value : BitVec 64)
  | aer (addr : Nat) (value setNow : BitVec 32)
  | window (c : CoreId) (addr : BitVec 16) (w : W36)
  deriving DecidableEq, Repr

/-- The wake causes of NAP (15 R807). -/
inductive WakeCause where
  | tlp | frame | dbWake | dbPropose | dbStaged | timer | pwrfail | driveL1 | pwrReq
  deriving DecidableEq, Repr

/-- Repeat prefix of a Serge instruction (08 R445): none, REP with its count 1-256 and interruptible bit, or REPX. -/
inductive RepPfx where
  | none | rep (count : Nat) (intr : Bool) | repx (intr : Bool)
  deriving DecidableEq, Repr

/-- What surrounds every Serge instruction: the core that executes it, the condition code (08 R429, 0-6), the repeat
prefix, and the EXT payloads (9 bits each, at most three, R445). -/
structure SCtx where
  core : CoreId := .a
  cond : BitVec 3 := 0
  rep : RepPfx := .none
  exts : List (BitVec 9) := []
  deriving DecidableEq, Repr

/-- The addressing mode (08 R431). -/
inductive SMode where
  | direct | x | y | imm
  deriving DecidableEq, Repr

/-- A section of an image bank as it streams (15 R774): type, bytes. -/
structure ImgSection where
  typ : Nat := 0
  offset : Nat := 0
  bytes : Bytes := []
  deriving DecidableEq, Repr

/-- The read modes that the SFDP tables of the flash declare (15 R772). -/
structure FlashModes where
  octal : Bool := false
  quad : Bool := true
  quadOut : Bool := false
  deriving DecidableEq, Repr

/-- A configuration bank as read from flash: the 256 HEADER bytes and the sections its table names; with the HEADER of the other bank, which boot step 3
reads too (15 R784), and with what the flash's SFDP tables declare. -/
structure Bank where
  header : Bytes := []
  other : Bytes := []
  sections : List ImgSection := []
  modes : FlashModes := {}
  deriving DecidableEq, Repr

/-- What the recovery of the record store reads in error (12 R650, R673): page numbers of the array, 64 to a sector, with a bit of the page. -/
structure RecoveryFind where
  flips : List (Nat × Nat) := []
  deriving DecidableEq, Repr

/-- The commands of the block, one constructor for each row of spec/opcode_table.json. -/
inductive Instr where
  /-- VSTBY_ENTER_WINDOW (R793). VSTBY enters its window: the Gatehouse reset is released, the RTC and tamper hub go live, core G starts in boot ROM and record-store recovery begins. -/
  | vstbyEnterWindow
  /-- RECORD_STORE_RECOVERY_DONE (R673). Record-store recovery ends: torn records are scrubbed or firmed, transactions are settled, keys are indexed and REC_STATUS.ready is set. -/
  | recordStoreRecoveryDone (find : RecoveryFind)
  /-- MAIN_PGOOD_HIGH (R793). MAIN_PGOOD rises: main-die reset is released, the straps are read, MEAS_0 is measured, and HBM training, drive attach and the noise-bank start-up test begin. -/
  | mainPgoodHigh (straps : BitVec 12) (safeLow : Bool)
  /-- MAIN_PGOOD_FALL (R833). MAIN_PGOOD falls for more than 1 µs while MAIN_PWR_EN is high; the main die is held in reset and MAIN_PWR_EN is driven low. -/
  | mainPgoodFall
  /-- MAIN_PGOOD_LOW_TIMEOUT (R833). After MAIN_PGOOD has stayed low for 100 ms the start runs again from boot step 2. -/
  | mainPgoodLowTimeout
  /-- SYS_RESET (R799). SYS_RESET_N low for at least 1 µs resets the main die and the standby domain; on release the start runs from boot step 1. -/
  | sysReset
  /-- PCIE_PERST (R800). PCIE_PERST_N resets the PCIe endpoint alone; on release the link trains again, and in KEEP its rising edge rings DB_WAKE. -/
  | pciePerst (rising : Bool)
  /-- FUNCTION_LEVEL_RESET (R155). A Function Level Reset or hot reset disables every ring and discards every unwritten completion, while requests in flight still settle. -/
  | functionLevelReset
  /-- PWRFAIL_ASSERT (R682). PWRFAIL_N asserts: appends are held, hot-set slots are frozen, and the hot-set save begins. -/
  | pwrfailAssert
  /-- VSTBY_WARNING (R682). VSTBY falls through its warning threshold and starts the hot-set save. -/
  | vstbyWarning
  /-- PWRFAIL_PAUSE (R801). PWRFAIL_N has been low for 10 µs: the data plane pauses and the open group is sealed. -/
  | pwrfailPause
  /-- PWRFAIL_REOPEN (R801). PWRFAIL_N has been high for 100 ms with VSTBY in its window, and the data plane reopens. -/
  | pwrfailReopen
  /-- PWRFAIL_DEASSERT (R682). PWRFAIL_N deasserts with VSTBY back in its window: held appends resume and a stopped append is programmed again whole. -/
  | pwrfailDeassert
  /-- STANDBY_DOMAIN_STOP (R683). HOLDCAP falls to 2.7 V and the standby domain stops. -/
  | standbyDomainStop
  /-- VAULT_ENTER (R812). VSTBY stays out of its window longer than the hold-up, and only the always-on domain runs, on VBAT. -/
  | vaultEnter
  /-- VSTBY_RETURN (R688). VSTBY returns after operation on VBAT alone; device time resumes from the RTC with 31 µs more uncertainty. -/
  | vstbyReturn (elapsed : Nat)
  /-- TOTAL_POWER_LOSS (R690). VSTBY and VBAT are lost together: the voile is lost, time is unanchored and restarts from the latest committed SYSTEM time. -/
  | totalPowerLoss
  /-- VBAT_LOW (R697). VBAT has been below 2.2 V for 10 s and alert cause BATTERY is set. -/
  | vbatLow
  /-- VBAT_RETURN (R697). VBAT returns within range and alert cause BATTERY is set again. -/
  | vbatReturn
  /-- HOLDCAP_MEASURED (R645). A HOLDCAP charge measurement ends, and a HOLDCAP_LOW record is appended when the capacitance is below 80 µF. -/
  | holdcapMeasured (tenths : Nat)
  /-- GATEHOUSE_LINK_AGREED (R20). The Gatehouse link completes its session-key agreement, and the main die may open keys and read records. -/
  | gatehouseLinkAgreed
  /-- GATEHOUSE_LINK_FRAME_RX (R19). A Gatehouse-link frame arrives; one that fails authentication is discarded and counted. -/
  | gatehouseLinkFrameRx (body : Bytes) (tag : BitVec 128)
  /-- IMAGE_BANK_STREAMED (R784). A configuration bank has streamed from flash: it is checked under R783 and accepted, the other bank is streamed, or safe mode follows. -/
  | imageBankStreamed (bank : BitVec 1) (img : Bank) (adoption : Bool)
  /-- BOOT_KEY_STORE_OPEN (R545). Boot step 6 acts on the enrolment package, reads and unwraps every key slot, loads the key holder and sets ID_LOCK. -/
  | bootKeyStoreOpen (badSlots : List Nat) (keyEngineOk : Bool)
  /-- HBM_TRAINING_DONE (R794). HBM training ends; a pseudo-channel that failed becomes FAILED and the inline key is loaded. -/
  | hbmTrainingDone (failed : List Nat) (serial : Bytes)
  /-- DRIVE_READY (R795). A drive completes NVMe attach; its label decides whether it serves, or it is treated as a replacement after step 9. -/
  | driveReady (d : Nat) (labelA labelB : Bytes) (id : DriveId)
  /-- DRIVE_ATTACH_TIMEOUT (R795). Step 8 ends 4.0 s after PERST release, with the drives that have reported ready. -/
  | driveAttachTimeout
  /-- JOURNAL_REPLAY_DONE (R330). Replay from the last checkpoint ends at the first failing block and sets the next block sequence. -/
  | journalReplayDone
  /-- PERGOLA_JOIN_END (R868). Pergola join ends on the last VIEW frame, or when 50 ms pass with no UP link. -/
  | pergolaJoinEnd
  /-- SQ_ENABLE (R104). A write setting HQ_SQ_CFG.enable starts the ring, or is refused with cfg_error. -/
  | sqEnable (n : Nat) (cfg : BitVec 32)
  /-- SQ_DISABLE (R106). Clearing HQ_SQ_CFG.enable moves the ring to DRAINING. -/
  | sqDisable (n : Nat)
  /-- SQ_DRAIN_DONE (R106). The last fetched entry of a draining ring completes, and the ring goes IDLE with head and tail 0. -/
  | sqDrainDone (n : Nat)
  /-- CQ_ENABLE (R105). A write setting HQ_CQ_CFG.enable starts the completion ring with phase 1, or is refused. -/
  | cqEnable (n : Nat) (cfg : BitVec 32)
  /-- CQ_DISABLE (R107). Clearing HQ_CQ_CFG.enable idles the ring, or is refused while a submission ring naming it is not IDLE. -/
  | cqDisable (n : Nat)
  /-- SQ_TAIL_DOORBELL (R110). A submission tail doorbell advances the tail, or puts the ring in ERROR when it is out of range. -/
  | sqTailDoorbell (n : Nat) (value : BitVec 32)
  /-- CQ_HEAD_DOORBELL (R111). A completion head doorbell releases entries, or puts the ring in ERROR when it is invalid. -/
  | cqHeadDoorbell (n : Nat) (value : BitVec 32)
  /-- DEV_ALERT_WRITE (R100). A write to DEV_ALERT that newly enables a set cause signals MSI-X vector 0. -/
  | devAlertWrite (value : BitVec 32)
  /-- DEV_TIME_LOW_READ (R99). A 32-bit read of DEV_TIME at 0x0108 returns the low half and latches the high half. -/
  | devTimeLowRead
  /-- TIME_NOW_LOW_READ (R490). A read of TIME_NOW_LO returns the low half and latches TIME_NOW_HI. -/
  | timeNowLowRead (c : CoreId)
  /-- MEAS_WORD0_READ (R608). A read of word 0 of a measurement register latches all 12 words for the reading core. -/
  | measWord0Read (c : CoreId) (n : Nat)
  /-- RESULT_EARLY_READ (R484). A result register read before its command has ended returns INT 0 and sets the window's error bit. -/
  | resultEarlyRead (c : CoreId) (w : ResultWin)
  /-- READ_TO_CLEAR (R14). A read of an rc field returns its value and clears it, keeping any event set in the same cycle. -/
  | readToClear (f : RcField) (setNow : Bool)
  /-- REGISTER_WRITE (R12). A write to a register with no behaviour of its own takes effect by its access code, including w1c clears and ignored writes. -/
  | registerWrite (t : RegTarget)
  /-- MSIX_UNMASK (R163). Unmasking an MSI-X vector with its pending bit set sends one message. -/
  | msixUnmask (v : BitVec 6)
  /-- ENTRY_FETCH (R114). The host queue engine reserves a completion slot and fetches the next submission entry of a running ring. -/
  | entryFetch (sq : Nat) (entry : Bytes) (lane ctx : Nat)
  /-- ENTRY_READ_FAIL (R853). A submission entry read fails: INTERNAL_FAULT DMA_READ is written to the reserved slot and the ring enters ERROR. -/
  | entryReadFail (sq : Nat)
  /-- COMPLETION_WRITE_FAIL (R854). A completion write to host memory fails; the completion ring enters ERROR and later completions are discarded. -/
  | completionWriteFail (cq : Nat)
  /-- IRQ_MODERATION_TICK (R161). On each 1 µs tick a completion ring signals its vector when the moderation count or timer is met. -/
  | irqModerationTick
  /-- TELEMETRY_REFRESH (R34). The telemetry mirror fields are refreshed at least every 1 ms. -/
  | telemetryRefresh (mainTemp gateTemp : Nat)
  /-- GATEHOUSE_TELEMETRY_REFRESH (R743). The Gatehouse copy of the telemetry mirror is refreshed from the main die every 100 ms. -/
  | gatehouseTelemetryRefresh
  /-- DRIVE_LOG_POLL (R295). Once a second the SMART page of each attached drive is read for the telemetry mirror. -/
  | driveLogPoll (d : Nat) (log : SmartLog)
  /-- DEFINE_EVENT (R136). DEFINE_EVENT checks and records an event with its classes, publishes it, and then completes. -/
  | defineEvent (block : Bytes)
  /-- CLOSE_EVENT (R139). CLOSE_EVENT marks an event CLOSED for the rest of the epoch. -/
  | closeEvent (block : Bytes)
  /-- VOID_SERIALS (R320). VOID_SERIALS inserts a range into the void index, writes the VOID pair and completes once it is durable. -/
  | voidSerials (block : Bytes)
  /-- IMPORT_KEY (R556). IMPORT_KEY checks and unwraps owner key material and stores it at the slot's next generation. -/
  | importKey (block : Bytes)
  /-- DERIVE_KEY (R559). DERIVE_KEY derives a child key from a KDF parent and stores it at the slot's next generation. -/
  | deriveKey (block : Bytes)
  /-- RETIRE_KEY (R564). RETIRE_KEY marks a slot retiring, purges caches, commits KEY_RETIRE and destroys the key and its descendants. -/
  | retireKey (block : Bytes)
  /-- SET_TIME_VOUCHER (R694). SET_TIME_VOUCHER checks a time voucher and anchors secure time. -/
  | setTimeVoucher (block : Bytes)
  /-- QUERY_LEDGER (R318). QUERY_LEDGER reports a serial's state once every earlier operation on it is durable. -/
  | queryLedger (block : Bytes)
  /-- EPOCH_ROLL (R341). EPOCH_ROLL checks the roll conditions, queries the twin and writes the ROLL group. -/
  | epochRoll (block : Bytes)
  /-- BIND_RING (R144). BIND_RING sets a submission ring's lane mask for entries fetched afterwards. -/
  | bindRing (block : Bytes)
  /-- GET_STATS (R146). GET_STATS returns the unit-table version and the state of every unit. -/
  | getStats (block : Bytes)
  /-- HAND_BACK (R402). HAND_BACK stops decisions for the home, flushes the AUTHORITY group and offers authority back at term + 1. -/
  | handBack (block : Bytes)
  /-- CONTROL_BLOCK_READ_FAIL (R852). The read of a signed request block fails and the request completes INTERNAL_FAULT DMA_READ with no sequence recorded. -/
  | controlBlockReadFail
  /-- MINT_INTAKE (R172). INTAKE parses a MINT entry, reads event and class, and makes the INTAKE checks in order. -/
  | mintIntake (lane ctx : Nat)
  /-- MINT_WRAPPER_READ_DONE (R174). The foreign-payload wrapper read completes and the wrapper checks of R85 are made. -/
  | mintWrapperReadDone (lane ctx : Nat) (read : Option Bytes)
  /-- MINT_WRAPPER_READ_TIMEOUT (R857). A wrapper read not completed in 1 ms fails the mint with INTERNAL_FAULT DMA_READ. -/
  | mintWrapperReadTimeout (lane ctx : Nat)
  /-- MINT_CLOCK (R177). CLOCK takes the issue minute, checks time and uncertainty, and fixes or checks validity. -/
  | mintClock (lane ctx : Nat)
  /-- MINT_RULE (R181). RULE checks the event state, resolves the keys, draws random bytes and confirms the ML-DSA place. -/
  | mintRule (lane ctx : Nat)
  /-- KEY_CACHE_FILL (R188). A key-cache miss is served by the key engine and the entry is made, replacing the least recently used entry. -/
  | keyCacheFill (lane slot gen : Nat)
  /-- MINT_DRBG_TIMEOUT (R185). A mint held 2 ms in RULE for an unserved draw completes RANDOM_NOT_READY. -/
  | mintDrbgTimeout (lane ctx : Nat)
  /-- MINT_LEDGER_ASSIGN (R167). The ledger engine assigns the next local serial and applies UNISSUED→LIVE, or queues the mint for a lease. -/
  | mintLedgerAssign (lane ctx : Nat)
  /-- LEASE_OPEN_TIMEOUT (R196). A lease opening not committed and acknowledged in 2 ms ends every waiting mint with DURABILITY_TIMEOUT. -/
  | leaseOpenTimeout
  /-- MINT_SEAL_DONE (R204). SEAL finishes body, tag, signatures and NFC record, and hands any co-signature job to the ML-DSA queue. -/
  | mintSealDone (lane ctx : Nat)
  /-- MLDSA_JOB_DONE (R213). The ML-DSA unit finishes a co-signature job, frees its place and starts the next job. -/
  | mldsaJobDone
  /-- MINT_OUTPUT_WRITE_FAIL (R217). An output write fails and the mint completes INTERNAL_FAULT DMA_WRITE with its serial. -/
  | mintOutputWriteFail (lane ctx : Nat)
  /-- VERDICT_INTAKE (R224). The origin lane makes verdict checks 1–7 and either decides locally or forwards. -/
  | verdictIntake (lane ctx : Nat)
  /-- VERDICT_FWD_RX (R231). A VERDICT_FWD reaches its destination: it is deduplicated, decided, relayed, held or answered PAUSED. -/
  | verdictFwdRx (f : FwdFrame) (lane ctx : Nat)
  /-- HELD_FORWARD_TIMEOUT (R233). A held forward reaches the durability timeout and is answered DURABILITY_TIMEOUT with nothing applied. -/
  | heldForwardTimeout (src : Nat) (seq : BitVec 32)
  /-- FORWARD_CONTEXT_TIMEOUT (R863). A forwarded verdict finds no free lane context within the durability timeout and is answered DURABILITY_TIMEOUT. -/
  | forwardContextTimeout (src : Nat) (seq : BitVec 32)
  /-- VERDICT_CHECK (R239). CHECK resolves the key of the chosen path and verifies the gate tag or signature. -/
  | verdictCheck (lane ctx : Nat)
  /-- VERDICT_CLOCK (R245). CLOCK reads t and u once and checks anchoring, tolerance and validity. -/
  | verdictClock (lane ctx : Nat)
  /-- VERDICT_RULE (R249). RULE checks the event state, the EXIT class and the zone, and prefetches the exit record and void range. -/
  | verdictRule (lane ctx : Nat)
  /-- VERDICT_LEDGER_APPLY (R253). The ledger engine reads state, void membership and exit record, and decides and applies the verdict indivisibly. -/
  | verdictLedgerApply (lane ctx : Nat)
  /-- VERDICT_REPLY_RX (R236). A VERDICT_REPLY reaches the origin, which writes its fields into the completion with info[0] set, or discards it. -/
  | verdictReplyRx (lane ctx : Nat) (status verdict : Byte) (seq : BitVec 32) (info : Byte) (detail decider : BitVec 16) (serial : BitVec 56)
  /-- FORWARD_REPLY_TIMEOUT (R237). No reply by the durability timeout plus 1 ms completes the forwarded verdict with DURABILITY_TIMEOUT. -/
  | forwardReplyTimeout (lane ctx : Nat)
  /-- PASSBACK_REBUILD_BLOCK (R264). The passback rebuild reads one more journal block backwards, adds exit records and lowers the cover instant. -/
  | passbackRebuildBlock
  /-- GROUP_TICK (R305). The 10 µs group timer closes and seals the open group into a journal block, writes it to the drives and mirrors it. -/
  | groupTick
  /-- JOURNAL_BLOCK_WRITE_DONE (R308). A drive completes a journal block write, which may make the group durable under the policy. -/
  | journalBlockWriteDone (d block : Nat)
  /-- DRIVE_WRITE_ERROR (R335). A drive reports a write error and leaves the serving set, with failover when none remains. -/
  | driveWriteError (d : Nat)
  /-- DRIVE_LOST (R335). A drive's link goes down or it stops answering; FAILED is posted against the SSD port by hardware. -/
  | driveLost (d : Nat)
  /-- MIRROR_JOURNAL_RX (R306). A mirrored group arrives at the twin, which writes it as a MIRROR block in sequence and applies it to the shadow. -/
  | mirrorJournalRx (src : Nat) (epoch : BitVec 4) (group tFirst : Nat) (recs : List JRec)
  /-- GROUP_ACK_RX (R306). A GROUP_ACK arrives and acknowledges the named group and every earlier group. -/
  | groupAckRx (src : Nat) (epoch : BitVec 4) (group : Nat)
  /-- LEASE_MIRROR_RX (R382). A LEASE_MIRROR arrives; the twin commits the ceiling and answers LEASE_ACK, or refuses by silence. -/
  | leaseMirrorRx (src : Nat) (epoch : BitVec 4) (ceiling : Nat)
  /-- LEASE_ACK_RX (R53). A LEASE_ACK arrives and lets the lease's serials be assigned. -/
  | leaseAckRx (src : Nat) (epoch : BitVec 4) (ceiling : Nat)
  /-- PAGE_REQUEST_RX (R383). A PAGE_REQUEST arrives and is answered with PAGE and its group_end, or with PAGE_ABSENT. -/
  | pageRequestRx (src : Nat) (epoch : BitVec 4) (subject page : Nat)
  /-- PAGE_RX (R383). A PAGE arrives and is written to its slot with later held records applied. -/
  | pageRx (src : Nat) (epoch : BitVec 4) (subject page groupEnd : Nat) (entries : Tbl LState)
  /-- PAGE_ABSENT_RX (R383). A PAGE_ABSENT arrives and the waiting operation stays subject to the page-miss bound. -/
  | pageAbsentRx (src : Nat) (epoch : BitVec 4) (subject page : Nat)
  /-- VOID_REQUEST_RX (R400). A VOID_REQUEST arrives and is answered with the named VOID_BLOCK. -/
  | voidRequestRx (src : Nat) (epoch : BitVec 4) (subject block : Nat)
  /-- VOID_BLOCK_RX (R400). A VOID_BLOCK arrives and its ranges are added to the void index being rebuilt. -/
  | voidBlockRx (src : Nat) (epoch : BitVec 4) (subject block : Nat) (ranges : List (Nat × Nat))
  /-- MIRROR_RESEND_TIMEOUT (R307). 300 µs without acknowledgement, and the group is resent from the journal. -/
  | mirrorResendTimeout (group : Nat)
  /-- DURABILITY_TIMEOUT (R313). An operation not durable 250 µs after application or arrival completes DURABILITY_TIMEOUT. -/
  | durabilityTimeout (lane ctx : Nat)
  /-- PAGE_READ_DONE (R292). A page read completes: a verified page enters the cache, and one that fails its tag is fetched elsewhere and rewritten. -/
  | pageReadDone (slot d : Nat) (data : Option (Tbl LState))
  /-- PAGE_MISS_SECOND_READ (R287). 60 µs without a verified page, and the page is also read from the other serving drive. -/
  | pageMissSecondRead (slot : Nat)
  /-- PAGE_MISS_TIMEOUT (R287). 120 µs without the page, and the operation completes LEDGER_MISS_TIMEOUT unapplied. -/
  | pageMissTimeout (lane ctx : Nat)
  /-- CHECKPOINT_START (R324). After 60 s or 2^20 records a checkpoint starts and fixes p, its snapshot and its dirty pages. -/
  | checkpointStart
  /-- CHECKPOINT_WRITES_DONE (R327). A checkpoint's page, metadata and slot writes end on every serving drive, and its LEDGER_CHECKPOINT record is appended. -/
  | checkpointWritesDone
  /-- VOID_REWRITE_PAGE (R321). The background rewrite turns the void-covered entries of one more page into CLOSED. -/
  | voidRewritePage
  /-- RESILVER_COPY_DONE (R336). The copies of a re-silver end, and it waits for a checkpoint that completes on both drives. -/
  | resilverCopyDone (d : Nat)
  /-- PC_REBUILD_DONE (R338). A pseudo-channel rebuild into the headroom ends; clean pages are forgotten and the unit becomes RETIRED. -/
  | pcRebuildDone (pc : Nat)
  /-- ROLL_CONFIRM_TIMEOUT (R341). No twin answer in 2 ms, and EPOCH_ROLL completes DURABILITY_TIMEOUT. -/
  | rollConfirmTimeout
  /-- LINK_TRAIN_START (R351). A port enables its transmitters, sends the training pattern, and the link goes to TRAINING. -/
  | linkTrainStart (p : Port) (echo : Option Nat)
  /-- TRAINING_PATTERN_DETECT (R353). An ACTIVE port with its link DOWN detects the training pattern and starts training at once. -/
  | trainingPatternDetect (p : Port) (echo : Option Nat)
  /-- HELLO_RX (R352). A HELLO block is checked against neighbour, port, extents and variant, or the link stays DOWN with an observation posted. -/
  | helloRx (p : Port) (h : Hello)
  /-- KEYX_RX (R355). A KEYX block confirms the derived link keys, or leaves the link DOWN. -/
  | keyxRx (p : Port) (mac nonce : Bytes) (switchAt : Nat)
  /-- LINK_TRAIN_TIMEOUT (R353). A link not UP within 50 ms becomes DOWN. -/
  | linkTrainTimeout (p : Port)
  /-- LINK_RETRY_TIMER (R353). Every 100 ms a DOWN link of an ACTIVE port starts training again. -/
  | linkRetryTimer (p : Port) (echo : Option Nat)
  /-- LINK_REKEY (R357). After 2^31 frames or 10 minutes the link ends exchange KEYX and switch keys at a named frame count. -/
  | linkRekey (p : Port)
  /-- ACK_TIMER (R358). At least every 1 µs the receiver sends ACK with the last in-order link_seq. -/
  | ackTimer (p : Port)
  /-- ACK_RX (R358). An ACK block releases acknowledged frames from the replay buffer. -/
  | ackRx (p : Port) (linkSeq : Nat)
  /-- NAK_RX (R359). A NAK block makes the sender resend from the named frame, or drops the link after 8 resends. -/
  | nakRx (p : Port) (linkSeq : Nat)
  /-- LINK_ACK_TIMEOUT (R360). No ACK for 20 µs takes the link DOWN and discards its replay buffer. -/
  | linkAckTimeout (p : Port)
  /-- DEGRADE_RX (R414). A DEGRADE block names a lane, and both ends stop sending and retrain on the other lane. -/
  | degradeRx (p : Port) (lane : BitVec 1)
  /-- LANE_RETRAIN_DONE (R414). The retrain on the remaining lane ends and both ends resume from their replay buffers at half rate. -/
  | laneRetrainDone (p : Port)
  /-- LANE_RETRAIN_TIMEOUT (R414). A retrain not finished within 100 µs takes the link DOWN. -/
  | laneRetrainTimeout (p : Port)
  /-- DOWN_RX (R413). A DOWN block takes the link DOWN at both ends and routes detour. -/
  | downRx (p : Port)
  /-- FRAME_ROUTE (R370). A frame not for this node is sent on, detoured, redirected or discarded, and re-encrypted for the output link. -/
  | frameRoute (p : Port) (wire : Bytes)
  /-- HEARTBEAT_TIMER (R386). Every 100 µs a HEARTBEAT is sent to each adjacent node, routed when no direct link is UP. -/
  | heartbeatTimer
  /-- HEARTBEAT_RX (R385). A HEARTBEAT arrives: the sender is heard and its term and state are adopted if higher. -/
  | heartbeatRx (src : Nat) (ownAuth twinAuth shadow dataOpen : Bool) (epoch : BitVec 4) (term groupEnd : Nat)
  /-- HEARTBEAT_SILENCE (R388). 300 µs without a HEARTBEAT from an adjacent node, which is no longer heard; a twin or home starts its witness query. -/
  | heartbeatSilence (src : Nat)
  /-- WITNESS_QUERY_RX (R391). A witness answers TAKEOVER or EXCLUDE with GRANT, REFUSE or ABSTAIN. -/
  | witnessQueryRx (src : Nat) (excl : Bool) (home term : Nat)
  /-- WITNESS_REPLY_RX (R393). A witness reply is counted, and once enough grants are held the decision is sent to the granting witnesses. -/
  | witnessReplyRx (src : Nat) (excl : Bool) (answer : WAnswer) (home term : Nat)
  /-- DECISION_ACK_RX (R393). A DECISION_ACK is counted, and once enough are held the term is raised and TAKEOVER or EXCLUDE is flooded. -/
  | decisionAckRx (f : MFrame)
  /-- GRANT_LAPSE (R390). A grant lapses 5 ms after it was last given, unless a decision on it was acknowledged. -/
  | grantLapse (home : Nat)
  /-- COLLECTION_TIMEOUT (R394). A takeover or exclusion attempt that has not met its condition in 4 ms is abandoned. -/
  | collectionTimeout
  /-- COLLECTION_RETRY (R394). 5 ms after the first query, an attempt starts again while its condition persists. -/
  | collectionRetry
  /-- ABSTAIN_PERIOD_END (R391). 10 ms after Pergola join, a witness stops answering ABSTAIN. -/
  | abstainPeriodEnd
  /-- JOIN_RX (R374). A flooded JOIN marks the sender a member and is flooded on. -/
  | joinRx (f : MFrame)
  /-- WITHDRAW_RX (R397). A WITHDRAW from the home makes the twin take authority without witnesses once it holds the named groups. -/
  | withdrawRx (f : MFrame)
  /-- TAKEOVER_RX (R376). A TAKEOVER raises the home's term and holder in the view, and makes a home that was overtaken yield. -/
  | takeoverRx (f : MFrame)
  /-- EXCLUDE_RX (R865). An EXCLUDE raises the term; an excluded twin takes its shadow to be incomplete. -/
  | excludeRx (f : MFrame)
  /-- SHADOW_COMPLETE_RX (R400). A SHADOW_COMPLETE lets the partner count the sender for durability and set twin_member. -/
  | shadowCompleteRx (f : MFrame)
  /-- HANDBACK_OFFER_RX (R402). The home checks it holds every group, records term + 1, takes authority and sends and floods HANDBACK_ACCEPT. -/
  | handbackOfferRx (f : MFrame)
  /-- HANDBACK_ACCEPT_RX (R403). The holder clears twin_authority, completes HAND_BACK DONE and passes on waiting operations. -/
  | handbackAcceptRx (f : MFrame)
  /-- HANDBACK_OFFER_TIMEOUT (R403). 2 ms after the offer with the old term still shown, the holder resumes and completes HAND_BACK DURABILITY_TIMEOUT. -/
  | handbackOfferTimeout
  /-- ROLL_QUERY_RX (R869). The twin answers ROLL_CONFIRM or ROLL_REFUSE to an epoch-roll query. -/
  | rollQueryRx (f : MFrame)
  /-- ROLL_CONFIRM_RX (R341). The twin's confirmation lets EPOCH_ROLL proceed to its ROLL group. -/
  | rollConfirmRx (f : MFrame)
  /-- ROLL_REFUSE_RX (R341). The twin's refusal completes EPOCH_ROLL BAD_FORMAT. -/
  | rollRefuseRx (f : MFrame)
  /-- ROLL_CONFIRM_LAPSE (R869). A roll confirmation lapses 2 ms after it was sent. -/
  | rollConfirmLapse
  /-- VIEW_REQUEST_RX (R868). A neighbour answers a VIEW_REQUEST with VIEW frames for every home not in the default state. -/
  | viewRequestRx (f : MFrame)
  /-- VIEW_RX (R868). A VIEW frame sets a home's term, holder and membership in the joining node's view. -/
  | viewRx (f : MFrame)
  /-- VIEW_REQUEST_TIMEOUT (R868). A VIEW answer not begun within 5 ms makes the node ask the next UP neighbour. -/
  | viewRequestTimeout
  /-- TIME_PULSE_TIMER (R406). Every 1 ms a TIME_PULSE is sent on every UP link. -/
  | timePulseTimer
  /-- TIME_PULSE_RX (R407). A TIME_PULSE is compared with local time, and a TIME_OFFSET observation is posted when the offset is too large. -/
  | timePulseRx (p : Port) (src time unc : Nat) (anchored : Bool)
  /-- KEY_TRANSPORT_REQUEST_RX (R586). A key REQUEST from the twin is answered DELIVER or REFUSE. -/
  | keyTransportRequestRx (src slot : Nat) (xfer : BitVec 32)
  /-- KEY_TRANSPORT_DELIVER_RX (R587). A delivered key is stored in an EMPTY or BAD slot and a RECEIPT is sent once committed. -/
  | keyTransportDeliverRx (src slot : Nat) (xfer : BitVec 32) (blob : Bytes)
  /-- KEY_TRANSPORT_REFUSE_RX (R412). A REFUSE ends the transfer with no key. -/
  | keyTransportRefuseRx (src slot : Nat) (xfer : BitVec 32)
  /-- KEY_TRANSPORT_RECEIPT_RX (R412). A RECEIPT ends the transfer as successful. -/
  | keyTransportReceiptRx (src slot : Nat) (xfer : BitVec 32)
  /-- KEY_TRANSPORT_TIMEOUT (R412). No RECEIPT 10 ms after DELIVER, and the transfer counts as failed. -/
  | keyTransportTimeout
  /-- CORE_RESET (R417). A Serge core is reset: registers are set VOID, the handle table is emptied, and data RAM is filled with VOID before the first fetch. -/
  | coreReset (c : CoreId)
  /-- LD (R434). LD loads the operand into ACC. -/
  | ld (x : SCtx) (mode : SMode) (field : BitVec 5)
  /-- ST (R434). ST stores ACC at the effective address. -/
  | st (x : SCtx) (mode : SMode) (field : BitVec 5)
  /-- ADD (R435). ADD adds the operand to ACC and sets the flags. -/
  | add (x : SCtx) (mode : SMode) (field : BitVec 5)
  /-- SUB (R435). SUB subtracts the operand from ACC and sets the flags. -/
  | sub (x : SCtx) (mode : SMode) (field : BitVec 5)
  /-- AND (R434). AND forms the bitwise and of ACC and the operand. -/
  | andOp (x : SCtx) (mode : SMode) (field : BitVec 5)
  /-- OR (R434). OR forms the bitwise or of ACC and the operand. -/
  | orOp (x : SCtx) (mode : SMode) (field : BitVec 5)
  /-- XOR (R434). XOR forms the bitwise exclusive or of ACC and the operand. -/
  | xor (x : SCtx) (mode : SMode) (field : BitVec 5)
  /-- CMP (R435). CMP sets the flags from ACC minus the operand, leaving ACC unchanged. -/
  | cmp (x : SCtx) (mode : SMode) (field : BitVec 5)
  /-- MUL (R434). MUL forms the signed 64-bit product into ACC and Y. -/
  | mul (x : SCtx) (mode : SMode) (field : BitVec 5)
  /-- DIV (R452). DIV divides ACC by the operand with the remainder in Y, and traps DIVZERO on zero. -/
  | div (x : SCtx) (mode : SMode) (field : BitVec 5)
  /-- LDX (R433). LDX loads X, or adds an offset to X in mode 01. -/
  | ldx (x : SCtx) (mode : SMode) (field : BitVec 5)
  /-- LDY (R433). LDY loads Y, or adds an offset to Y in mode 10. -/
  | ldy (x : SCtx) (mode : SMode) (field : BitVec 5)
  /-- JMP (R438). JMP sets PC to the target, or traps BUS outside program memory. -/
  | jmp (x : SCtx) (mode : SMode) (field : BitVec 5)
  /-- CALL (R434). CALL writes the CADDR of the next instruction to LR and jumps. -/
  | call (x : SCtx) (mode : SMode) (field : BitVec 5)
  /-- XMOV (R434). XMOV copies a tagged word from [X + offset] to [Y] and steps both. -/
  | xmov (x : SCtx) (field : BitVec 5)
  /-- NOP (R440). NOP does nothing. -/
  | nop (x : SCtx)
  /-- HALT (R444). HALT stops the core until reset, and hardware posts HALT and raises PEER_LOST and DB_ALERT. -/
  | halt (x : SCtx)
  /-- WAIT (R443). WAIT suspends the core until an enabled interrupt is pending. -/
  | wait (x : SCtx)
  /-- WAIT_COMPLETE (R443). An enabled interrupt becomes pending during WAIT; it is taken, or execution continues. -/
  | waitComplete (c : CoreId)
  /-- SVC (R440). SVC traps SVC with the service number in ACC. -/
  | svc (x : SCtx)
  /-- EI (R442). EI sets IE after the next instruction completes. -/
  | ei (x : SCtx)
  /-- DI (R442). DI clears IE at once. -/
  | di (x : SCtx)
  /-- IRET (R460). IRET restores PC, flags, IE, DP, REPC and state from the frame of the current state. -/
  | iret (x : SCtx)
  /-- RET (R440). RET jumps to the CADDR in LR. -/
  | ret (x : SCtx)
  /-- JMPA (R440). JMPA jumps to the CADDR in ACC. -/
  | jmpa (x : SCtx)
  /-- NEG (R452). NEG negates ACC. -/
  | neg (x : SCtx)
  /-- NOT (R440). NOT inverts ACC, keeping its tag. -/
  | notOp (x : SCtx)
  /-- STX (R440). STX copies ACC into X. -/
  | stx (x : SCtx)
  /-- STY (R440). STY copies ACC into Y. -/
  | sty (x : SCtx)
  /-- XA (R440). XA copies X into ACC. -/
  | xa (x : SCtx)
  /-- YA (R440). YA copies Y into ACC. -/
  | ya (x : SCtx)
  /-- LRA (R440). LRA copies LR into ACC. -/
  | lra (x : SCtx)
  /-- ALR (R440). ALR copies a CADDR in ACC into LR. -/
  | alr (x : SCtx)
  /-- ASI (R440). ASI retags ACC as INT. -/
  | asi (x : SCtx)
  /-- ASB (R440). ASB retags ACC as BITS. -/
  | asb (x : SCtx)
  /-- LSLX (R452). LSLX shifts ACC left by X[5:0]. -/
  | lslx (x : SCtx)
  /-- LSRX (R452). LSRX shifts ACC logically right by X[5:0]. -/
  | lsrx (x : SCtx)
  /-- ASRX (R452). ASRX shifts ACC arithmetically right by X[5:0]. -/
  | asrx (x : SCtx)
  /-- RORX (R452). RORX rotates ACC right by X[5:0]. -/
  | rorx (x : SCtx)
  /-- ADP (R440). ADP sets DP from bits [15:5] of a DADDR in ACC. -/
  | adp (x : SCtx)
  /-- TQ (R440). TQ sets Z when ACC's tag equals the queried tag. -/
  | tq (x : SCtx) (t : BitVec 3)
  /-- DPA (R440). DPA loads ACC with the DADDR of the data page. -/
  | dpa (x : SCtx)
  /-- LSL (R452). LSL shifts ACC left by an immediate count of 1–32. -/
  | lsl (x : SCtx) (field : BitVec 5)
  /-- LSR (R452). LSR shifts ACC logically right by an immediate count of 1–32. -/
  | lsr (x : SCtx) (field : BitVec 5)
  /-- ASR (R452). ASR shifts ACC arithmetically right by an immediate count of 1–32. -/
  | asr (x : SCtx) (field : BitVec 5)
  /-- UNDEFINED_INSTRUCTION (R454). A word sequence that is undefined or badly prefixed traps UNDEF or PREFIX. -/
  | undefinedInstruction (c : CoreId) (words : List (BitVec 14))
  /-- REPEAT_ITERATION (R448). One iteration of a REP or REPX instruction runs and steps its index registers, yielding to interrupts when interruptible. -/
  | repeatIteration (c : CoreId)
  /-- INTERRUPT_ENTRY (R463). Between instructions or iterations, the lowest pending enabled source is taken through the interrupt frame. -/
  | interruptEntry (c : CoreId)
  /-- KEY_CMD_OPEN (R551). OPEN returns a handle to a LOADED slot at the generation named for the writing core. -/
  | keyCmdOpen (c : CoreId)
  /-- KEY_CMD_CLOSE (R552). CLOSE releases a handle from the writing core's table. -/
  | keyCmdClose (c : CoreId)
  /-- KEY_CMD_IMPORT (R486). IMPORT unwraps and stores a key and returns its handle. -/
  | keyCmdImport (c : CoreId)
  /-- KEY_CMD_DERIVE (R560). DERIVE derives and stores a child key and returns its handle. -/
  | keyCmdDerive (c : CoreId)
  /-- KEY_CMD_RETIRE (R564). RETIRE raises a slot's generation and orphans its children. -/
  | keyCmdRetire (c : CoreId)
  /-- KEY_CMD_VERIFY (R486). VERIFY checks a signature under a public-key handle. -/
  | keyCmdVerify (c : CoreId)
  /-- KEY_CMD_MAC (R486). MAC computes a CMAC or HMAC under a key handle. -/
  | keyCmdMac (c : CoreId)
  /-- KEY_CMD_TRANSPORT_WRAP (R585). TRANSPORT_WRAP seals a key into a transport blob. -/
  | keyCmdTransportWrap (c : CoreId)
  /-- KEY_CMD_TRANSPORT_UNWRAP (R587). TRANSPORT_UNWRAP stores a key from a transport blob and returns its handle. -/
  | keyCmdTransportUnwrap (c : CoreId)
  /-- KEY_CMD_ATTEST (R583). ATTEST builds and MACs an attestation response for a challenge. -/
  | keyCmdAttest (c : CoreId)
  /-- KEY_COMMAND_END (R484). A key-engine command ends, setting done, its status and its results, and raising KEY_DONE. -/
  | keyCommandEnd
  /-- DIG_START (R596). DIG_START claims the FIRMWARE context and begins a hash or HMAC message, or returns BUSY. -/
  | digStart (c : CoreId) (value : BitVec 32)
  /-- DIG_UPDATE (R593). DIG_UPDATE absorbs DIG_LEN bytes from data RAM into the owner's message. -/
  | digUpdate (c : CoreId)
  /-- DIG_FINISH (R604). DIG_FINISH finishes the message into the result bank, or extends MEAS_6 or MEAS_7. -/
  | digFinish (c : CoreId) (value : BitVec 32)
  /-- DIG_ABORT (R597). DIG_ABORT ends the owner's message with no result and releases the context. -/
  | digAbort (c : CoreId)
  /-- DIG_COMMAND_END (R593). A digest command ends, setting done and its result, and raising DIG_DONE. -/
  | digCommandEnd
  /-- RNG_GENERATE (R633). GENERATE requests DRBG output into data RAM. -/
  | rngGenerate (c : CoreId)
  /-- RNG_GENERATE_FRESH (R643). GENERATE_FRESH reseeds from newly gathered bits and then generates. -/
  | rngGenerateFresh (c : CoreId)
  /-- RNG_SELECT (R628). RNG_SELECT switches the noise bank to a named ACTIVE source without posting a failure. -/
  | rngSelect (c : CoreId) (value : BitVec 32)
  /-- RNG_TEST (R627). RNG_TEST starts the start-up test of a source in TESTING. -/
  | rngTest (c : CoreId) (value : BitVec 32)
  /-- RNG_COMMAND_END (R642). A firmware random command ends DONE, RANDOM_NOT_READY, BAD_FORMAT or TAMPER_ABORT. -/
  | rngCommandEnd (c : CoreId)
  /-- NOISE_HEALTH_FAIL (R624). The source in use fails a health test: bits are discarded, FAILED is posted and the bank switches to the next source. -/
  | noiseHealthFail (bits : List Bool)
  /-- NOISE_STARTUP_TEST_DONE (R625). A source's start-up test ends: a pass makes the bank READY, a failure moves on to the next source. -/
  | noiseStartupTestDone (source : Nat) (bits : List Bool)
  /-- RESEED_BUFFER_FULL (R632). The reseed buffer fills, which instantiates or reseeds the DRBG when it is waiting. -/
  | reseedBufferFull (bits : Bytes)
  /-- DRBG_RESEED_LIMIT (R631). 2^20 requests or 1 s since the last reseed, and the DRBG reseeds or waits for entropy. -/
  | drbgReseedLimit
  /-- DRBG_REQUEST_TIMEOUT (R635). A random request unserved for 2 ms ends with RANDOM_NOT_READY. -/
  | drbgRequestTimeout (c : CoreId)
  /-- NOISE_RETEST_TIMER (R627). Once a noise source has been FAILED for 10 s, firmware moves it to TESTING. -/
  | noiseRetestTimer (source : Nat)
  /-- LED_QUERY (R489). LED_CMD QUERY reads a serial's ledger state. -/
  | ledQuery (c : CoreId)
  /-- LED_VOID (R489). LED_CMD VOID voids a range of serials. -/
  | ledVoid (c : CoreId)
  /-- LED_ROLL (R489). LED_CMD ROLL starts the epoch roll in the ledger engine. -/
  | ledRoll (c : CoreId)
  /-- LED_CHECKPOINT (R489). LED_CMD CHECKPOINT starts a checkpoint. -/
  | ledCheckpoint (c : CoreId)
  /-- LED_COMMAND_END (R489). A ledger command ends under its request's rule, with the status in LED_STATUS, and raises LED_DONE. -/
  | ledCommandEnd
  /-- LANE_SELFTEST (R487). A write to LANE_SELFTEST starts a self-test of a lane in TESTING. -/
  | laneSelftest (c : CoreId) (lane : Nat)
  /-- LANE_SELFTEST_DONE (R487). A lane self-test ends, setting LANE_RESULT, and a pass posts TEST_PASSED. -/
  | laneSelftestDone (lane : Nat) (pass : Bool) (syndrome : BitVec 32)
  /-- LANE_PURGE (R190). A write to LANE_PURGE, or a purge cause, empties a lane's key cache within 10 µs. -/
  | lanePurge (c : CoreId) (lane : Nat)
  /-- LANE_CLOCK_GATE (R803). A lane idle for 200 µs gates its clock, and DOZE begins when every ACTIVE lane is gated. -/
  | laneClockGate (lane : Nat)
  /-- HQ_CTL_FETCH (R487). HQ_CTL_FETCH copies the next CONTROL entry into data RAM. -/
  | hqCtlFetch (c : CoreId) (entry : Bytes)
  /-- HQ_CTL_COMPLETE (R487). HQ_CTL_COMPLETE writes a CONTROL completion entry to the host. -/
  | hqCtlComplete (c : CoreId)
  /-- HQ_DMA_HOST_TO_LOCAL (R487). HQ_DMA_CMD 0x01 copies host bytes into data RAM. -/
  | hqDmaHostToLocal (c : CoreId) (bytes : Bytes)
  /-- HQ_DMA_LOCAL_TO_HOST (R487). HQ_DMA_CMD 0x02 copies data RAM bytes to the host. -/
  | hqDmaLocalToHost (c : CoreId)
  /-- HQ_DMA_DONE (R487). A control-core DMA ends with done or error. -/
  | hqDmaDone (ok : Bool)
  /-- HQ_PLANE_OPEN (R711). HQ_PLANE open opens the data plane, and is ignored while a tamper response has not cleared. -/
  | hqPlaneOpen (c : CoreId)
  /-- HQ_PLANE_PAUSE (R487). HQ_PLANE pause pauses the data plane. -/
  | hqPlanePause (c : CoreId)
  /-- HQ_BIND (R145). HQ_BIND applies a ring's lane mask. -/
  | hqBind (c : CoreId) (value : BitVec 32)
  /-- HBM_PUBLISH (R488). HBM_PUBLISH starts publishing a directory entry for an event record. -/
  | hbmPublish (c : CoreId)
  /-- HBM_PUBLISH_END (R488). A publish ends once every request earlier in an event-reading stage has left it, and HBM_EVENT is raised. -/
  | hbmPublishEnd
  /-- FAB_CMD_HAND_BACK (R402). FAB_CMD HAND_BACK starts the hand-back procedure for a home and term. -/
  | fabCmdHandBack (c : CoreId)
  /-- FAB_CMD_WITHDRAW (R397). FAB_CMD WITHDRAW floods WITHDRAW naming the last durable own group. -/
  | fabCmdWithdraw (c : CoreId)
  /-- FAB_CMD_KEY_REQUEST (R412). FAB_CMD KEY_REQUEST sends a key REQUEST for a slot to the twin. -/
  | fabCmdKeyRequest (c : CoreId)
  /-- FAB_CMD_ROLL_QUERY (R341). FAB_CMD ROLL_QUERY asks the twin to confirm an epoch roll. -/
  | fabCmdRollQuery (c : CoreId)
  /-- FAB_COMMAND_END (R490). A fabric command ends with its status, and FAB_EVENT is raised. -/
  | fabCommandEnd
  /-- NVME_ATTACH_RESILVER (R336). NVME_CMD attach and re-silver starts attaching a drive and copying the ledger to it. -/
  | nvmeAttachResilver (c : CoreId) (d : Nat)
  /-- DRIVE_ATTACH (R336). A drive attaches; a drive that fails R294 is refused, otherwise it is deallocated and its label is set RESILVERING. -/
  | driveAttach (d : Nat) (id : DriveId)
  /-- NVME_RETIRE (R335). NVME_CMD retire takes a drive out of the serving set. -/
  | nvmeRetire (c : CoreId) (d : Nat)
  /-- TIME_VOUCHER_SUBMIT (R696). TIME_CMD submits a voucher from data RAM for checking by the Gatehouse. -/
  | timeVoucherSubmit (c : CoreId)
  /-- TIME_COMMAND_END (R696). A voucher check ends with its status in TIME_STATUS, and TIME_EVENT is raised. -/
  | timeCommandEnd
  /-- TIME_MIRROR_UPDATE (R692). Every 1 ms the Gatehouse sends time, uncertainty and the anchored state to the main-die mirror. -/
  | timeMirrorUpdate
  /-- REC_APPEND (R657). REC_CMD APPEND queues a record for the append engine, or defers it. -/
  | recAppend (c : CoreId)
  /-- REC_READ (R666). REC_CMD READ reads the latest committed version of a key into data RAM. -/
  | recRead (c : CoreId)
  /-- REC_READ_DONE (R666). A record read ends with the header and payload written, and REC_DONE is raised. -/
  | recReadDone
  /-- REC_BEGIN_TX (R662). REC_CMD BEGIN_TX appends an INTENT opening a transaction of n parts. -/
  | recBeginTx (c : CoreId) (parts : BitVec 4)
  /-- REC_ABORT_TX (R664). REC_CMD ABORT_TX rolls back the open transaction. -/
  | recAbortTx (c : CoreId)
  /-- REC_HOT_WRITE (R681). REC_CMD HOT_WRITE stores slots in the hot set, or ends PAUSED during a save. -/
  | recHotWrite (c : CoreId)
  /-- REC_HOT_READ (R666). REC_CMD HOT_READ copies hot-set slots into data RAM. -/
  | recHotRead (c : CoreId)
  /-- REC_APPEND_COMMIT (R654). An append's page programs, commit word and verify read end; it commits, is retried or ends INTERNAL_FAULT. -/
  | recAppendCommit (verify : Bool)
  /-- APPEND_PRECONDITIONS_MET (R658). VSTBY enters its window and HOLDCAP reaches 4.5 V, so the deferred append at the head of the queue begins. -/
  | appendPreconditionsMet
  /-- SECTOR_ERASE_DONE (R648). A sector erase ends and the sector joins the erased pool. -/
  | sectorEraseDone (sector : Nat)
  /-- SECTOR_REFRESH (R677). A sector erased more than 10 years ago, or with a twice-corrected group, has its live records copied forward and is erased. -/
  | sectorRefresh (sector : Nat)
  /-- PWR_ROLE_GIVE (R491). A GIVE by the active core moves the active role to a peer that is up, and extends measurements on adoption. -/
  | pwrRoleGive (c : CoreId)
  /-- PWR_ROLE_TAKE (R491). A TAKE by the standby moves the role when the peer has halted, is held in reset or gave it. -/
  | pwrRoleTake (c : CoreId)
  /-- PWR_WDOG (R492). A write to PWR_WDOG restarts the writing core's watchdog. -/
  | pwrWdog (c : CoreId)
  /-- WATCHDOG_EXPIRE (R492). A core's watchdog expires; it is held in reset and HALT is posted. -/
  | watchdogExpire (c : CoreId)
  /-- PWR_PEER_RESET (R518). PWR_PEER_RESET resets the other main-die core, optionally to boot the staged bank. -/
  | pwrPeerReset (c : CoreId) (value : BitVec 32)
  /-- PWR_REQ_NAP (R804). PWR_REQ NAP enters NAP, or is refused with the reason in PWR_STATE. -/
  | pwrReqNap (c : CoreId)
  /-- PWR_REQ_KEEP (R809). PWR_REQ KEEP closes the data plane, checkpoints, flushes, withdraws and powers off the main die, or is refused. -/
  | pwrReqKeep (c : CoreId)
  /-- PWR_REQ_WAKE (R807). A WAKE write by core G wakes the node from NAP. -/
  | pwrReqWake (c : CoreId)
  /-- KEEP_WITHDRAW_WAIT_TIMEOUT (R809). 10 ms after WITHDRAW on KEEP entry, the node stops and powers off the main die whether or not TAKEOVER has come. -/
  | keepWithdrawWaitTimeout
  /-- NAP_WAKE_EVENT (R807). A wake cause in NAP starts the restart of the main PLL, HBM and links. -/
  | napWakeEvent (w : WakeCause)
  /-- NAP_WAKE_DONE (R807). The wake ends within 30 µs with the time mirror refreshed; held timers resume and an overdue checkpoint starts. -/
  | napWakeDone
  /-- KEEP_WAKE (R811). DB_WAKE in KEEP starts the main die from boot step 2. -/
  | keepWake
  /-- GPIO_WAKE_INPUT (R811). A GPIO named in WAKE_GPIO goes low in KEEP, and core G rings DB_WAKE. -/
  | gpioWakeInput (n : Nat)
  /-- ID_LOAD (R510). ID_LOAD loads program RAM, and is ignored once ID_LOCK is set. -/
  | idLoad (c : CoreId) (word : BitVec 14)
  /-- MBX_POST_NEXT (R29). MBX_POST_NEXT removes the head post from the post queue. -/
  | mbxPostNext (c : CoreId)
  /-- MBX_POST_SELF (R496). MBX_POST_SELF queues a post with source 3. -/
  | mbxPostSelf (c : CoreId) (word : BitVec 32)
  /-- OBSERVATION_POST (R498). The data plane or hardware posts an observation to the post queue and rings DB_OBSERVE, overflowing when full. -/
  | observationPost (unit : Nat) (st : BitVec 3) (source : BitVec 2) (reason : BitVec 8)
  /-- MBX_APPLY (R503). MBX_APPLY changes a unit's applied state along an allowed transition, or refuses. -/
  | mbxApply (c : CoreId) (word : BitVec 32)
  /-- FAILOVER_SETTLED (R41). Every request in flight has settled, and the node withdraws from the fabric. -/
  | failoverSettled
  /-- UNIT_DRAINED (R503). A DRAINING or DISPUTED unit finishes its last work and sets drained. -/
  | unitDrained (unit : Nat)
  /-- MBX_DOORBELL_TABLE (R505). MBX_DOORBELL rings DB_TABLE to the data plane and management. -/
  | mbxDoorbellTable (c : CoreId)
  /-- MBX_DOORBELL_ALERT (R496). MBX_DOORBELL rings DB_ALERT to management. -/
  | mbxDoorbellAlert (c : CoreId)
  /-- MBX_IRQ_PENDING_CLEAR (R495). A w1c write clears pending interrupt bits, which set again while their condition holds. -/
  | mbxIrqPendingClear (c : CoreId) (mask setNow : BitVec 32)
  /-- TIMER_MATCH (R493). TIME_NOW_LO reaches MBX_TIMER and source 21 becomes pending. -/
  | timerMatch (c : CoreId)
  /-- MBX_PEER_SEND (R497). MBX_PEER_SEND sends a message to the other main-die core, or is ignored before the previous one is acknowledged. -/
  | mbxPeerSend (c : CoreId) (count : Nat)
  /-- MBX_PEER_ACK (R496). MBX_PEER_ACK releases the received peer message and acknowledges it. -/
  | mbxPeerAck (c : CoreId)
  /-- MBX_G_SEND (R497). MBX_G_SEND sends mail to core G over the Gatehouse link. -/
  | mbxGSend (c : CoreId) (count : Nat)
  /-- MBX_G_ACK (R496). MBX_G_ACK releases received Gatehouse mail and acknowledges it. -/
  | mbxGAck (c : CoreId)
  /-- TAMPER_ALARM (R706). A sensor alarms and the response of its level is carried out: pause, abort, seal, zeroing, reset or voile wipe. -/
  | tamperAlarm (sensor : Nat) (measured : BitVec 32)
  /-- TAMPER_FLUSH_DONE (R706). Every closed group is durable or timed out; WITHDRAW is flooded, link and HBM keys are zeroed and links go DOWN. -/
  | tamperFlushDone
  /-- TAMPER_CLEAR (R705). Every sensor that raised the response has been absent for 1 s, and the response clears. -/
  | tamperClear
  /-- TAMPER_WITHDRAW_TIMER (R710). A level-1 response not cleared in 100 ms floods WITHDRAW. -/
  | tamperWithdrawTimer
  /-- TAMPER_LOOP_TICK (R704). An enabled external loop changes its pattern and samples the returning input. -/
  | tamperLoopTick (n : Nat) (next sampled : Bool)
  /-- JTAG_UPDATE_IR (R716). An Update-IR loading an EXTEST-class instruction raises the boundary-scan tamper response. -/
  | jtagUpdateIr (ir : BitVec 8) (extest : Bool)
  /-- CDC_STALL (R815). A crossing whose far clock stopped ends its waiting transfers and reports CDC_STALL. -/
  | cdcStall (unit : Nat)
  /-- CROSSING_RESYNC (R816). After one side of a crossing resets, the pointers resynchronise and items in flight are discarded and flushed. -/
  | crossingResync (x : Nat) (dropped : List (Nat × Nat))
  /-- PULSE_DELIVER (R818). A pulse crossing delivers a first pulse as an event with count 1 and starts its acknowledge phase. -/
  | pulseDeliver (x : Nat)
  /-- PULSE_PHASE_END (R818). An acknowledge phase ends and a non-zero count is delivered as one event. -/
  | pulsePhaseEnd (x : Nat)
  /-- MCTP_MESSAGE_RX (R727). An MCTP message is assembled from SMBus packets and queued for core G, or discarded. -/
  | mctpMessageRx (bytes : Bytes) (eid : BitVec 8) (tag : BitVec 3) (pecOk ic : Bool)
  /-- SET_ENDPOINT_ID (R725). MCTP Set Endpoint ID assigns the device's EID. -/
  | setEndpointId (eid : BitVec 8)
  /-- GET_ENDPOINT_ID (R725). MCTP Get Endpoint ID returns the EID. -/
  | getEndpointId
  /-- GET_MCTP_VERSION_SUPPORT (R725). MCTP Get MCTP Version Support reports the supported versions. -/
  | getMctpVersionSupport
  /-- GET_MESSAGE_TYPE_SUPPORT (R725). MCTP Get Message Type Support reports the supported message types. -/
  | getMessageTypeSupport
  /-- GET_VENDOR_DEFINED_MESSAGE_SUPPORT (R725). MCTP Get Vendor Defined Message Support reports the vendor message set. -/
  | getVendorDefinedMessageSupport
  /-- MCTP_UNSUPPORTED_COMMAND (R725). Any other MCTP control command is answered ERROR_UNSUPPORTED_CMD. -/
  | mctpUnsupportedCommand (cmd : Byte)
  /-- GET_IDENTITY (R741). GET_IDENTITY returns the identity block, with the offer in FRESH and VEILED. -/
  | getIdentity (msg : Bytes)
  /-- GET_HEALTH (R742). GET_HEALTH returns the nonce, status words, power state and flags. -/
  | getHealth (msg : Bytes)
  /-- GET_TELEMETRY (R744). GET_TELEMETRY returns fields of the telemetry copy or the hot set. -/
  | getTelemetry (msg : Bytes)
  /-- GET_UNIT_TABLE (R745). GET_UNIT_TABLE returns the Gatehouse copy of the unit table. -/
  | getUnitTable (msg : Bytes)
  /-- PROPOSE_UNIT_STATE (R753). PROPOSE_UNIT_STATE checks a proposal, records it, posts it and rings DB_PROPOSE. -/
  | proposeUnitState (msg : Bytes)
  /-- STAGE_IMAGE_BLOCK (R759). STAGE_IMAGE_BLOCK writes and verifies one block of the standby bank. -/
  | stageImageBlock (msg : Bytes) (readBackOk : Bool)
  /-- COMMIT_STAGED_IMAGE (R762). COMMIT_STAGED_IMAGE commits the staged image and rings DB_STAGED for in-service adoption. -/
  | commitStagedImage (msg : Bytes)
  /-- ATTEST (R765). The Graward ATTEST message is answered with an attestation response. -/
  | attest (msg : Bytes)
  /-- MGT_SET_TIME_VOUCHER (R766). The Graward SET_TIME_VOUCHER passes a voucher to the active control core and reports its status. -/
  | mgtSetTimeVoucher (msg : Bytes)
  /-- GET_LOG (R747). GET_LOG returns committed records of a partition and type. -/
  | getLog (msg : Bytes)
  /-- CLEAR_ALERT (R767). CLEAR_ALERT clears the masked alert causes. -/
  | clearAlert (msg : Bytes)
  /-- TWIN_STATUS (R746). TWIN_STATUS returns terms, authority state and group ends. -/
  | twinStatus (msg : Bytes)
  /-- MGT_RX_TAKE (R729). MGT_RX_TAKE copies the waiting message into data RAM and releases it. -/
  | mgtRxTake (c : CoreId)
  /-- MGT_TX_SEND (R729). MGT_TX_SEND sends a response to the source of the last message taken. -/
  | mgtTxSend (c : CoreId)
  /-- MGT_ALERT_SET (R730). MGT_ALERT_SET sets alert causes and asserts SMB_ALERT_N. -/
  | mgtAlertSet (c : CoreId) (mask : BitVec 32)
  /-- MGT_ALERT_CLEAR (R730). MGT_ALERT_CLEAR clears alert causes, except a cause set in the same cycle. -/
  | mgtAlertClear (c : CoreId) (mask setNow : BitVec 32)
  /-- FRAME_CRC_GCM_FAILURE (R358). A frame arrives on an UP link with a CRC failure, a GCM failure or a gap in link_seq; the receiver sends NAK with the expected link_seq, and a third GCM failure with good CRC within one second takes the link DOWN. -/
  | frameCrcGcmFailure (p : Port) (what : RxFault)
  deriving DecidableEq, Repr

end Sys2Proof
end

