-- ==== Sys2Proof/Config.lean ====
section
/-! DEFINITION. What the spec leaves to outside standards, to each part or to chance: cryptographic primitives, fused values and random
bytes. Every one is an opaque constant: no proof sees a value of it. -/

namespace Sys2Proof.Config

/-- AES-256-CMAC (02 R62): key, message. PRESUMED, log entry 1. -/
opaque aesCmac (key msg : Bytes) : BitVec 128
/-- The key stream of AES-256-GCM (02 R88): key, IV, byte index. PRESUMED, log entry 1. -/
opaque gcmStream (key iv : Bytes) (i : Nat) : Byte
/-- The tag of AES-256-GCM: key, IV, additional data, ciphertext. PRESUMED, log entry 1. -/
opaque gcmTag (key iv aad ct : Bytes) : BitVec 128
/-- SHA-256, SHA-384 and SHA-512 (11 R592). PRESUMED, log entry 1. -/
opaque sha256 (msg : Bytes) : BitVec 256
opaque sha384 (msg : Bytes) : BitVec 384
opaque sha512 (msg : Bytes) : BitVec 512
/-- HMAC over SHA-256, SHA-384 and SHA-512 (11 R599): key, message. PRESUMED, log entry 1. -/
opaque hmac256 (key msg : Bytes) : BitVec 256
opaque hmac384 (key msg : Bytes) : BitVec 384
opaque hmac512 (key msg : Bytes) : BitVec 512
/-- Ed25519 (02 R64): signature of a message, and its check under a public key. PRESUMED, log entry 1. -/
opaque ed25519Sign (sk msg : Bytes) : BitVec 512
opaque ed25519Verify (pk msg sig : Bytes) : Bool
/-- ECDSA P-256 with SHA-256 (02 R65, 04 R205): private key, message, additional data of the nonce. PRESUMED, log entry 1. -/
opaque p256Sign (sk msg extra : Bytes) : BitVec 512
opaque p256Verify (pk msg sig : Bytes) : Bool
/-- The public key that belongs to an Ed25519 or P-256 private key. PRESUMED, log entry 1. -/
opaque ed25519Public (sk : Bytes) : BitVec 256
opaque p256Public (sk : Bytes) : BitVec 512
/-- ML-DSA (02 R90): set 44 or 65, private key, message, context string, hedging input, byte index of the signature. PRESUMED, log entry 1. -/
opaque mldsaSign (set : Nat) (sk msg ctx rnd : Bytes) (i : Nat) : Byte
/-- X25519 or P-384 shared secrets of the enrolment package, by the rule that names the curve: private part, public part. PRESUMED,
log entry 1. -/
opaque sharedSecret (sk pk : Bytes) : BitVec 384
/-- CTR_DRBG (11 R629): its working state from entropy input, nonce and personalisation string, and from a reseed with an entropy input; and its
output, by that state and how many bytes were drawn before. PRESUMED, log entry 1; the bytes are free values, log entry 4. -/
opaque drbgSeed (entropy nonce pers : Bytes) : BitVec 384
opaque drbgReseed (seed entropy : Bytes) : BitVec 384
opaque drbgByte (seed : Bytes) (n : Nat) : Byte
/-- The entropy input gathered for a fresh reseed (11 R643), by the count of reseeds and byte index: a free value, log entry 4. -/
opaque freshEntropy (n i : Nat) : Byte

/-- Where base firmware called owner code from (09 R520), and what Y, or the answer of an undefined service, holds after an SVC (09 R522), by the count
of calls: the spec does not give base firmware's words. Free values, log entry 125. -/
opaque hookReturn (n : Nat) : BitVec 14
opaque afterSvc (n : Nat) : BitVec 32

/-- Bits [11:0] of a detail whose block offset is 4,096 or more (03 R136, R152), by that offset: a free value, log entry 102. -/
opaque farOffset (off : Nat) : BitVec 12

/-- The PCI-SIG vendor identifier of Finunor (03 R93), which the spec does not give, and the revision byte of the function: log entry 103. -/
opaque vendorId : BitVec 16
opaque revisionId : BitVec 8

/-- The session key that both dies agree from the pairing secret at a power-up, by the count of starts of the main die, and the tag of a
Gatehouse-link frame under it (01 R18): the agreement and the frame format are not stated. Log entry 114. -/
opaque linkSession (secret : Bytes) (run : Nat) : BitVec 256
opaque linkTag (key body : Bytes) : BitVec 128

/-- How many bytes of a mint's outputs had been written when an output write failed (04 R169), by its place in the order of fetching: a free value,
log entry 9. -/
opaque writtenBefore (n : Nat) : Nat

/-- The lot, wafer and position of the main die (12 bytes) and of the Gatehouse die (12 bytes), by byte index: fixed in each part
(14 R741). Log entry 15. -/
opaque dieRecord (n : Nat) : Byte

/-- Whether a hot-set save completed when HOLDCAP's capacitance lies below its floor, by save count (12 R683): log entry 27. -/
opaque saveDone (n : Nat) : Bool

/-- Detection time and measured value of a TAMPER_EVENT record made from the always-on latch, which holds a sensor and a count alone (13 R718,
R719, R721), by sensor and by the time of the append: free values, log entry 31. -/
opaque latchTime (sensor now : Nat) : Nat
opaque latchMeasured (sensor now : Nat) : BitVec 32

/-- The cause byte of a POWER_UP record (12 R656), which the spec does not code, by power-up count: a free value, log entry 37. -/
opaque powerUpCause (n : Nat) : Byte

/-- The words of the main-die and of the Gatehouse boot ROM (11 R609, R611), by address, and the vendor hash in ROM (15 R782): fixed in each stepping, log
entry 38. -/
opaque romWord (a : Nat) : BitVec 14
opaque gateRomWord (a : Nat) : BitVec 14
opaque vendorHash : BitVec 384

/-- The ACTIVE lane to which the shadow path hands a mirrored group, by group number (15 R803): not stated, a free value, log entry 97. -/
opaque shadowLane (seq : Nat) : Nat

/-- What host memory holds at an address, as a read by a control core finds it at a local time (09 R487): the host's own data, log entry 47. -/
opaque hostByte (addr clk : Nat) : Byte

/-- Bytes of the `n`-th cut-off append that had been programmed when the supply failed, and the byte then in progress as it is read (12 R674): the spec
leaves both open, free values, log entry 135. -/
opaque tornAt (n : Nat) : Nat
opaque tornByte (n : Nat) : Byte

end Sys2Proof.Config
end

