-- ==== Sys2Proof/Machine/State.lean ====
section
/-! DEFINITION. The state of the block: everything the spec gives the machine, as plain data. Each structure's fields carry the rule
that names them; a field with no reset value in the spec has the value log entry 2 names. -/

namespace Sys2Proof.Machine

/-- States of a ring (03 R106, R107, R853). -/
inductive RingState where
  | idle | running | draining | error
  deriving DecidableEq, Repr

/-- What the CONTROL or LED command in flight waits for (03 R132). -/
inductive CtlWaitKind where
  | none | void | query | roll | handBack
  deriving DecidableEq, Repr

/-- What a CONTROL request that is held waits for (09 R514, 10 R566): its sequence record or a change of its slot, the end of a publish (09 R488), the
DRBG (11 R635). -/
inductive CtlHold where
  | record | publish | random
  deriving DecidableEq, Repr

/-- The stage or wait in which a request stands (01 R17, 04 R165, 05 R221). -/
inductive Stage where
  | intake | wrapperRead | check | checkHold | clock | rule | ruleHold | drawHold | ledger | leaseWait | pageWait | durable | seal
  | mldsa | fwdWait | held | relay
  deriving DecidableEq, Repr

/-- A key named by slot and generation (10 R544). -/
structure KeyRef where
  slot : Nat := 0
  gen : Nat := 0
  deriving DecidableEq, Repr

/-- A forwarded verdict's origin (07 R378): source, lane, context, fwd_seq. -/
structure FwdId where
  src : Nat := 0
  lane : Nat := 0
  ctx : Nat := 0
  seq : BitVec 32 := 0
  carry : Carry := {}
  deriving DecidableEq, Repr

/-- A forward that waits at the decider (05 R233, R863), with its local time of arrival. -/
structure HeldFwd where
  f : FwdFrame := {}
  since : Nat := 0
  deriving DecidableEq, Repr

/-- States of a key slot (10 R543). -/
inductive SlotState where
  | empty | loaded | orphaned | bad | spent
  deriving DecidableEq, Repr

/-- An entry of a core's handle table (10 R551, R552). -/
structure Handle where
  slot : Nat := 0
  gen : Nat := 0
  kind : BitVec 8 := 0
  deriving DecidableEq, Repr

/-- A key-engine command that runs, with the outcome its end will show (09 R484, R485). -/
structure KeyRun where
  core : CoreId := .a
  code : Status := .done
  handle : Option W36 := none
  result : Option (BitVec 32) := none
  out : Bytes := []
  deriving DecidableEq, Repr

/-- States of the noise bank (11 R622). -/
inductive NoiseState where
  | starting | ready | switching | failed | stopped
  deriving DecidableEq, Repr

/-- A commit word as read (12 R653). -/
inductive MarkWord where
  | present | dead | absent
  deriving DecidableEq, Repr

/-- The sources of appends (12 R657). -/
inductive AppendSrc where
  | serge (c : CoreId) | key | ledger | tamper | gatehouse
  deriving DecidableEq, Repr

/-- The wake and alert lines (01 R38). -/
inductive Bell where
  | wake | propose | observe | table | staged | alert
  deriving DecidableEq, Repr

/-- The states of a Serge core (08 R417). -/
inductive CoreMode where
  | normal | interrupt | trap
  deriving DecidableEq, Repr

/-- Operations of a Serge instruction word with the four modes (08 R434), by op code 0x0 to 0xD. -/
inductive MOp where
  | ld | st | add | sub | and | or | xor | cmp | mul | div | ldx | ldy | jmp | call
  deriving DecidableEq, Repr

/-- The GROUP sub-ops with one code each (08 R440), and TQ with its tag. -/
inductive GOp where
  | nop | halt | wait | svc | ei | di | iret | ret | jmpa | neg | not | stx | sty | xa | ya | lra | alr | asi | asb
  | lslx | lsrx | asrx | rorx | adp | tq (t : BitVec 3) | dpa
  deriving DecidableEq, Repr

/-- The shifts of the GROUP (08 R440). -/
inductive ShiftOp where
  | lsl | lsr | asr | ror
  deriving DecidableEq, Repr

/-- A decoded Serge instruction word, its condition and prefixes left aside. -/
inductive SOp where
  | mem (op : MOp) (mode : SMode) (field : BitVec 5)
  | xmov (field : BitVec 5)
  | group (g : GOp)
  | shift (k : ShiftOp) (field : BitVec 5)
  deriving DecidableEq, Repr

/-- A repeat in progress (08 R448): the instruction with its prefixes, and the iterations left. -/
structure RepState where
  x : SCtx := {}
  op : SOp := .group .nop
  left : Nat := 0
  deriving DecidableEq, Repr

/-- The power states (15 R802). -/
inductive PowerState where
  | active | doze | nap | keep | vault
  deriving DecidableEq, Repr

/-- The states of a link (07 R350). -/
inductive LinkState where
  | down | training | up
  deriving DecidableEq, Repr


/-- An entry fetched and held by the host queue engine until an ML-DSA job place frees (R211). -/
structure HeldEntry where
  /-- the entry as fetched (04 R211). -/
  bytes : Bytes := []
  /-- sq_head after the fetch (03 R147). -/
  head : Nat := 0
  /-- its place in the order of fetching (03 R156). -/
  order : Nat := 0
  /-- local time of the fetch (03 R147). -/
  fetched : Nat := 0
  deriving DecidableEq, Repr

/-- One submission ring (R101-R110; register block at BAR0 + 0x1000 + 0x20 n). -/
structure SqRing where
  /-- HQ_SQ_BASE.base, bits [63:12] of the host address of entry 0 (03 R103). -/
  base : BitVec 52 := 0
  /-- HQ_SQ_CFG.enable (03 R104). -/
  enable : Bool := false
  /-- HQ_SQ_CFG.type: 0 CONTROL, 1 MINT, 2 VERDICT (03 R101). -/
  kind : BitVec 2 := 0
  /-- HQ_SQ_CFG.depth_log2 (03 R104). -/
  depthLog2 : BitVec 4 := 4
  /-- HQ_SQ_CFG.cq (03 R104). -/
  cq : BitVec 5 := 0
  /-- HQ_SQ_STATUS.state (03 R106). -/
  st : RingState := .idle
  /-- HQ_SQ_STATUS.cfg_error (03 R104). -/
  cfgError : Bool := false
  /-- HQ_SQ_STATUS.doorbell_error (03 R110). -/
  doorbellError : Bool := false
  /-- HQ_SQ_STATUS.head (03 R109). -/
  head : Nat := 0
  /-- the host's tail as last given by HQ_SQ_TAIL (03 R110). -/
  tail : Nat := 0
  /-- HQ_SQ_LANES.lanes (03 R144). -/
  lanes : BitVec 16 := 0xFFFF
  /-- entries fetched and not yet completed (03 R106). -/
  inFlight : Nat := 0
  /-- the entry that waits for an ML-DSA job place, which stops the ring (04 R211). -/
  held : Option HeldEntry := none
  deriving DecidableEq, Repr

/-- One completion ring (R105-R107, R150; register block at BAR0 + 0x1400 + 0x20 n). -/
structure CqRing where
  /-- HQ_CQ_BASE.base (03 R103). -/
  base : BitVec 52 := 0
  /-- HQ_CQ_CFG.enable (03 R105). -/
  enable : Bool := false
  /-- HQ_CQ_CFG.irq_enable (03 R161). -/
  irqEnable : Bool := false
  /-- HQ_CQ_CFG.depth_log2 (03 R105). -/
  depthLog2 : BitVec 4 := 4
  /-- HQ_CQ_CFG.vector (03 R161). -/
  vector : BitVec 6 := 0
  /-- HQ_CQ_STATUS.state (03 R107). -/
  st : RingState := .idle
  /-- HQ_CQ_STATUS.cfg_error (03 R105). -/
  cfgError : Bool := false
  /-- HQ_CQ_STATUS.doorbell_error (03 R111). -/
  doorbellError : Bool := false
  /-- HQ_CQ_STATUS.write_error (03 R854). -/
  writeError : Bool := false
  /-- HQ_CQ_STATUS.tail (03 R150). -/
  tail : Nat := 0
  /-- HQ_CQ_STATUS.phase (03 R150). -/
  phase : Bool := true
  /-- the host's head as last given by HQ_CQ_HEAD (03 R111). -/
  head : Nat := 0
  /-- slots reserved for fetched entries whose completion is not written (03 R114). -/
  reserved : Nat := 0
  /-- HQ_CQ_MOD.count (03 R161). -/
  modCount : BitVec 8 := 0
  /-- HQ_CQ_MOD.timer_us (03 R161). -/
  modTimer : BitVec 8 := 0
  /-- completions gathered since the last signal (03 R161). -/
  pending : Nat := 0
  /-- local time of the first gathered completion (03 R161). -/
  first : Nat := 0
  deriving DecidableEq, Repr

/-- One MSI-X vector (R94, R163). -/
structure Vec where
  /-- the vector's mask bit (03 R163). -/
  masked : Bool := true
  /-- the vector's pending bit (03 R163). -/
  pbit : Bool := false
  /-- message address (03 R94). -/
  addr : BitVec 64 := 0
  /-- message data (03 R94). -/
  data : BitVec 32 := 0
  deriving DecidableEq, Repr

/-- The function's Advanced Error Reporting capability (R95), with the registers and reset values of PCI Express Base 4.0 (log entry 101). -/
structure Aer where
  /-- Uncorrectable Error Status (03 R95). -/
  unStatus : BitVec 32 := 0
  /-- Uncorrectable Error Mask (03 R95). -/
  unMask : BitVec 32 := 0
  /-- Uncorrectable Error Severity (03 R95). -/
  unSeverity : BitVec 32 := 0x00462030
  /-- Correctable Error Status (03 R95). -/
  coStatus : BitVec 32 := 0
  /-- Correctable Error Mask (03 R95). -/
  coMask : BitVec 32 := 0x00002000
  /-- Advanced Error Capabilities and Control (03 R95). -/
  control : BitVec 32 := 0
  deriving DecidableEq, Repr

/-- A fetched CONTROL entry (R127, R132). -/
structure CtlEntry where
  /-- the entry as fetched (03 R127). -/
  bytes : Bytes := []
  /-- sq_head after the fetch (03 R147). -/
  head : Nat := 0
  /-- local time of the fetch (03 R147). -/
  fetched : Nat := 0
  /-- the signed request block once read (03 R128). -/
  block : Option Bytes := none
  /-- its completion is discarded (reset of the function) (03 R155). -/
  dropped : Bool := false
  deriving DecidableEq, Repr

/-- A CONTROL request whose completion waits for a later event (R132). -/
structure CtlWait where
  /-- what is awaited: VOID, QUERY, ROLL, HAND_BACK (03 R132). -/
  kind : CtlWaitKind := .none
  /-- serial concerned (06 R318). -/
  serial : BitVec 56 := 0
  /-- group awaited (06 R308). -/
  group : Nat := 0
  /-- home concerned (07 R402). -/
  home : Nat := 0
  /-- new epoch of a roll (06 R340). -/
  epoch : BitVec 4 := 0
  /-- issued through LED_CMD or FAB_CMD instead of a CONTROL request (09 R489). -/
  viaLed : Bool := false
  /-- its operation is not applied or journalled yet (06 R315). -/
  unapplied : Bool := false
  /-- the answer of a query as found when it reached the ledger engine (06 R318). -/
  resp : Bytes := []
  deriving DecidableEq, Repr

/-- Host queue engine: rings, interrupts, device registers, CONTROL and DMA registers of the HQ window. -/
structure HqSt where
  /-- the submission rings SQ_0..SQ_31 (03 R101). -/
  sqs : Tbl SqRing := []
  /-- the completion rings CQ_0..CQ_31 (03 R105). -/
  cqs : Tbl CqRing := []
  /-- MSI-X table and pending-bit array (03 R94). -/
  vecs : Tbl Vec := []
  /-- DEV_CAUSE (03 R100). -/
  cause : BitVec 12 := 0
  /-- DEV_ALERT.enable (03 R100). -/
  alert : BitVec 12 := 0
  /-- DEV_TIME high-half latch (03 R99). -/
  timeLatch : BitVec 32 := 0
  /-- model's own: data of the last host read (03 R96). -/
  readData : BitVec 64 := 0
  /-- DEV_STATUS.open (15 R793). -/
  open_ : Bool := false
  /-- DEV_STATUS.paused (13 R706). -/
  paused : Bool := false
  /-- the pause is that of PWRFAIL_N (15 R801). -/
  pausedPwrfail : Bool := false
  /-- the CONTROL entry in flight (03 R132). -/
  ctlFetched : Option CtlEntry := none
  /-- the request in flight waits (09 R514). -/
  ctlHeld : Bool := false
  /-- what it waits for (09 R488, R514, 10 R566, 11 R635). -/
  ctlFor : CtlHold := .record
  /-- the CONTROL or LED command that awaits durability or an answer (03 R132). -/
  ctlWait : CtlWait := {}
  /-- HQ_CTL_ADDR (09 R487). -/
  ctlAddr : BitVec 16 := 0
  /-- HQ_COMP_ADDR (09 R487). -/
  compAddr : BitVec 16 := 0
  /-- HQ_DMA_HOST_LO, HQ_DMA_HOST_HI (09 R487). -/
  dmaHost : BitVec 64 := 0
  /-- HQ_DMA_LEN (09 R487). -/
  dmaLen : BitVec 32 := 0
  /-- HQ_DMA_LOCAL (09 R487). -/
  dmaLocal : BitVec 16 := 0
  /-- HQ_DMA_STATUS.busy (09 R487). -/
  dmaBusy : Bool := false
  /-- HQ_DMA_STATUS.done (09 R487). -/
  dmaDone : Bool := false
  /-- HQ_DMA_STATUS.error (09 R487). -/
  dmaError : Bool := false
  /-- direction of the DMA that runs (09 R487). -/
  dmaToHost : Bool := false
  /-- a Function Level Reset or hot reset occurred (source 3) (09 R493). -/
  flr : Bool := false
  /-- the PCIe link is trained (15 R800). -/
  linkUp : Bool := false
  /-- MODEL'S OWN: entries fetched so far, which numbers requests in submission order (03 R156, R158). -/
  fetches : Nat := 0
  /-- the Advanced Error Reporting capability (03 R95). -/
  aer : Aer := {}
  deriving DecidableEq, Repr

/-- A class record (R77). -/
structure ClassRec where
  /-- entry: 0 SINGLE, 1 REENTRY (02 R77). -/
  reentry : Bool := false
  /-- 0x01 or 0x02 (02 R77). -/
  format : BitVec 8 := 1
  /-- 0 Ed25519, 1 P-256 (02 R77). -/
  sigAlg : Bool := false
  /-- zones admitted (02 R77). -/
  zoneMask : BitVec 64 := 0
  /-- passback hold in seconds (02 R77). -/
  holdS : Nat := 0
  /-- cold_passback (02 R77). -/
  coldRefuse : Bool := false
  /-- nfc_allowed (02 R77). -/
  nfcAllowed : Bool := false
  /-- pq_allowed (02 R77). -/
  pqAllowed : Bool := false
  deriving DecidableEq, Repr

/-- An event record (R71). -/
structure EventRec where
  /-- epoch it was defined in (02 R75). -/
  epoch : BitVec 4 := 0
  /-- state CLOSED (02 R72). -/
  closed : Bool := false
  /-- window_start, minutes (02 R71). -/
  windowStart : Nat := 0
  /-- window_end, minutes (02 R71). -/
  windowEnd : Nat := 0
  /-- tolerance_ms (02 R71). -/
  toleranceMs : Nat := 1
  /-- max_validity as given; 0 selects 1,152,000 (02 R71). -/
  maxValidity : Nat := 0
  /-- mac_key (02 R71). -/
  macKey : KeyRef := {}
  /-- sign_key (02 R71). -/
  signKey : Option KeyRef := none
  /-- pq_key (02 R71). -/
  pqKey : Option KeyRef := none
  /-- nfc_parent (02 R71). -/
  nfcParent : Option KeyRef := none
  /-- class records, numbered from 0 (02 R77). -/
  classes : List ClassRec := []
  deriving DecidableEq, Repr

/-- A change of the event table that is being published (09 R488): the event, its record or none where it becomes CLOSED, the epoch it belongs to, and the
requests the publish waits for: context key, time of fetch, stage class. -/
structure Publish where
  num : Nat := 0
  event : Option EventRec := none
  epoch : BitVec 4 := 0
  waits : List (Nat × Nat × Nat) := []
  deriving DecidableEq, Repr

/-- A key slot (R541, R543). -/
structure Slot where
  /-- state (10 R543). -/
  st : SlotState := .empty
  /-- generation of its latest KEY_SLOT record (10 R544). -/
  gen : Nat := 0
  /-- highest generation of any of its KEY_SLOT records (10 R544). -/
  top : Nat := 0
  /-- generation retired, when its latest record is a KEY_RETIRE (10 R544). -/
  retiredGen : Option Nat := none
  /-- key kind (10 R539). -/
  kind : BitVec 8 := 0
  /-- origin (10 R541). -/
  origin : BitVec 8 := 0
  /-- parent slot and generation (10 R541). -/
  parent : Option KeyRef := none
  /-- attributes word (10 R548). -/
  attrs : BitVec 32 := 0
  /-- unwrapped material in key memory (10 R545). -/
  material : Bytes := []
  /-- a retirement is in progress (10 R564). -/
  retiring : Bool := false
  /-- device time when the record was made (10 R541). -/
  created : Nat := 0
  deriving DecidableEq, Repr

/-- A change of a slot whose record still waits to be committed (10 R557, R564, R566): the key that will be stored, or none for a retirement, and the
highest sequence among the slot's records when it began. -/
structure KeyChange where
  slot : Nat := 0
  seq : Nat := 0
  key : Option Slot := none
  deriving DecidableEq, Repr

/-- A key delivered by the twin that waits for a change of its slot to end (10 R566). -/
structure KeyDelivery where
  src : Nat := 0
  slot : Nat := 0
  xfer : BitVec 32 := 0
  blob : Bytes := []
  deriving DecidableEq, Repr

/-- An entry of a lane's key cache (R187): the unwrapped key under its slot and generation. -/
structure CacheEnt where
  /-- slot and generation (04 R187). -/
  key : KeyRef := {}
  /-- the key as the key engine gave it (04 R188). -/
  slot : Slot := {}
  deriving DecidableEq, Repr

/-- What a mint holds on its way through the stages (R119, R166). -/
structure MintSt where
  /-- [0] nfc [1] pq [2] override [3] foreign (03 R119). -/
  flags : BitVec 8 := 0
  /-- class number (03 R119). -/
  cls : BitVec 8 := 0
  /-- event number (03 R119). -/
  event : BitVec 32 := 0
  /-- override start, then the fixed valid_from (03 R119). -/
  vfrom : BitVec 32 := 0
  /-- override end, then the fixed valid_until (03 R119). -/
  vuntil : BitVec 32 := 0
  /-- holder digest (03 R119). -/
  holder : Bytes := []
  /-- transport_slot (03 R119). -/
  tslot : BitVec 16 := 0
  /-- transport_gen (03 R119). -/
  tgen : BitVec 16 := 0
  /-- output buffer (03 R119). -/
  outAddr : BitVec 64 := 0
  /-- size of the output buffer (03 R119). -/
  outLen : BitVec 32 := 0
  /-- wrapper length (03 R119). -/
  foreignLen : BitVec 32 := 0
  /-- the wrapper as read once (04 R174). -/
  wrapper : Option Bytes := none
  /-- issue time taken at CLOCK (06 R303). -/
  issueUs : Nat := 0
  /-- length the outputs need (03 R121). -/
  lenNeeded : Nat := 0
  /-- working copy of mac_key (04 R183). -/
  macKey : Bytes := []
  /-- working copy of sign_key (04 R183). -/
  signKey : Bytes := []
  /-- working copy of pq_key (04 R183). -/
  pqKey : Bytes := []
  /-- kind of pq_key (04 R181). -/
  pqKind : BitVec 8 := 0
  /-- working copy of nfc_parent (04 R183). -/
  nfcKey : Bytes := []
  /-- working copy of the transport key (04 R183). -/
  transKey : Bytes := []
  /-- random bytes drawn in RULE (04 R184). -/
  rand : Bytes := []
  /-- class zone_mask as read in RULE (04 R203). -/
  zoneMask : BitVec 64 := 0
  /-- class format (04 R203). -/
  format : BitVec 8 := 0
  /-- class sig_alg (04 R203). -/
  sigAlg : Bool := false
  /-- the credential once sealed (04 R204). -/
  credential : Bytes := []
  /-- foreign result once sealed (02 R87). -/
  foreignOut : Bytes := []
  /-- NFC key record once sealed (02 R88). -/
  nfcOut : Bytes := []
  /-- hedging input of the co-signature job (04 R212). -/
  pqRand : Bytes := []
  deriving DecidableEq, Repr

/-- What a verdict holds on its way through the stages (R123, R229). -/
structure VerdictSt where
  /-- direction [1:0], zone [7:2] (03 R123). -/
  gate : BitVec 8 := 0
  /-- cred_length (03 R123). -/
  credLen : Nat := 0
  /-- credential bytes (03 R123). -/
  cred : Bytes := []
  /-- scan_hint (03 R126). -/
  scanHint : BitVec 32 := 0
  /-- the signature path was taken (05 R244). -/
  sigPath : Bool := false
  /-- device time read at CLOCK (05 R245). -/
  t : Nat := 0
  /-- class number of the credential (05 R224). -/
  cls : BitVec 8 := 0
  /-- class zone_mask as read in RULE (05 R249). -/
  zoneMask : BitVec 64 := 0
  /-- class entry kind as read in RULE (05 R253). -/
  reentry : Bool := false
  /-- passback hold (05 R261). -/
  hold : Nat := 0
  /-- class cold_passback (05 R261). -/
  coldRefuse : Bool := false
  /-- the verdict once decided (05 R253). -/
  outcome : Option VCode := none
  /-- cold passback applied (05 R262). -/
  cold : Bool := false
  /-- the forward this verdict came by (05 R231). -/
  fwdIn : Option FwdId := none
  /-- the forward had been relayed (07 R404). -/
  relayedIn : Bool := false
  /-- fwd_seq of the VERDICT_FWD this origin sent (07 R378). -/
  fwdSeq : BitVec 32 := 0
  /-- decided under twin authority (03 R147). -/
  twinAuth : Bool := false
  deriving DecidableEq, Repr

/-- One request context of a lane (R214), keyed lane * 64 + context. -/
structure Req where
  /-- lane (04 R214). -/
  lane : Nat := 0
  /-- context number (04 R214). -/
  ctx : Nat := 0
  /-- submission ring (03 R147). -/
  sq : Nat := 0
  /-- sq_head after the fetch (03 R147). -/
  head : Nat := 0
  /-- host tag (03 R147). -/
  tag : BitVec 16 := 0
  /-- its place in the order of fetching (03 R158). -/
  order : Nat := 0
  /-- local time of the fetch (03 R147). -/
  fetched : Nat := 0
  /-- the submission entry as fetched (03 R102). -/
  entry : Bytes := []
  /-- the stage or wait the request stands in (04 R165). -/
  stage : Stage := .intake
  /-- MINT or VERDICT (03 R102). -/
  isMint : Bool := false
  /-- serial assigned or presented (05 R225). -/
  serial : BitVec 56 := 0
  /-- a serial is assigned or known (04 R170). -/
  hasSerial : Bool := false
  /-- group the request waits on (06 R308). -/
  group : Nat := 0
  /-- home whose group sequence that is (06 R305). -/
  groupHome : Nat := 0
  /-- its operation has been applied (06 R313). -/
  applied : Bool := false
  /-- its completion is discarded (reset of the function) (03 R155). -/
  dropped : Bool := false
  /-- the event as it stood when the request entered the stage it waits in (01 R24). -/
  seen : Option EventRec := none
  /-- the keys it found in the lane's cache when it entered that stage (01 R24). -/
  got : List CacheEnt := []
  /-- mint part (04 R165). -/
  m : MintSt := {}
  /-- verdict part (05 R221). -/
  v : VerdictSt := {}
  deriving DecidableEq, Repr

/-- One lane (R187, R487, R803). -/
structure LaneSt where
  /-- key cache, most recently used first (04 R187). -/
  cache : List CacheEnt := []
  /-- clock gated (15 R803). -/
  gated : Bool := false
  /-- LANE_RESULT (09 R487). -/
  result : BitVec 2 := 0
  /-- a self-test runs (09 R487). -/
  testing : Bool := false
  /-- LANE_FAULT (09 R487). -/
  fault : BitVec 32 := 0
  /-- ML-DSA job places reserved or in use (PQ_JOBS_n) (04 R210). -/
  pqReserved : Nat := 0
  /-- the lane has taken the new image's parameters (14 R762). -/
  paramsNew : Bool := false
  deriving DecidableEq, Repr

/-- The lanes, their requests and the ML-DSA unit's queue. -/
structure LaneBank where
  /-- request contexts in use (04 R214). -/
  reqs : Tbl Req := []
  /-- lane registers and key caches (04 R187). -/
  lanes : Tbl LaneSt := []
  /-- (lane, context) of co-signature jobs, the first runs (04 R209). -/
  pqQueue : List (Nat × Nat) := []
  /-- forwards held for authority (05 R233). -/
  held : List HeldFwd := []
  /-- forwards waiting for a lane context (05 R863). -/
  ctxWait : List HeldFwd := []
  /-- (origin, fwd_seq, arrival us) of forwards received (05 R231). -/
  fwdSeen : List (Nat × Nat × Nat) := []
  /-- forward sequence counter of this node (07 R378). -/
  fwdSeq : BitVec 32 := 0
  /-- keys of mints waiting for a lease opening, in arrival order (04 R195). -/
  leaseWait : List Nat := []
  /-- late or unmatched replies discarded and counted (05 R237). -/
  fwdLate : Nat := 0
  /-- keys of mints held for a random draw, in arrival order (04 R185). -/
  drawWait : List Nat := []
  deriving DecidableEq, Repr

/-- Event and class tables, the paged HBM window and the pseudo-channels. -/
structure HbmSt where
  /-- (event number, record), oldest definition first (02 R70). -/
  events : List (Nat × EventRec) := []
  /-- published directory: index to word address + 1 (09 R487). -/
  dir : Tbl Nat := []
  /-- words of the event and class table region (08 R427). -/
  words : Tbl W36 := []
  /-- words of that region that hold an uncorrectable ECC error (08 R454; log entry 67). -/
  badWords : List Nat := []
  /-- HBM_PAGE (09 R479). -/
  page : BitVec 12 := 0
  /-- HBM_PUB_EVENT (09 R487). -/
  pubEvent : BitVec 16 := 0
  /-- HBM_PUB_PTR (09 R487). -/
  pubPtr : BitVec 32 := 0
  /-- HBM_PUB_STATUS.busy (09 R488). -/
  pubBusy : Bool := false
  /-- HBM_PUB_STATUS.done (09 R488). -/
  pubDone : Bool := false
  /-- requests a publish still waits for: context key, time of fetch, stage class (09 R488). -/
  pubWait : List (Nat × Nat × Nat) := []
  /-- directory index and pointer of the publish that runs (09 R488). -/
  pubRun : Option (Nat × Nat) := none
  /-- changes of the event table being published, oldest first (09 R488). -/
  publishing : List Publish := []
  /-- the inline HBM key is loaded (15 R794). -/
  keyLoaded : Bool := false
  /-- the inline HBM key, held in the HBM controller alone (10 R538). -/
  inlineKey : Bytes := []
  /-- HBM training has ended (15 R794). -/
  trained : Bool := false
  /-- corrected errors of each pseudo-channel in the last second (09 R487). -/
  corrected : Tbl Nat := []
  /-- pseudo-channels being rebuilt, by unit (06 R338). -/
  rebuilding : List Nat := []
  /-- pseudo-channels retired or failed (06 R339). -/
  retirements : Nat := 0
  /-- pages the page cache can hold (06 R283). -/
  cachePages : Nat := 4456448
  deriving DecidableEq, Repr

/-- A group of journal records of one home (R305), closed and not yet durable, or kept for resending. -/
structure Group where
  /-- group sequence of the home (06 R305). -/
  seq : Nat := 0
  /-- home of the records (06 R301). -/
  home : Nat := 0
  /-- 0 OWN, 1 MIRROR, 2 AUTHORITY (06 R301). -/
  source : BitVec 2 := 0
  /-- epoch of the home (06 R301). -/
  epoch : BitVec 4 := 0
  /-- records (06 R301). -/
  recs : List JRec := []
  /-- block sequence it was sealed into (06 R300). -/
  block : Nat := 0
  /-- drives that completed the write (06 R309). -/
  onDrives : List Nat := []
  /-- acknowledged by the twin (06 R309). -/
  acked : Bool := false
  /-- the ledger it belongs to was discarded: its block is still written, and nothing waits for it (07 R399). -/
  dead : Bool := false
  /-- the policy is met and every earlier group is durable (06 R305). -/
  durable : Bool := false
  /-- chain tag of its block (06 R302). -/
  chain : BitVec 128 := 0
  deriving DecidableEq, Repr

/-- A checkpoint header with its snapshot (R329). -/
structure Ckpt where
  /-- checkpoint number (06 R329). -/
  k : Nat := 0
  /-- journal position (06 R329). -/
  p : Nat := 0
  /-- chain tag of block p - 1 (06 R329). -/
  chain : BitVec 128 := 0
  /-- tree root (06 R329). -/
  root : BitVec 128 := 0
  /-- own void index (06 R329). -/
  voidOwn : List (Nat × Nat) := []
  /-- shadow void index (06 R329). -/
  voidShadow : List (Nat × Nat) := []
  /-- own ceiling (06 R329). -/
  ownCeil : Nat := 0
  /-- twin's ceiling as mirrored (06 R329). -/
  twinCeil : Nat := 0
  /-- magic of the header (06 R329). -/
  magic : Bytes := []
  /-- CMAC of bytes 0 to 103 of the header under the page key (06 R329). -/
  tag : BitVec 128 := 0
  /-- own group end at p (06 R329). -/
  ownEnd : Nat := 0
  /-- mirrored group end at p (06 R329). -/
  mirEnd : Nat := 0
  /-- device time at p (06 R329). -/
  time : Nat := 0
  /-- own epoch (06 R329). -/
  epoch : BitVec 4 := 0
  /-- twin's epoch (06 R329). -/
  twinEpoch : BitVec 4 := 0
  deriving DecidableEq, Repr

/-- A ledger page as a drive holds it (R289, R297). -/
structure DrivePage where
  /-- version it was written at (06 R288). -/
  version : Nat := 0
  /-- epoch of the page's ledger (06 R289). -/
  epoch : BitVec 4 := 0
  /-- entries, by position in the page (06 R275). -/
  entries : Tbl LState := []
  deriving DecidableEq, Repr

/-- The NVMe commands the device uses (R295); Write always sets Force Unit Access. -/
inductive NvmeCmd where
  | identify
  | createCq (entries : Nat)
  | createSq (entries : Nat)
  | read (lba count : Nat)
  | write (lba : Nat) (data : Bytes)
  | flush
  | dealloc (lba count : Nat)
  | logPage
  deriving DecidableEq, Repr

/-- One ledger drive (R294-R299, R335, R336). -/
structure Drive where
  /-- a drive has completed attach (15 R793). -/
  attached : Bool := false
  /-- NVMe attach reported ready (15 R795). -/
  ready : Bool := false
  /-- bytes 0 to 47 of label copy A, LBA 0 (06 R296, R298). -/
  labelA : Bytes := []
  /-- bytes 0 to 47 of label copy B, LBA 1 (06 R296, R298). -/
  labelB : Bytes := []
  /-- what Identify said at attach (06 R294). -/
  ident : DriveId := {}
  /-- entries of its I/O queue pair, 0 before it is created (06 R295). -/
  queue : Nat := 0
  /-- DEV_STATUS.ssdN_serving (06 R309). -/
  serving : Bool := false
  /-- step of the re-silver, 0 when none runs (06 R336). -/
  resilver : Nat := 0
  /-- re-silver progress (09 R490). -/
  progress : BitVec 16 := 0
  /-- journal ring, by block sequence (06 R300). -/
  journal : Tbl JBlock := []
  /-- ledger region, by slot (06 R296). -/
  pages : Tbl DrivePage := []
  /-- checkpoint slots (06 R296). -/
  ckpts : Tbl Ckpt := []
  /-- metadata copies: slot versions (06 R297). -/
  metaV : Tbl (Tbl Nat) := []
  /-- metadata copies: slot tags (06 R297). -/
  metaT : Tbl (Tbl (BitVec 128)) := []
  /-- the whole namespace was deallocated (06 R336). -/
  dealloc : Bool := false
  /-- NVMe Flush was sent on KEEP entry (15 R809). -/
  flushed : Bool := false
  /-- SMART fields as last polled (03 R164). -/
  smart : Tbl (BitVec 64) := []
  /-- local times of the page reads of the last hour (06 R335). -/
  reads : List Nat := []
  /-- local times of the tag failures of the last hour (06 R335). -/
  tagFails : List Nat := []
  deriving DecidableEq, Repr

/-- State of one ledger slot in the page cache (R284-R288). -/
structure PageSt where
  /-- a verified copy is in the cache (06 R284). -/
  cached : Bool := false
  /-- changed since last written to the drives (06 R286). -/
  dirty : Bool := false
  /-- dirty at the p of the checkpoint under way and still to be written by it (06 R327). -/
  unwritten : Bool := false
  /-- belongs to the open lease (04 R199). -/
  pinned : Bool := false
  /-- a read from a drive is under way (06 R287). -/
  reading : Bool := false
  /-- the second read has been started (06 R287). -/
  second : Bool := false
  /-- a PAGE_REQUEST is outstanding (06 R293). -/
  fromTwin : Bool := false
  /-- local time of its last use (06 R286). -/
  used : Nat := 0
  deriving DecidableEq, Repr

/-- A lease opening under way (R195-R197). -/
structure LeaseSt where
  /-- lease number (02 R51). -/
  n : Nat := 0
  /-- its ceiling is committed in the record store (02 R52). -/
  committed : Bool := false
  /-- the twin has acknowledged it (02 R53). -/
  acked : Bool := false
  /-- its LEASE_MIRROR has been sent (02 R53). -/
  needAck : Bool := false
  deriving DecidableEq, Repr

/-- The ledger engine (R274-R343). -/
structure LedgerSt where
  /-- own ledger, by local serial (06 R274). -/
  own : Tbl LState := []
  /-- shadow ledger, by local serial of the twin (06 R278). -/
  shadow : Tbl LState := []
  /-- page cache, by slot (06 R284). -/
  pages : Tbl PageSt := []
  /-- version of each slot (06 R288). -/
  versions : Tbl Nat := []
  /-- page tag of each slot (06 R283, R289). -/
  tags : Tbl (BitVec 128) := []
  /-- nodes of levels 3 to 8 of the integrity tree whose versions are not all 0, by level x 2^24 + index (06 R291). -/
  tree : Tbl (Option (BitVec 128)) := []
  /-- root of the integrity tree (06 R291). -/
  root : BitVec 128 := 0
  /-- content, at p of the checkpoint under way, of the pages dirty there (06 R327). -/
  snap : Tbl (Tbl LState) := []
  /-- local time at which the last checkpoint started (06 R324). -/
  ckptAt : Nat := 0
  /-- next local serial to be assigned (04 R193). -/
  next : Nat := 0
  /-- number of the open lease (02 R51). -/
  lease : Option Nat := none
  /-- the lease opening under way (04 R195). -/
  opening : Option LeaseSt := none
  /-- lease whose opening was given up after 2 ms, to be opened again (04 R196). -/
  reopen : Option Nat := none
  /-- highest committed own ceiling of the epoch (02 R52). -/
  ceil : Nat := 0
  /-- highest ceiling mirrored from the twin (02 R55). -/
  twinCeil : Nat := 0
  /-- highest ceiling the twin holds for this address (02 R55). -/
  ceilAtTwin : Nat := 0
  /-- highest ceiling the twin has asked to be mirrored, committed or not (06 R281). -/
  twinAsked : Nat := 0
  /-- own void index (06 R319). -/
  voidOwn : List (Nat × Nat) := []
  /-- shadow void index (06 R319). -/
  voidShadow : List (Nat × Nat) := []
  /-- exit records, by global serial: e (05 R258). -/
  exits : Tbl (Option Nat) := []
  /-- cover instant C, by home address (05 R263). -/
  cover : Tbl Nat := []
  /-- next journal block the passback rebuild reads, newest first (05 R264). -/
  rebuildQ : Option Nat := none
  /-- instant the data plane opened (05 R264). -/
  openedAt : Nat := 0
  /-- records of the open group of own operations (06 R305). -/
  openGroup : List JRec := []
  /-- records of the open AUTHORITY group (07 R384). -/
  openAuth : List JRec := []
  /-- closed groups, oldest first (06 R305). -/
  groups : List Group := []
  /-- next own group sequence (06 R305). -/
  nextGroup : Nat := 1
  /-- next group sequence of the twin under authority (07 R384). -/
  nextAuth : Nat := 1
  /-- own durable group end (07 R385). -/
  ownEnd : Nat := 0
  /-- last mirrored group of the twin held (06 R306). -/
  mirEnd : Nat := 0
  /-- first group received while a shadow is being made complete (06 R306). -/
  mirFirst : Option Nat := none
  /-- first AUTHORITY group received while the own ledger is taken from the holder (07 R400). -/
  ownFirst : Option Nat := none
  /-- block sequence at which this node last discarded its own ledger (07 R399). -/
  ownFrom : Nat := 0
  /-- mirrored groups received out of sequence or being written (06 R306). -/
  mirWrite : List Group := []
  /-- next block sequence (06 R300). -/
  blockSeq : Nat := 0
  /-- previous chain tag (06 R302). -/
  chain : BitVec 128 := 0
  /-- records written since the last checkpoint started (06 R324). -/
  sinceCkpt : Nat := 0
  /-- records written since position p of the last completed checkpoint (06 R325). -/
  sincePos : Nat := 0
  /-- last completed checkpoint (06 R329). -/
  ckptLast : Ckpt := {}
  /-- checkpoint under way (06 R327). -/
  ckptRun : Option Ckpt := none
  /-- its drive writes have ended, its record is pending (06 R327). -/
  ckptWritten : Bool := false
  /-- a checkpoint became due while held (15 R808). -/
  ckptDue : Bool := false
  /-- drive whose turn it is for a read (06 R287). -/
  driveTurn : Nat := 0
  /-- a ROLL record awaits durability: new epoch, its group (06 R342). -/
  rolling : Option (BitVec 4 × Nat) := none
  /-- a roll to this epoch waits for its ROLL_COUNT record (10 R536). -/
  rollWait : Option (BitVec 4) := none
  /-- a roll to this epoch waits because no state operation may be applied (06 R325). -/
  rollHeld : Option (BitVec 4) := none
  /-- current epoch (DEV_STATUS.epoch) (02 R49). -/
  epoch : BitVec 4 := 0
  /-- pages of the own ledger up to which leases may open since the twin stopped being a member (06 R282). -/
  growTo : Option Nat := none
  /-- replay has ended (06 R330). -/
  replayed : Bool := false
  /-- R317 is settled (06 R317). -/
  settled : Bool := false
  /-- false: operations for the twin's serials wait (hand-back) (07 R402). -/
  deciding : Bool := true
  /-- a tamper response or pause stops every further operation (13 R706). -/
  stopApply : Bool := false
  /-- next page of the background void rewrite (06 R321). -/
  rewritePage : Nat := 0
  /-- LED_STATUS.busy (09 R487). -/
  ledBusy : Bool := false
  /-- LED_STATUS.done (09 R487). -/
  ledDone : Bool := false
  /-- LED_STATUS early-read error (09 R484). -/
  ledEarly : Bool := false
  /-- LED_STATUS status code (09 R487). -/
  ledCode : Status := .done
  /-- LED_ARG_0..3 (09 R487). -/
  ledArgs : Tbl (BitVec 32) := []
  /-- LED_RESULT (09 R487). -/
  ledResult : BitVec 10 := 0
  /-- a CHECKPOINT command of the LED window waits (09 R489). -/
  ledCkpt : Bool := false
  /-- no new operation until a checkpoint completes (06 R325). -/
  fullStop : Bool := false
  deriving DecidableEq, Repr

/-- A frame in a replay buffer (R359). -/
structure Sent where
  /-- its count under the key it was sent with (07 R356). -/
  seq : Nat := 0
  /-- the frame (07 R363). -/
  frame : Frame := {}
  /-- the bytes that crossed the link (07 R363). -/
  wire : Bytes := []
  /-- resends without acknowledgement (07 R360). -/
  resends : Nat := 0
  deriving DecidableEq, Repr

/-- One Pergola port and its link (R348-R361, R413-R415). -/
structure PortSt where
  /-- link state (07 R350). -/
  link : LinkState := .down
  /-- lanes retired (07 R414). -/
  lanesRetired : BitVec 2 := 0
  /-- the peer's HELLO passed its checks (07 R352). -/
  helloOk : Bool := false
  /-- the peer's HELLO (07 R352). -/
  peer : Hello := {}
  /-- own HELLO nonce (07 R352). -/
  nonce : Bytes := []
  /-- link keys and confirmation key (07 R354). -/
  linkKeys : Bytes := []
  /-- frames sent under the current key (07 R356). -/
  txSeq : Nat := 0
  /-- frames received in order under the current key (07 R356). -/
  rxSeq : Nat := 0
  /-- replay buffer, oldest first (07 R359). -/
  replay : List Sent := []
  /-- frames that wait for the link: for room in the replay buffer, a retrain or a switch of keys (07 R357, R359, R414). -/
  waiting : List Frame := []
  /-- both lanes are locked and deskewed (07 R351). -/
  locked : Bool := false
  /-- key of the direction from this node (07 R354). -/
  txKey : Bytes := []
  /-- key of the direction to this node (07 R354). -/
  rxKey : Bytes := []
  /-- link_seq of the last frame received in order (07 R358). -/
  lastRx : Option Nat := none
  /-- own fresh nonce of a re-key under way (07 R357). -/
  nextNonce : Bytes := []
  /-- the peer's frame count at which its direction switches, and the key it switches to (07 R357). -/
  rxSwitch : Option (Nat × Bytes) := none
  /-- local times of the GCM failures with good CRC within the last second (07 R360). -/
  gcmFails : List Nat := []
  /-- local times at which the link went DOWN within the last hour (07 R415). -/
  downAt : List Nat := []
  /-- KEYX failures counted (07 R355). -/
  keyxFails : Nat := 0
  /-- frames are stopped for a retrain (07 R414). -/
  retraining : Bool := false
  /-- one-way link delay measured from an ALIGN echo, ns (07 R352). -/
  delay : Nat := 0
  /-- re-keyings made (07 R357). -/
  rekeys : Nat := 0
  /-- frames sent and frames resent within the last minute, with the local time of each (07 R415, 09 R490). -/
  traffic : List (Nat × Nat × Nat) := []
  /-- own KEYX of a re-key has been sent (07 R357). -/
  rekeying : Bool := false
  /-- frames of the replay buffer discarded (07 R360). -/
  dropped : Nat := 0
  deriving DecidableEq, Repr

/-- What the membership view holds about one home (R376, R868). -/
structure HomeView where
  /-- the home's term (07 R868). -/
  term : Nat := 0
  /-- the home's twin holds its authority (07 R868). -/
  byTwin : Bool := false
  /-- the home is a member (07 R868). -/
  member : Bool := true
  /-- the home's twin is a member (07 R868). -/
  twinMember : Bool := true
  /-- the holder's shadow is complete (07 R868). -/
  shadowOk : Bool := true
  deriving DecidableEq, Repr

/-- A witness grant given (R390). -/
structure Grant where
  /-- node granted to (07 R390). -/
  querier : Nat := 0
  /-- kind: TAKEOVER or EXCLUDE (07 R390). -/
  exclude : Bool := false
  /-- term of the grant (07 R390). -/
  term : Nat := 0
  /-- the grant has not lapsed (07 R390). -/
  outstanding : Bool := false
  /-- a decision based on it was acknowledged (07 R390). -/
  acked : Bool := false
  deriving DecidableEq, Repr

/-- A takeover or exclusion attempt (R393-R395). -/
structure Collect where
  /-- EXCLUDE of the twin, else TAKEOVER of the home (07 R395). -/
  exclude : Bool := false
  /-- home concerned (07 R393). -/
  home : Nat := 0
  /-- term queried (07 R394). -/
  term : Nat := 0
  /-- witnesses that granted (07 R393). -/
  grants : List Nat := []
  /-- the decision was sent to the granting witnesses (07 R393). -/
  decided : Bool := false
  /-- witnesses that acknowledged (07 R393). -/
  acks : List Nat := []
  /-- queried under R403 after a lost hand-back offer (07 R403). -/
  forOffer : Bool := false
  deriving DecidableEq, Repr

/-- Pergola fabric and twin authority (R344-R415). -/
structure FabSt where
  /-- ports X+ X- Y+ Y- Z+ Z- (07 R348). -/
  ports : Tbl PortSt := []
  /-- membership view, by home address (07 R868). -/
  view : Tbl HomeView := []
  /-- adjacent nodes heard (07 R388). -/
  heard : Tbl Bool := []
  /-- Pergola join has ended (07 R868). -/
  joined : Bool := false
  /-- a VIEW answer has been received (15 R864). -/
  viewGot : Bool := false
  /-- port the VIEW_REQUEST was last sent on (07 R868). -/
  viewAsked : Option Nat := none
  /-- every query is answered ABSTAIN (07 R391). -/
  abstain : Bool := true
  /-- the node holds its own authority (05 R227). -/
  ownAuth : Bool := false
  /-- DEV_STATUS.twin_authority (05 R227). -/
  twinAuth : Bool := false
  /-- DEV_STATUS.twin_member (07 R395). -/
  twinMember : Bool := false
  /-- this node's shadow of the twin is complete (07 R385). -/
  shadowOk : Bool := false
  /-- the twin's shadow of this node is complete (06 R312). -/
  twinShadowOk : Bool := false
  /-- own term (highest recorded) (07 R377). -/
  ownTerm : Nat := 0
  /-- the twin's term (highest recorded) (07 R377). -/
  twinTerm : Nat := 0
  /-- grants given as witness (07 R390). -/
  grants : Tbl (Option Grant) := []
  /-- takeover attempt under way (07 R393). -/
  collT : Option Collect := none
  /-- exclusion attempt under way (07 R395). -/
  collE : Option Collect := none
  /-- group the home's WITHDRAW named (07 R397). -/
  withdrawWait : Option Nat := none
  /-- this node has flooded WITHDRAW (13 R710). -/
  withdrawn : Bool := false
  /-- hand-back offer made: home, offered term, last AUTHORITY group (07 R402). -/
  offer : Option (Nat × Nat × Nat) := none
  /-- the 2 ms of R403 have passed without any word from the home (07 R403). -/
  offerWait : Bool := false
  /-- a ROLL_QUERY awaits its answer (06 R341). -/
  rollAsk : Bool := false
  /-- a roll this node confirmed and has not let lapse (07 R869). -/
  rollOk : Option (BitVec 4) := none
  /-- frames flooded: kind, subject, term, value, local time (07 R375). -/
  flooded : List (Nat × Nat × Nat × Nat × Nat) := []
  /-- own ledger and void index are being taken from the holder (07 R399). -/
  rejoining : Bool := false
  /-- slots of the pages requested and outstanding (07 R400). -/
  pageAsk : List Nat := []
  /-- the steps of R400 run (07 R400). -/
  copying : Bool := false
  /-- VOID_REQUEST outstanding: 0 none, else 1 + 2 x block + (1 for the own ledger) (07 R400). -/
  voidAsk : Nat := 0
  /-- shadow pages not yet asked for (07 R400). -/
  pagesLeft : Nat := 0
  /-- pages of the own ledger not yet asked for (07 R400). -/
  ownLeft : Nat := 0
  /-- key transfer asked for: slot, transfer identifier, tries (07 R412). -/
  keyReq : Option (Nat × Nat × Nat) := none
  /-- key transfer delivered and awaiting RECEIPT (07 R412). -/
  keySent : Option (Nat × Nat) := none
  /-- a delivered key waits for a change of its slot to end (10 R566). -/
  keyDelivery : Option KeyDelivery := none
  /-- next transfer identifier (07 R410). -/
  keyXfer : BitVec 32 := 0
  /-- the twin route of R589 runs (10 R589). -/
  twinRoute : Bool := false
  /-- frames discarded and counted (07 R367). -/
  discarded : Nat := 0
  /-- TIME_PULSE offsets counted (07 R407). -/
  timeOffsets : Nat := 0
  /-- FAB_STATUS.busy (09 R490). -/
  busy : Bool := false
  /-- FAB_STATUS.done (09 R490). -/
  done : Bool := false
  /-- FAB_STATUS status code (09 R490). -/
  code : Status := .done
  /-- FAB_ARG_0 (09 R490). -/
  arg0 : BitVec 32 := 0
  /-- FAB_ARG_1 (09 R490). -/
  arg1 : BitVec 32 := 0
  /-- FAB_VIEW_SEL (09 R490). -/
  viewSel : BitVec 32 := 0
  /-- the twin's epoch as last heard (07 R385). -/
  twinEpoch : BitVec 4 := 0
  /-- the twin's durable group end as last heard (07 R385). -/
  twinEnd : Nat := 0
  /-- last own group the twin is known to hold (06 R317). -/
  twinHas : Nat := 0
  /-- the twin has said so, by JOIN or an acknowledgement, since the start (06 R861). -/
  twinKnown : Bool := false
  /-- homes named by the VIEW answer so far (07 R868). -/
  viewNamed : List Nat := []
  /-- homes whose term in the view is only the one this node recorded (07 R394). -/
  fromRecord : List Nat := []
  /-- lowest group_end of the shadow pages copied (07 R383, R400). -/
  copyEnd : Option Nat := none
  /-- lowest group_end of the own pages copied (07 R383, R400). -/
  ownCopyEnd : Option Nat := none
  deriving DecidableEq, Repr

/-- One root bank (R524). -/
structure RootBank where
  /-- programming has begun (10 R525). -/
  begun : Bool := false
  /-- bank-valid fuse (10 R524). -/
  valid : Bool := false
  /-- root secret (10 R524). -/
  secret : Bytes := []
  /-- integrity word (10 R526). -/
  integrity : Bytes := []
  deriving DecidableEq, Repr

/-- Key engine, life cycle and key holder (R524-R591). -/
structure KeySt where
  /-- the key store (10 R541). -/
  slots : Tbl Slot := []
  /-- the key store is unwrapped (10 R545). -/
  unwrapped : Bool := false
  /-- first root bank (10 R524). -/
  root0 : RootBank := {}
  /-- second root bank (10 R524). -/
  root1 : RootBank := {}
  /-- root-kill fuse (10 R574). -/
  rootKill : Bool := false
  /-- debug-disable fuse (10 R525). -/
  debugDisabled : Bool := false
  /-- the voile as the Gatehouse SRAM holds it; empty while that SRAM has lost its supplies (10 R530). -/
  voile : Bytes := []
  /-- its bitwise complement as held beside it (10 R530). -/
  voileInv : Bytes := []
  /-- veil flag (10 R533). -/
  veil : Bool := false
  /-- fuse counter (10 R570). -/
  fuse : BitVec 2 := 1
  /-- fused owner hash (10 R579). -/
  ownerHash : Option Bytes := none
  /-- IN_SERVICE is recorded (10 R571). -/
  inService : Bool := false
  /-- offer_count (10 R575). -/
  offerCount : Nat := 0
  /-- roll_count (10 R536). -/
  rollCount : Nat := 0
  /-- last accepted control sequence (03 R131). -/
  ctlSeq : Nat := 0
  /-- handle table of core A (10 R552). -/
  handlesA : List Handle := []
  /-- handle table of core B (10 R552). -/
  handlesB : List Handle := []
  /-- Gatehouse key holder (10 R568). -/
  holder : Tbl (Option Slot) := []
  /-- KEY_STATUS.busy (09 R485). -/
  cmdBusy : Bool := false
  /-- KEY_STATUS.done (09 R485). -/
  cmdDone : Bool := false
  /-- KEY_STATUS early-read error (09 R484). -/
  cmdEarly : Bool := false
  /-- KEY_STATUS status code (09 R485). -/
  cmdCode : Status := .done
  /-- the command that runs, with its prepared outcome (09 R484). -/
  cmdRun : Option KeyRun := none
  /-- a command, with its core, that waits for the DRBG (11 R635). -/
  cmdHeld : Option (CoreId × Nat) := none
  /-- a REKEY package has been accepted and its records are not committed yet (10 R588). -/
  rekeyDue : Bool := false
  /-- KEY_SLOT (09 R485). -/
  slotReg : BitVec 32 := 0
  /-- KEY_HANDLE_IN (09 R485). -/
  handleIn : W36 := {}
  /-- KEY_HANDLE_IN2 (09 R485). -/
  handleIn2 : W36 := {}
  /-- KEY_IN_ADDR (09 R485). -/
  inAddr : BitVec 16 := 0
  /-- KEY_IN_LEN (09 R485). -/
  inLen : BitVec 32 := 0
  /-- KEY_OUT_ADDR (09 R485). -/
  outAddr : BitVec 16 := 0
  /-- KEY_ATTR (09 R485). -/
  attr : BitVec 32 := 0
  /-- KEY_HANDLE_OUT (09 R485). -/
  handleOut : W36 := {}
  /-- KEY_RESULT (09 R485). -/
  result : BitVec 32 := 0
  /-- the fixed derivations have been made (10 R535). -/
  deviceKeys : Bool := false
  /-- changes of slots begun and neither committed nor failed, oldest first (10 R566). -/
  changes : List KeyChange := []
  deriving DecidableEq, Repr

/-- The DIG window as one core sees it (R594-R603). -/
structure DigCore where
  /-- DIG_KEY (11 R594). -/
  key : W36 := {}
  /-- DIG_ADDR (11 R594). -/
  addr : BitVec 16 := 0
  /-- DIG_LEN (11 R594). -/
  len : BitVec 32 := 0
  /-- DIG_STATUS.done (11 R594). -/
  done : Bool := false
  /-- DIG_STATUS.early (11 R594). -/
  early : Bool := false
  /-- DIG_STATUS.result (11 R595). -/
  result : BitVec 4 := 0
  /-- DIG_COUNT (11 R594). -/
  count : Nat := 0
  /-- DIG_RESULT_0..15 (11 R602). -/
  bank : Bytes := []
  /-- measurement latches (11 R608). -/
  latch : Tbl Bytes := []
  deriving DecidableEq, Repr

/-- Digest engine and measurement registers (R592-R617). -/
structure DigSt where
  /-- holder of the FIRMWARE context (11 R596). -/
  owner : Option CoreId := none
  /-- algorithm of the message (11 R594). -/
  alg : BitVec 2 := 0
  /-- HMAC key material of the message (11 R599). -/
  hmacKey : Option Bytes := none
  /-- bytes absorbed (11 R592). -/
  msg : Bytes := []
  /-- a command of the owner runs; for a finish its destination, 15 for an update (11 R593). -/
  running : Option (BitVec 4) := none
  /-- core A's view (11 R594). -/
  a : DigCore := {}
  /-- core B's view (11 R594). -/
  b : DigCore := {}
  /-- MEAS_0..MEAS_7 (11 R605). -/
  meas : Tbl Bytes := []
  /-- Gatehouse copy of the measurements (11 R617). -/
  gateMeas : Tbl Bytes := []
  /-- DIG_SNOOP [0] (11 R594). -/
  snooping : Bool := false
  /-- adoption digests, by section type (11 R613). -/
  adoptDig : Tbl Bytes := []
  deriving DecidableEq, Repr

/-- The RNG window as one core sees it (R640). -/
structure RngCore where
  /-- busy (11 R640). -/
  busy : Bool := false
  /-- done (11 R640). -/
  done : Bool := false
  /-- status code (11 R640). -/
  status : Status := .done
  /-- RNG_ADDR (11 R640). -/
  addr : BitVec 16 := 0
  /-- RNG_LEN (11 R640). -/
  len : BitVec 32 := 0
  /-- the running command is GENERATE_FRESH (11 R643). -/
  fresh : Bool := false
  /-- output of the running command has been written (11 R642). -/
  written : Bool := false
  /-- the running command waits to be served (11 R635). -/
  waiting : Bool := false
  deriving DecidableEq, Repr

/-- The continuous health tests of the source in use (R619, R620): the last bit and how often it has come in a row, and the window that runs: its first
bit, its length so far, and how many of its bits equal the first. -/
structure Health where
  last : Option Bool := none
  run : Nat := 0
  first : Bool := false
  pos : Nat := 0
  same : Nat := 0
  deriving DecidableEq, Repr

/-- Noise bank and DRBG (R618-R643). -/
structure RngSt where
  /-- bank state (11 R622). -/
  bank : NoiseState := .starting
  /-- source in use, or being tested (11 R640). -/
  source : Nat := 0
  /-- RNG_FAILS_0..3 (11 R640). -/
  fails : Tbl Nat := []
  /-- local time at which the source last returned to service (11 R627). -/
  returned : Tbl (Option Nat) := []
  /-- the source failed again within 24 hours of a return (11 R627). -/
  blocked : Tbl Bool := []
  /-- source under an RNG_TEST (11 R627). -/
  testing : Option Nat := none
  /-- RNG_TEST_RESULT (11 R640). -/
  testResult : BitVec 2 := 0
  /-- a result register was read early (09 R484). -/
  early : Bool := false
  /-- the reseed buffer is full (11 R632). -/
  full : Bool := false
  /-- the DRBG is instantiated (11 R634). -/
  inst : Bool := false
  /-- a reseed limit is reached and the reseed not yet made (11 R631). -/
  limit : Bool := false
  /-- RNG_REQUESTS (11 R640). -/
  requests : Nat := 0
  /-- RNG_RESEEDS (11 R640). -/
  reseeds : Nat := 0
  /-- working state of the DRBG (11 R629, R630). -/
  seed : Bytes := []
  /-- the reseed buffer: the next entropy input (11 R630, R632). -/
  entropy : Bytes := []
  /-- nonce gathered for an instantiation (11 R630). -/
  nonce : Bytes := []
  /-- raw bits of the source in use that do not make a conditioned bit yet (11 R618). -/
  raw : List Bool := []
  /-- health tests of the source in use (11 R619, R620). -/
  health : Health := {}
  /-- MODEL'S OWN: random bytes drawn so far, an argument of Config.drbgByte (11 R629). -/
  drawn : Nat := 0
  /-- core A's view (11 R640). -/
  a : RngCore := {}
  /-- core B's view (11 R640). -/
  b : RngCore := {}
  /-- RNG_MODE (11 R618). -/
  mode : BitVec 2 := 1
  deriving DecidableEq, Repr

/-- A record of the record store (R652, R653). -/
structure Record where
  /-- partition code (12 R647). -/
  part : BitVec 2 := 0
  /-- type (12 R652). -/
  typ : BitVec 16 := 0
  /-- id (12 R652). -/
  id : Nat := 0
  /-- version of the key (12 R652). -/
  seq : Nat := 0
  /-- payload (12 R652). -/
  payload : Bytes := []
  /-- transaction number (12 R652). -/
  txn : Nat := 0
  /-- part index (12 R652). -/
  idx : Nat := 0
  /-- commit word: present, dead or absent (12 R653). -/
  mark : MarkWord := .absent
  /-- corrected bits over its groups (12 R669). -/
  corr : Nat := 0
  /-- a group is uncorrectable (12 R671). -/
  bad : Bool := false
  /-- most bits corrected in one group (12 R677). -/
  worst : Nat := 0
  /-- sector that holds it (12 R651). -/
  sector : Nat := 0
  /-- its first page in that sector (12 R652). -/
  page : Nat := 0
  /-- it belongs to a transaction that has no TX_DONE yet (12 R663). -/
  inTxn : Bool := false
  deriving DecidableEq, Repr

/-- An append in the engine's queue (R657). -/
structure Append where
  /-- source (12 R657). -/
  src : AppendSrc := .gatehouse
  /-- the record (12 R652). -/
  record : Record := {}
  /-- attempts that failed verification (12 R660). -/
  tries : Nat := 0
  /-- programming has begun (12 R657). -/
  begun : Bool := false
  /-- its preconditions do not hold (12 R658). -/
  deferred : Bool := false
  /-- stopped by a hot-set save (12 R682). -/
  stopped : Bool := false
  /-- it is the command of the REC window that runs (12 R665). -/
  win : Bool := false
  /-- pages still to be programmed (12 R682). -/
  pagesLeft : Nat := 1
  deriving DecidableEq, Repr

/-- One NOR sector (R651, R675-R677). -/
structure Sector where
  /-- page 0 is wholly 0xFF (12 R651). -/
  erased : Bool := true
  /-- erase count (12 R651). -/
  eraseCount : Nat := 0
  /-- sector sequence (12 R651). -/
  seq : Nat := 0
  /-- release word programmed (12 R651). -/
  releasing : Bool := false
  /-- device time of its latest erase (12 R677). -/
  erasedAt : Nat := 0
  /-- an erase is under way (12 R675). -/
  erasing : Bool := false
  deriving DecidableEq, Repr

/-- An open transaction (R662). -/
structure Txn where
  /-- partition (12 R662). -/
  part : BitVec 2 := 0
  /-- transaction number (12 R662). -/
  txn : Nat := 0
  /-- parts named by the INTENT (12 R662). -/
  n : Nat := 0
  /-- parts committed (12 R663). -/
  done : Nat := 0
  /-- parts appended so far (12 R662). -/
  queued : Nat := 0
  deriving DecidableEq, Repr

/-- Record store, hot set and their window (R644-R686). -/
structure RecSt where
  /-- REC_STATUS.ready (12 R672). -/
  ready : Bool := false
  /-- the NOR array: 256 bytes of each page that is not wholly 0xFF (12 R647, R649). -/
  nor : Tbl Bytes := []
  /-- programs of a page since its sector was erased (12 R648). -/
  progs : Tbl Nat := []
  /-- page and byte that were being programmed when the supply failed, whose reads are unpredictable (12 R674). -/
  torn : Option (Nat × Nat) := none
  /-- count of cut-off programs: the model's own, the argument of the free values (12 R674, log entry 135). -/
  tears : Nat := 0
  /-- index of the records in the array, in append order of each partition (12 R652, R673). -/
  recs : List Record := []
  /-- append queue (12 R657). -/
  queue : List Append := []
  /-- new appends are held by a hot-set save (12 R682). -/
  held : Bool := false
  /-- a save is pending or in progress (12 R682). -/
  saving : Bool := false
  /-- frozen copy of the slots (12 R682). -/
  frozen : Tbl (BitVec 64) := []
  /-- hot set (12 R679). -/
  hot : Tbl (BitVec 64) := []
  /-- the hot set is STALE (12 R685). -/
  stale : Bool := false
  /-- the hot-set SRAM kept VSTBY (12 R685). -/
  hotKept : Bool := false
  /-- time on VBAT alone since recovery last ended, µs (12 R679). -/
  vbatUs : Nat := 0
  /-- count of the newest POWER_UP record (12 R684). -/
  powerUps : Nat := 0
  /-- save count (12 R682). -/
  saves : Nat := 0
  /-- sectors (12 R647). -/
  sectors : Tbl Sector := []
  /-- open sector of the partition and its next free page (12 R651). -/
  cur : Tbl (Option (Nat × Nat)) := []
  /-- open transactions, by source (12 R662). -/
  txns : Tbl (Option Txn) := []
  /-- next transaction number (12 R662). -/
  nextTxn : Nat := 1
  /-- running count of each log type (12 R656). -/
  logs : Tbl Nat := []
  /-- command running in the REC window (12 R665). -/
  cmd : BitVec 32 := 0
  /-- REC_PART (12 R665). -/
  part : BitVec 2 := 0
  /-- REC_TYPE (12 R665). -/
  typ : BitVec 16 := 0
  /-- REC_ID (12 R665). -/
  id : BitVec 32 := 0
  /-- REC_ADDR (12 R665). -/
  addr : BitVec 16 := 0
  /-- REC_LEN (12 R665). -/
  len : BitVec 32 := 0
  /-- REC_STATUS.busy (12 R665). -/
  busy : Bool := false
  /-- REC_STATUS.done (12 R665). -/
  done : Bool := false
  /-- REC_STATUS.deferred (12 R665). -/
  deferred : Bool := false
  /-- REC_STATUS status code (12 R665). -/
  code : Status := .done
  /-- core whose command runs (12 R665). -/
  core : CoreId := .a
  /-- HOLDCAP is at least 4.5 V (12 R657). -/
  holdcapOk : Bool := false
  /-- HOLDCAP capacitance last measured (12 R645). -/
  capTenths : Nat := 1000
  deriving DecidableEq, Repr

/-- Secure time (R687-R696). -/
structure TimeSt where
  /-- device time kept by the Gatehouse (12 R687). -/
  us : Nat := 0
  /-- time is anchored (12 R690). -/
  anchored : Bool := false
  /-- u0 (12 R691). -/
  u0 : Nat := 0
  /-- device time of acceptance (12 R691). -/
  a : Nat := 0
  /-- 31 us gained at each return from VBAT (12 R688). -/
  extra : Nat := 0
  /-- device time the last voucher set (12 R694). -/
  lastSet : Nat := 0
  /-- device time from which R689 last restarted time (12 R694). -/
  restart : Nat := 0
  /-- main-die mirror: device time (12 R692). -/
  mUs : Nat := 0
  /-- main-die mirror: uncertainty (12 R691). -/
  mUnc : Nat := 0xFFFFFFFF
  /-- main-die mirror: anchored state (12 R692). -/
  mAnch : Bool := false
  /-- TIME_NOW_HI latch of core A (09 R490). -/
  latchA : BitVec 32 := 0
  /-- TIME_NOW_HI latch of core B (09 R490). -/
  latchB : BitVec 32 := 0
  /-- TIME_NOW_HI latch of core G (09 R490). -/
  latchG : BitVec 32 := 0
  /-- TIME_VOUCHER_ADDR (09 R490). -/
  vAddr : BitVec 16 := 0
  /-- TIME_VOUCHER_LEN (09 R490). -/
  vLen : BitVec 32 := 0
  /-- TIME_STATUS.busy (09 R490). -/
  busy : Bool := false
  /-- TIME_STATUS.done (09 R490). -/
  done : Bool := false
  /-- TIME_STATUS status code (09 R490). -/
  code : Status := .done
  /-- local microsecond count, never set back (03 R161). -/
  clk : Nat := 0
  deriving DecidableEq, Repr

/-- One entry of the unit table (R503, R506, R750). -/
structure UnitEnt where
  /-- applied state (14 R750). -/
  st : UState := .absent
  /-- port lanes retired (09 R506). -/
  lanes : BitVec 2 := 0
  /-- reason of the post acted on (09 R506). -/
  reason : BitVec 8 := 0
  /-- drained is set (09 R503). -/
  drained : Bool := false
  /-- the unit posted FAILED about itself with SELF_CHECK and takes no new work (09 R500). -/
  stopped : Bool := false
  deriving DecidableEq, Repr

/-- A post to the unit table (R498). -/
structure Post where
  /-- unit identifier (09 R498). -/
  unit : Nat := 0
  /-- state the poster holds right (09 R498). -/
  st : BitVec 3 := 0
  /-- 0 data plane, 1 management, 2 hardware, 3 control firmware (09 R498). -/
  source : BitVec 2 := 0
  /-- reason (09 R498). -/
  reason : BitVec 8 := 0
  /-- TIME_NOW_LO at arrival (09 R496). -/
  time : BitVec 32 := 0
  /-- port_lanes of a proposal (14 R751). -/
  lanes : BitVec 2 := 0
  /-- force of a proposal (14 R751). -/
  force : Bool := false
  deriving DecidableEq, Repr

/-- One direction of a mailbox (R496, R497). -/
structure Mail where
  /-- outgoing words (09 R496). -/
  out : Tbl W36 := []
  /-- received words (09 R496). -/
  in_ : Tbl W36 := []
  /-- words received, 0 when none waits (09 R496). -/
  inLen : Nat := 0
  /-- the last message sent has not been acknowledged (09 R497). -/
  unacked : Bool := false
  /-- an acknowledgement waits (09 R493). -/
  ackPend : Bool := false
  deriving DecidableEq, Repr

/-- Meeting point M1, interrupts, mail and roles (R28-R33, R491-R507). -/
structure UnitSt where
  /-- the unit table (MBX_UNIT) (09 R496). -/
  tbl : Tbl UnitEnt := []
  /-- table version (03 R146). -/
  version : Nat := 0
  /-- Gatehouse copy of the unit table (01 R28). -/
  gate : Tbl UnitEnt := []
  /-- table version of the Gatehouse copy (14 R745). -/
  gateVersion : Nat := 0
  /-- post queue (09 R496). -/
  posts : List Post := []
  /-- MBX_POST_STATUS.overflow (09 R499). -/
  overflow : Bool := false
  /-- posts held about a DISPUTED unit (01 R32). -/
  heldPosts : List Post := []
  /-- latest observation of the data plane (09 R507). -/
  lastData : Tbl (Option Post) := []
  /-- latest proposal of management (09 R507). -/
  lastMgmt : Tbl (Option Post) := []
  /-- MODEL'S OWN: decisions of the control core not yet applied: unit, state, reason, oldest first (09 R858). -/
  decided : List (Nat × UState × BitVec 8) := []
  /-- MBX_APPLY_STATUS.refused (09 R503). -/
  applyRefused : Bool := false
  /-- MBX_APPLY_STATUS.drained (09 R503). -/
  applyDrained : Bool := false
  /-- unit of the last apply (09 R496). -/
  applyUnit : Nat := 0
  /-- MBX_IRQ_ENABLE, by core (09 R509). -/
  irqEn : Tbl (BitVec 32) := []
  /-- MBX_IRQ_PENDING, by core (09 R495). -/
  irqPend : Tbl (BitVec 32) := []
  /-- MBX_TIMER, by core (09 R496). -/
  timer : Tbl (BitVec 32) := []
  /-- core A's peer mailbox (09 R496). -/
  mailA : Mail := {}
  /-- core B's peer mailbox (09 R496). -/
  mailB : Mail := {}
  /-- core G's end of the Gatehouse mailbox (09 R496). -/
  mailG : Mail := {}
  /-- the main die's end of the Gatehouse mailbox (09 R496). -/
  mailM : Mail := {}
  /-- active control core (A or B) (09 R491). -/
  active : CoreId := .a
  /-- the active core has written GIVE (09 R491). -/
  gave : Bool := false
  /-- PWR_ROLE.refused of core A (09 R491). -/
  roleRefA : Bool := false
  /-- PWR_ROLE.refused of core B (09 R491). -/
  roleRefB : Bool := false
  /-- step of an adoption under way, 0 when none (14 R762). -/
  adopting : Nat := 0
  /-- bank being adopted (14 R762). -/
  adoptBank : BitVec 1 := 0
  /-- lane that step 5 of the adoption drains (14 R762). -/
  adoptLane : Option Nat := none
  /-- the standby runs the staged image (11 R613). -/
  reloaded : Bool := false
  /-- the control core is in the safe-mode loop (09 R511). -/
  safeLoop : Bool := false
  /-- node-level failover has been started (01 R41). -/
  failover : Bool := false
  /-- DB_STAGED has been rung and not handled (09 R493). -/
  staged : Bool := false
  /-- MODEL'S OWN: doorbells rung, oldest first (01 R38). -/
  bells : List Bell := []
  deriving DecidableEq, Repr

/-- One Serge core (R416, R417). -/
structure Core where
  /-- ACC (08 R417). -/
  acc : W36 := {}
  /-- X (08 R417). -/
  x : W36 := {}
  /-- Y (08 R417). -/
  y : W36 := {}
  /-- LR (08 R417). -/
  lr : W36 := {}
  /-- PC, with one bit more to stand at the end of program memory (R471: it does not wrap). -/
  pc : BitVec 15 := 0
  /-- DP (08 R417). -/
  dp : BitVec 11 := 0
  /-- Z (08 R417). -/
  z : Bool := false
  /-- N (08 R417). -/
  n : Bool := false
  /-- C (08 R417). -/
  c : Bool := false
  /-- V (08 R417). -/
  v : Bool := false
  /-- IE (08 R417). -/
  ie : Bool := false
  /-- EI takes effect when the next instruction completes (08 R442). -/
  eiNext : Bool := false
  /-- REPC (08 R417). -/
  repc : Nat := 0
  /-- state (08 R417). -/
  st : CoreMode := .normal
  /-- stopped until its next reset (08 R444). -/
  halted : Bool := false
  /-- suspended by WAIT (08 R443). -/
  waiting : Bool := false
  /-- held in reset by its watchdog (09 R492). -/
  inReset : Bool := false
  /-- it has entered program RAM (09 R491). -/
  inRam : Bool := false
  /-- data RAM (08 R418). -/
  ram : Tbl W36 := []
  /-- program RAM, by program address, kept as the word xor 0x079F (15 R777). -/
  prog : Tbl (BitVec 14) := []
  /-- ID_LOCK (09 R490). -/
  idLock : Bool := false
  /-- the watchdog was restarted since it was last examined (09 R492). -/
  wdog : Bool := false
  /-- start kind of the next entry to program RAM (09 R509). -/
  startKind : BitVec 2 := 0
  /-- next program address ID_LOAD writes (09 R490). -/
  loadAddr : BitVec 14 := 0x0800
  /-- a repeat in progress: instruction and iterations left (08 R448). -/
  rep : Option RepState := none
  /-- program addresses whose word holds an uncorrectable ECC error (08 R454): no row makes or ends one (log entry 67). -/
  badProg : List Nat := []
  /-- data RAM addresses whose word holds an uncorrectable ECC error (08 R454; log entry 67). -/
  badData : List Nat := []
  /-- the image in program RAM holds OWNER_FW (09 R520). -/
  ownerFw : Bool := false
  /-- the INIT hook has been called (09 R520). -/
  initDone : Bool := false
  /-- local time of the last call of the PERIODIC hook (09 R520). -/
  periodAt : Nat := 0
  deriving DecidableEq, Repr

/-- The three Serge cores. -/
structure Cores where
  /-- Serge A (08 R416). -/
  a : Core := {}
  /-- Serge B (08 R416). -/
  b : Core := {}
  /-- Serge G (08 R416). -/
  g : Core := {}
  /-- word last read from an engine window (09 R483). -/
  busData : W36 := {}
  /-- MODEL'S OWN: calls of owner code and services for it so far, the argument of the free values Config.hookReturn and Config.afterSvc (09 R520,
  R522). -/
  calls : Nat := 0
  deriving DecidableEq, Repr

/-- Tamper hub (R699-R722). -/
structure TamperSt where
  /-- TMP_STATUS.level (13 R722). -/
  level : BitVec 2 := 0
  /-- TMP_STATUS.in_force (13 R722). -/
  inForce : Bool := false
  /-- TMP_STATUS.cleared (13 R722). -/
  cleared : Bool := false
  /-- TMP_STATUS.restarting (13 R722). -/
  restarting : Bool := false
  /-- TMP_STATUS.boot_held (13 R722). -/
  bootHeld : Bool := false
  /-- TMP_STATUS.withdrawn (13 R722). -/
  withdrawn : Bool := false
  /-- TMP_STATUS.sensor (13 R722). -/
  sensor : BitVec 8 := 0
  /-- TMP_ACTIVE (13 R722). -/
  alarming : BitVec 28 := 0
  /-- sensors that raised the response in force (13 R705). -/
  raisers : BitVec 28 := 0
  /-- TMP_COUNT_0..27 (13 R722). -/
  counts : Tbl Nat := []
  /-- always-on latch: (sensor, count) (13 R718). -/
  latch : List (Nat × Nat) := []
  /-- the latch overflowed (13 R718). -/
  latchOver : Bool := false
  /-- local time of the sensor's last record (13 R720). -/
  logged : Tbl (Option Nat) := []
  /-- events suppressed since its previous record (13 R720). -/
  suppressed : Tbl Nat := []
  /-- steps 8 and 9 of a level 2 response are still to come (13 R706). -/
  flushing : Bool := false
  /-- sensors armed (13 R703). -/
  armed : BitVec 28 := 0x0FFFFFFF
  /-- TLOOP_0..3_OUT as driven (13 R704). -/
  loopOut : BitVec 4 := 0
  /-- TLOOP_0..3_IN as last sampled (16 R838). -/
  loopIn : BitVec 4 := 0
  /-- successive changes of the output that left the input unchanged (16 R838). -/
  loopStuck : Tbl Nat := []
  /-- a level-3 response is not yet followed by leaving VEILED (13 R714). -/
  wipedVoile : Bool := false
  deriving DecidableEq, Repr

/-- A management message (R727, R729). -/
structure MgtMsg where
  /-- message from its MCTP type byte (14 R729). -/
  bytes : Bytes := []
  /-- source EID (14 R729). -/
  eid : BitVec 8 := 0
  /-- MCTP tag (14 R729). -/
  tag : BitVec 3 := 0
  deriving DecidableEq, Repr

/-- Management plane (R723-R770). -/
structure MgtSt where
  /-- PROPOSE_UNIT_STATE requests whose PROPOSAL record is not committed yet, with the post that follows it (14 R753). -/
  proposals : List (MgtMsg × Post) := []
  /-- endpoint ID (14 R725). -/
  eid : Option (BitVec 8) := none
  /-- the message in hand and those waiting (14 R727). -/
  rx : List MgtMsg := []
  /-- last message taken (14 R729). -/
  taken : Option MgtMsg := none
  /-- MGT_RX_ADDR (14 R729). -/
  rxAddr : BitVec 16 := 0
  /-- MGT_TX_ADDR (14 R729). -/
  txAddr : BitVec 16 := 0
  /-- MGT_TX_LEN (14 R729). -/
  txLen : BitVec 32 := 0
  /-- MGT_ALERT (14 R730). -/
  alert : BitVec 32 := 0
  /-- MGT_ERRORS PEC failures (14 R729). -/
  pecFails : Nat := 0
  /-- MGT_ERRORS discarded messages (14 R729). -/
  discards : Nat := 0
  /-- nonce counter (14 R735). -/
  nonce : Nat := 1
  /-- next offset of the staging session (14 R758). -/
  stageNext : Option Nat := none
  /-- bank of the staging session (14 R749). -/
  stageBank : BitVec 1 := 0
  /-- bytes staged in the standby bank (14 R759). -/
  stageData : Bytes := []
  /-- a staged image is committed (14 R742). -/
  committed : Bool := false
  /-- its image sequence (14 R749). -/
  commitSeq : Nat := 0
  /-- it is to be adopted in service (14 R760). -/
  adopt : Bool := false
  /-- local times of the latest AUTH_FAILED answers (14 R731). -/
  authTimes : List Nat := []
  /-- the running bank: selected at the last start, or last adopted (14 R757). -/
  runBank : BitVec 2 := 3
  /-- DEV_STATUS as last reported by the main die (14 R742). -/
  devStatus : BitVec 32 := 0
  /-- TWIN_STATUS values last reported by the main die (14 R746). -/
  twinLast : Bytes := []
  /-- Gatehouse copy of the telemetry mirror (14 R743). -/
  copy : Tbl (BitVec 64) := []
  /-- local time the copy was refreshed (14 R744). -/
  copyAt : Option Nat := none
  /-- core G reloads its firmware (14 R728). -/
  reloading : Bool := false
  deriving DecidableEq, Repr

/-- One pulse crossing (R818). -/
structure PulseX where
  /-- an acknowledge phase runs (15 R818). -/
  ack : Bool := false
  /-- pulses counted in the phase (15 R818). -/
  count : Nat := 0
  /-- OVERFLOW (15 R818). -/
  overflow : Bool := false
  /-- counts delivered, oldest first (15 R818). -/
  events : List Nat := []
  deriving DecidableEq, Repr

/-- Parameters in effect (R790). -/
structure Params where
  /-- DURABILITY_POLICY (15 R790). -/
  policy : BitVec 2 := 0
  /-- ext_x (15 R790). -/
  extX : Nat := 1
  /-- ext_y (15 R790). -/
  extY : Nat := 1
  /-- ext_z (15 R790). -/
  extZ : Nat := 1
  /-- FABRIC_KEY_SLOT (15 R790). -/
  fabKey : BitVec 16 := 0xFFFF
  /-- EPOCH_GRACE, minutes (15 R790). -/
  grace : Nat := 1440
  /-- RNG_MODE (15 R790). -/
  rngMode : BitVec 2 := 1
  /-- SMBUS_ADDRESS (15 R790). -/
  smbus : BitVec 7 := 0x5A
  /-- NAP_AFTER, ms (15 R790). -/
  napAfter : Nat := 1000
  /-- KEEP_AFTER, s (15 R790). -/
  keepAfter : Nat := 0
  /-- WAKE_GPIO (15 R790). -/
  wakeGpio : BitVec 8 := 0
  /-- GPIO_MODE (15 R790). -/
  gpioMode : Tbl (BitVec 2) := []
  /-- TAMPER_LEVEL_n where given (15 R790). -/
  levels : Tbl (Option (BitVec 2)) := []
  /-- TAMPER_LOOPS (15 R790). -/
  loops : BitVec 4 := 0
  deriving DecidableEq, Repr

/-- Read modes of the configuration flash (15 R772): 1-1-1, 8D-8D-8D, 1-4-4, 1-1-4. -/
inductive ReadMode where
  | single | octal | quad | quadOut
  deriving DecidableEq, Repr

/-- What the flash controller does on its pins at a start (15 R772): SPI_RESET_N low for so many µs, the SFDP tables read in a mode at so many MHz, and
the mode and rate of the image read. -/
inductive SpiOp where
  | reset (us : Nat)
  | sfdp (mode : ReadMode) (mhz : Nat)
  | select (mode : ReadMode) (mhz : Nat)
  deriving DecidableEq, Repr

/-- Supplies, boot, power states, pins and identity (R771-R821). -/
structure PowerSt where
  /-- variant of the device (00 R1). -/
  variant : Variant := .slx4816
  /-- ID_UNIT (03 R94). -/
  unit : BitVec 64 := 0
  /-- ID_DEVICE stepping: [3:0] letter, [7:4] digit (16 R848). -/
  stepping : BitVec 8 := 0x01
  /-- node address latched at reset release (07 R344). -/
  node : BitVec 12 := 0
  /-- GPIO_0..7 inputs (15 R811). -/
  gpio : BitVec 8 := 0xFF
  /-- GPIO_0..7 as driven from boot step 6: the mode of each. -/
  gpioOut : Tbl (BitVec 2) := []
  /-- VSTBY is in its window (15 R793). -/
  vstby : Bool := false
  /-- VBAT is present (12 R697). -/
  vbat : Bool := false
  /-- the standby domain runs (12 R644). -/
  standby : Bool := false
  /-- the main die is powered and out of reset (15 R793). -/
  mainUp : Bool := false
  /-- MAIN_PGOOD (16 R831). -/
  pgood : Bool := false
  /-- MAIN_PWR_EN (15 R821). -/
  pwrEn : Bool := false
  /-- PWRFAIL_N is asserted (12 R682). -/
  pwrfail : Bool := false
  /-- SSD_PERST_0_N and SSD_PERST_1_N driven low (15 R821). -/
  perst : BitVec 2 := 3
  /-- READY (15 R821). -/
  readyPin : Bool := false
  /-- the boot stopped under R798 (15 R798). -/
  bootFault : Bool := false
  /-- boot step reached, 12 when the data plane has opened (15 R793). -/
  bootStep : Nat := 0
  /-- the Gatehouse link has agreed its session key (01 R20). -/
  linkUp : Bool := false
  /-- pairing secret fused into both dies at assembly (01 R18). -/
  pairSecret : Bytes := []
  /-- session key of the Gatehouse link (01 R18). -/
  linkSession : Bytes := []
  /-- frames discarded on the Gatehouse link (01 R19). -/
  linkBad : Nat := 0
  /-- of these, within the current millisecond (13 R702). -/
  linkBadMs : Nat := 0
  /-- DEV_STATUS.safe_mode (15 R786). -/
  safe : Bool := false
  /-- ID_BOOT.bank (15 R784). -/
  bank : BitVec 2 := 3
  /-- ID_BOOT.fail_0 (15 R784). -/
  fail0 : BitVec 4 := 0
  /-- ID_BOOT.fail_1 (15 R784). -/
  fail1 : BitVec 4 := 0
  /-- ID_BOOT.safe_strap (15 R784). -/
  safeStrap : Bool := false
  /-- ID_BOOT.safe_none (15 R784). -/
  safeNone : Bool := false
  /-- sequence of the image running (15 R773). -/
  imageSeq : Nat := 0
  /-- sequence of the image the reloaded standby runs (15 R773). -/
  stagedSeq : Nat := 0
  /-- OWNER_KEYS section of the accepted bank (15 R779). -/
  packages : Bytes := []
  /-- SFDP of the configuration flash has been read at this start (15 R772). -/
  sfdpRead : Bool := false
  /-- read mode of the flash controller (15 R772). -/
  readMode : ReadMode := .single
  /-- power state (15 R802). -/
  state : PowerState := .active
  /-- PWR_STATE.refused (15 R809). -/
  reqRefused : Bool := false
  /-- PWR_STATE.reason (15 R804). -/
  reqReason : BitVec 4 := 0
  /-- the wake from NAP is under way (15 R807). -/
  waking : Bool := false
  /-- step of a KEEP entry under way (15 R809). -/
  keepStep : Nat := 0
  /-- waiting for 100 ms of MAIN_PGOOD low (16 R833). -/
  pgoodWait : Bool := false
  /-- starts of the main die since VSTBY returned (14 R742). -/
  mainRuns : Nat := 0
  /-- boot step 8 has ended (15 R795). -/
  attachDone : Bool := false
  /-- 4.0 s have passed since PERST was released (15 R795). -/
  attachOver : Bool := false
  /-- instruction loaded in the boundary-scan TAP (13 R716). -/
  jtagIr : BitVec 8 := 0
  /-- HBM identification read at the last start (14 R741). -/
  hbmSerial : Bytes := []
  /-- parameters of the image being adopted. -/
  adoptPar : Params := {}
  deriving DecidableEq, Repr

/-- A write the device made to host memory (R149, R120). -/
structure HostWrite where
  /-- host address (03 R149). -/
  addr : Nat := 0
  /-- bytes written (03 R149). -/
  bytes : Bytes := []
  deriving DecidableEq, Repr

/-- A completion entry (R147). -/
structure Comp where
  /-- host address written (03 R149). -/
  addr : Nat := 0
  /-- completion ring (03 R147). -/
  cq : Nat := 0
  /-- tag (03 R147). -/
  tag : BitVec 16 := 0
  /-- sq_head (03 R147). -/
  head : Nat := 0
  /-- sq (03 R147). -/
  sq : Nat := 0
  /-- status (03 R147). -/
  status : Status := .done
  /-- verdict (03 R147). -/
  verdict : BitVec 8 := 0
  /-- info (03 R147). -/
  info : BitVec 8 := 0
  /-- serial (03 R147). -/
  serial : BitVec 64 := 0
  /-- detail (03 R147). -/
  detail : BitVec 16 := 0
  /-- decider (03 R147). -/
  decider : BitVec 16 := 0
  /-- service_ns (03 R147). -/
  service : BitVec 32 := 0
  /-- result_length (03 R147). -/
  length : BitVec 32 := 0
  /-- phase (03 R147). -/
  phase : Bool := false
  deriving DecidableEq, Repr

/-- MODEL'S OWN: everything the device has sent to its environment, oldest first. -/
structure OutSt where
  /-- completion entries written (03 R149). -/
  comps : List Comp := []
  /-- output and response buffers written (03 R120). -/
  writes : List HostWrite := []
  /-- the same entries as the 32 bytes written to host memory (03 R147, R149). -/
  entries : List HostWrite := []
  /-- MSI-X messages sent, by vector (03 R160). -/
  msix : List (BitVec 6) := []
  /-- the same messages as the writes they are: address and data of the table entry (03 R94). -/
  msgs : List (BitVec 64 × BitVec 32) := []
  /-- frames sent, with their port (07 R363). -/
  frames : List (Port × Frame) := []
  /-- the same frames as the bytes that crossed the link (07 R363, R364). -/
  wire : List (Port × Bytes) := []
  /-- NVMe commands sent, with their drive (06 R295). -/
  nvme : List (Nat × NvmeCmd) := []
  /-- link control blocks sent (07 R351). -/
  blocks : List (Port × LinkBlock) := []
  /-- MCTP messages sent (14 R729). -/
  mctp : List MgtMsg := []
  /-- operations of the flash controller, oldest first (15 R772). -/
  spi : List SpiOp := []
  deriving DecidableEq, Repr

/-- Telemetry mirror (R164). -/
structure TeleSt where
  /-- counters and gauges as the device counts them (03 R164). -/
  live : Tbl (BitVec 64) := []
  /-- counter values that the hot set's lifetime totals already hold (12 R680). -/
  totalled : Tbl (BitVec 64) := []
  /-- the mirror at BAR0 0x4000-0x4FFF, by offset (03 R164). -/
  mirror : Tbl (BitVec 64) := []
  /-- pulse crossings (15 R818). -/
  pulses : Tbl PulseX := []
  /-- items dropped at the last resynchronisation (15 R816). -/
  flushed : Tbl Nat := []
  deriving DecidableEq, Repr

/-- The whole machine. -/
structure State where
  /-- host queue engine (01 R16). -/
  hq : HqSt := {}
  /-- lanes (01 R16). -/
  lane : LaneBank := {}
  /-- HBM tables (01 R16). -/
  hbm : HbmSt := {}
  /-- ledger engine (01 R16). -/
  led : LedgerSt := {}
  /-- NVMe engine and drives (01 R16). -/
  drives : Tbl Drive := []
  /-- Pergola (01 R16). -/
  fab : FabSt := {}
  /-- key engine (01 R16). -/
  key : KeySt := {}
  /-- digest engine (01 R16). -/
  dig : DigSt := {}
  /-- random bits (01 R16). -/
  rng : RngSt := {}
  /-- record store (01 R16). -/
  store : RecSt := {}
  /-- secure time (01 R16). -/
  time : TimeSt := {}
  /-- unit table and control role (01 R16). -/
  unit : UnitSt := {}
  /-- Serge cores (01 R16). -/
  core : Cores := {}
  /-- tamper hub (01 R16). -/
  tmp : TamperSt := {}
  /-- management plane (01 R16). -/
  mgt : MgtSt := {}
  /-- parameters (15 R790). -/
  par : Params := {}
  /-- power, boot, pins (01 R16). -/
  pow : PowerSt := {}
  /-- telemetry and crossings (03 R164). -/
  tele : TeleSt := {}
  /-- outputs sent (03 R149). -/
  out : OutSt := {}
  /-- MODEL'S OWN: commands waiting, first in first out. -/
  pending : List Instr := []
  deriving DecidableEq, Repr

/-- Why the machine stops with a fault. No command of this block does: every rule of the spec that names a failure gives it an effect
on the state, so the type has no constructor. -/
inductive Fault where
  deriving DecidableEq, Repr

/-- Why a step is refused. -/
inductive Refusal where
  /-- A command that has no meaning yet, by its mnemonic. Raised only by an arm of `exec`; safe (nothing is claimed about it). -/
  | notModelled (mnemonic : String)
  deriving DecidableEq, Repr

/-- Is unit `u` fitted on a variant (00 R1, 01 R40)? -/
def unitFitted (v : Variant) (u : Nat) : Bool :=
  let lanes := match v with | .slx4816 => 16 | .slx4812 => 12 | .slx4806 => 6
  let ports := match v with | .slx4806 => 2 | _ => 6
  decide (u < lanes) || (decide (0x10 ≤ u) && decide (u < 0x20)) || (decide (0x20 ≤ u) && decide (u < 0x20 + ports))
    || [0x28, 0x29, 0x30, 0x31, 0x32, 0x38, 0x39, 0x3B, 0x3C, 0x40, 0x41, 0x42, 0x43, 0x44, 0x48, 0x49, 0x50].contains u
    || (u == 0x3A && v == .slx4816)

/-- The unit table of a device that has had no unit change: every fitted unit ACTIVE, every other identifier ABSENT (00 R3, 03 R146). -/
def freshUnits (v : Variant) : Tbl UnitEnt :=
  ((List.range 128).filter (unitFitted v)).map fun u => (u, { st := .active })

/-- The machine right after reset: a device as shipped (16 R848, life cycle FRESH, stepping B0), fused as SLX-4816, in its box: VSTBY
absent, no battery fitted, the main die unpowered, every register at its reset value, no command waiting. The values the spec does not
give are those of log entry 2. -/
def State.reset : State :=
  { hq := { sqs := [(0, { lanes := 0 })] }
    unit := { tbl := freshUnits .slx4816, gate := freshUnits .slx4816 } }

end Sys2Proof.Machine
end

