-- ==== Sys2Proof/Machine/Update.lean ====
section
/-! DEFINITION. Named updates of the parts of the state: `s.onHq f` changes the host queue engine by `f` and nothing else. -/

namespace Sys2Proof.Machine

/-- The outcome of a command. -/
abbrev Result := Host.Outcome State Fault Refusal

/-- Change the part `hq`. -/
def State.onHq (s : State) (f : HqSt → HqSt) : State := { s with hq := f s.hq }

/-- Change the part `lane`. -/
def State.onLane (s : State) (f : LaneBank → LaneBank) : State := { s with lane := f s.lane }

/-- Change the part `hbm`. -/
def State.onHbm (s : State) (f : HbmSt → HbmSt) : State := { s with hbm := f s.hbm }

/-- Change the part `led`. -/
def State.onLed (s : State) (f : LedgerSt → LedgerSt) : State := { s with led := f s.led }

/-- Change the part `drives`. -/
def State.onDrives (s : State) (f : Tbl Drive → Tbl Drive) : State := { s with drives := f s.drives }

/-- Change the part `fab`. -/
def State.onFab (s : State) (f : FabSt → FabSt) : State := { s with fab := f s.fab }

/-- Change the part `key`. -/
def State.onKey (s : State) (f : KeySt → KeySt) : State := { s with key := f s.key }

/-- Change the part `dig`. -/
def State.onDig (s : State) (f : DigSt → DigSt) : State := { s with dig := f s.dig }

/-- Change the part `rng`. -/
def State.onRng (s : State) (f : RngSt → RngSt) : State := { s with rng := f s.rng }

/-- Change the part `store`. -/
def State.onStore (s : State) (f : RecSt → RecSt) : State := { s with store := f s.store }

/-- Change the part `time`. -/
def State.onTime (s : State) (f : TimeSt → TimeSt) : State := { s with time := f s.time }

/-- Change the part `unit`. -/
def State.onUnit (s : State) (f : UnitSt → UnitSt) : State := { s with unit := f s.unit }

/-- Change the part `core`. -/
def State.onCore (s : State) (f : Cores → Cores) : State := { s with core := f s.core }

/-- Change the part `tmp`. -/
def State.onTmp (s : State) (f : TamperSt → TamperSt) : State := { s with tmp := f s.tmp }

/-- Change the part `mgt`. -/
def State.onMgt (s : State) (f : MgtSt → MgtSt) : State := { s with mgt := f s.mgt }

/-- Change the part `par`. -/
def State.onPar (s : State) (f : Params → Params) : State := { s with par := f s.par }

/-- Change the part `pow`. -/
def State.onPow (s : State) (f : PowerSt → PowerSt) : State := { s with pow := f s.pow }

/-- Change the part `tele`. -/
def State.onTele (s : State) (f : TeleSt → TeleSt) : State := { s with tele := f s.tele }

/-- Change the part `out`. -/
def State.onOut (s : State) (f : OutSt → OutSt) : State := { s with out := f s.out }

end Sys2Proof.Machine
end

