-- ==== Sys2Proof/Machine/Ops.lean ====
section
/-! DEFINITION. The operations that meanings share: the unit table and its posts, interrupts, alert causes, MSI-X, completions,
telemetry counts, time, random bytes and the data plane. -/

namespace Sys2Proof.Machine

/-- A command that changes the state and goes on. -/
def done (s : State) : Result := .next s

/-- Change the state when a condition holds; otherwise the event cannot apply and changes nothing (log entry 5). -/
def State.when (s : State) (b : Bool) (f : State → State) : State := if b then f s else s

/-- ID_CORE (09 R490). -/
def coreIdx : CoreId → Nat
  | .a => 0
  | .b => 1
  | .g => 2

/-- The other main-die core; core G has none. -/
def peerOf : CoreId → CoreId
  | .a => .b
  | .b => .a
  | .g => .g

/-- Unit identifier of a core (01 R40). -/
def coreUnit (c : CoreId) : Nat := 0x30 + coreIdx c

/-- A core's registers. -/
def coreGet (s : State) : CoreId → Core
  | .a => s.core.a
  | .b => s.core.b
  | .g => s.core.g

/-- Change a core's registers. -/
def coreUpd (s : State) (c : CoreId) (f : Core → Core) : State :=
  match c with
  | .a => s.onCore fun r => { r with a := f r.a }
  | .b => s.onCore fun r => { r with b := f r.b }
  | .g => s.onCore fun r => { r with g := f r.g }

/-- Does a core run: out of reset, not halted, in program RAM (09 R491)? -/
def coreUp (s : State) (c : CoreId) : Bool :=
  let k := coreGet s c
  k.inRam && !k.halted && !k.inReset

/-! ### Unit table -/

/-- State codes (14 R750). -/
def ustCode : UState → Nat
  | .absent => 0
  | .active => 1
  | .draining => 2
  | .retired => 3
  | .testing => 4
  | .disputed => 5
  | .failed => 6

/-- The state a code names (14 R750); 7 is reserved. -/
def ustOf : Nat → Option UState
  | 0 => some .absent
  | 1 => some .active
  | 2 => some .draining
  | 3 => some .retired
  | 4 => some .testing
  | 5 => some .disputed
  | 6 => some .failed
  | _ => none

/-- A unit's entry. -/
def unitEnt (s : State) (u : Nat) : UnitEnt := tget {} s.unit.tbl u

/-- A unit's applied state. -/
def unitSt (s : State) (u : Nat) : UState := (unitEnt s u).st

/-- Is a unit ACTIVE? -/
def unitActive (s : State) (u : Nat) : Bool := unitSt s u == .active

/-- Does a unit take new work: ACTIVE, and it has not posted FAILED about itself (09 R500)? -/
def unitTakes (s : State) (u : Nat) : Bool := unitActive s u && !(unitEnt s u).stopped

/-- Put a unit into a state, with the reason of the change. An ABSENT unit stays ABSENT (00 R3), and no unit becomes ABSENT. Every write of
the applied table goes through here. -/
def setUnit (s : State) (u : Nat) (st : UState) (reason : Byte := 0) : State :=
  s.onUnit fun m => { m with
    tbl := tupd {} m.tbl u fun e =>
      if e.st = .absent ∨ st = .absent then e
      else { e with st := st, reason := reason, drained := false, stopped := e.stopped && decide (st ≠ .active) } }

/-- The lanes of this device in state ACTIVE that take new work. -/
def activeLanes (s : State) : List Nat := (List.range 16).filter (unitTakes s)

/-- Ring a wake or alert line (01 R38). -/
def ring (s : State) (b : Bell) : State := s.onUnit fun m => { m with bells := m.bells ++ [b] }

/-! ### Interrupts of the cores and causes of the management plane -/

/-- Make source `n` pending on core `c` (09 R493). -/
def irq (s : State) (c : CoreId) (n : Nat) : State :=
  s.onUnit fun m => { m with irqPend := tupd 0 m.irqPend (coreIdx c) fun w => setBit w n true }

/-- Make source `n` pending on both main-die cores. -/
def irqMain (s : State) (n : Nat) : State := irq (irq s .a n) .b n

/-- Make source `n` pending on all three cores (sources 0, 17, 18 and 20). -/
def irqAll (s : State) (n : Nat) : State := irq (irqMain s n) .g n

/-- Set a management alert cause (14 R730, R731). -/
def mgtAlert (s : State) (bit : Nat) : State := s.onMgt fun m => { m with alert := setBit m.alert bit true }

/-- Ring DB_ALERT: the control plane's alert sets management cause CONTROL (01 R38, 14 R731). -/
def dbAlert (s : State) : State := mgtAlert (ring s .alert) 0

/-! ### Posts to the unit table (09 R496-R500) -/

/-- The bits [31:0] of device time, as the main die's mirror has it. -/
def timeLo (s : State) : BitVec 32 := BitVec.ofNat 32 s.time.mUs

/-- Queue a post. At a full queue it is discarded and overflow is set (09 R499). A post that a unit makes about itself with FAILED and
SELF_CHECK stops it from taking new work at once (09 R500). -/
def post (s : State) (p : Post) : State :=
  let p := { p with time := timeLo s }
  let s := s.when (p.reason == 0x01 && p.st == 6 && (p.source == 0 || p.source == 2)) fun s =>
    s.onUnit fun m => { m with tbl := tupd {} m.tbl p.unit fun e => if e.st = .absent then e else { e with stopped := true } }
  if s.unit.posts.length ≥ 256 then s.onUnit fun m => { m with overflow := true }
  else
    let s := s.onUnit fun m => { m with posts := m.posts ++ [p] }
    if p.source == 1 then irqMain (ring s .propose) 6 else irqMain (ring s .observe) 5

/-- An observation against a unit (09 R858). -/
def observe (s : State) (unit : Nat) (st : UState) (source : BitVec 2) (reason : Byte) : State :=
  post s { unit := unit, st := BitVec.ofNat 3 (ustCode st), source := source, reason := reason }

/-! ### Host causes and MSI-X (03 R94, R100, R163) -/

/-- Signal an MSI-X vector: a message, or its pending bit while it is masked. -/
def signal (s : State) (v : Nat) : State :=
  if (tget {} s.hq.vecs v).masked then
    s.onHq fun h => { h with vecs := tupd {} h.vecs v fun x => { x with pbit := true } }
  else s.onOut fun o => { o with
    msix := o.msix ++ [BitVec.ofNat 6 v], msgs := o.msgs ++ [((tget {} s.hq.vecs v).addr, (tget {} s.hq.vecs v).data)] }

/-- Set DEV_CAUSE bit `n`; a change from 0 to 1 with its alert enabled signals vector 0 (03 R100). -/
def cause (s : State) (n : Nat) : State :=
  let fire := !s.hq.cause.getLsbD n && s.hq.alert.getLsbD n
  let s := s.onHq fun h => { h with cause := setBit h.cause n true }
  s.when fire (signal · 0)

/-! ### Telemetry (03 R164) -/

/-- Add to the live counter at a BAR0 offset; the mirror follows at the next refresh. -/
def count (s : State) (off : Nat) (n : Nat := 1) : State :=
  s.onTele fun t => { t with live := tupd 0 t.live off fun v => v + BitVec.ofNat 64 n }

/-- Set the live gauge at a BAR0 offset. -/
def gauge (s : State) (off : Nat) (v : BitVec 64) : State := s.onTele fun t => { t with live := tput 0 t.live off v }

/-! ### Time (12 R687-R692) -/

/-- Uncertainty at a device time (12 R691); `extra` is what R688 added. -/
def uncAt (t : TimeSt) (now : Nat) : Nat :=
  if t.anchored then min 0xFFFFFFFF (t.u0 + t.extra + (now - t.a) / 20000) else 0xFFFFFFFF

/-- The Gatehouse sends time, uncertainty and the anchored state to the main die's mirror (12 R692). -/
def mirrorTime (s : State) : State :=
  s.onTime fun t => { t with mUs := t.us, mUnc := uncAt t t.us, mAnch := t.anchored }

/-- Device time in whole minutes since the Soloarid epoch (02 R66). -/
def minuteOf (us : Nat) : Nat := us / 60000000

/-! ### Random bytes (11 R629) -/

/-- Can the DRBG serve a request now (11 R634, R635)? -/
def rngServes (s : State) : Bool :=
  s.rng.inst && !s.rng.limit && (unitSt s 0x44 == .active)

/-- The next `n` random bytes: free values. -/
def randBytes (s : State) (n : Nat) : Bytes := (List.range n).map fun i => Config.drbgByte s.rng.seed (s.rng.drawn + i)

/-- Draw `n` bytes as one request (11 R631 counts requests): the count grows and a reseed falls due after 2^20 requests. -/
def drew (s : State) (n : Nat) : State :=
  s.onRng fun r => { r with drawn := r.drawn + n, requests := r.requests + 1, limit := r.limit || decide (r.requests + 1 ≥ 2 ^ 20) }

/-! ### The data plane -/

/-- Is the data plane open to MINT and VERDICT work (03 DEV_STATUS)? -/
def planeOpen (s : State) : Bool := s.hq.open_ && !s.hq.paused

/-- Is a tamper response of level 1 or above in force (13 R699, R722)? -/
def respInForce (s : State) : Bool := s.tmp.inForce || s.tmp.level == 3

/-- Pause the data plane (DEV_CAUSE.pause). -/
def pausePlane (s : State) : State := cause (s.onHq fun h => { h with paused := true }) 2

/-- Close the data plane; READY is high only while it is open (15 R821). -/
def closePlane (s : State) : State := cause ((s.onHq fun h => { h with open_ := false }).onPow fun p => { p with readyPin := false }) 2

/-- Open the data plane (DEV_CAUSE.resume). -/
def openPlane (s : State) : State :=
  let s := s.onHq fun h => { h with open_ := true, paused := false, pausedPwrfail := false }
  let s := s.onLed fun l => { l with openedAt := s.time.mUs, stopApply := false }
  s.onPow (fun p => { p with readyPin := true }) |> (cause · 3)

/-! ### Completions (03 R147-R162) -/

/-- Status codes (03 R153). -/
def statusCode : Status → Nat
  | .done => 0x00
  | .badLength => 0x01
  | .badFormat => 0x02
  | .reservedField => 0x03
  | .unitAbsent => 0x04
  | .keyUnusable => 0x05
  | .keyOrphaned => 0x06
  | .keyDenied => 0x07
  | .timeUnanchored => 0x08
  | .serialsExhausted => 0x09
  | .homeUnreachable => 0x0A
  | .durabilityTimeout => 0x0B
  | .tamperAbort => 0x0C
  | .randomNotReady => 0x0D
  | .paused => 0x0E
  | .eventUnknown => 0x0F
  | .authFailed => 0x10
  | .ledgerMissTimeout => 0x11
  | .internalFault => 0x1F

/-- The status a code names. -/
def statusOf (n : Nat) : Status :=
  match n with
  | 0x00 => .done | 0x01 => .badLength | 0x02 => .badFormat | 0x03 => .reservedField | 0x04 => .unitAbsent
  | 0x05 => .keyUnusable | 0x06 => .keyOrphaned | 0x07 => .keyDenied | 0x08 => .timeUnanchored | 0x09 => .serialsExhausted
  | 0x0A => .homeUnreachable | 0x0B => .durabilityTimeout | 0x0C => .tamperAbort | 0x0D => .randomNotReady | 0x0E => .paused
  | 0x0F => .eventUnknown | 0x10 => .authFailed | 0x11 => .ledgerMissTimeout | _ => .internalFault

/-- Details (03 R152). -/
def detSub (off : Nat) : BitVec 16 := BitVec.ofNat 16 (0x1000 + off)
def detWrap (order : Nat) : BitVec 16 := BitVec.ofNat 16 (0x2000 + order)
/-- A field whose offset exceeds the 12 bits of [11:0] (a class record from 252 up) has a free value there: the spec gives no other (log entry 102). -/
def detBlock (off : Nat) : BitVec 16 := BitVec.ofNat 16 (0x3000 + (if off < 4096 then off else (Config.farOffset off).toNat))
def detTableFull : BitVec 16 := 0x4001
def detNotAuthority : BitVec 16 := 0x4002
def detDmaRead : BitVec 16 := 0x4003
def detDmaWrite : BitVec 16 := 0x4004
def detPassbackCold : BitVec 16 := 0x4005
def detRouteNone : BitVec 16 := 0x4006

/-- A submission ring, a completion ring. -/
def sqOf (s : State) (n : Nat) : SqRing := tget {} s.hq.sqs n
def cqOf (s : State) (n : Nat) : CqRing := tget {} s.hq.cqs n

/-- Change one submission ring, one completion ring. -/
def onSq (s : State) (n : Nat) (f : SqRing → SqRing) : State := s.onHq fun h => { h with sqs := tupd {} h.sqs n f }
def onCq (s : State) (n : Nat) (f : CqRing → CqRing) : State := s.onHq fun h => { h with cqs := tupd {} h.cqs n f }

/-- On a completion or a 1 µs tick: signal the vector of a ring with irq_enable set when its count or timer is met (03 R161). A timer of 0 disables
it. -/
def moderate (s : State) (n : Nat) : State :=
  let q := cqOf s n
  let due := q.irqEnable && decide (q.pending > 0) && (q.modCount == 0 || decide (q.pending ≥ q.modCount.toNat)
    || (q.modTimer != 0 && decide (s.time.clk - q.first ≥ q.modTimer.toNat)))
  s.when due fun s => signal (onCq s n fun q => { q with pending := 0 }) q.vector.toNat

/-- Bin of a service time in µs (03 R164): 0 under 2, k from 2^k, 15 from 32,768. -/
def timeBin (us : Nat) : Nat := min 15 (Nat.log2 us)

/-- Count a written completion in the telemetry (03 R164). The service-time bins take VERDICT completions of every status: the table does not say
whether an undecided one counts. DESIGN CHOICE, log entry 108. -/
def countComp (s : State) (kind : BitVec 2) (c : Comp) (us : Nat) : State :=
  let st := statusCode c.status
  if kind == 1 then count s (0x4000 + 8 * st)
  else if kind == 2 then
    let s := count s (0x4100 + 8 * st)
    let s := s.when (c.status == .done) fun s => count s (0x4200 + 8 * (c.verdict.toNat % 64))
    count s ((if c.info.getLsbD 0 then 0x4580 else 0x4500) + 8 * timeBin us)
  else count s (0x4400 + 8 * st)

/-- The 32 bytes of a completion entry (03 R147), little-endian; reserved bits are 0. -/
def compBytes (c : Comp) : Bytes :=
  leBytes 2 c.tag.toNat ++ leBytes 2 c.head ++ [BitVec.ofNat 8 (c.sq % 32), BitVec.ofNat 8 (statusCode c.status), c.verdict, c.info]
    ++ leBytes 8 c.serial.toNat ++ leBytes 2 c.detail.toNat ++ leBytes 2 c.decider.toNat ++ leBytes 4 c.service.toNat ++ leBytes 4 c.length.toNat
    ++ zeros 3 ++ [if c.phase then 1 else 0]

/-- Complete an entry of ring `sq`: output bytes first, then the completion entry into the reserved slot (03 R149, R150), the count for the
moderated interrupt (R160-R162) and the telemetry. A completion ring that is not RUNNING discards it (R854), and so does a reset of the
function (`dropped`, R155). -/
def complete (s : State) (sq : Nat) (dropped : Bool) (fetched : Nat) (c : Comp) (outs : List HostWrite) : State :=
  let s := s.onOut fun o => { o with writes := o.writes ++ outs }
  let s := s.when (c.status == .internalFault) (cause · 9)
  if dropped then s
  else
    let r := sqOf s sq
    let n := r.cq.toNat
    let s := onSq s sq fun r => { r with inFlight := r.inFlight - 1 }
    let q := cqOf s n
    let s := onCq s n fun q => { q with reserved := q.reserved - 1 }
    if q.st = .running then
      let us := s.time.clk - fetched
      let c := { c with addr := q.base.toNat * 4096 + 32 * q.tail, cq := n, sq := sq, phase := q.phase,
                        service := BitVec.ofNat 32 (min 0xFFFFFFFF (1000 * us)),
                        verdict := if r.kind = 2 then c.verdict else 0, info := c.info &&& 0x0F,
                        length := if c.status = .done then c.length else 0 }
      let s := s.onOut fun o => { o with comps := o.comps ++ [c], entries := o.entries ++ [{ addr := c.addr, bytes := compBytes c }] }
      let last := decide (q.tail + 1 ≥ 2 ^ q.depthLog2.toNat)
      let s := onCq s n fun q => { q with tail := if last then 0 else q.tail + 1, phase := q.phase != last }
      let s := s.when q.irqEnable fun s =>
        onCq s n fun q => { q with first := if q.pending = 0 then s.time.clk else q.first, pending := q.pending + 1 }
      let s := countComp s r.kind c us
      moderate s n
    else s

end Sys2Proof.Machine
end

