-- ==== Sys2Proof/Machine/Operands.lean ====
section
/-! DEFINITION. Tagged words, strings in data RAM, and the layouts of the byte strings the block takes and gives: submission and
completion entries, keys named in fields. -/

namespace Sys2Proof.Machine

/-- Tags (08 R420). -/
def tVoid : BitVec 4 := 0
def tInt : BitVec 4 := 1
def tBits : BitVec 4 := 2
def tDaddr : BitVec 4 := 3
def tCaddr : BitVec 4 := 4
def tHandle : BitVec 4 := 5

/-- Words of a tag. -/
def intW (v : BitVec 32) : W36 := { tag := tInt, val := v }
def bitsW (v : BitVec 32) : W36 := { tag := tBits, val := v }
def daddrW (v : BitVec 32) : W36 := { tag := tDaddr, val := v }
def caddrW (v : BitVec 14) : W36 := { tag := tCaddr, val := v.zeroExtend 32 }
def handleW (v : BitVec 32) : W36 := { tag := tHandle, val := v }

/-- A HANDLE word's fields (08 R421): slot [31:22], generation [21:6], kind [5:0]. -/
def handleOf (slot gen : Nat) (kind : BitVec 8) : W36 := handleW (BitVec.ofNat 32 (slot * 2 ^ 22 + gen % 65536 * 64 + kind.toNat % 64))
def handleSlot (w : W36) : Nat := w.val.toNat / 2 ^ 22
def handleGen (w : W36) : Nat := w.val.toNat / 64 % 65536

/-- A word of a core's data RAM; addresses above 0x7FFF are not RAM. -/
def ramGet (s : State) (c : CoreId) (a : Nat) : W36 := tget {} (coreGet s c).ram a

/-- Write a word of a core's data RAM. -/
def ramPut (s : State) (c : CoreId) (a : Nat) (w : W36) : State :=
  if a < 0x8000 then coreUpd s c fun k => { k with ram := tput {} k.ram a w } else s

/-- Write words at consecutive RAM addresses. -/
def ramPuts (s : State) (c : CoreId) : Nat → List W36 → State
  | _, [] => s
  | a, w :: ws => ramPuts (ramPut s c a w) c (a + 1) ws

/-- The words a byte string of length `n` occupies. -/
def wordsOf (n : Nat) : Nat := (n + 3) / 4

/-- Read a string of `n` bytes at a DADDR (09 R477): none when a word is neither INT nor BITS. -/
def readStr (s : State) (c : CoreId) (a n : Nat) : Option Bytes :=
  let ws := (List.range (wordsOf n)).map fun i => ramGet s c (a + i)
  if ws.all fun w => w.tag = tInt || w.tag = tBits then some ((ws.flatMap fun w => leBytes 4 w.val.toNat).take n) else none

/-- The BITS words of a byte string; the last word is filled with zeros. -/
def strWords : Bytes → List W36
  | [] => []
  | a :: b :: c :: d :: t => bitsW (BitVec.ofNat 32 (leNat [a, b, c, d])) :: strWords t
  | t => [bitsW (BitVec.ofNat 32 (leNat t))]

/-- Write a string at a DADDR (09 R477). -/
def writeStr (s : State) (c : CoreId) (a : Nat) (b : Bytes) : State := ramPuts s c a (strWords b)

/-- A key named in four bytes (03 R134): slot [15:0], generation [31:16]; slot 0xFFFF is none. -/
def keyField (b : Bytes) (o : Nat) : Option KeyRef :=
  if leAt b o 2 = 0xFFFF then none else some { slot := leAt b o 2, gen := leAt b (o + 2) 2 }

/-- The key-name bytes of a key reference. -/
def keyBytes : Option KeyRef → Bytes
  | none => leBytes 2 0xFFFF ++ leBytes 2 0
  | some k => leBytes 2 k.slot ++ leBytes 2 k.gen

/-! ### Serials (02 R46-R50): epoch [55:52], node [51:40], local [39:0] -/

def serialEpoch (g : Nat) : BitVec 4 := BitVec.ofNat 4 (bitsOf g 55 52)
def serialHome (g : Nat) : Nat := bitsOf g 51 40
def serialLocal (g : Nat) : Nat := g % 2 ^ 40
def serialOf (epoch : BitVec 4) (home loc : Nat) : Nat := epoch.toNat * 2 ^ 52 + home % 4096 * 2 ^ 40 + loc % 2 ^ 40

/-! ### Submission entries -/

/-- MINT entry (03 R119). -/
def mintOf (e : Bytes) : MintSt :=
  { flags := BitVec.ofNat 8 (leAt e 2 1), cls := BitVec.ofNat 8 (leAt e 3 1), event := BitVec.ofNat 32 (leAt e 4 4)
    vfrom := BitVec.ofNat 32 (leAt e 8 4), vuntil := BitVec.ofNat 32 (leAt e 12 4), holder := cut e 16 16
    tslot := BitVec.ofNat 16 (leAt e 32 2), tgen := BitVec.ofNat 16 (leAt e 34 2)
    outAddr := BitVec.ofNat 64 (leAt e 40 8), outLen := BitVec.ofNat 32 (leAt e 48 4)
    foreignLen := BitVec.ofNat 32 (leAt e 52 4) }

def mNfc (m : MintSt) : Bool := m.flags.getLsbD 0
def mPq (m : MintSt) : Bool := m.flags.getLsbD 1
def mOverride (m : MintSt) : Bool := m.flags.getLsbD 2
def mForeign (m : MintSt) : Bool := m.flags.getLsbD 3

/-- Offset of the first reserved field that is not zero in a MINT entry, a field left unused by the flags counted as reserved (03 R118, R119).
Flags [7:4] are reserved bits of byte 2. -/
def mintRsv (e : Bytes) : Option Nat :=
  let f := leAt e 2 1
  let bad : List (Nat × Bool) :=
    [(2, decide (f / 16 ≠ 0)), (8, !f.testBit 2 && !zeroAt e 8 4), (12, !f.testBit 2 && !zeroAt e 12 4),
     (32, !f.testBit 0 && !zeroAt e 32 2), (34, !f.testBit 0 && !zeroAt e 34 2), (36, !zeroAt e 36 4),
     (52, !f.testBit 3 && !zeroAt e 52 4), (56, !f.testBit 3 && !zeroAt e 56 8), (64, !zeroAt e 64 64)]
  (bad.find? fun p => p.2).map Prod.fst

/-- VERDICT entry (03 R123). -/
def verdictOf (e : Bytes) : VerdictSt :=
  { gate := BitVec.ofNat 8 (leAt e 2 1), credLen := leAt e 3 1 % 128, cred := cut e 8 (leAt e 3 1 % 128)
    scanHint := BitVec.ofNat 32 (leAt e 4 4) }

/-- A completion with the fields that name the entry. -/
def compOf (r : Req) (st : Status) (detail : BitVec 16 := 0) : Comp :=
  { sq := r.sq, tag := r.tag, head := r.head, status := st, detail := detail }

end Sys2Proof.Machine
end

