-- ==== Sys2Proof/Machine/Nor.lean ====
section
/-! DEFINITION. The NOR array of the record store as bytes (12 R647-R654): pages, check words, mark words, sector headers, records. -/

namespace Sys2Proof.Machine

/-! ### Check words (12 R650): the polynomials and the order of bits are PRESUMED, log entry 134 -/

/-- The generator polynomial below x^18: the product of the minimal polynomials x^9+x^4+1 and x^9+x^6+x^4+x^3+1. -/
def bchGen : BitVec 18 := 0x095C9

/-- The remainder after one more bit, highest first. -/
def bchStep (r : BitVec 18) (b : Bool) : BitVec 18 := if r.msb ^^ b then (r <<< 1) ^^^ bchGen else r <<< 1

/-- The remainder of a string of bits. -/
def bch (bits : List Bool) : BitVec 18 := bits.foldl bchStep 0

/-- The bits of a group, the highest of the last byte first. -/
def groupBits (g : Bytes) : List Bool := g.reverse.flatMap fun b => (List.range 8).map fun i => b.getLsbD (7 - i)

/-- The parity of a string of bits. -/
def parity (bits : List Bool) : Bool := bits.foldl xor false

/-- The low 18 bits of a check word. -/
def codeBits (c : BitVec 32) : List Bool := (List.range 18).map c.getLsbD

/-- The check word of a group of 32 bytes: BCH in [17:0], overall parity in [18], zeros above. -/
def checkWord (g : Bytes) : BitVec 32 :=
  let r := (bch (groupBits g)).zeroExtend 32
  if parity (groupBits g) ^^ parity (codeBits r) then r ||| 0x40000 else r

/-- The remainders of single bits in error, by place in the code word, from one remainder on. -/
def placesFrom : Nat → BitVec 18 → List (BitVec 18)
  | 0, _ => []
  | n + 1, x => x :: placesFrom n (bchStep x false)

/-- Those of the 274 places of the code: places 0 to 17 are the check bits, place 18 + n is data bit n. -/
def places : List (BitVec 18) := placesFrom 274 1

/-- The place whose error leaves this remainder. -/
def placeOf (r : BitVec 18) : Option Nat := places.findIdx? (· == r)

/-- The places in error of a group read with its check word, at most two, place 274 being the parity bit; none when the group is uncorrectable. -/
def groupErrors (g : Bytes) (c : BitVec 32) : Option (List Nat) :=
  let r := bch (groupBits g) ^^^ c.truncate 18
  let odd := parity (groupBits g) ^^ parity (codeBits c) ^^ c.getLsbD 18
  if r = 0 then some (if odd then [274] else [])
  else match placeOf r with
    | some i => some (if odd then [i] else [i, 274])
    | none =>
      if odd then none
      else (List.range 274).findSome? fun i => (placeOf (r ^^^ places.getD i 0)).bind fun j => if i < j then some [i, j] else none

/-- Bit `n` of a byte string inverted. -/
def flipBit (b : Bytes) (n : Nat) : Bytes := b.modify (n / 8) (· ^^^ (1#8 <<< (n % 8)))

/-- A group of a page through its check word: its bytes and the bits corrected, or none when it is uncorrectable. -/
def readGroup (p : Bytes) (g : Nat) : Option (Bytes × Nat) :=
  let b := cut p (32 * g) 32
  (groupErrors b (BitVec.ofNat 32 (leAt p (224 + 4 * g) 4))).map fun es =>
    (es.foldl (fun b i => if 18 ≤ i ∧ i < 274 then flipBit b (i - 18) else b) b, es.length)

/-! ### Pages (12 R648, R649) -/

def blankPage : Bytes := List.replicate 256 0xFF

/-- Number of a page of a sector in the array. -/
def pageNo (sector page : Nat) : Nat := 64 * sector + page

def norPage (s : State) (n : Nat) : Bytes := tget blankPage s.store.nor n

/-- A page of up to 224 bytes of data, its pad bytes 0, with the check words and the mark word not programmed. -/
def dataPage (d : Bytes) : Bytes :=
  let d := fit 224 d
  d ++ (List.range 7).flatMap (fun g => leBytes 4 (checkWord (cut d (32 * g) 32)).toNat) ++ List.replicate 4 0xFF

/-- What is programmed to write a mark word alone. -/
def markPage (w : BitVec 32) : Bytes := List.replicate 252 0xFF ++ leBytes 4 w.toNat

/-- Program a page: bits change only from 1 to 0, and at most four times between erases (12 R648). -/
def progPage (s : State) (n : Nat) (b : Bytes) : State :=
  if tget 0 s.store.progs n ≥ 4 then s
  else s.onStore fun r => { r with nor := tput blankPage r.nor n (List.zipWith (· &&& ·) (norPage s n) b), progs := tupd 0 r.progs n (· + 1) }

/-- Are two words within four bits of each other? -/
def near (a b : BitVec 32) : Bool := decide (((List.range 32).filter (a ^^^ b).getLsbD).length ≤ 4)

def commitWord : BitVec 32 := 0x3CA55AC3

/-- What a commit word says (12 R653). -/
def markOf (w : BitVec 32) : MarkWord := if near w commitWord then .present else if near w 0 then .dead else .absent

/-- The mark word of a page. -/
def markAt (p : Bytes) : BitVec 32 := BitVec.ofNat 32 (leAt p 252 4)

/-! ### Sector headers (12 R651) -/

def headerPage (part : BitVec 2) (erases seq : Nat) : Bytes :=
  dataPage (ascii "SXSC" ++ [1, part.zeroExtend 8, 0, 0] ++ leBytes 4 erases ++ leBytes 4 seq)

/-- Erase count and sector sequence of a sector header; none when it cannot be read. -/
def sectorHeader (p : Bytes) : Option (Nat × Nat) :=
  match readGroup p 0 with
  | some (h, _) => if h.take 4 = ascii "SXSC" then some (leAt h 8 4, leAt h 12 4) else none
  | none => none

/-! ### Records (12 R652) -/

/-- Pages a record occupies. -/
def pagesFor (len : Nat) : Nat := (16 + len + 223) / 224

/-- The 16-byte header of a record (12 R652). -/
def recHeader (r : Record) : Bytes :=
  [0x5A, 0xC3] ++ leBytes 2 r.typ.toNat ++ leBytes 4 r.id ++ leBytes 4 r.seq ++ leBytes 2 r.payload.length ++ leBytes 1 r.txn ++ leBytes 1 (r.idx % 16)

/-- Page `i` of a record. -/
def recPage (r : Record) (i : Nat) : Bytes := dataPage (cut (recHeader r ++ r.payload) (224 * i) 224)

/-- Program the first `n` pages of a record at its place. -/
def progPages (s : State) (r : Record) (n : Nat) : State :=
  (List.range n).foldl (fun s i => progPage s (pageNo r.sector (r.page + i)) (recPage r i)) s

/-- Program a record's commit word. -/
def progMark (s : State) (r : Record) (w : BitVec 32) : State := progPage s (pageNo r.sector r.page) (markPage w)

/-- Program a whole record, its commit word last (12 R653), and index it. -/
def writeRec (s : State) (r : Record) (w : BitVec 32) : State :=
  (progMark (progPages s r (pagesFor r.payload.length)) r w).onStore fun x => { x with recs := x.recs ++ [{ r with mark := markOf w }] }

/-- The records named are made dead: their commit words are programmed to 0. -/
def killRecs (s : State) (p : Record → Bool) : State :=
  (s.store.recs.filter p).foldl (fun s r => progMark s r 0)
    (s.onStore fun x => { x with recs := x.recs.map fun r => if p r then { r with mark := .dead, inTxn := false } else r })

/-! ### Reading after a start (12 R673, R674) -/

/-- A page as recovery reads it: with the bits in error, and with a byte that was being programmed when the supply failed, whose value is free. -/
def pageRead (s : State) (flips : List (Nat × Nat)) (n : Nat) : Bytes :=
  let p := norPage s n
  let p := match s.store.torn with
    | some (m, o) => if m = n then p.set o (Config.tornByte s.store.tears) else p
    | none => p
  (flips.filter fun f => f.1 == n).foldl (fun p f => flipBit p f.2) p

/-- What stands at a record start. -/
inductive Found where
  | blank
  | torn
  | record (r : Record)
  deriving DecidableEq, Repr

/-- The groups of the pages of a record: their bytes, corrected where that is possible, and the bits corrected. -/
def recGroups (rd : Nat → Bytes) (sec page n : Nat) : List (Bytes × Option Nat) :=
  (List.range n).flatMap fun i =>
    let p := rd (pageNo sec (page + i))
    (List.range 7).map fun g => match readGroup p g with
      | some (b, k) => (b, some k)
      | none => (cut p (32 * g) 32, none)

/-- What stands at a page where a record may begin. -/
def findAt (rd : Nat → Bytes) (part : BitVec 2) (sec page : Nat) : Found :=
  let p := rd (pageNo sec page)
  if p = blankPage then .blank
  else match readGroup p 0 with
    | none => .torn
    | some (h, _) =>
      let len := leAt h 12 2
      if h.take 2 ≠ [0x5A, 0xC3] ∨ len > 4000 ∨ page + pagesFor len > 64 then .torn
      else
        let gs := recGroups rd sec page (pagesFor len)
        let ks := gs.filterMap Prod.snd
        let mark := markOf (markAt p)
        .record { part := part, typ := BitVec.ofNat 16 (leAt h 2 2), id := leAt h 4 4, seq := leAt h 8 4, txn := leAt h 14 1, idx := leAt h 15 1 % 16
                  payload := cut (gs.flatMap Prod.fst) 16 len, mark := mark, corr := ks.sum, worst := ks.foldl max 0
                  bad := decide (ks.length < gs.length), sector := sec, page := page
                  inTxn := mark == .present && decide (leAt h 14 1 ≠ 0) }

/-- The records of a sector from a page on, and the page where they end, or none when they end at a torn header. -/
def scanSector (rd : Nat → Bytes) (part : BitVec 2) (sec : Nat) : Nat → Nat → List Record × Option Nat
  | 0, page => ([], some page)
  | k + 1, page =>
    if page ≥ 64 then ([], some page)
    else match findAt rd part sec page with
      | .blank => ([], some page)
      | .torn => ([], none)
      | .record r =>
        let x := scanSector rd part sec k (page + pagesFor r.payload.length)
        (r :: x.1, x.2)

end Sys2Proof.Machine
end

