-- ==== Sys2Proof/Machine/Store.lean ====
section
/-! DEFINITION. The record store (12 R647-R686): where records lie, which are read, the append engine, transactions, the hot set. -/

namespace Sys2Proof.Machine

/-! ### Records and keys -/

/-- Id space of a type: KEY_SLOT and KEY_RETIRE share one (12 R655). -/
def idSpace (typ : BitVec 16) : BitVec 16 := if typ = 0x0102 then 0x0101 else typ

/-- Log types: each record is a key of its own (12 R656, 14 R749). -/
def isLog (typ : BitVec 16) : Bool :=
  [0x0201, 0x0202, 0x0205, 0x0206, 0x0307, 0x0308, 0x0309, 0x030A, 0x030B, 0x030C].contains typ.toNat

/-- Types whose conflicted version is the copy with the greater counter (12 R670). -/
def isCounter (typ : BitVec 16) : Bool := [0x0103, 0x0104, 0x0105, 0x0106, 0x0304].contains typ.toNat

/-- Types that may be appended to a partition (12 R656). -/
def typeIn (part : BitVec 2) (typ : BitVec 16) : Bool :=
  let t := typ.toNat
  [0x0001, 0x0002].contains t && part != 0
  || match part.toNat with
    | 1 => [0x0101, 0x0102, 0x0103, 0x0104, 0x0105, 0x0106, 0x0107, 0x01F0].contains t
    | 2 => decide (0x0200 ≤ t) && decide (t ≤ 0x02FF)
    | 3 => decide (0x0301 ≤ t) && decide (t ≤ 0x030C)
    | _ => false

/-- A record is committed: commit word present, no uncorrectable group (12 R654, R671). -/
def committed (r : Record) : Bool := r.mark == .present && !r.bad

/-- A committed record that is read: not part of an open transaction (12 R663). -/
def readable (r : Record) : Bool := committed r && !r.inTxn

/-- Is a record of this key? -/
def ofKey (part : BitVec 2) (typ : BitVec 16) (id : Nat) (r : Record) : Bool :=
  r.part == part && idSpace r.typ == idSpace typ && r.id == id

/-- The records of a key that are read, oldest append first. -/
def keyRecs (s : State) (part : BitVec 2) (typ : BitVec 16) (id : Nat) : List Record :=
  s.store.recs.filter fun r => ofKey part typ id r && readable r

/-- Of two copies of one version, the one used (12 R669, R670): none when the version is CONFLICTED. -/
def pickCopy (a b : Record) : Option Record :=
  if a.payload = b.payload then some a
  else if a.corr < b.corr then some a
  else if b.corr < a.corr then some b
  else if isCounter a.typ then some (if leNat a.payload ≤ leNat b.payload then b else a)
  else none

/-- The copy used of version `n` of a key. -/
def versionOf (rs : List Record) (n : Nat) : Option Record :=
  match rs.filter fun r => r.seq == n with
  | [] => none
  | r :: t => t.foldl (fun acc x => acc.bind fun y => pickCopy y x) (some r)

/-- Highest committed sequence of a key, 0 when there is none. -/
def topSeq (rs : List Record) : Nat := rs.foldl (fun m r => max m r.seq) 0

/-- The latest committed version of a key: a CONFLICTED version falls back to the previous one (12 R669). -/
def latestOf (rs : List Record) : Option Record :=
  ((List.range (topSeq rs + 1)).reverse.findSome? fun n => versionOf rs n)

/-- The latest committed version of a key (12 R654, R669-R671). -/
def latest (s : State) (part : BitVec 2) (typ : BitVec 16) (id : Nat) : Option Record := latestOf (keyRecs s part typ id)

/-- The highest id of a log type: its running count. -/
def logCount (s : State) (typ : BitVec 16) : Nat := tget 0 s.store.logs typ.toNat

/-! ### Sectors (12 R647, R651, R675-R677) -/

/-- First sector and sectors of a partition (12 R647). -/
def partRange (part : BitVec 2) : Nat × Nat :=
  match part.toNat with
  | 1 => (0, 768)
  | 2 => (768, 128)
  | _ => (896, 128)

/-- First sector of a partition and how many records may use; sectors 0 and 1 of SYSTEM are the hot-set save area. -/
def partSectors (part : BitVec 2) : Nat × Nat :=
  match part.toNat with
  | 1 => (0, 768)
  | 2 => (768, 128)
  | _ => (898, 126)

def sectorOf (s : State) (n : Nat) : Sector := tget {} s.store.sectors n

/-- The erased sectors of a partition. -/
def erasedSectors (s : State) (part : BitVec 2) : List Nat :=
  let p := partSectors part
  ((List.range p.2).map (p.1 + ·)).filter fun n => (sectorOf s n).erased && !(sectorOf s n).erasing

/-- The erased sector with the lowest erase count (12 R677). -/
def freshSector (s : State) (part : BitVec 2) : Option Nat :=
  (erasedSectors s part).foldl (fun acc n => match acc with
    | none => some n
    | some m => if (sectorOf s n).eraseCount < (sectorOf s m).eraseCount then some n else some m) none

/-- Do the log records of a partition from this one on fit in half its sectors, of 63 pages each (12 R676)? -/
def logKept (s : State) (r : Record) : Bool :=
  let later := (s.store.recs.dropWhile (· != r)).filter fun x => x.part == r.part && isLog x.typ && x.mark == .present
  decide (2 * (later.map fun x => pagesFor x.payload.length).sum ≤ (partSectors r.part).2 * 63)

/-- Does the state of a key slot or its next generation rest on this record (10 R543, R544): a copy of the highest version, CONFLICTED or not, or the
record of the highest generation? -/
def slotConsults (s : State) (r : Record) : Bool :=
  let ks := keyRecs s 1 0x0101 r.id
  let top := (ks.filter fun x => x.typ == 0x0101).foldl (fun m x => max m (leAt x.payload 2 2)) 0
  r.part == 1 && idSpace r.typ == 0x0101 && (r.seq == topSeq ks || (r.typ == 0x0101 && leAt r.payload 2 2 == top))

/-- Is a record live (12 R676): the latest version of its key, part of an open transaction, or one that the state of a key slot rests on? The oldest log
records are dropped. -/
def isLive (s : State) (r : Record) : Bool :=
  committed r && (r.inTxn || slotConsults s r || ((latest s r.part r.typ r.id).map (·.seq) == some r.seq && (!isLog r.typ || logKept s r)))

/-- Open a sector of a partition: its header is programmed, with the next sector sequence (12 R651). -/
def useSector (s : State) (part : BitVec 2) (n : Nat) : State :=
  let p := partRange part
  let top := ((List.range p.2).map fun i => (sectorOf s (p.1 + i)).seq).foldl max 0
  (progPage s (pageNo n 0) (headerPage part (sectorOf s n).eraseCount (top + 1))).onStore fun r => { r with
    sectors := tupd {} r.sectors n fun x => { x with erased := false, seq := top + 1 } }

/-- Open a new sector of a partition. -/
def openSector (s : State) (part : BitVec 2) : Option State :=
  (freshSector s part).map fun n => (useSector s part n).onStore fun r => { r with cur := tput none r.cur part.toNat (some (n, 1)) }

/-- Room for `pages` pages in the open sector, else in a new one: the sector and first page used, or none when the partition has no room. -/
def placeIn (s : State) (part : BitVec 2) (pages : Nat) : Option (State × Nat × Nat) :=
  let here := match tget none s.store.cur part.toNat with
    | some (n, p) => if p + pages ≤ 64 then some (n, p) else none
    | none => none
  match here with
  | some (n, p) => some (s.onStore fun r => { r with cur := tput none r.cur part.toNat (some (n, p + pages)) }, n, p)
  | none =>
    match openSector s part with
    | none => none
    | some s' =>
      match tget none s'.store.cur part.toNat with
      | some (n, p) => some (s'.onStore fun r => { r with cur := tput none r.cur part.toNat (some (n, p + pages)) }, n, p)
      | none => none

/-- Nothing more is programmed into a sector. -/
def closeSector (s : State) (n : Nat) : State :=
  s.onStore fun r => { r with cur := tmap none r.cur fun _ c => match c with | some (m, p) => if m = n then none else some (m, p) | none => none }

/-- Copy live records forward, key and sequence unchanged; none when the partition has no room for them. A record of a closed transaction is copied as one
of no transaction (log entry 136). -/
def copyForward : State → List Record → Option State
  | s, [] => some s
  | s, r :: rs =>
    match placeIn s r.part (pagesFor r.payload.length) with
    | some (s, m, p) =>
      copyForward (writeRec s { r with sector := m, page := p, corr := 0, worst := 0, txn := if r.inTxn then r.txn else 0 } commitWord) rs
    | none => none

/-- Copy the live records of a sector forward and release it: its release word is programmed and its erase begins (12 R675). A sector whose live
records have no room elsewhere stays as it is. -/
def releaseSector (s : State) (n : Nat) : State :=
  match copyForward (closeSector s n) (s.store.recs.filter fun r => r.sector == n && isLive s r) with
  | some t => (progPage t (pageNo n 0) (markPage 0)).onStore fun r => { r with
      sectors := tupd {} r.sectors n fun x => { x with releasing := true, erasing := true } }
  | none => s

/-- Mean erase count of a partition (12 R678). -/
def meanErases (s : State) (part : BitVec 2) : Nat :=
  let q := partRange part
  ((List.range q.2).map fun i => (sectorOf s (q.1 + i)).eraseCount).sum / q.2

/-- A sector is erased and what it held is gone (12 R675). The mean erase counts stand in the management totals of the hot set, slots 256 to 258 (log
entry 136); one above 80,000 sets management cause WEAR (12 R678). -/
def eraseSector (s : State) (sector : Nat) : State :=
  let s := s.onStore fun r => { r with
    nor := r.nor.filter fun p => p.1 / 64 != sector
    progs := r.progs.filter fun p => p.1 / 64 != sector
    recs := r.recs.filter fun x => x.sector ≠ sector
    sectors := tupd {} r.sectors sector fun x =>
      { x with erased := true, erasing := false, releasing := false, eraseCount := x.eraseCount + 1, seq := 0, erasedAt := s.time.us } }
  let s := s.onStore fun r => { r with hot := ([1, 2, 3] : List Nat).foldl (fun h p =>
    tput 0 h (255 + p) (BitVec.ofNat 64 (meanErases s (BitVec.ofNat 2 p)))) r.hot }
  s.when (decide (meanErases s 1 > 80000) || decide (meanErases s 2 > 80000) || decide (meanErases s 3 > 80000)) (mgtAlert · 4)

/-- Copy the live records of a sector forward and erase it at once; one whose live records have no room elsewhere stays as it is. -/
def evacuate (s : State) (n : Nat) : State :=
  match copyForward (closeSector s n) (s.store.recs.filter fun r => r.sector == n && isLive s r) with
  | some t => eraseSector t n
  | none => s

/-- The sector in use of a partition with the fewest live records, the open one left aside. -/
def fewestLive (s : State) (part : BitVec 2) : Option Nat :=
  let p := partSectors part
  let cur := (tget none s.store.cur part.toNat).map Prod.fst
  let used := ((List.range p.2).map (p.1 + ·)).filter fun n =>
    !(sectorOf s n).erased && !(sectorOf s n).releasing && decide (cur ≠ some n)
  let live := fun n => (s.store.recs.filter fun r => r.sector == n && isLive s r).length
  used.foldl (fun acc n => match acc with
    | none => some n
    | some m => if live n < live m then some n else some m) none

/-- Is a sector of the partition being erased: compaction goes on, and room will come? -/
def roomComes (s : State) (part : BitVec 2) : Bool :=
  let p := partSectors part
  (List.range p.2).any fun i => (sectorOf s (p.1 + i)).erasing

/-- Compaction when a partition holds fewer than four erased sectors, one sector at a time (12 R675). -/
def compact (s : State) (part : BitVec 2) : State :=
  if (erasedSectors s part).length < 4 ∧ !roomComes s part then
    match fewestLive s part with
    | some n => releaseSector s n
    | none => s
  else s

/-! ### The append engine (12 R657-R661) -/

/-- Preconditions of an append (12 R657, R672, R682). -/
def appendOk (s : State) : Bool := s.store.ready && s.pow.vstby && s.store.holdcapOk && !s.store.held && unitTakes s 0x50

/-- A record at its place: with the next sequence of its key (12 R655), and part of an open transaction when it carries one. -/
def placed (rs : List Record) (r : Record) (at_ : Nat × Nat) : Record :=
  { r with seq := topSeq (rs.filter fun x => ofKey r.part r.typ r.id x && committed x) + 1, sector := at_.1, page := at_.2
           inTxn := decide (r.txn ≠ 0) }

/-- TX_DONE follows the last part of a transaction: its records are read from now on (12 R663). With no room for it, recovery appends it. -/
def txnDone (s : State) (part : BitVec 2) (txn : Nat) : State :=
  let s := s.onStore fun x => { x with recs := x.recs.map fun r => if r.part = part ∧ r.txn = txn then { r with inTxn := false } else r }
  match placeIn s part 1 with
  | some (t, p) => writeRec t (placed t.store.recs { part := part, typ := 0x0002, id := txn } p) commitWord
  | none => s

/-- What a record tells the rest of the device once it is read: the last accepted sequence (03 R131), the offer count, with which the records of
an ENROL package advance the fuse counter to ENROLLED (10 R580), IN_SERVICE (10 R571), VEIL (10 R533). -/
def applyRecord (s : State) (r : Record) : State :=
  match r.typ.toNat with
  | 0x0103 => s.onKey fun k => { k with offerCount := max k.offerCount (leAt r.payload 0 4), fuse := if k.fuse = 1 then 2 else k.fuse }
  | 0x0106 => s.onKey fun k => { k with ctlSeq := max k.ctlSeq (leAt r.payload 0 8) }
  | 0x0305 => s.onKey fun k => { k with inService := true }
  | 0x0306 => s.onKey fun k => { k with veil := decide (leAt r.payload 0 1 ≠ 0) }
  | _ => s

/-- What the commit of a record brings with it: a HOLDCAP_LOW record sets management cause HOLDCAP (12 R645), the last part of a transaction
brings its TX_DONE. -/
def afterCommit (s : State) (r : Record) (key : Nat) : State :=
  let s := s.when (r.typ == 0x030C) (mgtAlert · 2)
  if r.txn = 0 then applyRecord s r
  else
    match tget none s.store.txns key with
    | some t =>
      if t.txn = r.txn ∧ t.part = r.part ∧ r.typ ≠ 0x0001 then
        if t.done + 1 ≥ t.n then
          let parts := s.store.recs.filter fun x => x.inTxn && x.part == r.part && x.txn == r.txn
          parts.foldl applyRecord (txnDone (s.onStore fun x => { x with txns := tput none x.txns key none }) r.part r.txn)
        else s.onStore fun x => { x with txns := tput none x.txns key (some { t with done := t.done + 1 }) }
      else s
    | none => s

/-- Index of a source in the table of open transactions. -/
def srcKey : AppendSrc → Nat
  | .serge c => coreIdx c
  | .key => 3
  | .ledger => 4
  | .tamper => 5
  | .gatehouse => 6

/-- Program and commit a record: it takes the next sequence of its key (12 R655), and a log type the next running count as id. `none`: no
room (12 R661). -/
def commitRec (s : State) (src : AppendSrc) (r : Record) : Option State :=
  let r := if isLog r.typ then { r with id := logCount s r.typ + 1 } else r
  match placeIn s r.part (pagesFor r.payload.length) with
  | none => none
  | some (s, p) =>
    let s := (writeRec s (placed s.store.recs r p) commitWord).onStore fun x => { x with
      logs := if isLog r.typ then tput 0 x.logs r.typ.toNat r.id else x.logs }
    some (compact (afterCommit s r (srcKey src)) r.part)

/-- A record programmed and made dead, its verify read having failed (12 R660). `none`: no room. -/
def writeDead (s : State) (r : Record) : Option State :=
  (placeIn s r.part (pagesFor r.payload.length)).map fun x => writeRec x.1 { placed x.1.store.recs r x.2 with inTxn := false } 0

/-- Failure of an append: FAILED or an observation against the record store, reason SELF_CHECK (12 R660, R661). -/
def storeFault (s : State) : State := observe s 0x50 .failed 2 0x01

/-- The head of the queue begins programming when its preconditions hold, and no earlier (12 R657, R658). -/
def beginHead (s : State) : State :=
  s.when (appendOk s) fun s => s.onStore fun x => { x with
    queue := match x.queue with
      | a :: t => (if a.begun then a else { a with begun := true, deferred := false, stopped := false, pagesLeft := pagesFor a.record.payload.length }) :: t
      | [] => [] }

/-- Put an append at the end of the queue. -/
def enqueue (s : State) (a : Append) : State :=
  beginHead (s.onStore fun x => { x with queue := x.queue ++ [{ a with deferred := !appendOk s }] })

/-- Give a record to the engine: it commits within the step when the engine is free and its preconditions hold, and otherwise joins the queue
(log entry 6). -/
def appendRecord (s : State) (src : AppendSrc) (r : Record) : State :=
  if s.store.queue.isEmpty && appendOk s then
    match commitRec s src r with
    | some t => t
    | none => if roomComes (compact s r.part) r.part then enqueue (compact s r.part) { src := src, record := r } else storeFault s
  else enqueue s { src := src, record := r }

/-- An append of the block's own hardware or of the control firmware on its behalf. -/
def append (s : State) (src : AppendSrc) (part : BitVec 2) (typ : BitVec 16) (id : Nat) (payload : Bytes) : State :=
  appendRecord s src { part := part, typ := typ, id := id, payload := payload }

/-- Payload of an INTENT (12 R656). The parts of an enrolment package may be more than a byte counts (10 R580); their high byte stands in the first
reserved byte (log entry 95). -/
def intentPayload (parts : Nat) (src : AppendSrc) : Bytes := leBytes 1 parts ++ leBytes 1 (srcKey src) ++ leBytes 1 (parts / 256) ++ zeros 1

/-- Parts that an INTENT names. -/
def intentParts (r : Record) : Nat := leAt r.payload 0 1 + 256 * leAt r.payload 2 1

/-- Open a transaction of a source in a partition, with the next transaction number; its INTENT is still to be appended (12 R662). -/
def openTx (s : State) (src : AppendSrc) (part : BitVec 2) (parts : Nat) : State :=
  let n := s.store.nextTxn
  s.onStore fun y => { y with
    txns := tput none y.txns (srcKey src) (some { part := part, txn := n, n := parts })
    nextTxn := if n = 255 then 1 else n + 1 }

/-- Would `append` commit a record of one page in a partition now, and in CONTROL? -/
def appendsTo (s : State) (part : BitVec 2) : Bool := s.store.queue.isEmpty && appendOk s && (placeIn s part 1).isSome
def appendsNow (s : State) : Bool := appendsTo s 1

/-! ### The hot set (12 R679-R685) -/

/-- Slot of a lifetime total of the telemetry counter at an offset (12 R680). -/
def hotSlot (off : Nat) : Nat := 16 + (off - 0x4000) / 8

/-- Who may write a hot-set slot: 0 Gatehouse, 1 active control core, 2 core G, 3 nobody (12 R679). -/
def hotOwner (slot : Nat) : Nat := if slot < 8 then 0 else if slot < 256 then 1 else if slot < 384 then 2 else 3

def hotGet (s : State) (slot : Nat) : BitVec 64 := tget 0 s.store.hot slot
def hotPut (s : State) (slot : Nat) (v : BitVec 64) : State := s.onStore fun r => { r with hot := tput 0 r.hot slot v }

/-- Does a telemetry offset name a counter (03 R164, 0x4000 to 0x46F8)? -/
def isCounterOff (off : Nat) : Bool :=
  (decide (0x4000 ≤ off) && decide (off < 0x4600)) || [0x4600, 0x4608, 0x4610, 0x4618, 0x4620].contains off
  || (decide (0x4680 ≤ off) && decide (off < 0x4700))

/-- The start of a save (12 R682 steps 1 to 3): the counts of saves and power failures (R679) rise, appends are held, the slots in use are frozen; an append already programming with more
than four pages left is stopped. Not during recovery (R866). -/
def startSave (s : State) : State :=
  s.when (s.store.ready && !s.store.saving && s.pow.standby) fun s =>
   let s := hotPut (hotPut s 0 (BitVec.ofNat 64 (s.store.saves + 1))) 2 (hotGet s 2 + 1)
   s.onStore fun r => { r with
    held := true, saving := true
    frozen := r.hot.filter fun p => p.1 < 384
    queue := r.queue.map fun a => if a.begun && decide (a.pagesLeft > 4) then { a with stopped := true, deferred := true } else a }

/-- Payload of a HOT_SET record (12 R682 step 4). -/
def savePayload (s : State) : Bytes :=
  leBytes 4 (s.store.saves + 1) ++ leBytes 4 s.store.powerUps ++ zeros 8 ++
    (tgets 0 s.store.frozen 0 384).flatMap fun v => leBytes 8 v.toNat

/-- The newest committed HOT_SET. -/
def newestSave (s : State) : Option Record := latest s 3 0x0302 0

/-- The HOT_SET record is appended in the save-area sector that does not hold the newest save (12 R682 step 4), an append in progress having been completed
first (step 3). A sector that no further save fits into takes none (log entry 136). -/
def finishSave (s : State) : State :=
  s.when s.store.saving fun s =>
    let sec := match newestSave s with | some r => if r.sector = 896 then 897 else 896 | none => 896
    let page := (s.store.recs.filter fun r => r.sector == sec).foldl (fun p r => max p (r.page + pagesFor r.payload.length)) 1
    let r : Record := { part := 3, typ := 0x0302, payload := savePayload s }
    if page + pagesFor r.payload.length > 64 then s
    else
      let s := s.when (sectorOf s sec).erased (useSector · 3 sec)
      (writeRec s (placed s.store.recs r (sec, page)) commitWord).onStore fun x => { x with saves := x.saves + 1 }

/-- Load the slots from a save: word i of its payload after 16 bytes. -/
def loadSave (p : Bytes) : Tbl (BitVec 64) :=
  ((List.range 384).map fun i => (i, BitVec.ofNat 64 (leAt p (16 + 8 * i) 8))).filter fun x => x.2 != 0

end Sys2Proof.Machine
end

