-- ==== Sys2Proof/Machine/HostQueue.lean ====
section
/-! DEFINITION. The host queue engine (03): rings, doorbells, fetching, interrupts, the reset of the function, the telemetry mirror. -/

namespace Sys2Proof.Machine

/-- A ring entered ERROR: DEV_CAUSE.ring_error and HQ_EVENT (03 R110, R853, R854, 09 R493). -/
def ringError (s : State) : State := irqMain (cause s 0) 3

/-- The same after a doorbell: a ring that was in ERROR already does not enter it again. -/
def doorbellErr (s : State) (was : RingState) : State := if was = .error then s else ringError s

/-- The depth of a ring. -/
def depthOf (log2 : BitVec 4) : Nat := 2 ^ log2.toNat

/-- Entries waiting in a submission ring (03 R109). -/
def sqWaiting (r : SqRing) : Nat := (r.tail + depthOf r.depthLog2 - r.head) % depthOf r.depthLog2

/-- Completions written and not yet released by the host. -/
def cqHeld (q : CqRing) : Nat := (q.tail + depthOf q.depthLog2 - q.head) % depthOf q.depthLog2

/-- Can the engine fetch from ring `n`: it is RUNNING and not empty, holds no entry for an ML-DSA job place (04 R211), and its RUNNING completion
ring has a slot to reserve (03 R109, R111, R114)? The engine stands in NAP (15 R805). -/
def canFetch (s : State) (n : Nat) : Bool :=
  let r := sqOf s n
  let q := cqOf s r.cq.toNat
  s.pow.mainUp && s.pow.state != .nap && r.st == .running && r.held.isNone && decide (sqWaiting r > 0) && q.st == .running && decide (cqHeld q + q.reserved + 1 < depthOf q.depthLog2)

/-- Take the next entry's index and reserve its completion slot (03 R114). -/
def takeIndex (s : State) (n : Nat) : State :=
  let s := onSq s n fun r => { r with head := (r.head + 1) % depthOf r.depthLog2, inFlight := r.inFlight + 1 }
  let s := s.onHq fun h => { h with fetches := h.fetches + 1 }
  onCq s (sqOf s n).cq.toNat fun q => { q with reserved := q.reserved + 1 }

/-- The ACTIVE lanes of a ring's mask that take new work, and HQ_SQ_STATUS.fallback of a MINT or VERDICT ring: no lane of the mask is ACTIVE in the
unit table (03 R116, R117). SQ_0 is bound to no lane. -/
def maskLanes (s : State) (n : Nat) : List Nat := (activeLanes s).filter fun l => (sqOf s n).lanes.getLsbD l
def fallback (s : State) (n : Nat) : Bool := n != 0 && !(List.range 16).any fun l => unitActive s l && (sqOf s n).lanes.getLsbD l
def ringLanes (s : State) (n : Nat) : List Nat := if fallback s n then activeLanes s else maskLanes s n

/-- Request contexts in use on a lane. -/
def laneBusy (s : State) (l : Nat) : Nat := (s.lane.reqs.filter fun p => p.1 / 64 == l).length

/-- Hand work to a lane: it ungates, and the device leaves DOZE (15 R803). -/
def ungate (s : State) (l : Nat) : State :=
  let s := s.onLane fun b => { b with lanes := tupd {} b.lanes l fun x => { x with gated := false } }
  s.when (s.pow.state == .doze) fun s => irqAll (s.onPow fun p => { p with state := .active }) 20

/-- ML-DSA job places of a lane (04 R209, R210). -/
def pqPlace (s : State) (l : Nat) : Bool := decide ((tget {} s.lane.lanes l).pqReserved < 32)

/-! ### Hooks of owner code (09 R520) -/

/-- Does base firmware call owner code on a core: its image holds OWNER_FW, and it runs in program RAM, outside a trap handler? -/
def hooked (s : State) (c : CoreId) : Bool :=
  let k := coreGet s c
  c != .g && k.ownerFw && coreUp s c && k.st != .trap && s.pow.mainUp && s.pow.state != .nap

/-- Base firmware calls a hook (09 R472, R520): PC at its slot, IE as the table gives, a return address in LR, and Y where the hook takes a word. -/
def callHook (s : State) (c : CoreId) (addr : Nat) (ie : Bool) (y : Option W36) : State :=
  s.when (hooked s c) fun s =>
    let s := coreUpd s c fun k => { k with
      pc := BitVec.ofNat 15 addr, ie := ie, eiNext := false, waiting := false, rep := none, repc := 0
      lr := caddrW (Config.hookReturn s.core.calls), y := y.getD k.y }
    s.onCore fun k => { k with calls := k.calls + 1 }

/-- INIT, once before the first CONTROL entry that a core fetches. -/
def hookInit (s : State) (c : CoreId) : State :=
  s.when (!(coreGet s c).initDone) fun s => callHook (coreUpd s c fun k => { k with initDone := true }) c 0x2800 false none

/-- PERIODIC, at a timer match once 1 ms has passed since its last call (log entry 125). -/
def hookPeriodic (s : State) (c : CoreId) : State :=
  s.when (s.unit.active == c && decide (s.time.clk - (coreGet s c).periodAt ≥ 1000)) fun s =>
    callHook (coreUpd s c fun k => { k with periodAt := s.time.clk }) c 0x2804 true none

/-- Bits [31:0] of a post as a core sees it (09 R496). -/
def postBits (p : Post) : BitVec 32 := BitVec.ofNat 32 (p.unit % 256 + p.st.toNat * 256 + p.source.toNat * 2048 + p.reason.toNat * 65536)

/-- POST, with the post in Y, before base firmware acts on it. -/
def hookPost (s : State) (p : Post) : State := callHook s s.unit.active 0x2808 false (some (bitsW (postBits p)))

/-- AFTER_CONTROL, with the opcode in [7:0] of Y and the status in [15:8] (log entry 125). -/
def hookAfter (s : State) (op : Nat) (st : Status) : State :=
  callHook s s.unit.active 0x280C true (some (intW (BitVec.ofNat 32 (op % 256 + 256 * (statusCode st)))))

/-- Fetch the next CONTROL entry, one at a time (03 R132); a device whose fuse counter is at RETIRED accepts none (10 R574). -/
def fetchCtl (s : State) (entry : Bytes) : State :=
  s.when (canFetch s 0 && s.hq.ctlFetched.isNone && s.key.fuse != 3) fun s =>
    let s := takeIndex (hookInit s s.unit.active) 0
    s.onHq fun h => { h with ctlFetched := some { bytes := fit 128 entry, head := (sqOf s 0).head, fetched := s.time.clk } }

/-- Does an entry of a ring need an ML-DSA job place (04 R210)? -/
def needsPlace (r : SqRing) (e : Bytes) : Bool := r.kind == 1 && (leAt e 2 1).testBit 1

/-- May lane and context take an entry of ring `n`: the lane serves the ring, the context is free, and a job place is there where one is needed
(03 R116, R117, 04 R210, R214)? -/
def canPlace (s : State) (n lane ctx : Nat) (pq : Bool) : Bool :=
  (ringLanes s n).contains lane && decide (ctx < 64) && (assoc (lane * 64 + ctx) s.lane.reqs).isNone && (!pq || pqPlace s lane)

/-- A fetched entry of ring `n` goes to a context of a lane, with its job place reserved where it needs one. -/
def dispatchEntry (s : State) (n : Nat) (h : HeldEntry) (lane ctx : Nat) : State :=
  let s := ungate s lane
  let r := sqOf s n
  let q : Req := { lane := lane, ctx := ctx, sq := n, head := h.head, tag := BitVec.ofNat 16 (leAt h.bytes 0 2), order := h.order,
                   fetched := h.fetched, entry := h.bytes, isMint := r.kind == 1,
                   m := if r.kind = 1 then mintOf h.bytes else {}, v := if r.kind = 2 then verdictOf h.bytes else {} }
  s.onLane fun b => { b with
    reqs := tput {} b.reqs (lane * 64 + ctx) q
    lanes := if needsPlace r h.bytes then tupd {} b.lanes lane fun x => { x with pqReserved := x.pqReserved + 1 } else b.lanes }

/-- ENTRY_FETCH: a MINT or VERDICT entry goes to a free context of a lane that serves the ring. An entry with flags.pq that finds no job place is
fetched and held, and nothing further is fetched from the ring until a place frees; the row then dispatches the held entry (03 R114, R116,
R117, 04 R210, R211, R214). -/
def fetchEntry (s : State) (n : Nat) (entry : Bytes) (lane ctx : Nat) : State :=
  let e := fit 128 entry
  let r := sqOf s n
  let pq := needsPlace r e
  let taken := takeIndex s n
  let h : HeldEntry := { bytes := e, head := (sqOf taken n).head, order := taken.hq.fetches, fetched := s.time.clk }
  match r.held with
  | some h => if canPlace s n lane ctx true then dispatchEntry (onSq s n fun r => { r with held := none }) n h lane ctx else s
  | none =>
    if !canFetch s n then s
    else if pq && !(ringLanes s n).any (pqPlace s) then onSq taken n fun r => { r with held := some h }
    else if canPlace s n lane ctx pq then dispatchEntry taken n h lane ctx
    else s

def execEntryFetch (sq : Nat) (entry : Bytes) (lane ctx : Nat) (s : State) : Result :=
  done (if sq = 0 then fetchCtl s entry else fetchEntry s sq entry lane ctx)

/-- ENTRY_READ_FAIL (R853). Its completion has decider 0: the rule gives the field no value. DESIGN CHOICE, log entry 107. -/
def execEntryReadFail (sq : Nat) (s : State) : Result :=
  done (s.when (canFetch s sq && !(sq == 0 && s.hq.ctlFetched.isSome)) fun s =>
    let s := takeIndex s sq
    let r := sqOf s sq
    let s := complete s sq false s.time.clk
      { sq := sq, head := r.head, status := .internalFault, detail := detDmaRead, verdict := if r.kind = 2 then 0x3F else 0 } []
    ringError (onSq s sq fun r => { r with st := .error }))

/-- COMPLETION_WRITE_FAIL (R854): the ring goes to ERROR; the failed completion and every later one due to it are discarded by
`complete` (log entry 8). -/
def execCompletionWriteFail (cq : Nat) (s : State) : Result :=
  done (s.when ((cqOf s cq).st == .running) fun s =>
    ringError (onCq s cq fun q => { q with st := .error, writeError := true }))

/-- Does the host reach the function's registers: the main die runs and the PCIe link is up (03, after R98)? -/
def hostReach (s : State) : Bool := s.pow.mainUp && s.hq.linkUp

/-- SQ_ENABLE (R104, R105): the other fields of the write take their values, as the ring is IDLE; a refused enable sets cfg_error. -/
def sqEnable (n : Nat) (cfg : BitVec 32) (s : State) : State :=
  s.when (decide (n < 32) && (sqOf s n).st == .idle) fun s =>
    let kind := if n = 0 then 0 else cfg.extractLsb' 1 2
    let depth := cfg.extractLsb' 8 4
    let cq := cfg.extractLsb' 16 5
    let bad := (decide (n ≠ 0) && (kind == 0 || kind == 3)) || decide (depth.toNat < 4) || decide (depth.toNat > 12)
      || (cqOf s cq.toNat).st != .running
    onSq s n fun r => { r with
      kind := kind, depthLog2 := depth, cq := cq, enable := !bad, cfgError := r.cfgError || bad
      st := if bad then .idle else .running, head := 0, tail := 0 }

def execSqEnable (n : Nat) (cfg : BitVec 32) (s : State) : Result := done (s.when (hostReach s) (sqEnable n cfg))

/-- SQ_DISABLE (R106). -/
def sqDisable (n : Nat) (s : State) : State :=
  s.when ((sqOf s n).st != .idle) fun s => onSq s n fun r => { r with enable := false, st := .draining }

def execSqDisable (n : Nat) (s : State) : Result := done (s.when (hostReach s) (sqDisable n))

/-- SQ_DRAIN_DONE (R106): every entry fetched has completed. -/
def execSqDrainDone (n : Nat) (s : State) : Result :=
  done (s.when ((sqOf s n).st == .draining && (sqOf s n).inFlight == 0) fun s =>
    onSq s n fun r => { r with st := .idle, head := 0, tail := 0 })

/-- CQ_ENABLE (R105, R150). -/
def cqEnable (n : Nat) (cfg : BitVec 32) (s : State) : State :=
  s.when (decide (n < 32) && (cqOf s n).st == .idle) fun s =>
    let depth := cfg.extractLsb' 8 4
    let q := cqOf s n
    let bad := decide (depth.toNat < 4) || decide (depth.toNat > 14) || (q.modCount != 0 && q.modTimer == 0)
    onCq s n fun q => { q with
      irqEnable := cfg.getLsbD 1, depthLog2 := depth, vector := cfg.extractLsb' 16 6, enable := !bad
      cfgError := q.cfgError || bad, st := if bad then .idle else .running, tail := 0, phase := true, head := 0, reserved := 0 }

def execCqEnable (n : Nat) (cfg : BitVec 32) (s : State) : Result := done (s.when (hostReach s) (cqEnable n cfg))

/-- Does a submission ring that is not IDLE name the completion ring? -/
def cqNamed (s : State) (n : Nat) : Bool :=
  (List.range 32).any fun i => (sqOf s i).cq.toNat == n && (sqOf s i).st != .idle

/-- CQ_DISABLE (R107). -/
def cqDisable (n : Nat) (s : State) : State :=
  s.when ((cqOf s n).st != .idle) fun s =>
    if cqNamed s n then onCq s n fun q => { q with cfgError := true }
    else onCq s n fun q => { q with enable := false, st := .idle, tail := 0, phase := true, head := 0, reserved := 0 }

def execCqDisable (n : Nat) (s : State) : Result := done (s.when (hostReach s) (cqDisable n))

/-- SQ_TAIL_DOORBELL (R110, R115). -/
def sqTail (n : Nat) (value : BitVec 32) (s : State) : State :=
  s.when (decide (n < 32) && (sqOf s n).st != .idle) fun s =>
    let t := (value.extractLsb' 0 12).toNat
    if t < depthOf (sqOf s n).depthLog2 then onSq s n fun r => { r with tail := t }
    else doorbellErr (onSq s n fun r => { r with doorbellError := true, st := .error }) (sqOf s n).st

def execSqTailDoorbell (n : Nat) (value : BitVec 32) (s : State) : Result := done (s.when (hostReach s) (sqTail n value))

/-- CQ_HEAD_DOORBELL (R111, R115, R162). -/
def cqHead (n : Nat) (value : BitVec 32) (s : State) : State :=
  s.when (decide (n < 32) && (cqOf s n).st != .idle) fun s =>
    let q := cqOf s n
    let d := depthOf q.depthLog2
    let h := (value.extractLsb' 0 14).toNat
    if h < d ∧ (h + d - q.head) % d ≤ cqHeld q then onCq s n fun q => { q with head := h }
    else doorbellErr (onCq s n fun q => { q with doorbellError := true, st := .error }) q.st

def execCqHeadDoorbell (n : Nat) (value : BitVec 32) (s : State) : Result := done (s.when (hostReach s) (cqHead n value))

/-- DEV_ALERT_WRITE (R100): vector 0 is signalled when an enable bit goes from 0 to 1 over a cause that is already set. -/
def devAlert (value : BitVec 32) (s : State) : State :=
  let new := value.extractLsb' 0 12
  let fire := decide (new &&& ~~~s.hq.alert &&& s.hq.cause ≠ 0)
  (s.onHq fun h => { h with alert := new }).when fire (signal · 0)

def execDevAlertWrite (value : BitVec 32) (s : State) : Result := done (s.when (hostReach s) (devAlert value))

/-- DEV_TIME_LOW_READ (R99): the low half is returned, the high half latched. -/
def devTimeLow (s : State) : State :=
  s.onHq fun h => { h with
    readData := (timeLo s).zeroExtend 64
    timeLatch := BitVec.ofNat 32 (s.time.mUs / 2 ^ 32) }

def execDevTimeLowRead (s : State) : Result := done (s.when (hostReach s) devTimeLow)

/-- Unmask a vector: its pending message is sent (R163). -/
def unmaskVec (s : State) (v : Nat) : State :=
  let x := tget {} s.hq.vecs v
  let s := s.onHq fun h => { h with vecs := tupd {} h.vecs v fun x => { x with masked := false, pbit := false } }
  s.when (x.masked && x.pbit) (signal · v)

/-- MSIX_UNMASK (R163). -/
def execMsixUnmask (v : BitVec 6) (s : State) : Result := done (s.when (hostReach s) (unmaskVec · v.toNat))

/-- IRQ_MODERATION_TICK (R161): the 1 µs tick, in which device time also advances (12 R687, log entry 3). -/
def execIrqModerationTick (s : State) : Result :=
  done (
    let alive := s.pow.vstby || s.pow.vbat
    let s := s.onTime fun t => { t with clk := t.clk + 1, us := if alive then t.us + 1 else t.us, mUs := if alive then t.mUs + 1 else t.mUs }
    (List.range 32).foldl moderate s)

/-- Is the main die in ACTIVE, DOZE or NAP? -/
def mainRuns (s : State) : Bool :=
  s.pow.mainUp && (s.pow.state == .active || s.pow.state == .doze || s.pow.state == .nap)

/-- A drive's four fields: as last polled while a drive is attached, else 0 (03 R164). -/
def driveFields (s : State) (d : Nat) : List (BitVec 64) :=
  let x := tget {} s.drives d
  if x.attached then tgets 0 x.smart 0 4 else [0, 0, 0, 0]

/-- TELEMETRY_REFRESH (R34, R164): every field of the mirror takes its value, and the lifetime totals of the hot set the counters' increase since
they were last written, while no save holds the hot set (12 R680, R682). -/
def execTelemetryRefresh (mainTemp gateTemp : Nat) (s : State) : Result :=
  done (s.when (mainRuns s) fun s =>
    let s := gauge s 0x4740 (BitVec.ofNat 64 mainTemp)
    let s := gauge s 0x4748 (BitVec.ofNat 64 gateTemp)
    let s := gauge s 0x4750 (BitVec.ofNat 64 s.time.mUnc)
    let put := fun (s : State) (d : Nat) =>
      (driveFields s d).zipIdx.foldl (fun s p => gauge s (0x4700 + 0x20 * d + 8 * p.2) p.1) s
    let s := put (put s 0) 1
    let s := s.onTele fun t => { t with mirror := t.live }
    s.when (!s.store.saving) fun s =>
      let old := s.tele.totalled
      let s := s.tele.live.foldl (fun s p =>
        if isCounterOff p.1 then hotPut s (hotSlot p.1) (hotGet s (hotSlot p.1) + (p.2 - tget 0 old p.1)) else s) s
      s.onTele fun t => { t with totalled := t.live })

/-- GATEHOUSE_TELEMETRY_REFRESH (14 R743): the Gatehouse copy takes the mirror while the main die runs and the link is up. -/
def execGatehouseTelemetryRefresh (s : State) : Result :=
  done (s.when (mainRuns s && s.pow.linkUp) fun s =>
    s.onMgt fun m => { m with copy := s.tele.mirror, copyAt := some s.time.clk })

/-- Disable every ring at once and discard every completion not yet written (03 R155); the requests in flight still settle. Causes, alert, MSI-X table,
mask and pending bits, the rings' base, cfg and error fields and the AER registers stay: R95 names none of them. DESIGN CHOICE, log entry 57. -/
def resetFunction (s : State) : State :=
  let s := s.onHq fun h => { h with
    sqs := tmap {} h.sqs fun _ r => { r with enable := false, st := .idle, head := 0, tail := 0, inFlight := 0, held := none }
    cqs := tmap {} h.cqs fun _ q => { q with enable := false, st := .idle, head := 0, tail := 0, phase := true, reserved := 0 }
    ctlFetched := h.ctlFetched.map fun e => { e with dropped := true }
    timeLatch := 0, flr := true }
  s.onLane fun b => { b with reqs := tmap {} b.reqs fun _ r => { r with dropped := true } }

/-- FUNCTION_LEVEL_RESET (R155): also a hot reset; HQ_EVENT becomes pending (09 R493). -/
def execFunctionLevelReset (s : State) : Result := done (irqMain (resetFunction s) 3)

end Sys2Proof.Machine
end

