-- ==== Sys2Proof/Machine/Keys.lean ====
section
/-! DEFINITION. Keys (10): derivations, life cycle, slots, resolution, storing, retiring and transporting keys, attestation; and the KEY
window's commands (09 R486). -/

namespace Sys2Proof.Machine

/-! ### Ciphers and derivations -/

/-- AES-256-GCM encryption; decryption is the same operation on the ciphertext. -/
def gcmCrypt (key iv b : Bytes) : Bytes := b.zipIdx.map fun p => p.1 ^^^ Config.gcmStream key iv p.2

/-- The GCM tag, as 16 bytes. -/
def gcmTagOf (key iv aad ct : Bytes) : Bytes := bvBytes (Config.gcmTag key iv aad ct)

/-- AES-256-CMAC, as 16 bytes. -/
def cmac (key msg : Bytes) : Bytes := bvBytes (Config.aesCmac key msg)

/-- Block `i` of the derivation of R534. -/
def kdfBlock (key label ctx : Bytes) (n i : Nat) : Bytes :=
  bvBytes (Config.hmac384 key (beBytes 4 i ++ label ++ [0] ++ ctx ++ beBytes 4 (8 * n)))

/-- HMAC-SHA-384 derivation in counter mode (10 R534): the leftmost `n` bytes. -/
def kdf (key label ctx : Bytes) (n : Nat) : Bytes :=
  ((List.range ((n + 47) / 48)).flatMap fun i => kdfBlock key label ctx n (i + 1)).take n

/-- The root secret of the valid bank (10 R524), unless the root-kill fuse is blown (R574). -/
def rootSecret (s : State) : Option Bytes :=
  if s.key.rootKill then none
  else if s.key.root0.valid then some s.key.root0.secret
  else if s.key.root1.valid then some s.key.root1.secret
  else none

def unitBe (s : State) : Bytes := beBytes 8 s.pow.unit.toNat
def rootOr (s : State) : Bytes := (rootSecret s).getD []
/-- The voile is valid while its two copies agree (10 R530). -/
def voileValid (s : State) : Bool := s.key.voile.length == 32 && s.key.voileInv == s.key.voile.map (~~~ ·)
def voileOr (s : State) : Bytes := s.key.voile

/-- The fixed derivations (10 R535). -/
def storeKey (s : State) : Bytes := kdf (rootOr s) (ascii "SLX48-STORE") (voileOr s ++ unitBe s) 32
def slotTagKey (s : State) : Bytes := kdf (rootOr s) (ascii "SLX48-SLOTTAG") (voileOr s ++ unitBe s) 32
def ledgerCtx (s : State) : Bytes := unitBe s ++ beBytes 1 s.led.epoch.toNat ++ beBytes 4 s.key.rollCount
def pageKey (s : State) : Bytes := kdf (rootOr s) (ascii "SLX48-PAGE") (ledgerCtx s) 32
def treeKey (s : State) : Bytes := kdf (rootOr s) (ascii "SLX48-TREE") (ledgerCtx s) 32
def journalKey (s : State) : Bytes := kdf (rootOr s) (ascii "SLX48-JOURNAL") (ledgerCtx s) 32
def identitySeed (s : State) : Bytes := kdf (rootOr s) (ascii "SLX48-DEVID") (unitBe s) 32

/-- The X25519 private key of the offer, clamped as in RFC 7748 (10 R535). -/
def offerKey (s : State) : Bytes :=
  let k := kdf (rootOr s) (ascii "SLX48-OFFER") (unitBe s ++ beBytes 4 s.key.offerCount) 32
  (k.take 1).map (· &&& 0xF8) ++ cut k 1 30 ++ (cut k 31 1).map fun b => b &&& 0x7F ||| 0x40

/-! ### Life cycle (10 R570) -/

/-- The state, coded as in DEV_STATUS.lifecycle: 0 BLANK, 1 FRESH, 2 ENROLLED, 3 OPERATIONAL, 4 VEILED, 5 RETIRED. -/
def lifecycle (s : State) : Nat :=
  match s.key.fuse.toNat with
  | 0 => 0
  | 1 => 1
  | 2 => if !voileValid s || s.key.veil then 4 else if s.key.inService then 3 else 2
  | _ => 5

def operational (s : State) : Bool := lifecycle s == 3

/-! ### Slots -/

def slotOf (s : State) (n : Nat) : Slot := tget {} s.key.slots n

/-- Kinds (10 R539). -/
def kAesMac : BitVec 8 := 0x01
def kEdPriv : BitVec 8 := 0x02
def kP256Priv : BitVec 8 := 0x03
def kMldsa44 : BitVec 8 := 0x04
def kMldsa65 : BitVec 8 := 0x05
def kHmac : BitVec 8 := 0x06
def kKdf : BitVec 8 := 0x07
def kTransport : BitVec 8 := 0x08
def kAttest : BitVec 8 := 0x09
def kEdPub : BitVec 8 := 0x0A
def kP256Pub : BitVec 8 := 0x0B

def kindOk (k : BitVec 8) : Bool := decide (1 ≤ k.toNat) && decide (k.toNat ≤ 11)

/-- Bytes of material of a kind (10 R539). -/
def kindBytes (k : BitVec 8) : Nat := if k = kHmac ∨ k = kAttest then 48 else if k = kP256Pub then 64 else 32

/-- The standing generation of a slot (10 R563) and its next generation (R544). -/
def standingGen (x : Slot) : Nat := match x.retiredGen with | some g => g + 1 | none => x.gen
def nextGen (x : Slot) : Nat := match x.retiredGen with | some g => g + 1 | none => x.top + 1

/-- Is a key orphaned (10 R563): its parent's standing generation is above the one it records, its parent is being retired, or its parent is
orphaned? `n` bounds the depth of descent. -/
def orphanIn (s : State) : Nat → Slot → Bool
  | 0, _ => false
  | n + 1, x =>
    match x.parent with
    | none => false
    | some p =>
      let y := slotOf s p.slot
      decide (standingGen y > p.gen) || (y.retiring && y.gen == p.gen) || (y.gen == p.gen && y.retiredGen.isNone && orphanIn s n y)

def orphaned (s : State) (x : Slot) : Bool := x.st == .orphaned || orphanIn s 1024 x

/-- Is slot `x` a descendant of slot `slot` at generation `gen`? -/
def descends (s : State) (slot gen : Nat) : Nat → Slot → Bool
  | 0, _ => false
  | n + 1, x =>
    match x.parent with
    | none => false
    | some p => (p.slot == slot && p.gen == gen) || descends s slot gen n (slotOf s p.slot)

/-- The state of a slot, ORPHANED included (10 R543). -/
def slotState (s : State) (n : Nat) : SlotState :=
  let x := slotOf s n
  if x.st = .loaded ∧ orphaned s x then .orphaned else x.st

/-- Who uses a key (10 R548, R549). -/
inductive KeyUser where
  | core (c : CoreId) | mint | verdict
  deriving DecidableEq, Repr

/-- The master bit, the world bit and the life-cycle bit are all 1 (10 R549). -/
def allowed (s : State) (u : KeyUser) (attrs : BitVec 32) : Bool :=
  let m := match u with | .core .a => 0 | .core .b => 1 | .core .g => 2 | .mint => 3 | .verdict => 4
  let w := match u with | .core .g => 10 | .core _ => 8 | _ => 9
  let l := match lifecycle s with | 2 => 12 | 3 => 13 | 4 => 14 | _ => 31
  attrs.getLsbD m && attrs.getLsbD w && decide (l < 31) && attrs.getLsbD l

/-- Resolve a key for a user (04 R182): KEY_UNUSABLE, KEY_ORPHANED, KEY_DENIED, in this order. -/
def resolve (s : State) (u : KeyUser) (k : KeyRef) (kinds : List (BitVec 8)) : Except Status Slot :=
  let x := slotOf s k.slot
  if !s.key.unwrapped || (x.st != .loaded && x.st != .orphaned) || x.retiring || x.gen != k.gen || decide (k.slot > 1023) then .error .keyUnusable
  else if orphaned s x then .error .keyOrphaned
  else if !kinds.contains x.kind || !allowed s u x.attrs then .error .keyDenied
  else .ok x

/-- Enrolment slots and their kind and attributes word (10 R547). -/
def enrolWord : Nat → Option (BitVec 8 × BitVec 32)
  | 0 => some (kEdPub, 0x00003103)
  | 1 => some (kHmac, 0x00007404)
  | 2 => some (kEdPub, 0x00007103)
  | 3 => some (kAttest, 0x00007507)
  | 4 => some (kTransport, 0x00043103)
  | _ => none

/-- Owner-supplied attributes (10 R550). -/
def attrsOk (kind : BitVec 8) (a : BitVec 32) : Bool :=
  (a &&& 0xFFF888E0 == 0)
  && (!a.getLsbD 2 || kind == kHmac || kind == kAttest)
  && (!a.getLsbD 14 || kind == kKdf)
  && ((!a.getLsbD 17 && !a.getLsbD 18) || kind == kTransport)
  && (!a.getLsbD 16 || kind != kAttest)

/-- Order of the group of P-256, its field prime and its coefficient b. -/
def p256N : Nat := 0xFFFFFFFF00000000FFFFFFFFFFFFFFFFBCE6FAADA7179E84F3B9CAC2FC632551
def p256P : Nat := 0xFFFFFFFF00000001000000000000000000000000FFFFFFFFFFFFFFFFFFFFFFFF
def p256B : Nat := 0x5AC635D8AA3A93E7B3EBBD55769886BC651D06B0CC53B0F63BCE3C3E27D2604B

/-- A point x, y lies on P-256: y^2 = x^3 - 3 x + b. -/
def p256On (x y : Nat) : Bool :=
  decide (x < p256P) && decide (y < p256P) && decide (y * y % p256P = (x * x * x + 3 * (p256P - x) + p256B) % p256P)

/-- Power modulo `m`, by the `n` low bits of the exponent. -/
def powMod (m : Nat) : Nat → Nat → Nat → Nat
  | 0, _, _ => 1 % m
  | n + 1, b, e => if e % 2 = 1 then b * powMod m n (b * b % m) (e / 2) % m else powMod m n (b * b % m) (e / 2)

def edP : Nat := 2 ^ 255 - 19
def edD : Nat := 37095705934669439343138083508754565189542113879843219016388785533085940283555

/-- An Ed25519 public-key encoding decodes (RFC 8032). -/
def edDecodes (b : Bytes) : Bool :=
  let v := leNat b
  let y := v % 2 ^ 255
  let sign := v / 2 ^ 255
  let u := (y * y + edP - 1) % edP
  let w := (edD * (y * y % edP) + 1) % edP
  let x := u * powMod edP 3 w 3 % edP * powMod edP 256 (u * powMod edP 3 w 7 % edP) ((edP - 5) / 8) % edP
  let t := w * (x * x % edP) % edP
  decide (y < edP) && (decide (t = u) || decide (t = (edP - u) % edP)) && !(decide (u = 0) && decide (sign = 1))

/-- Material that may enter a slot (10 R540); `m` is 64 bytes, padded with zeros. -/
def materialOk (kind : BitVec 8) (m : Bytes) : Bool :=
  zeroAt m (kindBytes kind) 64
  && (kind != kP256Priv || (decide (1 ≤ beAt m 0 32) && decide (beAt m 0 32 < p256N)))
  && (kind != kP256Pub || p256On (beAt m 0 32) (beAt m 32 32))
  && (kind != kEdPub || edDecodes (m.take 32))

/-- Payload of a KEY_SLOT record (10 R541). -/
def slotPayload (s : State) (slot gen : Nat) (kind : BitVec 8) (origin : Nat) (parent : Option KeyRef) (attrs : BitVec 32)
    (m iv : Bytes) : Bytes :=
  let head := leBytes 2 slot ++ leBytes 2 gen ++ [kind] ++ leBytes 1 origin
    ++ (match parent with | none => leBytes 2 0xFFFF ++ leBytes 2 0 | some p => leBytes 2 p.slot ++ leBytes 2 p.gen)
    ++ zeros 2 ++ leBytes 4 attrs.toNat ++ leBytes 8 s.time.mUs
  let ct := gcmCrypt (storeKey s) iv (fit 64 m)
  head ++ iv ++ ct ++ gcmTagOf (storeKey s) iv head ct

/-- The Gatehouse key holder takes up to four LOADED keys whose attributes set serge_g, lowest slots first (10 R568). -/
def loadHolder (s : State) : State :=
  s.onKey fun k => { k with
    holder := ((k.slots.filter fun p => p.2.st == .loaded && !p.2.retiring && p.2.attrs.getLsbD 2 && !orphaned s p.2).take 4).map fun p => (p.1, some p.2) }

/-- Remove from every lane's key cache what a test selects (04 R190). -/
def purgeKeys (s : State) (p : KeyRef → Bool) : State :=
  s.onLane fun b => { b with lanes := tmap {} b.lanes fun _ l => { l with cache := l.cache.filter fun e => !p e.key } }

/-- Highest sequence among the records of a slot. -/
def slotSeq (s : State) (slot : Nat) : Nat := topSeq (keyRecs s 1 0x0101 slot)

/-- Has a change of a slot begun that is neither committed nor failed (10 R566)? -/
def slotBusy (s : State) (slot : Nat) : Bool := s.key.changes.any fun c => c.slot == slot

/-- The record of a change is committed. A stored key is LOADED; where it raises the standing generation of a slot, keys that descend from an older one
are orphaned and leave the caches (04 R190, 10 R563). A retired key and its descendants are destroyed in key memory; the slot is EMPTY at the next
generation, or SPENT (R543, R564). -/
def applyChange (s : State) (c : KeyChange) : State :=
  let x := slotOf s c.slot
  match c.key with
  | some y =>
    let s := s.onKey fun k => { k with slots := tput {} k.slots c.slot { y with top := max x.top y.gen } }
    purgeKeys s fun r => (slotOf s r.slot).gen != r.gen || orphaned s (slotOf s r.slot)
  | none =>
    let kin := fun (n : Nat) => n == c.slot || descends s c.slot x.gen 1024 (slotOf s n)
    s.onKey fun k => { k with
      slots := tput {} (tmap {} k.slots fun n y => if kin n then { y with material := [] } else y) c.slot
        { st := if x.gen = 65535 then .spent else .empty, gen := x.gen, top := x.top, retiredGen := some x.gen } }

/-- What has become of a change: committed, still waiting for its record or its transaction, or failed. A failed one leaves the slot as it was. -/
def settleChange (s : State) (c : KeyChange) : State :=
  let mine := fun (r : Record) => ofKey 1 0x0101 c.slot r
  if slotSeq s c.slot > c.seq then applyChange s c
  else if s.store.queue.any (fun a => a.src == .key && mine a.record) || s.store.recs.any (fun r => mine r && r.inTxn && committed r) then
    s.onKey fun k => { k with changes := k.changes ++ [c] }
  else s.onKey fun k => { k with slots := tupd {} k.slots c.slot fun x => { x with retiring := false } }

/-- Changes whose records are committed take effect, in the order begun; the key holder follows (10 R566, R568). -/
def settleKeys (s : State) : State :=
  if s.key.changes.isEmpty then s
  else loadHolder (s.key.changes.foldl settleChange (s.onKey fun k => { k with changes := [] }))

/-- Store a key in a slot, as part `idx` of transaction `txn` (0: of none): its KEY_SLOT record is appended, and the slot is LOADED at that
generation once it is committed (10 R541, R557). The IV is drawn from the DRBG. -/
def storePart (txn idx : Nat) (s : State) (slot gen : Nat) (kind : BitVec 8) (origin : Nat) (parent : Option KeyRef) (attrs : BitVec 32)
    (m : Bytes) : State :=
  let p := slotPayload s slot gen kind origin parent attrs m (randBytes s 12)
  let y : Slot := { st := .loaded, gen := gen, top := gen, kind := kind, origin := BitVec.ofNat 8 origin, parent := parent, attrs := attrs
                    material := m.take (kindBytes kind), created := s.time.mUs }
  let s := s.onKey fun k => { k with changes := k.changes ++ [{ slot := slot, seq := slotSeq s slot, key := some y }] }
  settleKeys (appendRecord (drew s 12) .key { part := 1, typ := 0x0101, id := slot, payload := p, txn := txn, idx := idx })

/-- Store a key in a slot by one record (10 R557, R560, R587). -/
def storeSlot (s : State) (slot gen : Nat) (kind : BitVec 8) (origin : Nat) (parent : Option KeyRef) (attrs : BitVec 32) (m : Bytes) : State :=
  storePart 0 0 s slot gen kind origin parent attrs m

/-- Empty a lane's key cache (04 R190). -/
def purgeLane (s : State) (l : Nat) : State :=
  s.onLane fun b => { b with lanes := tupd {} b.lanes l fun x => { x with cache := [] } }

/-- Retire a key (10 R564): the slot is marked retiring, caches and key holder are purged of it and its descendants, KEY_RETIRE is appended; the rest
follows its commit. -/
def retireSlot (s : State) (slot : Nat) : State :=
  let x := slotOf s slot
  let kin := fun (n : Nat) => n == slot || descends s slot x.gen 1024 (slotOf s n)
  let s := s.onKey fun k => { k with
    slots := tupd {} k.slots slot fun y => { y with retiring := true }
    changes := k.changes ++ [{ slot := slot, seq := slotSeq s slot }]
    holder := k.holder.filter fun p => !kin p.1 }
  let s := purgeKeys s fun k => kin k.slot
  let head := leBytes 2 slot ++ leBytes 2 x.gen ++ zeros 4
  settleKeys (append s .key 1 0x0102 slot (head ++ cmac (slotTagKey s) head))

/-! ### Checks of IMPORT_KEY and DERIVE_KEY -/

/-- Is a slot open to a new key (10 R556 check 4, R559 check 5)? -/
def slotOpen (s : State) (n : Nat) (enrolToo : Bool) : Bool :=
  let st := slotState s n
  let e := (enrolWord n).isSome
  (st == .empty || st == .orphaned || st == .bad || (enrolToo && e && st == .loaded)) && (enrolToo || !e)
    && decide (nextGen (slotOf s n) ≤ 65535)

/-- A key to be stored: slot, kind, attributes, parent, material. -/
structure NewKey where
  slot : Nat := 0
  kind : BitVec 8 := 0
  attrs : BitVec 32 := 0
  parent : Option KeyRef := none
  material : Bytes := []
  deriving DecidableEq, Repr

/-- Failures of a check: status and detail. -/
abbrev Bad := Status × BitVec 16

/-- The first check that fails decides. -/
def firstBad (l : List (Bool × Bad)) : Option Bad := (l.find? fun p => !p.1).map Prod.snd

/-- Checks 1 to 3 of IMPORT_KEY (10 R555, R556) on its 108-byte body. -/
def importForm (b : Bytes) : List (Bool × Bad) :=
  let slot := leAt b 0 2
  let kind := BitVec.ofNat 8 (leAt b 2 1)
  let attrs := BitVec.ofNat 32 (leAt b 4 4)
  let kindGood := kindOk kind && (match enrolWord slot with | some e => kind == e.1 | none => true)
  let attrGood := match enrolWord slot with | some e => attrs == e.2 | none => attrsOk kind attrs
  [(b.length == 108, (.badLength, detBlock 24)),
   (decide (slot < 1024), (.reservedField, detBlock 32)),
   (zeroAt b 3 1, (.reservedField, detBlock 35)),
   (zeroAt b 12 4, (.reservedField, detBlock 44)),
   (kindGood, (.badFormat, detBlock 34)), (attrGood, (.badFormat, detBlock 36))]

/-- IMPORT_KEY (10 R555, R556). -/
def checkImport (s : State) (u : KeyUser) (b : Bytes) : Except Bad NewKey :=
  let slot := leAt b 0 2
  let kind := BitVec.ofNat 8 (leAt b 2 1)
  let attrs := BitVec.ofNat 32 (leAt b 4 4)
  match firstBad (importForm b ++ [(slotOpen s slot true, (.badFormat, detBlock 32))]) with
  | some e => .error e
  | none =>
    match resolve s u { slot := leAt b 8 2, gen := leAt b 10 2 } [kTransport] with
    | .error e => .error (e, 0)
    | .ok x =>
      if !x.attrs.getLsbD 18 then .error (.keyDenied, 0)
      else
        let iv := cut b 16 12
        let ct := cut b 28 64
        if gcmTagOf x.material iv (b.take 16 ++ leBytes 8 s.pow.unit.toNat) ct ≠ cut b 92 16 then .error (.badFormat, detBlock 124)
        else
          let m := gcmCrypt x.material iv ct
          if materialOk kind m then .ok { slot := slot, kind := kind, attrs := attrs, material := m.take (kindBytes kind) }
          else .error (.badFormat, detBlock 60)

/-- The material of a derived child (10 R560). -/
def childMaterial (parent : Bytes) (kind : BitVec 8) (label ctx : Bytes) : Bytes :=
  if kind = kP256Priv then beBytes 32 (beNat (kdf parent label ctx 40) % (p256N - 1) + 1)
  else kdf parent label ctx (kindBytes kind)

/-- Checks 1 to 4 of DERIVE_KEY (10 R558, R559) on its body. -/
def deriveForm (b : Bytes) : List (Bool × Bad) :=
  let kind := BitVec.ofNat 8 (leAt b 2 1)
  let ll := leAt b 3 1
  let lc := leAt b 12 2
  [(decide (16 ≤ b.length) && b.length == 16 + ll + lc && decide (1 ≤ ll) && decide (ll ≤ 64) && decide (lc ≤ 128), (.badLength, detBlock 24)),
   (decide (leAt b 0 2 < 1024), (.reservedField, detBlock 32)),
   (zeroAt b 14 2, (.reservedField, detBlock 46)),
   (decide (1 ≤ kind.toNat) && decide (kind.toNat ≤ 8), (.badFormat, detBlock 34)),
   (attrsOk kind (BitVec.ofNat 32 (leAt b 4 4)), (.badFormat, detBlock 36)),
   ((cut b 16 ll).take 6 != ascii "SLX48-", (.badFormat, detBlock 48))]

/-- DERIVE_KEY (10 R558, R559). -/
def checkDerive (s : State) (u : KeyUser) (b : Bytes) : Except Bad NewKey :=
  let slot := leAt b 0 2
  let kind := BitVec.ofNat 8 (leAt b 2 1)
  let ll := leAt b 3 1
  let lc := leAt b 12 2
  let attrs := BitVec.ofNat 32 (leAt b 4 4)
  let label := cut b 16 ll
  match firstBad (deriveForm b ++ [(slotOpen s slot false, (.badFormat, detBlock 32))]) with
  | some e => .error e
  | none =>
    let pr : KeyRef := { slot := leAt b 8 2, gen := leAt b 10 2 }
    match resolve s u pr [kKdf] with
    | .error e => .error (e, 0)
    | .ok x => .ok { slot := slot, kind := kind, attrs := attrs, parent := some pr,
                     material := childMaterial x.material kind label (cut b (16 + ll) lc) }

/-- Store a checked key at the slot's next generation. -/
def storeNew (s : State) (k : NewKey) (origin : Nat) : State :=
  storeSlot s k.slot (nextGen (slotOf s k.slot)) k.kind origin k.parent k.attrs k.material

/-- The response of IMPORT_KEY and DERIVE_KEY (10 R561). -/
def newKeyResponse (s : State) (k : NewKey) : Bytes :=
  leBytes 2 k.slot ++ leBytes 2 (nextGen (slotOf s k.slot)) ++ [k.kind] ++ [1] ++ zeros 2

/-! ### Transport between twins (10 R585-R587) -/

/-- Coordinates of a node address: x [11:8], y [7:4], z [3:0] (07 R344). -/
def nodeX (n : Nat) : Nat := n / 256 % 16
def nodeY (n : Nat) : Nat := n / 16 % 16
def nodeZ (n : Nat) : Nat := n % 16

/-- The twin of a node has the lowest bit of x inverted (07 R347). -/
def twinOf (node : Nat) : Nat := if nodeX node % 2 = 0 then node + 256 else node - 256

def nodeAddr (s : State) : Nat := s.pow.node.toNat
def twinAddr (s : State) : Nat := twinOf (nodeAddr s)

/-- A fabric of one column has no twins (07 R347). -/
def hasTwin (s : State) : Bool := s.par.extX != 1

/-- The fabric key: the KDF_PARENT in FABRIC_KEY_SLOT, usable by the active core (10 R549, R535). -/
def fabricKey (s : State) : Option Bytes :=
  let x := slotOf s s.par.fabKey.toNat
  match resolve s (.core s.unit.active) { slot := s.par.fabKey.toNat, gen := x.gen } [kKdf] with
  | .ok y => some y.material
  | .error _ => none

/-- Address of the pair member whose x is even. -/
def evenMember (node : Nat) : Nat := if nodeX node % 2 = 0 then node else node - 256

def pairKey (s : State) : Option Bytes :=
  (fabricKey s).map fun k => kdf k (ascii "SLX48-TWIN") (beBytes 2 (evenMember (nodeAddr s))) 32

/-- A KEY_TRANSPORT blob (10 R585). -/
def makeBlob (key : Bytes) (x : Slot) (slot : Nat) (xfer : BitVec 32) (sender : Nat) (iv : Bytes) : Bytes :=
  let head := [1, x.kind] ++ leBytes 2 x.gen ++ leBytes 4 x.attrs.toNat
    ++ (match x.parent with | none => leBytes 2 0xFFFF ++ leBytes 2 0 | some p => leBytes 2 p.slot ++ leBytes 2 p.gen) ++ zeros 4
  let ct := gcmCrypt key iv (fit 64 x.material)
  head ++ iv ++ ct ++ gcmTagOf key iv (head ++ leBytes 2 slot ++ leBytes 4 xfer.toNat ++ leBytes 2 sender) ct

/-- Open a blob: the key it carries with its generation, or none when it does not verify. -/
def openBlob (key : Bytes) (b : Bytes) (slot : Nat) (xfer : BitVec 32) (sender : Nat) : Option (NewKey × Nat) :=
  let iv := cut b 16 12
  let ct := cut b 28 64
  let kind := BitVec.ofNat 8 (leAt b 1 1)
  let m := gcmCrypt key iv ct
  if b.length = 108 ∧ leAt b 0 1 = 1 ∧ zeroAt b 12 4 ∧
      gcmTagOf key iv (b.take 16 ++ leBytes 2 slot ++ leBytes 4 xfer.toNat ++ leBytes 2 sender) ct = cut b 92 16 ∧
      kindOk kind ∧ materialOk kind m then
    some ({ slot := slot, kind := kind, attrs := BitVec.ofNat 32 (leAt b 4 4), parent := keyField b 8,
            material := m.take (kindBytes kind) }, leAt b 2 2)
  else none

/-- May a delivered key enter the slot (10 R587)? -/
def deliverable (s : State) (slot gen : Nat) : Bool :=
  let st := slotState s slot
  let x := slotOf s slot
  decide (slot < 1024) && (st == .empty || st == .bad) && decide (1 ≤ gen) && decide (gen ≤ 65535)
    && (st == .bad || decide (nextGen x ≤ gen)) && decide (nextGen x ≤ 65535)
    && (decide (2 ≤ lifecycle s) && decide (lifecycle s ≤ 4))

/-! ### Attestation (10 R582-R584) -/

/-- The unit-table bytes that GET_STATS returns (03 R146): table version, then the state of each identifier. -/
def statsBytes (version : Nat) (t : Tbl UnitEnt) : Bytes :=
  leBytes 8 version ++ (List.range 128).map fun u => BitVec.ofNat 8 (ustCode (tget {} t u).st)

/-- A measurement register's 48 bytes; zeros until extended (11 R605). -/
def measOf (t : Tbl Bytes) (n : Nat) : Bytes := fit 48 (tget [] t n)

/-- The attestation message (10 R582) over an identity block. -/
def attestMessage (s : State) (identity challenge : Bytes) (meas : Tbl Bytes) (version : Nat) (units : Tbl UnitEnt) : Bytes :=
  let flags := (if s.pow.mainUp then 1 else 0) + (if s.hq.open_ then 2 else 0) + (if s.time.anchored then 4 else 0)
  ascii "SXAT" ++ [1] ++ leBytes 1 (lifecycle s) ++ leBytes 1 flags ++ [0] ++ fit 32 challenge ++ leBytes 8 s.pow.unit.toNat
    ++ leBytes 2 (nodeAddr s) ++ zeros 6 ++ bvBytes (Config.sha384 identity)
    ++ (List.range 8).flatMap (measOf meas)
    ++ bvBytes (Config.sha384 (statsBytes version units)) ++ leBytes 8 s.time.us

/-- The response: the message and its HMAC-SHA-384 (10 R583). -/
def attestResponse (key msg : Bytes) : Bytes := msg ++ bvBytes (Config.hmac384 key msg)

/-- Device code and stepping (03 ID_DEVICE). -/
def deviceCode (v : Variant) : Nat := match v with | .slx4816 => 0x4816 | .slx4812 => 0x4812 | .slx4806 => 0x4806

/-- The offer (10 R575). -/
def offerBytes (s : State) : Bytes :=
  let ek := offerKey s
  let body := ascii "SXOF" ++ [1] ++ leBytes 1 (lifecycle s) ++ zeros 2 ++ leBytes 8 s.pow.unit.toNat ++ leBytes 4 s.key.offerCount
    ++ zeros 4 ++ (bvBytes (Config.sharedSecret ek (9 :: zeros 31))).take 32 ++ bvBytes (Config.ed25519Public (identitySeed s))
  body ++ bvBytes (Config.ed25519Sign (identitySeed s) body)

end Sys2Proof.Machine
end

