-- ==== Sys2Proof/Machine/Wire.lean ====
section
/-! DEFINITION. Pergola frames as the bytes that cross a link (07 R356, R363, R364, R373, R378-R385, R392, R406, R410): payloads, header, cipher
text, tag, CRC and fill. -/

namespace Sys2Proof.Machine

/-- A record as its 16 bytes (06 R303). -/
def recBytes (r : JRec) : Bytes :=
  let k := match r.kind with
    | .pad => 0 | .mint => 1 | .close => 2 | .enter => 3 | .exit => 4 | .voidFirst => 5 | .voidLast => 6 | .roll => 7
  leBytes 1 k ++ leBytes 1 (r.lane % 16) ++ leBytes 5 r.serial ++ leBytes 1 r.extra.toNat ++ leBytes 8 r.t

/-- The 2-bit codes of the entry states (06 R274). -/
def entryCode : LState → Nat
  | .unissued => 0 | .live => 1 | .inside => 2 | .closed => 3

/-- The 4,096 bytes of a page (06 R275): four entries a byte, the first in the low bits. -/
def pageBytes (es : Tbl LState) : Bytes :=
  (List.range 4096).map fun i =>
    BitVec.ofNat 8 (((List.range 4).map fun j => entryCode (tget .unissued es (4 * i + j)) * 4 ^ j).sum)

def mkindCode : MKind → Nat
  | .join => 0 | .withdraw => 1 | .takeover => 2 | .exclude => 3 | .shadowComplete => 4 | .handbackOffer => 5 | .handbackAccept => 6
  | .rollQuery => 7 | .rollConfirm => 8 | .rollRefuse => 9 | .view => 10 | .viewRequest => 11 | .decisionAck => 12

/-- The type byte of a frame (07 R366). -/
def frameType : FrameBody → Nat
  | .verdictFwd .. => 0x01
  | .verdictReply .. => 0x02
  | .mirrorGroup .. | .pageRequest .. | .voidRequest .. => 0x03
  | .groupAck .. | .leaseAck .. | .page .. | .pageAbsent .. | .voidBlock .. => 0x04
  | .leaseMirror .. => 0x05
  | .heartbeat .. => 0x06
  | .witnessQuery .. => 0x07
  | .witnessReply .. => 0x08
  | .timePulse .. => 0x09
  | .keyTransport .. => 0x0A
  | .membership .. => 0x0B

/-- Bit `n` of a word from a condition. -/
def bitAt (b : Bool) (n : Nat) : Nat := if b then 2 ^ n else 0

/-- The payload of a frame (07 R373, R378-R382, R385, R392, R406, R410). -/
def payloadBytes : FrameBody → Bytes
  | .verdictFwd lane ctx gate cred seq =>
    leBytes 1 (lane % 16) ++ leBytes 1 (ctx % 64) ++ [gate] ++ leBytes 1 (cred.length % 128) ++ leBytes 4 seq.toNat ++ cred
  | .verdictReply lane ctx st v seq info det dec serial =>
    leBytes 1 (lane % 16) ++ leBytes 1 (ctx % 64) ++ [st, v] ++ leBytes 4 seq.toNat ++ [info, 0] ++ leBytes 2 det.toNat
      ++ leBytes 2 dec.toNat ++ zeros 2 ++ leBytes 8 serial.toNat
  | .mirrorGroup e g t rs =>
    [0] ++ leBytes 1 e.toNat ++ leBytes 2 rs.length ++ zeros 4 ++ leBytes 8 g ++ leBytes 8 t ++ rs.flatMap recBytes
  | .pageRequest e h p => [1] ++ leBytes 1 e.toNat ++ leBytes 2 h ++ leBytes 4 p
  | .voidRequest e h b => [2] ++ leBytes 1 e.toNat ++ leBytes 2 h ++ leBytes 4 b
  | .groupAck e g => [0] ++ leBytes 1 e.toNat ++ zeros 6 ++ leBytes 8 g
  | .leaseAck e c => [1] ++ leBytes 1 e.toNat ++ zeros 6 ++ leBytes 8 c
  | .page e h p g es => [2] ++ leBytes 1 e.toNat ++ leBytes 2 h ++ leBytes 4 p ++ leBytes 8 g ++ pageBytes es
  | .pageAbsent e h p => [3] ++ leBytes 1 e.toNat ++ leBytes 2 h ++ leBytes 4 p
  | .voidBlock e h b rs =>
    [4] ++ leBytes 1 e.toNat ++ leBytes 2 h ++ leBytes 4 b ++ leBytes 4 rs.length ++ zeros 4
      ++ rs.flatMap fun r => leBytes 8 r.1 ++ leBytes 8 r.2
  | .leaseMirror e c => [0] ++ leBytes 1 e.toNat ++ zeros 6 ++ leBytes 8 c
  | .heartbeat a b c d e t g =>
    leBytes 1 (bitAt a 0 + bitAt b 1 + bitAt c 2 + bitAt d 3) ++ leBytes 1 e.toNat ++ zeros 2 ++ leBytes 4 t ++ leBytes 8 g
  | .witnessQuery x h t => leBytes 1 (bitAt x 0) ++ [0] ++ leBytes 2 h ++ leBytes 4 t
  | .witnessReply x a h t =>
    leBytes 1 (bitAt x 0) ++ [match a with | .grant => 0 | .refuse => 1 | .abstain => 2] ++ leBytes 2 h ++ leBytes 4 t
  | .timePulse t u a => leBytes 8 t ++ leBytes 4 u ++ leBytes 1 (bitAt a 0) ++ zeros 3
  | .keyTransport k slot x blob => [k, 0] ++ leBytes 2 slot ++ leBytes 4 x.toNat ++ leBytes 2 blob.length ++ zeros 6 ++ blob
  | .membership k e subj t v u =>
    leBytes 1 (mkindCode k) ++ leBytes 1 e.toNat ++ leBytes 2 subj ++ leBytes 4 t ++ leBytes 8 v ++ leBytes 8 u.toNat

/-- The 16-byte header of a frame (07 R363). -/
def headerBytes (f : Frame) (len seq : Nat) : Bytes :=
  leBytes 1 (frameType f.body) ++ leBytes 1 (bitAt f.vc 0 + bitAt f.detour 1 + bitAt f.flood 2 + bitAt f.relayed 3) ++ leBytes 1 f.hops ++ [0]
    ++ leBytes 2 (f.src % 4096) ++ leBytes 2 (f.dest % 4096) ++ leBytes 2 len ++ zeros 2 ++ leBytes 4 seq

/-- One bit of the CRC-32C of 07 R364, reflected. -/
def crcBit (r : BitVec 32) : BitVec 32 := if r.getLsbD 0 then (r >>> 1) ^^^ 0x82F63B78 else r >>> 1

/-- One byte of it. -/
def crcByte (r : BitVec 32) (b : Byte) : BitVec 32 :=
  crcBit (crcBit (crcBit (crcBit (crcBit (crcBit (crcBit (crcBit (r ^^^ b.zeroExtend 32))))))))

/-- CRC-32C (07 R364): initial value and final XOR 0xFFFF_FFFF. -/
def crc32c (b : Bytes) : BitVec 32 := b.foldl crcByte 0xFFFFFFFF ^^^ 0xFFFFFFFF

/-- The IV of the `n`th frame under a key (07 R356). -/
def frameIv (n : Nat) : Bytes := zeros 4 ++ beBytes 8 n

/-- Bytes filled with zeros to whole 64b/66b data blocks of 8 bytes (07 R363). -/
def toBlocks (b : Bytes) : Bytes := fit ((b.length + 7) / 8 * 8) b

/-- A frame as it crosses a link, the `n`th under `key` (07 R356, R363, R364): header, encrypted padded payload, tag, CRC, fill. -/
def sealFrame (key : Bytes) (n : Nat) (f : Frame) : Bytes :=
  let p := payloadBytes f.body
  let h := headerBytes f p.length n
  let ct := gcmCrypt key (frameIv n) (toBlocks p)
  let b := h ++ ct ++ gcmTagOf key (frameIv n) h ct
  toBlocks (b ++ leBytes 4 (crc32c b).toNat)

/-- The bytes a frame takes on a link (07 R363). -/
def wireSize (f : Frame) : Nat := ((16 + ((payloadBytes f.body).length + 7) / 8 * 8 + 20) + 7) / 8 * 8

/-- Where the CRC of a frame stands, by the length its header gives. -/
def crcAt (w : Bytes) : Nat := 32 + (leAt w 8 2 + 7) / 8 * 8

/-- Does the CRC of a frame as it arrived verify (07 R364)? -/
def crcGood (w : Bytes) : Bool := decide (crcAt w + 4 ≤ w.length) && leAt w (crcAt w) 4 == (crc32c (w.take (crcAt w))).toNat

/-- The padded payload of the `n`th frame under `key`, or none when its tag fails (07 R356). -/
def openFrame (key : Bytes) (n : Nat) (w : Bytes) : Option Bytes :=
  let ct := cut w 16 (crcAt w - 32)
  if gcmTagOf key (frameIv n) (w.take 16) ct = cut w (crcAt w - 16) 16 then some (gcmCrypt key (frameIv n) ct) else none

end Sys2Proof.Machine
end

