-- ==== Sys2Proof/Machine/Fabric.lean ====
section
/-! DEFINITION. Shared operations of the Pergola fabric (07): neighbours, routing, sending, flooding, the membership view, terms and authority. -/

namespace Sys2Proof.Machine

/-! ### Addresses and ports (07 R344-R349) -/

/-- Dimensions are 0 X, 1 Y, 2 Z. -/
def extOf (s : State) (d : Nat) : Nat := match d with | 0 => s.par.extX | 1 => s.par.extY | _ => s.par.extZ
def coordOf (n d : Nat) : Nat := match d with | 0 => nodeX n | 1 => nodeY n | _ => nodeZ n

/-- A node with one coordinate replaced. -/
def withCoord (n d c : Nat) : Nat :=
  match d with
  | 0 => c * 256 + nodeY n * 16 + nodeZ n
  | 1 => nodeX n * 256 + c * 16 + nodeZ n
  | _ => nodeX n * 256 + nodeY n * 16 + c

def portIdx : Port → Nat
  | .xp => 0 | .xm => 1 | .yp => 2 | .ym => 3 | .zp => 4 | .zm => 5

def allPorts : List Port := [.xp, .xm, .yp, .ym, .zp, .zm]

def portDim (p : Port) : Nat := portIdx p / 2
def portPlus (p : Port) : Bool := portIdx p % 2 == 0
def portUnit (p : Port) : Nat := 0x20 + portIdx p

/-- The opposite port (07 R352). -/
def opposite : Port → Port
  | .xp => .xm | .xm => .xp | .yp => .ym | .ym => .yp | .zp => .zm | .zm => .zp

/-- The port of a dimension and direction. -/
def portAt (d : Nat) (plus : Bool) : Port :=
  match d, plus with
  | 0, true => .xp | 0, false => .xm | 1, true => .yp | 1, false => .ym | _, true => .zp | _, false => .zm

/-- The neighbour a port leads to (07 R348). -/
def neighbour (s : State) (p : Port) : Nat :=
  let n := nodeAddr s
  let d := portDim p
  let e := max 1 (extOf s d)
  withCoord n d ((coordOf n d + (if portPlus p then 1 else e - 1)) % e)

/-- Does the node take part in the fabric: its address lies within the extents, and ext_x is even or 1 (07 R346)? -/
def inFabric (s : State) (n : Nat) : Bool :=
  decide (nodeX n < s.par.extX) && decide (nodeY n < s.par.extY) && decide (nodeZ n < s.par.extZ)
    && (decide (s.par.extX % 2 = 0) || s.par.extX == 1)

/-- Ports that may be brought up: their dimension's extent is above 1 and the unit is ACTIVE (07 R349, R353). -/
def portUsable (s : State) (p : Port) : Bool :=
  decide (extOf s (portDim p) > 1) && unitActive s (portUnit p) && inFabric s (nodeAddr s)

def portSt (s : State) (p : Port) : PortSt := tget {} s.fab.ports (portIdx p)
def onPort (s : State) (p : Port) (f : PortSt → PortSt) : State := s.onFab fun b => { b with ports := tupd {} b.ports (portIdx p) f }
def linkUp (s : State) (p : Port) : Bool := (portSt s p).link == .up

/-- The distinct nodes adjacent to a node (07 R348): its witnesses (R389). -/
def adjacent (s : State) (n : Nat) : List Nat :=
  ([0, 1, 2].flatMap fun d =>
    let e := extOf s d
    if e > 1 then [withCoord n d ((coordOf n d + 1) % e), withCoord n d ((coordOf n d + e - 1) % e)] else []).dedup

/-! ### Routing (07 R369-R372) -/

/-- Frames of the reply class (07 R366). -/
def isReply : FrameBody → Bool
  | .verdictReply .. => true
  | .groupAck .. => true
  | .leaseAck .. => true
  | .page .. => true
  | .pageAbsent .. => true
  | .voidBlock .. => true
  | .witnessReply .. => true
  | _ => false

/-- The next hop: a dimension and direction, or none to deliver here (07 R369). -/
def nextHop (s : State) (dest : Nat) (reply : Bool) : Option Port :=
  let n := nodeAddr s
  (if reply then [2, 1, 0] else [0, 1, 2]).findSome? fun d =>
    let e := max 1 (extOf s d)
    if coordOf n d = coordOf dest d then none
    else some (portAt d (decide ((coordOf dest d + e - coordOf n d) % e ≤ e / 2)))

/-- The detours of a hop (07 R370). -/
def detours (s : State) (h : Port) : List Port :=
  let d := portDim h
  (([(d + 1) % 3, (d + 2) % 3].filter fun c => decide (extOf s c > 1)).flatMap fun c => [portAt c true, portAt c false]) ++ [opposite h]

/-- The virtual channel of a hop (07 R369). -/
def chooseVc (s : State) (f : Frame) (arrived : Option Nat) (h : Port) : Bool :=
  let d := portDim h
  let c := coordOf (nodeAddr s) d
  let vc := if arrived = some d then f.vc else false
  if (portPlus h && c + 1 == extOf s d) || (!portPlus h && c == 0) then true else vc

/-- What a port keeps of its past: the GCM failures of the last second, the frames of the last minute and the times it went DOWN in the last hour
(07 R360, R415). -/
def freshPort (now : Nat) (l : PortSt) : PortSt :=
  { l with
    gcmFails := l.gcmFails.filter fun t => decide (now - t < 1000000)
    traffic := l.traffic.filter fun x => decide (now - x.1 < 60000000)
    downAt := l.downAt.filter fun t => decide (now - t < 3600000000) }

/-- Frames sent and frames resent within the last `us` microseconds (07 R415, 09 R490). -/
def traffic (now us : Nat) (l : PortSt) : Nat × Nat :=
  let xs := l.traffic.filter fun x => decide (now - x.1 < us)
  ((xs.map fun x => x.2.1).sum, (xs.map fun x => x.2.2).sum)

/-- Has a port resent more than one frame in 10^6 over the minute that ends now, at least two of them (07 R415, log entry 130)? -/
def resendsTooOften (now : Nat) (l : PortSt) : Bool :=
  let n := traffic now 60000000 l
  decide (n.2 > 1 ∧ n.2 * 1000000 > n.1)

/-- Bytes of a port's replay buffer in use. -/
def replayUsed (l : PortSt) : Nat := (l.replay.map fun x => wireSize x.frame).sum

/-- May a frame go out now: no retrain, no switch of keys under way, and room for it in the replay buffer of 128 KiB (07 R357, R359, R414)? -/
def canPut (l : PortSt) (f : Frame) : Bool := !l.retraining && !l.rekeying && decide (replayUsed l + wireSize f ≤ 131072)

/-- A frame as the next one under a port's key (07 R356). -/
def sentOn (l : PortSt) (f : Frame) : Sent := { seq := l.txSeq, frame := f, wire := sealFrame l.txKey l.txSeq f }

/-- Put a frame on the link: it is encrypted and counted under the link key and kept in the replay buffer (07 R356, R359). -/
def putFrame (s : State) (p : Port) (f : Frame) : State :=
  let x := sentOn (portSt s p) f
  let s := onPort s p fun l =>
    let l := freshPort s.time.clk l
    { l with txSeq := l.txSeq + 1, replay := l.replay ++ [x], traffic := l.traffic ++ [(s.time.clk, 1, 0)] }
  s.onOut fun o => { o with frames := o.frames ++ [(p, f)], wire := o.wire ++ [(p, x.wire)] }

/-- Send a frame on a port, behind those that wait already (07 R361). -/
def sendOn (s : State) (p : Port) (f : Frame) : State :=
  if (portSt s p).waiting.isEmpty && canPut (portSt s p) f then putFrame s p f else onPort s p fun l => { l with waiting := l.waiting ++ [f] }

/-- Send waiting frames in order as long as they may go out; the rest goes on waiting. -/
def putFrames (s : State) (p : Port) : List Frame → State
  | [] => onPort s p fun l => { l with waiting := [] }
  | f :: t => if canPut (portSt s p) f then putFrames (putFrame s p f) p t else onPort s p fun l => { l with waiting := f :: t }

def flushPort (s : State) (p : Port) : State := putFrames s p (portSt s p).waiting

/-- Send frames of the replay buffer again, as they were (07 R359). -/
def sendAgain (s : State) (p : Port) (xs : List Sent) : State :=
  s.onOut fun o => { o with frames := o.frames ++ xs.map fun x => (p, x.frame), wire := o.wire ++ xs.map fun x => (p, x.wire) }

/-- Discard a frame and count it (07 R367). -/
def discardFrame (s : State) : State := s.onFab fun b => { b with discarded := b.discarded + 1 }

/-- The member of a pair other than `n`. -/
def pairOther (n : Nat) : Nat := twinOf n

/-- Is there no link a frame could leave by (07 R370)? -/
def stuck (s : State) (f : Frame) : Bool :=
  match nextHop s f.dest (isReply f.body) with
  | none => false
  | some h => !linkUp s h && (f.detour || (detours s h).all fun p => !linkUp s p)

/-- Route a frame (07 R370). `n` bounds the redirections, of which R378 allows one. A frame for this node is delivered where it arrived. -/
def routeFrame (s : State) (arrived : Option Nat) : Nat → Frame → State
  | 0, _ => discardFrame s
  | n + 1, f =>
    match nextHop s f.dest (isReply f.body) with
    | none => s
    | some h =>
      if linkUp s h then sendOn s h { f with vc := chooseVc s f arrived h }
      else
        match if f.detour then none else (detours s h).find? (linkUp s) with
        | some c => sendOn s c { f with detour := true }
        | none =>
          match f.body with
          | .verdictFwd .. => if f.relayed then discardFrame s else routeFrame s arrived n { f with relayed := true, dest := pairOther f.dest }
          | _ => discardFrame s

/-- Send a frame made here to a node. -/
def sendTo (s : State) (dest : Nat) (body : FrameBody) (relayed : Bool := false) : State :=
  routeFrame s none 2 { src := nodeAddr s, dest := dest, relayed := relayed, body := body }

/-- What a node's view holds about a home (07 R376, R868). -/
def viewOf (s : State) (home : Nat) : HomeView := tget {} s.fab.view home
def onView (s : State) (home : Nat) (f : HomeView → HomeView) : State := s.onFab fun b => { b with view := tupd {} b.view home f }

/-- Is a node a member in this node's view? -/
def isMember (s : State) (n : Nat) : Bool := (viewOf s n).member

/-- The first hop that R370 would choose to a target is on an UP link. -/
def firstHopUp (s : State) (dest : Nat) (reply : Bool) : Bool :=
  match nextHop s dest reply with
  | none => true
  | some h => linkUp s h || (detours s h).any (linkUp s)

/-- A route exists to a target (07 R372): it lies within the extents, since the view holds no other node. -/
def routeExists (s : State) (dest : Nat) : Bool := inFabric s dest && isMember s dest && firstHopUp s dest false

/-! ### Flooding and membership frames (07 R373-R377) -/

/-- A MEMBERSHIP payload made by this node (07 R373). -/
def member (s : State) (k : MKind) (subject term value : Nat) : FrameBody :=
  .membership k s.led.epoch subject term value s.pow.unit

/-- Has a frame of this kind, subject, term and value been flooded within the last 10 ms (07 R375)? -/
def isRepeat (s : State) (k : MKind) (subject term value : Nat) : Bool :=
  s.fab.flooded.any fun r => r.1 == mkindCode k && r.2.1 == subject && r.2.2.1 == term && r.2.2.2.1 == value
    && decide (s.time.clk - r.2.2.2.2 < 10000)

/-- Send a flooded frame on every UP port except one, and remember it (07 R375). -/
def floodOn (s : State) (k : MKind) (subject term value : Nat) (f : Frame) (except : Option Port) : State :=
  let s := s.onFab fun b => { b with
    flooded := (b.flooded.filter fun r => decide (s.time.clk - r.2.2.2.2 < 10000)) ++ [(mkindCode k, subject, term, value, s.time.clk)] }
  (allPorts.filter fun p => linkUp s p && decide (some p ≠ except)).foldl (fun s p => sendOn s p f) s

/-- Flood a MEMBERSHIP frame of this node's own. -/
def flood (s : State) (k : MKind) (subject term value : Nat) : State :=
  floodOn s k subject term value { src := nodeAddr s, flood := true, body := member s k subject term value } none

/-- Flood on a frame that arrived, unless it is a repeat. -/
def floodAgain (s : State) (k : MKind) (f : MFrame) : State :=
  if f.flood && !isRepeat s k f.subject f.term f.value then
    floodOn s k f.subject f.term f.value
      { src := f.src, flood := true, hops := f.hops + 1, body := .membership k f.epoch f.subject f.term f.value f.unit } (some f.port)
  else s

/-- Record a term this node sets or adopts for itself or its twin, in the hot set before any frame carries it (07 R377, 12 R679); never a lower
one (R394). -/
def recordTerm (s : State) (home term : Nat) : State :=
  if home = nodeAddr s then
    let s := s.onFab fun b => { b with ownTerm := max b.ownTerm term }
    hotPut s 8 (BitVec.ofNat 64 s.fab.ownTerm)
  else if hasTwin s && home == twinAddr s then
    let s := s.onFab fun b => { b with twinTerm := max b.twinTerm term }
    hotPut s 9 (BitVec.ofNat 64 s.fab.twinTerm)
  else s

/-- Is a term news about a home: higher than the one in the view, or equal to one that this node only recorded, which may be that of an abandoned
attempt (07 R376, R394)? -/
def isNews (s : State) (home term : Nat) : Bool :=
  decide ((viewOf s home).term < term) || ((viewOf s home).term == term && s.fab.fromRecord.contains home)

/-- Adopt a home's term with the authority and membership it carries, if it is news (07 R376). -/
def adopt (s : State) (home term : Nat) (f : HomeView → HomeView) : State :=
  if isNews s home term then
    let s := s.onFab fun b => { b with fromRecord := b.fromRecord.filter (· != home) }
    irqMain (recordTerm (onView s home fun v => { f v with term := term }) home term) 14
  else s

/-! ### Authority (05 R227, 07 R393-R398) -/

/-- Does this node decide for a home's serials (05 R227)? -/
def decidesFor (s : State) (home : Nat) : Bool :=
  (home == nodeAddr s && s.fab.ownAuth) || (hasTwin s && home == twinAddr s && s.fab.twinAuth)

/-- Is the twin counted for durability (06 R309, R312): DEV_STATUS.twin_member? -/
def twinCounts (s : State) : Bool := hasTwin s && s.fab.twinMember

/-- Are groups sent to the twin: it is a member, its shadow complete or being made so (06 R310, 07 R400 step 1)? -/
def mirrors (s : State) : Bool := hasTwin s && isMember s (twinAddr s)

/-- Does this node hear an adjacent node (07 R388)? -/
def hears (s : State) (n : Nat) : Bool := tget false s.fab.heard n

/-- May the home apply a new state operation as far as its twin is concerned (06 R315, 07 R395)? It may not while a twin that counts for
durability is silent and not yet excluded. -/
def notIsolated (s : State) : Bool := !twinCounts s || hears s (twinAddr s)

/-- Pages in use of the two ledgers (06 R279). -/
def pagesInUse (s : State) : Nat := (s.led.ceil + 16383) / 16384 + (s.led.twinCeil + 16383) / 16384

/-- The own pages in use and half of the slots free now (06 R282). -/
def halfFree (s : State) : Nat := (s.led.ceil + 16383) / 16384 + (2 ^ 26 - pagesInUse s) / 2

/-- The twin stops counting towards durability (06 R312): later leases stay within half of the slots free at that moment (R282). -/
def dropTwin (s : State) : State :=
  s.when s.fab.twinMember fun s =>
    let s := s.onFab fun b => { b with twinMember := false, twinShadowOk := false }
    irqMain (s.onLed fun l => { l with growTo := some (halfFree s) }) 14

/-- The last group of a home's mirrored stream received in sequence: written or being written. -/
def lastMirrored (s : State) (own : Bool) : Nat :=
  let home := if own then nodeAddr s else twinAddr s
  (s.led.groups.filter fun g => g.source == 1 && g.home == home && !g.dead).foldl (fun m g => max m g.seq) (if own then s.led.ownEnd else s.led.mirEnd)

/-- Take the twin's authority (07 R393, R396, R397): the home's term becomes `term`, recorded and flooded as TAKEOVER, and the home is excluded
as this node's twin. -/
def takeAuthority (s : State) (term : Nat) : State :=
  let home := twinAddr s
  let s := recordTerm s home term
  let s := onView s home fun v => { v with term := term, byTwin := true, member := false, twinMember := true }
  let s := onView s (nodeAddr s) fun v => { v with twinMember := false }
  let s := dropTwin s
  let s := s.onFab fun b => { b with twinAuth := true, collT := none, collE := none, withdrawWait := none }
  let last := lastMirrored s false
  let s := s.onLed fun l => { l with nextAuth := last + 1, deciding := true }
  let s := irqMain (cause s 4) 14
  flood s .takeover home term last

/-- Exclude the twin (07 R395): the home's own term becomes `term`, recorded and flooded as EXCLUDE. -/
def excludeTwin (s : State) (term : Nat) : State :=
  let me := nodeAddr s
  let s := recordTerm s me term
  let s := onView s me fun v => { v with term := term, byTwin := false, twinMember := false }
  let s := onView s (twinAddr s) fun v => { v with member := false }
  let s := dropTwin s
  flood (s.onFab fun b => { b with collE := none }) .exclude me term 0

/-- Flood WITHDRAW naming the last durable own group (07 R397, 13 R710). -/
def withdraw (s : State) : State :=
  let s := onView (s.onFab fun b => { b with withdrawn := true }) (nodeAddr s) fun v => { v with member := false }
  flood s .withdraw (nodeAddr s) (viewOf s (nodeAddr s)).term s.led.ownEnd

/-! ### Links (07 R350-R361) -/

/-- A link goes DOWN: its replay buffer is discarded and counted, its keys are zeroed, and routing avoids it (07 R360). -/
def linkDown (s : State) (p : Port) : State :=
  let was := linkUp s p
  let s := onPort s p fun l => let l := freshPort s.time.clk l; { l with
    link := .down, rekeying := false, dropped := l.dropped + l.replay.length + l.waiting.length, replay := [], waiting := [], linkKeys := [], txKey := []
    rxKey := [], nextNonce := [], rxSwitch := none, lastRx := none, locked := false, gcmFails := [], helloOk := false
    retraining := false, txSeq := 0, rxSeq := 0, downAt := if was then l.downAt ++ [s.time.clk] else l.downAt }
  let s := s.when was fun s => irqMain s 14
  -- more than 10 times in one hour is posted against the port (R415)
  s.when (was && decide ((portSt s p).downAt.length > 10)) fun s => observe s (portUnit p) .retired 0 0x04

end Sys2Proof.Machine
end

