-- ==== Sys2Proof/Machine/Ledger.lean ====
section
/-! DEFINITION. Requests on their way out of the lanes, and the ledger engine (06): entries, the page cache, groups and their durability,
leases, the assignment of serials and the state decision of verdicts (05 R252-R266). -/

namespace Sys2Proof.Machine

/-! ### Requests -/

def reqKey (lane ctx : Nat) : Nat := lane * 64 + ctx
def keyOf (r : Req) : Nat := reqKey r.lane r.ctx

/-- The request in a context, if one is in use. -/
def getReq (s : State) (k : Nat) : Option Req := assoc k s.lane.reqs

/-- Store a request in its context. -/
def putReq (s : State) (r : Req) : State := s.onLane fun b => { b with reqs := tput {} b.reqs (keyOf r) r }

/-- Run a step on a request that stands in a given stage; in any other stage the event cannot apply. -/
def inStage (s : State) (lane ctx : Nat) (st : Stage) (f : Req → State) : State :=
  match getReq s (reqKey lane ctx) with
  | some r => if r.stage = st then f r else s
  | none => s

/-- A request that has gone. -/
def dropReq (s : State) (r : Req) : State :=
  s.onLane fun b => { b with
    reqs := tput {} b.reqs (keyOf r) {}
    leaseWait := b.leaseWait.filter (· != keyOf r)
    drawWait := b.drawWait.filter (· != keyOf r)
    pqQueue := b.pqQueue.filter fun p => reqKey p.1 p.2 != keyOf r
    lanes := if r.isMint && mPq r.m then tupd {} b.lanes r.lane fun x => { x with pqReserved := x.pqReserved - 1 } else b.lanes }

/-- A lane context for a forwarded verdict (05 R234, R863). -/
def startFwd (s : State) (f : FwdFrame) (lane ctx since : Nat) : State :=
  putReq (ungate s lane)
    { lane := lane, ctx := ctx, fetched := since, stage := .intake
      v := { gate := f.gate, credLen := f.cred.length, cred := f.cred, relayedIn := f.relayed,
             fwdIn := some { src := f.src, lane := f.lane, ctx := f.ctx, seq := f.seq, carry := f.carry } } }

/-- Free a context (04 R214): the first forward that waits for one takes it (05 R863). -/
def freeReq (s : State) (r : Req) : State :=
  let s := dropReq s r
  match s.lane.ctxWait with
  | w :: rest =>
    if unitTakes s r.lane then startFwd (s.onLane fun b => { b with ctxWait := rest }) w.f r.lane r.ctx w.since else s
  | [] => s

/-- The decider field (03 R147): this node and the lane. -/
def decider (s : State) (lane : Nat) : BitVec 16 := BitVec.ofNat 16 (lane % 16 * 4096 + nodeAddr s % 4096)

def serialField (r : Req) : BitVec 64 := if r.hasSerial then r.serial.zeroExtend 64 else 0

/-- Complete a mint (04 R169, R216): on a failure nothing is written and the working copies go with the context (R186). -/
def endMint (s : State) (r : Req) (st : Status) (detail : BitVec 16 := 0) (length : Nat := 0) (outs : List HostWrite := []) : State :=
  let c : Comp := { compOf r st detail with serial := serialField r, decider := decider s r.lane, length := BitVec.ofNat 32 length }
  freeReq (complete s r.sq r.dropped r.fetched c outs) r

/-- Verdict codes (05 R267). -/
def vcode : VCode → Nat
  | .admitted => 0x10 | .admitReentry => 0x11 | .exitRecorded => 0x12 | .checkValid => 0x13 | .refuseSpent => 0x20 | .refuseInside => 0x21
  | .refuseNotIssued => 0x22 | .refuseVoid => 0x23 | .refuseEarly => 0x24 | .refuseExpired => 0x25 | .refuseZone => 0x26
  | .refuseForged => 0x27 | .refuseEventClosed => 0x28 | .refusePassback => 0x29 | .refuseNotExit => 0x2A | .undecided => 0x3F

/-- Bits [3:1] of info (03 R147): twin authority, cold passback, signature path. -/
def infoOf (v : VerdictSt) : Byte :=
  BitVec.ofNat 8 ((if v.twinAuth then 2 else 0) + (if v.cold then 4 else 0) + (if v.sigPath then 8 else 0))

/-- Complete a verdict: to the ring of its entry, or as the reply to its forward (05 R236, 07 R379). The verdict is UNDECIDED unless the
status is DONE (03 R148). -/
def endVerdict (s : State) (r : Req) (st : Status) (v : VCode := .undecided) (detail : BitVec 16 := 0) : State :=
  let code := BitVec.ofNat 8 (if st = .done then vcode v else 0x3F)
  match r.v.fwdIn with
  | some f =>
    freeReq (sendTo s f.src (.verdictReply f.lane f.ctx (BitVec.ofNat 8 (statusCode st)) code f.seq (infoOf r.v) detail
      (decider s r.lane) (if r.hasSerial then r.serial else 0))) r
  | none =>
    let c : Comp := { compOf r st detail with
      verdict := code, info := infoOf r.v, serial := serialField r, decider := decider s r.lane }
    freeReq (complete s r.sq r.dropped r.fetched c []) r

/-- Complete a request of either kind with a status that decides nothing. -/
def endReq (s : State) (r : Req) (st : Status) (detail : BitVec 16 := 0) : State :=
  if r.isMint then endMint s r st detail else endVerdict s r st .undecided detail

/-- Answer a forward that is not decided here (05 R233, R235, R863). -/
def replyFwd (s : State) (f : FwdFrame) (st : Status) : State :=
  let serial : BitVec 56 := if f.cred.length ≥ 9 then BitVec.ofNat 56 (beAt f.cred 2 7) else 0
  sendTo s f.src (.verdictReply f.lane f.ctx (BitVec.ofNat 8 (statusCode st)) 0x3F f.seq 0 0 (decider s 0) serial)

/-! ### The CONTROL request in flight (03 R132) -/

/-- Complete the CONTROL entry in flight: response bytes to its response buffer first; owner code learns of it afterwards (09 R520). The decider field
is this node with lane 0: the spec gives none for a CONTROL completion. DESIGN CHOICE, log entry 107. -/
def endCtl (s : State) (st : Status) (detail : BitVec 16 := 0) (resp : Bytes := []) : State :=
  match s.hq.ctlFetched with
  | none => s
  | some e =>
    let s := s.onHq fun h => { h with ctlFetched := none, ctlHeld := false, ctlWait := if h.ctlWait.viaLed then h.ctlWait else {} }
    let outs := if st = .done ∧ resp ≠ [] then [{ addr := leAt e.bytes 24 8, bytes := resp : HostWrite }] else []
    let s := complete s 0 e.dropped e.fetched
      { tag := BitVec.ofNat 16 (leAt e.bytes 0 2), head := e.head, status := st, detail := detail,
        decider := decider s 0, length := BitVec.ofNat 32 resp.length } outs
    hookAfter s (leAt e.bytes 2 1) st

/-- End the ledger or fabric command that waits: through LED_STATUS or FAB_STATUS when it came by a window, else as the CONTROL completion
(09 R489). -/
def endWait (s : State) (st : Status) (detail : BitVec 16 := 0) (resp : Bytes := []) : State :=
  if s.hq.ctlWait.viaLed then
    if s.hq.ctlWait.kind = .handBack then
      irqMain ((s.onHq fun h => { h with ctlWait := {} }).onFab fun b => { b with busy := false, done := true, code := st }) 14
    else
      irqMain ((s.onHq fun h => { h with ctlWait := {} }).onLed fun l => { l with
        ledBusy := false, ledDone := true, ledCode := st, ledResult := BitVec.ofNat 10 (leAt resp 8 1 + 256 * leAt resp 9 1) }) 13
  else endCtl s st detail resp

/-! ### Entries, the void index, pages (06 R274-R288, R319) -/

/-- Is a local serial in a list of ranges? -/
def inRanges (l : List (Nat × Nat)) (x : Nat) : Bool := l.any fun r => decide (r.1 ≤ x) && decide (x ≤ r.2)

/-- The entry as stored, and the void index, of the own (`true`) or shadow ledger. -/
def rawEntry (s : State) (own : Bool) (x : Nat) : LState := tget .unissued (if own then s.led.own else s.led.shadow) x
def voidIdx (s : State) (own : Bool) : List (Nat × Nat) := if own then s.led.voidOwn else s.led.voidShadow

/-- The entry as everyone sees it: LIVE or INSIDE in a void range is CLOSED (06 R319). -/
def entry (s : State) (own : Bool) (x : Nat) : LState :=
  match rawEntry s own x with
  | .live => if inRanges (voidIdx s own) x then .closed else .live
  | .inside => if inRanges (voidIdx s own) x then .closed else .inside
  | e => e

/-- Slot of the ledger region that holds a serial's page (06 R275, R278). -/
def slotFor (own : Bool) (x : Nat) : Nat := if own then x / 16384 else 2 ^ 26 - 1 - x / 16384

/-- Pages in use of a ledger whose ceiling is known (06 R279). -/
def pagesOf (ceil : Nat) : Nat := (ceil + 16383) / 16384

/-- Is a page among the pages in use of the own (`true`) or shadow ledger (06 R279)? -/
def pageInUse (s : State) (own : Bool) (page : Nat) : Bool := decide (page < pagesOf (if own then s.led.ceil else s.led.twinCeil))

/-- Whose page a slot of the ledger region holds, and which (06 R278): that of the ledger that uses the slot, which by R279 is one at most; a slot
in use by neither is counted by the half it lies in. -/
def slotOwner (s : State) (slot : Nat) : Bool × Nat :=
  if pageInUse s true slot then (true, slot)
  else if pageInUse s false (2 ^ 26 - 1 - slot) then (false, 2 ^ 26 - 1 - slot)
  else if slot < 2 ^ 25 then (true, slot) else (false, 2 ^ 26 - 1 - slot)

/-- The entries of one page, by position (06 R275). -/
def pageEntries (s : State) (own : Bool) (page : Nat) : Tbl LState :=
  ((if own then s.led.own else s.led.shadow).filter fun p => decide (p.1 / 16384 = page)).map fun p => (p.1 % 16384, p.2)

def pageSt (s : State) (slot : Nat) : PageSt := tget {} s.led.pages slot
def onPage (s : State) (slot : Nat) (f : PageSt → PageSt) : State := s.onLed fun l => { l with pages := tupd {} l.pages slot f }

/-- Is a slot's page being rebuilt into the headroom (06 R338): dirty or pinned, and in the pseudo-channel under rebuild? Which pages lie in
a pseudo-channel is log entry 10. -/
def beingRebuilt (s : State) (slot : Nat) : Bool :=
  ((pageSt s slot).dirty || (pageSt s slot).unwritten || (pageSt s slot).pinned) && s.hbm.rebuilding.contains (0x10 + slot % 16)

/-- Is the page of a serial at hand: cached, or a page of UNISSUED entries, whose version is 0 or which lies outside the pages in use (06 R285)? A
slot being rebuilt into the headroom is not (06 R338). -/
def pageAtHand (s : State) (own : Bool) (x : Nat) : Bool :=
  let slot := slotFor own x
  ((pageSt s slot).cached || tget 0 s.led.versions slot == 0 || !pageInUse s own (x / 16384)) && !beingRebuilt s slot

/-- May a page be evicted: neither dirty nor pinned, and no change of it waits for durability (06 R286)? -/
def evictable (s : State) (slot : Nat) (p : PageSt) : Bool :=
  p.cached && !p.dirty && !p.unwritten && !p.pinned
    && !(s.led.openGroup.any fun r => slotFor true r.serial == slot) && !(s.led.openAuth.any fun r => slotFor false r.serial == slot)
    && !(s.led.groups.any fun g => !g.durable && !g.dead && g.recs.any fun r => slotFor (g.home == nodeAddr s) r.serial == slot)

/-- Make room in a full cache by evicting the page used least recently (06 R286). -/
def evict (s : State) : State :=
  if (s.led.pages.filter fun p => p.2.cached).length < s.hbm.cachePages then s
  else
    match (s.led.pages.filter fun p => evictable s p.1 p.2).foldl (fun (acc : Option (Nat × PageSt)) p => match acc with
        | none => some p
        | some q => if p.2.used < q.2.used then some p else some q) none with
    | some p => onPage s p.1 fun x => { x with cached := false }
    | none => s

/-- A verified page enters the cache (06 R284). -/
def cachePage (s : State) (slot : Nat) : State :=
  onPage (evict s) slot fun p => { p with cached := true, reading := false, second := false, fromTwin := false, used := s.time.clk }

/-- Set an entry: the page is dirty from then on (06 R308 step 1). A page enters the cache by this only as a zero page (R284, R285). -/
def setEntry (s : State) (own : Bool) (x : Nat) (e : LState) : State :=
  let s := s.onLed fun l => if own then { l with own := tput .unissued l.own x e } else { l with shadow := tput .unissued l.shadow x e }
  onPage s (slotFor own x) fun p => { p with dirty := true, cached := p.cached || tget 0 s.led.versions (slotFor own x) == 0, used := s.time.clk }

/-- The state an entry has after a journal record (06 R276, R277); VOID and ROLL records are applied elsewhere. -/
def stateAfter : JKind → Option LState
  | .mint => some .live
  | .close => some .closed
  | .enter => some .inside
  | .exit => some .live
  | _ => none

/-- Insert a range, merging overlapping and adjacent ones (06, The void index). -/
def insertRange : List (Nat × Nat) → Nat → Nat → List (Nat × Nat)
  | [], a, b => [(a, b)]
  | (x, y) :: t, a, b =>
    if b + 1 < x then (a, b) :: (x, y) :: t
    else if y + 1 < a then (x, y) :: insertRange t a b
    else insertRange t (min x a) (max y b)

/-! ### Groups (06 R300-R310) -/

/-- The drives of the serving set (06 R309). -/
def servingDrives (s : State) : List Nat := [0, 1].filter fun d => (tget {} s.drives d).serving

/-- The drives that groups and checkpoints are written to: the serving set and a drive being re-silvered (06 R336 step 2). -/
def writeDrives (s : State) : List Nat := [0, 1].filter fun d => (tget {} s.drives d).serving || decide ((tget {} s.drives d).resilver ≥ 2)

/-- The magic of a journal block (06 R301). -/
def journalMagic : Bytes := ascii "SXJB"

/-- Bytes 0 to 4,063 of a journal block (06 R301). -/
def blockBytes (b : JBlock) : Bytes :=
  b.magic ++ [1] ++ leBytes 1 (b.source.toNat * 16 + b.epoch.toNat) ++ leBytes 2 b.recs.length ++ leBytes 8 b.seq ++ leBytes 8 b.group
    ++ leBytes 8 b.tFirst ++ fit 4032 (b.recs.flatMap recBytes)

/-- The chain tag of a block after its predecessor's (06 R302). -/
def chainTag (s : State) (prev : BitVec 128) (b : JBlock) : BitVec 128 :=
  Config.aesCmac (journalKey s) (bvBytes prev ++ blockBytes b)

/-- The 4,096 bytes of a journal block (06 R301): the tail holds the chain tag, the copy of the sequence and the home. -/
def blockImage (b : JBlock) : Bytes := blockBytes b ++ bvBytes b.chain ++ leBytes 8 b.seq2 ++ leBytes 2 b.home ++ zeros 6

/-- The earliest t of records. -/
def firstT (rs : List JRec) : Nat := match rs with | [] => 0 | r :: t => t.foldl (fun m x => min m x.t) r.t

/-- An NVMe command goes to drives (06 R295). -/
def nvme (s : State) (ds : List Nat) (c : NvmeCmd) : State := s.onOut fun o => { o with nvme := o.nvme ++ ds.map fun d => (d, c) }

/-- LBAs of namespace 1 (06 R296, R300). -/
def journalLba (q : Nat) : Nat := 798720 + q % 2 ^ 23
def ckptLba (c : Nat) : Nat := 4096 + 4096 * c
def metaLba (c : Nat) : Nat := 12288 + 393216 * c
def pageLba (slot : Nat) : Nat := 9187328 + slot

/-- The block of a group, as it stands on the drives (06 R301). -/
def blockOf (g : Group) : JBlock :=
  { magic := journalMagic, seq := g.block, seq2 := g.block, home := g.home, source := g.source, epoch := g.epoch, group := g.seq
    tFirst := firstT g.recs, recs := g.recs, chain := g.chain }

/-- Seal a group into the next journal block and submit its write to the drives (06 R295, R301, R308 steps 2 and 3): it is kept until it is durable and
acknowledged. A checkpoint is due at 2^20 records (R324), and at 2^22 nothing new is applied (R325). -/
def sealBlock (s : State) (g : Group) : State :=
  let g := { g with block := s.led.blockSeq }
  let tag := chainTag s s.led.chain (blockOf g)
  let s := nvme s (writeDrives s) (.write (journalLba s.led.blockSeq) (blockImage (blockOf { g with chain := tag })))
  let s := s.onLed fun l => { l with
    groups := l.groups ++ [{ g with chain := tag }]
    ckptDue := l.ckptDue || decide (l.sinceCkpt + g.recs.length ≥ 2 ^ 20)
    chain := tag
    blockSeq := l.blockSeq + 1
    sinceCkpt := l.sinceCkpt + g.recs.length, sincePos := l.sincePos + g.recs.length
    fullStop := l.fullStop || decide (l.sincePos + g.recs.length ≥ 2 ^ 22) }
  count s 0x4610 g.recs.length

/-- Close the open group of own operations (`true`), or of those for the twin's serials under its authority (07 R384): sealed, written to the
drives (the writes end with JOURNAL_BLOCK_WRITE_DONE) and sent to the twin while it is a member (06 R308 steps 2 and 3, R310). -/
def closeGroup (s : State) (own : Bool) : State :=
  let recs := if own then s.led.openGroup else s.led.openAuth
  if recs.isEmpty then s
  else
    let home := if own then nodeAddr s else twinAddr s
    let seq := if own then s.led.nextGroup else s.led.nextAuth
    let g : Group := { seq := seq, home := home, source := if own then 0 else 2, epoch := s.led.epoch, recs := recs }
    let s := s.onLed fun l => if own then { l with openGroup := [], nextGroup := l.nextGroup + 1 } else { l with openAuth := [], nextAuth := l.nextAuth + 1 }
    let s := sealBlock s g
    s.when (mirrors s) fun s => sendTo s (twinAddr s) (.mirrorGroup s.led.epoch seq (firstT recs) recs)

/-- The sequence the open group will have. -/
def openSeq (s : State) (own : Bool) : Nat := if own then s.led.nextGroup else s.led.nextAuth
def openRecs (s : State) (own : Bool) : List JRec := if own then s.led.openGroup else s.led.openAuth

/-- Add records to the open group; a group of 252 closes early, and a VOID pair that would not fit closes it first (06, Groups). The answer is
the sequence of the group they joined. -/
def joinGroup (s : State) (own : Bool) (rs : List JRec) : State × Nat :=
  let s := if (openRecs s own).length + rs.length > 252 then closeGroup s own else s
  let seq := openSeq s own
  let s := s.onLed fun l => if own then { l with openGroup := l.openGroup ++ rs } else { l with openAuth := l.openAuth ++ rs }
  (if (openRecs s own).length ≥ 252 then closeGroup s own else s, seq)

/-- Is a group written on every drive of a serving set that is not empty? -/
def onServing (s : State) (g : Group) : Bool :=
  !(servingDrives s).isEmpty && (servingDrives s).all fun d => g.onDrives.contains d

/-- The durability policy for one group (06 R309). -/
def policyMet (s : State) (g : Group) : Bool :=
  match s.par.policy.toNat with
  | 0 => onServing s g && (g.acked || !twinCounts s)
  | 1 => onServing s g
  | 2 => if twinCounts s then g.acked else onServing s g
  | _ => onServing s g && (g.acked || !twinCounts s)

/-- Mark the groups that are durable, oldest first: a group is so once its policy is met and every earlier group of its home is (06 R305).
`blocked` holds the homes with an earlier group that is not. A MIRROR group is durable at its home already; here it counts once it stands on the serving
drives, which a node that took the authority needs before it releases anything that rests on it (05 R255). -/
def markDurable (s : State) : List Nat → List Group → List Group
  | _blocked, [] => []
  | blocked, g :: t =>
    if g.dead then g :: markDurable s blocked t
    else if g.source = 1 then g :: markDurable s (if onServing s g then blocked else g.home :: blocked) t
    else if !blocked.contains g.home && (g.durable || policyMet s g) then { g with durable := true } :: markDurable s blocked t
    else g :: markDurable s (g.home :: blocked) t

/-- Is a group held here not durable yet: one of this node's by the policy, a MIRROR group while it is not on every serving drive? -/
def waiting (s : State) (g : Group) : Bool :=
  !g.dead && if g.source = 1 then !onServing s g else !g.durable

/-- A group whose ledger is discarded (07 R399): nothing waits for it any more, and its block is still written, so that the journal has no gap. -/
def killGroups (s : State) (p : Group → Bool) : State :=
  s.onLed fun l => { l with groups := l.groups.map fun g => if p g then { g with dead := true } else g }

/-- Is group `seq` of a home durable: no group of the home up to it is still waiting, and it has been closed? -/
def groupDurable (s : State) (home seq : Nat) : Bool :=
  decide (seq < openSeq s (home == nodeAddr s)) && !(s.led.groups.any fun g => g.home == home && waiting s g && decide (g.seq ≤ seq))

/-! ### Which operations may be applied -/

/-- May the engine apply a new state operation: no stop for tamper or pause (13 R706), no stop for the journal's length (06 R325), no roll
awaiting durability (R343), a twin that is heard or excluded (R315)? -/
def mayApply (s : State) : Bool := !s.led.stopApply && !s.led.fullStop && s.led.rolling.isNone && notIsolated s && unitActive s 0x38

/-- Does a journal record, or a VOID pair of the list, concern a serial? -/
def touches (rs : List JRec) (x : Nat) : Bool :=
  rs.any (fun r => stateAfter r.kind != none && r.serial == x)
    || (rs.zip (rs.drop 1)).any fun p => p.1.kind == .voidFirst && p.2.kind == .voidLast && decide (p.1.serial ≤ x) && decide (x ≤ p.2.serial)

/-- The latest group of a home that holds a change of a serial and is not durable yet (05 R255). -/
def waitsOn (s : State) (home x : Nat) : Option Nat :=
  if touches (openRecs s (home == nodeAddr s)) x then some (openSeq s (home == nodeAddr s))
  else ((s.led.groups.filter fun g => g.home == home && waiting s g && touches g.recs x).map (·.seq)).getLast?

/-! ### Passback (05 R258-R266) -/

/-- Add an exit record; a full table gives up the record with the earliest e, and the cover instant rises past it (05 R260). A rebuilt record
never replaces one with a later e (R265). -/
def addExit (s : State) (serial e : Nat) : State :=
  let full := decide (s.led.exits.length ≥ 64 * 2 ^ 20) && (tget none s.led.exits serial).isNone
  let s := if full then
    match s.led.exits.foldl (fun (acc : Option (Nat × Nat)) p => match p.2, acc with
        | some e, none => some (p.1, e)
        | some e, some q => if e < q.2 then some (p.1, e) else some q
        | none, a => a) none with
    | some (k, e0) => s.onLed fun l => { l with
        exits := tput none l.exits k none, cover := tupd 0 l.cover (serialHome k) fun c => max c (e0 + 1) }
    | none => s
    else s
  s.onLed fun l => { l with exits := tput none l.exits serial (some e) }

/-- The outcome of the passback decision. -/
inductive Pass where
  | admitted | reentry | refuse | admitCold | refuseCold
  deriving DecidableEq, Repr

/-- The passback decision (05 R261). -/
def passback (s : State) (serial t hold : Nat) (coldRefuse : Bool) : Pass :=
  match tget none s.led.exits serial with
  | some e =>
    if hold = 0 then .reentry
    else if e > t ∨ t - e < hold then .refuse
    else .reentry
  | none =>
    if hold = 0 then .admitted
    else if t ≥ hold + tget 0 s.led.cover (serialHome serial) then .admitted
    else if coldRefuse then .refuseCold
    else .admitCold

/-! ### The state decision (05 R252-R257) -/

/-- An outcome of the state decision: the verdict, the entry's new state if it changes, and the cold mark; `none` is a damaged ledger (R254). -/
structure Decision where
  code : VCode := .undecided
  goal : Option LState := none
  cold : Bool := false
  deriving DecidableEq, Repr

/-- What the passback decision makes of an admission. -/
def admitBy (p : Pass) (enter : Bool) : Decision :=
  let goal := if enter then some LState.inside else none
  match p with
  | .admitted => { code := if enter then .admitted else .checkValid, goal := goal }
  | .admitCold => { code := if enter then .admitted else .checkValid, goal := goal, cold := true }
  | .reentry => { code := if enter then .admitReentry else .checkValid, goal := goal }
  | .refuse => { code := .refusePassback }
  | .refuseCold => { code := .refusePassback, cold := true }

/-- The table of R253, by direction (0 ENTRY, 1 EXIT, 2 CHECK_ONLY), state, void membership and class. -/
def decide253 (dir : Nat) (st : LState) (void reentry : Bool) (p : Pass) : Option Decision :=
  match st with
  | .unissued => some { code := .refuseNotIssued }
  | .closed => some { code := if void then .refuseVoid else .refuseSpent }
  | .live =>
    if dir = 1 then some { code := .refuseNotExit }
    else if reentry then some (admitBy p (dir == 0))
    else if dir = 0 then some { code := .admitted, goal := some .closed }
    else some { code := .checkValid }
  | .inside =>
    if !reentry then none
    else if dir = 1 then some { code := .exitRecorded, goal := some .live }
    else some { code := .refuseInside }

/-- The journal record type of a verdict's change (06 R276). -/
def recKind (st : LState) (from_ : LState) : JKind :=
  match st, from_ with
  | .closed, _ => .close
  | .inside, _ => .enter
  | .live, .inside => .exit
  | _, _ => .pad

/-- LEDGER for a verdict whose page is at hand: the decision and its change in one step (05 R252, R253), the group it joins, and what it waits
for (R255). -/
def applyVerdict (s : State) (r : Req) : State :=
  let home := serialHome r.serial.toNat
  let own := home == nodeAddr s
  let x := serialLocal r.serial.toNat
  let st := entry s own x
  let dir := r.v.gate.toNat % 4
  let r := { r with v := { r.v with twinAuth := !own } }
  match decide253 dir st (inRanges (voidIdx s own) x) r.v.reentry (passback s r.serial.toNat r.v.t r.v.hold r.v.coldRefuse) with
  | none => observe (endVerdict s r .internalFault) 0x38 .failed 0 0x09
  | some d =>
    let r := { r with applied := true, v := { r.v with outcome := some d.code, cold := d.cold } }
    match d.goal with
    | some goal =>
      let s := setEntry s own x goal
      let s := if goal = .live then addExit s r.serial.toNat r.v.t else s
      let g := joinGroup s own [{ kind := recKind goal st, lane := r.lane, serial := x, t := r.v.t }]
      putReq g.1 { r with stage := .durable, group := g.2, groupHome := home }
    | none =>
      match waitsOn s home x with
      | some g => putReq s { r with stage := .durable, group := g, groupHome := home }
      | none => endVerdict s r .done d.code (if d.cold && d.code == .refusePassback then detPassbackCold else 0)

/-- The serving drive whose turn it is, and the other one (06 R287). -/
def turnDrive (s : State) : List Nat := (servingDrives s).filter fun d => (servingDrives s).length == 1 || d == s.led.driveTurn
def otherDrive (s : State) : List Nat := (servingDrives s).filter fun d => !(turnDrive s).contains d

/-- A read of a missing page begins, from a serving drive in turn (06 R287). -/
def startRead (s : State) (slot : Nat) : State :=
  let p := pageSt s slot
  if p.reading || p.fromTwin then s
  else
    let s := nvme s (turnDrive s) (.read (pageLba slot) 1)
    count ((onPage s slot fun p => { p with reading := true }).onLed fun l => { l with driveTurn := 1 - l.driveTurn }) 0x4608

/-- Was a verdict handed over before another that names the same serial: the earlier entry of the same ring (03 R158), or the earlier forward of
the same origin, which was sent in that order? -/
def before (q r : Req) : Bool :=
  !q.isMint && !r.isMint && q.serial == r.serial && q.hasSerial
    && match q.v.fwdIn, r.v.fwdIn with
      | none, none => q.sq == r.sq && decide (q.order < r.order)
      | some a, some b => a.src == b.src && decide ((b.seq - a.seq).toNat < 2 ^ 31) && a.seq != b.seq
      | _, _ => false

/-- Does an earlier verdict of the same submitter for the same serial stand on its way to LEDGER (03 R158; log entry 112)? -/
def behind (s : State) (r : Req) : Bool :=
  s.lane.reqs.any fun p => before p.2 r && [.check, .checkHold, .clock, .rule, .ledger, .pageWait].contains p.2.stage

/-- A verdict reaches LEDGER: it stands behind an earlier verdict of its submitter for the same serial (03 R158); it waits for its page, and while no
operation may be applied it stands unapplied (06 R287, R315, R325, R343). The cache counters (03 R164) take a hit at each verdict that finds its page at
hand, one that waited for it included, and a miss at each read begun. DESIGN CHOICE, log entry 108. -/
def verdictAtLedger (s : State) (r : Req) : State :=
  let home := serialHome r.serial.toNat
  let own := home == nodeAddr s
  let slot := slotFor own (serialLocal r.serial.toNat)
  if serialEpoch r.serial.toNat ≠ s.led.epoch then endVerdict s r .done .refuseExpired
  else if !mayApply s || !decidesFor s home || (!own && !s.led.deciding) || behind s r then putReq s { r with stage := .ledger }
  else if beingRebuilt s slot then putReq s { r with stage := .pageWait }
  else if !pageAtHand s own (serialLocal r.serial.toNat) then startRead (putReq s { r with stage := .pageWait }) slot
  else applyVerdict (count (onPage s slot fun p => { p with used := s.time.clk }) 0x4600) r

/-! ### Leases and assignment (02 R51-R56, 04 R193-R202) -/

/-- The lease to open next: one whose opening was given up, unless a higher ceiling is known since (04 R196), else the one that follows the highest
ceiling known for this address (02 R54, R55, 07 R405). -/
def nextLease (s : State) : Nat :=
  let top := max s.led.ceil s.led.ceilAtTwin
  match s.led.reopen with
  | some n => if top ≤ (n + 1) * 65536 then n else (top + 65535) / 65536
  | none => (top + 65535) / 65536

/-- Would the four pages of a lease keep R279 with the twin's ceiling as mirrored, and R282 while the twin is no member? -/
def leaseFits (s : State) (n : Nat) : Bool :=
  decide (4 * n + 4 + (s.led.twinCeil + 16383) / 16384 ≤ 2 ^ 26)
    && (!hasTwin s || s.fab.twinMember || match s.led.growTo with
        | some p => decide (4 * n + 4 ≤ p)
        | none => true)

/-- The record of a ceiling (12 R656): epoch, rsv, ceiling. -/
def ceilPayload (epoch : BitVec 4) (ceil : Nat) : Bytes := leBytes 1 epoch.toNat ++ zeros 7 ++ leBytes 8 ceil

/-- End every mint that waits for a lease (04 R196, 06 R280). -/
def endLeaseWaiters (s : State) (st : Status) : State :=
  let ks := s.lane.leaseWait
  let s := s.onLane fun b => { b with leaseWait := [] }
  ks.foldl (fun s k => match getReq s k with | some r => endMint s r st | none => s) (s.onLed fun l => { l with opening := none })

/-- The ceiling of the lease being opened goes to the twin, once, while the twin is a member (02 R53). -/
def mirrorOpening (s : State) : State :=
  match s.led.opening with
  | some o =>
    s.when (mirrors s && !o.needAck) fun s =>
      sendTo (s.onLed fun l => { l with opening := some { o with needAck := true } }) (twinAddr s) (.leaseMirror s.led.epoch ((o.n + 1) * 65536))
  | none => s

/-- Begin to open the next lease (02 R51-R53): its ceiling goes to the record store, and to the twin while it is a member. -/
def openLease (s : State) : State :=
  let n := nextLease s
  if n ≥ 2 ^ 24 ∨ !leaseFits s n then endLeaseWaiters s .serialsExhausted
  else
    let ceil := (n + 1) * 65536
    let s := s.onLed fun l => { l with opening := some { n := n } }
    mirrorOpening (enqueue s { src := .ledger, record := { part := 1, typ := 0x0104, payload := ceilPayload s.led.epoch ceil } })

/-- Assign the next local serial to a mint (04 R167, R193, R201): the counter advances whatever the entry holds. -/
def assignSerial (s : State) (r : Req) : State :=
  let x := s.led.next
  let r := { r with serial := BitVec.ofNat 56 (serialOf s.led.epoch (nodeAddr s) x), hasSerial := true }
  let s := s.onLed fun l => { l with next := l.next + 1 }
  if entry s true x ≠ .unissued then observe (endMint s r .internalFault) 0x38 .failed 0 0x09
  else
    let s := setEntry s true x .live
    let g := joinGroup s true [{ kind := .mint, lane := r.lane, serial := x, t := r.m.issueUs }]
    putReq g.1 { r with stage := .durable, group := g.2, groupHome := nodeAddr s, applied := true }

/-- A mint reaches LEDGER: a serial of the open lease is assigned, or the mint waits behind the opening of the next one (04 R195, R198). -/
def mintAtLedger (s : State) (r : Req) : State :=
  let inLease := match s.led.lease with | some n => decide (n * 65536 ≤ s.led.next) && decide (s.led.next < (n + 1) * 65536) | none => false
  if !mayApply s || !s.fab.ownAuth then putReq s { r with stage := .ledger }
  else if inLease && s.lane.leaseWait.isEmpty then
    if beingRebuilt s (slotFor true s.led.next) then putReq s { r with stage := .pageWait } else assignSerial s r
  else
    let s := putReq s { r with stage := .leaseWait }
    let s := s.onLane fun b => { b with leaseWait := b.leaseWait ++ [keyOf r] }
    if s.led.opening.isNone then openLease s else s

/-- The pages of a lease are pinned from its opening (04 R199). -/
def pinLease (s : State) (n : Nat) (on : Bool) : State :=
  ((List.range 4).map (4 * n + ·)).foldl (fun s p => onPage s p fun x => { x with pinned := on, cached := x.cached || on }) s

/-- Serve the mints that wait, in arrival order, with the lease just opened; one that finds it used up waits for the next (04 R195). -/
def drainLease (s : State) : State :=
  let ks := s.lane.leaseWait
  let s := s.onLane fun b => { b with leaseWait := [] }
  ks.foldl (fun s k => match getReq s k with | some r => mintAtLedger s r | none => s) s

/-- The open lease is closed: its pages are pinned no more (04 R199). -/
def closeLease (s : State) : State :=
  match s.led.lease with
  | some m => (pinLease s m false).onLed fun l => { l with lease := none }
  | none => s

/-- The opening ends once its ceiling is committed and the twin has acknowledged it or is no member (02 R52, R53, 04 R197). -/
def tryLease (s : State) : State :=
  match s.led.opening with
  | some o =>
    if o.committed && (o.acked || !mirrors s) then
      let s := closeLease s
      drainLease (pinLease (s.onLed fun l => { l with opening := none, reopen := none, lease := some o.n, next := o.n * 65536 }) o.n true)
    else s
  | none => s

/-! ### Page integrity (06 R288-R291) -/

/-- The tag of a page's content at a version (06 R289). -/
def pageTag (s : State) (slot version : Nat) (es : Tbl LState) : BitVec 128 :=
  let epoch := if (slotOwner s slot).1 then s.led.epoch else s.fab.twinEpoch
  Config.aesCmac (pageKey s) (leBytes 4 slot ++ leBytes 1 epoch.toNat ++ leBytes 8 version ++ pageBytes es)

/-- A node over slots whose versions are all 0. -/
def zeroNode (key : Bytes) : Nat → BitVec 128
  | 0 => 0
  | 1 => Config.aesCmac key (zeros 64)
  | n + 2 => Config.aesCmac key ((List.range 8).flatMap fun _ => bvBytes (zeroNode key (n + 1)))

/-- A node of the integrity tree as the device has it (06 R290, R291): levels 1 and 2 are computed from the versions in HBM, levels 3 to 8 are held. -/
def treeNode (s : State) (n i : Nat) : BitVec 128 :=
  let low := fun i => Config.aesCmac (treeKey s) ((List.range 8).flatMap fun j => leBytes 8 (tget 0 s.led.versions (8 * i + j)))
  match n with
  | 0 => 0
  | 1 => low i
  | 2 => Config.aesCmac (treeKey s) ((List.range 8).flatMap fun j => bvBytes (low (8 * i + j)))
  | _ => (tget none s.led.tree (n * 2 ^ 24 + i)).getD (zeroNode (treeKey s) n)

/-- Compute one held node anew from the eight beneath it. -/
def holdNode (s : State) (n i : Nat) : State :=
  let x := Config.aesCmac (treeKey s) ((List.range 8).flatMap fun j => bvBytes (treeNode s (n - 1) (8 * i + j)))
  s.onLed fun l => { l with tree := tput none l.tree (n * 2 ^ 24 + i) (some x) }

/-- The root of the four nodes of level 8 and 64 zero bytes (06 R290). -/
def treeRoot (s : State) : BitVec 128 :=
  Config.aesCmac (treeKey s) (((List.range 4).flatMap fun i => bvBytes (treeNode s 8 i)) ++ zeros 64)

/-- The held nodes above slots whose versions changed, level by level, and the root (06 R291). -/
def retree (s : State) (slots : List Nat) : State :=
  let s := slots.foldl (fun s slot => [3, 4, 5, 6, 7, 8].foldl (fun s n => holdNode s n (slot / 8 ^ n)) s) s
  s.onLed fun l => { l with root := treeRoot s }

/-- The whole tree from the versions, as after a change of the tree key. -/
def rebuildTree (s : State) : State := retree (s.onLed fun l => { l with tree := [] }) (s.led.versions.map Prod.fst)

/-! ### Drive labels (06 R298, R299) -/

/-- Bytes 0 to 31 of a drive label (06 R298). -/
def labelHead (st d : Nat) (unit : BitVec 64) (node seq : Nat) : Bytes :=
  ascii "SXLB" ++ [1] ++ leBytes 1 st ++ leBytes 1 d ++ [0] ++ leBytes 8 unit.toNat ++ leBytes 2 node ++ zeros 6 ++ leBytes 8 seq

/-- The page key at a roll count (10 R535, R536): epochs begin at 0 and each roll adds 1 modulo 16. -/
def pageKeyAt (s : State) (rolls : Nat) : Bytes :=
  kdf (rootOr s) (ascii "SLX48-PAGE") (unitBe s ++ beBytes 1 (rolls % 16) ++ beBytes 4 rolls) 32

/-- Does a label copy verify under the page key? The key of the epoch before is taken too: a roll that stopped half way leaves labels under it. DESIGN
CHOICE, log entry 116. -/
def labelGood (s : State) (b : Bytes) : Bool :=
  decide (b.take 5 = ascii "SXLB" ++ [1])
    && [s.key.rollCount, s.key.rollCount - 1].any fun n => decide (bvBytes (Config.aesCmac (pageKeyAt s n) (b.take 32)) = cut b 32 16)

/-- The label copy that governs: the valid one with the higher label_seq (06 R299). -/
def governing (s : State) (x : Drive) : Option Bytes :=
  if labelGood s x.labelA && (!labelGood s x.labelB || decide (leAt x.labelB 24 8 ≤ leAt x.labelA 24 8)) then some x.labelA
  else if labelGood s x.labelB then some x.labelB
  else none

/-- The state in a drive's governing label: 0 BLANK without one. -/
def labelState (s : State) (x : Drive) : Nat := ((governing s x).map fun b => leAt b 5 1).getD 0

/-- A drive whose governing label names this unit and node and is SERVING (06 R299). -/
def labelServes (s : State) (x : Drive) : Bool :=
  match governing s x with
  | some b => leAt b 5 1 == 2 && leAt b 8 8 == s.pow.unit.toNat && leAt b 16 2 % 4096 == nodeAddr s
  | none => false

/-- The next label_seq of a drive. -/
def nextLabel (s : State) (x : Drive) : Nat := ((governing s x).map fun b => leAt b 24 8).getD 0 + 1

/-- Write a label (06 R298): over the copy that does not govern (log entry 116). -/
def writeLabel (s : State) (d st : Nat) (seq : Nat := nextLabel s (tget {} s.drives d)) : State :=
  let x := tget {} s.drives d
  let head := labelHead st d s.pow.unit (nodeAddr s) seq
  let b := head ++ bvBytes (Config.aesCmac (pageKeyAt s s.key.rollCount) head)
  let overA := governing s x != some x.labelA
  let s := s.onDrives fun t => tupd {} t d fun x => if overA then { x with labelA := b } else { x with labelB := b }
  nvme s [d] (.write (if overA then 0 else 1) (fit 4096 b))

/-! ### The start of a checkpoint (06 R324, R327) -/

/-- The pages dirty at p are to be written as they stand at p, each at its next version and with its tag (06 R288, R289, R326, R327); what becomes dirty
later stays so. -/
def markDirty (s : State) : State :=
  let ds := (s.led.pages.filter fun p => p.2.dirty).map Prod.fst
  let s := s.onLed fun l => { l with
    versions := ds.foldl (fun v d => tupd 0 v d (· + 1)) l.versions
    snap := ds.foldl (fun t d => tput [] t d (pageEntries s (slotOwner s d).1 (slotOwner s d).2)) []
    pages := tmap {} l.pages fun _ p => if p.dirty then { p with dirty := false, unwritten := true } else p }
  retree (s.onLed fun l => { l with
    tags := ds.foldl (fun t d => tput 0 t d (pageTag s d (tget 0 l.versions d) (tget [] l.snap d))) l.tags }) ds

/-- Start a checkpoint: p, the snapshot and the dirty pages are fixed. The open groups are closed first, so that no page it writes holds a change whose
record comes after p (R316). DESIGN CHOICE, log entry 115. -/
def startCheckpoint (s : State) : State :=
  if s.led.ckptRun.isSome || !s.led.replayed then s
  else
    let s := closeGroup (closeGroup s true) false
    let l := s.led
    let c : Ckpt := { magic := ascii "SXCK", k := l.ckptLast.k + 1, p := l.blockSeq, chain := l.chain, voidOwn := l.voidOwn, voidShadow := l.voidShadow
                      ownCeil := l.ceil, twinCeil := l.twinCeil, ownEnd := l.nextGroup - 1, mirEnd := lastMirrored s false, time := s.time.mUs
                      epoch := l.epoch, twinEpoch := s.fab.twinEpoch }
    let s := s.onLed fun l => { l with ckptRun := some c, ckptWritten := false, ckptDue := false, sinceCkpt := 0, ckptAt := s.time.clk }
    -- a drive that finished its copies waits for this checkpoint (R336 step 6)
    markDirty (s.onDrives fun t => tmap {} t fun _ x => if x.resilver = 6 then { x with resilver := 7 } else x)

/-- A checkpoint that is due starts, but in NAP (15 R808). -/
def startDue (s : State) : State := if s.led.ckptDue && s.pow.state != .nap then startCheckpoint s else s

/-! ### Release of what waits (06 R308 step 6) -/

/-- A ledger's pages are forgotten: their versions go to 0 (06 R342 step 2). -/
def clearPages (s : State) (gone : Nat → Bool) : State :=
  s.onLed fun l => { l with
    versions := l.versions.filter fun p => !gone p.1, tags := l.tags.filter fun p => !gone p.1
    pages := l.pages.filter fun p => !gone p.1, snap := l.snap.filter fun p => !gone p.1 }

/-- A roll carried out (06 R342): own versions, void index, exit records, and the events and classes of the epoch that ends are cleared (02 R75), the
epoch advances, the next lease is lease 0, a checkpoint is due, and the own pages in use are deallocated. A checkpoint under way that has not written its
slot gives way to that one (DESIGN CHOICE, log entry 115). The labels are written anew under the new page key (DESIGN CHOICE, log entry 116). -/
def rollOwn (s : State) (e : BitVec 4) : State :=
  let me := nodeAddr s
  let old := s.led.epoch
  let n := pagesOf s.led.ceil
  let s := clearPages s fun slot => decide (slot < n)
  let s := s.when (!s.led.ckptWritten) fun s => s.onLed fun l => { l with
    ckptRun := none, snap := [], pages := tmap {} l.pages fun _ p => { p with dirty := p.dirty || p.unwritten, unwritten := false } }
  let s := s.onLed fun l => { l with
    own := [], voidOwn := [], exits := l.exits.filter fun p => serialHome p.1 != me
    epoch := e, ceil := 0, ceilAtTwin := 0, lease := none, next := 0, opening := none, reopen := none, rolling := none, chain := 0, ckptDue := true }
  let s := (s.onKey fun k => { k with rollCount := k.rollCount + 1 }).onHbm fun h => { h with events := h.events.filter (·.2.epoch != old), dir := [] }
  let s := rebuildTree s
  let s := (writeDrives s).foldl (fun s d => writeLabel s d (if (tget {} s.drives d).serving then 2 else 1)) s
  nvme (s.onDrives fun t => tmap {} t fun _ x => { x with pages := x.pages.filter fun p => decide (p.1 ≥ n) }) (writeDrives s) (.dealloc (pageLba 0) n)

/-- The shadow ledger of a twin that rolled is cleared likewise (06 R342). -/
def rollShadow (s : State) (e : BitVec 4) : State :=
  let t := twinAddr s
  let n := pagesOf s.led.twinCeil
  let s := clearPages s fun slot => decide (slot ≥ 2 ^ 26 - n)
  let s := s.onLed fun l => { l with
    shadow := [], voidShadow := [], exits := l.exits.filter fun p => serialHome p.1 != t, twinCeil := 0, twinAsked := 0 }
  rebuildTree (s.onFab fun b => { b with twinEpoch := e })

/-- Release one request whose group is durable: a verdict to EMIT, a mint to SEAL. -/
def releaseReq (s : State) (k : Nat) : State :=
  match getReq s k with
  | some r =>
    if r.stage = .durable ∧ groupDurable s r.groupHome r.group then
      if r.isMint then putReq s { r with stage := .seal }
      else
        let c := r.v.outcome.getD .undecided
        endVerdict s r .done c (if r.v.cold && c == .refusePassback then detPassbackCold else 0)
    else s
  | none => s

/-- Carry out a roll whose ROLL group is durable, and complete the request that asked for it (06 R342). -/
def settleRoll (s : State) : State :=
  match s.led.rolling with
  | some (e, g) =>
    if groupDurable s (nodeAddr s) g then
      let s := startDue (rollOwn s e)
      if s.hq.ctlWait.kind = .roll then endWait s .done else s
    else s
  | none => s

/-- Release the CONTROL or window command that waits for its group: VOID and QUERY complete, a hand-back makes its offer (06 R318, R320,
07 R402 step 3). -/
def releaseCtl (s : State) : State :=
  let w := s.hq.ctlWait
  if w.unapplied ∨ !groupDurable s w.home w.group then s
  else
    match w.kind with
    | .void => endWait s .done
    | .query => endWait s .done 0 w.resp
    | .handBack =>
      if s.fab.offer.isSome || s.led.groups.any (fun g => g.home == w.home && g.source == 2 && !g.acked && !g.dead) then s
      else
        let t := (viewOf s w.home).term + 1
        let last := s.led.nextAuth - 1
        sendTo (s.onFab fun b => { b with offer := some (w.home, t, last) }) w.home (member s .handbackOffer w.home t last)
    | .roll => s
    | .none => s

/-- The answer of QUERY_LEDGER (03 R143). -/
def queryResp (s : State) (g : Nat) : Bytes :=
  let own := serialHome g == nodeAddr s
  let x := serialLocal g
  let st := match entry s own x with | .unissued => 0 | .live => 1 | .inside => 2 | .closed => 3
  leBytes 8 g ++ leBytes 1 st ++ leBytes 1 ((if inRanges (voidIdx s own) x then 1 else 0) + (if own then 0 else 2)) ++ zeros 6

/-- Mark what has become durable and release everything that waited on it, in context order; the own group end follows (07 R385). -/
def settle (s : State) : State :=
  let before := (s.led.groups.filter (·.durable)).length
  let s := s.onLed fun l => { l with groups := markDurable s [] l.groups }
  let now := s.led.groups.filter (·.durable)
  let s := count s 0x4618 (now.length - before)
  let s := s.onLed fun l => { l with
    ownEnd := (l.groups.filter fun g => g.durable && g.home == nodeAddr s && g.source == 0).foldl (fun m g => max m g.seq) l.ownEnd }
  let s := (s.lane.reqs.map Prod.fst).foldl releaseReq s
  let s := releaseCtl (settleRoll s)
  let s := startDue s
  -- a durable group is kept only while the twin has still to acknowledge it (R307) or a drive to complete it (R310)
  s.onLed fun l => { l with groups := l.groups.filter fun g =>
    !((g.dead || (g.durable && (g.acked || !mirrors s))) && (writeDrives s).all fun d => g.onDrives.contains d) }

/-- Write a group's block to a drive: the block is on the drive's journal ring from then on (06 R300). -/
def putBlock (s : State) (d : Nat) (b : JBlock) : State :=
  { s with drives := tupd {} s.drives d fun x => { x with journal := tput {} x.journal (b.seq % 2 ^ 23) b } }

/-- A change to one drive. -/
def onDrive (s : State) (d : Nat) (f : Drive → Drive) : State := s.onDrives fun t => tupd {} t d f

end Sys2Proof.Machine
end

