-- ==== Sys2Proof/Machine/Mint.lean ====
section
/-! DEFINITION. The mint pipeline (04): the stages of a mint, the lane key cache, the credential and the records that travel with it (02), and
the co-signature queue. -/

namespace Sys2Proof.Machine

/-! ### Events, classes and the lane key cache -/

/-- The record of an event defined in the current epoch (02 R70, R74). -/
def eventOf (s : State) (n : Nat) : Option EventRec := assoc n s.hbm.events

/-- A class of an event. -/
def classOf (e : EventRec) (n : Nat) : Option ClassRec := e.classes[n]?

/-- The entry of a lane's cache for a key: an exact match of slot and generation (04 R187). -/
def cached (s : State) (lane : Nat) (k : KeyRef) : Option CacheEnt := (tget {} s.lane.lanes lane).cache.find? (·.key == k)

/-- Is a key in a lane's cache under its slot and generation (04 R187)? -/
def inCache (s : State) (lane : Nat) (k : KeyRef) : Bool := (cached s lane k).isSome

/-- Put an entry first in a lane's cache; a cache of 32 entries drops the last, the one used least recently (04 R187, R189). -/
def cacheFront (s : State) (lane : Nat) (e : CacheEnt) : State :=
  s.onLane fun b => { b with lanes := tupd {} b.lanes lane fun l => { l with cache := (e :: l.cache.filter (·.key != e.key)).take 32 } }

/-- A key that is used stands first in its lane's cache. -/
def touchKey (s : State) (lane : Nat) (k : KeyRef) : State :=
  match cached s lane k with
  | some e => cacheFront s lane e
  | none => s

/-- The key engine gives a lane the unwrapped key of a slot (04 R188). -/
def fillKey (s : State) (lane : Nat) (k : KeyRef) : State := cacheFront s lane { key := k, slot := slotOf s k.slot }

def touchKeys (s : State) (lane : Nat) (ks : List KeyRef) : State := ks.foldl (fun s k => touchKey s lane k) s

/-- A key a request needs: its name, the kinds that serve, and whether wrap_out is asked of it. -/
structure Need where
  key : KeyRef := {}
  kinds : List (BitVec 8) := []
  wrapOut : Bool := false
  deriving DecidableEq, Repr

/-- Resolve one needed key (04 R182). -/
def resolveNeed (s : State) (u : KeyUser) (n : Need) : Except Status Slot :=
  match resolve s u n.key n.kinds with
  | .error e => .error e
  | .ok x => if n.wrapOut && !x.attrs.getLsbD 17 then .error .keyDenied else .ok x

/-- The first needed key that fails resolution decides the status (04 R182). -/
def firstDenied (s : State) (u : KeyUser) : List Need → Option Status
  | [] => none
  | n :: t => match resolveNeed s u n with | .error e => some e | .ok _ => firstDenied s u t

/-- The cache entry that serves a need of a request: one it found on entering its stage, else one that stands in the lane's cache now. -/
def haveKey (s : State) (r : Req) (n : Need) : Option CacheEnt := (r.got.find? (·.key == n.key)) <|> cached s r.lane n.key

/-- Material of a needed key, as the request has it. -/
def needMaterial (s : State) (r : Req) (n : Need) : Bytes := ((haveKey s r n).map (·.slot.material)).getD []

/-! ### INTAKE (04 R172) -/

/-- A value of a wrapper as parsed: type, reserved byte, value (02 R81). -/
structure Tlv where
  typ : Nat := 0
  rsv : Nat := 0
  value : Bytes := []
  deriving DecidableEq, Repr

/-- TLVs placed end to end that end exactly where the bytes end (02 R80, R81, R85 check 4); `n` bounds their number. -/
def parseTlvs : Nat → Bytes → Option (List Tlv)
  | 0, b => if b.isEmpty then some [] else none
  | n + 1, b =>
    if b.isEmpty then some []
    else if b.length < 4 ∨ b.length < 4 + leAt b 2 2 then none
    else (parseTlvs n (b.drop (4 + leAt b 2 2))).map fun t => { typ := leAt b 0 1, rsv := leAt b 1 1, value := cut b 4 (leAt b 2 2) } :: t

def ofType (t : List Tlv) (n : Nat) : List Tlv := t.filter fun x => x.typ == n
def valueOf (t : List Tlv) (n : Nat) : Bytes := match ofType t n with | x :: _ => x.value | [] => []

/-- What a wrapper asks for: payload, where the serial goes and how it is written, the signed range (02 R82). -/
structure Foreign where
  payload : Bytes := []
  slotAt : Nat := 0
  enc : Nat := 0
  width : Nat := 0
  coverAt : Nat := 0
  coverLen : Nat := 0
  deriving DecidableEq, Repr

/-- Widths of the serial encodings (02 R83). -/
def encWidth : Nat → Option Nat
  | 0 => some 7
  | 1 => some 17
  | 2 => some 14
  | 3 => some 12
  | _ => none

def foreignOf (t : List Tlv) : Foreign :=
  let p := valueOf t 1
  let v := valueOf t 2
  let c := valueOf t 3
  let cover := !(ofType t 3).isEmpty
  { payload := p, slotAt := leAt v 0 2, enc := leAt v 2 1, width := leAt v 3 1
    coverAt := if cover then leAt c 0 2 else 0, coverLen := if cover then leAt c 2 2 else p.length }

/-- The wrapper's checks in order (02 R85, R862): the first that fails, by its order number and status, or what the wrapper asks for. -/
def checkWrapper (w : Bytes) (len : Nat) (format : BitVec 8) : Except (Nat × Status) Foreign :=
  let tlvs := parseTlvs w.length (w.drop 8)
  let t := tlvs.getD []
  let f := foreignOf t
  let checks : List (Bool × Nat × Status) :=
    [(leAt w 0 1 == 1, 1, .badFormat),
     (zeroAt w 2 2, 2, .reservedField),
     (leAt w 4 4 == len, 3, .badLength),
     (tlvs.isSome, 4, .badLength),
     (t.length == leAt w 1 1, 5, .badLength),
     (t.all fun x => x.rsv == 0, 6, .reservedField),
     (t.all (fun x => decide (1 ≤ x.typ) && decide (x.typ ≤ 3)) && (ofType t 1).length == 1 && (ofType t 2).length == 1
        && decide ((ofType t 3).length ≤ 1), 7, .badFormat),
     (t.all fun x => if x.typ = 1 then decide (1 ≤ x.value.length) && decide (x.value.length ≤ 1024) else x.value.length == 4, 8, .badLength),
     (encWidth f.enc == some f.width, 9, .badFormat),
     (decide (f.slotAt + f.width ≤ f.payload.length) && decide (f.coverAt + f.coverLen ≤ f.payload.length), 10, .badLength),
     (decide (f.coverAt ≤ f.slotAt) && decide (f.slotAt + f.width ≤ f.coverAt + f.coverLen), 11, .badFormat),
     (f.coverLen != 56, 12, .badFormat),
     (format == 1, 13, .badFormat)]
  match checks.find? fun c => !c.1 with
  | some c => .error c.2
  | none => .ok f

def round8 (n : Nat) : Nat := (n + 7) / 8 * 8

/-- Size of the co-signature record's place in the outputs (03 R121): that of an ML-DSA-44 key that is LOADED, neither orphaned nor retiring. -/
def cosignSize (s : State) (e : EventRec) : Nat :=
  match e.pqKey with
  | some k =>
    let x := slotOf s k.slot
    if slotState s k.slot = .loaded ∧ x.retiring = false ∧ x.gen = k.gen ∧ x.kind = kMldsa44 then 2432 else 3320
  | none => 3320

/-- The length a mint's outputs need (03 R121, 04 R173). -/
def lengthNeeded (s : State) (m : MintSt) (e : EventRec) (c : ClassRec) (payload : Nat) : Nat :=
  (if c.format = 1 then 120 else 64) + (if mForeign m then round8 (72 + payload) else 0)
    + (if mNfc m then 64 else 0) + (if mPq m then cosignSize s e else 0)

/-- Checks 12 and 13 of INTAKE, then on to CLOCK. `w` is the wrapper as read. -/
def intakeEnd (s : State) (r : Req) (e : EventRec) (c : ClassRec) (w : Option Bytes) : State :=
  let go := fun (payload : Nat) =>
    let need := lengthNeeded s r.m e c payload
    if r.m.outLen.toNat < need then endMint s r .badLength (detSub 48)
    else putReq s { r with stage := .clock, seen := none, m := { r.m with lenNeeded := need, wrapper := w } }
  match w with
  | none => go 0
  | some b =>
    match checkWrapper b r.m.foreignLen.toNat c.format with
    | .error (n, st) => endMint s r st (detWrap n)
    | .ok f => go f.payload.length

/-- INTAKE of a mint: checks 1 to 10; with flags.foreign the wrapper read begins, else checks 12 and 13 follow (04 R172, R856). -/
def mintIntake (s : State) (r : Req) : State :=
  let m := r.m
  if !planeOpen s || !s.fab.ownAuth then endMint s r .paused
  else
    match mintRsv r.entry with
    | some off => endMint s r .reservedField (detSub off)
    | none =>
      if mPq m && !unitActive s 0x3A then endMint s r .unitAbsent
      else if m.outAddr.toNat % 8 ≠ 0 then endMint s r .badFormat (detSub 40)
      else
        match eventOf s m.event.toNat with
        | none => endMint s r .eventUnknown
        | some e =>
          match classOf e m.cls.toNat with
          | none => endMint s r .badFormat (detSub 3)
          | some c =>
            if mNfc m && !c.nfcAllowed then endMint s r .badFormat (detSub 2)
            else if mNfc m && decide (m.tslot.toNat > 1023) then endMint s r .badFormat (detSub 32)
            else if mPq m && !c.pqAllowed then endMint s r .badFormat (detSub 2)
            else if mForeign m && (decide (m.foreignLen.toNat < 8) || decide (m.foreignLen.toNat > 1052)) then
              endMint s r .badLength (detSub 52)
            else if mForeign m then putReq s { r with stage := .wrapperRead, seen := some e }
            else intakeEnd s r e c none

/-- MINT_INTAKE (R172). -/
def execMintIntake (lane ctx : Nat) (s : State) : Result :=
  done (inStage s lane ctx .intake fun r => if r.isMint then mintIntake s r else s)

/-- MINT_WRAPPER_READ_DONE (R174): `read` is what the one read of the wrapper gave, none when it failed. The event is the one INTAKE read on entry
(01 R24). A mint that asks for a co-signature and finds the ML-DSA unit no longer ACTIVE is refused under check 3 (R215). -/
def execMintWrapperReadDone (lane ctx : Nat) (read : Option Bytes) (s : State) : Result :=
  done (inStage s lane ctx .wrapperRead fun r =>
    if mPq r.m && !unitActive s 0x3A then endMint s r .unitAbsent
    else match read with
    | none => endMint s r .internalFault detDmaRead
    | some b =>
      match r.seen with
      | none => endMint s r .eventUnknown
      | some e =>
        match classOf e r.m.cls.toNat with
        | none => endMint s r .badFormat (detSub 3)
        | some c => intakeEnd s r e c (some (fit r.m.foreignLen.toNat b)))

/-- MINT_WRAPPER_READ_TIMEOUT (R857). -/
def execMintWrapperReadTimeout (lane ctx : Nat) (s : State) : Result :=
  done (inStage s lane ctx .wrapperRead fun r => endMint s r .internalFault detDmaRead)

/-! ### CLOCK (04 R175-R179) -/

/-- The longest validity from issue (02 R71). -/
def maxValidity (e : EventRec) : Nat := if e.maxValidity = 0 then 1152000 else e.maxValidity

/-- Is the mirrored uncertainty above an event's tolerance, or time unanchored (04 R175, R176, 05 R245)? -/
def timeUnfit (s : State) (e : EventRec) : Bool := !s.time.mAnch || decide (s.time.mUnc > 1000 * e.toleranceMs)

def mintClock (s : State) (r : Req) : State :=
  match eventOf s r.m.event.toNat with
  | none => endMint s r .eventUnknown
  | some e =>
    if timeUnfit s e then endMint s r .timeUnanchored
    else
      let now := minuteOf s.time.mUs
      let limit := now + maxValidity e
      let vf := if mOverride r.m then r.m.vfrom.toNat else e.windowStart
      let vu := if mOverride r.m then r.m.vuntil.toNat else min e.windowEnd limit
      let bad : Option (BitVec 16) :=
        if mOverride r.m then
          if vf < e.windowStart then some (detSub 8)
          else if vu ≤ vf ∨ e.windowEnd < vu ∨ limit < vu ∨ vu ≤ now then some (detSub 12)
          else none
        else if e.windowEnd ≤ now ∨ limit ≤ e.windowStart then some (detSub 4)
        else none
      match bad with
      | some d => endMint s r .badFormat d
      | none => putReq s { r with stage := .rule, m := { r.m with
          issueUs := s.time.mUs, vfrom := BitVec.ofNat 32 vf, vuntil := BitVec.ofNat 32 vu } }

/-- MINT_CLOCK (R177). -/
def execMintClock (lane ctx : Nat) (s : State) : Result :=
  done (inStage s lane ctx .clock fun r => if r.isMint then mintClock s r else s)

/-! ### RULE (04 R180-R186) -/

def noKey : KeyRef := { slot := 0xFFFF }

def needMac (e : EventRec) : Need := { key := e.macKey, kinds := [kAesMac] }
def needSign (e : EventRec) (c : ClassRec) : Need :=
  { key := e.signKey.getD noKey, kinds := [if c.sigAlg then kP256Priv else kEdPriv] }
def needPq (e : EventRec) : Need := { key := e.pqKey.getD noKey, kinds := [kMldsa44, kMldsa65] }
def needNfc (e : EventRec) : Need := { key := e.nfcParent.getD noKey, kinds := [kKdf] }
def needTransport (m : MintSt) : Need :=
  { key := { slot := m.tslot.toNat, gen := m.tgen.toNat }, kinds := [kTransport], wrapOut := true }

/-- The keys a mint needs, in the order of R181. -/
def mintNeeds (m : MintSt) (e : EventRec) (c : ClassRec) : List Need :=
  [needMac e] ++ (if c.format = 1 then [needSign e c] else []) ++ (if mPq m then [needPq e] else [])
    ++ (if mNfc m then [needNfc e, needTransport m] else [])

/-- Random bytes a mint needs (04 R184): the native signature, the foreign signature, the IV, the co-signature. -/
def nativeRand (c : ClassRec) : Nat := if c.format = 1 ∧ c.sigAlg then 32 else 0
def foreignRand (m : MintSt) (c : ClassRec) : Nat := if mForeign m ∧ c.sigAlg then 32 else 0
def randNeed (m : MintSt) (c : ClassRec) : Nat :=
  nativeRand c + foreignRand m c + (if mNfc m then 12 else 0) + (if mPq m then 32 else 0)

/-- Draw a mint's random bytes and let it go to LEDGER, or hold it (04 R184, R185). -/
def mintDraw (s : State) (r : Req) (n : Nat) : State :=
  if n = 0 then putReq s { r with stage := .ledger }
  else if rngServes s then drew (putReq s { r with stage := .ledger, m := { r.m with rand := randBytes s n } }) n
  else
    let s := putReq s { r with stage := .drawHold, m := { r.m with rand := zeros n } }
    s.onLane fun b => { b with drawWait := b.drawWait ++ [keyOf r] }

/-- The cache entries a request has now for its needs: those it keeps while it waits for the others (01 R24). -/
def gotKeys (s : State) (r : Req) (ns : List Need) : List CacheEnt := ns.filterMap (haveKey s r)

/-- RULE of a mint under the event `e` it read on entering RULE. A key that is not in the lane's cache is asked of the key engine, and the mint
stands in RULE until KEY_CACHE_FILL (04 R188) with the event and the cached keys as it found them (01 R24, log entry 111). An event defined
anew with fewer classes, so that it lacks the mint's class, is no longer the event it was: EVENT_UNKNOWN. DESIGN CHOICE, log entry 109. -/
def mintRuleOn (s : State) (r : Req) (e : EventRec) : State :=
  match classOf e r.m.cls.toNat with
  | none => endMint s r .eventUnknown
  | some c =>
    if e.closed then endMint s r .badFormat (detSub 4)
    else
      let ns := mintNeeds r.m e c
      match firstDenied s .mint (ns.filter fun n => !r.got.any (·.key == n.key)) with
      | some st => endMint s r st
      | none =>
        if !ns.all fun n => (haveKey s r n).isSome then putReq s { r with stage := .ruleHold, seen := some e, got := gotKeys s r ns }
        else
          let m := { r.m with
            zoneMask := c.zoneMask, format := c.format, sigAlg := c.sigAlg
            macKey := needMaterial s r (needMac e)
            signKey := if c.format = 1 then needMaterial s r (needSign e c) else []
            pqKey := if mPq r.m then needMaterial s r (needPq e) else []
            pqKind := if mPq r.m then ((haveKey s r (needPq e)).map (·.slot.kind)).getD 0 else 0
            nfcKey := if mNfc r.m then needMaterial s r (needNfc e) else []
            transKey := if mNfc r.m then needMaterial s r (needTransport r.m) else [] }
          mintDraw (touchKeys s r.lane (ns.map (·.key))) { r with m := m, seen := none, got := [] } (randNeed r.m c)

/-- RULE of a mint as it enters the stage: the event that is current now (01 R24). -/
def mintRule (s : State) (r : Req) : State :=
  match eventOf s r.m.event.toNat with
  | none => endMint s r .eventUnknown
  | some e => mintRuleOn s { r with seen := none, got := [] } e

/-- MINT_RULE (R181). -/
def execMintRule (lane ctx : Nat) (s : State) : Result :=
  done (inStage s lane ctx .rule fun r => if r.isMint then mintRule s r else s)

/-- Serve the mints held for a draw, in arrival order, once the DRBG serves (04 R185, 11 R634). -/
def serveDraws (s : State) : State :=
  if !rngServes s then s
  else
    let ks := s.lane.drawWait
    let s := s.onLane fun b => { b with drawWait := [] }
    ks.foldl (fun s k => match getReq s k with
      | some r => if r.stage = .drawHold then mintDraw s r r.m.rand.length else s
      | none => s) s

/-- MINT_DRBG_TIMEOUT (R185). -/
def execMintDrbgTimeout (lane ctx : Nat) (s : State) : Result :=
  done (inStage s lane ctx .drawHold fun r => endMint s r .randomNotReady)

/-! ### LEDGER -/

/-- MINT_LEDGER_ASSIGN (R167). -/
def execMintLedgerAssign (lane ctx : Nat) (s : State) : Result :=
  done (inStage s lane ctx .ledger fun r => if r.isMint then mintAtLedger s r else s)

/-- LEASE_OPEN_TIMEOUT (R196): every waiting mint ends, and the next one to reach LEDGER opens the same lease again. An opening that the twin does not
acknowledge because the two ledgers would pass their allowance fails as in 06 R280 (R281). -/
def execLeaseOpenTimeout (s : State) : Result :=
  done (match s.led.opening with
    | some o =>
      let full := decide (pagesOf ((o.n + 1) * 65536) + pagesOf (max s.led.twinCeil s.led.twinAsked) > 2 ^ 26)
      endLeaseWaiters (s.onLed fun l => { l with reopen := some o.n }) (if full && !o.acked && mirrors s then .serialsExhausted else .durabilityTimeout)
    | none => s)

/-! ### SEAL (04 R203-R212) -/

/-- The 48-byte body (02 R57-R59, 04 R203). -/
def credBody (r : Req) : Bytes :=
  let m := r.m
  let flags := (if m.sigAlg then 1 else 0) + (if mNfc m then 2 else 0) + (if mPq m then 4 else 0) + (if mOverride m then 8 else 0)
  [m.format] ++ beBytes 1 flags ++ beBytes 7 r.serial.toNat ++ beBytes 4 m.event.toNat ++ [m.cls] ++ beBytes 8 m.zoneMask.toNat
    ++ beBytes 4 m.vfrom.toNat ++ beBytes 4 m.vuntil.toNat ++ fit 16 m.holder ++ [0, 0]

/-- Bytes of the gate tag in a format (02 R62). -/
def tagBytes (format : BitVec 8) : Nat := if format = 1 then 8 else 12

/-- A signature under a private key of either algorithm (02 R64, R65, 04 R205). -/
def signWith (alg : Bool) (key msg rand : Bytes) : Bytes :=
  if alg then bvBytes (Config.p256Sign key msg rand) else bvBytes (Config.ed25519Sign key msg)

/-- The credential (02 R57, R58, R62, R63). -/
def credential (r : Req) : Bytes :=
  let body := credBody r
  let tagged := body ++ (cmac r.m.macKey body).take (tagBytes r.m.format)
  if r.m.format = 1 then tagged ++ signWith r.m.sigAlg r.m.signKey tagged (r.m.rand.take 32) else tagged

/-- The `n` lowest digits of a number in a base, most significant first. -/
def digits (base : Nat) : Nat → Nat → List Nat
  | 0, _ => []
  | n + 1, v => digits base n (v / base) ++ [v % base]

/-- ASCII of a digit: 0-9 then A-F; of base32: A-Z then 2-7. -/
def hexChar (d : Nat) : Byte := BitVec.ofNat 8 (if d < 10 then 48 + d else 55 + d)
def b32Char (d : Nat) : Byte := BitVec.ofNat 8 (if d < 26 then 65 + d else 24 + d)

/-- The serial as a wrapper asks for it (02 R83). -/
def encodeSerial (enc g : Nat) : Bytes :=
  match enc with
  | 0 => beBytes 7 g
  | 1 => (digits 10 17 g).map hexChar
  | 2 => (digits 16 14 g).map hexChar
  | _ => (digits 32 12 g).map b32Char

/-- The foreign result (02 R84, R86, R87). -/
def foreignResult (r : Req) : Bytes :=
  match r.m.wrapper with
  | none => []
  | some w =>
    let f := foreignOf ((parseTlvs w.length (w.drop 8)).getD [])
    let p := patch f.payload f.slotAt (encodeSerial f.enc r.serial.toNat)
    let rand := (r.m.rand.drop (if r.m.format = 1 ∧ r.m.sigAlg then 32 else 0)).take 32
    [1, if r.m.sigAlg then 1 else 0] ++ leBytes 2 p.length ++ leBytes 2 f.coverAt ++ leBytes 2 f.coverLen ++ p
      ++ signWith r.m.sigAlg r.m.signKey (cut p f.coverAt f.coverLen) rand

/-- The diversified NFC key (04 R207). -/
def nfcKeyOf (parent : Bytes) (serial event : Nat) : Bytes :=
  cmac parent ([1] ++ ascii "SLX48-NFC" ++ [0] ++ beBytes 7 serial ++ beBytes 4 event ++ [0x00, 0x80])

/-- The NFC key record (02 R88, R89, 04 R208). -/
def nfcRecord (r : Req) : Bytes :=
  let m := r.m
  let at_ := (if m.format = 1 ∧ m.sigAlg then 32 else 0) + (if mForeign m ∧ m.sigAlg then 32 else 0)
  let iv := cut m.rand at_ 12
  let aad := [1, 1] ++ leBytes 2 m.tslot.toNat ++ leBytes 2 m.tgen.toNat ++ [0, 0] ++ beBytes 7 r.serial.toNat ++ [0]
  let ct := gcmCrypt m.transKey iv (nfcKeyOf m.nfcKey r.serial.toNat m.event.toNat)
  aad ++ iv ++ ct ++ gcmTagOf m.transKey iv aad ct ++ zeros 4

/-- The co-signature record (02 R90, R91). -/
def cosignRecord (m : MintSt) : Bytes :=
  let p44 := m.pqKind == kMldsa44
  let n := if p44 then 2420 else 3309
  [1, if p44 then 1 else 2] ++ leBytes 2 n ++ zeros 4
    ++ (List.range n).map (Config.mldsaSign (if p44 then 44 else 65) m.pqKey m.credential (ascii "SLX48-COSIGN") m.pqRand)

/-- The parts placed in the output buffer, each at the next multiple of 8 (03 R120, 04 R173). -/
def placeParts (addr : Nat) : List Bytes → List HostWrite
  | [] => []
  | p :: t => { addr := addr, bytes := padTo 8 p } :: placeParts (addr + round8 p.length) t

/-- The parts of a sealed mint in the order of R120. -/
def mintParts (m : MintSt) : List Bytes :=
  [m.credential] ++ (if mForeign m then [m.foreignOut] else []) ++ (if mNfc m then [m.nfcOut] else []) ++ (if mPq m then [cosignRecord m] else [])

/-- EMIT (04 R216). -/
def emitMint (s : State) (r : Req) : State :=
  endMint s r .done 0 r.m.lenNeeded (placeParts r.m.outAddr.toNat (mintParts r.m))

/-- What a failed output write left: the bytes before some point of the outputs, which the rules do not give (04 R169, log entry 9). -/
def partly (r : Req) : List HostWrite :=
  let all := ((placeParts r.m.outAddr.toNat (mintParts r.m)).map (·.bytes)).flatten
  [{ addr := r.m.outAddr.toNat, bytes := all.take (Config.writtenBefore r.order % all.length) }]

/-- Lane occupancy of a mint in ns, counted at SEAL (04 R218). -/
def mintBusy (m : MintSt) : Nat :=
  (if m.format = 1 then (if m.sigAlg then 20000 else 10000) else 2500)
    + (if mForeign m then (if m.sigAlg then 20000 else 10000) else 0) + (if mNfc m then 8000 else 0)

/-- What a mint holds once it is sealed: the parts are made, and the working copies but the ML-DSA key are gone (04 R186, R204-R208). -/
def sealedMint (r : Req) : MintSt :=
  let m := r.m
  { m with
    credential := credential r
    foreignOut := if mForeign m then foreignResult r else []
    nfcOut := if mNfc m then nfcRecord r else []
    pqRand := if mPq m then m.rand.drop (m.rand.length - 32) else []
    macKey := [], signKey := [], nfcKey := [], transKey := [], rand := [] }

/-- SEAL ends: a co-signature job joins the queue (04 R212), any other mint is emitted. A co-signed mint that finds the ML-DSA unit no longer ACTIVE
ends as one whose job had been in its queue (R215): the rule does not name it. DESIGN CHOICE, log entry 110. -/
def mintSeal (s : State) (r : Req) : State :=
  let m := r.m
  let s := count s (0x4680 + 8 * r.lane) (mintBusy m)
  let r := { r with m := sealedMint r }
  if mPq m then
    if unitActive s 0x3A then
      (putReq s { r with stage := .mldsa }).onLane fun b => { b with pqQueue := b.pqQueue ++ [(r.lane, r.ctx)] }
    else endMint s r .internalFault
  else emitMint s r

/-- MINT_SEAL_DONE (R204). -/
def execMintSealDone (lane ctx : Nat) (s : State) : Result :=
  done (inStage s lane ctx .seal fun r => mintSeal s r)

/-- MLDSA_JOB_DONE (R213): the first job of the queue ends and its mint is emitted. -/
def execMldsaJobDone (s : State) : Result :=
  done (match s.lane.pqQueue with
    | [] => s
    | (l, c) :: rest =>
      match getReq s (reqKey l c) with
      | some r => emitMint s r
      | none => s.onLane fun b => { b with pqQueue := rest })

/-- The ML-DSA unit leaves ACTIVE: every job ends and its mint completes INTERNAL_FAULT (04 R215). -/
def endJobs (s : State) : State :=
  let ks := s.lane.pqQueue
  ks.foldl (fun s k => match getReq s (reqKey k.1 k.2) with | some r => endMint s r .internalFault | none => s)
    (s.onLane fun b => { b with pqQueue := [] })

/-- MINT_OUTPUT_WRITE_FAIL (R217): an output write of a mint that has reached EMIT fails: its SEAL has ended, or its co-signature is made. The
output buffer is partly written (R169). -/
def execMintOutputWriteFail (lane ctx : Nat) (s : State) : Result :=
  done (match getReq s (reqKey lane ctx) with
    | some r =>
      if (r.stage = .seal ∧ !mPq r.m) then
        endMint (count s (0x4680 + 8 * r.lane) (mintBusy r.m)) r .internalFault detDmaWrite 0 (partly { r with m := sealedMint r })
      else if r.stage = .mldsa ∧ s.lane.pqQueue.head? = some (lane, ctx) then endMint s r .internalFault detDmaWrite 0 (partly r)
      else s
    | none => s)

end Sys2Proof.Machine
end

