-- ==== Sys2Proof/Machine/Verdict.lean ====
section
/-! DEFINITION. The verdict pipeline (05): the checks in order, forwarding between nodes, the deciding lane's stages. -/

namespace Sys2Proof.Machine

/-! ### Contexts for forwarded verdicts (05 R233, R234, R863) -/

/-- Free request contexts of a lane (04 R214). -/
def freeCtxs (s : State) (l : Nat) : List Nat := (List.range 64).filter fun c => (assoc (l * 64 + c) s.lane.reqs).isNone

/-- The ACTIVE lanes with the most free contexts (05 R234); none when every lane is full. -/
def bestLanes (s : State) : List Nat :=
  let n := (activeLanes s).foldl (fun m l => max m (freeCtxs s l).length) 0
  if n = 0 then [] else (activeLanes s).filter fun l => (freeCtxs s l).length == n

/-- Give a forward to a lane: the place named if R234 allows it, else the first that R234 allows, else it waits for a context (05 R863). -/
def giveFwd (s : State) (h : HeldFwd) (lane ctx : Nat) : State :=
  if (bestLanes s).contains lane && (freeCtxs s lane).contains ctx then startFwd s h.f lane ctx h.since
  else
    match bestLanes s with
    | l :: _ => startFwd s h.f l ((freeCtxs s l).headD 0) h.since
    | [] => s.onLane fun b => { b with ctxWait := b.ctxWait ++ [h] }

/-- The home a forwarded credential names (05 R226). -/
def fwdHome (f : FwdFrame) : Nat := serialHome (beAt f.cred 2 7)

/-- Authority was gained: held forwards it concerns are decided (05 R233). -/
def serveHeld (s : State) : State :=
  let go := s.lane.held.filter fun h => decidesFor s (fwdHome h.f)
  let s := s.onLane fun b => { b with held := b.held.filter fun h => !decidesFor s (fwdHome h.f) }
  go.foldl (fun s h => if planeOpen s then giveFwd s h 16 0 else replyFwd s h.f .paused) s

/-! ### INTAKE -/

/-- The member of the home-and-twin pair that holds the home's authority in the view (05 R228). -/
def holderOf (s : State) (home : Nat) : Nat := if hasTwin s && (viewOf s home).byTwin then twinOf home else home

/-- The node a verdict is forwarded to (05 R228): the holder, else the other member, whichever a route leads to. -/
def fwdTarget (s : State) (home : Nat) : Option Nat :=
  let a := holderOf s home
  let b := if a = home then twinOf home else home
  if a ≠ nodeAddr s ∧ routeExists s a then some a
  else if hasTwin s ∧ b ≠ nodeAddr s ∧ routeExists s b then some b
  else none

def vDir (r : Req) : Nat := r.v.gate.toNat % 4
def vZone (r : Req) : Nat := r.v.gate.toNat / 4
def vFormat (r : Req) : Nat := leAt r.v.cred 0 1
def vEvent (r : Req) : Nat := beAt r.v.cred 9 4
def vClass (r : Req) : Nat := leAt r.v.cred 13 1

/-- Checks 8 to 10 on the deciding node (05 R224). -/
def verdictDecide (s : State) (r : Req) : State :=
  let r := { r with serial := BitVec.ofNat 56 (beAt r.v.cred 2 7), hasSerial := decide (r.v.cred.length ≥ 9) }
  let r := { r with v := { r.v with twinAuth := serialHome r.serial.toNat != nodeAddr s, cls := BitVec.ofNat 8 (vClass r) } }
  if serialEpoch r.serial.toNat ≠ s.led.epoch then endVerdict s r .done .refuseExpired
  else
    match eventOf s (vEvent r) with
    | none => endVerdict s r .eventUnknown
    | some e =>
      match classOf e (vClass r) with
      | none => endVerdict s r .done .refuseForged
      | some c =>
        if vFormat r ≠ c.format.toNat ∨ (leAt r.v.cred 1 1).testBit 0 ≠ c.sigAlg then endVerdict s r .done .refuseForged
        else putReq s { r with stage := .check }

/-- The first non-zero byte of the credential area beyond cred_length (05 R224 check 3), by its offset in the entry. -/
def beyondCred (r : Req) : Option Nat :=
  ((List.range 120).find? fun i => decide (r.v.credLen ≤ i) && !zeroAt r.entry (8 + i) 1).map (8 + ·)

/-- Length and format byte agree (02 R61), and the reserved credential fields are zero (02 R60). -/
def credShape (c : Bytes) : Bool :=
  let f := leAt c 0 1
  ((c.length == 120 && f == 1) || (c.length == 60 && f == 2))
    && decide (leAt c 1 1 / 16 = 0) && zeroAt c 46 2 && (f == 1 || !(leAt c 1 1).testBit 0)

/-- The skew gauge of the telemetry mirror (03 R126, R164). -/
def skew (s : State) (hint : BitVec 32) : State :=
  s.when (hint != 0) fun s => gauge s 0x4758 (BitVec.ofInt 64 ((s.time.mUs / 1000000 : Nat) - (hint.toNat : Int)))

/-- Has an earlier verdict of the same ring for the same serial not left INTAKE yet (03 R158; log entry 112)? -/
def unsentBefore (s : State) (r : Req) : Bool :=
  s.lane.reqs.any fun p => !p.2.isMint && p.2.stage == .intake && p.2.v.fwdIn.isNone && p.2.sq == r.sq && decide (p.2.order < r.order)
    && beAt p.2.v.cred 2 7 == r.serial.toNat

/-- INTAKE of a verdict at its origin: checks 1 to 7, then the decision here or a VERDICT_FWD (05 R224-R230). -/
def verdictIntake (s : State) (r : Req) : State :=
  let s := skew s r.v.scanHint
  if !planeOpen s then endVerdict s r .paused
  else if (leAt r.entry 3 1).testBit 7 then endVerdict s r .reservedField .undecided (detSub 3)
  else if r.v.credLen = 0 ∨ r.v.credLen > 120 then endVerdict s r .badLength .undecided (detSub 3)
  else
    match beyondCred r with
    | some o => endVerdict s r .badLength .undecided (detSub o)
    | none =>
      if vDir r = 3 then endVerdict s r .badFormat .undecided (detSub 2)
      else
        let r := { r with serial := BitVec.ofNat 56 (beAt r.v.cred 2 7), hasSerial := decide (r.v.credLen ≥ 9) }
        if !credShape r.v.cred then endVerdict s r .done .refuseForged
        else
          let home := serialHome r.serial.toNat
          if decidesFor s home then verdictDecide s r
          else
            match fwdTarget s home with
            | none => endVerdict s r .homeUnreachable .undecided detRouteNone
            | some t =>
              -- an earlier request of the ring for the same serial is sent first (03 R158)
              if unsentBefore s r then putReq s r else
              let seq := s.lane.fwdSeq
              let s := s.onLane fun b => { b with fwdSeq := b.fwdSeq + 1 }
              let s := count s (0x4680 + 8 * r.lane) 500
              sendTo (putReq s { r with stage := .fwdWait, v := { r.v with fwdSeq := seq } }) t
                (.verdictFwd r.lane r.ctx r.v.gate r.v.cred seq)

/-- VERDICT_INTAKE (R224): a verdict of this node's own rings, or one that came by a forward (05 R221). -/
def execVerdictIntake (lane ctx : Nat) (s : State) : Result :=
  done (inStage s lane ctx .intake fun r =>
    if r.isMint then s else if r.v.fwdIn.isSome then verdictDecide s r else verdictIntake s r)

/-! ### Forwards -/

/-- How long a forward is remembered, and how long its origin waits: the durability timeout and 1 ms (05 R231, R237, 06 R313). -/
def replyTimeout : Nat := 1250

/-- VERDICT_FWD_RX (R231): `lane` and `ctx` name the place a forward that is decided here takes. -/
def execVerdictFwdRx (f : FwdFrame) (lane ctx : Nat) (s : State) : Result :=
  done (
    let fresh := s.lane.fwdSeen.filter fun p => decide (s.time.clk - p.2.2 < replyTimeout)
    if fresh.any fun p => p.1 == f.src && p.2.1 == f.seq.toNat then s
    else
      let s := s.onLane fun b => { b with fwdSeen := fresh ++ [(f.src, f.seq.toNat, s.time.clk)] }
      match f.bad with
      | some st => replyFwd s f st
      | none =>
        let home := fwdHome f
        let h : HeldFwd := { f := f, since := s.time.clk }
        if decidesFor s home then
          if planeOpen s then giveFwd s h lane ctx else replyFwd s f .paused
        else
          let t := holderOf s home
          if !f.relayed && t != nodeAddr s && routeExists s t then
            routeFrame s f.carry.dim 2
              { src := f.src, dest := t, relayed := true, hops := f.carry.hops + 1, detour := f.carry.detour, vc := f.carry.vc
                body := .verdictFwd f.lane f.ctx f.gate f.cred f.seq }
          else s.onLane fun b => { b with held := b.held ++ [h] })

/-- HELD_FORWARD_TIMEOUT (R233). -/
def execHeldForwardTimeout (src : Nat) (seq : BitVec 32) (s : State) : Result :=
  done (match takeFirst (fun h : HeldFwd => h.f.src == src && h.f.seq == seq) s.lane.held with
    | (some h, rest) => replyFwd (s.onLane fun b => { b with held := rest }) h.f .durabilityTimeout
    | (none, _) => s)

/-- FORWARD_CONTEXT_TIMEOUT (R863). -/
def execForwardContextTimeout (src : Nat) (seq : BitVec 32) (s : State) : Result :=
  done (match takeFirst (fun h : HeldFwd => h.f.src == src && h.f.seq == seq) s.lane.ctxWait with
    | (some h, rest) => replyFwd (s.onLane fun b => { b with ctxWait := rest }) h.f .durabilityTimeout
    | (none, _) => s)

/-- Complete a forwarded verdict at its origin (05 R236, R237). -/
def endForwarded (s : State) (r : Req) (c : Comp) : State :=
  freeReq (complete s r.sq r.dropped r.fetched { c with sq := r.sq, tag := r.tag, head := r.head, info := c.info ||| 1 } []) r

/-- VERDICT_REPLY_RX (R236): a reply that no waiting verdict matches is discarded and counted (05 R237). -/
def execVerdictReplyRx (lane ctx : Nat) (status verdict : Byte) (seq : BitVec 32) (info : Byte) (detail decider : BitVec 16)
    (serial : BitVec 56) (s : State) : Result :=
  done (match getReq s (reqKey lane ctx) with
    | some r =>
      if r.stage = .fwdWait ∧ r.v.fwdSeq = seq ∧ r.v.fwdIn.isNone then
        endForwarded s r { status := statusOf status.toNat, verdict := verdict, info := info &&& 0x0E, detail := detail,
                           decider := decider, serial := serial.zeroExtend 64 }
      else s.onLane fun b => { b with fwdLate := b.fwdLate + 1 }
    | none => s.onLane fun b => { b with fwdLate := b.fwdLate + 1 })

/-- FORWARD_REPLY_TIMEOUT (R237): the decider field stays empty. -/
def execForwardReplyTimeout (lane ctx : Nat) (s : State) : Result :=
  done (inStage s lane ctx .fwdWait fun r =>
    endForwarded s r { status := .durabilityTimeout, verdict := 0x3F, serial := serialField r })

/-! ### CHECK, CLOCK, RULE -/

/-- The evidence of the chosen path: the gate tag under mac_key, or the signature under the public part of sign_key (05 R239, R240). -/
def tagMatches (key cred : Bytes) : Bool :=
  let n := tagBytes (BitVec.ofNat 8 (leAt cred 0 1))
  cut cred 48 n == (cmac key (cred.take 48)).take n
def sigVerifies (alg : Bool) (key cred : Bytes) : Bool :=
  if alg then Config.p256Verify (bvBytes (Config.p256Public key)) (cred.take 56) (cut cred 56 64)
  else Config.ed25519Verify (bvBytes (Config.ed25519Public key)) (cred.take 56) (cut cred 56 64)

/-- CHECK under the event `e` read on entering CHECK: the path, its key (through the lane's cache), its evidence (05 R239-R244). A verdict that
waits for its key keeps that event (01 R24). An event defined anew without the verdict's class: log entry 109. -/
def verdictCheckOn (s : State) (r : Req) (e : EventRec) : State :=
  match classOf e (vClass r) with
  | none => endVerdict s r .eventUnknown
  | some c =>
    match resolveNeed s .verdict (needMac e) with
    | .ok _ =>
      if !inCache s r.lane e.macKey then putReq s { r with stage := .checkHold, seen := some e }
      else
        let mat := needMaterial s r (needMac e)
        let s := count (touchKey s r.lane e.macKey) (0x4680 + 8 * r.lane) 2500
        if tagMatches mat r.v.cred then putReq s { r with stage := .clock, seen := none } else endVerdict s r .done .refuseForged
    | .error macFail =>
      if vFormat r ≠ 1 then endVerdict s r macFail
      else
        let r := { r with v := { r.v with sigPath := true } }
        match resolveNeed s .verdict (needSign e c) with
        | .error st => endVerdict s r st
        | .ok _ =>
          if !inCache s r.lane (needSign e c).key then putReq s { r with stage := .checkHold, seen := some e }
          else
            let mat := needMaterial s r (needSign e c)
            let s := count (touchKey s r.lane (needSign e c).key) (0x4680 + 8 * r.lane) 25000
            if sigVerifies c.sigAlg mat r.v.cred then putReq s { r with stage := .clock, seen := none }
            else endVerdict s r .done .refuseForged

/-- CHECK of a verdict as it enters the stage: the event that is current now (01 R24). -/
def verdictCheck (s : State) (r : Req) : State :=
  match eventOf s (vEvent r) with
  | none => endVerdict s r .eventUnknown
  | some e => verdictCheckOn s { r with seen := none, got := [] } e

/-- VERDICT_CHECK (R239). -/
def execVerdictCheck (lane ctx : Nat) (s : State) : Result :=
  done (inStage s lane ctx .check fun r => if r.isMint then s else verdictCheck s r)

/-- The requests of a lane that wait for a key (04 R188, 05 R243). -/
def keyWaiters (s : State) (lane : Nat) : List Nat :=
  (s.lane.reqs.filter fun p => decide (p.1 / 64 = lane) && (p.2.stage == .ruleHold || p.2.stage == .checkHold)).map Prod.fst

/-- A request that waited for a key goes on in its stage, under the event it read on entering it (01 R24). -/
def retryKey (s : State) (k : Nat) : State :=
  match getReq s k with
  | some r =>
    match r.seen with
    | some e =>
      if r.stage = .ruleHold then mintRuleOn s { r with stage := .rule } e
      else if r.stage = .checkHold then verdictCheckOn s { r with stage := .check, v := { r.v with sigPath := false } } e
      else s
    | none => s
  | none => s

/-- Can the key engine give a lane this key? -/
def fillOk (s : State) (lane slot gen : Nat) : Bool :=
  let x := slotOf s slot
  s.key.unwrapped && decide (slot < 1024) && x.st == .loaded && x.gen == gen && !x.retiring && !orphaned s x && unitActive s lane

/-- KEY_CACHE_FILL (R188): a lane's cache takes a key from the key engine, and the requests of the lane that wait for a key try their stage
again. -/
def execKeyCacheFill (lane slot gen : Nat) (s : State) : Result :=
  done (
    let waits := keyWaiters s lane
    waits.foldl retryKey (s.when (fillOk s lane slot gen && !waits.isEmpty) (fillKey · lane { slot := slot, gen := gen })))

/-- CLOCK: t and its uncertainty are read once (05 R245-R248). -/
def verdictClock (s : State) (r : Req) : State :=
  match eventOf s (vEvent r) with
  | none => endVerdict s r .eventUnknown
  | some e =>
    let t := s.time.mUs
    if timeUnfit s e then endVerdict s r .timeUnanchored
    else if vDir r ≠ 1 ∧ t < beAt r.v.cred 22 4 * 60000000 then endVerdict s r .done .refuseEarly
    else if vDir r ≠ 1 ∧ t ≥ beAt r.v.cred 26 4 * 60000000 then endVerdict s r .done .refuseExpired
    else putReq s { r with stage := .rule, v := { r.v with t := t } }

/-- VERDICT_CLOCK (R245). -/
def execVerdictClock (lane ctx : Nat) (s : State) : Result :=
  done (inStage s lane ctx .clock fun r => if r.isMint then s else verdictClock s r)

/-- RULE: event state, EXIT class, zone; class values go with the verdict (05 R249-R251). -/
def verdictRule (s : State) (r : Req) : State :=
  match eventOf s (vEvent r) with
  | none => endVerdict s r .eventUnknown
  | some e =>
    match classOf e (vClass r) with
    | none => endVerdict s r .eventUnknown
    | some c =>
      let mask := BitVec.ofNat 64 (beAt r.v.cred 14 8) &&& c.zoneMask
      if e.closed then endVerdict s r .done .refuseEventClosed
      else if vDir r = 1 ∧ !c.reentry then endVerdict s r .done .refuseNotExit
      else if vDir r ≠ 1 ∧ !mask.getLsbD (vZone r) then endVerdict s r .done .refuseZone
      else putReq s { r with stage := .ledger, v := { r.v with
        zoneMask := c.zoneMask, reentry := c.reentry, hold := c.holdS * 1000000, coldRefuse := c.coldRefuse } }

/-- VERDICT_RULE (R249). -/
def execVerdictRule (lane ctx : Nat) (s : State) : Result :=
  done (inStage s lane ctx .rule fun r => if r.isMint then s else verdictRule s r)

/-- VERDICT_LEDGER_APPLY (R253). -/
def execVerdictLedgerApply (lane ctx : Nat) (s : State) : Result :=
  done (inStage s lane ctx .ledger fun r => if r.isMint then s else verdictAtLedger s r)

end Sys2Proof.Machine
end

