-- ==== Sys2Proof/Machine/Control.lean ====
section
/-! DEFINITION. Opening the data plane (15), time vouchers (12), and the signed control requests (03 R127-R146) with the bodies other chapters
give them. -/

namespace Sys2Proof.Machine

/-! ### Opening the data plane (15 R793, R796, R798) -/

/-- Units whose loss needs node-level failover (01 R40). -/
def failoverUnits : List Nat := [0x38, 0x3B, 0x3C, 0x44, 0x48, 0x49, 0x50]

/-- The pseudo-channels in state ACTIVE. -/
def activePcs (s : State) : List Nat := (List.range 16).filter fun n => unitActive s (0x10 + n)

/-- Boot steps 5 to 10 have ended well, and nothing keeps the plane closed (15 R793, R798, 09 R859, 13 R711). -/
def stepsReady (s : State) : Bool :=
  s.pow.mainUp && s.hbm.keyLoaded && !s.pow.safe && !s.pow.bootFault && s.key.unwrapped && s.rng.inst && s.hbm.trained && decide ((activePcs s).length ≥ 12)
    && s.pow.attachDone && !(servingDrives s).isEmpty && s.led.replayed && s.led.settled && s.fab.joined
    && failoverUnits.all (unitActive s) && !s.pow.pwrfail

/-- Have the steps ended with no tamper response in force? -/
def stepsDone (s : State) : Bool := stepsReady s && !respInForce s

/-- Step 11 is reached once every earlier step has ended. A node with no twin holds its own authority at once (15 R864). -/
def tryOpen (s : State) : State :=
  s.when (stepsReady s && decide (s.pow.bootStep < 11)) fun s =>
    (if hasTwin s then s else s.onFab fun b => { b with ownAuth := true }).onPow fun p => { p with bootStep := 11 }

/-- The data plane opens: the passback table is empty and its cover is the instant of opening (05 R263, R264). -/
def openData (s : State) : State :=
  let now := s.time.mUs
  let s := s.onPow fun p => { p with bootStep := 12 }
  let s := s.onLed fun l => { l with
    exits := [], rebuildQ := if l.blockSeq = 0 then none else some (l.blockSeq - 1)
    cover := if hasTwin s then tput 0 (tput 0 [] (nodeAddr s) now) (twinAddr s) now else tput 0 [] (nodeAddr s) now }
  openPlane s

/-! ### Time vouchers (12 R693-R696) -/

/-- Checks 2 to 8 of a 96-byte voucher; `rsvToo` includes check 2 (R696 leaves it out). -/
def checkVoucher (s : State) (c : CoreId) (rsvToo : Bool) (b : Bytes) : Option Bad :=
  let now := s.time.us
  let x := slotOf s 2
  let echo := leAt b 16 8
  if b.length ≠ 96 then some (.badLength, detBlock 24)
  else if rsvToo && !zeroAt b 5 3 then some (.reservedField, detBlock 37)
  else if b.take 4 ≠ ascii "SXTV" ∨ leAt b 4 1 ≠ 1 then some (.badFormat, detBlock 32)
  else if leAt b 8 8 ≠ s.pow.unit.toNat then some (.badFormat, detBlock 40)
  else
    match resolve s (.core c) { slot := 2, gen := x.gen } [kEdPub] with
    | .error e => some (e, 0)
    | .ok y =>
      if !Config.ed25519Verify y.material (b.take 32) (cut b 32 64) then some (.badFormat, detBlock 64)
      else if now < echo ∨ echo < s.time.lastSet ∨ echo < s.time.restart then some (.badFormat, detBlock 48)
      else if now - echo > 60000000 then some (.badFormat, detBlock 48)
      else none

/-- Payload of a TIME_ANCHOR record (12 R656). -/
def anchorPayload (time r u0 before : Nat) : Bytes := leBytes 8 time ++ leBytes 8 r ++ leBytes 4 u0 ++ zeros 4 ++ leBytes 8 before

/-- Accept a voucher (12 R695): time is set and anchored. The first anchoring in ENROLLED records IN_SERVICE and lets step 11 end (10 R571,
15 R796). -/
def acceptVoucher (s : State) (b : Bytes) : State :=
  let before := s.time.us
  let r := before - leAt b 16 8
  let t := leAt b 24 8 + r / 2
  let u0 := max 2000 ((r + 1) / 2)
  let was := s.time.anchored
  let s := s.onTime fun x => { x with us := t, u0 := u0, a := t, anchored := true, extra := 0, lastSet := t }
  let s := mirrorTime s
  let s := if was then s else irqAll (cause s 6) 17
  let s := append s .gatehouse 3 0x0307 0 (anchorPayload (leAt b 24 8) r u0 before)
  if lifecycle s = 2 then
    tryOpen ((append s (.serge s.unit.active) 3 0x0305 0 (leBytes 8 s.time.us)).onKey fun k => { k with inService := true })
  else s

/-! ### The checks every request shares (03 R130) -/

/-- Body lengths the table of R133 gives as numbers, by opcode. -/
def fixedBody : Nat → Option Nat
  | 0x02 => some 8
  | 0x03 => some 16
  | 0x06 => some 8
  | 0x08 => some 8
  | 0x09 => some 8
  | 0x0A => some 8
  | 0x0B => some 0
  | 0x0C => some 8
  | _ => none

/-- Response lengths (03 R133). -/
def respLen : Nat → Nat
  | 0x04 => 8
  | 0x05 => 8
  | 0x08 => 16
  | 0x0B => 136
  | _ => 0

def opDefined (n : Nat) : Bool := decide (1 ≤ n) && decide (n ≤ 12)

/-- Check 1: the first reserved field of the entry that is not zero. A resp_addr that is not 0 for an opcode with no response is accepted and
ignored: the rule gives it no status. DESIGN CHOICE, log entry 105. -/
def ctlRsv (e : Bytes) : Option Nat :=
  (([(3, !zeroAt e 3 1), (20, !zeroAt e 20 4), (32, !zeroAt e 32 96)] : List (Nat × Bool)).find? fun p => p.2).map Prod.fst

/-- Checks 1 to 8 (03 R130): the first that fails. -/
def ctlChecks (s : State) (e b : Bytes) : Option Bad :=
  let n := leAt e 4 4
  let x := slotOf s 0
  match ctlRsv e with
  | some o => some (.reservedField, detSub o)
  | none =>
    firstBad [(decide (96 ≤ n) && decide (n ≤ 8192), (.badLength, detSub 4)),
      (b.take 4 == ascii "SXCQ", (.badFormat, detBlock 0)),
      (leAt b 4 1 == 1, (.badFormat, detBlock 4)),
      (opDefined (leAt b 5 1) && leAt b 5 1 == leAt e 2 1, (.badFormat, detBlock 5)),
      (n == 96 + leAt b 24 4, (.badLength, detBlock 24)),
      (zeroAt b 6 2, (.reservedField, detBlock 6)), (zeroAt b 28 4, (.reservedField, detBlock 28)),
      (leAt b 8 8 == s.pow.unit.toNat, (.authFailed, detBlock 8)),
      ((match resolve s (.core s.unit.active) { slot := 0, gen := x.gen } [kEdPub] with
        | .ok y => Config.ed25519Verify y.material (b.take (n - 64)) (cut b (n - 64) 64)
        | .error _ => false), (.authFailed, detBlock (n - 64))),
      (decide (leAt b 16 8 > s.key.ctlSeq), (.authFailed, detBlock 16))]

/-! ### DEFINE_EVENT and CLOSE_EVENT (03 R134-R139) -/

def classRec (b : Bytes) (i : Nat) : ClassRec :=
  let o := 32 + 16 * i
  let f := leAt b (o + 2) 1
  { format := BitVec.ofNat 8 (leAt b (o + 1) 1), reentry := f.testBit 0, sigAlg := f.testBit 1, coldRefuse := f.testBit 2
    nfcAllowed := f.testBit 3, pqAllowed := f.testBit 4, holdS := leAt b (o + 4) 4 % 2 ^ 17, zoneMask := BitVec.ofNat 64 (leAt b (o + 8) 8) }

/-- The event record of a body (03 R134). -/
def eventRec (b : Bytes) : EventRec :=
  let n := leAt b 14 2
  { windowStart := leAt b 4 4, windowEnd := leAt b 8 4, toleranceMs := leAt b 12 2, maxValidity := leAt b 16 4
    macKey := (keyField b 20).getD noKey, signKey := keyField b 24, pqKey := keyField b 28, nfcParent := keyField b (32 + 16 * n)
    classes := (List.range n).map (classRec b) }

/-- A key field holds a slot that exists, or none where none is allowed. A slot from 1,024 to 0xFFFE is refused here as BAD_FORMAT: R71 gives no numeric
range, and R137 could answer it too. DESIGN CHOICE, log entry 113. -/
def keyRange (b : Bytes) (o : Nat) (noneOk : Bool) : Bool := decide (leAt b o 2 ≤ 1023) || (noneOk && leAt b o 2 == 0xFFFF)

/-- The reserved bits and the range of a class record (03 R136, 02 R77). -/
def classRsv (b : Bytes) (i : Nat) : List (Bool × Bad) :=
  let o := 32 + 16 * i
  [(decide (leAt b (o + 2) 1 < 32), (.reservedField, detBlock (34 + o))), (zeroAt b (o + 3) 1, (.reservedField, detBlock (35 + o))),
   (decide (leAt b (o + 6) 1 < 2), (.reservedField, detBlock (38 + o))), (zeroAt b (o + 7) 1, (.reservedField, detBlock (39 + o)))]

def classRange (b : Bytes) (i : Nat) : List (Bool × Bad) :=
  let o := 32 + 16 * i
  let c := classRec b i
  [(leAt b o 1 == i % 256, (.badFormat, detBlock (32 + o))), (c.format == 1 || c.format == 2, (.badFormat, detBlock (33 + o))),
   (c.format == 1 || !c.sigAlg, (.badFormat, detBlock (34 + o))), (decide (c.holdS ≤ 86400), (.badFormat, detBlock (36 + o))),
   (c.zoneMask != 0, (.badFormat, detBlock (40 + o)))]

/-- A key named by DEFINE_EVENT (03 R137): slot and generation, kind, one of the lane masters, w_data and lc_operational. -/
def eventKey (s : State) (k : KeyRef) (kinds : List (BitVec 8)) (verdictToo : Bool) : Option Bad :=
  let x := slotOf s k.slot
  let a := x.attrs
  if (x.st != .loaded && x.st != .orphaned) || x.retiring || x.gen != k.gen then some (.keyUnusable, 0)
  else if orphaned s x then some (.keyOrphaned, 0)
  else if kinds.contains x.kind && a.getLsbD 9 && a.getLsbD 13 && (a.getLsbD 3 || (verdictToo && a.getLsbD 4)) then none
  else some (.keyDenied, 0)

/-- Kinds a sign_key may have: that of the sig_alg of every format 0x01 class; none when they differ. -/
def signKinds (cs : List ClassRec) : List (BitVec 8) :=
  let algs := (cs.filter fun c => c.format == 1).map (·.sigAlg)
  if algs.contains true && algs.contains false then [] else if algs.contains true then [kP256Priv]
  else if algs.contains false then [kEdPriv] else [kEdPriv, kP256Priv]

/-- The body checks of DEFINE_EVENT in order (03 R135-R138). -/
def checkEvent (s : State) (b : Bytes) : Option Bad :=
  let n := leAt b 14 2
  let e := eventRec b
  let num := leAt b 0 4
  let i := List.range n
  let wants := fun (p : ClassRec → Bool) => e.classes.any p
  if b.length < 36 ∨ b.length ≠ 36 + 16 * n then some (.badLength, detBlock 24)
  else
    match firstBad (i.flatMap (classRsv b)) with
    | some x => some x
    | none =>
      match firstBad ([(decide (1 ≤ num) && decide (num ≤ 0xFFFFFFFE), (.badFormat, detBlock 32)),
          (decide (e.windowStart < e.windowEnd), (.badFormat, detBlock 40)),
          (decide (1 ≤ e.toleranceMs) && decide (e.toleranceMs ≤ 60000), (.badFormat, detBlock 44)),
          (decide (1 ≤ n) && decide (n ≤ 256), (.badFormat, detBlock 46)), (decide (e.maxValidity ≤ 2880000), (.badFormat, detBlock 48)),
          (keyRange b 20 false, (.badFormat, detBlock 52)), (keyRange b 24 true, (.badFormat, detBlock 56)),
          (keyRange b 28 true, (.badFormat, detBlock 60)), (keyRange b (32 + 16 * n) true, (.badFormat, detBlock (64 + 16 * n)))]
          ++ i.flatMap (classRange b)
          ++ [(!wants (fun c => c.format == 1) || e.signKey.isSome, (.badFormat, detBlock 56)),
              (!wants (·.nfcAllowed) || e.nfcParent.isSome, (.badFormat, detBlock (64 + 16 * n))),
              (!wants (·.pqAllowed) || e.pqKey.isSome, (.badFormat, detBlock 60)),
              ((eventOf s num).isNone && !(s.hbm.publishing.any fun p => p.num == num), (.badFormat, detBlock 32)),
              (decide (s.hbm.events.length < 65536), (.badFormat, detTableFull))]) with
      | some x => some x
      | none =>
        (eventKey s e.macKey [kAesMac] true)
          <|> (e.signKey.bind fun k => eventKey s k (signKinds e.classes) true)
          <|> (e.pqKey.bind fun k => eventKey s k [kMldsa44, kMldsa65] false)
          <|> (e.nfcParent.bind fun k => eventKey s k [kKdf] false)

/-- The stages that read event records: INTAKE, CHECK, CLOCK and RULE (09 R488). -/
def eventStage (r : Req) : Option Nat :=
  match r.stage with
  | .intake | .wrapperRead => some 0
  | .check | .checkHold => some 1
  | .clock => some 2
  | .rule | .ruleHold | .drawHold => some 3
  | _ => none

/-- The requests that stand in such a stage, each with its time of fetch and its stage. -/
def eventReaders (s : State) : List (Nat × Nat × Nat) :=
  s.lane.reqs.filterMap fun p => (eventStage p.2).map fun n => (p.1, p.2.fetched, n)

/-- A published change takes effect (02 R70, R72): a new event, or one that becomes CLOSED. One of an epoch that has ended meanwhile has none. -/
def applyPublish (s : State) (p : Publish) : State :=
  s.when (p.epoch == s.led.epoch) fun s => s.onHbm fun h => { h with
    events := match p.event with
      | some r => h.events ++ [(p.num, r)]
      | none => h.events.map fun q => if q.1 = p.num then (q.1, { q.2 with closed := true }) else q }

/-- Publish a change of the event table, after which the request completes DONE (09 R488). With no request in an event-reading stage the publish ends at
once; else it waits for those that stand in one. -/
def publishEvent (s : State) (num : Nat) (event : Option EventRec) : State :=
  let p : Publish := { num := num, event := event, epoch := s.led.epoch, waits := eventReaders s }
  if p.waits.isEmpty && s.hbm.publishing.isEmpty then endCtl (applyPublish s p) .done
  else (s.onHbm fun h => { h with publishing := h.publishing ++ [p] }).onHq fun h => { h with ctlHeld := true, ctlFor := .publish }

/-- Publishes end in order, each when every request that stood in an event-reading stage at its start has left that stage; the request that waits for the
last one completes (09 R488). -/
def endPublishes (s : State) : State :=
  let now := eventReaders s
  let gone := s.hbm.publishing.takeWhile fun p => !p.waits.any now.contains
  let s := gone.foldl applyPublish (s.onHbm fun h => { h with publishing := h.publishing.drop gone.length })
  s.when (!gone.isEmpty && s.hbm.publishing.isEmpty && s.hq.ctlHeld && s.hq.ctlFor == .publish) fun s => endCtl s .done

/-- DEFINE_EVENT past R130: the event is recorded and published, then the request completes. -/
def doDefineEvent (s : State) (b : Bytes) : State :=
  match checkEvent s b with
  | some x => endCtl s x.1 x.2
  | none => publishEvent s (leAt b 0 4) (some { eventRec b with epoch := s.led.epoch })

/-- CLOSE_EVENT (03 R139). The reserved bytes are tested before the event is looked up: the rule gives no order. DESIGN CHOICE, log entry 106. -/
def doCloseEvent (s : State) (b : Bytes) : State :=
  if !zeroAt b 4 4 then endCtl s .reservedField (detBlock 36)
  else
    match eventOf s (leAt b 0 4) with
    | none => endCtl s .eventUnknown
    | some _ => publishEvent s (leAt b 0 4) none

/-! ### VOID_SERIALS, QUERY_LEDGER (03 R140-R143, 06 R318-R323) -/

/-- A request that waits, through the CONTROL ring or a window. -/
def setWait (s : State) (w : CtlWait) : State := s.onHq fun h => { h with ctlWait := w }

/-- The next local serial to be assigned here: of the open lease, else the first of the next lease. -/
def nextSerial (s : State) : Nat := if s.led.lease.isSome then s.led.next else nextLease s * 65536

/-- Apply a void and write its pair, in one step; it stands unapplied while no operation may be applied (06 R315, R320, R325). -/
def applyVoid (s : State) (home f l : Nat) (viaLed : Bool) : State :=
  let own := home == nodeAddr s
  if !mayApply s || !decidesFor s home || (!own && !s.led.deciding) then
    setWait s { kind := .void, home := home, viaLed := viaLed, unapplied := true }
  else
    let s := s.onLed fun x => if own then { x with voidOwn := insertRange x.voidOwn f l } else { x with voidShadow := insertRange x.voidShadow f l }
    let t := s.time.mUs
    let g := joinGroup s own [{ kind := .voidFirst, serial := f, t := t }, { kind := .voidLast, serial := l, t := t }]
    setWait g.1 { kind := .void, home := home, group := g.2, viaLed := viaLed }

/-- The checks R140, R322 and R323, then the void. -/
def startVoid (s : State) (a b : Nat) (viaLed : Bool) : Except Bad State :=
  let home := serialHome a
  let own := home == nodeAddr s
  let bound := if own then nextSerial s else s.led.twinCeil
  if serialEpoch a ≠ s.led.epoch ∨ serialEpoch b ≠ s.led.epoch ∨ serialHome b ≠ home
      ∨ !(own || (hasTwin s && home == twinAddr s && s.fab.twinAuth)) ∨ serialLocal b < serialLocal a then .error (.badFormat, detBlock 32)
  else if bound ≤ serialLocal b then .error (.badFormat, detBlock 40)
  else if (insertRange (voidIdx s own) (serialLocal a) (serialLocal b)).length > 262144 then .error (.badFormat, detTableFull)
  else .ok (applyVoid s home (serialLocal a) (serialLocal b) viaLed)

/-- VOID_SERIALS past R130. -/
def doVoidSerials (s : State) (b : Bytes) : State :=
  if !zeroAt b 7 1 then endCtl s .reservedField (detBlock 39)
  else if !zeroAt b 15 1 then endCtl s .reservedField (detBlock 47)
  else match startVoid s (leAt b 0 7) (leAt b 8 7) false with | .error e => endCtl s e.1 e.2 | .ok s' => s'

/-- A query whose page is at hand: its answer is fixed, and released once everything it rests on is durable (06 R318). -/
def answerQuery (s : State) (g : Nat) (viaLed : Bool) : State :=
  let home := serialHome g
  releaseCtl (setWait s { kind := .query, home := home, serial := BitVec.ofNat 56 g, viaLed := viaLed, resp := queryResp s g
                          group := (waitsOn s home (serialLocal g)).getD 0 })

/-- Start a query. On a cache miss it waits for its page as a verdict does (06 R287, R338); both then end with PAGE_MISS_TIMEOUT at the latest. -/
def startQuery (s : State) (g : Nat) (viaLed : Bool) : State :=
  let own := serialHome g == nodeAddr s
  let x := serialLocal g
  if pageAtHand s own x then answerQuery s g viaLed
  else
    let s := setWait s { kind := .query, home := serialHome g, serial := BitVec.ofNat 56 g, viaLed := viaLed, unapplied := true }
    if beingRebuilt s (slotFor own x) then s else startRead s (slotFor own x)

/-- A query that waits for its page tries again. -/
def resumeQuery (s : State) : State :=
  let w := s.hq.ctlWait
  s.when (w.kind == .query && w.unapplied && pageAtHand s (serialHome w.serial.toNat == nodeAddr s) (serialLocal w.serial.toNat)) fun s =>
    answerQuery s w.serial.toNat w.viaLed

/-- QUERY_LEDGER past R130 (03 R142). -/
def checkQuery (s : State) (g : Nat) : Option Bad :=
  if !decidesFor s (serialHome g) then some (.homeUnreachable, detNotAuthority)
  else if serialEpoch g ≠ s.led.epoch then some (.badFormat, detBlock 32)
  else none

def doQueryLedger (s : State) (b : Bytes) : State :=
  if !zeroAt b 7 1 then endCtl s .reservedField (detBlock 39)
  else match checkQuery s (leAt b 0 7) with | some e => endCtl s e.1 e.2 | none => startQuery s (leAt b 0 7) false

/-! ### EPOCH_ROLL (06 R340-R343) -/

/-- Every event of the epoch has passed its window_end and the grace at t - u (06 R341 check 5). -/
def eventsPast (s : State) : Bool :=
  s.hbm.events.all fun p => decide (s.time.mUs ≥ s.time.mUnc + (p.2.windowEnd + s.par.grace) * 60000000)

/-- Write the ROLL record in a group of its own (06 R342 step 1). -/
def writeRoll (s : State) (e : BitVec 4) : State :=
  let s := closeGroup s true
  let g := joinGroup s true [{ kind := .roll, extra := e, t := s.time.mUs }]
  (closeGroup g.1 true).onLed fun l => { l with rolling := some (e, g.2), rollWait := none }

/-- A roll whose count cannot be recorded is given up (12 R660, R661). -/
def failRoll (s : State) : State :=
  let s := s.onLed fun l => { l with rollWait := none }
  if s.hq.ctlWait.kind = .roll then endWait s .internalFault else s

/-- Carry out a roll: its count is recorded, and once that record is committed the ROLL group is written (06 R342, 10 R536). It stands unapplied while no
state operation may be applied (06 R315, R325). -/
def startRoll (s : State) (e : BitVec 4) : State :=
  if !mayApply s then s.onLed fun l => { l with rollHeld := some e }
  else
  let now := s.store.queue.isEmpty && appendOk s && (placeIn s 3 1).isSome
  let t := append (s.onLed fun l => { l with rollWait := some e }) (.serge s.unit.active) 3 0x0304 0 (leBytes 4 (s.key.rollCount + 1))
  if now then writeRoll t e else if t.store.queue.isEmpty then failRoll t else t

/-- A roll that stood unapplied goes on. -/
def resumeRoll (s : State) : State :=
  match s.led.rollHeld with
  | some e => s.when (mayApply s) fun s => startRoll (s.onLed fun l => { l with rollHeld := none }) e
  | none => s

/-- EPOCH_ROLL past R130: checks 1 to 6, then the twin is asked, or a node with no twin rolls (06 R341). -/
def doEpochRoll (s : State) (b : Bytes) : State :=
  let e := BitVec.ofNat 4 (leAt b 0 1)
  if !zeroAt b 1 7 then endCtl s .reservedField (detBlock (32 + ((List.range 7).find? fun i => !zeroAt b (1 + i) 1).getD 0 + 1))
  else if leAt b 0 1 ≠ (s.led.epoch.toNat + 1) % 16 ∨ s.fab.twinAuth ∨ !s.fab.ownAuth then endCtl s .badFormat (detBlock 32)
  else if !s.time.mAnch then endCtl s .timeUnanchored
  else if !eventsPast s then endCtl s .badFormat (detBlock 32)
  else if hasTwin s && !s.fab.twinMember then endCtl s .homeUnreachable detRouteNone
  else
    let s := setWait s { kind := .roll, home := nodeAddr s, epoch := e, unapplied := true }
    if hasTwin s then
      sendTo (s.onFab fun f => { f with rollAsk := true }) (twinAddr s) (member s .rollQuery (nodeAddr s) (viewOf s (nodeAddr s)).term e.toNat)
    else startRoll s e

/-! ### HAND_BACK (07 R401, R402) -/

/-- Checks 2 to 4 of HAND_BACK. -/
def checkHandBack (s : State) (home term : Nat) : Option Bad :=
  if !decidesFor s home then some (.homeUnreachable, detNotAuthority)
  else if (viewOf s home).term ≠ term then some (.badFormat, detBlock 36)
  else if home = nodeAddr s ∨ !isMember s home ∨ !s.fab.twinShadowOk then some (.homeUnreachable, detRouteNone)
  else none

/-- Steps 1 and 2: operations for the home's serials wait, and its AUTHORITY group is closed; the offer goes out once it is durable and
acknowledged. -/
def startHandBack (s : State) (home : Nat) (viaLed : Bool) : State :=
  let s := closeGroup (s.onLed fun l => { l with deciding := false }) false
  releaseCtl (setWait s { kind := .handBack, home := home, group := s.led.nextAuth - 1, viaLed := viaLed })

def doHandBack (s : State) (b : Bytes) : State :=
  let home := leAt b 0 2 % 4096
  if leAt b 0 2 ≥ 4096 then endCtl s .reservedField (detBlock 33)
  else if !zeroAt b 2 2 then endCtl s .reservedField (detBlock (if zeroAt b 2 1 then 35 else 34))
  else match checkHandBack s home (leAt b 4 4) with | some e => endCtl s e.1 e.2 | none => startHandBack s home false

/-! ### BIND_RING, GET_STATS, keys, time -/

/-- Set a ring's lane mask (03 R144, R145): entries fetched afterwards use it. -/
def bindRing (s : State) (sq : Nat) (mask : BitVec 16) : State := onSq s sq fun r => { r with lanes := if mask = 0 then 0xFFFF else mask }

/-- BIND_RING (03 R144). The reserved bytes are tested before the range of sq: the rule gives no order. DESIGN CHOICE, log entry 106. -/
def doBindRing (s : State) (b : Bytes) : State :=
  let sq := leAt b 0 1
  match firstBad [(zeroAt b 1 1, (.reservedField, detBlock 33)), (zeroAt b 2 1, (.reservedField, detBlock 34)),
      (zeroAt b 3 1, (.reservedField, detBlock 35)), (zeroAt b 6 2, (.reservedField, detBlock 38)),
      (decide (1 ≤ sq) && decide (sq ≤ 31), (.badFormat, detBlock 32))] with
  | some e => endCtl s e.1 e.2
  | none => endCtl (bindRing s sq (BitVec.ofNat 16 (leAt b 4 2))) .done

/-- GET_STATS (03 R146). -/
def doGetStats (s : State) : State := endCtl s .done 0 (statsBytes s.unit.version s.unit.tbl)

/-- A request on a slot of which a change is under way waits until that has ended (10 R566). -/
def keyTurn (s : State) (slot : Nat) (f : State → State) : State :=
  if slotBusy s slot then s.onHq fun h => { h with ctlHeld := true, ctlFor := .record } else f s

/-- Store a checked key and complete the request (10 R557, R561). Its record needs an IV: while the DRBG cannot serve, the request waits for it
(11 R635). -/
def endStore (s : State) (k : NewKey) (origin : Nat) : State :=
  if rngServes s then endCtl (storeNew s k origin) .done 0 (newKeyResponse s k)
  else s.onHq fun h => { h with ctlHeld := true, ctlFor := .random }

/-- IMPORT_KEY and DERIVE_KEY past R130 (10 R556, R559, R561): their checks of form come before the wait for a change of the slot (R566). -/
def doImportKey (s : State) (b : Bytes) : State :=
  match firstBad (importForm b) with
  | some e => endCtl s e.1 e.2
  | none => keyTurn s (leAt b 0 2) fun s =>
    match checkImport s (.core s.unit.active) b with
    | .error e => endCtl s e.1 e.2
    | .ok k => endStore s k 2

def doDeriveKey (s : State) (b : Bytes) : State :=
  match firstBad (deriveForm b) with
  | some e => endCtl s e.1 e.2
  | none => keyTurn s (leAt b 0 2) fun s =>
    match checkDerive s (.core s.unit.active) b with
    | .error e => endCtl s e.1 e.2
    | .ok k => endStore s k 3

/-- RETIRE_KEY past R130 (10 R562): the slot must hold the generation named. -/
def checkRetire (s : State) (b : Bytes) : Option Bad :=
  let slot := leAt b 0 2
  let x := slotOf s slot
  let st := slotState s slot
  match firstBad [(decide (slot < 1024), (.reservedField, detBlock 32)), (zeroAt b 4 4, (.reservedField, detBlock 36)),
      ((enrolWord slot).isNone, (.badFormat, detBlock 32)),
      ((st == .loaded || st == .orphaned) && x.gen == leAt b 2 2 && !x.retiring, (.keyUnusable, detBlock 34))] with
  | some e => some e
  | none => none

def doRetireKey (s : State) (b : Bytes) : State :=
  match checkRetire s b with
  | some e => endCtl s e.1 e.2
  | none => endCtl (retireSlot s (leAt b 0 2)) .done

/-- SET_TIME_VOUCHER past R130 (12 R694, R695). -/
def doVoucher (s : State) (b : Bytes) : State :=
  match checkVoucher s s.unit.active true b with
  | some e => endCtl s e.1 e.2
  | none => endCtl (acceptVoucher s b) .done

/-! ### From the fetched entry to the opcode -/

/-- Checks 9 and 10, and the opcode's effect, once the sequence is recorded (03 R130, R850). -/
def ctlBody (s : State) (e blk : Bytes) : State :=
  let op := leAt e 2 1
  let b := cut blk 32 (leAt blk 24 4)
  if leAt e 16 4 < respLen op then endCtl s .badLength (detSub 16)
  else if (fixedBody op).any (· ≠ b.length) then endCtl s .badLength (detBlock 24)
  else
    match op with
    | 0x01 => doDefineEvent s b
    | 0x02 => doCloseEvent s b
    | 0x03 => doVoidSerials s b
    | 0x04 => doImportKey s b
    | 0x05 => doDeriveKey s b
    | 0x06 => keyTurn s (leAt b 0 2) (doRetireKey · b)
    | 0x07 => doVoucher s b
    | 0x08 => doQueryLedger s b
    | 0x09 => doEpochRoll s b
    | 0x0A => doBindRing s b
    | 0x0B => doGetStats s
    | _ => doHandBack s b

/-- Has what a held request waits for come: every append before its own records is committed (09 R514), or the DRBG serves (11 R635)? A publish ends the
request itself. -/
def ctlReady (s : State) : Bool :=
  s.hq.ctlHeld && match s.hq.ctlFor with
    | .record => appendsNow s
    | .random => rngServes s
    | .publish => false

/-- A held request goes on. -/
def ctlResume (s : State) : State :=
  match s.hq.ctlFetched with
  | some e =>
    match e.block with
    | some blk => if ctlReady s then ctlBody (s.onHq fun h => { h with ctlHeld := false }) e.bytes blk else s
    | none => s
  | none => s

/-- Is the sequence record of the CONTROL request in hand still to be committed? -/
def ctlQueued (s : State) : Bool := s.store.queue.any fun a => a.record.typ == 0x0106

/-- A CONTROL request that was held goes on when its sequence is committed and the append engine is free again. -/
def ctlGo (s : State) : State := if ctlQueued s then s else ctlResume s

/-- The sequence of a request that passed checks 1 to 8 is recorded, and its block is in hand; the request is held while that append is deferred
(03 R131, 09 R514), and ends INTERNAL_FAULT when the record store has no room for it (12 R661). -/
def ctlRecorded (s : State) (e : CtlEntry) (blk : Bytes) : State :=
  let now := appendsNow s
  let s := append s (.serge s.unit.active) 1 0x0106 0 (leBytes 8 (leAt blk 16 8))
  let s := s.onHq fun h => { h with ctlHeld := !now, ctlFor := .record, ctlFetched := some { e with block := some blk } }
  if now || ctlQueued s then s else endCtl s .internalFault

/-- Process the entry in flight with its request block as read: in safe mode it completes PAUSED (09 R511); else checks 1 to 8, the sequence
record, then the rest, which waits while that append is deferred (03 R130, R131, 09 R514). -/
def ctlRun (s : State) (e : CtlEntry) (block : Bytes) : State :=
  if s.pow.safe then endCtl s .paused
  else
    let blk := fit (leAt e.bytes 4 4) block
    match ctlChecks s e.bytes blk with
    | some x => endCtl s x.1 x.2
    | none =>
      if appendsNow s then ctlBody (ctlRecorded s e blk) e.bytes blk else ctlRecorded s e blk

/-- The active control core, or in safe mode its boot ROM, takes the entry in flight whose opcode is `op`; one whose opcode is not defined is
taken as any (it fails check 3). An operation that stands unapplied is tried again. -/
def ctlRequest (op : Nat) (block : Bytes) (s : State) : State :=
  match s.hq.ctlFetched with
  | some e =>
    let mine := leAt e.bytes 2 1 == op || !opDefined (leAt e.bytes 2 1)
    if !mine || !(coreUp s s.unit.active || s.pow.safe) || s.hq.ctlHeld then s
    else if s.hq.ctlWait.kind = .none then ctlRun s e block
    else if s.hq.ctlWait.kind = .void ∧ s.hq.ctlWait.unapplied ∧ !s.hq.ctlWait.viaLed then
      match e.block with
      | some blk => applyVoid s s.hq.ctlWait.home (serialLocal (leAt blk 32 7)) (serialLocal (leAt blk 40 7)) false
      | none => s
    else if s.hq.ctlWait.kind = .roll ∧ !s.hq.ctlWait.viaLed then resumeRoll s
    else s
  | none => s

/-- DEFINE_EVENT (R136). -/
def execDefineEvent (block : Bytes) (s : State) : Result := done (ctlRequest 0x01 block s)
/-- CLOSE_EVENT (R139). -/
def execCloseEvent (block : Bytes) (s : State) : Result := done (ctlRequest 0x02 block s)
/-- VOID_SERIALS (R320). -/
def execVoidSerials (block : Bytes) (s : State) : Result := done (ctlRequest 0x03 block s)
/-- IMPORT_KEY (R556). -/
def execImportKey (block : Bytes) (s : State) : Result := done (ctlRequest 0x04 block s)
/-- DERIVE_KEY (R559). -/
def execDeriveKey (block : Bytes) (s : State) : Result := done (ctlRequest 0x05 block s)
/-- RETIRE_KEY (R564). -/
def execRetireKey (block : Bytes) (s : State) : Result := done (ctlRequest 0x06 block s)
/-- SET_TIME_VOUCHER (R694). -/
def execSetTimeVoucher (block : Bytes) (s : State) : Result := done (ctlRequest 0x07 block s)
/-- QUERY_LEDGER (R318). -/
def execQueryLedger (block : Bytes) (s : State) : Result := done (ctlRequest 0x08 block s)
/-- EPOCH_ROLL (R341). -/
def execEpochRoll (block : Bytes) (s : State) : Result := done (ctlRequest 0x09 block s)
/-- BIND_RING (R144). -/
def execBindRing (block : Bytes) (s : State) : Result := done (ctlRequest 0x0A block s)
/-- GET_STATS (R146). -/
def execGetStats (block : Bytes) (s : State) : Result := done (ctlRequest 0x0B block s)
/-- HAND_BACK (R402). -/
def execHandBack (block : Bytes) (s : State) : Result := done (ctlRequest 0x0C block s)

/-- CONTROL_BLOCK_READ_FAIL (R852): the request passed checks 1 and 2, and its block could not be read. -/
def execControlBlockReadFail (s : State) : Result :=
  done (match s.hq.ctlFetched with
    | some e =>
      let n := leAt e.bytes 4 4
      if s.hq.ctlHeld || s.hq.ctlWait.kind != .none || !coreUp s s.unit.active then s
      else if s.pow.safe then endCtl s .paused
      else match ctlRsv e.bytes with
        | some o => endCtl s .reservedField (detSub o)
        | none => if n < 96 ∨ n > 8192 then endCtl s .badLength (detSub 4) else endCtl s .internalFault detDmaRead
    | none => s)

end Sys2Proof.Machine
end

