-- ==== Sys2Proof/Machine/Digest.lean ====
section
/-! DEFINITION. The digest engine and the measurement registers (11 R592-R617), with the commands of the DIG window. -/

namespace Sys2Proof.Machine

/-- A core's view of the DIG window; core G has no such window. -/
def digGet (s : State) (c : CoreId) : DigCore := if c = .a then s.dig.a else s.dig.b
def digUpd (s : State) (c : CoreId) (f : DigCore → DigCore) : State :=
  s.onDig fun d => if c = .a then { d with a := f d.a } else if c = .b then { d with b := f d.b } else d

/-- Record the outcome of a write (R595). -/
def digResult (s : State) (c : CoreId) (r : BitVec 4) : State := digUpd s c fun d => { d with result := r }

/-- Extend a measurement register by a 48-byte value (R606), and send the new value to the Gatehouse copy (R617). -/
def extend (s : State) (n : Nat) (v : Bytes) : State :=
  let m := bvBytes (Config.sha384 (measOf s.dig.meas n ++ v))
  s.onDig fun d => { d with
    meas := tput [] d.meas n m
    gateMeas := if s.pow.linkUp then tput [] d.gateMeas n m else d.gateMeas }

/-- Release the FIRMWARE context; the HMAC key of the message is zeroed (R597, R599). -/
def digFree (s : State) : State := s.onDig fun d => { d with owner := none, running := none, hmacKey := none, msg := [] }

/-- End the message in the FIRMWARE context with ABORTED (R598). -/
def digEnd (s : State) : State :=
  match s.dig.owner with
  | some c => digFree (digResult s c 7)
  | none => s

/-- The digest of a message (R592). -/
def digestOf (alg : BitVec 2) (key : Option Bytes) (m : Bytes) : Bytes :=
  match key, alg.toNat with
  | none, 0 => bvBytes (Config.sha256 m)
  | none, 1 => bvBytes (Config.sha384 m)
  | none, _ => bvBytes (Config.sha512 m)
  | some k, 0 => bvBytes (Config.hmac256 k m)
  | some k, 1 => bvBytes (Config.hmac384 k m)
  | some k, _ => bvBytes (Config.hmac512 k m)

/-- A core's handle table. -/
def handlesOf (s : State) (c : CoreId) : List Handle := if c = .a then s.key.handlesA else if c = .b then s.key.handlesB else []

/-- The key a handle names, for its holder (10 R549, R553). -/
def useHandle (s : State) (c : CoreId) (w : W36) (kinds : List (BitVec 8)) : Except Status (KeyRef × Slot) :=
  let k : KeyRef := { slot := handleSlot w, gen := handleGen w }
  if w.tag ≠ tHandle ∨ !(handlesOf s c).any (fun h => h.slot == k.slot && h.gen == k.gen) then .error .keyUnusable
  else match resolve s (.core c) k kinds with
    | .error e => .error e
    | .ok x => .ok (k, x)

/-- DIG_START (R594-R597, R599). -/
def digBegin (s : State) (c : CoreId) (v : BitVec 32) : State :=
  let alg := v.extractLsb' 0 2
  if !unitTakes s 0x39 then digResult s c 8
  else if s.dig.owner.isSome then digResult s c 2
  else if v.extractLsb' 3 29 ≠ 0 ∨ alg = 3 then digResult s c 4
  else
    let key := if v.getLsbD 2 then (match useHandle s c (digGet s c).key [kHmac] with | .ok x => some (some x.2.material) | .error _ => none)
               else some none
    match key with
    | none => digResult s c 5
    | some k =>
      digUpd (s.onDig fun d => { d with owner := some c, alg := alg, hmacKey := k, msg := [], running := none }) c fun d =>
        { d with done := false, early := false, result := 1, count := 0, bank := [] }

/-- Do the ownership rules let core `c` command the context now (R597, R600)? The result to record otherwise. -/
def digRefuse (s : State) (c : CoreId) : Option (BitVec 4) :=
  if !unitTakes s 0x39 then some 8
  else if s.dig.owner ≠ some c then some 3
  else if s.dig.running.isSome then some 2
  else none

/-- DIG_UPDATE (R593, R595, R598). -/
def digAbsorb (s : State) (c : CoreId) : State :=
  let d := digGet s c
  match digRefuse s c with
  | some r => digResult s c r
  | none =>
    let n := d.len.toNat
    if n > 4096 then digResult s c 4
    else if s.dig.msg.length + n ≥ 2 ^ 32 then digResult s c 6
    else match readStr s c d.addr.toNat n with
      | none => digResult (digFree s) c 4
      | some b =>
        digUpd (s.onDig fun d => { d with msg := d.msg ++ b, running := some 15 }) c fun d => { d with result := 1, count := d.count + n }

/-- DIG_FINISH (R601, R602, R604): the value is checked; the outcome follows with DIG_COMMAND_END. -/
def digClose (s : State) (c : CoreId) (v : BitVec 32) : State :=
  match digRefuse s c with
  | some r => digResult s c r
  | none =>
    let dest := v.extractLsb' 0 4
    let meas := dest == 6 || dest == 7
    if v.extractLsb' 4 28 ≠ 0 ∨ (dest ≠ 0 ∧ !meas) ∨ (meas ∧ (s.dig.alg ≠ 1 ∨ s.dig.hmacKey.isSome)) then digResult s c 4
    else digResult (s.onDig fun d => { d with running := some dest }) c 1

/-- DIG_ABORT (R597). -/
def digAbandon (s : State) (c : CoreId) : State :=
  if !unitTakes s 0x39 then digResult s c 8
  else if s.dig.owner ≠ some c then digResult s c 3
  else digResult (digFree s) c 1

/-- DIG_COMMAND_END (R593, R602, R604): a finish delivers its digest or its extend and releases the context. -/
def execDigCommandEnd (s : State) : Result :=
  done (match s.dig.owner, s.dig.running with
    | some c, some dest =>
      let s := irqMain s 11
      if dest = 15 then s.onDig fun d => { d with running := none }
      else
        let v := digestOf s.dig.alg s.dig.hmacKey s.dig.msg
        let s := if dest = 0 then digUpd s c fun d => { d with bank := v } else extend s dest.toNat v
        digFree (digUpd s c fun d => { d with done := true })
    | _, _ => s)

/-- A word of a measurement register as a core reads it (R608): word 0 latches the register; a later word is the latched one, or the live one
when none was latched. -/
def measWord (s : State) (c : CoreId) (n w : Nat) : W36 × State :=
  let live := measOf s.dig.meas n
  let word := fun (b : Bytes) => bitsW (BitVec.ofNat 32 (leAt b (4 * w) 4))
  if w = 0 then (word live, digUpd s c fun d => { d with latch := tput [] d.latch n live })
  else (match assoc n (digGet s c).latch with | some b => (word b, s) | none => (word live, s))

end Sys2Proof.Machine
end

