-- ==== Sys2Proof/Machine/Random.lean ====
section
/-! DEFINITION. The noise bank and the DRBG (11 R618-R643), with the commands of the RNG window. -/

namespace Sys2Proof.Machine

/-- A core's view of the RNG window. -/
def rngGet (s : State) (c : CoreId) : RngCore := if c = .a then s.rng.a else s.rng.b
def rngUpd (s : State) (c : CoreId) (f : RngCore → RngCore) : State :=
  s.onRng fun r => if c = .a then { r with a := f r.a } else if c = .b then { r with b := f r.b } else r

/-- DEV_STATUS.rng_ready (R637). -/
def rngReady (s : State) : Bool := s.rng.inst && (!s.rng.limit || s.rng.full)

/-- A change that may change rng_ready sets DEV_CAUSE.rng when it does (R637). -/
def rngStep (s : State) (f : State → State) : State :=
  let t := f s
  if rngReady t = rngReady s then t else cause t 10

/-! ### Firmware commands (R633, R640-R643) -/

/-- Write the output of a core's waiting command. -/
def rngServe (s : State) (c : CoreId) : State :=
  let r := rngGet s c
  if r.waiting && !r.fresh && rngServes s then
    let b := randBytes s r.len.toNat
    let s := writeStr (drew s r.len.toNat) c r.addr.toNat b
    rngUpd s c fun r => { r with waiting := false, written := true, status := .done }
  else s

/-- Serve every request that waits, in the order of R633: the key engine's for a CONTROL request, lanes, then Serge A, then Serge B. -/
def rngServeAll (s : State) : State :=
  rngServe (rngServe (serveDraws (s.when (s.hq.ctlFor == .random) ctlResume)) .a) .b

/-- RNG_CMD (R640, R641): an undefined command or length ends with BAD_FORMAT at RNG_COMMAND_END. -/
def rngCmd (s : State) (c : CoreId) (v : Nat) : State :=
  let r := rngGet s c
  if r.busy then s
  else
    let bad := decide (v ≠ 1 ∧ v ≠ 2) || decide (r.len.toNat < 1 ∨ r.len.toNat > 4096)
    let s := rngUpd s c fun r => { r with
      busy := true, done := false, status := if bad then .badFormat else .done, written := false, waiting := !bad, fresh := decide (v = 2) }
    -- GENERATE_FRESH reseeds from bits gathered after the command
    let s := s.when (!bad && decide (v = 2)) fun s => s.onRng fun x => { x with full := false, entropy := [] }
    rngStep s fun s => rngServe s c

/-- End a core's random command: done, and RNG_EVENT. -/
def rngEnd (s : State) (c : CoreId) : State :=
  irqMain (rngUpd s c fun r => { r with busy := false, done := true, waiting := false, written := false, fresh := false }) 12

/-- RNG_COMMAND_END (R642). -/
def execRngCommandEnd (c : CoreId) (s : State) : Result :=
  done (s.when ((rngGet s c).busy && !(rngGet s c).waiting) fun s => rngEnd s c)

/-- DRBG_REQUEST_TIMEOUT (R635): a request of a core ends with RANDOM_NOT_READY, with nothing consumed and nothing written: its RNG command, else the
KEY command it runs, else the CONTROL request that the active core holds. -/
def execDrbgRequestTimeout (c : CoreId) (s : State) : Result :=
  done (
    if (rngGet s c).waiting then rngEnd (rngUpd s c fun r => { r with status := .randomNotReady }) c
    else match s.key.cmdHeld with
      | some (d, _) =>
        s.when (d == c) fun s => s.onKey fun k => { k with cmdHeld := none, cmdRun := some { core := c, code := .randomNotReady } }
      | none => s.when (s.hq.ctlHeld && s.hq.ctlFor == .random && s.unit.active == c) fun s => endCtl s .randomNotReady)

/-- A tamper response of level 2 or above during a core's command (R642): TAMPER_ABORT, and output already written becomes BITS 0. -/
def rngAbort (s : State) (c : CoreId) : State :=
  let r := rngGet s c
  if !r.busy then s
  else
    let s := s.when r.written fun s => writeStr s c r.addr.toNat (zeros r.len.toNat)
    rngEnd (rngUpd s c fun r => { r with status := .tamperAbort }) c

/-! ### The DRBG (R629-R637) -/

/-- Bytes of an entropy input by conditioning mode (R630): 640, 512 or 448 bits. -/
def entropyBytes (mode : BitVec 2) : Nat := match mode.toNat with | 0 => 80 | 1 => 64 | _ => 56

/-- The personalisation string (R630): the unit number and TIME_NOW, big-endian. -/
def persString (s : State) : Bytes := unitBe s ++ beBytes 8 s.time.mUs

/-- A reseed from the full buffer, with no additional input; the bank then refills it (R630, R632). -/
def reseed (s : State) : State :=
  s.onRng fun r => { r with full := false, limit := false, requests := 0, reseeds := r.reseeds + 1
                            seed := bvBytes (Config.drbgReseed r.seed r.entropy), entropy := []
                            a := { r.a with fresh := false }, b := { r.b with fresh := false } }

/-- The fresh reseed of 10 R525 and R531: from bits gathered after the request for it (R643). -/
def freshReseed (s : State) : State :=
  reseed (s.onRng fun r => { r with entropy := (List.range (entropyBytes r.mode)).map (Config.freshEntropy r.reseeds) })

/-- The DRBG state and its buffer are zeroed (R636). -/
def rngZero (s : State) : State := rngStep s fun s => s.onRng fun r => { r with inst := false, full := false, limit := false, seed := [], entropy := [], nonce := [] }

/-- Instantiate, or make a reseed that is waited for, when the buffer is full (R632, R634); not while a tamper response of level 2 is in force
(R636). Requests that waited are then served. -/
def rngFeed (s : State) : State :=
  if !s.rng.full || s.rng.bank != .ready then s
  else if !s.rng.inst then
    if s.tmp.inForce && decide (s.tmp.level.toNat ≥ 2) && !s.tmp.restarting then s
    else rngServeAll (s.onRng fun r => { r with
      inst := true, full := false, limit := false, requests := 0
      seed := bvBytes (Config.drbgSeed r.entropy r.nonce (persString s)), entropy := [], nonce := [] })
  else if s.rng.limit || s.rng.a.fresh || s.rng.b.fresh then rngServeAll (reseed s)
  else s

/-- RESEED_BUFFER_FULL (R630, R632, R634): the bits of passing windows that a READY bank has gathered (R623) fill the next entropy input; before the
DRBG is instantiated, 128 further bits are its nonce. -/
def execReseedBufferFull (bits : Bytes) (s : State) : Result :=
  done (s.when (s.rng.bank == .ready && !s.rng.full && s.pow.mainUp) fun s =>
    let n := entropyBytes s.rng.mode
    tryOpen (rngStep s fun s => rngFeed (s.onRng fun r => { r with
      full := true, entropy := fit n bits, nonce := if r.inst then [] else fit 16 (bits.drop n) })))

/-- DRBG_RESEED_LIMIT (R631): the reseed follows at once when the buffer is full. A DRBG whose bank has FAILED is zeroed once its last permitted
request has been served (R626, R636). -/
def execDrbgReseedLimit (s : State) : Result :=
  done (s.when s.rng.inst fun s =>
    if s.rng.bank == .failed then rngZero s
    else rngStep s fun s => rngFeed (s.onRng fun r => { r with limit := true }))

/-! ### The noise bank (R622-R628) -/

def sourceUnit (n : Nat) : Nat := 0x40 + n

/-- The next source after `n`, in the order 0, 1, 2, 3, 0, whose unit is ACTIVE (R624 step 3). -/
def nextSource (s : State) (n : Nat) : Option Nat :=
  (([1, 2, 3].map fun i => (n + i) % 4).find? fun m => unitActive s (sourceUnit m))

/-! Conditioning (R618). -/

/-- Conditioned bits of successive raw bits, and the raw bits left over: XOR of 2, XOR of 4, or the first of each unequal pair (the output of the
debiaser is PRESUMED, log entry 132). -/
def conditioned (mode : BitVec 2) : List Bool → List Bool × List Bool
  | a :: b :: c :: d :: t =>
    if mode = 1 then let r := conditioned mode t; ((a ^^ b ^^ c ^^ d) :: r.1, r.2)
    else
      let r := conditioned mode t
      if mode = 0 then ((a ^^ b) :: (c ^^ d) :: r.1, r.2)
      else ((if a = b then [] else [a]) ++ (if c = d then [] else [c]) ++ r.1, r.2)
  | a :: b :: t =>
    if mode = 1 then ([], a :: b :: t) else if mode = 0 then ([a ^^ b], t) else (if a = b then [] else [a], t)
  | t => ([], t)

/-! Health tests (R619, R620). -/

/-- Cutoffs of the repetition-count and adaptive-proportion tests by conditioning mode (R619). -/
def repCutoff (mode : BitVec 2) : Nat := match mode.toNat with | 0 => 68 | 1 => 49 | _ => 46
def propCutoff (mode : BitVec 2) : Nat := match mode.toNat with | 0 => 784 | 1 => 682 | _ => 663

/-- One conditioned bit: the run of identical bits and the window, which counts its first bit and is followed by the next without overlap (R620;
SP 800-90B, 4.4). -/
def healthBit (h : Health) (b : Bool) : Health :=
  let run := if h.last = some b then h.run + 1 else 1
  if h.pos = 0 ∨ h.pos ≥ 1024 then { last := some b, run := run, first := b, pos := 1, same := 1 }
  else { last := some b, run := run, first := h.first, pos := h.pos + 1, same := if b = h.first then h.same + 1 else h.same }

/-- Which tests fail now: repetition-count, adaptive-proportion (R620). -/
def healthFails (mode : BitVec 2) (h : Health) : Bool × Bool := (decide (h.run ≥ repCutoff mode), decide (h.same ≥ propCutoff mode))

/-- Run the tests over bits, up to the first failure. -/
def healthRun (mode : BitVec 2) : Health → List Bool → Health × Option (Bool × Bool)
  | h, [] => (h, none)
  | h, b :: t =>
    let h := healthBit h b
    let f := healthFails mode h
    if f.1 || f.2 then (h, some f) else healthRun mode h t

/-- Put the bank on a source, SWITCHING; with none left it is FAILED, and FAILED is posted against the DRBG (R624, R626). -/
def bankTo (s : State) (next : Option Nat) : State :=
  let s := irqMain (cause (s.onRng fun r => { r with full := false, entropy := [], nonce := [], raw := [], health := {} }) 10) 12
  match next with
  | some m => s.onRng fun r => { r with bank := .switching, source := m }
  | none => observe (s.onRng fun r => { r with bank := .failed }) 0x44 .failed 2 0x0B

/-- A source has failed a test: it is counted, its unit is posted FAILED with HEALTH, and a failure within 24 hours of a return to service is
noted (R624, R627). -/
def sourceFailed (s : State) (n : Nat) (f : Bool × Bool) : State :=
  let again := match tget none s.rng.returned n with | some t => decide (s.time.clk - t < 86400000000) | none => false
  let s := s.onRng fun r => { r with
    fails := tupd 0 r.fails n fun v =>
      (if f.2 then satInc 16 (v / 65536) else v / 65536) * 65536 + (if f.1 then satInc 16 (v % 65536) else v % 65536)
    blocked := if again then tput false r.blocked n true else r.blocked }
  observe s (sourceUnit n) .failed 2 0x0B

/-- NOISE_HEALTH_FAIL (R618-R620, R624): the next raw bits of the source in use are conditioned and pass through its tests; where one reaches its cutoff,
the source fails. -/
def execNoiseHealthFail (bits : List Bool) (s : State) : Result :=
  done (s.when (s.rng.bank == .ready && s.pow.mainUp) fun s =>
    let n := s.rng.source
    let x := conditioned s.rng.mode (s.rng.raw ++ bits)
    match healthRun s.rng.mode s.rng.health x.1 with
    | (h, none) => s.onRng fun r => { r with health := h, raw := x.2 }
    | (_, some f) => rngStep (sourceFailed s n f) fun s => bankTo s (nextSource s n))

/-- A source in use whose unit leaves ACTIVE by a decision: the bank goes on with the next, without any post. -/
def sourceLeft (s : State) (n : Nat) : State :=
  s.when (s.rng.source == n && (s.rng.bank == .ready || s.rng.bank == .switching || s.rng.bank == .starting)) fun s =>
    rngStep s fun s => bankTo s (nextSource s n)

/-- RNG_SELECT (R628): a bank that is FAILED has no source in use, and takes one that is ACTIVE again. -/
def rngSelect (s : State) (v : BitVec 32) : State :=
  let n := (v.extractLsb' 0 2).toNat
  s.when ((decide (n ≠ s.rng.source) || s.rng.bank == .failed) && unitActive s (sourceUnit n) && s.rng.bank != .stopped) fun s =>
    rngStep s fun s => bankTo s (some n)

/-- RNG_TEST (R627, R640): ignored unless the source is in TESTING. -/
def rngTest (s : State) (v : BitVec 32) : State :=
  let n := (v.extractLsb' 0 2).toNat
  s.when (unitSt s (sourceUnit n) == .testing && s.rng.testing.isNone) fun s =>
    s.onRng fun r => { r with testing := some n, testResult := 0, early := false }

/-- How a start-up test ends on raw bits (R618, R621): none once 4,096 conditioned bits have passed both tests, else the tests that failed. Bits too few
to pass leave it running. -/
def startupTest (mode : BitVec 2) (raw : List Bool) : Option (Option (Bool × Bool)) :=
  let bits := (conditioned mode raw).1
  match (healthRun mode {} (bits.take 4096)).2 with
  | some f => some (some f)
  | none => if (bits.take 4096).length = 4096 then some none else none

/-- NOISE_STARTUP_TEST_DONE (R621, R625, R627) with the raw bits taken after the oscillator settled: of a source under RNG_TEST, which posts TEST_PASSED or
FAILED, or of the source the bank is trying. -/
def execNoiseStartupTestDone (source : Nat) (bits : List Bool) (s : State) : Result :=
  done (match startupTest s.rng.mode bits with
  | none => s
  | some fail =>
    if s.rng.testing = some source then
      let s := s.onRng fun r => { r with testing := none, testResult := if fail.isNone then 1 else 2 }
      let s := irqMain s 12
      match fail with
      | none =>
        observe (s.onRng fun r => { r with returned := tput none r.returned source (some s.time.clk), blocked := tput false r.blocked source false })
          (sourceUnit source) .active 2 0x11
      | some f => sourceFailed s source f
    else s.when ((s.rng.bank == .starting || s.rng.bank == .switching) && s.rng.source == source && s.pow.mainUp) fun s =>
      match fail with
      | none => irqMain (s.onRng fun r => { r with bank := .ready, raw := [], health := {} }) 12
      | some f => rngStep (sourceFailed s source f) fun s => bankTo s (nextSource s source))

end Sys2Proof.Machine
end

