-- ==== Sys2Proof/Machine/Units.lean ====
section
/-! DEFINITION. Meeting point M1 (09 R496-R507, R858, 14 R750-R756): decisions on posts, the ordered change of a unit's state and its effects,
drives leaving the serving set (06 R335), node-level failover (01 R41), halted cores (09 R501, R502). -/

namespace Sys2Proof.Machine

/-! ### Node-level failover (01 R41) -/

/-- Node-level failover begins: the data plane closes, and the open groups are sealed so that every request in flight settles. The withdrawal
follows with FAILOVER_SETTLED. -/
def startFailover (s : State) : State :=
  if s.unit.failover then s
  else
    let s := s.onUnit fun m => { m with failover := true }
    let s := s.when (s.hq.open_) closePlane
    closeGroup (closeGroup s true) false

/-- Has every request in flight settled (01 R41)? -/
def allSettled (s : State) : Bool := s.lane.reqs.isEmpty && s.hq.ctlWait.kind == .none

/-- The end of node-level failover (R41): every request in flight has settled, and the node withdraws from the fabric. -/
def failoverEnd (s : State) : State := s.when (s.unit.failover && allSettled s && !s.fab.withdrawn) withdraw

/-! ### Settling R317, WITHDRAW of the home, mirrored groups (06 R306, R317, R861, 07 R397) -/

/-- R317 is settled once it is known that neither side lacks a group of this home; a home whose journal is the longer, or whose partner never was heard
and is excluded, proceeds when the partner is no member (06 R861). The data plane may then open. -/
def trySettle (s : State) : State :=
  s.when (!s.led.settled && s.led.replayed && s.fab.joined) fun s =>
    let longer := if s.fab.twinKnown then decide (s.fab.twinHas < s.led.ownEnd) else !(viewOf s (nodeAddr s)).twinMember
    if !hasTwin s || (s.fab.twinKnown && s.fab.twinHas == s.led.ownEnd) || (!isMember s (twinAddr s) && longer) then
      tryOpen (s.onLed fun l => { l with settled := true })
    else s

/-- What waited for authority goes on: groups that are now durable, a lease opening, held forwards (05 R233, R255, 04 R197). -/
def afterGain (s : State) : State := serveHeld (tryLease (settle s))

/-- The twin takes authority once it has received every group the home's WITHDRAW named and its shadow is complete (07 R397). -/
def tryWithdrawn (s : State) : State :=
  match s.fab.withdrawWait with
  | some g =>
    if decide (lastMirrored s false ≥ g) && s.fab.shadowOk && !s.fab.twinAuth then
      afterGain (takeAuthority s ((viewOf s (twinAddr s)).term + 1))
    else s
  | none => s

/-- Mirrored groups of a home written on every serving drive are held, in order: the group end follows, the last is acknowledged (06 R306), and what waits
for them is released. -/
def mirrorWritten (s : State) (own : Bool) : State :=
  let home := if own then nodeAddr s else twinAddr s
  let mine := s.led.groups.filter fun g => g.source == 1 && g.home == home && !g.dead
  let held := (mine.takeWhile (onServing s)).map (·.seq)
  match held.getLast? with
  | none => s
  | some g =>
    let s := s.onLed fun l => { l with
      groups := l.groups.filter fun x => !(x.source == 1 && x.home == home && !x.dead && decide (x.seq ≤ g))
      mirEnd := if own then l.mirEnd else g
      ownEnd := if own then g else l.ownEnd, nextGroup := if own then max l.nextGroup (g + 1) else l.nextGroup }
    let s := sendTo s (twinAddr s) (.groupAck s.led.epoch g)
    trySettle (tryWithdrawn (settle s))

/-! ### Drives (06 R335, R337, R311) -/

/-- A drive leaves the set of drives in use: its label is set RETIRED where it can still be written, DEV_CAUSE.drive is set, and a node left
with no serving drive takes node-level failover. Groups that stand on every drive still serving are durable, and mirrored ones are acknowledged. -/
def dropDrive (s : State) (d : Nat) (writable : Bool) : State :=
  let x := tget {} s.drives d
  if !x.serving && x.resilver == 0 then s
  else
    let s := onDrive s d fun x => { x with
      serving := false, resilver := 0, progress := 0 }
    let s := s.when writable (writeLabel · d 3)
    let s := irqMain (cause s 5) 15
    if (servingDrives s).isEmpty then startFailover s else mirrorWritten (mirrorWritten (settle s) false) true

/-! ### Halted cores (09 R501, R502) -/

/-- Does a main-die core run: out of reset and not halted, in boot ROM or in program RAM? -/
def coreRuns (s : State) (c : CoreId) : Bool := !(coreGet s c).halted && !(coreGet s c).inReset

/-- With neither main-die core running, the power controller closes the data plane and carries out R41 (09 R502). -/
def coresGone (s : State) : State := s.when (s.pow.mainUp && !coreRuns s .a && !coreRuns s .b) startFailover

/-- A core has stopped: HALT is posted against its unit, PEER_LOST rises on the other main-die core (for core G, G_MAIL on both), DB_ALERT
rings (09 R501); R502 follows. -/
def coreStopped (s : State) (c : CoreId) : State :=
  let s := observe s (coreUnit c) .failed 2 0x08
  let s := match c with
    | .g => irqMain s 9
    | _ => irq s (peerOf c) 1
  coresGone (mgtAlert (dbAlert s) 6)

/-! ### The ordered change of a unit's state (09 R503, R505, R506) -/

/-- An entry word (09 R506). -/
def entryWord (st : UState) (lanes : BitVec 2) (reason : Byte) : BitVec 32 :=
  BitVec.ofNat 32 (ustCode st + 8 * lanes.toNat + 256 * reason.toNat)

/-- The transitions MBX_APPLY accepts (09 R503); `lanesChange` is the last row. -/
def transitionOk (e : UnitEnt) (new : UState) (lanesChange : Bool) : Bool :=
  match e.st, new with
  | .absent, _ => false
  | _, .absent => false
  | _, .failed => true
  | .active, .draining => true
  | .active, .disputed => true
  | .active, .active => lanesChange
  | .draining, .active => true
  | .disputed, .active => true
  | .draining, .retired => e.drained
  | .disputed, .retired => e.drained
  | .retired, .testing => true
  | .failed, .testing => true
  | .testing, .active => true
  | .testing, .retired => true
  | _, _ => false

/-- Does a unit still hold work (09 R503)? -/
def unitBusy (s : State) (u : Nat) : Bool :=
  if u < 16 then s.lane.reqs.any fun p => decide (p.1 / 64 = u)
  else if u < 32 then s.hbm.rebuilding.contains u
  else if u = 0x3A then !s.lane.pqQueue.isEmpty
  else if u = 0x30 ∨ u = 0x31 then s.unit.active == (if u = 0x30 then CoreId.a else CoreId.b) && s.hq.ctlFetched.isSome
  else false

/-- End the requests a failed lane holds (09 R503, 03 R153): a unit fault stopped them. -/
def stopLane (s : State) (l : Nat) : State :=
  (((s.lane.reqs.filter fun p => decide (p.1 / 64 = l)).map Prod.fst).foldl
    (fun s k => match getReq s k with | some r => endReq s r .internalFault | none => s) s)

/-- Send a link control block. -/
def sendBlock (s : State) (p : Port) (b : LinkBlock) : State := s.onOut fun o => { o with blocks := o.blocks ++ [(p, b)] }

def portOf (u : Nat) : Port :=
  match u with
  | 0x20 => .xp | 0x21 => .xm | 0x22 => .yp | 0x23 => .ym | 0x24 => .zp | _ => .zm

/-- One lane of a port is retired (07 R414): DEGRADE is sent and frames stop until the retrain ends. A link with no lane left goes DOWN. -/
def retireLanes (s : State) (p : Port) (lanes : BitVec 2) : State :=
  let old := (portSt s p).lanesRetired
  let s := onPort s p fun l => { l with lanesRetired := lanes }
  if lanes = 3 then linkDown s p
  else if old = 0 ∧ lanes ≠ 0 ∧ linkUp s p then
    sendBlock (onPort s p fun l => { l with retraining := true }) p (.degrade (if lanes.getLsbD 0 then 0 else 1))
  else s

/-- Pages of the cache at its full size, and pages of one pseudo-channel, by stack (06 R283, R339). -/
def fullCache (v : Variant) : Nat := if v = .slx4806 then 2621440 else 4456448
def channelPages (v : Variant) : Nat := if v = .slx4806 then 262144 else 393216

/-- The page cache follows the pseudo-channels retired or failed: the first leaves it at its full size, each further one takes one channel's capacity
from it (06 R339); pages beyond it are evicted. -/
def fitCache (s : State) : State :=
  let n := ((List.range 16).filter fun c => unitSt s (0x10 + c) == .retired || unitSt s (0x10 + c) == .failed).length
  let s := s.onHbm fun h => { h with retirements := n, cachePages := fullCache s.pow.variant - (n - 1) * channelPages s.pow.variant }
  (List.range ((s.led.pages.filter fun p => p.2.cached).length - s.hbm.cachePages)).foldl (fun s _ => evict s) s

/-- A pseudo-channel that leaves ACTIVE is rebuilt into the headroom, whatever others are being rebuilt; one that returns to ACTIVE, or that has been
rebuilt and is RETIRED, is so no more (06 R338). With fewer than 12 ACTIVE node-level failover follows (R339). -/
def pcEffects (s : State) (u : Nat) (new : UState) : State :=
  let s := s.onHbm fun h => { h with
    rebuilding := h.rebuilding.filter (· != u) ++ if new = .draining ∨ new = .disputed ∨ new = .failed then [u] else [] }
  let s := fitCache s
  s.when (new != .active && decide ((activePcs s).length < 12)) startFailover

/-- What a new applied state does to the unit and to the work it holds (09 R503, R504 and the chapter of each unit). -/
def unitEffects (s : State) (u : Nat) (new : UState) : State :=
  let gone := new == .retired || new == .failed
  if u < 16 then
    if new = .active then s
    else
      let s := purgeLane s u
      if new = .failed then stopLane s u else s
  else if u < 32 then pcEffects s u new
  else if 0x20 ≤ u ∧ u < 0x26 then
    if gone ∧ linkUp s (portOf u) then linkDown (sendBlock s (portOf u) .down) (portOf u)
    else if gone then onPort s (portOf u) fun l => { l with link := .down }
    else s
  else if u = 0x28 ∨ u = 0x29 then
    -- SSD_PERST of a RETIRED port is held low, and released for the test that brings it back (14 R768)
    let s := if new = .retired ∨ new = .testing then s.onPow fun p => { p with perst := setBit p.perst (u - 0x28) (new == .retired) } else s
    if gone then dropDrive s (u - 0x28) true else s
  else if u = 0x30 ∨ u = 0x31 then
    if gone then coresGone (coreUpd s (if u = 0x30 then .a else .b) fun k => { k with inReset := true }) else s
  else if u = 0x39 then (if new = .active then s else digEnd s)
  else if u = 0x3A then irqMain (if new = .active then s else endJobs s) 19
  else if 0x40 ≤ u ∧ u < 0x44 then (if new = .active then s else sourceLeft s (u - 0x40))
  else if failoverUnits.contains u ∧ gone then startFailover s
  else s

/-- Steps 3 and 4 of R505: the Gatehouse copy takes the entry and DB_TABLE rings. -/
def publishEntry (s : State) (u : Nat) (e : UnitEnt) (version : Nat) : State :=
  cause (ring (s.onUnit fun m => { m with gate := tput {} m.gate u e, gateVersion := version }) .table) 1

/-- Record the outcome of a proposal: 0 applied, 1 refused, 2 superseded (14 R749, R753). MANAGEMENT is written by Serge G (01 R28). -/
def outcomeAt (s : State) (u how version : Nat) : State :=
  mgtAlert (append s (.serge .g) 2 0x0202 0 (leBytes 1 u ++ leBytes 1 how ++ zeros 2 ++ leBytes 8 version)) 5

/-- Step 3 to 5 of R505: the Gatehouse copy takes the entry, DB_TABLE rings, and the hardware takes the state. A state other than DISPUTED
returns the posts held about the unit to the queue (01 R32). A proposal that has reached its state has its outcome recorded (14 R753). -/
def finishChange (s : State) (u : Nat) (st : UState) (lanes : BitVec 2) (reason : Byte) (version : Nat) : State :=
  let old := unitEnt s u
  let s := setUnit s u st reason
  let s := s.onUnit fun m => { m with
    tbl := tupd {} m.tbl u fun e => if e.st = .absent then e else { e with lanes := lanes }
    applyUnit := u, applyRefused := false, applyDrained := false }
  let s := publishEntry s u (unitEnt s u) version
  let s := s.when (st == .disputed || st == .failed) (mgtAlert · 5)
  let s := if decide (0x20 ≤ u ∧ u < 0x26) && st == .active && decide (old.lanes ≠ lanes) then retireLanes s (portOf u) lanes
           else unitEffects s u st
  let s := if old.st = .disputed ∧ st ≠ .disputed then
      s.onUnit fun m => { m with posts := m.heldPosts.filter (·.unit == u) ++ m.posts, heldPosts := m.heldPosts.filter (·.unit != u) }
    else s
  if reason = 0x10 ∧ st ≠ .draining ∧ st ≠ .disputed then
    outcomeAt s u 0 version
  else s

/-- Steps 1 and 2 of R505: the table version rises and the entry is appended to the CONTROL partition. The next steps follow its commit; a
record store that is no longer in service is not waited for. -/
def changeUnit (s : State) (u : Nat) (st : UState) (lanes : BitVec 2) (reason : Byte) : State :=
  let v := s.unit.version + 1
  let s := s.onUnit fun m => { m with version := v }
  let now := appendsNow s || !unitActive s 0x50 || u == 0x50
  let s := append s (.serge s.unit.active) 1 0x0107 u (leBytes 4 (entryWord st lanes reason).toNat ++ leBytes 8 v)
  if now then finishChange s u st lanes reason v else s

/-- The commit of a UNIT_ENTRY that had to wait: R505 goes on from step 3. An entry that a start recorded is in force already and is only published. -/
def entryCommitted (s : State) (u : Nat) (payload : Bytes) : State :=
  let w := leAt payload 0 4
  match ustOf (w % 8) with
  | some st =>
    let e := unitEnt s u
    if s.pow.bootStep < 12 ∧ w = (entryWord e.st e.lanes e.reason).toNat then publishEntry s u e (leAt payload 4 8)
    else finishChange s u st (BitVec.ofNat 2 (w / 8)) (BitVec.ofNat 8 (w / 256)) (leAt payload 4 8)
  | none => s

/-- Is a change under way (MBX_APPLY_STATUS.busy)? -/
def applyBusy (s : State) : Bool := s.store.queue.any fun a => a.record.typ == 0x0107

/-- MBX_APPLY by the active core (R503, R505): an accepted transition is carried out, any other sets refused; rsv fields are ignored (00 R15). -/
def mbxApply (s : State) (w : BitVec 32) : State :=
  let u := (w.extractLsb' 0 8).toNat
  let lanes := w.extractLsb' 16 2
  let port := decide (0x20 ≤ u ∧ u < 0x26)
  let e := unitEnt s u
  let refuse := s.onUnit fun m => { m with applyRefused := true, applyUnit := u, applyDrained := false }
  match ustOf (w.extractLsb' 8 3).toNat with
  | none => refuse
  | some st =>
    if (lanes ≠ 0 ∧ !port) ∨ !transitionOk e st (port && decide (e.lanes ≠ lanes)) then refuse
    else
      -- the reason is that of the decision this write carries out, else that of the entry (R506)
      let reason := match s.unit.decided.find? fun d => d.1 == u && d.2.1 == st with
        | some d => d.2.2
        | none => e.reason
      let s := s.onUnit fun m => { m with decided := (takeFirst (fun d : Nat × UState × BitVec 8 => d.1 == u && d.2.1 == st) m.decided).2 }
      changeUnit s u st (if port then lanes else e.lanes) reason

/-! ### Decisions of the active control core (09 R507, R858, 14 R754-R756) -/

/-- Does a unit keep an in-device remedy when it is retired (14 R755)? -/
def keepsRemedy (s : State) (u : Nat) : Bool :=
  if u < 16 then (List.range 16).any fun n => n != u && unitActive s n
  else if u < 32 then decide (((activePcs s).filter fun n => 0x10 + n != u).length ≥ 12)
  else if u < 0x26 then true
  else if u = 0x28 ∨ u = 0x29 then (servingDrives s).any fun d => 0x28 + d != u
  else if u = 0x30 then coreUp s .b
  else if u = 0x31 then coreUp s .a
  else if 0x40 ≤ u ∧ u < 0x44 then (List.range 4).any fun n => 0x40 + n != u && unitActive s (0x40 + n)
  else false

/-- Record a decision, to be carried out by MBX_APPLY (01 R30). -/
def decideUnit (s : State) (u : Nat) (st : UState) (reason : Byte) : State :=
  s.onUnit fun m => { m with decided := m.decided ++ [(u, st, reason)] }

/-- The outcome at the present table version. -/
def outcome (s : State) (u : Nat) (how : Nat) : State := outcomeAt s u how s.unit.version

/-- The decision on an observation that leads to no dispute (09 R858). -/
def decideObservation (s : State) (p : Post) : State :=
  let st := unitSt s p.unit
  let u := p.unit
  if p.st = 6 then (if st = .absent then s else decideUnit s u .failed p.reason)
  else if p.st = 3 then
    if st = .active then (if keepsRemedy s u then decideUnit s u .draining p.reason else dbAlert s) else s
  else if p.st = 1 then
    if st = .testing ∧ p.reason = 0x11 then decideUnit s u .active p.reason
    else if st = .retired ∨ st = .failed then decideUnit s u .testing p.reason
    else if st = .active ∧ (p.reason = 0x0A ∨ p.reason = 0x04) then dbAlert s
    else s
  else s

/-- The decision on a proposal that leads to no dispute (14 R754). -/
def decideProposal (s : State) (p : Post) : State :=
  let st := unitSt s p.unit
  let u := p.unit
  let fine := keepsRemedy s u || p.force
  if p.st = 3 ∧ st = .active ∧ fine then decideUnit s u .draining 0x10
  else if p.st = 6 ∧ st ≠ .absent ∧ fine then decideUnit s u .failed 0x10
  else if p.st = 4 ∧ (st = .retired ∨ st = .failed) then decideUnit s u .testing 0x10
  else if p.st = 1 ∧ p.lanes ≠ 0 ∧ st = .active ∧ 0x20 ≤ u ∧ u < 0x26 then
    decideUnit (s.onUnit fun m => { m with lastMgmt := tput none m.lastMgmt u (some p) }) u .active 0x10
  else outcome s u 1

/-- Is a state reported or proposed a faulty one? -/
def faulty (p : Post) : Bool := p.st == 3 || p.st == 6

/-- Do the latest posts of the data plane and of management about a unit put it in dispute (01 R31)? Stamps that differ by exactly 1,000 µs are
taken not to lie within 1 ms. DESIGN CHOICE, log entry 100. -/
def disputes (a b : Post) : Bool :=
  decide ((a.time - b.time).toNat < 1000 ∨ (b.time - a.time).toNat < 1000) && ((a.st == 1 && faulty b) || (faulty a && b.st == 1))

/-- The decision on a DISPUTED unit (14 R756), made with the dispute: the proposal is superseded, and the decision has its own outcome. -/
def decideDispute (s : State) (u : Nat) (data mgmt : Post) : State :=
  let s := outcome (decideUnit s u .disputed data.reason) u 2
  if faulty data then decideUnit s u .retired 0x10
  else if keepsRemedy s u then decideUnit s u .retired 0x10
  else if !mgmt.force then outcome (decideUnit s u .active data.reason) u 1
  else decideUnit s u (if mgmt.st = 6 then .failed else .retired) 0x10

/-- The active control core processes the head post (01 R29, R32, 09 R507): a post about a DISPUTED unit is held, one that makes a dispute
opens it, any other is decided. -/
def processPost (s : State) (p : Post) : State :=
  let u := p.unit
  if unitSt s u = .disputed ∨ s.unit.decided.any (fun d => d.1 == u && d.2.1 == .disputed) then
    s.onUnit fun m => { m with heldPosts := m.heldPosts ++ [p] }
  else
    let s := if p.source = 0 then s.onUnit fun m => { m with lastData := tput none m.lastData u (some p) }
             else if p.source = 1 then s.onUnit fun m => { m with lastMgmt := tput none m.lastMgmt u (some p) } else s
    match tget none s.unit.lastData u, tget none s.unit.lastMgmt u with
    | some a, some b =>
      if (p.source = 0 ∨ p.source = 1) ∧ unitSt s u = .active ∧ disputes a b then
        decideDispute (s.onUnit fun m => { m with lastData := tput none m.lastData u none, lastMgmt := tput none m.lastMgmt u none }) u a b
      else if p.source = 1 then decideProposal s p else decideObservation s p
    | _, _ => if p.source = 1 then decideProposal s p else decideObservation s p

/-- Firmware that found overflow set reads the state of every unit from its own window once the queue is empty, and treats each reading as an
observation (09 R499). A reading that equals the unit table calls for nothing; one that a post told nobody of is that of a unit which has stopped
taking work since it found itself FAILED (R500; log entry 131). -/
def rereadUnits (s : State) : State :=
  ((List.range 128).filter fun u => (unitEnt s u).stopped && unitSt s u != .failed && unitSt s u != .absent).foldl
    (fun s u => processPost s { unit := u, st := 6, source := 0, reason := 0x01, time := timeLo s }) s

/-- Remove the head post (R29, R499); overflow clears with the queue. With `hook`, owner code sees it first (R520), and base firmware rereads the units
after an overflow: a core whose own ST removes the post executes its own words, which do both themselves (log entry 125). -/
def nextPost (s : State) (hook : Bool) : State :=
  match s.unit.posts with
  | [] => s
  | p :: rest =>
    let lost := s.unit.overflow && rest.isEmpty
    let s := s.onUnit fun m => { m with posts := rest, overflow := m.overflow && !rest.isEmpty }
    (processPost (s.when hook (hookPost · p)) p).when (hook && lost) rereadUnits

/-- OBSERVATION_POST (R498): the data plane (source 0) or hardware (source 2) posts about a unit. -/
def execObservationPost (unit : Nat) (st : BitVec 3) (source : BitVec 2) (reason : BitVec 8) (s : State) : Result :=
  done (s.when (s.pow.mainUp && decide (unitSt s unit ≠ .absent) && (st == 1 || st == 3 || st == 6) && (source == 0 || source == 2)) fun s =>
    post s { unit := unit, st := st, source := source, reason := reason })

end Sys2Proof.Machine
end

