-- ==== Sys2Proof/Machine/Trap.lean ====
section
/-! DEFINITION. Traps and interrupts of the Serge cores (08 R453-R466), interrupt sources (09 R493-R495), and the checks of an access to an
engine window (09 R473-R476, R482). -/

namespace Sys2Proof.Machine

/-- A trap cause with its fault word (08 R455). -/
abbrev TrapInfo := Nat × W36

def trUndef : Nat := 1
def trTag : Nat := 2
def trVoid : Nat := 3
def trDiv : Nat := 4
def trEcc : Nat := 5
def trPrefix : Nat := 6
def trBus : Nat := 7
def trSvc : Nat := 8

/-- Fault words (08 R455): a data address, a register (0 ACC, 1 X, 2 Y, 3 LR), a program address, an offending word with its position. -/
def atData (a : Nat) : W36 := daddrW (BitVec.ofNat 32 a)
def atReg (n : Nat) : W36 := intW (BitVec.ofNat 32 (0x10000 + n))
def atProg (a : Nat) : W36 := intW (BitVec.ofNat 32 (0x20000 + a))
def atWord (w : BitVec 14) (pos : Nat) : W36 := intW (BitVec.ofNat 32 (w.toNat + pos % 4 * 65536))

/-- First address beyond program memory (08 R470). -/
def progEnd (c : CoreId) : Nat := if c = .g then 0x2000 else 0x4000

/-- Does a core run: supplied, out of reset, not halted; A and B stand still in NAP (15 R805)? -/
def coreLive (s : State) (c : CoreId) : Bool :=
  (if c = .g then s.pow.standby else s.pow.mainUp && s.pow.state != .nap) && !(coreGet s c).halted && !(coreGet s c).inReset

/-- Set a core's PC; program RAM is entered, and ID_LOCK set, when it lies there (09 R490, R491). -/
def setPc (c : CoreId) (pc : Nat) (k : Core) : Core :=
  let ram := decide (0x800 ≤ pc) && decide (pc < progEnd c)
  { k with pc := BitVec.ofNat 15 pc, inRam := k.inRam || ram, idLock := k.idLock || ram }

/-- The frame's status word (08 R458). -/
def statusWord (k : Core) : BitVec 32 :=
  let b := fun (x : Bool) (n : Nat) => if x then 2 ^ n else 0
  BitVec.ofNat 32 (b k.z 0 + b k.n 1 + b k.c 2 + b k.v 3 + b k.ie 4
    + (match k.st with | .normal => 0 | .interrupt => 32 | .trap => 64) + k.dp.toNat * 256)

/-- Trap and interrupt entry (08 R457). A pending EI is dropped with IE (log entry 20). -/
def enter (s : State) (c : CoreId) (intr : Bool) (cause : Nat) (fault : W36) (resume base offset : Nat) : State :=
  let k := coreGet s c
  let f := if intr then 0x7FE0 else 0x7FE8
  let s := ramPuts s c f [caddrW (BitVec.ofNat 14 resume), bitsW (statusWord k), intW (BitVec.ofNat 32 k.repc),
    intW (BitVec.ofNat 32 cause), fault, intW 0, intW 0, intW 0]
  coreUpd s c fun k => setPc c (base + offset)
    { k with ie := false, eiNext := false, repc := 0, rep := none, waiting := false, dp := 0x3FF, st := if intr then .interrupt else .trap }

/-- A core stops until its next reset (08 R444, R461), which is reported (09 R501, R502). -/
def haltCore (s : State) (c : CoreId) : State :=
  if (coreGet s c).halted then s
  else coreStopped (coreUpd s c fun k => { k with halted := true, waiting := false, rep := none }) c

/-- The trap handlers of the boot ROM (09 R512): they post FAILED with reason HALT for their own core, through MBX_POST_SELF, which cores A and B have,
and execute HALT. -/
def romHandler (s : State) (c : CoreId) : State :=
  haltCore (if c = .g then s else observe s (coreUnit c) .failed 3 0x08) c

/-- A trap of the instruction whose first word stands at PC (08 R455-R457): a trap in state TRAP is a double trap (R461). REPC holds the
iterations of a repeat not yet completed (R453). In boot ROM the handlers end it at once (09 R512). -/
def trap (s : State) (c : CoreId) (t : TrapInfo) (resume : Nat) : State :=
  let k := coreGet s c
  if k.st = .trap then haltCore s c
  else
    let s := coreUpd s c fun k => match k.rep with | some r => { k with repc := r.left } | none => k
    if k.pc.toNat < 0x800 then romHandler (enter s c false t.1 t.2 resume 0 (4 * t.1)) c
    else enter s c false t.1 t.2 resume 0x800 (4 * t.1)

/-! ### Interrupts (08 R463, 09 R493-R495) -/

/-- The received mail and its acknowledgement that a core sees from the other main-die core, and over the Gatehouse link. -/
def peerMail (s : State) (c : CoreId) : Mail := if c = .b then s.unit.mailB else s.unit.mailA
def gateMail (s : State) (c : CoreId) : Mail := if c = .g then s.unit.mailG else s.unit.mailM
def mailHere (m : Mail) : Bool := decide (m.inLen > 0) || m.ackPend

/-- TIME_NOW_LO has reached MBX_TIMER. -/
def timerReached (s : State) (c : CoreId) : Bool :=
  decide ((BitVec.ofNat 32 (if c = .g then s.time.us else s.time.mUs) - tget 0 s.unit.timer (coreIdx c)).toNat < 2 ^ 31)

/-- The sources whose condition is a level that holds now (09 R493). -/
def levels (s : State) (c : CoreId) : List (Nat × Bool) :=
  (0, s.tmp.inForce) :: if c = .g then [(4, !s.mgt.rx.isEmpty), (9, mailHere (gateMail s c)), (21, timerReached s c)]
  else
    let p := coreGet s (peerOf c)
    [(1, p.halted || p.inReset), (4, canFetch s 0), (5, s.unit.posts.any fun p => p.source != 1), (6, s.unit.posts.any fun p => p.source == 1),
     (7, s.unit.staged), (8, mailHere (peerMail s c)), (9, mailHere (gateMail s c)), (21, timerReached s c)]

/-- MBX_IRQ_PENDING of a core: the bits latched and the levels that hold (09 R493, R495). -/
def pendingBits (s : State) (c : CoreId) : BitVec 32 :=
  (levels s c).foldl (fun w p => if p.2 then setBit w p.1 true else w) (tget 0 s.unit.irqPend (coreIdx c))

/-- The lowest-numbered source that is pending and enabled (09 R494). -/
def pendingSource (s : State) (c : CoreId) : Option Nat :=
  let w := pendingBits s c &&& tget 0 s.unit.irqEn (coreIdx c)
  (List.range 32).find? fun n => w.getLsbD n

/-- The source that would be taken now: state NORMAL and IE 1 (08 R463). -/
def takeable (s : State) (c : CoreId) : Option Nat :=
  let k := coreGet s c
  if k.st = .normal ∧ k.ie then pendingSource s c else none

/-- Take an interrupt with the return address `resume` (08 R457, 09 R494). -/
def takeIrq (s : State) (c : CoreId) (src resume : Nat) : State := enter s c true (0x100 + src) (intW 0) resume 0x800 0x24

/-- INTERRUPT_ENTRY (R463): between instructions, or between iterations of an interruptible repeat. -/
def execInterruptEntry (c : CoreId) (s : State) : Result :=
  done (
    let k := coreGet s c
    match takeable s c with
    | some n =>
      if !coreLive s c || k.waiting then s
      else match k.rep with
        | none => takeIrq s c n k.pc.toNat
        | some r =>
          let intr := match r.x.rep with | .rep _ i => i | .repx i => i | .none => false
          if intr then takeIrq (coreUpd s c fun k => { k with repc := r.left }) c n k.pc.toNat else s
    | none => s)

/-! ### Windows -/

/-- Windows that core G has (09 R473); of the MBX window, it has its interrupts, the Gatehouse mail and the unit states (log entry 24). -/
def winOfG (a : Nat) : Bool :=
  (decide (0x9C20 ≤ a) && decide (a < 0x9C40)) || (decide (0x9C80 ≤ a) && decide (a < 0xA000)) || (decide (0xA000 ≤ a) && decide (a < 0xB400)) || (decide (0xB800 ≤ a) && decide (a < 0xBC00))

/-- Registers on the Gatehouse die: TIME, REC and TMP (09 R476). -/
def winGate (a : Nat) : Bool := decide (0xA000 ≤ a) && decide (a < 0xAC00)

/-- A register of a unit that is ABSENT, other than the status register at offset 0 (09 R474): a lane's block, the PQ window. -/
def winAbsent (s : State) (a : Nat) : Bool :=
  (decide (0x9000 ≤ a) && decide (a < 0x9400) && decide (a % 0x40 ≠ 0) && unitSt s ((a - 0x9000) / 0x40) == .absent)
    || (decide (0xBC00 < a) && decide (a < 0xC000) && unitSt s 0x3A == .absent)

/-- Does an access by core `c` to window address `a` trap BUS (09 R473-R476, R482)? `aOnly`: a write to a register marked A. -/
def winRefused (s : State) (c : CoreId) (a : Nat) (aOnly : Bool) : Bool :=
  (c == .g && !winOfG a) || (aOnly && c != .g && s.unit.active != c) || (winGate a && c != .g && !s.pow.linkUp) || winAbsent s a

/-- A crossing reports CDC_STALL against the unit on its silent side (15 R815): DEV_CAUSE.cdc_stall, interrupt source 2 and an observation. -/
def cdcStall (s : State) (unit : Nat) : State := observe (irqMain (cause s 8) 2) unit .failed 2 0x07

/-- An access over the Gatehouse link while it is down (R476). -/
def linkSilent (s : State) (c : CoreId) (a : Nat) : Bool := winGate a && c != .g && !s.pow.linkUp

/-- A refused access to `a`: when it was the Gatehouse link that gave no answer, its CDC_STALL is reported (R475, R476). -/
def winStall (s : State) (c : CoreId) (a : Nat) : State := s.when (linkSilent s c a) fun s => cdcStall s 0x48

/-- A write by core `c` to the command register at `a` with the effect `f`; a refused one traps BUS and changes nothing else. -/
def winCmd (s : State) (c : CoreId) (a : Nat) (aOnly : Bool) (f : State → State) : State :=
  if !coreLive s c then s
  else if winRefused s c a aOnly then trap (winStall s c a) c (trBus, atData a) (coreGet s c).pc.toNat
  else f s

end Sys2Proof.Machine
end

