-- ==== Sys2Proof/Machine/KeyCmd.lean ====
section
/-! DEFINITION. The KEY window's commands (09 R485, R486, 10 R551-R553), the identity block (14 R741), and the transfer of keys between twins
(07 R410-R412, 10 R586, R587, R589, R590). -/

namespace Sys2Proof.Machine

/-- The identity block of 96 bytes (14 R741); bytes 35 and 47 are reserved. -/
def identityBlock (s : State) : Bytes :=
  let die := fun (o : Nat) => ((List.range 11).map fun i => Config.dieRecord (o + i)) ++ [0]
  let st := s.pow.stepping.toNat
  ascii "SXID" ++ [1] ++ leBytes 1 (lifecycle s) ++ leBytes 2 (deviceCode s.pow.variant) ++ leBytes 1 (st % 16 * 16 + st / 16) ++ [0]
    ++ leBytes 2 (nodeAddr s) ++ zeros 4 ++ leBytes 8 s.pow.unit.toNat ++ die 0 ++ die 12 ++ fit 12 s.pow.hbmSerial ++ zeros 4
    ++ bvBytes (Config.ed25519Public (identitySeed s))

/-! ### Commands of the KEY window -/

/-- Start a command with the outcome its end will show; a command written while one runs is ignored (log entry 21). -/
def keyRun (s : State) (r : KeyRun) : State :=
  s.onKey fun k => { k with cmdBusy := true, cmdDone := false, cmdEarly := false, cmdRun := some r }

def keyFail (s : State) (c : CoreId) (e : Status) : State := keyRun s { core := c, code := e }

/-- A command whose DRBG request cannot be served waits for it (11 R635). -/
def keyHold (s : State) (c : CoreId) (v : Nat) : State :=
  s.onKey fun k => { k with cmdBusy := true, cmdDone := false, cmdEarly := false, cmdHeld := some (c, v) }

/-- A core's handle table holds 32 (R552). -/
def handleFull (s : State) (c : CoreId) : Bool := decide ((handlesOf s c).length ≥ 32)

def onHandles (s : State) (c : CoreId) (f : List Handle → List Handle) : State :=
  s.onKey fun k => if c = .a then { k with handlesA := f k.handlesA } else if c = .b then { k with handlesB := f k.handlesB } else k

/-- Enter the handle of a slot at a generation into a core's table and answer with it. -/
def giveHandle (s : State) (c : CoreId) (slot gen : Nat) (kind : BitVec 8) : State :=
  keyRun (onHandles s c (· ++ [{ slot := slot, gen := gen, kind := kind }])) { core := c, handle := some (handleOf slot gen kind) }

/-- Take the handle that a running command entered back (10 R552, R707 of 13). -/
def dropHandle (s : State) (r : KeyRun) : State :=
  match r.handle with
  | some w => onHandles s r.core fun l => (takeFirst (fun h : Handle => h.slot == handleSlot w && h.gen == handleGen w) l).2
  | none => s

def allKinds : List (BitVec 8) := (List.range 11).map fun n => BitVec.ofNat 8 (n + 1)

def regSlot (s : State) : Nat := s.key.slotReg.toNat % 1024
def regGen (s : State) : Nat := s.key.slotReg.toNat / 1024 % 65536

/-- The input string of a command (R477, R485): BAD_LENGTH above 4,096 bytes, BAD_FORMAT for a word that is neither INT nor BITS. -/
def keyInput (s : State) (c : CoreId) : Except Status Bytes :=
  let n := s.key.inLen.toNat
  if n > 4096 then .error .badLength
  else match readStr s c s.key.inAddr.toNat n with | some b => .ok b | none => .error .badFormat

/-- OPEN (R551, R552). -/
def keyOpen (s : State) (c : CoreId) : State :=
  match resolve s (.core c) { slot := regSlot s, gen := regGen s } allKinds with
  | .error e => keyFail s c e
  | .ok x => if handleFull s c then keyFail s c .keyDenied else giveHandle s c (regSlot s) x.gen x.kind

/-- CLOSE (R553). -/
def keyClose (s : State) (c : CoreId) : State :=
  let w := s.key.handleIn
  let mine := fun (h : Handle) => h.slot == handleSlot w && h.gen == handleGen w
  if w.tag = tHandle ∧ (handlesOf s c).any mine then keyRun (onHandles s c fun l => (takeFirst mine l).2) { core := c }
  else keyFail s c .keyUnusable

/-- IMPORT, DERIVE, RETIRE and the transport commands belong to the active core (R486). -/
def keyActive (s : State) (c : CoreId) (f : State) : State := if s.unit.active = c then f else keyFail s c .keyDenied

/-- Replace the slot and attributes of a request body by those of the registers (log entry 22). -/
def bodyRegs (s : State) (b : Bytes) : Bytes := patch (patch b 0 (leBytes 2 (regSlot s))) 4 (leBytes 4 s.key.attr.toNat)

/-- Store a checked key at a generation and give its handle, for command `v`. Its record needs an IV (11 R635). -/
def storeGive (s : State) (c : CoreId) (v : Nat) (k : NewKey) (gen origin : Nat) : State :=
  if handleFull s c then keyFail s c .keyDenied
  else if !rngServes s then keyHold s c v
  else giveHandle (storeSlot s k.slot gen k.kind origin k.parent k.attrs k.material) c k.slot gen k.kind

/-- IMPORT (R486): the input is a body as in R555. -/
def keyImport (s : State) (c : CoreId) : State :=
  keyActive s c <| match keyInput s c with
    | .error e => keyFail s c e
    | .ok b => match checkImport s (.core c) (bodyRegs s b) with
      | .error e => keyFail s c e.1
      | .ok k => storeGive s c 0x03 k (nextGen (slotOf s k.slot)) 2

/-- DERIVE (R486, R560): the input is a body as in R558, with the parent that KEY_HANDLE_IN2 names. -/
def keyDerive (s : State) (c : CoreId) : State :=
  keyActive s c <| match keyInput s c, useHandle s c s.key.handleIn2 [kKdf] with
    | .error e, _ => keyFail s c e
    | _, .error e => keyFail s c e
    | .ok b, .ok (p, _) => match checkDerive s (.core c) (patch (bodyRegs s b) 8 (keyBytes (some p))) with
      | .error e => keyFail s c e.1
      | .ok k => storeGive s c 0x04 k (nextGen (slotOf s k.slot)) 3

/-- RETIRE (R486, R562, R564). -/
def keyRetire (s : State) (c : CoreId) : State :=
  keyActive s c <| match useHandle s c s.key.handleIn allKinds with
    | .error e => keyFail s c e
    | .ok (k, _) => if (enrolWord k.slot).isSome then keyFail s c .badFormat else keyRun (retireSlot s k.slot) { core := c }

/-- VERIFY (R486): the last 64 bytes of the input are the signature (log entry 22). -/
def keyVerify (s : State) (c : CoreId) : State :=
  match keyInput s c, useHandle s c s.key.handleIn [kEdPub, kP256Pub] with
  | .error e, _ => keyFail s c e
  | _, .error e => keyFail s c e
  | .ok b, .ok (_, x) =>
    if b.length < 64 then keyFail s c .badLength
    else
      let m := b.take (b.length - 64)
      let g := b.drop (b.length - 64)
      let ok := if x.kind = kEdPub then Config.ed25519Verify x.material m g else Config.p256Verify x.material m g
      keyRun s { core := c, result := some (if ok then 1 else 0) }

/-- Answer with an output string, whose length KEY_RESULT gives. -/
def keyOut (s : State) (c : CoreId) (b : Bytes) : State := keyRun s { core := c, result := some (BitVec.ofNat 32 b.length), out := b }

/-- MAC (R486): CMAC under an AES_MAC key, HMAC-SHA-384 under an HMAC key. -/
def keyMac (s : State) (c : CoreId) : State :=
  match keyInput s c, useHandle s c s.key.handleIn [kAesMac, kHmac] with
  | .error e, _ => keyFail s c e
  | _, .error e => keyFail s c e
  | .ok b, .ok (_, x) => keyOut s c (if x.kind = kAesMac then cmac x.material b else bvBytes (Config.hmac384 x.material b))

/-- May a key be carried to the twin (R586)? -/
def carriable (s : State) (k : KeyRef) (x : Slot) : Bool :=
  operational s && (enrolWord k.slot).isNone && x.attrs.getLsbD 16

/-- TRANSPORT_WRAP (R585, R586): under the transport key of KEY_HANDLE_IN2, with transfer identifier 0 (log entry 22). -/
def keyWrap (s : State) (c : CoreId) : State :=
  keyActive s c <| match useHandle s c s.key.handleIn allKinds, useHandle s c s.key.handleIn2 [kTransport] with
    | .error e, _ => keyFail s c e
    | _, .error e => keyFail s c e
    | .ok (k, x), .ok (_, t) =>
      if !carriable s k x then keyFail s c .keyDenied
      else if !rngServes s then keyHold s c 0x08
      else keyOut (drew s 12) c (makeBlob t.material x k.slot 0 (nodeAddr s) (randBytes s 12))

/-- TRANSPORT_UNWRAP (R587). -/
def keyUnwrap (s : State) (c : CoreId) : State :=
  keyActive s c <| match keyInput s c, useHandle s c s.key.handleIn2 [kTransport] with
    | .error e, _ => keyFail s c e
    | _, .error e => keyFail s c e
    | .ok b, .ok (_, t) => match openBlob t.material b (regSlot s) 0 (twinAddr s) with
      | some (k, g) =>
        if !deliverable s k.slot g then keyFail s c .badFormat else storeGive s c 0x09 k g 4
      | none => keyFail s c .badFormat

/-- ATTEST (R583, 11 R616): under the attestation secret in slot 3. -/
def keyAttest (s : State) (c : CoreId) : State :=
  if !unitTakes s 0x39 then keyFail s c .unitAbsent
  else match readStr s c s.key.inAddr.toNat 32, resolve s (.core c) { slot := 3, gen := (slotOf s 3).gen } [kAttest] with
    | none, _ => keyFail s c .badFormat
    | _, .error e => keyFail s c e
    | some ch, .ok x => keyOut s c (attestResponse x.material (attestMessage s (identityBlock s) ch s.dig.meas s.unit.version s.unit.tbl))

/-- KEY_CMD (R486): an undefined command ends with BAD_FORMAT (log entry 21); one written while a command runs is ignored. -/
def keyCmd (s : State) (c : CoreId) (v : Nat) : State :=
  if s.key.cmdBusy then s
  else if !unitTakes s 0x3B then keyFail s c .unitAbsent
  else match v with
    | 0x01 => keyOpen s c
    | 0x02 => keyClose s c
    | 0x03 => keyImport s c
    | 0x04 => keyDerive s c
    | 0x05 => keyRetire s c
    | 0x06 => keyVerify s c
    | 0x07 => keyMac s c
    | 0x08 => keyWrap s c
    | 0x09 => keyUnwrap s c
    | 0x0A => keyAttest s c
    | _ => keyFail s c .badFormat

/-- KEY_CMD_OPEN (R551). -/
def execKeyCmdOpen (c : CoreId) (s : State) : Result := done (winCmd s c 0x8000 false (keyCmd · c 0x01))
/-- KEY_CMD_CLOSE (R552). -/
def execKeyCmdClose (c : CoreId) (s : State) : Result := done (winCmd s c 0x8000 false (keyCmd · c 0x02))
/-- KEY_CMD_IMPORT (R486). -/
def execKeyCmdImport (c : CoreId) (s : State) : Result := done (winCmd s c 0x8000 false (keyCmd · c 0x03))
/-- KEY_CMD_DERIVE (R560). -/
def execKeyCmdDerive (c : CoreId) (s : State) : Result := done (winCmd s c 0x8000 false (keyCmd · c 0x04))
/-- KEY_CMD_RETIRE (R564). -/
def execKeyCmdRetire (c : CoreId) (s : State) : Result := done (winCmd s c 0x8000 false (keyCmd · c 0x05))
/-- KEY_CMD_VERIFY (R486). -/
def execKeyCmdVerify (c : CoreId) (s : State) : Result := done (winCmd s c 0x8000 false (keyCmd · c 0x06))
/-- KEY_CMD_MAC (R486). -/
def execKeyCmdMac (c : CoreId) (s : State) : Result := done (winCmd s c 0x8000 false (keyCmd · c 0x07))
/-- KEY_CMD_TRANSPORT_WRAP (R585). -/
def execKeyCmdTransportWrap (c : CoreId) (s : State) : Result := done (winCmd s c 0x8000 false (keyCmd · c 0x08))
/-- KEY_CMD_TRANSPORT_UNWRAP (R587). -/
def execKeyCmdTransportUnwrap (c : CoreId) (s : State) : Result := done (winCmd s c 0x8000 false (keyCmd · c 0x09))
/-- KEY_CMD_ATTEST (R583). -/
def execKeyCmdAttest (c : CoreId) (s : State) : Result := done (winCmd s c 0x8000 false (keyCmd · c 0x0A))

/-- Has an append of the key engine still to be committed? -/
def keyAppends (s : State) : Bool := s.store.queue.any fun a => a.src == .key

/-- After the command's records are committed, its output is written, its results show, and KEY_DONE rises (R484). -/
def keyEnd (s : State) : State :=
  match s.key.cmdRun with
  | some r =>
    if keyAppends s then s
    else
      let s := writeStr s r.core s.key.outAddr.toNat r.out
      let s := s.onKey fun k => { k with
        cmdBusy := false, cmdDone := true, cmdCode := r.code, cmdRun := none
        handleOut := r.handle.getD k.handleOut, result := r.result.getD k.result }
      irqMain s 10
  | none => s

/-- KEY_COMMAND_END (R484): the command that runs ends. One that waits for the DRBG is carried out first, once the DRBG serves (11 R635). -/
def execKeyCommandEnd (s : State) : Result :=
  done (match s.key.cmdHeld with
    | some (c, v) => s.when (rngServes s) fun s => keyEnd (keyCmd (s.onKey fun k => { k with cmdBusy := false, cmdHeld := none }) c v)
    | none => keyEnd s)

/-! ### Keys carried between twins -/

/-- Ask the twin for the key of a slot (07 R410, R412): a REQUEST with a new transfer identifier. A device asks only in ENROLLED, OPERATIONAL or
VEILED (10 R587). -/
def askKey (s : State) (slot tries : Nat) : State :=
  let x := s.fab.keyXfer
  let s := s.onFab fun b => { b with keyReq := some (slot, x.toNat, tries), keyXfer := x + 1 }
  sendTo s (twinAddr s) (.keyTransport 0 slot x [])

/-- A FAB command ends at FAB_COMMAND_END with this status. -/
def fabCode (s : State) (e : Status) : State := s.onFab fun b => { b with code := e }

/-- A device whose keys are whole again is OPERATIONAL (10 R588, R589): IN_SERVICE stands recorded and the veil flag is cleared. -/
def unveil (s : State) : State :=
  let s := s.when (!s.key.inService) fun s => append s (.serge s.unit.active) 3 0x0305 0 (leBytes 8 s.time.us)
  let s := append s (.serge s.unit.active) 3 0x0306 0 (zeros 4)
  (s.onKey fun k => { k with veil := false, inService := true }).onTmp fun t => { t with wipedVoile := false }

/-- A transfer this device asked for has ended: the twin route of R589 goes on with the next slot, and makes the device OPERATIONAL after the
last. A KEY_REQUEST command has its status. -/
def keyAskEnd (s : State) (slot : Nat) (e : Status) : State :=
  let s := fabCode (s.onFab fun b => { b with keyReq := none }) e
  if !s.fab.twinRoute then s
  else if slot < 1023 then askKey s (slot + 1) 0
  else tryOpen (unveil (s.onFab fun b => { b with twinRoute := false }))

/-- A transfer failed: it is tried again up to three times, then the slot is left as it is and logged (10 R590). -/
def keyAskFail (s : State) : State :=
  match s.fab.keyReq with
  | some (slot, _, tries) =>
    if s.fab.twinRoute && decide (tries < 3) then askKey s slot (tries + 1)
    else
      let s := s.when s.fab.twinRoute fun s => append s .key 3 0x0308 0 (leBytes 2 slot ++ leBytes 2 (slotOf s slot).gen ++ zeros 4)
      keyAskEnd s slot .homeUnreachable
  | none => s

/-- Accept a KEY_TRANSPORT frame only from the twin; any other is discarded and counted (07 R411). -/
def fromTwin (s : State) (src : Nat) (f : State → State) : State := if hasTwin s && src == twinAddr s then f s else discardFrame s

/-- KEY_TRANSPORT_REQUEST_RX (10 R586). -/
def execKeyTransportRequestRx (src slot : Nat) (xfer : BitVec 32) (s : State) : Result :=
  done (fromTwin s src fun s =>
    let n := slot % 1024
    let x := slotOf s n
    match pairKey s with
    | some key =>
      if slotState s n = .loaded ∧ !x.retiring ∧ s.key.unwrapped ∧ carriable s { slot := n, gen := x.gen } x ∧ rngServes s then
        let iv := randBytes s 12
        let s := (drew s 12).onFab fun b => { b with keySent := some (n, xfer.toNat) }
        sendTo s src (.keyTransport 1 n xfer (makeBlob key x n xfer (nodeAddr s) iv))
      else sendTo s src (.keyTransport 2 n xfer [])
    | none => sendTo s src (.keyTransport 2 n xfer []))

/-- The record of a delivered key is committed: RECEIPT (10 R587). -/
def keyReceipt (s : State) (slot : Nat) : State :=
  match s.fab.keyReq with
  | some (n, x, _) =>
    if n = slot then keyAskEnd (sendTo s (twinAddr s) (.keyTransport 3 n (BitVec.ofNat 32 x) [])) n .done else s
  | none => s

/-- A key delivered by the twin is stored where it may be, and RECEIPT follows its commit (10 R587); one whose slot is being changed waits (R566), and
one that cannot be stored counts as a failed transfer. -/
def takeDelivery (s : State) (d : KeyDelivery) : State :=
    match s.fab.keyReq, pairKey s with
    | some (n, x, _), some key =>
      if n ≠ d.slot % 1024 ∨ x ≠ d.xfer.toNat then s
      else if slotBusy s n then s.onFab fun b => { b with keyDelivery := some d }
      else match openBlob key d.blob n d.xfer d.src with
        | some (k, g) =>
          if deliverable s n g && rngServes s then
            let now := appendsNow s
            let s := storeSlot s n g k.kind 4 k.parent k.attrs k.material
            if now then keyReceipt s n else s
          else keyAskFail s
        | none => keyAskFail s
    | _, _ => s

/-- KEY_TRANSPORT_DELIVER_RX (10 R587). -/
def execKeyTransportDeliverRx (src slot : Nat) (xfer : BitVec 32) (blob : Bytes) (s : State) : Result :=
  done (fromTwin s src (takeDelivery · { src := src, slot := slot, xfer := xfer, blob := blob }))

/-- A record of the key engine has been committed or has failed: changes of slots end, and a delivery that waited for one goes on (10 R566). -/
def keyRecorded (s : State) : State :=
  let s := settleKeys s
  match s.fab.keyDelivery with
  | some d => if slotBusy s (d.slot % 1024) then s else takeDelivery (s.onFab fun b => { b with keyDelivery := none }) d
  | none => s

/-- KEY_TRANSPORT_REFUSE_RX (07 R412). -/
def execKeyTransportRefuseRx (src slot : Nat) (xfer : BitVec 32) (s : State) : Result :=
  done (fromTwin s src fun s =>
    match s.fab.keyReq with
    | some (n, x, _) => if n = slot % 1024 ∧ x = xfer.toNat then keyAskEnd s n .keyDenied else s
    | none => s)

/-- KEY_TRANSPORT_RECEIPT_RX (07 R412). -/
def execKeyTransportReceiptRx (src slot : Nat) (xfer : BitVec 32) (s : State) : Result :=
  done (fromTwin s src fun s =>
    if s.fab.keySent = some (slot % 1024, xfer.toNat) then s.onFab fun b => { b with keySent := none } else s)

/-- KEY_TRANSPORT_TIMEOUT (07 R412): the transfer this device delivered, or the one it asked for, has failed. -/
def execKeyTransportTimeout (s : State) : Result :=
  done (
    if s.fab.keySent.isSome then s.onFab fun b => { b with keySent := none }
    else if keyAppends s then s else keyAskFail s)

end Sys2Proof.Machine
end

