-- ==== Sys2Proof/Machine/LedgerCmd.lean ====
section
/-! DEFINITION. The ledger engine's events (06): group ticks, drive writes, mirroring between twins (07 R380-R384), page reads, the shadow copy
(07 R400), checkpoints, drives in service, pseudo-channel rebuilds, the passback rebuild (05 R264). -/

namespace Sys2Proof.Machine

/-! ### Applying records that arrive (06 R277, R306) -/

/-- Apply journal records to the own (`true`) or shadow ledger, VOID pairs joined; ROLL is carried out elsewhere. Exit records of a home's serials
come from its mirrored EXIT records (05 R266). -/
def applyRecs (s : State) (own : Bool) (home : Nat) : Option Nat → List JRec → State
  | _, [] => s
  | f, r :: t =>
    match r.kind with
    | .voidFirst => applyRecs s own home (some r.serial) t
    | .voidLast =>
      let a := f.getD r.serial
      applyRecs (s.onLed fun l => if own then { l with voidOwn := insertRange l.voidOwn a r.serial }
                                  else { l with voidShadow := insertRange l.voidShadow a r.serial }) own home none t
    | k =>
      match stateAfter k with
      | some e =>
        let s := setEntry s own r.serial e
        applyRecs (if k = .exit then addExit s (serialOf s.led.epoch home r.serial) r.t else s) own home none t
      | none => applyRecs s own home none t

/-- Replace the entries of one page. -/
def setPage (s : State) (own : Bool) (page : Nat) (es : Tbl LState) : State :=
  let put := fun (t : Tbl LState) =>
    es.foldl (fun t p => if p.1 < 16384 then tput .unissued t (page * 16384 + p.1) p.2 else t) (t.filter fun p => decide (p.1 / 16384 ≠ page))
  s.onLed fun l => if own then { l with own := put l.own } else { l with shadow := put l.shadow }

/-- Put a page read from a drive under the changes already applied to it: entries still UNISSUED here take the state read. -/
def mergePage (s : State) (own : Bool) (page : Nat) (es : Tbl LState) : State :=
  setPage s own page ((pageEntries s own page).foldl (fun t p => tput .unissued t p.1 p.2) (es.foldl (fun t p => tput .unissued t p.1 p.2) []))

/-- The journal blocks of a home that a serving drive holds, oldest first; of the own ledger only those written since this node last discarded it
(07 R399). -/
def journalOf (s : State) (home : Nat) : List JBlock :=
  match servingDrives s with
  | d :: _ => (((tget {} s.drives d).journal.map Prod.snd).filter fun b =>
      b.home == home && (home != nodeAddr s || decide (b.seq ≥ s.led.ownFrom))).mergeSort (fun a b => decide (a.seq ≤ b.seq))
  | [] => []

/-- The records of one group of a home, from what this node holds: groups in hand, else the journal. -/
def groupRecs (s : State) (home g : Nat) : Option (List JRec) :=
  match (s.led.groups.find? fun x => x.home == home && x.seq == g && !x.dead).map (·.recs) with
  | some r => some r
  | none => ((journalOf s home).find? fun b => b.group == g).map (·.recs)

/-- The records held of a home's groups later than `g` (07 R383). -/
def laterRecs (s : State) (home g : Nat) : List JRec :=
  ((journalOf s home).filter fun b => decide (b.group > g)).flatMap (·.recs)
    ++ (s.led.groups.filter fun x => x.home == home && !x.dead && decide (x.seq > g)).flatMap (·.recs)

/-- Send one group again (06 R307). -/
def resendGroup (s : State) (home g : Nat) : State :=
  match groupRecs s home g with
  | some rs => sendTo s (twinAddr s) (.mirrorGroup s.led.epoch g (firstT rs) rs)
  | none => s

/-! ### Bringing the shorter side up (06 R317, R861) -/

/-- Tell the twin which of its groups this node holds, and send it those of its own that it lacks (06 R317, R861). -/
def offerGroups (s : State) (its : Nat) : State :=
  let s := sendTo s (twinAddr s) (.groupAck s.led.epoch s.led.mirEnd)
  ((List.range (s.led.mirEnd - its)).map (its + 1 + ·)).foldl (fun s g => resendGroup s (twinAddr s) g) s

/-! ### Hand-back at the holder (07 R402-R404) -/

/-- Send a verdict that waited here to the member that now decides (07 R404): a local one costs its lane 500 ns (05 R272), a relay keeps what the frame
carried (07 R378). -/
def passOn (s : State) (r : Req) : State :=
  match r.v.fwdIn with
  | none =>
    let seq := s.lane.fwdSeq
    let s := s.onLane fun b => { b with fwdSeq := b.fwdSeq + 1 }
    let s := count s (0x4680 + 8 * r.lane) 500
    sendTo (putReq s { r with stage := .fwdWait, v := { r.v with fwdSeq := seq } }) (serialHome r.serial.toNat)
      (.verdictFwd r.lane r.ctx r.v.gate r.v.cred seq)
  | some f =>
    if r.v.relayedIn then endVerdict s r .durabilityTimeout
    else
      let t := serialHome r.serial.toNat
      freeReq (routeFrame s f.carry.dim 2
        { src := f.src, dest := t, relayed := true, hops := f.carry.hops + 1, detour := f.carry.detour, vc := f.carry.vc
          body := .verdictFwd f.lane f.ctx r.v.gate r.v.cred f.seq }) r

/-- The holder learns that the home holds its own authority at a term (07 R402 step 5, R403, R404). -/
def handedBack (s : State) (term : Nat) : State :=
  let home := twinAddr s
  let s := recordTerm s home term
  let s := onView s home fun v => { v with term := max v.term term, byTwin := false, member := true }
  let s := s.onFab fun b => { b with twinAuth := false, offer := none, offerWait := false, collT := none }
  -- the home continues the sequence after the last AUTHORITY group (07 R384)
  let s := irqMain (cause (s.onLed fun l => { l with deciding := true, mirEnd := max l.mirEnd (l.nextAuth - 1) }) 4) 14
  let s := if s.hq.ctlWait.kind = .handBack then endWait s .done else s
  ((s.lane.reqs.filter fun p => p.2.stage == .ledger && !p.2.isMint && serialHome p.2.serial.toNat == home).map Prod.fst).foldl
    (fun s k => match getReq s k with | some r => passOn s r | none => s) s

/-! ### Making a shadow complete (07 R399, R400) -/

/-- Ask for the next pages, at most 64 outstanding. -/
def askPages (s : State) : Nat → State
  | 0 => s
  | n + 1 =>
    if s.fab.pageAsk.length ≥ 64 then s
    else if s.fab.pagesLeft > 0 then
      let p := s.fab.pagesLeft - 1
      askPages (sendTo (s.onFab fun b => { b with pagesLeft := p, pageAsk := b.pageAsk ++ [slotFor false (p * 16384)] }) (twinAddr s)
        (.pageRequest s.led.epoch (twinAddr s) p)) n
    else if s.fab.ownLeft > 0 then
      let p := s.fab.ownLeft - 1
      askPages (sendTo (s.onFab fun b => { b with ownLeft := p, pageAsk := b.pageAsk ++ [slotFor true (p * 16384)] }) (twinAddr s)
        (.pageRequest s.led.epoch (nodeAddr s) p)) n
    else s

/-- Ask for a void block of the own (`true`) or shadow index. -/
def askVoid (s : State) (own : Bool) (block : Nat) : State :=
  sendTo (s.onFab fun b => { b with voidAsk := 1 + 2 * block + (if own then 1 else 0) }) (twinAddr s)
    (.voidRequest s.led.epoch (if own then nodeAddr s else twinAddr s) block)

/-- Step 4: the copy is complete and SHADOW_COMPLETE is flooded (07 R400). A stream of which no group came meanwhile goes on after the groups that the
copied pages hold (R383). A node that took its own ledger back makes a checkpoint of it. DESIGN CHOICE, log entry 119. -/
def tryCopied (s : State) : State :=
  s.when (s.fab.copying && s.fab.pageAsk.isEmpty && decide (s.fab.pagesLeft = 0 ∧ s.fab.ownLeft = 0 ∧ s.fab.voidAsk = 0)) fun s =>
    let own := s.fab.rejoining
    let s := s.onLed fun l => { l with
      mirEnd := if l.mirFirst.isNone then s.fab.copyEnd.getD (max l.mirEnd s.fab.twinEnd) else l.mirEnd
      ownEnd := if own && l.ownFirst.isNone then s.fab.ownCopyEnd.getD l.ownEnd else l.ownEnd
      nextGroup := if own then max l.nextGroup ((if l.ownFirst.isNone then s.fab.ownCopyEnd.getD l.ownEnd else l.ownEnd) + 1) else l.nextGroup
      ckptDue := l.ckptDue || own }
    let s := s.onFab fun b => { b with copying := false, shadowOk := true, rejoining := false }
    startDue (tryWithdrawn (irqMain (flood s .shadowComplete (nodeAddr s) (viewOf s (nodeAddr s)).term s.led.mirEnd) 14))

/-- Discard what this node holds of the shadow ledger, and with `own` of its own ledger too (07 R399): entries, void index, exit records, cached pages,
groups not yet released, the open lease. Cover begins anew (05 R266). -/
def discardLedgers (s : State) (own : Bool) : State :=
  let me := nodeAddr s
  let it := twinAddr s
  let gone := fun (h : Nat) => h == it || (own && h == me)
  let s := s.when own closeLease
  let s := killGroups s fun g => g.source == 1 && gone g.home
  s.onLed fun l => { l with
    shadow := [], voidShadow := [], mirFirst := none, mirWrite := l.mirWrite.filter fun g => !gone g.home
    own := if own then [] else l.own, voidOwn := if own then [] else l.voidOwn
    ownFirst := if own then none else l.ownFirst, ownFrom := if own then l.blockSeq else l.ownFrom
    exits := l.exits.filter fun p => !gone (serialHome p.1)
    cover := if own then tput 0 (tput 0 l.cover it s.time.mUs) me s.time.mUs else tput 0 l.cover it s.time.mUs
    pages := tmap {} l.pages fun slot p =>
      if own || !(slotOwner s slot).1 then { p with cached := false, dirty := false, reading := false, second := false, fromTwin := false } else p }

/-- Begin the steps of R400: for the shadow of the partner, and for the own ledger too after a takeover (R399). JOIN asks the partner to start
mirroring (step 1). A node that takes its own ledger back also mirrors its own ceiling, whose acknowledgement names the highest one the partner holds for
this address. DESIGN CHOICE, log entry 117. -/
def startCopy (s : State) (ownToo : Bool) : State :=
  if !hasTwin s then s
  else
    let own := ownToo || s.fab.rejoining
    let s := discardLedgers s own
    let s := s.onFab fun b => { b with
      copying := true, shadowOk := false, rejoining := own, pageAsk := [], copyEnd := none, ownCopyEnd := none
      pagesLeft := pagesOf s.led.twinCeil, ownLeft := if own then pagesOf s.led.ceil else 0 }
    let s := flood s .join (nodeAddr s) (viewOf s (nodeAddr s)).term s.led.ownEnd
    let s := s.when own fun s => sendTo s (twinAddr s) (.leaseMirror s.led.epoch s.led.ceil)
    tryCopied (askVoid (askPages s 64) false 0)

/-! ### Groups (06 R305-R310) -/

/-- GROUP_TICK (R305): the open groups close. -/
def execGroupTick (s : State) : Result := done (startDue (closeGroup (closeGroup s true) false))

/-- JOURNAL_BLOCK_WRITE_DONE (R308): the block stands on the drive. -/
def execJournalBlockWriteDone (d block : Nat) (s : State) : Result :=
  done (match s.led.groups.find? fun g => g.block == block with
    | some g =>
      if (writeDrives s).contains d && !g.onDrives.contains d then
        let s := putBlock s d (blockOf g)
        let s := s.onLed fun l => { l with groups := l.groups.map fun x => if x.block = block then { x with onDrives := x.onDrives ++ [d] } else x }
        if g.source = 1 then mirrorWritten s (g.home == nodeAddr s) else settle s
      else s
    | none => s)

/-- DRIVE_WRITE_ERROR (R335). -/
def execDriveWriteError (d : Nat) (s : State) : Result :=
  done (
    let x := tget {} s.drives d
    s.when (x.serving || decide (x.resilver ≥ 2)) fun s => dropDrive (observe s (0x28 + d) .retired 2 0x06) d true)

/-- DRIVE_LOST (R335): FAILED is posted by hardware unless the port is RETIRED (03 R164: its SMART fields then read 0). -/
def execDriveLost (d : Nat) (s : State) : Result :=
  done (s.when (decide (d < 2) && (tget {} s.drives d).attached) fun s =>
    let s := s.when (unitSt s (0x28 + d) != .retired) fun s => observe s (0x28 + d) .failed 2 0x0C
    dropDrive (onDrive s d fun x => { x with attached := false, ready := false, smart := [] }) d false)

/-! ### Mirroring (06 R306, 07 R380-R384) -/

/-- The shadow path hands a mirrored group to a lane, which ungates (15 R803); the spec does not say to which ACTIVE lane (log entry 97). -/
def shadowWork (s : State) (seq : Nat) : State :=
  let lanes := (List.range 16).filter (unitActive s)
  match lanes[Config.shadowLane seq % lanes.length]? with
  | some l => ungate s l
  | none => s

/-- Take one group in sequence: it becomes a MIRROR block and its records are applied; a ROLL clears that ledger, and rolls this node's own too
when it confirmed that roll (06 R342, 07 R869). -/
def takeGroup (s : State) (own : Bool) (g : Group) : State :=
  let home := if own then nodeAddr s else twinAddr s
  let s := if own then s else shadowWork s g.seq
  let s := sealBlock s { g with home := home, source := 1, onDrives := [], acked := true }
  match g.recs.find? fun r => r.kind == .roll with
  | some r =>
    if own then startDue (rollOwn s r.extra)
    else
      let s := rollShadow s r.extra
      if s.fab.rollOk = some r.extra then startRoll (s.onFab fun b => { b with rollOk := none }) r.extra else s
  | none => applyRecs s own home none g.recs

/-- Take the groups that were received early and are now next (06 R306). -/
def drainMirror (s : State) (own : Bool) : Nat → State
  | 0 => s
  | n + 1 =>
    let home := if own then nodeAddr s else twinAddr s
    match takeFirst (fun g : Group => g.home == home && g.seq == lastMirrored s own + 1) s.led.mirWrite with
    | (some g, rest) => drainMirror (takeGroup (s.onLed fun l => { l with mirWrite := rest }) own g) own n
    | (none, _) => s

/-- How far a number is from another. -/
def apart (a b : Nat) : Nat := (a - b) + (b - a)

/-- Is an arriving group one of this node's own ledger, sent back by its twin (06 R317) or made by it under authority (07 R384)? A MIRROR_JOURNAL frame
does not name the home: a group that the twin announced and this node lacks is its own until R317 is settled; while the twin holds the authority the group is
taken for the stream whose end is nearer. DEDUCED, log entry 11. -/
def isOwnStream (s : State) (g : Nat) : Bool :=
  if s.fab.ownAuth && s.led.settled then false
  else if !s.led.settled && s.fab.twinKnown && decide (s.led.ownEnd < g ∧ g ≤ s.fab.twinHas) then true
  else if s.fab.ownAuth then false
  else
    let mine := if s.led.ownFirst.isNone then max (lastMirrored s true) s.fab.twinHas else lastMirrored s true
    decide (apart g (mine + 1) < apart g (max (lastMirrored s false) s.fab.twinEnd + 1))

/-- The first group of a stream received while its ledger is being copied: every earlier one counts as received, and the cover instant of its serials is the
earliest it carries (06 R306, 05 R266). -/
def firstOfStream (s : State) (own : Bool) (group tFirst : Nat) : State :=
  let c := min tFirst s.time.mUs
  if own && s.fab.rejoining && s.led.ownFirst.isNone then
    s.onLed fun l => { l with ownFirst := some group, ownEnd := group - 1, cover := tput 0 l.cover (nodeAddr s) c }
  else if !own && s.fab.copying && s.led.mirFirst.isNone then
    s.onLed fun l => { l with mirFirst := some group, mirEnd := group - 1, cover := tput 0 l.cover (twinAddr s) c }
  else s

/-- MIRROR_JOURNAL_RX (R306, 07 R380, R403). -/
def execMirrorJournalRx (src : Nat) (epoch : BitVec 4) (group tFirst : Nat) (recs : List JRec) (s : State) : Result :=
  done (s.when (hasTwin s && src == twinAddr s && s.pow.mainUp && s.led.replayed && decide (recs.length ≤ 252)) fun s =>
    -- a group of the home after the last AUTHORITY group shows that the home took its authority (07 R403)
    let s := match s.fab.offer with
      | some o => if group > o.2.2 ∧ s.fab.twinAuth then handedBack s o.2.1 else s
      | none => s
    let own := isOwnStream s group
    let g : Group := { seq := group, home := if own then nodeAddr s else twinAddr s, source := 1, epoch := epoch, recs := recs }
    let s := firstOfStream s own group tFirst
    if group ≤ lastMirrored s own then
      s.when (decide (group ≤ if own then s.led.ownEnd else s.led.mirEnd)) fun s =>
        sendTo s src (.groupAck s.led.epoch (if own then s.led.ownEnd else s.led.mirEnd))
    else if group = lastMirrored s own + 1 then drainMirror (takeGroup s own g) own (s.led.mirWrite.length + 1)
    else if s.led.mirWrite.any (fun x => x.home == g.home && x.seq == group) then s
    else s.onLed fun l => { l with mirWrite := l.mirWrite ++ [g] })

/-- GROUP_ACK_RX (R306, 06 R317): the named group and every earlier one of that stream are acknowledged. -/
def execGroupAckRx (src : Nat) (epoch : BitVec 4) (group : Nat) (s : State) : Result :=
  done (s.when (hasTwin s && src == twinAddr s && epoch == s.led.epoch) fun s =>
    let own := (s.led.groups.any fun g => g.source == 0 && !g.acked && decide (g.seq ≤ group)) || !s.fab.twinAuth || !s.led.settled
    let s := count s 0x4620
    let s := s.onLed fun l => { l with
      groups := l.groups.map fun g => if (g.source == (if own then 0 else 2)) && decide (g.seq ≤ group) then { g with acked := true } else g }
    if own then
      let s := s.onFab fun b => { b with twinHas := group, twinKnown := true }
      let s := s.when (!s.led.settled && decide (group < s.led.ownEnd)) fun s =>
        ((List.range (s.led.ownEnd - group)).map (group + 1 + ·)).foldl (fun s g => resendGroup s (nodeAddr s) g) s
      trySettle (settle s)
    else settle s)

/-- MIRROR_RESEND_TIMEOUT (R307, R861): a group not acknowledged is sent again; until R317 is settled on either side so is one that the partner lacks, of this
node's ledger or of the partner's own. -/
def execMirrorResendTimeout (group : Nat) (s : State) : Result :=
  done (s.when (mirrors s) fun s =>
    match s.led.groups.find? fun g => g.seq == group && g.source != 1 && !g.acked && !g.dead with
    | some g => sendTo s (twinAddr s) (.mirrorGroup g.epoch g.seq (firstT g.recs) g.recs)
    | none =>
      if !s.led.settled && decide (group ≤ s.led.ownEnd ∧ group > s.fab.twinHas) then resendGroup s (nodeAddr s) group
      else if decide (group ≤ s.led.mirEnd ∧ group > s.fab.twinEnd) then resendGroup s (twinAddr s) group
      else s)

/-- LEASE_MIRROR_RX (R382, 06 R281): a ceiling that keeps R279 goes to the record store, and LEASE_ACK follows its commit. The record never names a lower
ceiling than this node holds already for the twin. -/
def execLeaseMirrorRx (src : Nat) (epoch : BitVec 4) (ceiling : Nat) (s : State) : Result :=
  done (s.when (hasTwin s && src == twinAddr s && epoch == s.led.epoch) fun s =>
    let s := s.onLed fun l => { l with twinAsked := max l.twinAsked ceiling }
    s.when (decide (pagesOf ceiling + pagesOf (match s.led.opening with | some o => max s.led.ceil ((o.n + 1) * 65536) | none => s.led.ceil) ≤ 2 ^ 26)) fun s =>
      enqueue s { src := .ledger, record :=
        { part := 1, typ := 0x0105, id := twinAddr s, payload := ceilPayload epoch (max ceiling s.led.twinCeil) } })

/-- The commit of a LEASE_MIRROR record: the acknowledgement names the highest ceiling held, from which a device in another's place learns where to go on
(02 R55; log entry 117). A shadow copy under way asks for the pages the new ceiling adds (07 R400 step 2). -/
def leaseMirrorCommitted (s : State) (payload : Bytes) : State :=
  if leAt payload 0 1 % 16 ≠ s.led.epoch.toNat then s
  else
    let c := max s.led.twinCeil (leAt payload 8 8)
    let more := pagesOf c - pagesOf s.led.twinCeil
    let s := s.onLed fun l => { l with twinCeil := c }
    let s := sendTo s (twinAddr s) (.leaseAck s.led.epoch c)
    s.when (s.fab.copying && decide (more > 0)) fun s => askPages (s.onFab fun b => { b with pagesLeft := pagesOf s.led.twinCeil }) 64

/-- The commit of a LEASE_CEILING record (02 R52): the opening it belongs to goes on, and a node that takes its own ledger back asks for the pages the
ceiling adds. -/
def leaseCommitted (s : State) (payload : Bytes) : State :=
  if leAt payload 0 1 % 16 ≠ s.led.epoch.toNat then s
  else
    let c := leAt payload 8 8
    let more := pagesOf c - pagesOf s.led.ceil
    let s := s.onLed fun l => { l with
      ceil := max l.ceil c, opening := l.opening.map fun o => if (o.n + 1) * 65536 = c then { o with committed := true } else o }
    let s := s.when (s.fab.rejoining && decide (more > 0)) fun s => askPages (s.onFab fun b => { b with ownLeft := pagesOf s.led.ceil }) 64
    tryLease s

/-- LEASE_ACK_RX (R53). A ceiling above that of the lease being opened shows that the address has used later leases: the opening begins again above it
(02 R55, 07 R405), and a node that takes its own ledger back records it. -/
def execLeaseAckRx (src : Nat) (epoch : BitVec 4) (ceiling : Nat) (s : State) : Result :=
  done (s.when (hasTwin s && src == twinAddr s && epoch == s.led.epoch) fun s =>
    let s := s.onLed fun l => { l with ceilAtTwin := max l.ceilAtTwin ceiling }
    match s.led.opening with
    | some o =>
      if (o.n + 1) * 65536 = ceiling then tryLease (s.onLed fun l => { l with opening := some { o with acked := true } })
      else if (o.n + 1) * 65536 < ceiling then openLease (s.onLed fun l => { l with opening := none, reopen := none })
      else s
    | none => s.when (s.fab.rejoining && decide (ceiling > s.led.ceil)) fun s =>
        enqueue s { src := .ledger, record := { part := 1, typ := 0x0104, payload := ceilPayload epoch ceiling } })

/-- Is a copy of a home's ledger complete here, so that pages of it may be given (07 R383)? -/
def canSupply (s : State) (home : Nat) : Bool :=
  if home = nodeAddr s then !s.fab.rejoining else hasTwin s && home == twinAddr s && s.fab.shadowOk

/-- PAGE_REQUEST_RX (R383): answered from the copy this node holds. -/
def execPageRequestRx (src : Nat) (epoch : BitVec 4) (subject page : Nat) (s : State) : Result :=
  done (s.when (hasTwin s && src == twinAddr s && epoch == s.led.epoch && s.led.replayed) fun s =>
    if canSupply s subject then
      let own := subject == nodeAddr s
      let endG := if own then s.led.nextGroup - 1 else if s.fab.twinAuth then s.led.nextAuth - 1 else lastMirrored s false
      sendTo s src (.page s.led.epoch subject page endG (pageEntries s own page))
    else sendTo s src (.pageAbsent s.led.epoch subject page))

/-- What waits for a page tries again: requests, and a query (06 R318). -/
def resumePages (s : State) : State :=
  let s := resumeQuery s
  ((s.lane.reqs.filter fun p => p.2.stage == .pageWait).map Prod.fst).foldl (fun s k => match getReq s k with
    | some r => if r.isMint then mintAtLedger s { r with stage := .ledger } else verdictAtLedger s { r with stage := .ledger }
    | none => s) s

/-- PAGE_RX (R383): the page is written to its slot, and every record held of later groups is applied to it. -/
def execPageRx (src : Nat) (epoch : BitVec 4) (subject page groupEnd : Nat) (entries : Tbl LState) (s : State) : Result :=
  done (
    let own := subject == nodeAddr s
    let slot := slotFor own (page * 16384)
    s.when (hasTwin s && src == twinAddr s && epoch == s.led.epoch && (own || subject == twinAddr s)
        && (s.fab.pageAsk.contains slot || (pageSt s slot).fromTwin)) fun s =>
      let s := setPage s own page entries
      let later := (laterRecs s subject groupEnd).filter fun r => stateAfter r.kind != none && r.serial / 16384 == page
      let s := applyRecs s own subject none later
      let s := onPage (cachePage s slot) slot fun p => { p with dirty := true }
      let low := fun (o : Option Nat) => some (min groupEnd (o.getD groupEnd))
      let s := s.onFab fun b => { b with
        pageAsk := b.pageAsk.filter (· != slot)
        copyEnd := if own then b.copyEnd else low b.copyEnd, ownCopyEnd := if own then low b.ownCopyEnd else b.ownCopyEnd }
      resumePages (tryCopied (askPages s 64)))

/-- PAGE_ABSENT_RX (R383): the operation stays subject to the page-miss bound. A copy under way asks for the page again. -/
def execPageAbsentRx (src : Nat) (epoch : BitVec 4) (subject page : Nat) (s : State) : Result :=
  done (
    let slot := slotFor (subject == nodeAddr s) (page * 16384)
    s.when (hasTwin s && src == twinAddr s && epoch == s.led.epoch) fun s =>
      if s.fab.pageAsk.contains slot then sendTo s src (.pageRequest s.led.epoch subject page)
      else onPage s slot fun p => { p with fromTwin := false })

/-- VOID_REQUEST_RX (R400): 256 ranges of the named index. -/
def execVoidRequestRx (src : Nat) (epoch : BitVec 4) (subject block : Nat) (s : State) : Result :=
  done (s.when (hasTwin s && src == twinAddr s && epoch == s.led.epoch && canSupply s subject && decide (block < 1024)) fun s =>
    sendTo s src (.voidBlock s.led.epoch subject block (((voidIdx s (subject == nodeAddr s)).drop (256 * block)).take 256)))

/-- VOID_BLOCK_RX (R400): its ranges join the index; a full block is followed by a request for the next. -/
def execVoidBlockRx (src : Nat) (epoch : BitVec 4) (subject block : Nat) (ranges : List (Nat × Nat)) (s : State) : Result :=
  done (
    let own := subject == nodeAddr s
    s.when (hasTwin s && src == twinAddr s && epoch == s.led.epoch && s.fab.copying && decide (s.fab.voidAsk = 1 + 2 * block + (if own then 1 else 0))
        && (own || subject == twinAddr s)) fun s =>
      let s := s.onLed fun l => if own then { l with voidOwn := ranges.foldl (fun v r => insertRange v r.1 r.2) l.voidOwn }
                                else { l with voidShadow := ranges.foldl (fun v r => insertRange v r.1 r.2) l.voidShadow }
      if ranges.length = 256 ∧ block < 1023 then askVoid s own (block + 1)
      else if !own && s.fab.rejoining then askVoid s true 0
      else tryCopied (s.onFab fun b => { b with voidAsk := 0 }))

/-! ### Timeouts of operations (06 R313, R287) -/

/-- DURABILITY_TIMEOUT (R313, R325): lane 16 names the CONTROL or window command that waits. A change already applied stands (R314). -/
def execDurabilityTimeout (lane ctx : Nat) (s : State) : Result :=
  done (
    if lane ≥ 16 then
      (if s.hq.ctlWait.kind = .void ∨ s.hq.ctlWait.kind = .query ∨ (s.hq.ctlWait.kind = .roll ∧ s.led.rollHeld.isSome) then
        endWait (s.onLed fun l => { l with rollHeld := none }) .durabilityTimeout
      else s)
    else match getReq s (reqKey lane ctx) with
      | some r => if r.stage = .durable ∨ r.stage = .ledger then endReq s r .durabilityTimeout else s
      | none => s)

/-! ### Page reads (06 R287, R292, R293) -/

/-- The other drive, when it serves. -/
def otherServes (s : State) (d : Nat) : Bool := (servingDrives s).any (· != d)

/-- A page failed on every serving drive: the drives are observed and the page is asked of the twin (06 R293). -/
def askTwin (s : State) (slot : Nat) : State :=
  let s := (servingDrives s).foldl (fun s d => observe s (0x28 + d) .retired 2 0x05) s
  let w := slotOwner s slot
  let s := onPage s slot fun p => { p with reading := false, second := false, fromTwin := hasTwin s }
  s.when (hasTwin s) fun s =>
    sendTo s (twinAddr s) (.pageRequest s.led.epoch (if w.1 then nodeAddr s else twinAddr s) w.2)

/-- Count a read of a page, and a tag failure, over the hour that ends now; a drive with more than one failure in 10^6 reads leaves the serving set
(06 R335; log entry 12). -/
def countRead (s : State) (d : Nat) (bad : Bool) : State :=
  let hour := fun (l : List Nat) => l.filter fun t => decide (s.time.clk - t < 3600000000)
  let s := onDrive s d fun x => { x with
    reads := hour x.reads ++ [s.time.clk], tagFails := if bad then hour x.tagFails ++ [s.time.clk] else hour x.tagFails }
  let x := tget {} s.drives d
  s.when (bad && decide (x.tagFails.length * 1000000 > x.reads.length)) fun s =>
    dropDrive (observe s (0x28 + d) .retired 2 0x05) d true

/-- Write a page's content to a drive, at its version (06 R288, R296). -/
def putPage (s : State) (d slot : Nat) (es : Tbl LState) : State :=
  let epoch := if (slotOwner s slot).1 then s.led.epoch else s.fab.twinEpoch
  let s := onDrive s d fun x => { x with
    pages := tput {} x.pages slot { version := tget 0 s.led.versions slot, epoch := epoch, entries := es } }
  nvme s [d] (.write (pageLba slot) (pageBytes es))

/-- One of the reads of a page that are under way has ended. -/
def readEnded (s : State) (slot : Nat) : State :=
  onPage s slot fun p => if p.reading && p.second then { p with reading := false } else { p with reading := false, second := false }

/-- PAGE_READ_DONE (R292): `data` is what the drive gave, none on a read error. A page whose tag verifies under the slot's version enters the cache; a
drive whose copy failed is rewritten from the other's, which the order of the two reads does not change. -/
def execPageReadDone (slot d : Nat) (data : Option (Tbl LState)) (s : State) : Result :=
  done (
    let p := pageSt s slot
    s.when ((p.reading || p.second) && (servingDrives s).contains d) fun s =>
      let w := slotOwner s slot
      let good := fun (es : Tbl LState) => pageTag s slot (tget 0 s.led.versions slot) es = tget 0 s.led.tags slot
      match data with
      | some es =>
        if good es then
          let s := readEnded (countRead s d false) slot
          if p.cached then s
          else
            let failed := !p.reading && p.second
            let more := p.reading && p.second
            let s := if p.dirty then mergePage s w.1 w.2 es else setPage s w.1 w.2 es
            let s := onPage (cachePage s slot) slot fun q => { q with second := more }
            resumePages (if failed then ((servingDrives s).filter (· != d)).foldl (fun s e => putPage s e slot es) s else s)
        else
          let s := countRead s d true
          if p.cached then
            (servingDrives s).foldl (fun s e => if e = d then putPage s d slot (tget {} (tget {} s.drives (1 - d)).pages slot).entries else s) (readEnded s slot)
          else if p.reading && (p.second || otherServes s d) then secondRead s slot d else askTwin s slot
      | none =>
        let s := countRead s d false
        if p.cached then readEnded s slot
        else if p.reading && (p.second || otherServes s d) then secondRead s slot d else askTwin s slot)
where
  /-- The read of the other drive goes on, or is begun. -/
  secondRead (s : State) (slot d : Nat) : State :=
    let s := s.when (!(pageSt s slot).second) fun s => nvme s ((servingDrives s).filter (· != d)) (.read (pageLba slot) 1)
    onPage s slot fun p => { p with reading := false, second := true }

/-- PAGE_MISS_SECOND_READ (R287). -/
def execPageMissSecondRead (slot : Nat) (s : State) : Result :=
  done (s.when ((pageSt s slot).reading && !(pageSt s slot).second && decide ((servingDrives s).length ≥ 2)) fun s =>
    onPage (nvme s (turnDrive s) (.read (pageLba slot) 1)) slot fun p => { p with second := true })

/-- PAGE_MISS_TIMEOUT (R287): lane 16 names the query that waits for its page. -/
def execPageMissTimeout (lane ctx : Nat) (s : State) : Result :=
  done (
    if lane ≥ 16 then (if s.hq.ctlWait.kind = .query ∧ s.hq.ctlWait.unapplied then endWait s .ledgerMissTimeout else s)
    else inStage s lane ctx .pageWait fun r => endReq s r .ledgerMissTimeout)

/-! ### Checkpoints (06 R324-R329) -/

/-- CHECKPOINT_START (R324): 60 s after the start of the previous one, or once 2^20 records have been written since; held in NAP, where it only becomes due
(15 R808). -/
def execCheckpointStart (s : State) : Result :=
  done (s.when (decide (s.time.clk - s.led.ckptAt ≥ 60000000 ∨ s.led.sinceCkpt ≥ 2 ^ 20) || s.led.ckptDue) fun s =>
    if s.pow.state = .nap then s.onLed fun l => { l with ckptDue := true } else s.when s.pow.mainUp startCheckpoint)

/-- Bytes 0 to 103 of a checkpoint header (06 R329). -/
def ckptHead (c : Ckpt) : Bytes :=
  c.magic ++ [1] ++ leBytes 1 (c.epoch.toNat + 16 * c.twinEpoch.toNat) ++ zeros 2 ++ leBytes 8 c.k ++ leBytes 8 c.p ++ bvBytes c.chain ++ bvBytes c.root
    ++ leBytes 4 c.voidOwn.length ++ leBytes 4 c.voidShadow.length ++ leBytes 8 c.ownCeil ++ leBytes 8 c.twinCeil ++ leBytes 8 c.ownEnd
    ++ leBytes 8 c.mirEnd ++ leBytes 8 c.time

/-- The tag of a checkpoint header (06 R329). -/
def ckptTag (s : State) (c : Ckpt) : BitVec 128 := Config.aesCmac (pageKey s) (ckptHead c)

/-- Blocks 0 to 2,048 of a checkpoint slot (06 R329). -/
def ckptImage (c : Ckpt) : Bytes :=
  let ranges := fun (l : List (Nat × Nat)) => fit 4194304 (l.flatMap fun r => leBytes 8 r.1 ++ leBytes 8 r.2)
  fit 4096 (ckptHead c ++ bvBytes c.tag) ++ ranges c.voidOwn ++ ranges c.voidShadow

/-- The places where two tables differ, `n` to an LBA. -/
def changedLbas {α : Type} [DecidableEq α] (d : α) (old new : Tbl α) (n : Nat) : List Nat :=
  (((old ++ new).map Prod.fst).filter fun k => decide (tget d old k ≠ tget d new k)).map (· / n) |>.dedup

/-- Write a metadata copy to a drive: every LBA of versions and tags that differs from what that copy holds (06 R297, R327). -/
def writeMeta (s : State) (d c : Nat) : State :=
  let x := tget {} s.drives d
  let vs := s.led.versions
  let ts := s.led.tags
  let s := (changedLbas 0 (tget [] x.metaV c) vs 512).foldl (fun s n =>
    nvme s [d] (.write (metaLba c + n) ((List.range 512).flatMap fun i => leBytes 8 (tget 0 vs (512 * n + i))))) s
  let s := (changedLbas 0 (tget [] x.metaT c) ts 256).foldl (fun s n =>
    nvme s [d] (.write (metaLba c + 131072 + n) ((List.range 256).flatMap fun i => bvBytes (tget 0 ts (256 * n + i))))) s
  onDrive s d fun x => { x with metaV := tput [] x.metaV c vs, metaT := tput [] x.metaT c ts }

/-- Write a checkpoint slot to a drive (06 R329). -/
def writeCkpt (s : State) (d : Nat) (c : Ckpt) : State :=
  nvme (onDrive s d fun x => { x with ckpts := tput {} x.ckpts (c.k % 2) c }) [d] (.write (ckptLba (c.k % 2)) (ckptImage c))

/-- Payload of a LEDGER_CHECKPOINT record (12 R656): k, p, chain tag, root, epochs. -/
def ckptPayload (c : Ckpt) : Bytes :=
  leBytes 8 c.k ++ leBytes 8 c.p ++ bvBytes c.chain ++ bvBytes c.root ++ leBytes 1 (c.epoch.toNat + 16 * c.twinEpoch.toNat) ++ zeros 7

/-- The pages dirty at p, written to a drive at their versions as they stood at p (06 R316, R326, R327). -/
def writePages (s : State) (d : Nat) : State :=
  ((s.led.pages.filter fun p => p.2.unwritten).map Prod.fst).foldl (fun s slot => putPage s d slot (tget [] s.led.snap slot)) s

/-- CHECKPOINT_WRITES_DONE (R327): with every block before p durable, the pages, the metadata copy and the slot are written and the record is
queued. -/
def execCheckpointWritesDone (s : State) : Result :=
  done (match s.led.ckptRun with
    | some c =>
      if s.led.ckptWritten || s.led.groups.any (fun g => decide (g.block < c.p) && (if g.source = 1 ∨ g.dead then !onServing s g else !g.durable)) then s
      else
        let c := { c with root := s.led.root }
        let c := { c with tag := ckptTag s c }
        let s := (writeDrives s).foldl (fun s d => writeCkpt (writeMeta (writePages s d) d (c.k % 2)) d c) s
        let s := s.onLed fun l => { l with
          ckptRun := some c, ckptWritten := true, snap := [], pages := tmap {} l.pages fun _ p => { p with unwritten := false } }
        enqueue s { src := .ledger, record := { part := 3, typ := 0x0303, payload := ckptPayload c } }
    | none => s)

/-- The checkpoint is complete once its record is committed (06 R328): the journal before p may be overwritten, a drive at step 6 of R336 joins
the serving set, a CHECKPOINT command ends. -/
def checkpointCommitted (s : State) : State :=
  match s.led.ckptRun with
  | some c =>
    let s := s.onLed fun l => { l with
      ckptLast := c, ckptRun := none, ckptWritten := false, sincePos := l.sinceCkpt, fullStop := decide (l.sinceCkpt ≥ 2 ^ 22) }
    let ds := [0, 1].filter fun d => (tget {} s.drives d).resilver == 7
    let s := ds.foldl (fun s d =>
      let s := writeLabel (onDrive s d fun x => { x with resilver := 0, serving := true }) d 2
      irqMain (cause s 5) 15) s
    let s := resumeRoll s
    startDue (if s.led.ledCkpt then
      irqMain (s.onLed fun l => { l with ledCkpt := false, ledBusy := false, ledDone := true, ledCode := .done }) 13
    else s)
  | none => s

/-- VOID_REWRITE_PAGE (R321): void-covered LIVE and INSIDE entries of one more page become CLOSED. -/
def execVoidRewritePage (s : State) : Result :=
  done (
    let own := pagesOf s.led.ceil
    let all := own + pagesOf s.led.twinCeil
    let n := if s.led.rewritePage < all then s.led.rewritePage else 0
    let mine := decide (n < own)
    let page := if mine then n else n - own
    let es := ((if mine then s.led.own else s.led.shadow).filter fun p =>
      decide (p.1 / 16384 = page) && (p.2 == .live || p.2 == .inside) && inRanges (voidIdx s mine) p.1).map Prod.fst
    es.foldl (fun s x => setEntry s mine x .closed) (s.onLed fun l => { l with rewritePage := n + 1 }))

/-! ### Drives in service (06 R336) -/

/-- RESILVER_COPY_DONE (R336 steps 3 to 5). -/
def execResilverCopyDone (d : Nat) (s : State) : Result :=
  done (match servingDrives s with
    | e :: _ =>
      if (tget {} s.drives d).resilver = 2 ∧ e ≠ d then
        let x := tget {} s.drives e
        let s := onDrive s d fun y => { y with
          ckpts := x.ckpts, metaV := x.metaV, metaT := x.metaT, pages := x.pages
          journal := x.journal.foldl (fun t p => if p.2.seq ≥ s.led.ckptLast.p then tput {} t p.1 p.2 else t) y.journal
          resilver := 6, progress := 0xFFFF }
        irqMain s 15
      else s
    | [] => s)

/-- What R294 asks of a drive, as Identify reports it. -/
def meetsDrive (i : DriveId) : Bool :=
  decide (i.version ≥ 0x00010400 ∧ i.lbaSize = 4096 ∧ i.metaSize = 0 ∧ i.capacity ≥ 400000000000 ∧ i.lbas ≥ 76296192 ∧ i.atomicLbas ≥ 1) && !i.writeCache

/-- A drive that met R294 gets its queue pair (R295). -/
def makeQueues (s : State) (d : Nat) : State :=
  nvme (nvme (onDrive s d fun x => { x with queue := 1024 }) [d] (.createCq 1024)) [d] (.createSq 1024)

/-- A drive completes attach in service (R336 steps 1 and 2): one that fails R294 is refused, and its port stays or becomes RETIRED (15 R860). -/
def driveAttach (s : State) (d : Nat) (id : DriveId) : State :=
  let x := tget {} s.drives d
  s.when (decide (d < 2) && s.pow.mainUp && !x.serving && decide (x.resilver ≤ 1)) fun s =>
    let s := nvme (onDrive s d fun x => { x with ident := id, queue := 0 }) [d] .identify
    if !meetsDrive id then
      let s := irqMain (onDrive s d fun x => { x with attached := true, ready := false, resilver := 0 }) 15
      s.when (unitActive s (0x28 + d)) fun s => changeUnit s (0x28 + d) .retired 0 0x01
    else
      let s := nvme (makeQueues s d) [d] (.dealloc 0 id.lbas)
      let s := onDrive s d fun x => { x with
        attached := true, ready := true, dealloc := true, journal := [], pages := [], ckpts := [], metaV := [], metaT := [], progress := 0
        labelA := [], labelB := [], resilver := if (servingDrives s).isEmpty then 0 else 2 }
      irqMain (cause (writeLabel s d 1 (nextLabel s x)) 5) 15

/-- DRIVE_ATTACH (R336). -/
def execDriveAttach (d : Nat) (id : DriveId) (s : State) : Result := done (driveAttach s d id)

/-- DRIVE_LOG_POLL (R295, 03 R164). -/
def execDriveLogPoll (d : Nat) (log : SmartLog) (s : State) : Result :=
  done (s.when (decide (d < 2) && (tget {} s.drives d).attached && s.pow.mainUp) fun s =>
    onDrive (nvme s [d] .logPage) d fun x => { x with smart := tputs 0 [] 0 [log.written, log.read, log.used, log.temp] })

/-! ### Retiring a pseudo-channel (06 R338, R339) -/

/-- PC_REBUILD_DONE (R338): its clean cached pages are forgotten, a DRAINING unit becomes RETIRED, and operations that waited go on. -/
def execPcRebuildDone (pc : Nat) (s : State) : Result :=
  done (s.when (s.hbm.rebuilding.contains (0x10 + pc)) fun s =>
    let s := s.onLed fun l => { l with
      pages := tmap {} l.pages fun slot p => if slot % 16 = pc ∧ !p.dirty ∧ !p.unwritten ∧ !p.pinned then { p with cached := false } else p }
    let s := s.onHbm fun h => { h with rebuilding := h.rebuilding.filter (· != 0x10 + pc) }
    let s := s.when (unitSt s (0x10 + pc) == .draining) fun s => changeUnit s (0x10 + pc) .retired 0 (unitEnt s (0x10 + pc)).reason
    resumePages s)

/-! ### Epoch roll and passback rebuild -/

/-- ROLL_CONFIRM_TIMEOUT (R341 check 7): neither node has rolled. -/
def execRollConfirmTimeout (s : State) : Result :=
  done (s.when s.fab.rollAsk fun s =>
    let s := s.onFab fun b => { b with rollAsk := false }
    if s.hq.ctlWait.kind = .roll then endWait s .durabilityTimeout
    else irqMain (s.onFab fun b => { b with busy := false, done := true, code := .durabilityTimeout }) 14)

/-- Is the passback table full (06 R283)? -/
def exitsFull (s : State) : Bool := decide (s.led.exits.length ≥ 64 * 2 ^ 20)

/-- Add the exit record of one record of a block; one with a later e stays (05 R265). The second part becomes true at a record for which the table has no
place, where the rebuild stops (R264). -/
def rebuildRec (b : JBlock) (a : State × Bool) (r : JRec) : State × Bool :=
  let s := a.1
  let g := serialOf b.epoch b.home r.serial
  if a.2 || r.kind != .exit then a
  else match tget none s.led.exits g with
    | some e => if e ≥ r.t then a else (addExit s g r.t, false)
    | none => if exitsFull s then (s, true) else (addExit s g r.t, false)

/-- Block `q` of the journal, from a serving drive that holds it, or sealed and not yet written on one (05 R264). -/
def blockHeld (s : State) (q : Nat) : Option JBlock :=
  let fits := fun (b : JBlock) => b.magic == journalMagic && b.seq == q && b.seq2 == q && !b.recs.isEmpty
  ((servingDrives s).findSome? fun d =>
      let b := tget {} (tget {} s.drives d).journal (q % 2 ^ 23)
      if fits b then some b else none)
    <|> (s.led.groups.find? fun g => g.block == q).map blockOf

/-- One day (05 R264). -/
def dayUs : Nat := 86400000000

/-- Is every record of a block older than the instant of opening less 86,400 s (05 R264)? -/
def oldBlock (s : State) (b : JBlock) : Bool := b.recs.all fun r => decide (r.t + dayUs < s.led.openedAt)

/-- The rebuild stops at an old block: every later exit is in the table, and C of every home decided here falls to that instant, unless it is
already lower (05 R264). -/
def rebuildOld (s : State) : State :=
  (([nodeAddr s, twinAddr s].filter (decidesFor s)).foldl (fun s h =>
    s.onLed fun l => { l with cover := tupd 0 l.cover h fun c => min c (l.openedAt - dayUs) }) s).onLed fun l => { l with rebuildQ := none }

/-- One block of the rebuild: its exit records are added and its home's cover is lowered; at a full table the rebuild stops and the cover stays (05 R264,
R265). -/
def rebuildBlock (s : State) (q : Nat) (b : JBlock) : State :=
  let a := b.recs.foldl (rebuildRec b) (s, false)
  if a.2 then a.1.onLed fun l => { l with rebuildQ := none }
  else a.1.onLed fun l => { l with
    cover := tupd 0 l.cover b.home fun c => min c b.tFirst
    rebuildQ := if q = 0 then none else some (q - 1) }

/-- PASSBACK_REBUILD_BLOCK (05 R264, R265): one block further back. The rebuild stops at the oldest block retained, at a full table, and at an
old block. -/
def execPassbackRebuildBlock (s : State) : Result :=
  done (match s.led.rebuildQ.bind fun q => (blockHeld s q).map fun b => (q, b) with
    | some (q, b) =>
      if exitsFull s then s.onLed fun l => { l with rebuildQ := none }
      else if oldBlock s b then rebuildOld s
      else rebuildBlock s q b
    | none => s.onLed fun l => { l with rebuildQ := none })

end Sys2Proof.Machine
end

