-- ==== Sys2Proof/Machine/Membership.lean ====
section
/-! DEFINITION. The membership view, heartbeats, witnesses, the taking of authority, joining, hand-back and roll confirmation (07 R373-R408,
R868, R869). -/

namespace Sys2Proof.Machine

/-! ### Joining (07 R868, 15 R864) -/

/-- The next UP port after a given index, in port order, turning round. -/
def nextUpPort (s : State) (after : Option Nat) : Option Port :=
  let ups := allPorts.filter (linkUp s)
  match after with
  | none => ups.head?
  | some i => (ups.find? fun p => decide (portIdx p > i)) <|> ups.head?

/-- Ask the neighbour on a port for its view. -/
def askView (s : State) (p : Port) : State :=
  let s := s.onFab fun b => { b with viewAsked := some (portIdx p) }
  sendTo s (neighbour s p) (member s .viewRequest (nodeAddr s) (viewOf s (nodeAddr s)).term 0)

/-- The first link that comes UP before a VIEW answer was received: JOIN is flooded and the view is asked for. -/
def beginJoin (s : State) (p : Port) : State :=
  if s.fab.viewGot || s.fab.viewAsked.isSome then s
  else askView (flood s .join (nodeAddr s) (viewOf s (nodeAddr s)).term s.led.ownEnd) p

/-- What a node does once it knows who holds its authority: it re-joins as its twin's twin (07 R399), or it holds its own authority. A node that
was excluded makes its shadow complete (R400). The bound of 06 R282 holds while the twin is no member (log entry 122). -/
def knowAuthority (s : State) : State :=
  let me := nodeAddr s
  let v := viewOf s me
  if hasTwin s && v.byTwin then startCopy (s.onFab fun b => { b with ownAuth := false, twinMember := false, twinShadowOk := false }) true
  else
    let t := hasTwin s && v.twinMember
    let fine := hasTwin s && (viewOf s (twinAddr s)).twinMember
    let s := s.onFab fun b => { b with ownAuth := true, twinMember := t, twinShadowOk := t, shadowOk := fine }
    let s := s.when (hasTwin s) fun s => s.onLed fun l => { l with
      growTo := if t then none else some (l.growTo.getD (halfFree s)) }
    let s := s.when (hasTwin s && !fine) (startCopy · false)
    afterGain (trySettle s)

/-- PERGOLA_JOIN_END (R868): a VIEW answer has come, or no link is UP; in the second case a node with a twin counts the twin as the holder until
an answer comes (15 R864). On the twin route of 10 R589 the first key is asked for. -/
def execPergolaJoinEnd (s : State) : Result :=
  done (s.when (s.pow.mainUp && s.led.replayed && !s.fab.joined && (s.fab.viewGot || !allPorts.any (linkUp s))) fun s =>
    let s := irqMain ((s.onFab fun b => { b with joined := true, abstain := true }).onPow fun p => { p with bootStep := max p.bootStep 10 }) 14
    let s := s.when (s.fab.twinRoute && s.fab.keyReq.isNone) fun s => askKey s 5 0
    if s.fab.viewGot || !hasTwin s then knowAuthority s
    else
      let s := onView s (nodeAddr s) fun v => { v with byTwin := true }
      tryOpen (s.onLed fun l => { l with settled := true }))

/-- ABSTAIN_PERIOD_END (R391). -/
def execAbstainPeriodEnd (s : State) : Result := done (s.when s.fab.joined fun s => s.onFab fun b => { b with abstain := false })

/-- The value field of a VIEW frame (07 R374). -/
def viewValue (home : Nat) (v : HomeView) (last : Bool) : Nat :=
  (if v.byTwin then twinOf home else home) % 4096 + (if v.member then 4096 else 0) + (if v.twinMember then 8192 else 0)
    + (if v.shadowOk then 16384 else 0) + (if last then 32768 else 0)

/-- VIEW_REQUEST_RX (R868): one VIEW for each home not in the default state. A term that this node only recorded is in no view (R394). -/
def execViewRequestRx (f : MFrame) (s : State) : Result :=
  done (s.when (s.pow.mainUp && decide (f.src ≠ nodeAddr s)) fun s =>
    let send := fun (s : State) (home term value : Nat) => sendTo s f.src (member s .view home term value)
    let told := s.fab.view.filter fun p => !s.fab.fromRecord.contains p.1
    let n := told.length
    if n = 0 then send s 0 0 65536
    else told.zipIdx.foldl (fun s p => send s p.1.1 p.1.2.term (viewValue p.1.1 p.1.2 (p.2 + 1 == n))) s)

/-- VIEW_RX (R868): taken until the answer's last frame; a home that this node knew only from its own record, and that no frame names, is then in the default
state. A node that went on without an answer now learns who holds its authority (15 R864). -/
def execViewRx (f : MFrame) (s : State) : Result :=
  done (s.when (s.fab.viewAsked.isSome && !s.fab.viewGot && decide (f.src ≠ nodeAddr s)) fun s =>
    let s := s.when (!f.value.testBit 16) fun s =>
      let s := s.onFab fun b => { b with viewNamed := b.viewNamed ++ [f.subject] }
      if f.term < (viewOf s f.subject).term ∧ !s.fab.fromRecord.contains f.subject then s
      else
        let s := s.onFab fun b => { b with fromRecord := b.fromRecord.filter (· != f.subject) }
        let s := onView s f.subject fun v => { v with
          term := f.term, byTwin := f.value % 4096 != f.subject, member := f.value.testBit 12 || f.subject == nodeAddr s
          twinMember := f.value.testBit 13, shadowOk := f.value.testBit 14 }
        recordTerm s f.subject f.term
    if f.value.testBit 15 || f.value.testBit 16 then
      let s := (s.fab.fromRecord.filter fun h => !s.fab.viewNamed.contains h).foldl (fun s h => onView s h fun _ => {}) s
      let s := s.onFab fun b => { b with viewGot := true, fromRecord := [], viewNamed := [] }
      s.when s.fab.joined knowAuthority
    else s)

/-- VIEW_REQUEST_TIMEOUT (R868): while the answer has not begun, the next UP neighbour is asked. -/
def execViewRequestTimeout (s : State) : Result :=
  done (s.when (s.fab.viewAsked.isSome && !s.fab.viewGot && s.fab.viewNamed.isEmpty) fun s =>
    match nextUpPort s s.fab.viewAsked with
    | some p => askView s p
    | none => s)

/-! ### Giving authority up (07 R398) -/

/-- The home stops deciding for its own serials at once: what waits in LEDGER, and what waits for a group that its discarded ledger can no longer make
durable, ends with DURABILITY_TIMEOUT; it re-joins (R399). -/
def yieldAuthority (s : State) : State :=
  if !s.fab.ownAuth then s
  else
    let me := nodeAddr s
    let s := irqMain (cause (s.onFab fun b => { b with ownAuth := false, collE := none }) 4) 14
    let s := dropTwin s
    let ks := (s.lane.reqs.filter fun p => (p.2.stage == .ledger || p.2.stage == .leaseWait || p.2.stage == .pageWait || p.2.stage == .durable)
      && (p.2.isMint || serialHome p.2.serial.toNat == me)).map Prod.fst
    let s := ks.foldl (fun s k => match getReq s k with | some r => endReq s r .durabilityTimeout | none => s) s
    let w := s.hq.ctlWait
    let s := if (w.kind = .void ∨ w.kind = .query ∨ w.kind = .roll) ∧ w.home = me then endWait s .durabilityTimeout else s
    let s := killGroups (closeLease s) fun g => g.home == me && g.source != 1
    let s := s.onLed fun l => { l with
      openGroup := [], opening := none, reopen := none, rolling := none, rollWait := none, rollHeld := none }
    startCopy s true

/-! ### Heartbeats (07 R385-R388) -/

/-- The payload of a HEARTBEAT (07 R385). -/
def heartbeat (s : State) : FrameBody :=
  .heartbeat s.fab.ownAuth s.fab.twinAuth s.fab.shadowOk s.hq.open_ s.led.epoch (viewOf s (nodeAddr s)).term s.led.ownEnd

/-- HEARTBEAT_TIMER (R386, R387). -/
def execHeartbeatTimer (s : State) : Result :=
  done (s.when (s.pow.mainUp && isMember s (nodeAddr s) && !s.fab.withdrawn && s.led.replayed) fun s =>
    (adjacent s (nodeAddr s)).foldl (fun s n =>
      match allPorts.find? fun p => linkUp s p && neighbour s p == n with
      | some p => sendOn s p { src := nodeAddr s, dest := n, body := heartbeat s }
      | none => sendTo s n (heartbeat s)) s)

/-- The holder takes up deciding again when the home did not move (07 R403). -/
def resumeHolder (s : State) : State :=
  let s := s.onFab fun b => { b with offer := none, offerWait := false }
  let s := s.onLed fun l => { l with deciding := true }
  if s.hq.ctlWait.kind = .handBack then endWait s .durabilityTimeout else s

/-- The twin's own term rose, at which it holds its own authority, without this node's part: this node takes itself as excluded and makes its shadow complete
again; a holder learns that the home took its authority back (07 R403, R865). Until the join has ended the view decides that. -/
def missedChange (s : State) (old term : Nat) : State :=
  if !s.fab.joined || decide (term ≤ old) then s
  else if s.fab.twinAuth then handedBack s term
  else startCopy (s.onFab fun b => { b with collT := none, withdrawWait := none }) false

/-- HEARTBEAT_RX (R385, R376): the sender is heard, and a higher term is adopted with the authority it carries. A home's term raised without this
twin's part is an EXCLUDE it missed (R865); one that answers this holder's offer ends the hand-back (R403). -/
def execHeartbeatRx (src : Nat) (ownAuth _twinAuth _shadow _dataOpen : Bool) (epoch : BitVec 4) (term groupEnd : Nat) (s : State) : Result :=
  done (s.when (s.pow.mainUp && (adjacent s (nodeAddr s)).contains src) fun s =>
    let s := s.onFab fun b => { b with heard := tput false b.heard src true }
    let twin := hasTwin s && src == twinAddr s
    let s := s.when twin fun s => s.onFab fun b => { b with
      twinEpoch := epoch, twinEnd := groupEnd, collT := if b.collT.any (·.forOffer) then b.collT else none, collE := none }
    let old := (viewOf s src).term
    match if twin then s.fab.offer else none with
    | some o =>
      if term ≥ o.2.1 then handedBack s term
      else if s.fab.offerWait then resumeHolder s
      else s
    | none =>
      let s := adopt s src term fun v => { v with byTwin := !ownAuth, member := true }
      s.when (twin && ownAuth) fun s => missedChange s old term)

/-! ### Witnesses (07 R389-R394) -/

/-- Grants needed of the witnesses other than the pair's twin (07 R389); none: never. -/
def grantsNeeded (exclude : Bool) (witnesses : Nat) : Option Nat :=
  match witnesses, exclude with
  | 6, false => some 3 | 6, true => some 4
  | 5, false => some 2 | 5, true => some 3
  | 4, _ => some 2
  | 3, false => some 1 | 3, true => some 2
  | 2, _ => some 1
  | _, _ => none

/-- Start an attempt: every witness of the home but the pair's twin is queried in the home's term of the view (07 R393-R395, R403). -/
def startCollect (s : State) (exclude forOffer : Bool) : State :=
  let home := if exclude then nodeAddr s else twinAddr s
  let ws := (adjacent s home).filter fun w => w != nodeAddr s && w != twinAddr s
  match grantsNeeded exclude (adjacent s home).length with
  | none => s
  | some _ =>
    let c : Collect := { exclude := exclude, home := home, term := (viewOf s home).term, forOffer := forOffer }
    let s := s.onFab fun b => if exclude then { b with collE := some c } else { b with collT := some c }
    ws.foldl (fun s w => sendTo s w (.witnessQuery exclude home c.term)) s

/-- Does the condition of an exclusion or takeover hold (07 R393, R395)? -/
def excludeWanted (s : State) : Bool := hasTwin s && s.fab.ownAuth && s.fab.twinMember && !hears s (twinAddr s) && !s.fab.withdrawn && s.fab.joined
def takeoverWanted (s : State) : Bool :=
  hasTwin s && !s.fab.twinAuth && s.fab.shadowOk && !(viewOf s (twinAddr s)).byTwin && !hears s (twinAddr s) && !s.fab.withdrawn && s.fab.joined

/-- HEARTBEAT_SILENCE (R388): the node is no longer heard; a twin that falls silent sets off the queries of R393, R395 and R403. -/
def execHeartbeatSilence (src : Nat) (s : State) : Result :=
  done (
    let s := s.onFab fun b => { b with heard := tput false b.heard src false }
    if !hasTwin s || src != twinAddr s then s
    else
      let s := s.when (excludeWanted s && s.fab.collE.isNone) (startCollect · true false)
      let s := s.when (takeoverWanted s && s.fab.collT.isNone) (startCollect · false false)
      s.when (s.fab.twinAuth && s.fab.offerWait && s.fab.collT.isNone) (startCollect · false true))

/-- The answer of a witness and the grant it then holds (07 R390, R391). -/
def witnessAnswer (s : State) (src : Nat) (excl : Bool) (home term : Nat) : WAnswer × Option Grant :=
  let g := tget none s.fab.grants home
  if s.fab.abstain then (.abstain, g)
  else
    let held := match g with | some x => x.outstanding && x.term == term | none => false
    let same := match g with | some x => held && x.querier == src && x.exclude == excl | none => false
    let heardOk := if excl then hears s home && src == home else !hears s home && src == twinOf home
    if term ≠ (viewOf s home).term then (.refuse, g)
    else if same then (.grant, g)
    else if heardOk && !held && hasTwin s then (.grant, some { querier := src, exclude := excl, term := term, outstanding := true })
    else (.refuse, g)

/-- WITNESS_QUERY_RX (R391, R392). -/
def execWitnessQueryRx (src : Nat) (excl : Bool) (home term : Nat) (s : State) : Result :=
  done (s.when (s.pow.mainUp && s.fab.joined && (adjacent s home).contains (nodeAddr s)) fun s =>
    let a := witnessAnswer s src excl home term
    sendTo (s.onFab fun b => { b with grants := tput none b.grants home a.2 }) src (.witnessReply excl a.1 home (viewOf s home).term))

/-- GRANT_LAPSE (R390). -/
def execGrantLapse (home : Nat) (s : State) : Result :=
  done (s.onFab fun b => { b with
    grants := tupd none b.grants home fun g => g.map fun x => if x.acked then x else { x with outstanding := false } })

/-- An attempt of a kind. -/
def collectOf (s : State) (excl : Bool) : Option Collect := if excl then s.fab.collE else s.fab.collT
def setCollect (s : State) (excl : Bool) (c : Option Collect) : State :=
  s.onFab fun b => if excl then { b with collE := c } else { b with collT := c }

/-- WITNESS_REPLY_RX (R393): with enough grants the new term is recorded and the decision goes to the granting witnesses. Under R403 grants let
the holder resume at term + 2, and a refusal that gives the offered term shows that the home moved. -/
def execWitnessReplyRx (src : Nat) (excl : Bool) (answer : WAnswer) (home term : Nat) (s : State) : Result :=
  done (match collectOf s excl with
    | none => s
    | some c =>
      if c.home ≠ home ∨ c.decided ∨ !(adjacent s home).contains src ∨ src = twinOf home ∧ excl then s
      else if answer = .refuse ∧ c.forOffer ∧ term > c.term then handedBack s term
      else if answer ≠ .grant ∨ term ≠ c.term ∨ c.grants.contains src then s
      else
        let c := { c with grants := c.grants ++ [src] }
        match grantsNeeded excl (adjacent s home).length with
        | none => s
        | some need =>
          if c.grants.length < need then setCollect s excl (some c)
          else if c.forOffer then
            let t := c.term + 2
            let s := recordTerm s home t
            let s := onView s home fun v => { v with term := t, byTwin := true }
            resumeHolder (flood (setCollect s false none) .takeover home t (s.led.nextAuth - 1))
          else
            let t := c.term + 1
            let s := recordTerm (setCollect s excl (some { c with decided := true })) home t
            c.grants.foldl (fun s w =>
              sendTo s w (member s (if excl then .exclude else .takeover) home t (if excl then 0 else lastMirrored s false))) s)

/-- DECISION_ACK_RX (R393, R395): with enough acknowledgements of the witnesses that granted, the decision takes effect. -/
def execDecisionAckRx (f : MFrame) (s : State) : Result :=
  done (
    let excl := f.value % 256 == 3
    match collectOf s excl with
    | none => s
    | some c =>
      if f.subject ≠ c.home ∨ !c.decided ∨ f.term ≠ c.term + 1 ∨ !c.grants.contains f.src ∨ c.acks.contains f.src ∨ (!excl ∧ f.value % 256 ≠ 2) then s
      else
        let c := { c with acks := c.acks ++ [f.src] }
        match grantsNeeded excl (adjacent s c.home).length with
        | none => s
        | some need =>
          if c.acks.length < need ∨ hears s (twinAddr s) then setCollect s excl (some c)
          else if excl then (if s.fab.ownAuth then trySettle (tryLease (settle (excludeTwin s (c.term + 1)))) else setCollect s true none)
          else if s.fab.shadowOk then afterGain (takeAuthority s (c.term + 1))
          else setCollect s false none)

/-- COLLECTION_TIMEOUT (R394): the attempt is abandoned; the term it recorded stays recorded. -/
def execCollectionTimeout (s : State) : Result := done (s.onFab fun b => { b with collT := none, collE := none })

/-- COLLECTION_RETRY (R394): the attempts whose condition persists start again. -/
def execCollectionRetry (s : State) : Result :=
  done (
    let s := s.when (excludeWanted s && s.fab.collE.isNone) (startCollect · true false)
    let s := s.when (takeoverWanted s && s.fab.collT.isNone) (startCollect · false false)
    s.when (s.fab.twinAuth && s.fab.offerWait && s.fab.collT.isNone && !hears s (twinAddr s)) (startCollect · false true))

/-! ### MEMBERSHIP frames (07 R373-R377) -/

/-- JOIN_RX (R374): the sender is a member. A twin that joins is told what this node holds of its groups, is sent those it lacks (06 R317), and
is mirrored to from now on with the current ceiling (R400 step 1), a lease opening under way included (02 R53). A twin that joins at a higher term than this
node holds has had it raised without this node's part (R865). -/
def execJoinRx (f : MFrame) (s : State) : Result :=
  done (s.when (s.pow.mainUp && decide (f.src ≠ nodeAddr s) && !isRepeat s .join f.subject f.term f.value) fun s =>
    let old := (viewOf s f.subject).term
    let mine := hasTwin s && f.src == twinAddr s && f.subject == f.src
    let s := adopt s f.subject f.term fun v => if mine then { v with byTwin := false } else v
    let s := onView s f.src fun v => { v with member := true }
    let s := floodAgain s .join f
    let s := s.when mine fun s => missedChange s old f.term
    s.when (hasTwin s && f.src == twinAddr s && s.led.replayed) fun s =>
      -- a home that joins again has taken its WITHDRAW back (log entry 96)
      let s := s.onFab fun b => { b with withdrawWait := none, twinEnd := f.value }
      let s := mirrorOpening s
      let s := sendTo s f.src (.leaseMirror s.led.epoch s.led.ceil)
      offerGroups (irqMain s 14) f.value)

/-- WITHDRAW_RX (R397): its term is adopted (R376), which may be one this twin had no part in (R865). -/
def execWithdrawRx (f : MFrame) (s : State) : Result :=
  done (s.when (s.pow.mainUp && decide (f.src ≠ nodeAddr s) && !isRepeat s .withdraw f.subject f.term f.value) fun s =>
    let old := (viewOf s f.subject).term
    let s := adopt s f.subject f.term id
    let s := s.when (hasTwin s && f.src == twinAddr s && f.subject == f.src && !(viewOf s f.src).byTwin) fun s => missedChange s old f.term
    let s := irqMain (floodAgain (onView s f.src fun v => { v with member := false }) .withdraw f) 14
    s.when (hasTwin s && f.src == twinAddr s && f.subject == f.src && !(viewOf s f.src).byTwin) fun s =>
      let s := tryWithdrawn (s.onFab fun b => { b with withdrawWait := some f.value })
      if s.fab.twinAuth then s else trySettle s)

/-- A decision sent to this witness (07 R390, R393): acknowledged when it is built on a grant that has not lapsed. -/
def ackDecision (s : State) (k : MKind) (f : MFrame) : State :=
  match tget none s.fab.grants f.subject with
  | some g =>
    if g.outstanding && g.querier == f.src && (g.exclude == (k == .exclude)) && decide (f.term = g.term + 1) then
      sendTo (s.onFab fun b => { b with grants := tput none b.grants f.subject (some { g with acked := true }) }) f.src
        (member s .decisionAck f.subject f.term (mkindCode k))
    else s
  | none => s

/-- TAKEOVER_RX (R376, R398). -/
def takeoverRx (f : MFrame) (s : State) : State :=
  (s.when (s.pow.mainUp && decide (f.src ≠ nodeAddr s)) fun s =>
    if !f.flood then ackDecision s .takeover f
    else if isRepeat s .takeover f.subject f.term f.value then s
    else
      let higher := isNews s f.subject f.term
      let me := f.subject == nodeAddr s
      let s := adopt s f.subject f.term fun v => { v with byTwin := true, member := me, twinMember := true }
      let s := s.when higher fun s => onView s f.src fun v => { v with twinMember := false }
      let s := floodAgain s .takeover f
      -- the value is the last group of this node's that its twin received (R374)
      if higher && me then yieldAuthority (s.onFab fun b => { b with twinHas := f.value }) else s)

/-- EXCLUDE_RX (R376, R865). -/
def execExcludeRx (f : MFrame) (s : State) : Result :=
  done (s.when (s.pow.mainUp && decide (f.src ≠ nodeAddr s)) fun s =>
    if !f.flood then ackDecision s .exclude f
    else if isRepeat s .exclude f.subject f.term f.value then s
    else
      let higher := isNews s f.subject f.term
      let s := adopt s f.subject f.term fun v => { v with byTwin := false, member := true, twinMember := false }
      let mine := hasTwin s && f.subject == twinAddr s
      let s := s.when higher fun s => onView s (twinOf f.subject) fun v => { v with member := mine, shadowOk := false }
      let s := floodAgain s .exclude f
      if higher && mine then
        let s := if s.fab.twinAuth then handedBack s f.term else s
        startCopy (s.onFab fun b => { b with collT := none, withdrawWait := none }) false
      else s)

/-- SHADOW_COMPLETE_RX (R400 step 4, 06 R312): the subject is the sender (log entry 13). -/
def execShadowCompleteRx (f : MFrame) (s : State) : Result :=
  done (s.when (s.pow.mainUp && decide (f.src ≠ nodeAddr s) && !isRepeat s .shadowComplete f.subject f.term f.value) fun s =>
    let s := adopt s f.subject f.term id
    let s := onView s f.src fun v => { v with member := true, shadowOk := true }
    let s := onView s (twinOf f.src) fun v => { v with twinMember := true }
    let s := floodAgain s .shadowComplete f
    s.when (hasTwin s && f.src == twinAddr s && decide (f.term = (viewOf s f.src).term)) fun s =>
      let s := mirrorOpening (s.onFab fun b => { b with twinShadowOk := true, twinMember := b.ownAuth || b.twinMember })
      irqMain (s.onLed fun l => { l with growTo := none }) 14)

/-- HANDBACK_OFFER_RX (R402 step 4): the home that holds every group up to the last takes its authority at the offered term. -/
def execHandbackOfferRx (f : MFrame) (s : State) : Result :=
  done (
    let me := nodeAddr s
    s.when (s.pow.mainUp && hasTwin s && f.src == twinAddr s && f.subject == me && decide (f.term > (viewOf s me).term) && !s.fab.ownAuth
        && !s.fab.rejoining && decide (s.led.ownEnd ≥ f.value)) fun s =>
      let s := recordTerm s me f.term
      let s := onView s me fun v => { v with term := f.term, byTwin := false, member := true, twinMember := true }
      let s := s.onFab fun b => { b with ownAuth := true, withdrawn := false, twinMember := true, twinShadowOk := true }
      -- the next lease lies above every ceiling known (R405)
      let s := (closeLease s).onLed fun l => { l with opening := none, reopen := none, nextGroup := max l.nextGroup (f.value + 1), growTo := none }
      let s := irqMain (cause s 4) 14
      let s := sendTo s f.src (member s .handbackAccept me f.term f.value)
      afterGain (trySettle (flood s .handbackAccept me f.term f.value)))

/-- HANDBACK_ACCEPT_RX (R402 step 5). -/
def execHandbackAcceptRx (f : MFrame) (s : State) : Result :=
  done (s.when (s.pow.mainUp && decide (f.src ≠ nodeAddr s) && !(f.flood && isRepeat s .handbackAccept f.subject f.term f.value)) fun s =>
    let ours := hasTwin s && f.src == twinAddr s && f.subject == f.src
    let s := if ours then s else adopt s f.subject f.term fun v => { v with byTwin := false, member := true }
    let s := floodAgain s .handbackAccept f
    match s.fab.offer with
    | some o => if ours && decide (f.term ≥ o.2.1) then handedBack s f.term else s
    | none => if ours then adopt s f.subject f.term fun v => { v with byTwin := false, member := true } else s)

/-- HANDBACK_OFFER_TIMEOUT (R403): a home still heard at the old term did not move; without a word from it, the holder waits. -/
def execHandbackOfferTimeout (s : State) : Result :=
  done (match s.fab.offer with
    | none => s
    | some o =>
      if s.fab.offerWait then s
      else if hears s o.1 ∧ (viewOf s o.1).term < o.2.1 then resumeHolder s
      else
        let s := s.onFab fun b => { b with offerWait := true }
        s.when (!hears s o.1 && s.fab.collT.isNone) (startCollect · false true))

/-! ### Roll confirmation (07 R869, 06 R341) -/

/-- ROLL_QUERY_RX (R869). -/
def execRollQueryRx (f : MFrame) (s : State) : Result :=
  done (s.when (s.pow.mainUp && hasTwin s && f.src == twinAddr s) fun s =>
    let e := f.value % 16
    let fine := decide (e = (s.led.epoch.toNat + 1) % 16) && s.time.mAnch && eventsPast s
    let s := s.when fine fun s => s.onFab fun b => { b with rollOk := some (BitVec.ofNat 4 e) }
    sendTo s f.src (member s (if fine then .rollConfirm else .rollRefuse) f.subject f.term e))

/-- The end of a roll query that came by the FAB window. -/
def endFab (s : State) (st : Status) : State := irqMain (s.onFab fun b => { b with busy := false, done := true, code := st }) 14

/-- ROLL_CONFIRM_RX (R341 check 7). -/
def execRollConfirmRx (f : MFrame) (s : State) : Result :=
  done (s.when (s.fab.rollAsk && hasTwin s && f.src == twinAddr s) fun s =>
    let s := s.onFab fun b => { b with rollAsk := false }
    if s.hq.ctlWait.kind = .roll then
      (if decide (f.value % 16 = s.hq.ctlWait.epoch.toNat) then startRoll s s.hq.ctlWait.epoch else s)
    else endFab s .done)

/-- ROLL_REFUSE_RX (R341 check 7). -/
def execRollRefuseRx (f : MFrame) (s : State) : Result :=
  done (s.when (s.fab.rollAsk && hasTwin s && f.src == twinAddr s) fun s =>
    let s := s.onFab fun b => { b with rollAsk := false }
    if s.hq.ctlWait.kind = .roll then endWait s .badFormat (detBlock 32) else endFab s .badFormat)

/-- ROLL_CONFIRM_LAPSE (R869). -/
def execRollConfirmLapse (s : State) : Result := done (s.onFab fun b => { b with rollOk := none })

/-! ### Time pulses (07 R406-R409) -/

/-- TIME_PULSE_TIMER (R406). -/
def execTimePulseTimer (s : State) : Result :=
  done ((allPorts.filter (linkUp s)).foldl (fun s p =>
    sendOn s p { src := nodeAddr s, dest := neighbour s p, body := .timePulse s.time.mUs s.time.mUnc s.time.mAnch }) s)

/-- TIME_PULSE_RX (R407): only an observation can follow; time never moves (R409). -/
def execTimePulseRx (p : Port) (_src time unc : Nat) (anchored : Bool) (s : State) : Result :=
  done (s.when (linkUp s p && anchored && s.time.mAnch) fun s =>
    let theirs := time + (portSt s p).delay / 1000
    let off := if theirs ≥ s.time.mUs then theirs - s.time.mUs else s.time.mUs - theirs
    s.when (decide (off > unc + s.time.mUnc + 2)) fun s =>
      observe (s.onFab fun b => { b with timeOffsets := b.timeOffsets + 1 }) 0x49 .active 0 0x0A)

end Sys2Proof.Machine
end

