-- ==== Sys2Proof/Machine/Link.lean ====
section
/-! DEFINITION. Pergola links (07 R350-R361, R413-R415): bring-up, keys, acknowledgement and resending, lanes, going DOWN. -/

namespace Sys2Proof.Machine

/-- Bytes of a port's name: ASCII, as in R348 (log entry 14). -/
def portName : Port → Bytes
  | .xp => ascii "X+" | .xm => ascii "X-" | .yp => ascii "Y+" | .ym => ascii "Y-" | .zp => ascii "Z+" | .zm => ascii "Z-"

/-- Variant codes of a HELLO block (log entry 14). -/
def variantCode : Variant → Nat
  | .slx4816 => 0 | .slx4812 => 1 | .slx4806 => 2

/-- A HELLO block as bytes, in the order R352 lists its parts (log entry 14). -/
def helloBytes (h : Hello) : Bytes :=
  leBytes 2 h.version.toNat ++ leBytes 1 (variantCode h.variant) ++ leBytes 8 h.unit.toNat ++ leBytes 2 h.addr ++ leBytes 1 h.extX
    ++ leBytes 1 h.extY ++ leBytes 1 h.extZ ++ portName h.port ++ fit 32 h.nonce ++ leBytes 4 h.delay

/-- This end's HELLO (07 R352). -/
def ownHello (s : State) (p : Port) : Hello :=
  { variant := s.pow.variant, unit := s.pow.unit, addr := nodeAddr s, extX := s.par.extX, extY := s.par.extY, extZ := s.par.extZ
    port := p, nonce := (portSt s p).nonce, delay := (portSt s p).delay }

/-- The two HELLOs, the lower address first; equal addresses cannot meet. -/
def helloPair (s : State) (p : Port) : Hello × Hello :=
  let a := ownHello s p
  let b := (portSt s p).peer
  if a.addr < b.addr then (a, b) else (b, a)

/-- The 96 bytes of link keys (07 R354); integers of a context are big-endian (10 R534). -/
def linkKeysOf (s : State) (p : Port) : Option Bytes :=
  let (a, b) := helloPair s p
  (fabricKey s).map fun k =>
    kdf k (ascii "SLX48-LINK") (beBytes 8 a.unit.toNat ++ fit 32 a.nonce ++ portName a.port ++ beBytes 8 b.unit.toNat ++ fit 32 b.nonce ++ portName b.port) 96

/-- The key of the direction from this node to the peer, or of the other one (07 R354). -/
def directionKey (s : State) (p : Port) (keys : Bytes) (out : Bool) : Bytes :=
  let lower := decide (nodeAddr s < (portSt s p).peer.addr)
  cut keys (if lower == out then 0 else 32) 32

/-- The MAC of a KEYX (07 R355): under the confirmation key over both HELLO blocks. -/
def keyxMac (s : State) (p : Port) : Bytes :=
  let (a, b) := helloPair s p
  bvBytes (Config.hmac384 (cut (portSt s p).linkKeys 64 32) (helloBytes a ++ helloBytes b))

/-- Steps 1 to 4 of R351: the training pattern; with both lanes locked, ALIGN blocks, whose echo measures the link delay, and this end's HELLO with
a nonce from the DRBG (R352). Lanes that do not lock leave the link TRAINING, without a HELLO. -/
def startTraining (s : State) (p : Port) (echo : Option Nat) : State :=
  if !portUsable s p || !s.pow.mainUp || !s.led.replayed || s.pow.safe || (portSt s p).link != .down then s
  else
    let s := sendBlock (onPort s p fun l => { l with
      link := .training, helloOk := false, nonce := [], linkKeys := [], txKey := [], rxKey := [], rxSwitch := none, lastRx := none
      rekeying := false, locked := echo.isSome, delay := echo.getD 0, txSeq := 0, rxSeq := 0, replay := [], waiting := [] }) p .training
    s.when (echo.isSome && rngServes s) fun s =>
      let s := drew (onPort s p fun l => { l with nonce := randBytes s 32 }) 32
      sendBlock (sendBlock s p .align) p (.hello (ownHello s p))

/-- LINK_TRAIN_START (R351). -/
def execLinkTrainStart (p : Port) (echo : Option Nat) (s : State) : Result := done (startTraining s p echo)

/-- TRAINING_PATTERN_DETECT (R353). -/
def execTrainingPatternDetect (p : Port) (echo : Option Nat) (s : State) : Result :=
  done (s.when ((portSt s p).link == .down) fun s => startTraining s p echo)

/-- LINK_RETRY_TIMER (R353). -/
def execLinkRetryTimer (p : Port) (echo : Option Nat) (s : State) : Result := done (startTraining s p echo)

/-- The checks of a HELLO (07 R352, 00 R6-R8). -/
def helloFine (s : State) (p : Port) (h : Hello) : Bool :=
  h.addr == neighbour s p && h.port == opposite p && h.extX == s.par.extX && h.extY == s.par.extY && h.extZ == s.par.extZ
    && ((h.variant == .slx4806) == (s.pow.variant == .slx4806))
    && !(hasTwin s && h.addr == twinAddr s && h.variant != s.pow.variant)

/-- HELLO_RX (R352), once this end has sent its own: a refused HELLO leaves the link DOWN with an observation of ACTIVE; an accepted one is answered
by KEYX, if there is a usable fabric key. -/
def execHelloRx (p : Port) (h : Hello) (s : State) : Result :=
  done (s.when ((portSt s p).link == .training && (portSt s p).locked && !(portSt s p).nonce.isEmpty && !(portSt s p).helloOk) fun s =>
    if !helloFine s p h then observe (linkDown s p) (portUnit p) .active 0 0x04
    else
      let s := onPort s p fun l => { l with peer := h, helloOk := true }
      match linkKeysOf s p with
      | none => s
      | some k =>
        let s := onPort s p fun l => { l with linkKeys := k, txKey := directionKey s p k true, rxKey := directionKey s p k false }
        sendBlock s p (.keyx (keyxMac s p) [] 0))

/-- A reception that failed: NAK carries the link_seq expected; the third GCM failure with a good CRC within one second takes the link DOWN
(07 R358, R360). -/
def rxFail (s : State) (p : Port) (what : RxFault) : State :=
  let s := sendBlock s p (.nak ((portSt s p).rxSeq % 2 ^ 32))
  match what with
  | .gcm =>
    let s := onPort s p fun l => let l := freshPort s.time.clk l; { l with gcmFails := l.gcmFails ++ [s.time.clk] }
    s.when (decide ((portSt s p).gcmFails.length ≥ 3)) (linkDown · p)
  | _ => s

/-- The direction from the peer takes its new key once the frames before the count that its KEYX named have come in order (07 R357). -/
def rxTurn (s : State) (p : Port) : State :=
  match (portSt s p).rxSwitch with
  | none => s
  | some (n, k) => s.when (decide (n ≤ (portSt s p).rxSeq)) fun s => onPort s p fun l => { l with rxKey := k, rxSeq := 0, rxSwitch := none }

/-- A frame came in order: it is counted and acknowledged from now on (07 R356, R358). -/
def tookFrame (s : State) (p : Port) (seq : Nat) : State :=
  rxTurn (onPort s p fun l => { l with rxSeq := l.rxSeq + 1, lastRx := some seq }) p

/-- Both nonces of a re-key are known (07 R357): new keys under R354; this direction switches at the count this end named, which is where it stopped,
and frames that waited follow under the new key. Without a usable fabric key the link goes DOWN (log entry 123). -/
def finishRekey (s : State) (p : Port) (nonce : Bytes) (switchAt : Nat) : State :=
  let s := onPort s p fun l => { l with nonce := l.nextNonce, nextNonce := [], peer := { l.peer with nonce := fit 32 nonce } }
  match linkKeysOf s p with
  | none => linkDown s p
  | some k =>
    let tx := directionKey s p k true
    let rx := directionKey s p k false
    let s := onPort s p fun l => { l with linkKeys := k, txKey := tx, txSeq := 0, rxSwitch := some (switchAt, rx), rekeying := false, rekeys := l.rekeys + 1 }
    flushPort (rxTurn s p) p

/-- This end's part of a re-key (07 R357): KEYX with a fresh nonce and the count at which this direction switches; frames wait from there on. -/
def sendRekey (s : State) (p : Port) : State :=
  let fresh := randBytes s 32
  let s := sendBlock (drew s 32) p (.keyx (keyxMac s p) fresh (portSt s p).txSeq)
  onPort s p fun l => { l with nextNonce := fresh, rekeying := true }

/-- KEYX_RX (R355, R357): a confirmed KEYX brings the link UP, with its first HEARTBEAT and TIME_PULSE; on an UP link it re-keys, and an end that has
not sent its own KEYX yet answers first. -/
def execKeyxRx (p : Port) (mac nonce : Bytes) (switchAt : Nat) (s : State) : Result :=
  done (
    let l := portSt s p
    if l.linkKeys.isEmpty || !l.helloOk then s
    else if mac ≠ keyxMac s p then
      let s := onPort s p fun l => { l with keyxFails := l.keyxFails + 1 }
      if l.link = .training then linkDown s p else s
    else if l.link = .training then
      let s := irqMain (onPort s p fun l => { l with link := .up }) 14
      let me := nodeAddr s
      let s := s.when (isMember s me && !s.fab.withdrawn) fun s => sendOn s p { src := me, dest := neighbour s p, body := heartbeat s }
      let s := sendOn s p { src := me, dest := neighbour s p, body := .timePulse s.time.mUs s.time.mUnc s.time.mAnch }
      beginJoin s p
    else if l.link = .up ∧ nonce ≠ [] then
      if l.rekeying then finishRekey s p nonce switchAt
      else if rngServes s then finishRekey (sendRekey s p) p nonce switchAt
      else linkDown s p
    else s)

/-- LINK_REKEY (R357). -/
def execLinkRekey (p : Port) (s : State) : Result :=
  done (s.when (linkUp s p && !(portSt s p).rekeying && rngServes s) (sendRekey · p))

/-- LINK_TRAIN_TIMEOUT (R353). -/
def execLinkTrainTimeout (p : Port) (s : State) : Result := done (s.when ((portSt s p).link == .training) (linkDown · p))

/-- ACK_TIMER (R358). -/
def execAckTimer (p : Port) (s : State) : Result :=
  done (if linkUp s p then (match (portSt s p).lastRx with | none => s | some n => sendBlock s p (.ack n)) else s)

/-- The replay buffer from the first frame with a link_seq on; nothing where no frame has it. -/
def fromSeq (linkSeq : Nat) : List Sent → List Sent
  | [] => []
  | x :: t => if x.seq % 2 ^ 32 = linkSeq % 2 ^ 32 then x :: t else fromSeq linkSeq t

/-- ACK_RX (R358): the replay buffer lets go of the frames up to the named one, and waiting frames find room. -/
def execAckRx (p : Port) (linkSeq : Nat) (s : State) : Result :=
  done (s.when (linkUp s p && !(fromSeq linkSeq (portSt s p).replay).isEmpty) fun s =>
    flushPort (onPort s p fun l => { l with replay := (fromSeq linkSeq l.replay).drop 1 }) p)

/-- NAK_RX (R359, R360, R415): the frames from the named one go out again, in order; a frame resent for the eighth time without acknowledgement takes
the link DOWN. -/
def execNakRx (p : Port) (linkSeq : Nat) (s : State) : Result :=
  done (s.when (linkUp s p && !(fromSeq linkSeq (portSt s p).replay).isEmpty) fun s =>
    let again := fromSeq linkSeq (portSt s p).replay
    let s := sendAgain s p again
    let s := onPort s p fun l =>
      let l := freshPort s.time.clk l
      { l with replay := l.replay.take (l.replay.length - again.length) ++ again.map fun x => { x with resends := x.resends + 1 }
               traffic := l.traffic ++ [(s.time.clk, 0, again.length)] }
    let l := portSt s p
    let s := s.when (resendsTooOften s.time.clk l) fun s => observe s (portUnit p) .retired 0 0x03
    s.when (l.replay.any fun x => decide (x.resends ≥ 8)) (linkDown · p))

/-- LINK_ACK_TIMEOUT (R360); suspended during a retrain (R414). -/
def execLinkAckTimeout (p : Port) (s : State) : Result := done (s.when (linkUp s p && !(portSt s p).retraining) (linkDown · p))

/-- FRAME_CRC_GCM_FAILURE (R358, R360). -/
def execFrameCrcGcmFailure (p : Port) (what : RxFault) (s : State) : Result := done (s.when (linkUp s p) (rxFail · p what))

/-- DEGRADE_RX (R414). -/
def execDegradeRx (p : Port) (lane : BitVec 1) (s : State) : Result :=
  done (s.when (linkUp s p) fun s => onPort s p fun l => { l with retraining := true, lanesRetired := l.lanesRetired ||| (if lane = 0 then 1 else 2) })

/-- LANE_RETRAIN_DONE (R414): both ends resume from their replay buffers; frames that waited follow. -/
def execLaneRetrainDone (p : Port) (s : State) : Result :=
  done (s.when (linkUp s p && (portSt s p).retraining) fun s =>
    let s := onPort s p fun l => { l with retraining := false }
    flushPort (sendAgain s p (portSt s p).replay) p)

/-- LANE_RETRAIN_TIMEOUT (R414). -/
def execLaneRetrainTimeout (p : Port) (s : State) : Result := done (s.when (linkUp s p && (portSt s p).retraining) (linkDown · p))

/-- DOWN_RX (R413). -/
def execDownRx (p : Port) (s : State) : Result := done (s.when ((portSt s p).link != .down) (linkDown · p))

end Sys2Proof.Machine
end

