-- ==== Sys2Proof/Machine/RecTime.lean ====
section
/-! DEFINITION. The REC and TIME windows (09 R490, 12 R665-R668, R696), transactions (12 R662-R664), sectors (12 R648, R677), and the time
mirror (12 R692). -/

namespace Sys2Proof.Machine

/-! ### The REC window -/

/-- A command ends: status, done, and REC_DONE (R665). -/
def recEnd (s : State) (st : Status) : State :=
  irqAll (s.onStore fun r => { r with busy := false, done := true, deferred := false, code := st, cmd := 0 }) 18

/-- A command begins. -/
def recBusy (s : State) (c : CoreId) (cmd : Nat) : State :=
  s.onStore fun r => { r with busy := true, done := false, deferred := false, core := c, cmd := BitVec.ofNat 32 cmd }

/-- May a core append a type to a partition (R668)? -/
def mayAppend (c : CoreId) (part : BitVec 2) (typ : BitVec 16) : Bool :=
  match c with
  | .g => part == 2
  | _ => part == 1 || (part == 3 && [0x0304, 0x0305, 0x0306].contains typ.toNat)

/-- VEIL may only be cleared from the window (R668). -/
def veilClear (typ : BitVec 16) (b : Bytes) : Bool := typ != 0x0306 || zeroAt b 0 1

/-- Put the running command's append into the queue; a deferred one raises REC_DONE (R658). -/
def recQueue (s : State) (c : CoreId) (r : Record) : State :=
  let s := enqueue s { src := .serge c, record := r, win := true }
  if appendOk s then s else irqAll (s.onStore fun x => { x with deferred := true }) 18

/-- The open transaction of a core, when it is in this partition and wants another part. -/
def openTxn (s : State) (c : CoreId) (part : BitVec 2) : Option Txn :=
  match tget none s.store.txns (coreIdx c) with
  | some t => if t.part = part ∧ t.queued < t.n then some t else none
  | none => none

/-- APPEND (R657, R667): a part of the core's open transaction carries its number and the next index (R662). -/
def recAppend (s : State) (c : CoreId) : State :=
  let x := s.store
  let s := recBusy s c 1
  if !x.ready then recEnd s .internalFault
  else if x.len.toNat > 4000 then recEnd s .badLength
  else if x.part = 0 ∨ !typeIn x.part x.typ then recEnd s .badFormat
  else match readStr s c x.addr.toNat x.len.toNat with
    | none => recEnd s .badFormat
    | some b =>
      if !mayAppend c x.part x.typ || !veilClear x.typ b then recEnd s .keyDenied
      else
        let r : Record := { part := x.part, typ := x.typ, id := x.id.toNat, payload := b }
        match openTxn s c x.part with
        | some t =>
          recQueue (s.onStore fun y => { y with txns := tput none y.txns (coreIdx c) (some { t with queued := t.queued + 1 }) }) c
            { r with txn := t.txn, idx := t.queued }
        | none => recQueue s c r

/-- READ (R666, R667): the outcome follows with REC_READ_DONE. -/
def recRead (s : State) (c : CoreId) : State :=
  let s := recBusy s c 2
  if !s.store.ready then recEnd s .internalFault
  else if s.store.part = 0 ∨ !typeIn s.store.part s.store.typ then recEnd s .badFormat
  else s

/-- REC_READ_DONE (R666): header and payload are written; of a key slot only the header (R667, 01 R37). -/
def execRecReadDone (s : State) : Result :=
  done (s.when (s.store.busy && s.store.cmd == 2) fun s =>
    let x := s.store
    match latest s x.part x.typ x.id.toNat with
    | none => recEnd (s.onStore fun y => { y with len := 0xFFFFFFFF }) .done
    | some r =>
      let s := s.onStore fun y => { y with len := BitVec.ofNat 32 r.payload.length }
      if idSpace r.typ = 0x0101 then recEnd (writeStr s x.core x.addr.toNat (recHeader r)) .keyDenied
      else recEnd (writeStr (writeStr s x.core x.addr.toNat (recHeader r)) x.core (x.addr.toNat + 4) r.payload) .done)

/-- BEGIN_TX (R662): an INTENT for `parts + 1` parts; each source holds at most one open transaction. -/
def recBegin (s : State) (c : CoreId) (parts : Nat) : State :=
  let x := s.store
  let s := recBusy s c 3
  if !x.ready then recEnd s .internalFault
  else if x.part = 0 ∨ parts < 1 ∨ (tget none x.txns (coreIdx c)).isSome then recEnd s .badFormat
  else if (c = .g ∧ x.part ≠ 2) ∨ (c ≠ .g ∧ x.part = 2) then recEnd s .keyDenied
  else
    let n := x.nextTxn
    recQueue (openTx s (.serge c) x.part (parts + 1)) c
      { part := x.part, typ := 0x0001, id := n, txn := n, payload := intentPayload (parts + 1) (.serge c) }

/-- Roll a source's open transaction back: its committed parts and INTENT are made dead, its queued parts leave the queue (R664). -/
def rollBack (s : State) (key : Nat) : State :=
  match tget none s.store.txns key with
  | some t => (killRecs s fun r => r.part == t.part && r.txn == t.txn && r.inTxn).onStore fun y => { y with
      txns := tput none y.txns key none
      queue := y.queue.filter fun a => !(a.record.part == t.part && a.record.txn == t.txn)
      busy := y.busy && !y.queue.any fun a => a.win && a.record.part == t.part && a.record.txn == t.txn }
  | none => s

/-- ABORT_TX (R664). -/
def recAbort (s : State) (c : CoreId) : State :=
  let s := recBusy s c 4
  if !s.store.ready then recEnd s .internalFault
  else if (tget none s.store.txns (coreIdx c)).isNone then recEnd s .badFormat
  else recEnd (rollBack s (coreIdx c)) .done

/-- HOT_WRITE and HOT_READ move 1 to 64 slots of 512 (R665). -/
def hotRange (s : State) : Option Status :=
  let n := s.store.len.toNat
  if n < 1 ∨ n > 64 then some .badLength else if s.store.id.toNat + n > 512 then some .badFormat else none

/-- HOT_WRITE (R666, R667, R679): PAUSED while a save is pending; slots from 384 up end BAD_FORMAT, another's slots KEY_DENIED (log entry 23). -/
def recHotWrite (s : State) (c : CoreId) : State :=
  let x := s.store
  let s := recBusy s c 5
  let a := x.id.toNat
  let n := x.len.toNat
  if !x.ready then recEnd s .internalFault
  else match hotRange s with
    | some e => recEnd s e
    | none =>
      let own := (List.range n).map fun i => hotOwner (a + i)
      if x.saving then recEnd s .paused
      else if own.any (· == 3) then recEnd s .badFormat
      else if own.any (· ≠ if c = .g then 2 else 1) then recEnd s .keyDenied
      else match readStr s c x.addr.toNat (8 * n) with
        | none => recEnd s .badFormat
        | some b => recEnd ((List.range n).foldl (fun s i => hotPut s (a + i) (BitVec.ofNat 64 (leAt b (8 * i) 8))) s) .done

/-- HOT_READ (R666, R679): the slots from 384 up read 0. -/
def recHotRead (s : State) (c : CoreId) : State :=
  let x := s.store
  let s := recBusy s c 6
  if !x.ready then recEnd s .internalFault
  else match hotRange s with
    | some e => recEnd s e
    | none =>
      let b := (List.range x.len.toNat).flatMap fun i => leBytes 8 (if x.id.toNat + i < 384 then (hotGet s (x.id.toNat + i)).toNat else 0)
      recEnd (writeStr s c x.addr.toNat b) .done

/-- REC_CMD (R665): undefined commands and reserved bits end with BAD_FORMAT; a write while a command runs is ignored (log entry 21). -/
def recCmd (s : State) (c : CoreId) (v : BitVec 32) : State :=
  let parts := (v.extractLsb' 8 4).toNat
  let op := (v.extractLsb' 0 4).toNat
  if s.store.busy then s
  else if v.extractLsb' 4 4 ≠ 0 ∨ v.extractLsb' 12 20 ≠ 0 ∨ (op ≠ 3 ∧ parts ≠ 0) then recEnd (recBusy s c 0) .badFormat
  else match op with
    | 1 => recAppend s c
    | 2 => recRead s c
    | 3 => recBegin s c parts
    | 4 => recAbort s c
    | 5 => recHotWrite s c
    | 6 => recHotRead s c
    | _ => recEnd (recBusy s c 0) .badFormat

/-- REC_APPEND (R657). -/
def execRecAppend (c : CoreId) (s : State) : Result := done (winCmd s c 0xA400 true (recCmd · c 1))
/-- REC_READ (R666). -/
def execRecRead (c : CoreId) (s : State) : Result := done (winCmd s c 0xA400 true (recCmd · c 2))
/-- REC_BEGIN_TX (R662). -/
def execRecBeginTx (c : CoreId) (parts : BitVec 4) (s : State) : Result :=
  done (winCmd s c 0xA400 true (recCmd · c (3 + 256 * parts.zeroExtend 32)))
/-- REC_ABORT_TX (R664). -/
def execRecAbortTx (c : CoreId) (s : State) : Result := done (winCmd s c 0xA400 true (recCmd · c 4))
/-- REC_HOT_WRITE (R681). -/
def execRecHotWrite (c : CoreId) (s : State) : Result := done (winCmd s c 0xA400 true (recCmd · c 5))
/-- REC_HOT_READ (R666). -/
def execRecHotRead (c : CoreId) (s : State) : Result := done (winCmd s c 0xA400 true (recCmd · c 6))

/-! ### Sectors -/

/-- SECTOR_ERASE_DONE (R648, R675). -/
def execSectorEraseDone (sector : Nat) (s : State) : Result :=
  done (s.when (s.pow.standby && (sectorOf s sector).erasing) fun s => eraseSector s sector)

/-- A sector of the three partitions, the save area left aside. -/
def inParts (n : Nat) : Bool := decide (n < 1024 ∧ n ≠ 896 ∧ n ≠ 897)

/-- SECTOR_REFRESH (R677): erased more than ten years ago, or holding a record read with two corrections in a group. -/
def execSectorRefresh (sector : Nat) (s : State) : Result :=
  done (
    let x := sectorOf s sector
    s.when (s.store.ready && inParts sector && !x.erased && !x.erasing
        && (decide (s.time.us - x.erasedAt > 315576000000000) || s.store.recs.any fun r => r.sector == sector && decide (r.worst ≥ 2)))
      (releaseSector · sector))

/-! ### Time -/

/-- TIME_CMD (R696): the voucher at TIME_VOUCHER_ADDR is checked and, when it passes, accepted; an undefined value ends with BAD_FORMAT. -/
def timeCmd (s : State) (c : CoreId) (v : Nat) : State :=
  if s.time.busy then s
  else
    let finish := fun (s : State) (e : Status) => s.onTime fun t => { t with busy := true, done := false, code := e }
    let n := s.time.vLen.toNat
    if v ≠ 1 then finish s .badFormat
    else if n ≠ 96 then finish s .badLength
    else match readStr s c s.time.vAddr.toNat n with
      | none => finish s .badFormat
      | some b => match checkVoucher s c false b with
        | some e => finish s e.1
        | none => finish (acceptVoucher s b) .done

/-- TIME_VOUCHER_SUBMIT (R696). -/
def execTimeVoucherSubmit (c : CoreId) (s : State) : Result := done (winCmd s c 0xA006 true (timeCmd · c 1))

/-- TIME_COMMAND_END (R696). -/
def execTimeCommandEnd (s : State) : Result :=
  done (s.when s.time.busy fun s => irqAll (s.onTime fun t => { t with busy := false, done := true }) 17)

/-- TIME_MIRROR_UPDATE (R692): every 1 ms, which also begins the next window of the Gatehouse link's authentication failures (13 R702). -/
def execTimeMirrorUpdate (s : State) : Result :=
  done ((s.when (s.pow.mainUp && s.pow.linkUp) mirrorTime).onPow fun p => { p with linkBadMs := 0 })

/-- Device time as a core reads it: cores A and B from the main die's mirror (R692), core G on its own die. -/
def timeOf (s : State) (c : CoreId) : Nat := if c = .g then s.time.us else s.time.mUs

/-- A read of TIME_NOW_LO latches TIME_NOW_HI (09 R490). -/
def timeNowLow (s : State) (c : CoreId) : W36 × State :=
  let t := timeOf s c
  let hi := BitVec.ofNat 32 (t / 2 ^ 32)
  (intW (BitVec.ofNat 32 t), s.onTime fun x => match c with
    | .a => { x with latchA := hi }
    | .b => { x with latchB := hi }
    | .g => { x with latchG := hi })

end Sys2Proof.Machine
end

