-- ==== Sys2Proof/Machine/Windows.lean ====
section
/-! DEFINITION. Commands of the engine windows (09 R485-R497): DIG, RNG, LED, LANE, HQ, HBM, FAB, NVME and MBX. -/

namespace Sys2Proof.Machine

/-! ### Digest and random windows (11 R594-R604, R640-R643) -/

/-- DIG_START (R594). -/
def execDigStart (c : CoreId) (value : BitVec 32) (s : State) : Result := done (winCmd s c 0x8400 false (digBegin · c value))
/-- DIG_UPDATE (R593). -/
def execDigUpdate (c : CoreId) (s : State) : Result := done (winCmd s c 0x8405 false (digAbsorb · c))
/-- DIG_FINISH (R601). -/
def execDigFinish (c : CoreId) (value : BitVec 32) (s : State) : Result := done (winCmd s c 0x8406 false (digClose · c value))
/-- DIG_ABORT (R597). -/
def execDigAbort (c : CoreId) (s : State) : Result := done (winCmd s c 0x8407 false (digAbandon · c))
/-- RNG_GENERATE (R640). -/
def execRngGenerate (c : CoreId) (s : State) : Result := done (winCmd s c 0x8800 false (rngCmd · c 1))
/-- RNG_GENERATE_FRESH (R643). -/
def execRngGenerateFresh (c : CoreId) (s : State) : Result := done (winCmd s c 0x8800 false (rngCmd · c 2))
/-- RNG_SELECT (R628). -/
def execRngSelect (c : CoreId) (value : BitVec 32) (s : State) : Result := done (winCmd s c 0x8804 true (rngSelect · value))
/-- RNG_TEST (R627). -/
def execRngTest (c : CoreId) (value : BitVec 32) (s : State) : Result := done (winCmd s c 0x8805 true (rngTest · value))

/-- NOISE_RETEST_TIMER (R627): base firmware moves a source that has been FAILED for 10 s into TESTING and starts its start-up test; one that
failed again within 24 hours of a return is left. -/
def execNoiseRetestTimer (source : Nat) (s : State) : Result :=
  done (s.when (decide (source < 4) && coreUp s s.unit.active && unitSt s (sourceUnit source) == .failed && !tget false s.rng.blocked source) fun s =>
    rngTest (changeUnit s (sourceUnit source) .testing 0 (unitEnt s (sourceUnit source)).reason) (BitVec.ofNat 32 source))

/-! ### Ledger window (09 R487, R489) -/

/-- Is the ledger window's command register taken: by its own command, or by the request whose operation waits? -/
def ledTaken (s : State) : Bool := s.led.ledBusy || s.hq.ctlWait.kind != .none

/-- A command starts. -/
def ledStart (s : State) : State := s.onLed fun l => { l with ledBusy := true, ledDone := false, ledEarly := false, ledCode := .done }

/-- The status its end will show. -/
def ledFail (s : State) (e : Status) : State := s.onLed fun l => { l with ledCode := e }

/-- The serials of LED_ARG_0..3. -/
def ledSerial (s : State) (i : Nat) : Nat := (tget 0 s.led.ledArgs (2 * i)).toNat + (tget 0 s.led.ledArgs (2 * i + 1)).toNat % 2 ^ 24 * 2 ^ 32

/-- LED_CMD ROLL (06 R342): the epoch must be the next, and the node must hold its own authority alone (06 R341 check 1). -/
def ledRoll (s : State) : State :=
  let e := (tget 0 s.led.ledArgs 0).toNat
  if e ≠ (s.led.epoch.toNat + 1) % 16 ∨ s.fab.twinAuth ∨ !s.fab.ownAuth then ledFail s .badFormat
  else startRoll (setWait s { kind := .roll, home := nodeAddr s, epoch := BitVec.ofNat 4 e, viaLed := true }) (BitVec.ofNat 4 e)

/-- LED_CMD (R487, R489): a command written while one runs is ignored, an undefined one ends BAD_FORMAT (log entry 21). -/
def ledCmd (s : State) (v : Nat) : State :=
  if ledTaken s then s
  else
    let s := ledStart s
    match v with
    | 1 => (match checkQuery s (ledSerial s 0) with | some e => ledFail s e.1 | none => startQuery s (ledSerial s 0) true)
    | 2 => (match startVoid s (ledSerial s 0) (ledSerial s 1) true with | .error e => ledFail s e.1 | .ok t => t)
    | 3 => ledRoll s
    | 4 => startCheckpoint (s.onLed fun l => { l with ledCkpt := true })
    | _ => ledFail s .badFormat

/-- LED_QUERY (06 R318). -/
def execLedQuery (c : CoreId) (s : State) : Result := done (winCmd s c 0x8C00 true (ledCmd · 1))
/-- LED_VOID (06 R320). -/
def execLedVoid (c : CoreId) (s : State) : Result := done (winCmd s c 0x8C00 true (ledCmd · 2))
/-- LED_ROLL (06 R342). -/
def execLedRoll (c : CoreId) (s : State) : Result := done (winCmd s c 0x8C00 true (ledCmd · 3))
/-- LED_CHECKPOINT (06 R324). -/
def execLedCheckpoint (c : CoreId) (s : State) : Result := done (winCmd s c 0x8C00 true (ledCmd · 4))

/-- LED_COMMAND_END (R489): a void that stood unapplied is tried again; a command that waits for nothing more ends with its status. -/
def execLedCommandEnd (s : State) : Result :=
  done (
    let w := s.hq.ctlWait
    if !s.led.ledBusy then s
    else if w.kind = .none then
      if s.led.ledCkpt then s
      else irqMain (s.onLed fun l => { l with ledBusy := false, ledDone := true }) 13
    else if w.kind = .void ∧ w.unapplied ∧ w.viaLed then
      applyVoid s w.home (serialLocal (ledSerial s 0)) (serialLocal (ledSerial s 1)) true
    else if w.viaLed then resumeRoll (releaseCtl s)
    else s)

/-! ### Lane registers (09 R487) -/

/-- A change to a lane's registers. -/
def onLaneSt (s : State) (l : Nat) (f : LaneSt → LaneSt) : State := s.onLane fun b => { b with lanes := tupd {} b.lanes l f }

/-- A write to LANE_SELFTEST is ignored unless the lane is TESTING. -/
def laneTest (s : State) (l : Nat) : State :=
  s.when (decide (l < 16) && unitSt s l == .testing) fun s => onLaneSt s l fun x => { x with testing := true, result := 0 }

def laneBase (l : Nat) : Nat := 0x9000 + 0x40 * (l % 16)

/-- LANE_SELFTEST (R487). -/
def execLaneSelftest (c : CoreId) (lane : Nat) (s : State) : Result := done (winCmd s c (laneBase lane + 2) true (laneTest · (lane % 16)))

/-- LANE_SELFTEST_DONE (R487, R498): a pass posts TEST_PASSED, a failure FAILED with SELF_CHECK and the syndrome. -/
def execLaneSelftestDone (lane : Nat) (pass : Bool) (syndrome : BitVec 32) (s : State) : Result :=
  done (s.when (decide (lane < 16) && (tget {} s.lane.lanes lane).testing) fun s =>
    let s := onLaneSt s lane fun x => { x with testing := false, result := if pass then 1 else 2, fault := if pass then x.fault else syndrome }
    if pass then observe s lane .active 0 0x11 else observe s lane .failed 0 0x01)

/-- LANE_PURGE (04 R190). -/
def execLanePurge (c : CoreId) (lane : Nat) (s : State) : Result := done (winCmd s c (laneBase lane + 4) true (purgeLane · (lane % 16)))

/-! ### Host queue window (09 R487) -/

/-- HQ_CTL_FETCH: the next CONTROL entry is fetched and placed at HQ_CTL_ADDR, 32 words. -/
def ctlFetch (s : State) (c : CoreId) (entry : Bytes) : State :=
  let t := fetchCtl s entry
  if t.hq.ctlFetched = s.hq.ctlFetched then s else writeStr t c t.hq.ctlAddr.toNat (fit 128 entry)

def execHqCtlFetch (c : CoreId) (entry : Bytes) (s : State) : Result := done (winCmd s c 0x9802 true (ctlFetch · c entry))

/-- HQ_CTL_COMPLETE: the eight words at HQ_COMP_ADDR are written as the completion of the entry in flight, with the ring's own phase and service
time (03 R147, R149, R150). Words that are neither INT nor BITS complete nothing (log entry 25). With `hook`, owner code learns of it (09 R520); a core's
own ST calls no hook by itself (log entry 125). -/
def ctlComplete (s : State) (c : CoreId) (hook : Bool) : State :=
  match s.hq.ctlFetched, readStr s c s.hq.compAddr.toNat 32 with
  | some e, some b =>
    let s := s.onHq fun h => { h with ctlFetched := none, ctlHeld := false, ctlWait := if h.ctlWait.viaLed then h.ctlWait else {} }
    let s := complete s 0 e.dropped e.fetched
      { tag := BitVec.ofNat 16 (leAt b 0 2), head := leAt b 2 2, status := statusOf (leAt b 5 1), verdict := BitVec.ofNat 8 (leAt b 6 1)
        info := BitVec.ofNat 8 (leAt b 7 1), serial := BitVec.ofNat 64 (leAt b 8 8), detail := BitVec.ofNat 16 (leAt b 16 2)
        decider := BitVec.ofNat 16 (leAt b 18 2), length := BitVec.ofNat 32 (leAt b 24 4) } []
    s.when hook fun s => hookAfter s (leAt e.bytes 2 1) (statusOf (leAt b 5 1))
  | _, _ => s

def execHqCtlComplete (c : CoreId) (s : State) : Result := done (winCmd s c 0x9804 true (ctlComplete · c true))

/-- A DMA of the control core starts: HQ_DMA_LEN is at most 8,192 (R487); a longer one ends in error (log entry 25). -/
def dmaStart (s : State) (toHost : Bool) : State :=
  s.onHq fun h => { h with dmaBusy := true, dmaDone := false, dmaError := decide (h.dmaLen.toNat > 8192), dmaToHost := toHost }

/-- Host bytes to data RAM. -/
def dmaIn (s : State) (c : CoreId) (b : Bytes) : State :=
  if s.hq.dmaBusy then s
  else
    let t := dmaStart s false
    if t.hq.dmaError then t else writeStr t c t.hq.dmaLocal.toNat (fit t.hq.dmaLen.toNat b)

/-- Data RAM bytes to the host: words that are neither INT nor BITS end it in error (R477). -/
def dmaOut (s : State) (c : CoreId) : State :=
  if s.hq.dmaBusy then s
  else
    let t := dmaStart s true
    if t.hq.dmaError then t
    else match readStr t c t.hq.dmaLocal.toNat t.hq.dmaLen.toNat with
      | some b => t.onOut fun o => { o with writes := o.writes ++ [{ addr := t.hq.dmaHost.toNat, bytes := b }] }
      | none => t.onHq fun h => { h with dmaError := true }

/-- HQ_DMA_HOST_TO_LOCAL (R487). -/
def execHqDmaHostToLocal (c : CoreId) (bytes : Bytes) (s : State) : Result := done (winCmd s c 0x9809 true (dmaIn · c bytes))
/-- HQ_DMA_LOCAL_TO_HOST (R487). -/
def execHqDmaLocalToHost (c : CoreId) (s : State) : Result := done (winCmd s c 0x9809 true (dmaOut · c))
/-- HQ_DMA_DONE (R487). -/
def execHqDmaDone (ok : Bool) (s : State) : Result :=
  done (s.when s.hq.dmaBusy fun s => s.onHq fun h => { h with dmaBusy := false, dmaDone := ok && !h.dmaError, dmaError := h.dmaError || !ok })

/-- HQ_PLANE pause: the data plane pauses while it is open. -/
def planePause (s : State) : State := s.when (planeOpen s) pausePlane

/-- HQ_PLANE_PAUSE (R487). -/
def execHqPlanePause (c : CoreId) (s : State) : Result := done (winCmd s c 0x9810 true planePause)

/-- HQ_BIND (03 R145): rings 1 to 31; [15:5] name nothing. -/
def hqBind (s : State) (v : BitVec 32) : State :=
  s.when (decide ((v.extractLsb' 0 5).toNat ≠ 0)) fun s => bindRing s (v.extractLsb' 0 5).toNat (v.extractLsb' 16 16)

def execHqBind (c : CoreId) (value : BitVec 32) (s : State) : Result := done (winCmd s c 0x9811 true (hqBind · value))

/-! ### Publishing event records (09 R487, R488) -/

/-- HBM_PUBLISH: the directory entry in HBM_PUB_EVENT and HBM_PUB_PTR starts to be published; one written while a publish runs is ignored. -/
def hbmPublish (s : State) : State :=
  s.when (!s.hbm.pubBusy) fun s => s.onHbm fun h => { h with
    pubBusy := true, pubDone := false, pubWait := eventReaders s, pubRun := some (h.pubEvent.toNat, h.pubPtr.toNat) }

def execHbmPublish (c : CoreId) (s : State) : Result := done (winCmd s c 0xB403 true hbmPublish)

/-- The publish of the window ends: every request that stood in an event-reading stage at the start has left that stage. -/
def pubEnd (s : State) : State :=
  match s.hbm.pubRun with
  | some (i, p) =>
    let now := eventReaders s
    if s.hbm.pubWait.any now.contains then s
    else
      irqMain (s.onHbm fun h => { h with
        pubBusy := false, pubDone := true, pubWait := [], pubRun := none
        dir := tput 0 h.dir i (if p = 0xFFFFFFFF then 0 else p + 1) }) 16
  | none => s

/-- HBM_PUBLISH_END (R488): publishes end, that of the window and those of DEFINE_EVENT and CLOSE_EVENT. -/
def execHbmPublishEnd (s : State) : Result := done (endPublishes (pubEnd s))

/-! ### Fabric window (09 R490) -/

/-- Is a fabric command running? -/
def fabTaken (s : State) : Bool := s.fab.busy || s.hq.ctlWait.kind == .handBack || s.hq.ctlWait.kind == .roll

def fabStart (s : State) : State := s.onFab fun b => { b with busy := true, done := false, code := .done }

/-- KEY_REQUEST (07 R412): made only in ENROLLED, OPERATIONAL or VEILED, and by a node with a twin (10 R587). -/
def fabKeyRequest (s : State) : State :=
  let lc := lifecycle s
  if !hasTwin s || s.fab.keyReq.isSome then fabCode s .homeUnreachable
  else if lc = 2 ∨ lc = 3 ∨ lc = 4 then askKey s (s.fab.arg0.toNat % 1024) 0
  else fabCode s .keyDenied

/-- ROLL_QUERY (06 R341 check 7): the twin is asked to confirm the next epoch. -/
def fabRollQuery (s : State) : State :=
  if !hasTwin s || !s.fab.twinMember then fabCode s .homeUnreachable
  else sendTo (s.onFab fun b => { b with rollAsk := true }) (twinAddr s)
    (member s .rollQuery (nodeAddr s) (viewOf s (nodeAddr s)).term ((s.led.epoch.toNat + 1) % 16))

/-- FAB_CMD: a command written while one runs is ignored, an undefined one ends BAD_FORMAT (log entry 21). -/
def fabCmd (s : State) (v : Nat) : State :=
  if fabTaken s then s
  else
    let s := fabStart s
    match v with
    | 1 => (match checkHandBack s (s.fab.arg0.toNat % 4096) s.fab.arg1.toNat with
        | some e => fabCode s e.1
        | none => startHandBack s (s.fab.arg0.toNat % 4096) true)
    | 2 => withdraw s
    | 3 => fabKeyRequest s
    | 4 => fabRollQuery s
    | _ => fabCode s .badFormat

/-- FAB_CMD_HAND_BACK (07 R402). -/
def execFabCmdHandBack (c : CoreId) (s : State) : Result := done (winCmd s c 0x9400 true (fabCmd · 1))
/-- FAB_CMD_WITHDRAW (07 R397). -/
def execFabCmdWithdraw (c : CoreId) (s : State) : Result := done (winCmd s c 0x9400 true (fabCmd · 2))
/-- FAB_CMD_KEY_REQUEST (07 R412). -/
def execFabCmdKeyRequest (c : CoreId) (s : State) : Result := done (winCmd s c 0x9400 true (fabCmd · 3))
/-- FAB_CMD_ROLL_QUERY (06 R341). -/
def execFabCmdRollQuery (c : CoreId) (s : State) : Result := done (winCmd s c 0x9400 true (fabCmd · 4))

/-- FAB_COMMAND_END (R490): a command that waits for no answer ends with its status. -/
def execFabCommandEnd (s : State) : Result :=
  done (s.when (s.fab.busy && s.hq.ctlWait.kind != .handBack && !s.fab.rollAsk && s.fab.keyReq.isNone) fun s => endFab s s.fab.code)

/-! ### Drives (09 R490, 06 R335, R336) -/

/-- NVME_CMD attach and re-silver: the drive's attach follows with DRIVE_ATTACH. -/
def nvmeAttach (s : State) (d : Nat) : State :=
  let x := tget {} s.drives d
  s.when (!x.serving && decide (x.resilver = 0)) fun s => onDrive s d fun x => { x with resilver := 1 }

/-- NVME_CMD (R490): [0] drive; [7:4] 1 attach, 2 retire; any other value is ignored. -/
def nvmeCmd (s : State) (v : BitVec 32) : State :=
  let d := (v.extractLsb' 0 1).toNat
  if v.extractLsb' 1 3 ≠ 0 ∨ v.extractLsb' 8 24 ≠ 0 then s
  else match (v.extractLsb' 4 4).toNat with
    | 1 => nvmeAttach s d
    | 2 => dropDrive s d true
    | _ => s

/-- NVME_ATTACH_RESILVER (06 R336). At 0xB000 core G has MGT_STATUS, which ignores writes (14 R729). -/
def execNvmeAttachResilver (c : CoreId) (d : Nat) (s : State) : Result :=
  done (s.when (c != .g) fun s => winCmd s c 0xB000 true (nvmeCmd · (BitVec.ofNat 32 (d % 2 + 16))))
/-- NVME_RETIRE (06 R335). -/
def execNvmeRetire (c : CoreId) (d : Nat) (s : State) : Result :=
  done (s.when (c != .g) fun s => winCmd s c 0xB000 true (nvmeCmd · (BitVec.ofNat 32 (d % 2 + 32))))

/-! ### Meeting point M1 and mail (09 R496, R497) -/

/-- MBX_POST_NEXT (01 R29). -/
def execMbxPostNext (c : CoreId) (s : State) : Result := done (winCmd s c 0x9C03 true (nextPost · true))

/-- MBX_POST_SELF: a post with source 3, in the layout of MBX_POST_WORD0. -/
def postSelf (s : State) (w : BitVec 32) : State :=
  post s { unit := (w.extractLsb' 0 8).toNat, st := w.extractLsb' 8 3, source := 3, reason := w.extractLsb' 16 8 }

def execMbxPostSelf (c : CoreId) (word : BitVec 32) (s : State) : Result := done (winCmd s c 0x9C04 true (postSelf · word))

/-- MBX_APPLY (R503): ignored while an apply is under way (log entry 21). -/
def mbxApplyCmd (s : State) (w : BitVec 32) : State := s.when (!applyBusy s) fun s => mbxApply s w

def execMbxApply (c : CoreId) (word : BitVec 32) (s : State) : Result := done (winCmd s c 0x9C10 true (mbxApplyCmd · word))

/-- MBX_DOORBELL: [0] DB_TABLE, which announces a change of the unit table; [1] DB_ALERT. -/
def doorbell (s : State) (v : BitVec 32) : State :=
  let s := s.when (v.getLsbD 0) fun s => cause (ring s .table) 1
  s.when (v.getLsbD 1) dbAlert

/-- MBX_DOORBELL_TABLE (R505). -/
def execMbxDoorbellTable (c : CoreId) (s : State) : Result := done (winCmd s c 0x9C18 true (doorbell · 1))
/-- MBX_DOORBELL_ALERT (R496). -/
def execMbxDoorbellAlert (c : CoreId) (s : State) : Result := done (winCmd s c 0x9C18 true (doorbell · 2))

/-- MBX_IRQ_PENDING is w1c (R495): a bit set in the same cycle stays set (00 R13); a level that still holds shows again at once (`pendingBits`). -/
def irqClear (s : State) (c : CoreId) (mask setNow : BitVec 32) : State :=
  s.onUnit fun m => { m with irqPend := tupd 0 m.irqPend (coreIdx c) fun w => w &&& ~~~mask ||| setNow }

def execMbxIrqPendingClear (c : CoreId) (mask setNow : BitVec 32) (s : State) : Result := done (winCmd s c 0x9C21 false (irqClear · c mask setNow))

/-- TIMER_MATCH (R493). -/
def execTimerMatch (c : CoreId) (s : State) : Result := done (s.when (coreLive s c && timerReached s c) fun s => irq (hookPeriodic s c) c 21)

/-- A core's end of the peer mailbox, and of the Gatehouse mailbox. -/
def onPeerMail (s : State) (c : CoreId) (f : Mail → Mail) : State :=
  s.onUnit fun m => match c with
    | .a => { m with mailA := f m.mailA }
    | .b => { m with mailB := f m.mailB }
    | .g => m
def onGateMail (s : State) (c : CoreId) (f : Mail → Mail) : State :=
  s.onUnit fun m => match c with
    | .g => { m with mailG := f m.mailG }
    | _ => { m with mailM := f m.mailM }

/-- The other end of the Gatehouse mailbox. -/
def gateEnd (c : CoreId) : CoreId := if c = .g then .a else .g

/-- The sender's side of a send: the acknowledgement seen is dropped, the message awaits its own. -/
def mailSent (m : Mail) : Mail := { m with unacked := true, ackPend := false }

/-- The receiver's side: `n` words stand in MBX_IN. -/
def mailGot (from_ : Mail) (n : Nat) (m : Mail) : Mail := { m with in_ := from_.out.filter fun p => decide (p.1 < n), inLen := n }

/-- Acknowledgement by the receiver of a message: MBX_IN is released; with no message there, the acknowledgement that waits is taken instead
(log entry 26). -/
def mailFree (m : Mail) : Mail := if m.inLen > 0 then { m with inLen := 0 } else { m with ackPend := false }

/-- What the sender then sees. -/
def mailAcked (m : Mail) : Mail := { m with unacked := false, ackPend := true }

/-- MBX_PEER_SEND (R497): words 0 to count - 1, of 1 to 16 (log entry 26). -/
def peerSend (s : State) (c : CoreId) (count : Nat) : State :=
  let m := peerMail s c
  s.when (!m.unacked && decide (1 ≤ count ∧ count ≤ 16)) fun s =>
    irq (onPeerMail (onPeerMail s c mailSent) (peerOf c) (mailGot m count)) (peerOf c) 8

def execMbxPeerSend (c : CoreId) (count : Nat) (s : State) : Result := done (winCmd s c 0x9C50 false (peerSend · c count))

/-- MBX_PEER_ACK (R496). -/
def peerAck (s : State) (c : CoreId) : State :=
  let had := decide ((peerMail s c).inLen > 0)
  (onPeerMail s c mailFree).when had fun s => irq (onPeerMail s (peerOf c) mailAcked) (peerOf c) 8

def execMbxPeerAck (c : CoreId) (s : State) : Result := done (winCmd s c 0x9C70 false (peerAck · c))

/-- An interrupt on the cores at an end of the Gatehouse mailbox. -/
def gateIrq (s : State) (c : CoreId) : State := if c = .g then irq s .g 9 else irqMain s 9

/-- MBX_G_SEND (R497): over the Gatehouse link; with the link down nothing is sent (log entry 26). -/
def gateSend (s : State) (c : CoreId) (count : Nat) : State :=
  let m := gateMail s c
  s.when (s.pow.linkUp && !m.unacked && decide (1 ≤ count ∧ count ≤ 16)) fun s =>
    gateIrq (onGateMail (onGateMail s c mailSent) (gateEnd c) (mailGot m count)) (gateEnd c)

def execMbxGSend (c : CoreId) (count : Nat) (s : State) : Result := done (winCmd s c 0x9C90 true (gateSend · c count))

/-- MBX_G_ACK (R496). -/
def gateAck (s : State) (c : CoreId) : State :=
  let had := decide ((gateMail s c).inLen > 0)
  (onGateMail s c mailFree).when (had && s.pow.linkUp) fun s => gateIrq (onGateMail s (gateEnd c) mailAcked) (gateEnd c)

def execMbxGAck (c : CoreId) (s : State) : Result := done (winCmd s c 0x9CB0 true (gateAck · c))

/-! ### Reads with an effect (11 R608, 09 R484, R490) -/

/-- A word that a core has read from a window. -/
def gotWord (p : W36 × State) : State := p.2.onCore fun k => { k with busData := p.1 }

/-- MEAS_WORD0_READ (R608). -/
def execMeasWord0Read (c : CoreId) (n : Nat) (s : State) : Result :=
  done (winCmd s c (0x8440 + 12 * (n % 8)) false fun s => gotWord (measWord s c (n % 8) 0))

/-- TIME_NOW_LOW_READ (R490). -/
def execTimeNowLowRead (c : CoreId) (s : State) : Result := done (winCmd s c 0xA000 false fun s => gotWord (timeNowLow s c))

/-- A result register read before its command has ended: its window's early-read error is set (R484). -/
def earlyRead (s : State) (c : CoreId) : ResultWin → State
  | .key => s.onKey fun k => { k with cmdEarly := true }
  | .dig => digUpd s c fun d => { d with early := true }
  | .led => s.onLed fun l => { l with ledEarly := true }
  | .lane _ => s
  | .rng => s.onRng fun r => { r with early := true }

/-- Has the command of a window's results not ended? For DIG, the reading core's done bit is 0 (11 R603). -/
def resultBusy (s : State) (c : CoreId) : ResultWin → Bool
  | .key => s.key.cmdBusy
  | .dig => !(digGet s c).done
  | .led => s.led.ledBusy
  | .lane n => (tget {} s.lane.lanes (n % 16)).testing
  | .rng => s.rng.testing.isSome

/-- The first result register of a window. -/
def resultAddr : ResultWin → Nat
  | .key => 0x8009
  | .dig => 0x8410
  | .led => 0x8C08
  | .lane n => laneBase n + 3
  | .rng => 0x8806

/-- RESULT_EARLY_READ (R484): INT 0 is returned. -/
def execResultEarlyRead (c : CoreId) (w : ResultWin) (s : State) : Result :=
  done (winCmd s c (resultAddr w) false fun s => s.when (resultBusy s c w) fun s => gotWord (intW 0, earlyRead s c w))

end Sys2Proof.Machine
end

