-- ==== Sys2Proof/Machine/Power.lean ====
section
/-! DEFINITION. Control roles and core resets (09 R491, R492, R515-R518), resets of the main die and of the standby domain (15 R799, R833),
supplies and the hot-set save (12 R682-R685, 15 R801), power states (15 R802-R812). -/

namespace Sys2Proof.Machine

/-! ### What the main die reports (03 DEV_STATUS, 07 R385, 14 R746) -/

/-- DEV_STATUS (03). -/
def devStatus (s : State) : BitVec 32 :=
  let b := fun (x : Bool) (n : Nat) => if x then 2 ^ n else 0
  let power := match s.pow.state with | .doze => 1 | .nap => 2 | _ => 0
  BitVec.ofNat 32 (b s.hq.open_ 0 + b s.hq.paused 1 + b s.pow.safe 2 + b s.time.mAnch 3 + b (rngReady s) 4 + b s.fab.twinAuth 5
    + b s.fab.twinMember 6 + lifecycle s * 2 ^ 8 + power * 2 ^ 12 + s.led.epoch.toNat * 2 ^ 16 + b (tget {} s.drives 0).serving 20
    + b (tget {} s.drives 1).serving 21 + b ((tget {} s.drives 0).resilver ≠ 0 || (tget {} s.drives 1).resilver ≠ 0) 22)

/-- The TWIN_STATUS values with the live bit (14 R746). -/
def twinBytes (s : State) (live : Bool) : Bytes :=
  let b := fun (x : Bool) (n : Nat) => if x then 2 ^ n else 0
  leBytes 2 (nodeAddr s) ++ leBytes 2 (twinAddr s) ++ leBytes 4 s.fab.ownTerm ++ leBytes 4 s.fab.twinTerm
    ++ leBytes 1 (b s.fab.ownAuth 0 + b s.fab.twinAuth 1 + b s.fab.shadowOk 2 + b s.hq.open_ 3 + b live 7)
    ++ leBytes 1 s.led.epoch.toNat ++ zeros 2 ++ leBytes 8 s.led.ownEnd ++ leBytes 8 s.led.mirEnd

/-! ### Resets -/

/-- Reset one core (08 R417, R418, 10 R554, 11 R598, 12 R664, 11 R615): registers and data RAM VOID, PC at its boot ROM, handles and
transactions gone, its message in the digest engine ABORTED, its interrupts disabled, its peer mail released (log entry 26). Program RAM keeps
its words and can be written again. -/
def coreReset (s : State) (c : CoreId) : State :=
  let s := s.when (s.dig.owner == some c) digEnd
  let s := rngUpd s c fun r => { r with busy := false, waiting := false, written := false, fresh := false }
  let s := onHandles s c fun _ => []
  let s := rollBack s (coreIdx c)
  let s := coreUpd s c fun k => { prog := k.prog, badProg := k.badProg, startKind := k.startKind, ownerFw := k.ownerFw }
  let s := s.onUnit fun m => { m with
    irqEn := tput 0 m.irqEn (coreIdx c) 0, irqPend := tput 0 m.irqPend (coreIdx c) 0, timer := tput 0 m.timer (coreIdx c) 0 }
  if c = .g then onGateMail (onGateMail s .g fun _ => {}) .a fun m => { m with unacked := false }
  else
    let s := onPeerMail (onPeerMail s c fun _ => {}) (peerOf c) fun m => { m with unacked := false }
    s.when (s.unit.active != c && s.unit.reloaded) fun s => (s.onDig fun d => { d with adoptDig := [] }).onUnit fun m => { m with reloaded := false }

/-- An adoption cut short by a reset or loss of the main die (14 R764). -/
def adoptAbandon (s : State) : State :=
  if s.unit.adopting = 0 then s
  else
    let s := append s (.serge .g) 2 0x0205 0 (leBytes 8 s.mgt.commitSeq ++ [2] ++ leBytes 1 s.unit.adopting ++ zeros 6)
    mgtAlert ((s.onUnit fun m => { m with adopting := 0, reloaded := false, staged := false }).onMgt fun m =>
      { m with adopt := false, committed := false }) 7

/-- Put the main die into reset: everything it holds takes its reset value, and what stands on the Gatehouse die, in fuses and on the drives
stays (00 R1, 11 R605, R636, 12 R664, 15 R809, R821). The Gatehouse keeps the status the main die last reported (14 R742, R746). -/
def mainReset (s : State) : State :=
  let s := s.when s.pow.mainUp fun s => s.onMgt fun m => { m with devStatus := devStatus s, twinLast := twinBytes s false }
  let s := adoptAbandon s
  let s := rollBack (rollBack (rollBack (rollBack s 0) 1) 3) 4
  let s := s.onHq fun _ => { sqs := [(0, { lanes := 0 })] }
  let s := s.onLane fun _ => {}
  let s := s.onHbm fun h => { events := h.events, retirements := h.retirements, cachePages := h.cachePages }
  let s := s.onLed fun l => { growTo := l.growTo }
  let s := s.onDrives fun t => tmap {} t fun _ x => { x with
    attached := false, ready := false, serving := false, resilver := 0, progress := 0, smart := [], queue := 0 }
  let s := s.onFab fun _ => {}
  let s := s.onDig fun d => { gateMeas := d.gateMeas }
  let s := s.onRng fun r => { drawn := r.drawn, returned := r.returned, blocked := r.blocked, mode := r.mode }
  let s := s.onTele fun _ => {}
  let s := s.onCore fun k => { g := k.g, calls := k.calls }
  let s := s.onTime fun t => { t with mUs := 0, mUnc := 0xFFFFFFFF, mAnch := false, latchA := 0, latchB := 0 }
  let s := s.onKey fun k => { k with
    slots := tmap {} k.slots fun _ x => { x with material := [], retiring := false }
    unwrapped := false, handlesA := [], handlesB := [], cmdBusy := false, cmdDone := false, cmdEarly := false, cmdCode := .done, cmdRun := none, cmdHeld := none
    slotReg := 0, handleIn := {}, handleIn2 := {}, inAddr := 0, inLen := 0, outAddr := 0, attr := 0, handleOut := {}, result := 0
    deviceKeys := false, changes := [] }
  let s := s.onUnit fun m => { m with
    posts := [], overflow := false, heldPosts := [], lastData := [], lastMgmt := [], decided := [], applyRefused := false, applyDrained := false
    applyUnit := 0, irqEn := tput 0 (tput 0 m.irqEn 0 0) 1 0, irqPend := tput 0 (tput 0 m.irqPend 0 0) 1 0
    timer := tput 0 (tput 0 m.timer 0 0) 1 0, mailA := {}, mailB := {}, mailM := {}, mailG := { m.mailG with unacked := false }
    gave := false, roleRefA := false, roleRefB := false, adopting := 0, adoptLane := none, reloaded := false, safeLoop := false, failover := false, staged := false }
  s.onPow fun p => { p with
    mainUp := false, readyPin := false, perst := 3, linkUp := false, linkSession := [], safe := false, bank := 3, fail0 := 0, fail1 := 0, safeStrap := false
    safeNone := false, bootFault := false, bootStep := 0, attachDone := false, attachOver := false, waking := false, keepStep := 0, reqRefused := false, reqReason := 0, sfdpRead := false, readMode := .single }

/-- Reset the Gatehouse standby domain (15 R799): core G starts in its boot ROM, record-store recovery runs again, the hot set stands. Appends
not committed are lost with the queue. -/
def standbyReset (s : State) : State :=
  let s := coreReset s .g
  let s := s.onStore fun r => { r with
    ready := false, queue := [], held := false, saving := false, frozen := [], holdcapOk := false, cmd := 0, part := 0, typ := 0, id := 0
    addr := 0, len := 0, busy := false, done := false, deferred := false, code := .done }
  let s := s.onTime fun t => { t with busy := false, done := false, code := .done, vAddr := 0, vLen := 0, latchG := 0 }
  let s := s.onKey fun k => { k with rekeyDue := false }
  s.onMgt fun m => { devStatus := m.devStatus, twinLast := m.twinLast, copy := m.copy, copyAt := m.copyAt, stageBank := m.stageBank
                     stageData := m.stageData, nonce := 1, runBank := m.runBank
                     committed := m.committed, commitSeq := m.commitSeq }

/-! ### Roles and watchdogs (09 R491, R492, R515-R518) -/

/-- The active role moves to a core: a reloaded one extends the measurements with the adoption digests (11 R614). -/
def moveRole (s : State) (c : CoreId) : State :=
  let s := s.onUnit fun m => { m with active := c, gave := false }
  if s.unit.reloaded then
    let ext := fun (s : State) (p : Nat × Nat) => match assoc p.1 s.dig.adoptDig with | some v => extend s p.2 v | none => s
    let s := [(1, 1), (2, 1), (4, 3), (5, 4), (6, 5)].foldl ext s
    (s.onDig fun d => { d with adoptDig := d.adoptDig.filter fun p => p.1 == 3 }).onUnit fun m =>
      { m with reloaded := false, adopting := if m.adopting = 2 then 3 else m.adopting }
  else s

/-- A request on PWR_ROLE is refused: it sets the writer's refused bit and changes nothing. -/
def roleRefuse (s : State) (c : CoreId) : State :=
  s.onUnit fun m => match c with
    | .a => { m with roleRefA := true }
    | .b => { m with roleRefB := true }
    | .g => m

def roleOk (s : State) (c : CoreId) : State :=
  s.onUnit fun m => match c with
    | .a => { m with roleRefA := false }
    | .b => { m with roleRefB := false }
    | .g => m

/-- A planned handover has moved the role (09 R516 step 5): the new active core rings DB_TABLE. -/
def handedOver (s : State) : State := cause (ring s .table) 1

/-- After an unplanned TAKE (09 R517): where the latest CONTROL record of a unit differs from MBX_UNIT, the record's state is applied. -/
def applyRecords (s : State) : State :=
  ((List.range 128).filter fun u => unitSt s u != .absent).foldl (fun s u =>
    match latest s 1 0x0107 u with
    | some r =>
      let w := leAt r.payload 0 4
      let e := unitEnt s u
      let lanes := BitVec.ofNat 2 (w / 8)
      match ustOf (w % 8) with
      | some st =>
        s.when ((st != e.st || lanes != e.lanes) && transitionOk e st (decide (e.lanes ≠ lanes)))
          fun s => finishChange s u st lanes (BitVec.ofNat 8 (w / 256)) (leAt r.payload 4 8)
      | none => s
    | none => s) s

/-- PWR_ROLE GIVE: by the active core, when its peer is up. A GIVE of the active core is remembered for the standby's TAKE. -/
def roleGive (s : State) (c : CoreId) : State :=
  if c = .g then s
  else if s.unit.active ≠ c then roleRefuse s c
  else if coreUp s (peerOf c) then handedOver (moveRole (roleOk s c) (peerOf c))
  else roleRefuse (s.onUnit fun m => { m with gave := true }) c

/-- PWR_ROLE TAKE: by the standby, when its peer has halted, is held in reset or has written GIVE. At an unplanned change the recorded unit states are
applied, and an entry in flight completes INTERNAL_FAULT (R515, R517). -/
def roleTake (s : State) (c : CoreId) : State :=
  if c = .g then s
  else
    let p := coreGet s (peerOf c)
    if s.unit.active = c ∨ !(p.halted || p.inReset || s.unit.gave) then roleRefuse s c
    else
      let planned := s.unit.gave
      let s := moveRole (roleOk s c) c
      if planned then handedOver s else endCtl (applyRecords s) .internalFault

/-- PWR_ROLE, bits [3:2] (R491). -/
def pwrRole (s : State) (c : CoreId) (v : BitVec 32) : State :=
  match (v.extractLsb' 2 2).toNat with
  | 1 => roleGive s c
  | 2 => roleTake s c
  | _ => s

/-- PWR_ROLE_GIVE (R491). -/
def execPwrRoleGive (c : CoreId) (s : State) : Result := done (winCmd s c 0xAC00 false (pwrRole · c 4))
/-- PWR_ROLE_TAKE (R491). -/
def execPwrRoleTake (c : CoreId) (s : State) : Result := done (winCmd s c 0xAC00 false (pwrRole · c 8))

/-- PWR_WDOG (R492). -/
def wdogWrite (s : State) (c : CoreId) : State := coreUpd s c fun k => { k with wdog := true }

def execPwrWdog (c : CoreId) (s : State) : Result := done (winCmd s c 0xAC01 false (wdogWrite · c))

/-- WATCHDOG_EXPIRE (R492, R501): the 10 ms end; a core that has written PWR_WDOG within them goes on, any other in program RAM is reset
and held so. -/
def execWatchdogExpire (c : CoreId) (s : State) : Result :=
  done (s.when (coreLive s c && (coreGet s c).inRam) fun s =>
    if (coreGet s c).wdog then coreUpd s c fun k => { k with wdog := false }
    else coreStopped (coreUpd (coreReset s c) c fun k => { k with inReset := true, startKind := 2 }) c)

/-- PWR_PEER_RESET (R490, R518): [0] resets the other main-die core, whose boot then loads the bank in use, or with [1] the staged bank. -/
def peerReset (s : State) (c : CoreId) (v : BitVec 32) : State :=
  if c = .g ∨ !v.getLsbD 0 then s
  else
    let p := peerOf c
    let kind : BitVec 2 := if v.getLsbD 1 then 1 else if (coreGet s p).inReset then 2 else 0
    let s := coreUpd (coreReset s p) p fun k => { k with startKind := kind }
    if v.getLsbD 1 then
      s.onUnit fun m => { m with staged := false, adopting := if m.adopting = 0 then 1 else m.adopting, adoptBank := s.mgt.stageBank }
    else s

def execPwrPeerReset (c : CoreId) (value : BitVec 32) (s : State) : Result := done (winCmd s c 0xAC02 true (peerReset · c value))

/-- CORE_RESET (08 R417, R418): a core that is supplied is reset. -/
def execCoreReset (c : CoreId) (s : State) : Result :=
  done (s.when (if c = .g then s.pow.standby else s.pow.mainUp) fun s => coreReset s c)

/-- ID_LOAD (R510): the program loader writes the next word of program RAM; ignored once ID_LOCK is set. -/
def idLoad (s : State) (c : CoreId) (w : BitVec 14) : State :=
  coreUpd s c fun k =>
    if k.idLock then k
    else { k with
      prog := if k.loadAddr.toNat < progEnd c then tput 0 k.prog k.loadAddr.toNat (w ^^^ 0x079F) else k.prog
      loadAddr := k.loadAddr + 1 }

def execIdLoad (c : CoreId) (word : BitVec 14) (s : State) : Result := done (winCmd s c 0xB806 false (idLoad · c word))

/-- The end of boot step 1 (15 R793): MAIN_PWR_EN is driven high once recovery has ended and HOLDCAP holds 4.5 V, unless a tamper response holds the
boot (13 R715). -/
def mainStart (s : State) : State :=
  s.when (s.pow.standby && s.store.ready && s.store.holdcapOk && s.pow.vstby && s.pow.state == .active && !s.pow.pgoodWait && !s.tmp.bootHeld
      && s.tmp.level != 3) fun s => s.onPow fun p => { p with pwrEn := true }

/-! ### Reset inputs (15 R799, R800, R833) -/

/-- MAIN_PGOOD_FALL (16 R833). -/
def execMainPgoodFall (s : State) : Result :=
  done (s.when (s.pow.pwrEn && s.pow.pgood) fun s =>
    (mainReset s).onPow fun p => { p with pgood := false, pwrEn := false, pgoodWait := true, state := .active })

/-- MAIN_PGOOD_LOW_TIMEOUT (16 R833): the start runs again from boot step 2. -/
def execMainPgoodLowTimeout (s : State) : Result :=
  done (s.when (s.pow.pgoodWait && !s.pow.pgood && s.pow.standby && s.store.ready) fun s =>
    s.onPow fun p => { p with pgoodWait := false, pwrEn := true })

/-- Whole pages that an append stopped by a save has programmed: at least the one that was in progress, and at most all but the four that would have let it
complete; how many is free (12 R682 step 3, log entry 135). -/
def stoppedPages (s : State) (a : Append) : Nat := 1 + Config.tornAt s.store.tears % max 1 (pagesFor a.record.payload.length - 4)

/-- An append cut off while it programs (12 R674): its first `n` bytes, in the order of programming, hold what they should, the byte in progress is
unpredictable, and the commit word, which comes last, is absent. -/
def tearAt (s : State) (r : Record) (n : Nat) : State :=
  let whole := progPages s r (n / 252)
  let k := n % 252
  let p := if n / 252 < pagesFor r.payload.length then (pageNo r.sector (r.page + n / 252), k, (recPage r (n / 252)).take k)
    else (pageNo r.sector r.page, 252 + k, (markPage commitWord).take (252 + k))
  (progPage whole p.1 (p.2.2 ++ List.replicate (256 - p.2.2.length) 0xFF)).onStore fun x => { x with
    torn := some (p.1, p.2.1), recs := x.recs ++ [{ r with mark := .absent }] }

/-- The append at the head of the queue is cut off where the free value says, or, stopped by a save, after the pages it has programmed. -/
def tearHead (s : State) : State :=
  match s.store.queue with
  | a :: _ =>
    if a.begun then
      match placeIn s a.record.part (pagesFor a.record.payload.length) with
      | some (t, p) =>
        let r := placed t.store.recs a.record p
        let n := Config.tornAt s.store.tears % (252 * pagesFor r.payload.length + 4)
        (if a.stopped then (progPages t r (stoppedPages s a)).onStore fun x => { x with recs := x.recs ++ [{ r with mark := .absent }] }
          else tearAt t r n).onStore fun x => { x with tears := x.tears + 1 }
      | none => s
    else s
  | [] => s

/-- The partial record of an append that a save stopped is made dead (12 R682 step 5). -/
def killStopped (s : State) : State :=
  match s.store.queue with
  | a :: _ =>
    if a.stopped then
      match placeIn s a.record.part (pagesFor a.record.payload.length) with
      | some (t, p) =>
        let r := { placed t.store.recs a.record p with inTxn := false }
        (progMark (progPages t r (stoppedPages s a)) r 0).onStore fun x => { x with recs := x.recs ++ [{ r with mark := .dead }], tears := x.tears + 1 }
      | none => s
    else s
  | [] => s

/-- SYS_RESET (15 R799). -/
def execSysReset (s : State) : Result :=
  done (s.when s.pow.standby fun s =>
    (standbyReset (mainReset (tearHead s))).onPow fun p => { p with pgood := false, pwrEn := false, pgoodWait := false, state := .active })

/-- PCIE_PERST (15 R800, R811). -/
def execPciePerst (rising : Bool) (s : State) : Result :=
  done (
    if rising then
      let s := s.when (s.pow.state == .keep && s.pow.standby) (ring · .wake)
      s.when s.pow.mainUp fun s => s.onHq fun h => { h with linkUp := true }
    else s.when s.pow.mainUp fun s => irqMain ((resetFunction s).onHq fun h => { h with linkUp := false }) 3)

/-! ### Supplies and the hot-set save (12 R682-R685, 15 R801) -/

/-- Appends go on after a save: one that was stopped has its partial record made dead and is programmed again whole (12 R682 step 5). -/
def resumeAppends (s : State) : State :=
  let s := killStopped (finishSave s)
  ctlGo (beginHead (s.onStore fun r => { r with
    held := false, saving := false, frozen := []
    queue := r.queue.map fun a => if a.stopped then { a with begun := false } else a }))

/-- The main-die rail sensors are disarmed until their rails are in window after the next power-up (13 R703). -/
def disarmRails (s : State) : State := s.onTmp fun t => { t with armed := t.armed &&& 0x0FFFFE00 }

/-- PWRFAIL_ASSERT (12 R682): appends are held and the save begins; a supply warning raises PWR_EVENT. -/
def execPwrfailAssert (s : State) : Result :=
  done (s.when (s.pow.standby && !s.pow.pwrfail) fun s => irqAll (startSave (disarmRails (s.onPow fun p => { p with pwrfail := true }))) 20)

/-- VSTBY_WARNING (12 R682). -/
def execVstbyWarning (s : State) : Result :=
  done (s.when (s.pow.standby && s.pow.vstby) fun s =>
    irqAll (startSave ((s.onPow fun p => { p with vstby := false }).onStore fun r => { r with holdcapOk := false })) 20)

/-- PWRFAIL_PAUSE (15 R801): as step 1 of 13 R706, and the open groups are sealed at once. -/
def execPwrfailPause (s : State) : Result :=
  done (s.when (s.pow.pwrfail && planeOpen s) fun s =>
    let s := pausePlane ((s.onHq fun h => { h with pausedPwrfail := true }).onLed fun l => { l with stopApply := true })
    closeGroup (closeGroup s true) false)

/-- The data plane goes on after a pause. -/
def resumePlane (s : State) : State :=
  cause ((s.onHq fun h => { h with paused := false, pausedPwrfail := false }).onLed fun l => { l with stopApply := false }) 3

/-- PWRFAIL_REOPEN (15 R801): only a pause of PWRFAIL_N ends here, and no pause while a tamper response is in force (13 R711). -/
def execPwrfailReopen (s : State) : Result :=
  done (s.when (!s.pow.pwrfail && s.pow.vstby && s.hq.paused && s.hq.pausedPwrfail && !s.tmp.inForce) resumePlane)

/-- PWRFAIL_DEASSERT (12 R682 step 5): with VSTBY back in its window, held appends resume. -/
def execPwrfailDeassert (s : State) : Result :=
  done (s.when (s.pow.standby && s.pow.pwrfail) fun s =>
    let s := s.onPow fun p => { p with pwrfail := false }
    s.when s.pow.vstby resumeAppends)

/-- VSTBY_ENTER_WINDOW (15 R793 step 1): the standby domain starts, or, when it never stopped, its appends resume. -/
def execVstbyEnterWindow (s : State) : Result :=
  done (s.when (!s.pow.vstby) fun s =>
    let s := s.onPow fun p => { p with vstby := true }
    if s.pow.standby then s.when (!s.pow.pwrfail) resumeAppends
    else s.onPow fun p => { p with standby := true, state := .active, pwrEn := false, pgood := false, pgoodWait := false, mainRuns := 0 })

/-- Does HOLDCAP last to the end of a save (12 R683): at or above the 80 µF floor it does, below it the part decides (log entry 27)? -/
def saveLasts (s : State) : Bool := decide (s.store.capTenths ≥ 800) || Config.saveDone s.store.saves

/-- The append at the head of the queue when the supply fails: one of at most four pages left completes, a longer one is torn, its commit word
absent (12 R682 step 3, R674). -/
def tornHead (s : State) : State :=
  match s.store.queue with
  | a :: _ =>
    if a.begun && !a.stopped && decide (a.pagesLeft ≤ 4) then (commitRec s a.src a.record).getD s
    else tearHead s
  | [] => s

/-- The standby domain stops: the save made as far as the energy went, what the Gatehouse holds on VSTBY is lost, the main rails fall. -/
def standbyStop (s : State) : State :=
  let s := tornHead s
  let s := s.when (s.store.saving && saveLasts s) finishSave
  let s := standbyReset (mainReset s)
  let s := s.onStore fun r => { r with hot := [], hotKept := false, stale := false }
  let s := s.onKey fun k => { k with holder := [] }
  let s := s.onUnit fun m => { m with gate := [], gateVersion := 0 }
  let s := s.onDig fun d => { d with gateMeas := [] }
  let s := s.onMgt fun _ => { stageBank := s.mgt.stageBank, stageData := s.mgt.stageData, runBank := s.mgt.runBank }
  let s := s.onTmp fun t => { t with counts := [] }
  s.onPow fun p => { p with standby := false, pwrEn := false, pgood := false, pgoodWait := false, mainRuns := 0, linkBad := 0, linkBadMs := 0 }

/-- STANDBY_DOMAIN_STOP (12 R683). -/
def execStandbyDomainStop (s : State) : Result := done (s.when (s.pow.standby && !s.pow.vstby) standbyStop)

/-- VAULT_ENTER (15 R812). -/
def execVaultEnter (s : State) : Result :=
  done (s.when (!s.pow.vstby) fun s => (s.when s.pow.standby standbyStop).onPow fun p => { p with state := .vault })

/-- VSTBY_RETURN (12 R688): after operation on VBAT alone, device time resumes from the RTC count with 31 µs more uncertainty. -/
def execVstbyReturn (elapsed : Nat) (s : State) : Result :=
  done (s.when (s.pow.state == .vault && s.pow.vbat && !s.pow.vstby) fun s =>
    (s.onTime fun t => { t with us := t.us + elapsed, clk := t.clk + elapsed, extra := t.extra + 31 }) |>.onStore fun r => { r with vbatUs := r.vbatUs + elapsed })

/-- The device time a SYSTEM record carries (12 R656, R695, 13 R719; log entry 28). -/
def recTime (r : Record) : Nat :=
  match r.typ.toNat with
  | 0x0301 => leAt r.payload 8 8
  | 0x0305 => leAt r.payload 0 8
  | 0x0307 => max (leAt r.payload 24 8) (leAt r.payload 0 8 + leAt r.payload 8 8 / 2)
  | 0x030B => leAt r.payload 4 8
  | _ => 0

/-- TOTAL_POWER_LOSS (12 R689, R690, 10 R533, 14 R731): the voile is lost, time is unanchored and restarts from the latest device time of a
committed SYSTEM record. The always-on hub starts anew. -/
def execTotalPowerLoss (s : State) : Result :=
  done (
    let s := s.when s.pow.standby standbyStop
    let t0 := (s.store.recs.filter fun r => r.part == 3 && readable r).foldl (fun m r => max m (recTime r)) 0
    let was := s.time.anchored
    let s := s.onKey fun k => { k with voile := [], voileInv := [] }
    let s := s.onTime fun t => { t with us := t0, restart := t0, anchored := false, u0 := 0, a := 0, extra := 0 }
    let s := s.onTmp fun t => { wipedVoile := t.wipedVoile }
    (s.onPow fun p => { p with vstby := false, vbat := false, state := .vault }).when was (mgtAlert · 9))

/-- VBAT_LOW (12 R697). -/
def execVbatLow (s : State) : Result := done (mgtAlert (s.onPow fun p => { p with vbat := false }) 3)
/-- VBAT_RETURN (12 R697). -/
def execVbatReturn (s : State) : Result := done (mgtAlert (s.onPow fun p => { p with vbat := true }) 3)

/-- HOLDCAP_MEASURED (12 R645): below 80 µF, a HOLDCAP_LOW record is appended, and its append sets management cause HOLDCAP. -/
def execHoldcapMeasured (tenths : Nat) (s : State) : Result :=
  done (s.when s.pow.standby fun s =>
    let s := s.onStore fun r => { r with capTenths := tenths }
    s.when (decide (tenths < 800)) fun s => append s .gatehouse 3 0x030C 0 (leBytes 4 tenths ++ zeros 4))

/-! ### DOZE, NAP and KEEP (15 R802-R811) -/

/-- Is every ACTIVE lane gated? -/
def allGated (s : State) : Bool := (List.range 16).all fun l => !unitActive s l || (tget {} s.lane.lanes l).gated

/-- LANE_CLOCK_GATE (R803). -/
def execLaneClockGate (lane : Nat) (s : State) : Result :=
  done (s.when (decide (lane < 16) && unitActive s lane && s.pow.mainUp && s.pow.state != .nap && decide (laneBusy s lane = 0)) fun s =>
    let s := onLaneSt s lane fun x => { x with gated := true }
    s.when (allGated s && s.pow.state == .active) fun s => irqAll (s.onPow fun p => { p with state := .doze }) 20)

/-- The first condition of R804 that fails, numbered from 1. -/
def napRefusal (s : State) : Option Nat :=
  let waits := s.led.groups.any fun g => g.source == 1 || !g.durable
  if !s.lane.reqs.isEmpty then some 1
  else if !s.led.openGroup.isEmpty || !s.led.openAuth.isEmpty || waits then some 2
  else if s.hq.ctlFetched.isSome then some 3
  else if s.led.ckptRun.isSome || !s.led.replayed || (tget {} s.drives 0).resilver ≠ 0 || (tget {} s.drives 1).resilver ≠ 0
      || !s.hbm.rebuilding.isEmpty || s.led.rebuildQ.isSome || s.unit.adopting ≠ 0 || s.unit.gave || s.led.opening.isSome then some 4
  else if s.tmp.inForce then some 5
  else none

/-- PWR_REQ NAP (R804, R805, 11 R638): the noise bank stops, the rest of the main die stands. -/
def pwrNap (s : State) : State :=
  match napRefusal s with
  | some n => s.onPow fun p => { p with reqRefused := true, reqReason := BitVec.ofNat 4 n }
  | none =>
    let s := s.onPow fun p => { p with state := .nap, reqRefused := false, reqReason := 0, waking := false }
    irqAll (s.onRng fun r => { r with bank := if r.bank = .failed then .failed else .stopped }) 20

/-- Step 4 of R809: the main die is powered off, the drives held in reset. -/
def keepOff (s : State) : State :=
  let s := irqAll (mainReset (disarmRails s)) 20
  s.onPow fun p => { p with state := .keep, pgood := false, pwrEn := false }

/-- The entry into KEEP goes on as far as it can: 1 requests settle, 2 a checkpoint is completed and the drives flushed, 3 WITHDRAW is flooded while
the twin is a member, and the node waits for TAKEOVER. -/
def keepAdvance (s : State) : State :=
  match s.pow.keepStep with
  | 1 =>
    if allSettled s && s.led.ckptRun.isNone && !s.led.groups.any (fun g => g.source != 1 && !g.durable) then
      startCheckpoint (s.onPow fun p => { p with keepStep := 2 })
    else s
  | 2 =>
    if s.led.ckptRun.isSome then s
    else
      let s := (servingDrives s).foldl (fun s d => onDrive s d fun x => { x with flushed := true }) (nvme s (servingDrives s) .flush)
      if hasTwin s && isMember s (twinAddr s) then (if s.fab.withdrawn then s else withdraw s).onPow fun p => { p with keepStep := 3 }
      else keepOff s
  | _ => s

/-- PWR_REQ KEEP (R809, R810): refused with reason 8 while the node holds its twin's authority. -/
def pwrKeep (s : State) : State :=
  if s.fab.twinAuth then s.onPow fun p => { p with reqRefused := true, reqReason := 8 }
  else if s.pow.keepStep ≠ 0 then s
  else
    let s := s.onPow fun p => { p with keepStep := 1, reqRefused := false, reqReason := 0 }
    keepAdvance (closeGroup (closeGroup (s.when s.hq.open_ closePlane) true) false)

/-- The wake from NAP begins (R807). -/
def napWake (s : State) : State := s.when (s.pow.state == .nap && s.pow.mainUp) fun s => s.onPow fun p => { p with waking := true }

/-- PWR_REQ (15): NAP and KEEP by cores A and B, WAKE by core G alone. -/
def pwrReq (s : State) (c : CoreId) (v : BitVec 32) : State :=
  match (v.extractLsb' 0 3).toNat with
  | 1 => if c = .g then s else pwrNap s
  | 2 => if c = .g then s else pwrKeep s
  | 3 => if c = .g then napWake s else s
  | _ => s

/-- PWR_REQ_NAP (R804). -/
def execPwrReqNap (c : CoreId) (s : State) : Result := done (winCmd s c 0xAC03 true (pwrReq · c 1))
/-- PWR_REQ_KEEP (R809). -/
def execPwrReqKeep (c : CoreId) (s : State) : Result := done (winCmd s c 0xAC03 true (pwrReq · c 2))
/-- PWR_REQ_WAKE (R807). -/
def execPwrReqWake (c : CoreId) (s : State) : Result := done (winCmd s c 0xAC03 true (pwrReq · c 3))

/-- KEEP_WITHDRAW_WAIT_TIMEOUT (R809 step 3). -/
def execKeepWithdrawWaitTimeout (s : State) : Result := done (s.when (s.pow.keepStep == 3) keepOff)

/-- FAILOVER_SETTLED (01 R41): also the end of step 1 of R809. -/
def execFailoverSettled (s : State) : Result := done (keepAdvance (failoverEnd s))

/-- TAKEOVER_RX (07 R393): the twin's TAKEOVER of this node ends the wait of R809 step 3. -/
def execTakeoverRx (f : MFrame) (s : State) : Result :=
  done (
    let t := takeoverRx f s
    t.when (t.pow.keepStep == 3 && f.subject == nodeAddr t && (viewOf t (nodeAddr t)).byTwin) keepOff)

/-- Every ACTIVE lane ungates: the device leaves DOZE without work for a lane (01 R38; log entry 124). -/
def dozeWake (s : State) : State :=
  s.when (s.pow.state == .doze) fun s => ((List.range 16).filter (unitActive s)).foldl ungate s

/-- NAP_WAKE_EVENT (R807); DB_WAKE ends DOZE as well (01 R38). -/
def execNapWakeEvent (w : WakeCause) (s : State) : Result := done (if w = .dbWake ∧ s.pow.state = .doze then dozeWake s else napWake s)

/-- NAP_WAKE_DONE (R807, R808, 11 R638): the time mirror is refreshed, the start-up test of the source in use runs again, an overdue checkpoint
starts. -/
def execNapWakeDone (s : State) : Result :=
  done (s.when (s.pow.state == .nap && s.pow.waking) fun s =>
    let s := s.onPow fun p => { p with state := if allGated s then .doze else .active, waking := false }
    let s := s.when s.pow.linkUp mirrorTime
    let s := irqAll (s.onRng fun r => { r with bank := if r.bank = .stopped then .starting else r.bank }) 20
    s.when s.led.ckptDue startCheckpoint)

/-- KEEP_WAKE (01 R38, R811, 13 R717): DB_WAKE has been rung. In KEEP it starts the main die from boot step 2; while a tamper response is in force it
is ignored. In NAP and DOZE the device leaves that state. -/
def execKeepWake (s : State) : Result :=
  done (s.when (s.pow.standby && s.unit.bells.contains .wake) fun s =>
    let s := s.onUnit fun m => { m with bells := m.bells.filter (· != .wake) }
    match s.pow.state with
    | .keep => s.when (!respInForce s) fun s => s.onPow fun p => { p with pwrEn := true }
    | .nap => napWake s
    | .doze => dozeWake s
    | .active | .vault => s)

/-- GPIO_WAKE_INPUT (R811): a GPIO named in WAKE_GPIO goes low in KEEP. -/
def execGpioWakeInput (n : Nat) (s : State) : Result :=
  done (s.when (s.pow.state == .keep && s.pow.standby && decide (n < 8) && s.par.wakeGpio.getLsbD n) fun s =>
    ring (s.onPow fun p => { p with gpio := setBit p.gpio n false }) .wake)

end Sys2Proof.Machine
end

