-- ==== Sys2Proof/Machine/Tamper.lean ====
section
/-! DEFINITION. Tamper sensing and response (13 R699-R722), the writes of HQ_PLANE that end a response or open the data plane (13 R711, R712,
15 R793 step 12), boundary scan (13 R716) and the Gatehouse link's frames (01 R19). -/

namespace Sys2Proof.Machine

/-! ### Sensors (R700-R704) -/

/-- Floor and factory default of a sensor's level (R702). -/
def sensorRange (n : Nat) : Nat × Nat :=
  if n ≤ 0x06 then (1, 2)
  else if n = 0x08 ∨ n = 0x0E then (1, 1)
  else if n = 0x0F ∨ n = 0x13 then (1, 2)
  else if n = 0x10 ∨ n = 0x11 ∨ n = 0x14 then (3, 3)
  else if n = 0x12 then (2, 3)
  else if n ≤ 0x17 then (2, 2)
  else (0, 0)

/-- The level in effect for a sensor (R700): the parameter, no lower than the floor, or the default. In BLANK the boundary-scan sensor only logs
(R716). -/
def sensorLevel (s : State) (n : Nat) : Nat :=
  if n = 0x17 ∧ lifecycle s = 0 then 0
  else match tget none s.par.levels n with
    | some v => max v.toNat (sensorRange n).1
    | none => (sensorRange n).2

/-- Does a sensor watch now (R702 Live column, R703, R704; log entry 30)? -/
def sensorLive (s : State) (n : Nat) : Bool :=
  if n ≤ 0x08 then s.pow.mainUp && s.tmp.armed.getLsbD n
  else if n = 0x0A then true
  else if n = 0x0B ∨ n = 0x15 then s.pow.mainUp && s.pow.state != .nap
  else if 0x0C ≤ n ∧ n ≤ 0x0E ∨ n = 0x10 then s.pow.mainUp
  else if n = 0x09 ∨ n = 0x0F ∨ n = 0x17 then s.pow.standby
  else if 0x11 ≤ n ∧ n ≤ 0x14 then true
  else if n = 0x16 then s.pow.linkUp
  else if 0x18 ≤ n ∧ n ≤ 0x1B then s.par.loops.getLsbD (n - 0x18)
  else false

/-- The level of the response in force, 0 when there is none. -/
def levelNow (s : State) : Nat := if respInForce s then s.tmp.level.toNat else 0

/-! ### The tamper log (R719-R721) -/

/-- Power state code of a TAMPER_EVENT record (R719). -/
def powerCode (s : State) : Nat :=
  if !s.pow.standby then 4
  else match s.pow.state with
    | .keep => 3
    | .nap => 2
    | .doze => 1
    | .vault => 4
    | .active => if s.pow.bootStep < 11 then 5 else 0

/-- Payload of a TAMPER_EVENT record (R719). -/
def eventPayload (sensor level power flags time : Nat) (measured : BitVec 32) (suppressed own : Nat) : Bytes :=
  leBytes 1 sensor ++ leBytes 1 level ++ leBytes 1 power ++ leBytes 1 flags ++ leBytes 8 time ++ leBytes 4 measured.toNat
    ++ leBytes 4 suppressed ++ leBytes 1 own ++ zeros 3

/-- Log a response, or count it when this sensor was logged less than 1 s ago (R720). -/
def logEvent (s : State) (sensor level own : Nat) (measured : BitVec 32) : State :=
  let recent := match tget none s.tmp.logged sensor with | some t => decide (s.time.clk - t < 1000000) | none => false
  if recent then s.onTmp fun t => { t with suppressed := tupd 0 t.suppressed sensor (· + 1) }
  else
    let p := eventPayload sensor level (powerCode s) 0 s.time.us measured (tget 0 s.tmp.suppressed sensor) own
    let s := append s .tamper 3 0x030B 0 p
    s.onTmp fun t => { t with logged := tput none t.logged sensor (some s.time.clk), suppressed := tput 0 t.suppressed sensor 0 }

/-- The always-on latch in VAULT (R718). -/
def latchEvent (s : State) (sensor : Nat) : State :=
  s.onTmp fun t =>
    if t.latch.any fun p => p.1 == sensor then { t with latch := t.latch.map fun p => if p.1 = sensor then (p.1, p.2 + 1) else p }
    else if t.latch.length < 8 then { t with latch := t.latch ++ [(sensor, 1)] }
    else { t with latchOver := true }

/-- The latch's entries become TAMPER_EVENT records and the latch is emptied (R721): in VAULT only the latch was written, so each entry carries its
sensor's own level, and its detection time and measured value are free (log entry 31). -/
def flushLatch (s : State) : State :=
  let spilled := if s.tmp.latchOver then 2 else 0
  let s' := s.tmp.latch.foldl (fun s p =>
    append s .tamper 3 0x030B 0 (eventPayload p.1 (sensorLevel s p.1) 4 (1 + spilled) (Config.latchTime p.1 s.time.us)
      (Config.latchMeasured p.1 s.time.us) (p.2 - 1) (sensorLevel s p.1))) s
  s'.onTmp fun t => { t with latch := [], latchOver := false }

/-! ### The steps of a response (R706-R709) -/

/-- The voile and its complement become zeros: it is no longer valid (R706 step 5). -/
def wipeVoile (s : State) : State := (s.onKey fun k => { k with voile := zeros 32, voileInv := zeros 32 }).onTmp fun t => { t with wipedVoile := true }

/-- The running KEY command ends with TAMPER_ABORT, its results undone (R707). -/
def abortKey (s : State) : State :=
  s.when (s.key.cmdRun.isSome || s.key.cmdHeld.isSome) fun s =>
    let s := match s.key.cmdRun with | some r => dropHandle s r | none => s
    irqMain (s.onKey fun k => { k with cmdBusy := false, cmdDone := true, cmdCode := .tamperAbort, cmdRun := none, cmdHeld := none }) 10

/-- A CONTROL request on a key that waits in its key operation ends with TAMPER_ABORT (R708). -/
def abortCtlKey (s : State) : State :=
  match s.hq.ctlFetched with
  | some e => s.when (s.hq.ctlHeld && s.hq.ctlFor != .publish && !ctlQueued s && [0x04, 0x05, 0x06].contains (leAt e.bytes 2 1)) fun s => endCtl s .tamperAbort
  | none => s

/-- Link key exchanges are abandoned (R707): a link being brought up stays DOWN, one that re-keys goes DOWN. -/
def abortLinks (s : State) : State :=
  allPorts.foldl (fun s p => if (portSt s p).link == .training || (portSt s p).rekeying then linkDown s p else s) s

/-- Every key operation in progress is aborted (R706 step 2, R707). -/
def abortKeyOps (s : State) : State :=
  let s := abortCtlKey (abortKey s)
  let s := s.when s.dig.hmacKey.isSome digEnd
  abortLinks (rngAbort (rngAbort s .a) .b)

/-- The requests in flight are settled (R708): what is not applied, and every mint, ends with TAMPER_ABORT; an applied verdict waits for its
group. -/
def settleReqs (s : State) : State :=
  (s.lane.reqs.map Prod.fst).foldl (fun s k =>
    match getReq s k with
    | some r =>
      if !r.applied then endReq s { r with hasSerial := r.hasSerial && !r.isMint } .tamperAbort
      else if r.isMint then endMint s r .tamperAbort
      else s
    | none => s) s

/-- Steps 1 to 4 of R706, level 1. -/
def stepsHalt (s : State) : State :=
  let s := pausePlane (s.onLed fun l => { l with stopApply := true })
  let s := settleReqs (abortKeyOps s)
  let s := closeGroup (closeGroup s true) false
  dbAlert (cause s 7)

/-- Zero every unwrapped key but the link and HBM keys (R706 step 6): key memory, the lanes' caches, the key holder, the DRBG. -/
def zeroKeys (s : State) : State :=
  let s := s.onKey fun k => { k with
    unwrapped := false, deviceKeys := false, holder := [], slots := tmap {} k.slots fun _ x => { x with material := [] } }
  let s := s.onLane fun b => { b with lanes := tmap {} b.lanes fun _ l => { l with cache := [] } }
  rngZero (digEnd s)

/-- The terms that the hot set holds for this node and its twin, unless it is STALE (07 R377, 12 R686). Either may be that of an abandoned attempt: the
view takes them until it learns what a neighbour's view says (R394, R868; log entry 121). -/
def loadTerms (s : State) : State :=
  let s := s.onFab fun b => { b with fromRecord := nodeAddr s :: if hasTwin s then [twinAddr s] else [] }
  if s.store.stale then s
  else
    let own := (hotGet s 8).toNat
    let twin := (hotGet s 9).toNat
    let s := onView (s.onFab fun b => { b with ownTerm := own }) (nodeAddr s) fun v => { v with term := own }
    if hasTwin s then onView (s.onFab fun b => { b with twinTerm := twin }) (twinAddr s) fun v => { v with term := twin } else s

/-- What the ledger engine, the fabric and HBM hold is gone with the HBM key and the links; window registers and counts stay. A command that still
ran ends INTERNAL_FAULT (log entry 32). -/
def loseHbm (s : State) : State :=
  let s := (s.lane.reqs.map Prod.fst).foldl (fun s k => match getReq s k with | some r => endReq s r .durabilityTimeout | none => s) s
  let s := s.when (s.hq.ctlWait.kind != .none) fun s => endWait s .durabilityTimeout
  let s := s.onHbm fun h => { events := h.events, publishing := h.publishing, retirements := h.retirements, cachePages := h.cachePages, trained := h.trained, corrected := h.corrected }
  let s := s.onLed fun l => {
    growTo := l.growTo, stopApply := l.stopApply, ledArgs := l.ledArgs, ledDone := l.ledDone || l.ledBusy, ledEarly := l.ledEarly
    ledCode := if l.ledBusy then .internalFault else l.ledCode, ledResult := l.ledResult }
  let s := s.onFab fun b => {
    ports := b.ports, grants := b.grants, keyXfer := b.keyXfer, discarded := b.discarded, timeOffsets := b.timeOffsets
    arg0 := b.arg0, arg1 := b.arg1, viewSel := b.viewSel, done := b.done || b.busy, code := if b.busy then .internalFault else b.code }
  loadTerms s

/-- Steps 8 and 9 of R706: WITHDRAW names the last durable own group; link keys and the HBM key are zeroed, every link goes DOWN. -/
def flushDone (s : State) : State :=
  s.when s.tmp.flushing fun s =>
    let s := s.when (!s.fab.withdrawn) withdraw
    let s := s.onTmp fun t => { t with withdrawn := true, flushing := false }
    let s := allPorts.foldl (fun s p => if (portSt s p).link == .down then s else linkDown s p) s
    loseHbm s

/-- Level 3 on a running main die (R706, R708, R709): the voile is wiped, the keys are zeroed and the main die is held in reset, without a
completion or a cause for the host. -/
def respondWipe (s : State) : State :=
  (mainReset (zeroKeys (wipeVoile (dbAlert s)))).onPow fun p => { p with state := .active }

/-- The steps that level `own` adds to those of level `old`, on a running main die (R701, R706). -/
def respond (s : State) (old own : Nat) : State :=
  if own = 3 then (if old < 3 then respondWipe s else s)
  else
    let s := s.when (decide (old < 1 ∧ 1 ≤ own)) stepsHalt
    s.when (decide (old < 2 ∧ own = 2)) fun s => (zeroKeys s).onTmp fun t => { t with flushing := true }

/-- A sensor alarms (R701, R706, R715, R717, R718). While the restart of R712 runs, the steps of level 2 are carried out again (log entry 33). -/
def tamperAlarm (s : State) (sensor : Nat) (measured : BitVec 32) : State :=
  if !sensorLive s sensor then s
  else
    let own := sensorLevel s sensor
    let cur := levelNow s
    let old := if s.tmp.restarting then min cur 1 else cur
    let s := s.onTmp fun t => { t with
      alarming := setBit t.alarming sensor true, counts := tupd 0 t.counts sensor (satInc 32), sensor := BitVec.ofNat 8 sensor }
    if !s.pow.standby then
      if own = 3 then
        wipeVoile (s.onTmp fun t => { t with level := 3, inForce := false, cleared := false, raisers := setBit t.raisers sensor true })
      else latchEvent s sensor
    else
      let s := logEvent s sensor (max own cur) own measured
      if own = 0 then s
      else
        let s := s.onTmp fun t => { t with
          level := BitVec.ofNat 2 (max own cur), inForce := decide (max own cur ≠ 3), cleared := false, raisers := setBit t.raisers sensor true
          restarting := t.restarting && decide (own = 1) }
        let s := mgtAlert s 1
        if s.pow.mainUp && (s.pow.bootStep ≥ 6 || own = 3) then respond s old own
        else
          -- boot before step 6, and KEEP
          let s := s.when (decide (own ≥ 2)) zeroKeys
          if own = 3 then wipeVoile s
          else s.onTmp fun t => { t with bootHeld := t.bootHeld || (s.pow.state != .keep && cur ≠ 3) }

/-- TAMPER_ALARM (R706). -/
def execTamperAlarm (sensor : Nat) (measured : BitVec 32) (s : State) : Result := done (tamperAlarm s sensor measured)

/-- TAMPER_FLUSH_DONE (R706 steps 8, 9). -/
def execTamperFlushDone (s : State) : Result := done (flushDone s)

/-! ### The end of a response (R705, R710-R713, R715) -/

/-- The restart of R712 begins: bits gathered from now on instantiate the DRBG, the key store is opened again (BOOT_KEY_STORE_OPEN), the new HBM
key and an empty page cache take the old ones' place once the DRBG serves (`hbmKey`), the journal is replayed and the links join again. -/
def startRestart (s : State) : State :=
  (s.onTmp fun t => { t with restarting := true }).onRng fun r => { r with full := false, entropy := [], nonce := [] }

/-- TAMPER_CLEAR (R705): every condition is absent. A level-3 response, and any before boot step 6 or in KEEP, ends here; a level-1 response waits
for HQ_PLANE, a level-2 response restarts the data plane. -/
def execTamperClear (s : State) : Result :=
  done (
    let s := s.onTmp fun t => { t with alarming := 0, raisers := 0 }
    if !respInForce s then s
    else if s.tmp.level = 3 || !s.pow.mainUp || s.pow.bootStep < 6 then
      let boot := s.tmp.bootHeld || (s.tmp.level == 3 && s.pow.standby && s.pow.state != .keep)
      let s := s.onTmp fun t => { t with level := 0, inForce := false, cleared := false, bootHeld := false, restarting := false, withdrawn := false }
      s.when boot mainStart
    else
      let s := s.onTmp fun t => { t with cleared := true }
      if s.tmp.level = 2 && !s.tmp.restarting then startRestart (flushDone s) else s)

/-- TAMPER_WITHDRAW_TIMER (R710): 100 ms of a level-1 response. -/
def execTamperWithdrawTimer (s : State) : Result :=
  done (s.when (s.tmp.inForce && s.tmp.level == 1 && !s.tmp.cleared && s.pow.mainUp && decide (s.pow.bootStep ≥ 6) && !s.fab.withdrawn) fun s =>
    withdraw (s.onTmp fun t => { t with withdrawn := true }))

/-- The end of the response in force. -/
def endResponse (s : State) : State :=
  s.onTmp fun t => { t with level := 0, inForce := false, cleared := false, restarting := false, withdrawn := false }

/-- A node that withdrew under a level-1 response re-joins (R711). -/
def rejoin (s : State) : State :=
  if !s.tmp.withdrawn then s
  else
    let s := onView (s.onFab fun b => { b with withdrawn := false }) (nodeAddr s) fun v => { v with member := true }
    flood s .join (nodeAddr s) (viewOf s (nodeAddr s)).term s.led.ownEnd

/-- HQ_PLANE open by the active core (R711, R712, 15 R793 step 12): it ends a response that has cleared, opens the data plane once every boot step
has ended on an OPERATIONAL device, or ends a pause; otherwise it is ignored. -/
def planeOpenCmd (s : State) : State :=
  if respInForce s then
    if !s.tmp.cleared then s
    else if s.tmp.level = 1 then
      let s := endResponse (rejoin s)
      if s.hq.open_ then s.when (!s.pow.pwrfail) resumePlane
      else if stepsDone s && operational s && s.pow.bootStep == 11 then openData s
      else (s.onHq fun h => { h with paused := false }).onLed fun l => { l with stopApply := false }
    else if stepsReady s && operational s then openData (endResponse s)
    else s
  else if s.hq.open_ then s.when (s.hq.paused && !s.hq.pausedPwrfail && !s.pow.pwrfail) resumePlane
  else s.when (stepsDone s && operational s && s.pow.bootStep == 11) openData

/-- HQ_PLANE_OPEN (R711). -/
def execHqPlaneOpen (c : CoreId) (s : State) : Result := done (winCmd s c 0x9810 true planeOpenCmd)

/-! ### External loops, boundary scan, the Gatehouse link -/

/-- TAMPER_LOOP_TICK (R704, 16 R838): the loop's output changes to `next` and the input, sampled after the change, is compared with it. An input
unchanged through two successive changes of the output sits at a rail. -/
def execTamperLoopTick (n : Nat) (next sampled : Bool) (s : State) : Result :=
  done (s.when (decide (n < 4) && s.par.loops.getLsbD n) fun s =>
    let turned := s.tmp.loopOut.getLsbD n != next
    let stuck := if !turned then tget 0 s.tmp.loopStuck n else if s.tmp.loopIn.getLsbD n == sampled then tget 0 s.tmp.loopStuck n + 1 else 0
    let s := s.onTmp fun t => { t with
      loopOut := setBit t.loopOut n next, loopIn := setBit t.loopIn n sampled, loopStuck := tput 0 t.loopStuck n (min stuck 2) }
    s.when (sampled != next || decide (stuck ≥ 2)) fun s => tamperAlarm s (0x18 + n) 0)

/-- JTAG_UPDATE_IR (R716). -/
def execJtagUpdateIr (ir : BitVec 8) (extest : Bool) (s : State) : Result :=
  done (s.when s.pow.standby fun s =>
    let s := s.onPow fun p => { p with jtagIr := ir }
    s.when extest fun s => tamperAlarm s 0x17 0)

/-- Does a frame of the Gatehouse link authenticate under the session key (01 R18)? -/
def authentic (s : State) (body : Bytes) (tag : BitVec 128) : Bool := Config.linkTag s.pow.linkSession body == tag

/-- GATEHOUSE_LINK_FRAME_RX (01 R18, R19, R702 sensor 0x16): 16 failures within 1 ms alarm. -/
def execGatehouseLinkFrameRx (body : Bytes) (tag : BitVec 128) (s : State) : Result :=
  done (s.when (s.pow.linkUp && !authentic s body tag) fun s =>
    let s := s.onPow fun p => { p with linkBad := p.linkBad + 1, linkBadMs := p.linkBadMs + 1 }
    s.when (decide (s.pow.linkBadMs ≥ 16)) fun s => tamperAlarm (s.onPow fun p => { p with linkBadMs := 0 }) 0x16 0)

/-- TAMPER_N (R714): low from step 4 until the response ends, and after a level-3 response until the device leaves VEILED. -/
def tamperPin (s : State) : Bool := !(respInForce s || (s.tmp.wipedVoile && lifecycle s == 4))

end Sys2Proof.Machine
end

