-- ==== Sys2Proof/Machine/Recovery.lean ====
section
/-! DEFINITION. The record store at power-up (12 R669-R674, R684, R685) and the ends of its appends (12 R654, R657-R661). -/

namespace Sys2Proof.Machine

/-! ### Recovery (R673) -/

/-- The sectors of a run that are in use, and what their headers say: erase count and sequence, or none where the header cannot be read. -/
def headersOf (rd : Nat → Bytes) (secs : List Nat) : List (Nat × Option (Nat × Nat)) :=
  (secs.filter fun n => rd (pageNo n 0) != blankPage).map fun n => (n, sectorHeader (rd (pageNo n 0)))

/-- Put a sector into its place by sequence. -/
def bySeq (x : Nat × Nat × Nat) : List (Nat × Nat × Nat) → List (Nat × Nat × Nat)
  | [] => [x]
  | y :: t => if x.2.2 ≤ y.2.2 then x :: y :: t else y :: bySeq x t

/-- What a scan of a run of sectors finds: those to erase at once, since their release word is programmed; records in append order; sectors closed at a torn
header; the append point; and for each readable sector its erase count and sequence. -/
structure Scan where
  released : List Nat := []
  found : List Record := []
  torn : List Nat := []
  free : Option (Nat × Nat) := none
  heads : List (Nat × Nat × Nat) := []
  deriving DecidableEq, Repr

/-- Scan a run of sectors in the order of their sequence (R673). A sector whose header cannot be read is closed like one with a torn header (log entry 136). -/
def scanRun (rd : Nat → Bytes) (part : BitVec 2) (secs : List Nat) : Scan :=
  let hs := headersOf rd secs
  let released := (hs.filter fun h => markAt (rd (pageNo h.1 0)) == 0).map Prod.fst
  let good := (hs.filter fun h => !released.contains h.1).filterMap fun h => h.2.map fun x => (h.1, x)
  let order := good.foldr bySeq []
  let scans := order.map fun h => (h.1, scanSector rd part h.1 63 1)
  { released := released, found := scans.flatMap fun x => x.2.1
    torn := (hs.filter fun h => !released.contains h.1 && h.2.isNone).map Prod.fst ++ (scans.filter fun x => x.2.2.isNone).map Prod.fst
    free := match scans.getLast? with
      | some (n, _, some p) => if p < 64 then some (n, p) else none
      | _ => none
    heads := order }

/-- The commit words of a run (R673, R674): the last record's, if present, is programmed again, and one that is neither present nor dead is killed. -/
def recoverMarks (s : State) (rs : List Record) : State × List Record :=
  rs.zipIdx.foldl (fun x p =>
    match p.1.mark with
    | .present => (x.1.when (p.2 + 1 == rs.length) (progMark · p.1 commitWord), x.2 ++ [p.1])
    | .absent => (progMark x.1 p.1 0, x.2 ++ [{ p.1 with mark := .dead, inTxn := false }])
    | .dead => (x.1, x.2 ++ [p.1])) (s, [])

/-- The runs of sectors that are scanned: the partitions, and the save area of SYSTEM apart. -/
def scanRuns : List (BitVec 2 × List Nat) :=
  [(1, (List.range 768)), (2, (List.range 128).map (768 + ·)), (3, [896, 897]), (3, (List.range 126).map (898 + ·))]

/-- One run of the recovery: released sectors are erased, marks settled, records indexed, the append point found. The append point of the save area is not
one of SYSTEM. -/
def recoverRun (rd : Nat → Bytes) (s : State) (run : BitVec 2 × List Nat) : State :=
  let x := scanRun rd run.1 run.2
  let m := recoverMarks s x.found
  x.released.foldl eraseSector (m.1.onStore fun r => { r with
    recs := r.recs ++ m.2
    sectors := x.heads.foldl (fun t h => tupd {} t h.1 fun y => { y with erased := false, erasing := false, eraseCount := h.2.1, seq := h.2.2 }) r.sectors
    cur := if run.2.head? = some 896 then r.cur else tput none r.cur run.1.toNat x.free })

/-- A record with a transaction number belongs to an open transaction until a later TX_DONE of its partition names it. -/
def closeTxns (rs : List Record) : List Record :=
  rs.zipIdx.map fun p => if p.1.inTxn && (rs.drop (p.2 + 1)).any (fun x => x.typ == 0x0002 && x.part == p.1.part && x.id == p.1.txn && committed x)
    then { p.1 with inTxn := false } else p.1

/-- An INTENT with no TX_DONE: TX_DONE is appended when every part is committed; else its parts and the INTENT are made dead. -/
def settleIntent (s : State) (i : Record) : State :=
  let mine := fun (x : Record) => x.inTxn && x.part == i.part && x.txn == i.txn && committed x
  if (s.store.recs.filter fun x => mine x && x.typ != 0x0001).length ≥ intentParts i then txnDone s i.part i.txn
  else killRecs s mine

/-- The array is read, its marks are settled and the records are indexed (R673). -/
def recoverArray (s : State) (flips : List (Nat × Nat)) : State × List Nat :=
  let rd := pageRead s flips
  let torn := scanRuns.flatMap fun run => (scanRun rd run.1 run.2).torn
  let s := scanRuns.foldl (recoverRun rd) (s.onStore fun r => { r with recs := [], cur := [], txns := [] })
  let s := s.onStore fun r => { r with recs := closeTxns r.recs, torn := none }
  let s := (s.store.recs.filter fun r => r.typ == 0x0001 && r.inTxn && committed r).foldl settleIntent s
  (s.onStore fun r => { r with logs := (r.recs.filter fun x => isLog x.typ && committed x).foldl (fun t x => tupd 0 t x.typ.toNat (max x.id)) [] }, torn)

/-- Sequences of a key, downwards from the highest, that are CONFLICTED or have no readable copy, up to the version used (R669-R671). -/
def conflictsFrom (rs : List Record) : Nat → List Nat
  | 0 => []
  | n + 1 =>
    match rs.filter fun r => r.seq == n + 1 with
    | [] => conflictsFrom rs n
    | c :: cs =>
      match (c :: cs).filter fun r => !r.bad with
      | [] => (n + 1) :: conflictsFrom rs n
      | a :: t =>
        if t.any fun b => b.payload != a.payload && b.corr == a.corr then (if isCounter a.typ then [n + 1] else (n + 1) :: conflictsFrom rs n)
        else []

/-- A CONFLICT record for each such version (R669-R671). -/
def logConflicts (s : State) : State :=
  let present := s.store.recs.filter fun r => r.mark == .present && r.typ != 0x0001 && r.typ != 0x0002
  let keys := (present.map fun r => (r.part, idSpace r.typ, r.id)).dedup
  keys.foldl (fun s k =>
    let rs := present.filter fun r => r.part == k.1 && idSpace r.typ == k.2.1 && r.id == k.2.2
    (conflictsFrom rs (topSeq rs)).foldl (fun s n =>
      append s .gatehouse 3 0x030A 0 (leBytes 1 k.1.toNat ++ [0] ++ leBytes 2 k.2.1.toNat ++ leBytes 4 k.2.2 ++ leBytes 4 n)) s) s

/-- The hot set after recovery (R685): as it stands when it kept VSTBY, else from the newest save, STALE when that save is not of the power-up
before. The Gatehouse's own counts follow (R679). -/
def recoverHot (s : State) (prev : Nat) : State :=
  let s := if s.store.hotKept then s.onStore fun r => { r with stale := false }
    else match newestSave s with
      | some r => s.onStore fun x => { x with hot := loadSave r.payload, stale := decide (leAt r.payload 4 4 ≠ prev) }
      | none => s.onStore fun x => { x with hot := [], stale := true }
  let s := hotPut s 1 (BitVec.ofNat 64 (prev + 1))
  let s := hotPut s 3 (hotGet s 3 + BitVec.ofNat 64 (s.store.vbatUs / 1000000))
  s.onStore fun r => { r with hotKept := true, vbatUs := r.vbatUs % 1000000 }

/-- The save-area sector that does not hold the newest save is erased, if it is in use (R684). -/
def clearSaveArea (s : State) : State :=
  let keep := (newestSave s).map (·.sector)
  ([896, 897].filter fun n => some n != keep && !(sectorOf s n).erased).foldl eraseSector s

/-- The Gatehouse copy of the unit table, rebuilt from the latest UNIT_ENTRY of each unit when it was lost with VSTBY (09 R859). -/
def rebuildGate (s : State) : State :=
  if !s.unit.gate.isEmpty then s
  else
    let one := fun (acc : Tbl UnitEnt × Nat) (u : Nat) =>
      match latest s 1 0x0107 u with
      | some r =>
        let w := leAt r.payload 0 4
        match ustOf (w % 8) with
        | some st => (tput {} acc.1 u { st := st, lanes := BitVec.ofNat 2 (w / 8), reason := BitVec.ofNat 8 (w / 256) }, max acc.2 (leAt r.payload 4 8))
        | none => acc
      | none => acc
    let t := ((List.range 128).filter (unitFitted s.pow.variant)).foldl one (freshUnits s.pow.variant, 0)
    s.onUnit fun m => { m with gate := t.1, gateVersion := t.2 }

/-- RECORD_STORE_RECOVERY_DONE (R673, R684, R685, 13 R721, 15 R793 step 1). Recovery does not end while a supply warning stands (R866). -/
def execRecordStoreRecoveryDone (f : RecoveryFind) (s : State) : Result :=
  done (s.when (s.pow.standby && s.pow.vstby && !s.pow.pwrfail && !s.store.ready) fun s =>
    let x := recoverArray s f.flips
    let s := x.1.onStore fun r => { r with ready := true }
    let prev := match latest s 3 0x0301 0 with | some r => leAt r.payload 0 4 | none => 0
    let s := rebuildGate (recoverHot s prev)
    let s := s.onStore fun r => { r with powerUps := prev + 1 }
    let s := append s .gatehouse 3 0x0301 0 (leBytes 4 (prev + 1) ++ [Config.powerUpCause (prev + 1)] ++ zeros 3 ++ leBytes 8 s.time.us)
    mainStart (x.2.foldl evacuate (flushLatch (logConflicts (clearSaveArea s)))))

/-! ### Graward responses (14 R726, R729, R732, R740), and a proposal that waited for its record (R753) -/

/-- The bytes after an MCTP type byte of a Graward message begin with the enterprise number (14 R726). -/
def enterprise : Bytes := [0x00, 0x03, 0x7A, 0x11]

/-- A response goes out to the source of the message taken. -/
def sendMsg (s : State) (m : MgtMsg) (b : Bytes) : State := s.onOut fun o => { o with mctp := o.mctp ++ [{ m with bytes := b }] }

/-- Header of a message. -/
def gHead (b : Bytes) : Bytes := cut b 5 12

/-- A response (14 R732, R740). -/
def gReply (s : State) (m : MgtMsg) (st : Nat) (detail : BitVec 16) (body : Bytes) : State :=
  let h := gHead m.bytes
  sendMsg s m ([0x7F] ++ enterprise ++ [1] ++ cut h 1 1 ++ [1] ++ cut h 3 1 ++ leBytes 1 st ++ [0] ++ leBytes 2 body.length
    ++ leBytes 2 detail.toNat ++ zeros 2 ++ body)

/-- The PROPOSAL record of the oldest proposal that waits has been committed, or has failed (14 R753; log entry 133): its post is queued and the response
DONE goes out, or it is answered UNIT_ABSENT. -/
def proposed (s : State) (ok : Bool) : State :=
  match s.mgt.proposals with
  | (m, p) :: rest =>
    let s := s.onMgt fun x => { x with proposals := rest }
    if ok then gReply (post s p) m 0 0 [] else gReply s m 0x04 0 []
  | [] => s

/-! ### Ends of appends -/

/-- APPEND_PRECONDITIONS_MET (R657, R658): HOLDCAP holds 4.5 V, and the append at the head of the queue begins. -/
def execAppendPreconditionsMet (s : State) : Result :=
  done (s.when (s.pow.standby && s.pow.vstby) fun s => mainStart (ctlGo (beginHead (s.onStore fun r => { r with holdcapOk := true }))))

/-- What waits for a record goes on once it is committed: the opening of a lease (02 R52), the mirrored ceiling (02 R53), a checkpoint (06 R328), a
unit change (09 R505), a roll (10 R536), the RECEIPT of a key (10 R587), a REKEY (10 R588), a proposal (14 R753). -/
def afterAppend (s : State) (a : Append) : State :=
  let s := (s.when a.win (recEnd · .done)).when (a.src == .key) keyRecorded
  match a.record.typ.toNat with
  | 0x0104 => if a.src = .ledger then leaseCommitted s a.record.payload else s
  | 0x0105 => if a.src = .ledger then leaseMirrorCommitted s a.record.payload else s
  | 0x0303 => if a.src = .ledger then keepAdvance (checkpointCommitted s) else s
  | 0x0107 => entryCommitted s a.record.id a.record.payload
  | 0x0304 => match s.led.rollWait with
    | some e => if leAt a.record.payload 0 4 = s.key.rollCount + 1 then writeRoll s e else s
    | none => s
  | 0x0101 => if a.src = .key then keyReceipt s a.record.id else s
  | 0x0103 => s.when s.key.rekeyDue fun s => unveil (s.onKey fun k => { k with rekeyDue := false })
  | 0x0201 => proposed s true
  | _ => s

/-- An append ended INTERNAL_FAULT (R660, R661). A checkpoint whose record is lost is given up; a unit change goes on, since a record store no longer
in service is not waited for (log entry 39). -/
def failAppend (s : State) (a : Append) : State :=
  let s := (s.when a.win (recEnd · .internalFault)).when (a.src == .key) keyRecorded
  match a.record.typ.toNat with
  | 0x0303 =>
    let s := s.onLed fun l => { l with ckptRun := none, ckptWritten := false }
    if s.led.ledCkpt then
      irqMain (s.onLed fun l => { l with ledCkpt := false, ledBusy := false, ledDone := true, ledCode := .internalFault }) 13
    else s
  | 0x0107 => entryCommitted s a.record.id a.record.payload
  | 0x0106 => if s.hq.ctlHeld then endCtl s .internalFault else s
  | 0x0304 => if s.led.rollWait.isSome then failRoll s else s
  | 0x0201 => proposed s false
  | 0x0001 => s.onStore fun r => { r with txns := tput none r.txns (srcKey a.src) none }
  | 0x0101 | 0x0102 =>
    let s := match s.key.cmdRun with | some r => dropHandle s r | none => s
    s.onKey fun k => { k with cmdRun := k.cmdRun.map fun r => { r with code := .internalFault, handle := none, out := [] } }
  | _ => s

/-- REC_APPEND_COMMIT (R654, R658, R660, R661): the programming of the append at the head of the queue ends with its verify read. With no room in
its partition the append waits while compaction goes on, and fails when that brings none. -/
def execRecAppendCommit (verify : Bool) (s : State) : Result :=
  done (match s.store.queue with
    | a :: rest =>
      if !s.pow.standby || !a.begun || a.stopped then s
      else
        let popped := s.onStore fun r => { r with queue := rest }
        let noRoom := if roomComes (compact s a.record.part) a.record.part then compact s a.record.part else ctlGo (beginHead (failAppend (storeFault popped) a))
        if verify then
          match commitRec popped a.src a.record with
          | some t => ctlGo (beginHead (afterAppend t a))
          | none => noRoom
        else
          match writeDead s a.record with
          | some dead =>
            if a.tries = 0 then dead.onStore fun r => { r with queue := { a with tries := 1 } :: rest }
            else ctlGo (beginHead (failAppend (observe (dead.onStore fun r => { r with queue := rest }) 0x50 .failed 2 0x01) a))
          | none => noRoom
    | [] => s)

end Sys2Proof.Machine
end

