-- ==== Sys2Proof/Machine/Image.lean ====
section
/-! DEFINITION. The Daxi image (15 R773-R783): its header, sections, parameters, packages and signatures, and the ten checks of a bank. -/

namespace Sys2Proof.Machine

/-- An entry of the section table (R773): type, offset, length. -/
structure SecEntry where
  typ : Nat := 0
  offset : Nat := 0
  length : Nat := 0
  deriving DecidableEq, Repr

def bankSeq (h : Bytes) : Nat := leAt h 8 8
def bankLength (h : Bytes) : Nat := leAt h 16 4

/-- The entries of the section table in use. -/
def secTable (h : Bytes) : List SecEntry :=
  (List.range (min 6 (leAt h 5 1))).map fun i =>
    { typ := leAt h (24 + 16 * i) 1, offset := leAt h (28 + 16 * i) 4, length := leAt h (32 + 16 * i) 4 }

def secEntry (h : Bytes) (typ : Nat) : Option SecEntry := (secTable h).find? fun e => e.typ == typ

/-- A section's bytes as they streamed. -/
def secBytes (b : Bank) (typ : Nat) : Bytes :=
  if typ = 1 then fit 256 b.header
  else match secEntry b.header typ with
    | some e => (match b.sections.find? fun x => x.typ == typ && x.offset == e.offset with | some x => fit e.length x.bytes | none => zeros e.length)
    | none => []

def hasSec (b : Bank) (typ : Nat) : Bool := typ == 1 || (secEntry b.header typ).isSome

/-- Bit of a variant in the HEADER (R773). -/
def variantBit : Variant → Nat
  | .slx4816 => 0
  | .slx4812 => 1
  | .slx4806 => 2

/-- Check 4 on the entries, in order (R774, R775). -/
def tableOk : Nat → Nat → List SecEntry → Bool
  | _, _, [] => true
  | prev, stop, e :: t =>
    decide (prev < e.typ) && decide (2 ≤ e.typ ∧ e.typ ≤ 7) && decide (1 ≤ e.length) && decide (e.offset % 4096 = 0)
      && decide (4096 ≤ e.offset) && decide (stop ≤ e.offset) && tableOk e.typ (e.offset + e.length) t

/-- Checks 1 to 4 on the HEADER alone (R783): the order number of the first that fails. -/
def headerFail (v : Variant) (h : Bytes) : Option Nat :=
  let n := leAt h 5 1
  let t := secTable h
  let rsv := zeroAt h 20 4 && zeroAt h 120 136 && (List.range 6).all fun i => zeroAt h (25 + 16 * i) 3 && zeroAt h (36 + 16 * i) 4
  let unused := ((List.range 6).filter (n ≤ ·)).all fun i => zeroAt h (24 + 16 * i) 16
  let last := match t.getLast? with | some e => e.offset + e.length | none => 0
  if h.length ≠ 256 ∨ h.take 4 ≠ ascii "DAXI" ∨ leAt h 4 1 ≠ 1 then some 1
  else if !(leAt h 6 2).testBit (variantBit v) ∨ leAt h 6 2 ≥ 8 ∨ !rsv ∨ bankSeq h = 0 then some 2
  else if bankLength h > 0x02000000 then some 3
  else if n < 3 ∨ 6 < n ∨ !unused ∨ !tableOk 1 256 t ∨ last ≠ bankLength h ∨ ([2, 3, 7].any fun k => !(t.any fun e => e.typ == k)) then some 4
  else none

/-- The words of a firmware section after its segment header. -/
def fwWords : Bytes → List (BitVec 16)
  | a :: b :: t => BitVec.ofNat 16 (a.toNat + 256 * b.toNat) :: fwWords t
  | _ => []

/-- Check 5 on one firmware section (R776): its load address and most words. -/
def fwOk (b : Bytes) (load most : Nat) : Bool :=
  let n := leAt b 2 2
  decide (8 ≤ b.length) && decide (leAt b 0 2 = load) && decide (1 ≤ n) && decide (n ≤ most) && zeroAt b 4 4 && decide (b.length = 8 + 2 * n)
    && (fwWords (b.drop 8)).all fun w => decide (w.toNat < 2 ^ 14)

def sectionsOk (b : Bank) : Bool :=
  fwOk (secBytes b 2) 0x0800 8192 && fwOk (secBytes b 3) 0x0800 6144 && (!hasSec b 6 || fwOk (secBytes b 6) 0x2800 6144)

/-! ### Parameters (R778, R790, R791) -/

/-- The records of OWNER_PARAMS, which fill it exactly; `n` bounds their number. -/
def paramRecs : Nat → Bytes → Option (List (Nat × Bytes))
  | _, [] => some []
  | 0, _ => none
  | n + 1, b =>
    let len := leAt b 2 2
    let padded := (len + 3) / 4 * 4
    if b.length < 4 + padded || !zeroAt b (4 + len) (padded - len) then none
    else (paramRecs n (b.drop (4 + padded))).map fun t => (leAt b 0 2, cut b 4 len) :: t

/-- Size of a parameter, and whether a value is in its range (R790); none: no such id. Extents are checked for node `node` (07 R345, R346). -/
def paramOk (variant : Variant) (node : Nat) (id : Nat) (v : Bytes) : Bool :=
  let x := leNat v
  let size := fun (n : Nat) => v.length == n
  if id = 0x0001 then size 1 && decide (x ≤ 2)
  else if id = 0x0002 then
    size 3 && v.all (fun e => decide (1 ≤ e.toNat ∧ e.toNat ≤ 16)) && (decide (leAt v 0 1 % 2 = 0) || leAt v 0 1 == 1)
      && (variant != .slx4806 || (leAt v 1 1 == 1 && leAt v 2 1 == 1))
      && decide (nodeX node < leAt v 0 1) && decide (nodeY node < leAt v 1 1) && decide (nodeZ node < leAt v 2 1)
  else if id = 0x0003 then size 2 && (decide (5 ≤ x ∧ x ≤ 1023) || x == 0xFFFF)
  else if id = 0x0004 then size 4 && decide (x ≤ 527040)
  else if id = 0x0010 then size 1 && decide (x ≤ 2)
  else if id = 0x0020 then size 1 && decide (0x08 ≤ x ∧ x ≤ 0x77)
  else if id = 0x0030 then size 4 && (x == 0 || decide (10 ≤ x ∧ x ≤ 3600000))
  else if id = 0x0031 then size 4 && (x == 0 || decide (60 ≤ x ∧ x ≤ 2592000))
  else if id = 0x0032 then size 1
  else if id = 0x0040 then size 8 && v.all fun e => decide (e.toNat ≤ 3)
  else if 0x0100 ≤ id ∧ id ≤ 0x011B then size 1 && decide (x ≤ 3)
  else if id = 0x0120 then size 1 && decide (x < 16)
  else false

def paramsOk (variant : Variant) (node : Nat) (l : List (Nat × Bytes)) : Bool :=
  l.all (fun p => paramOk variant node p.1 p.2) && decide ((l.map Prod.fst).Nodup)

/-- One parameter put into effect. -/
def setParam (p : Params) (r : Nat × Bytes) : Params :=
  let x := leNat r.2
  match r.1 with
  | 0x0001 => { p with policy := BitVec.ofNat 2 x }
  | 0x0002 => { p with extX := leAt r.2 0 1, extY := leAt r.2 1 1, extZ := leAt r.2 2 1 }
  | 0x0003 => { p with fabKey := BitVec.ofNat 16 x }
  | 0x0004 => { p with grace := x }
  | 0x0010 => { p with rngMode := BitVec.ofNat 2 x }
  | 0x0020 => { p with smbus := BitVec.ofNat 7 x }
  | 0x0030 => { p with napAfter := x }
  | 0x0031 => { p with keepAfter := x }
  | 0x0032 => { p with wakeGpio := BitVec.ofNat 8 x }
  | 0x0040 => { p with gpioMode := tputs 0 [] 0 (r.2.map fun e => BitVec.ofNat 2 e.toNat) }
  | 0x0120 => { p with loops := BitVec.ofNat 4 x }
  | id => if 0x0100 ≤ id ∧ id ≤ 0x011B then { p with levels := tput none p.levels (id - 0x0100) (some (BitVec.ofNat 2 x)) } else p

/-- The parameters of an image over the factory defaults. -/
def imageParams (b : Bank) : Params :=
  match paramRecs (secBytes b 4).length (secBytes b 4) with
  | some l => l.foldl setParam {}
  | none => {}

/-! ### Packages and signatures (R779-R782) -/

/-- The packages of OWNER_KEYS, which fill it exactly; `n` bounds their number. -/
def packages : Nat → Bytes → Option (List Bytes)
  | _, [] => some []
  | 0, _ => none
  | n + 1, b =>
    let len := 152 + 112 * leAt b 6 2
    if b.length < len ∨ b.take 4 ≠ ascii "SXEN" ∨ leAt b 4 1 ≠ 1 ∨ leAt b 6 2 > 1024 then none
    else (packages n (b.drop len)).map fun t => b.take len :: t

/-- The package that boot step 6 acts on (R779). -/
def ownPackage (s : State) (b : Bytes) : Option Bytes :=
  ((packages b.length b).getD []).find? fun p => leAt p 8 8 == s.pow.unit.toNat

/-- Check 8: one or two well-formed entries, each signer at most once (R780). -/
def signaturesOk (b : Bytes) : Bool :=
  let one := fun (e : Bytes) => (leAt e 0 1 == 1 || leAt e 0 1 == 2) && zeroAt e 1 3 && decide (leAt e 4 4 < 128) && !(leAt e 4 4).testBit 0
  (b.length == 104 && one b) || (b.length == 208 && one b && one (b.drop 104) && leAt b 0 1 != leAt b 104 1)

/-- A signer's entry. -/
def sigEntry (b : Bank) (signer : Nat) : Option Bytes :=
  let g := secBytes b 7
  ([g.take 104, g.drop 104].filter fun e => e.length == 104).find? fun e => leAt e 0 1 == signer

/-- SHA-384 of a section (R610). -/
def secDigest (b : Bank) (typ : Nat) : Bytes := bvBytes (Config.sha384 (secBytes b typ))

/-- The signed message (R781). -/
def sigMessage (b : Bank) (e : Bytes) : Bytes :=
  ascii "SXSG" ++ cut e 0 1 ++ leBytes 8 (bankSeq b.header) ++ leBytes 4 (bankLength b.header) ++ cut e 4 4
    ++ ([1, 2, 3, 4, 5, 6].filter fun t => (leAt e 4 4).testBit t).flatMap (secDigest b)

/-- An entry covers every section named, none that the bank does not hold, and its signature verifies (R782; log entry 42). -/
def sigCovers (b : Bank) (e : Bytes) (need : List Nat) : Bool :=
  need.all (fun t => (leAt e 4 4).testBit t) && ([1, 2, 3, 4, 5, 6].all fun t => !(leAt e 4 4).testBit t || hasSec b t)
    && Config.ed25519Verify (cut e 8 32) (sigMessage b e) (cut e 40 64)

/-- Check 9. -/
def vendorOk (b : Bank) : Bool :=
  match sigEntry b 1 with
  | some e => Config.sha384 (cut e 8 32) == Config.vendorHash && sigCovers b e [1, 2, 3]
  | none => false

/-- The owner sections a bank holds. -/
def ownerSecs (b : Bank) : List Nat := [4, 5, 6].filter (hasSec b)

/-- Check 10. -/
def ownerOk (s : State) (b : Bank) : Bool :=
  if (ownerSecs b).isEmpty then true
  else match sigEntry b 2 with
    | none => false
    | some e =>
      sigCovers b e (1 :: ownerSecs b) &&
        match s.key.ownerHash with
        | some h => bvBytes (Config.sha384 (cut e 8 32)) == h
        | none => lifecycle s == 1 && (match ownPackage s (secBytes b 5) with | some p => cut p 56 32 == cut e 8 32 && leAt p 5 1 == 1 | none => false)

/-- The order number of the first check of R783 that a bank fails, for a node address. -/
def bankFail (s : State) (b : Bank) : Option Nat :=
  match headerFail s.pow.variant b.header with
  | some n => some n
  | none =>
    if !sectionsOk b then some 5
    else if !(match paramRecs (secBytes b 4).length (secBytes b 4) with | some l => paramsOk s.pow.variant (nodeAddr s) l | none => false) then some 6
    else if (packages (secBytes b 5).length (secBytes b 5)).isNone then some 7
    else if !signaturesOk (secBytes b 7) then some 8
    else if !vendorOk b then some 9
    else if !ownerOk s b then some 10
    else none

/-! ### What a bank loads -/

/-- Program words are kept xor 0x079F, so that RAM with nothing loaded reads 0x079F (R777). -/
def loadWords (t : Tbl (BitVec 14)) (addr : Nat) (b : Bytes) : Tbl (BitVec 14) :=
  tputs 0 t addr ((fwWords (b.drop 8)).map fun w => w.setWidth 14 ^^^ 0x079F)

/-- The program of Serge A and B: VENDOR_FW_A and, where present, OWNER_FW. -/
def progAB (b : Bank) : Tbl (BitVec 14) :=
  let t := loadWords [] 0x0800 (secBytes b 2)
  if hasSec b 6 then loadWords t 0x2800 (secBytes b 6) else t

/-- The program of Serge G. -/
def progG (b : Bank) : Tbl (BitVec 14) := loadWords [] 0x0800 (secBytes b 3)

/-- The pending digests of a bank, by section type (R610). -/
def bankDigests (b : Bank) : Tbl Bytes := ([1, 2, 3, 4, 5, 6].filter (hasSec b)).map fun t => (t, secDigest b t)

end Sys2Proof.Machine
end

