-- ==== Sys2Proof/Machine/Boot.lean ====
section
/-! DEFINITION. The start of the main die (15 R784-R797, 09 R508-R511, R859): the release of its reset, the Gatehouse link, the image bank; and
the adoption of a staged image (14 R762, 09 R518, 11 R613-R615), with the drained units that its last steps wait for (09 R503). -/

namespace Sys2Proof.Machine

/-! ### Units at a start -/

/-- Record a unit's state under R505: table version, UNIT_ENTRY, and once that is committed Gatehouse copy and DB_TABLE (01 R30, 09 R505, R859). -/
def recordUnit (s : State) (u : Nat) : State :=
  let e := unitEnt s u
  let v := s.unit.version + 1
  let s := s.onUnit fun m => { m with version := v }
  let now := appendsNow s || !unitActive s 0x50 || u == 0x50
  let s := append s (.serge s.unit.active) 1 0x0107 u (leBytes 4 (entryWord e.st e.lanes e.reason).toNat ++ leBytes 8 v)
  if now then publishEntry s u e v else s

/-- A test of the start decides a unit's state (15 R794, 09 R859). -/
def bootUnit (s : State) (u : Nat) (st : UState) (reason : Byte) : State :=
  if unitSt s u = .absent then s else recordUnit (setUnit s u st reason) u

/-- The state a recorded state is restored as (09 R859). -/
def restoredAs : UState → UState
  | .draining => .retired
  | .disputed => .retired
  | .testing => .retired
  | st => st

/-- Every unit's state from the Gatehouse copy (09 R859). -/
def restoreUnits (s : State) : State :=
  let one := fun (s : State) (u : Nat) =>
    let e := tget {} s.unit.gate u
    let s := setUnit s u (restoredAs e.st) e.reason
    s.onUnit fun m => { m with tbl := tupd {} m.tbl u fun x => if x.st = .absent then x else { x with lanes := e.lanes, stopped := false, drained := false } }
  let s := ((List.range 128).filter fun u => unitSt s u != .absent).foldl one s
  let s := allPorts.foldl (fun s p => onPort s p fun l => { l with lanesRetired := (unitEnt s (0x20 + portIdx p)).lanes }) s
  s.onUnit fun m => { m with version := m.gateVersion }

/-- The control core records each restored state that differs from its record (09 R859). -/
def recordRestored (s : State) : State :=
  ((List.range 128).filter fun u => unitSt s u != .absent).foldl (fun s u =>
    let old := match latest s 1 0x0107 u with | some r => ustOf (leAt r.payload 0 4 % 8) | none => some .active
    if old = some (unitSt s u) then s else recordUnit s u) s

/-! ### Entry to program RAM (09 R508-R510) -/

/-- A core enters program RAM at 0x0800 with the state of R509 and ID_LOCK set. -/
def enterRam (s : State) (c : CoreId) (kind : BitVec 2) : State :=
  let role := if s.unit.active = c ∨ c = .g then 0 else 1
  let seq := if kind = 1 then s.pow.stagedSeq else s.pow.imageSeq
  let s := coreUpd s c fun k => setPc c 0x800 { k with
    acc := intW (BitVec.ofNat 32 (role + 2 * kind.toNat)), x := daddrW 0x7FE0, y := intW (BitVec.ofNat 32 seq), lr := {}
    dp := 0, ie := false, eiNext := false, st := .normal, repc := 0, rep := none, waiting := false, startKind := kind }
  s.onUnit fun m => { m with irqEn := tput 0 m.irqEn (coreIdx c) 0 }

/-- A core that is out of reset and stands in its boot ROM. -/
def inRom (s : State) (c : CoreId) : Bool := !(coreGet s c).inRam && !(coreGet s c).inReset && !(coreGet s c).halted

/-- Load a core's program RAM (09 R510, 15 R777); `owner`: the image holds OWNER_FW for it (09 R520). -/
def loadProg (s : State) (c : CoreId) (p : Tbl (BitVec 14)) (owner : Bool) : State :=
  coreUpd s c fun k => if k.idLock then k else { k with prog := p, ownerFw := owner }

/-! ### The release of main-die reset (15 R793 step 2, R794, R821) -/

/-- The noise bank's start-up test begins on the first source in service; with none the bank is FAILED (11 R622, R626). -/
def startNoise (s : State) : State :=
  match (List.range 4).find? fun n => unitActive s (sourceUnit n) with
  | some n => s.onRng fun r => { r with bank := .starting, source := n }
  | none => observe (s.onRng fun r => { r with bank := .failed }) 0x44 .failed 2 0x0B

/-- The roles and resets of the control cores at a start (09 R508 step 1, 01 R40). -/
def startCores (s : State) : State :=
  let out := fun (u : Nat) => unitSt s u == .retired || unitSt s u == .failed
  let s := s.onUnit fun m => { m with active := if out 0x30 then .b else .a, gave := false }
  let s := coreUpd s .a fun k => { k with inReset := out 0x30 }
  coreUpd s .b fun k => { k with inReset := out 0x31 }

/-- SHA-384 of a boot ROM: its 2,048 words as 2 bytes each, little-endian, with bits [15:14] zero (11 R609, R611). -/
def romDigest (word : Nat → BitVec 14) : Bytes := bvBytes (Config.sha384 ((List.range 2048).flatMap fun a => leBytes 2 (word a).toNat))

/-- MAIN_PGOOD_HIGH (R793 step 2): `straps` and `safeLow` as sampled (07 R344, R786); MEAS_0 is extended with the boot ROM (11 R609). -/
def execMainPgoodHigh (straps : BitVec 12) (safeLow : Bool) (s : State) : Result :=
  done (s.when (s.pow.pwrEn && !s.pow.mainUp && s.pow.standby && s.store.ready && s.tmp.level != 3) fun s =>
    let woke := s.pow.state == .keep
    let s := s.onPow fun p => { p with
      mainUp := true, pgood := true, node := if p.variant = .slx4806 then straps &&& 0xF00 else straps, safe := safeLow, safeStrap := safeLow, state := .active, readyPin := false
      mainRuns := p.mainRuns + 1, bootStep := 2, pgoodWait := false, perst := if safeLow then 3 else 0 }
    let s := s.onTmp fun t => { t with armed := t.armed ||| 0x1FF }
    let s := s.when safeLow fun s => { s with par := {} }
    let s := startCores (restoreUnits s)
    let s := s.onUnit fun m => { m with safeLoop := safeLow }
    let s := startNoise (extend s 0 (romDigest Config.romWord))
    s.when woke (irq · .g 20))

/-- GATEHOUSE_LINK_AGREED (01 R18, R20): both dies agree the session key of this power-up from the pairing secret; the mirror of time, the Gatehouse copy of the measurements and the record store come within reach; the SNOOP
context hashes what boot step 3 streams (11 R610). -/
def execGatehouseLinkAgreed (s : State) : Result :=
  done (s.when (s.pow.mainUp && s.pow.standby && !s.pow.linkUp) fun s =>
    mirrorTime ((s.onPow fun p => { p with linkUp := true, linkSession := bvBytes (Config.linkSession p.pairSecret p.mainRuns) }).onDig fun d => { d with gateMeas := d.meas, snooping := !s.pow.safe }))

/-! ### Boot steps 3 and 4 (15 R784, R785, 11 R611, R612) -/

/-- Safe mode because no bank is valid (15 R786, R787): SSD_PERST low, factory defaults. -/
def enterSafe (s : State) : State :=
  let s := (s.onPow fun p => { p with safe := true, safeNone := true, perst := 3 }).onDig fun d => { d with snooping := false }
  { s with par := {} }.onUnit fun m => { m with safeLoop := true }

/-- Extend the measurement registers in the order of R611 by the digests of a bank. -/
def measureBank (s : State) (b : Bank) : State :=
  let ext := fun (s : State) (p : Nat × Nat) => if hasSec b p.1 then extend s p.2 (secDigest b p.1) else s
  let s := [(1, 1), (2, 1)].foldl ext s
  let s := extend s 2 (romDigest Config.gateRomWord)
  [(3, 2), (4, 3), (5, 4), (6, 5)].foldl ext s

/-- A bank is accepted: measured, its parameters in effect, its programs loaded; core G, when it stands in its boot ROM, enters VENDOR_FW_G
(09 R512). -/
def acceptBank (s : State) (n : BitVec 1) (b : Bank) : State :=
  let s := s.onPow fun p => { p with
    bank := n.zeroExtend 2, imageSeq := bankSeq b.header, packages := secBytes b 5, bootStep := 4 }
  let s := ({ s with par := imageParams b }).onMgt fun m => { m with runBank := n.zeroExtend 2, committed := false }
  let s := (s.onRng fun r => { r with mode := s.par.rngMode }).onDig fun d => { d with snooping := false }
  let s := measureBank s b
  let s := loadProg (loadProg s .a (progAB b) (hasSec b 6)) .b (progAB b) (hasSec b 6)
  if inRom s .g then enterRam (loadProg s .g (progG b) false) .g (coreGet s .g).startKind else s

/-- A bank fails check `k` (ID_BOOT fail_0, fail_1). With both failed, safe mode follows. -/
def rejectBank (s : State) (n : BitVec 1) (k : Nat) : State :=
  let s := s.onPow fun p => if n = 0 then { p with fail0 := BitVec.ofNat 4 k } else { p with fail1 := BitVec.ofNat 4 k }
  if s.pow.fail0 ≠ 0 ∧ s.pow.fail1 ≠ 0 then enterSafe s else s

/-- Boot step 3 reads both HEADERs (15 R784): a bank whose HEADER fails checks 1 to 4 is rejected; `h0` and `h1` are the HEADERs of banks 0 and 1. -/
def readHeaders (s : State) (h0 h1 : Bytes) : State :=
  let k := fun (h : Bytes) (old : BitVec 4) => if old ≠ 0 then old else BitVec.ofNat 4 ((headerFail s.pow.variant h).getD 0)
  s.onPow fun p => { p with fail0 := k h0 p.fail0, fail1 := k h1 p.fail1 }

/-- The bank that boot step 3 streams next: of those that have failed no check, the one with the higher sequence, bank 0 first when they are equal
(15 R784). -/
def bankInTurn (s : State) (h0 h1 : Bytes) : Option (BitVec 1) :=
  if s.pow.fail0 = 0 ∧ (s.pow.fail1 ≠ 0 ∨ bankSeq h1 ≤ bankSeq h0) then some 0 else if s.pow.fail1 = 0 then some 1 else none

/-- Boot steps 3 and 4 on a bank that has streamed (15 R783, R784): one whose turn it is not is not read. -/
def bootBank (s : State) (n : BitVec 1) (b : Bank) : State :=
  let h0 := if n = 0 then b.header else b.other
  let h1 := if n = 0 then b.other else b.header
  let s := readHeaders s h0 h1
  match bankInTurn s h0 h1 with
  | none => enterSafe s
  | some m =>
    if m ≠ n then s
    else match bankFail s b with
      | some k => rejectBank s n k
      | none => acceptBank s n b

/-- The bank in use streams again for the cores that stand in their boot ROM after a reset of their own (09 R490, R518, 14 R728). -/
def reloadCores (s : State) (b : Bank) : State :=
  [CoreId.a, .b, .g].foldl (fun s c =>
    if inRom s c then
      let s := loadProg s c (if c = .g then progG b else progAB b) (c != .g && hasSec b 6)
      if c = .g ∨ s.pow.bootStep ≥ 6 then enterRam s c (if (coreGet s c).startKind = 1 then 0 else (coreGet s c).startKind) else s
    else s) s

/-! ### Adoption (14 R762, R763) -/

/-- The end of an adoption with this outcome and step (14 R749): ADOPTION record, alert cause 7. -/
def adoptEnd (s : State) (outcome step : Nat) (seq : Nat) : State :=
  let s := append s (.serge .g) 2 0x0205 0 (leBytes 8 seq ++ leBytes 1 outcome ++ leBytes 1 step ++ zeros 6)
  let s := s.onUnit fun m => { m with adopting := 0, adoptLane := none, reloaded := false }
  mgtAlert (s.onMgt fun m => { m with adopt := false, committed := false, reloading := false }) 7

/-- The parameters that apply live (15 R790, R792): TAMPER_LEVEL and TAMPER_LOOPS at step 4, the others at step 5. -/
def liveTamper (s : State) : State := { s with par := { s.par with levels := s.pow.adoptPar.levels, loops := s.pow.adoptPar.loops } }
def liveOther (s : State) : State :=
  { s with par := { s.par with
      grace := s.pow.adoptPar.grace, napAfter := s.pow.adoptPar.napAfter, keepAfter := s.pow.adoptPar.keepAfter, wakeGpio := s.pow.adoptPar.wakeGpio } }

/-- Step 5: the next ACTIVE lane that has still to take the parameters is drained; after the last, step 6 ends the adoption. -/
def adoptNext (s : State) : State :=
  match (List.range 16).find? fun l => unitActive s l && !(tget {} s.lane.lanes l).paramsNew with
  | some l => changeUnit (s.onUnit fun m => { m with adoptLane := some l }) l .draining 0 (unitEnt s l).reason
  | none =>
    let s := s.onLane fun b => { b with lanes := tmap {} b.lanes fun _ x => { x with paramsNew := false } }
    let s := (s.onPow fun p => { p with bank := s.unit.adoptBank.zeroExtend 2, imageSeq := p.stagedSeq }).onMgt fun m =>
      { m with runBank := s.unit.adoptBank.zeroExtend 2 }
    cause (adoptEnd s 0 6 s.pow.stagedSeq) 11

/-- The peer of the active core is loaded with the staged bank and enters it as a core reloaded for adoption (09 R518). -/
def loadPeer (s : State) (b : Bank) : State :=
  let p := peerOf s.unit.active
  enterRam (loadProg s p (progAB b) (hasSec b 6)) p 1

/-- A staged bank has streamed during an adoption: step 1, step 3 or step 4, by what the adoption has reached. -/
def adoptBank (s : State) (b : Bank) : State :=
  match s.unit.adopting with
  | 1 =>
    if (bankFail s b).isNone && unitActive s 0x39 && inRom s (peerOf s.unit.active) then
      let s := (s.onDig fun d => { d with adoptDig := bankDigests b }).onPow fun p => { p with
        stagedSeq := bankSeq b.header, adoptPar := imageParams b }
      loadPeer (s.onUnit fun m => { m with reloaded := true, adopting := 2 }) b
    else adoptEnd s 1 1 (bankSeq b.header)
  | 3 =>
    let p := peerOf s.unit.active
    let s := if (bankFail s b).isNone && inRom s p then loadPeer s b else coreUpd s p fun k => { k with inReset := true }
    (s.onUnit fun m => { m with adopting := 4 }).onMgt fun m => { m with reloading := true }
  | 4 =>
    let s := liveTamper (enterRam (loadProg (coreReset s .g) .g (progG b) false) .g 1)
    let s := match assoc 3 s.dig.adoptDig with | some v => extend s 2 v | none => s
    let s := (s.onDig fun d => { d with adoptDig := [] }).onMgt fun m => { m with reloading := false }
    adoptNext (liveOther (s.onUnit fun m => { m with adopting := 5 }))
  | _ => s

/-- The flash controller answers the main die: in boot step 3 and during an adoption; at every other time it answers Serge G (15 R772). -/
def flashOfMain (s : State) : Bool :=
  (s.pow.mainUp && s.pow.linkUp && !s.pow.safe && s.pow.bank == 3 && decide (s.pow.bootStep < 4)) || s.unit.adopting != 0

/-- The controller prepares the first image read of a start (15 R772): SPI_RESET_N low for 10 µs, the SFDP tables in 1-1-1 mode at 25 MHz, then the
fastest read mode that they declare. Flash that declares none goes on in 1-1-1 mode (log entry 126). -/
def openFlash (s : State) (m : FlashModes) : State :=
  s.when (!s.pow.sfdpRead) fun s =>
    let r : ReadMode × Nat := if m.octal then (.octal, 100) else if m.quad then (.quad, 133) else if m.quadOut then (.quadOut, 133) else (.single, 25)
    (s.onPow fun p => { p with sfdpRead := true, readMode := r.1 }).onOut fun o => { o with spi := o.spi ++ [.reset 10, .sfdp .single 25, .select r.1 r.2] }

/-- IMAGE_BANK_STREAMED (15 R772, R784, 14 R762): the bank chosen by R784 in boot step 3, the bank in use for a core that was reset, or the staged bank in
an adoption. -/
def execImageBankStreamed (bank : BitVec 1) (img : Bank) (adoption : Bool) (s : State) : Result :=
  done (s.when (s.pow.mainUp && s.pow.linkUp && !s.tmp.bootHeld) fun s =>
    if adoption then s.when (bank == s.unit.adoptBank) (adoptBank · img)
    else if s.pow.bank = 3 then
      s.when (!s.pow.safe && decide (s.pow.bootStep < 4)) fun s =>
        bootBank (openFlash s img.modes) bank img
    else s.when (s.pow.bank == bank.zeroExtend 2 && s.unit.adopting == 0 && (bankFail s img).isNone) (reloadCores · img))

/-! ### Drained units (09 R503) -/

/-- A unit has finished its last work: drained shows, a DRAINING one is to be RETIRED by the active core, and a lane that an adoption drained takes
the new parameters and returns to ACTIVE (14 R762 step 5). -/
def unitDrained (s : State) (u : Nat) : State :=
  let e := unitEnt s u
  let s := s.onUnit fun m => { m with
    tbl := tupd {} m.tbl u fun x => if x.st = .absent then x else { x with drained := true }
    applyDrained := m.applyDrained || m.applyUnit == u }
  if s.unit.adoptLane = some u then
    let s := s.onLane fun b => { b with lanes := tupd {} b.lanes u fun x => { x with paramsNew := true } }
    adoptNext (changeUnit (s.onUnit fun m => { m with adoptLane := none }) u .active 0 e.reason)
  else s.when (e.st == .draining) fun s => decideUnit s u .retired e.reason

/-- UNIT_DRAINED (R503). -/
def execUnitDrained (unit : Nat) (s : State) : Result :=
  done (
    let e := unitEnt s unit
    s.when ((e.st == .draining || e.st == .disputed) && !e.drained && !unitBusy s unit) (unitDrained · unit))

end Sys2Proof.Machine
end

