-- ==== Sys2Proof/Machine/KeyStart.lean ====
section
/-! DEFINITION. Boot step 6 (10 R525-R533, R545-R547, R568, R575-R580, R588, R589): the root, the voile, the enrolment package, the key store and
its key holder; and the same opening in the restart after a level-2 tamper response (13 R712). -/

namespace Sys2Proof.Machine

/-! ### Retirement, the root, the voile -/

/-- The device becomes RETIRED (10 R574): voile wiped, root-kill fuse blown, every key record made dead and its sector erased, every key gone. -/
def retireDevice (s : State) : State :=
  let key := fun (x : Record) => x.part == 1 && idSpace x.typ == 0x0101
  let held := ((s.store.recs.filter key).map (·.sector)).dedup
  let s := killRecs s key
  let s := held.foldl evacuate (s.onStore fun r => { r with recs := r.recs.filter (!key ·) })
  let s := s.onLane fun b => { b with lanes := tmap {} b.lanes fun _ l => { l with cache := [] } }
  s.onKey fun k => { k with
    voile := zeros 32, voileInv := zeros 32, rootKill := true, fuse := 3, slots := [], holder := [], handlesA := [], handlesB := [], unwrapped := false, deviceKeys := false }

/-- A bank programmed with a root secret, its integrity word and its bank-valid fuse (10 R525, R526). -/
def programRoot (s : State) (secret : Bytes) : RootBank :=
  { begun := true, valid := true, secret := secret, integrity := bvBytes (Config.sha256 (secret ++ unitBe s)) }

/-- The root at a start in FRESH that finds no valid bank (10 R525, R527): debug off, a secret after a fresh reseed, the first bank never
programmed. With both begun and neither valid the device is RETIRED. -/
def openRoot (s : State) : State :=
  if s.key.root0.valid || s.key.root1.valid || decide (lifecycle s ≠ 1 ∧ !(s.key.root0.begun && s.key.root1.begun)) then s
  else if s.key.root0.begun && s.key.root1.begun then (if s.key.fuse = 3 then s else retireDevice s)
  else
    let s := freshReseed s
    let b := programRoot s (randBytes s 32)
    (drew s 32).onKey fun k => if k.root0.begun then { k with debugDisabled := true, root1 := b } else { k with debugDisabled := true, root0 := b }

/-- Does the key engine pass its check of the valid bank's integrity word (10 R529)? -/
def rootIntact (s : State) : Bool :=
  match rootSecret s with
  | some r =>
    let b := if s.key.root0.valid then s.key.root0 else s.key.root1
    b.integrity == bvBytes (Config.sha256 (r ++ unitBe s))
  | none => false

/-- A new voile where the Gatehouse holds none (10 R531); an enrolled device that lost its own is VEILED, and its veil flag is set (R533). -/
def openVoile (s : State) : State :=
  if voileValid s || decide (s.key.fuse ≠ 1 ∧ s.key.fuse ≠ 2) then s
  else
    let s := freshReseed s
    let v := randBytes s 32
    let s := (drew s 32).onKey fun k => { k with voile := v, voileInv := v.map (~~~ ·) }
    if s.key.fuse = 2 then append (s.onKey fun k => { k with veil := true }) .gatehouse 3 0x0306 0 (leBytes 1 1 ++ zeros 3) else s

/-- What the records say at a start: control sequence, offer count, roll count, IN_SERVICE, the veil flag. -/
def loadCounts (s : State) : State :=
  let num := fun (part : BitVec 2) (typ : BitVec 16) (n : Nat) => match latest s part typ 0 with | some r => leAt r.payload 0 n | none => 0
  s.onKey fun k => { k with
    ctlSeq := num 1 0x0106 8, offerCount := num 1 0x0103 4, rollCount := num 3 0x0304 4
    inService := (latest s 3 0x0305 0).isSome, veil := decide (num 3 0x0306 1 ≠ 0) }

/-! ### Slots from their records (10 R543-R546) -/

/-- A slot as its records give it (10 R543, R544, R567): BAD when its latest record is CONFLICTED or its tag fails. `tagBad`: the tag of this slot
fails as read. -/
def slotFrom (s : State) (n : Nat) (tagBad : Bool) : Slot :=
  let rs := keyRecs s 1 0x0101 n
  let top := (rs.filter fun r => r.typ == 0x0101).foldl (fun m r => max m (leAt r.payload 2 2)) 0
  match latestOf rs with
  | none => if rs.isEmpty then {} else { st := .bad, top := top }
  | some r =>
    let g := leAt r.payload 2 2
    if (versionOf rs (topSeq rs)).isNone then { st := .bad, gen := g, top := top }
    else if r.typ = 0x0102 then { st := if g = 65535 then .spent else .empty, gen := g, top := top, retiredGen := some g }
    else
      let key := storeKey s
      let iv := cut r.payload 24 12
      let ct := cut r.payload 36 64
      let x : Slot := { st := .bad, gen := g, top := top, kind := BitVec.ofNat 8 (leAt r.payload 4 1), origin := BitVec.ofNat 8 (leAt r.payload 5 1)
                        parent := keyField r.payload 6, attrs := BitVec.ofNat 32 (leAt r.payload 12 4), created := leAt r.payload 16 8 }
      if tagBad || gcmTagOf key iv (r.payload.take 24) ct != cut r.payload 100 16 then x
      else { x with st := .loaded, material := (gcmCrypt key iv ct).take (kindBytes x.kind) }

/-- Read and unwrap the first `n` slots (10 R545); each found BAD is logged (R546). -/
def loadSlots (s : State) (n : Nat) (badSlots : List Nat) : State :=
  let t := (List.range n).foldl (fun t i => tput {} t i (slotFrom s i (badSlots.contains i))) ([] : Tbl Slot)
  let s := s.onKey fun k => { k with slots := t }
  (t.filter fun p => p.2.st == .bad).foldl (fun s p => append s .key 3 0x0308 0 (leBytes 2 p.1 ++ leBytes 2 p.2.gen ++ zeros 4)) s

/-- Do slots 0 to 4 hold keys of an enrolment package? -/
def enrolled04 (s : State) : Bool := (List.range 5).all fun n => slotState s n == .loaded && (slotOf s n).origin == 1

/-! ### The enrolment package (10 R577-R580) -/

/-- An entry of a package (10 R578). -/
def packEntry (p : Bytes) (i : Nat) : Bytes := cut p (88 + 112 * i) 112

def packCount (p : Bytes) : Nat := leAt p 6 2
def packEntries (p : Bytes) : List Bytes := (List.range (packCount p)).map (packEntry p)
def entrySlot (e : Bytes) : Nat := leAt e 0 2
def entryKind (e : Bytes) : BitVec 8 := BitVec.ofNat 8 (leAt e 2 1)
def entryAttrs (e : Bytes) : BitVec 32 := BitVec.ofNat 32 (leAt e 4 4)

/-- The package key (10 R535, R578). -/
def packKey (s : State) (p : Bytes) : Bytes :=
  let ek := offerKey s
  let eph := cut p 24 32
  let z := (bvBytes (Config.sharedSecret ek eph)).take 32
  kdf z (ascii "SLX48-ENROL") (unitBe s ++ beBytes 4 s.key.offerCount ++ eph ++ (bvBytes (Config.sharedSecret ek (9 :: zeros 31))).take 32) 32

/-- The material of an entry, or none when its tag fails. -/
def openEntry (s : State) (key e : Bytes) : Option Bytes :=
  let iv := cut e 16 12
  let ct := cut e 28 64
  if gcmTagOf key iv (e.take 16 ++ leBytes 8 s.pow.unit.toNat) ct = cut e 92 16 then some (gcmCrypt key iv ct) else none

/-- Kinds of package allowed in the current state. -/
def packAllowed (s : State) (kind : Nat) : Bool :=
  match lifecycle s with
  | 1 => kind == 1 || kind == 4
  | 2 => kind == 4
  | 3 => kind == 4
  | 4 => kind == 2 || kind == 3 || kind == 4
  | _ => false

/-- The first condition of R579 that a package fails, numbered from 1 in the order of the list. -/
def packFail (s : State) (p : Bytes) : Option Nat :=
  let kind := leAt p 5 1
  let es := packEntries p
  let key := packKey s p
  let enrols := (List.range 5).all fun n => es.any fun e => entrySlot e == n
  let conds : List Bool :=
    [leAt p 8 8 == s.pow.unit.toNat,
     packAllowed s kind,
     kind == 4 || leAt p 16 4 == s.key.offerCount,
     (lifecycle s == 1 && s.key.ownerHash.isNone) || s.key.ownerHash == some (bvBytes (Config.sha384 (cut p 56 32))),
     Config.ed25519Verify (cut p 56 32) (p.take (88 + 112 * es.length)) (cut p (88 + 112 * es.length) 64),
     decide (es.map entrySlot).Nodup && decide (es.map fun e => cut e 16 12).Nodup
       && es.all fun e => decide (entrySlot e < 1024) && zeroAt e 3 1 && zeroAt e 14 2 && zeroAt e 108 4 && kindOk (entryKind e),
     es.all fun e => match enrolWord (entrySlot e) with
       | some w => entryKind e == w.1 && entryAttrs e == w.2
       | none => attrsOk (entryKind e) (entryAttrs e),
     es.all fun e => decide (nextGen (slotOf s (entrySlot e)) ≤ 65535),
     es.all fun e => match openEntry s key e with | some m => materialOk (entryKind e) m | none => false,
     kind == 4 || (enrols && (kind != 3 || es.all fun e => (enrolWord (entrySlot e)).isSome || (entryKind e == kKdf && (entryAttrs e).getLsbD 14))),
     kind != 4 || es.isEmpty]
  (conds.zipIdx.find? fun c => !c.1).map fun c => c.2 + 1

/-- Store the entries of a package, with origin ENROLMENT, and advance offer_count, in one transaction of the record store (10 R580). The commit of
its last part completes the enrolment of a FRESH device. -/
def storePack (s : State) (p : Bytes) : State :=
  let key := packKey s p
  let es := packEntries p
  let t := s.store.nextTxn
  let n := s.key.offerCount + 1
  let s := appendRecord (openTx s .key 1 (es.length + 1)) .key
    { part := 1, typ := 0x0001, id := t, txn := t, payload := intentPayload (es.length + 1) .key }
  let s := es.zipIdx.foldl (fun s q =>
    let e := q.1
    let slot := entrySlot e
    let g := leAt e 8 2
    storePart t q.2 s slot (if g = 0 then nextGen (slotOf s slot) else g) (entryKind e) 1 (keyField e 10) (entryAttrs e)
      ((openEntry s key e).getD [])) s
  appendRecord s .key { part := 1, typ := 0x0103, id := 0, payload := leBytes 4 n, txn := t, idx := es.length }

/-- Act on a package (10 R579, R580): accepted and carried out, or refused and logged. -/
def actOnPackage (s : State) (p : Bytes) : State :=
  match packFail s p with
  | some k => append s .key 3 0x0309 0 (cut p 5 1 ++ leBytes 1 k ++ zeros 2 ++ leBytes 4 s.key.offerCount)
  | none =>
    match leAt p 5 1 with
    | 1 =>
      let h := bvBytes (Config.sha384 (cut p 56 32))
      storePack (s.onKey fun k => { k with ownerHash := some (k.ownerHash.getD h) }) p
    | 2 =>
      let t := storePack s p
      if t.key.offerCount > s.key.offerCount then unveil t else t.onKey fun k => { k with rekeyDue := true }
    | 3 => storePack s p
    | _ => retireDevice s

/-- Boot step 6 on the package of OWNER_KEYS (15 R779); a start in FRESH that finds the package's records committed finishes the enrolment
(10 R580). -/
def enrolStep (s : State) : State :=
  let s := if lifecycle s = 1 ∧ s.key.ownerHash.isSome ∧ enrolled04 s then s.onKey fun k => { k with fuse := 2 } else s
  match ownPackage s s.pow.packages with
  | some p => actOnPackage s p
  | none => s

/-! ### The end of step 6, and step 7 -/

/-- The inline HBM key is drawn from the DRBG (10 R538, 15 R794). -/
def hbmKey (s : State) : State :=
  let k := randBytes s 32
  (drew s 32).onHbm fun h => { h with keyLoaded := true, inlineKey := k }

/-- Step 7 once step 6 has ended and training too; fewer than 12 ACTIVE pseudo-channels stop the boot (15 R798). -/
def hbmStep (s : State) : State :=
  s.when (s.hbm.trained && !s.hbm.keyLoaded && decide (s.pow.bootStep ≥ 6) && s.rng.inst) fun s =>
    (hbmKey s).onPow fun p => { p with bootStep := max p.bootStep 7, bootFault := p.bootFault || decide ((activePcs s).length < 12) }

/-- The labels decide which drives serve (06 R299): step 8 ends. A node none of whose drives can serve stops there (15 R798). -/
def attachEnd (s : State) : State :=
  let serve := fun (s : State) (d : Nat) => onDrive s d fun x => { x with
    serving := x.attached && x.ready && labelServes s x && unitActive s (0x28 + d) }
  let s := serve (serve s 0) 1
  s.onPow fun p => { p with attachDone := true, bootStep := max p.bootStep 8, bootFault := p.bootFault || (servingDrives s).isEmpty }

/-- Step 8 ends when every drive of an ACTIVE port has reported, or when 4.0 s have passed (15 R795). -/
def tryAttachEnd (s : State) : State :=
  s.when (s.hbm.keyLoaded && !s.pow.attachDone && !s.pow.bootFault
      && (s.pow.attachOver || [0, 1].all fun d => !unitActive s (0x28 + d) || (tget {} s.drives d).attached)) attachEnd

/-- The key store is unwrapped, and the derivations are made (10 R532, R535, R545). -/
def unwrapStore (s : State) (n : Nat) (badSlots : List Nat) : State :=
  loadHolder (loadSlots (s.onKey fun k => { k with unwrapped := true, deviceKeys := true }) n badSlots)

/-- Step 6 of a start. In safe mode it unwraps the enrolment slots alone and the boot ROM goes on in its loop (15 R787, 09 R511). -/
def openStore (s : State) (badSlots : List Nat) (keyEngineOk : Bool) : State :=
  let s := openRoot (loadCounts s)
  if s.key.fuse ≠ 3 ∧ (!keyEngineOk ∨ !rootIntact s ∨ !unitActive s 0x3B) then
    -- 10 R529, 15 R798: the data plane stays closed
    let s := s.when (unitActive s 0x3B) fun s => observe s 0x3B .failed 2 0x01
    s.onPow fun p => { p with bootFault := true, bootStep := 6 }
  else if s.pow.safe then s.when (s.key.fuse != 3) fun s => (unwrapStore s 5 badSlots).onPow fun p => { p with bootStep := 6 }
  else
    let s := openVoile s
    let s := s.when (s.key.fuse != 3) fun s => enrolStep (unwrapStore s 1024 badSlots)
    let s := loadTerms s
    let s := s.onFab fun b => { b with twinRoute := lifecycle s == 4 && hasTwin s && (List.range 5).all fun n => slotState s n == .loaded }
    let s := s.onPow fun p => { p with bootStep := 6, gpioOut := s.par.gpioMode }
    let s := [CoreId.a, .b].foldl (fun s c => if inRom s c then enterRam s c (coreGet s c).startKind else s) (recordRestored s)
    tryAttachEnd (hbmStep s)

/-- BOOT_KEY_STORE_OPEN (R545): boot step 6, or the reopening of the key store once the Gatehouse reports a level-2 alarm cleared (10 R532, 13 R712):
`badSlots` fail their tags as read, `keyEngineOk` is the key engine's own check. -/
def execBootKeyStoreOpen (badSlots : List Nat) (keyEngineOk : Bool) (s : State) : Result :=
  done (
    if s.pow.mainUp && s.pow.linkUp && (s.pow.bank != 3 || s.pow.safe) && !s.tmp.bootHeld && s.rng.inst && decide (s.pow.bootStep < 6) then
      openStore s badSlots keyEngineOk
    else if s.tmp.restarting && s.tmp.cleared && !s.key.unwrapped && s.rng.inst && s.pow.mainUp && s.pow.linkUp then
      if keyEngineOk && rootIntact s && unitActive s 0x3B then hbmKey (unwrapStore s 1024 badSlots)
      else s.when (unitActive s 0x3B) fun s => observe s 0x3B .failed 2 0x01
    else s)

end Sys2Proof.Machine
end

