-- ==== Sys2Proof/Machine/Attach.lean ====
section
/-! DEFINITION. Boot steps 7 to 9: HBM training (15 R794), drive attach (15 R795, R860, 06 R299), replay of the journal (06 R330-R332). -/

namespace Sys2Proof.Machine

/-- HBM_TRAINING_DONE (15 R794): pseudo-channels that failed are FAILED; `serial` is what identifies the HBM stack (14 R741). -/
def execHbmTrainingDone (failed : List Nat) (serial : Bytes) (s : State) : Result :=
  done (s.when (s.pow.mainUp && !s.hbm.trained) fun s =>
    let s := (s.onHbm fun h => { h with trained := true }).onPow fun p => { p with hbmSerial := fit 12 serial }
    let s := ((List.range 16).filter failed.contains).foldl (fun s n => bootUnit s (0x10 + n) .failed 0x01) s
    tryAttachEnd (hbmStep s))

/-- DRIVE_READY (15 R795): before step 8 has ended the drive waits for it with its label copies as read; one that fails R294 is refused and its port becomes
RETIRED; a later one is a replacement (R860). -/
def execDriveReady (d : Nat) (labelA labelB : Bytes) (id : DriveId) (s : State) : Result :=
  done (s.when (decide (d < 2) && s.pow.mainUp && !s.pow.perst.getLsbD d) fun s =>
    if s.pow.attachDone then driveAttach s d id
    else
      let s := nvme (onDrive s d fun x => { x with ident := id, queue := 0 }) [d] .identify
      if !meetsDrive id then
        let s := onDrive s d fun x => { x with attached := true, ready := false }
        tryAttachEnd ((bootUnit s (0x28 + d) .retired 0x01).onPow fun p => { p with perst := setBit p.perst d true })
      else
        let s := nvme (nvme (makeQueues s d) [d] (.read 0 1)) [d] (.read 1 1)
        tryAttachEnd (onDrive s d fun x => { x with attached := true, ready := true, dealloc := false, labelA := labelA, labelB := labelB }))

/-- DRIVE_ATTACH_TIMEOUT (15 R795). -/
def execDriveAttachTimeout (s : State) : Result :=
  done (s.when (s.pow.mainUp && !s.pow.safe && !s.pow.attachDone) fun s => tryAttachEnd (s.onPow fun p => { p with attachOver := true }))

/-! ### Replay (06 R330) -/

/-- The block of sequence `q` from a serving drive, in turn, that passes its checks: magic, both sequences and chain (06 R330). -/
def blockAt (s : State) (q : Nat) (prev : BitVec 128) : Option JBlock :=
  (servingDrives s).findSome? fun d =>
    let b := tget {} (tget {} s.drives d).journal (q % 2 ^ 23)
    if b.magic = journalMagic ∧ b.seq = q ∧ b.seq2 = q ∧ !b.recs.isEmpty ∧ chainTag s prev b = b.chain then some b else none

/-- Apply one block (06 R277, R330): its records to the ledger of its home; a ROLL clears that ledger, and this node's own roll advances the
epoch. -/
def replayBlock (s : State) (b : JBlock) : State :=
  let own := b.home == nodeAddr s
  let s := match b.recs.find? fun r => r.kind == .roll with
    | some r => if own then rollOwn s r.extra else rollShadow s r.extra
    | none => applyRecs s own b.home none b.recs
  s.onLed fun l => { l with
    ownEnd := if own then max l.ownEnd b.group else l.ownEnd
    mirEnd := if !own && b.source == 1 then max l.mirEnd b.group else l.mirEnd
    nextAuth := if own then l.nextAuth else max l.nextAuth (b.group + 1)
    sincePos := l.sincePos + b.recs.length, sinceCkpt := l.sinceCkpt + b.recs.length }

/-- Replay from block `q`; `n` bounds the blocks. The journal's key is that of the epoch the block was written in: the tag of the first block after
a roll follows 16 zero bytes (06 R302). -/
def replayFrom (s : State) : Nat → Nat → BitVec 128 → State
  | 0, q, prev => s.onLed fun l => { l with blockSeq := q, chain := prev }
  | n + 1, q, prev =>
    match blockAt s q prev with
    | none => s.onLed fun l => { l with blockSeq := q, chain := prev }
    | some b =>
      let t := replayBlock s b
      replayFrom t n (q + 1) (if t.key.rollCount = s.key.rollCount then b.chain else t.led.chain)

/-- A checkpoint with its metadata copy and the other one: versions, then tags (06 R297). -/
structure Base where
  c : Ckpt := {}
  vs : Tbl Nat := []
  ts : Tbl (BitVec 128) := []
  other : Tbl Nat := []
  otherT : Tbl (BitVec 128) := []
  deriving DecidableEq, Repr

/-- Load one page: as a drive holds it under the slot's version and tag in the checkpoint's metadata copy, or under those of the other copy when that
version is one higher (06 R331); the slot then has that version (log entry 120). -/
def loadPage (s : State) (b : Base) (slot : Nat) : State :=
  let v := tget 0 b.vs slot
  let find := fun (v : Nat) (t : BitVec 128) => (servingDrives s).findSome? fun d =>
    let x := tget {} (tget {} s.drives d).pages slot
    if pageTag s slot v x.entries = t then some x.entries else none
  let w := slotOwner s slot
  match find v (tget 0 b.ts slot) with
  | some es => setPage s w.1 w.2 es
  | none =>
    if tget 0 b.other slot ≠ v + 1 then s
    else match find (v + 1) (tget 0 b.otherT slot) with
      | some es => (setPage s w.1 w.2 es).onLed fun l => { l with
          versions := tput 0 l.versions slot (v + 1), tags := tput 0 l.tags slot (tget 0 b.otherT slot) }
      | none => s

/-- Own ROLL records in the journal from block `p` on, by sequence alone. -/
def ownRolls (s : State) (p : Nat) : Nat :=
  match servingDrives s with
  | d :: _ => ((tget {} s.drives d).journal.filter fun e => decide (e.2.seq ≥ p) && e.2.home == nodeAddr s && e.2.recs.any fun r => r.kind == .roll).length
  | [] => 0

/-- The ledger as it stood at a checkpoint: its keys, versions, tags, void indexes, ceilings and group ends, and the tree over them (06 R330). -/
def baseState (s : State) (b : Base) : State :=
  let c := b.c
  let s := s.onKey fun k => { k with rollCount := k.rollCount - ownRolls s c.p }
  let s := s.onLed fun l => { l with
    epoch := c.epoch, ckptLast := c, versions := b.vs, tags := b.ts, voidOwn := c.voidOwn, voidShadow := c.voidShadow, ceil := c.ownCeil
    twinCeil := c.twinCeil, ownEnd := c.ownEnd, mirEnd := c.mirEnd, nextAuth := c.mirEnd + 1, chain := c.chain
    ckptAt := s.time.clk - (s.time.mUs - c.time) }
  rebuildTree (s.onFab fun f => { f with twinEpoch := c.twinEpoch })

/-- The checkpoint that replay starts from, as a serving drive holds it: the header must have the k and p of the LEDGER_CHECKPOINT record and a good tag, and
the tree over its metadata the root of the record (06 R330). With no such record the ledger is empty and replay begins at block 0 (log entry 43). -/
def replayBase (s : State) : Option Base :=
  match latest s 3 0x0303 0 with
  | none => some {}
  | some r =>
    let k := leAt r.payload 0 8
    (servingDrives s).findSome? fun d =>
      let x := tget {} s.drives d
      let c := tget {} x.ckpts (k % 2)
      let b : Base := { c := c, vs := tget [] x.metaV (k % 2), ts := tget [] x.metaT (k % 2)
                        other := tget [] x.metaV ((k + 1) % 2), otherT := tget [] x.metaT ((k + 1) % 2) }
      let t := baseState s b
      if c.k = k ∧ c.p = leAt r.payload 8 8 ∧ ckptTag t c = c.tag ∧ bvBytes t.led.root = cut r.payload 32 16 then some b else none

/-- A recorded ceiling, when it is of the current epoch (12 R656, 02 R54). -/
def recordedCeil (s : State) (typ : BitVec 16) (id : Nat) : Nat :=
  match latest s 1 typ id with
  | some r => if leAt r.payload 0 1 % 16 = s.led.epoch.toNat then leAt r.payload 8 8 else 0
  | none => 0

/-- The LBAs of journal sequences q to q + 255 are deallocated on a drive, whatever older blocks lie there (06 R330). -/
def freeJournal (s : State) (d q : Nat) : State :=
  let s := onDrive s d fun x => { x with
    journal := x.journal.filter fun e => decide ((e.1 + 2 ^ 23 - q % 2 ^ 23) % 2 ^ 23 > 255) }
  let n := min 256 (2 ^ 23 - q % 2 ^ 23)
  let s := nvme s [d] (.dealloc (journalLba q) n)
  s.when (decide (n < 256)) fun s => nvme s [d] (.dealloc 798720 (256 - n))

/-- Replay from a checkpoint (06 R330-R332): what it changed stays dirty, and a checkpoint that a replayed roll calls for stays due. -/
def replay (s : State) (b : Base) : State :=
  let s := baseState s b
  let s := (b.vs.map Prod.fst).foldl (fun s slot => loadPage s b slot) s
  let s := retree s (b.vs.map Prod.fst)
  let n := ((servingDrives s).map fun d => (tget {} s.drives d).journal.length).sum
  let s := replayFrom s n b.c.p b.c.chain
  let s := (servingDrives s).foldl (fun s d => freeJournal s d s.led.blockSeq) s
  s.onLed fun l => { l with
    ceil := max l.ceil (recordedCeil s 0x0104 0), twinCeil := max l.twinCeil (recordedCeil s 0x0105 (twinAddr s)), nextGroup := l.ownEnd + 1
    fullStop := decide (l.sincePos ≥ 2 ^ 22), exits := [] }

/-- JOURNAL_REPLAY_DONE (R330): a checkpoint that fails its checks stops the boot with the drives untouched (15 R798). -/
def execJournalReplayDone (s : State) : Result :=
  done (s.when (s.pow.mainUp && s.pow.attachDone && !s.pow.bootFault && s.hbm.keyLoaded && !s.led.replayed && s.key.unwrapped
      && !(servingDrives s).isEmpty) fun s =>
    match replayBase s with
    | none => s.onPow fun p => { p with bootFault := true }
    | some b =>
      let s := (replay s b).onLed fun l => { l with replayed := true }
      trySettle (s.onPow fun p => { p with bootStep := max p.bootStep 9 }))

end Sys2Proof.Machine
end

