-- ==== Sys2Proof/Machine/Crossing.lean ====
section
/-! DEFINITION. Clock crossings (15 R814-R819). -/

namespace Sys2Proof.Machine

/-- CDC_STALL (R815). -/
def execCdcStall (unit : Nat) (s : State) : Result := done (s.when s.pow.mainUp fun s => cdcStall s unit)

/-- The pulses of a crossing. -/
def onPulse (s : State) (x : Nat) (f : PulseX → PulseX) : State := s.onTele fun t => { t with pulses := tupd {} t.pulses x f }

/-- An item dropped at a resynchronisation: a request whose context is still held completes INTERNAL_FAULT (R817). -/
def dropItem (s : State) (p : Nat × Nat) : State :=
  match assoc (p.1 * 64 + p.2) s.lane.reqs with
  | some r => endReq s r .internalFault 0
  | none => s

/-- CROSSING_RESYNC (R816-R818): the items in flight are discarded and settled, the flushed indication carries their number, the crossing's pulse
counter and OVERFLOW are cleared. -/
def execCrossingResync (x : Nat) (dropped : List (Nat × Nat)) (s : State) : Result :=
  done (
    let s := dropped.foldl dropItem s
    let s := onPulse s x fun p => { p with ack := false, count := 0, overflow := false }
    s.onTele fun t => { t with flushed := tput 0 t.flushed x dropped.length })

/-- PULSE_DELIVER (R818): the first pulse is delivered at once; one that arrives in the acknowledge phase is counted, and sets OVERFLOW when the
counter already holds 15. -/
def execPulseDeliver (x : Nat) (s : State) : Result :=
  done (onPulse s x fun p =>
    if !p.ack then { p with ack := true, events := p.events ++ [1] }
    else if p.count < 15 then { p with count := p.count + 1 }
    else { p with overflow := true })

/-- PULSE_PHASE_END (R818). -/
def execPulsePhaseEnd (x : Nat) (s : State) : Result :=
  done (onPulse s x fun p =>
    if !p.ack then p
    else if p.count = 0 then { p with ack := false }
    else { p with count := 0, events := p.events ++ [p.count] })

end Sys2Proof.Machine
end

