-- ==== Sys2Proof/Machine/Management.lean ====
section
/-! DEFINITION. The management plane (14 R723-R767): MCTP messages and their queue, Graward requests and their checks, and what core G answers to
each. A message row acts on the message in hand, the first of the queue (log entry 44). -/

namespace Sys2Proof.Machine

/-! ### The port (R723-R728) -/

/-- Does core G serve the port: it runs, and is not reloading its firmware, FAILED or halted (R728)? -/
def gServes (s : State) : Bool := coreLive s .g && !s.mgt.reloading && unitActive s 0x32

/-- Does core G run the management subset of its boot ROM (15 R788; log entry 44)? -/
def gSubset (s : State) : Bool := s.pow.safe || !(coreGet s .g).inRam

/-- Does the port take a message: an MCTP control message, or a Graward message of at most 4,096 body bytes (R725-R727)? -/
def portTakes (b : Bytes) : Bool :=
  match b with
  | t :: rest => t == 0x00 || (t == 0x7F && rest.take 4 == enterprise && decide (b.length ≤ 5 + 12 + 4096 + 64))
  | [] => false

/-- MCTP_MESSAGE_RX (R723, R724, R726-R728). -/
def execMctpMessageRx (bytes : Bytes) (eid : BitVec 8) (tag : BitVec 3) (pecOk ic : Bool) (s : State) : Result :=
  done (s.when (gServes s) fun s =>
    if !pecOk then s.onMgt fun m => { m with pecFails := satInc 16 m.pecFails }
    else if ic || !portTakes bytes || decide (s.mgt.rx.length ≥ 3) then s.onMgt fun m => { m with discards := satInc 16 m.discards }
    else irq (s.onMgt fun m => { m with rx := m.rx ++ [{ bytes := bytes, eid := eid, tag := tag }] }) .g 4)

/-- Take the message in hand off the queue. -/
def takeMsg (s : State) (m : MgtMsg) : State := s.onMgt fun x => { x with rx := x.rx.drop 1, taken := some m }

/-! ### MCTP control commands (R725; layouts PRESUMED from DMTF MCTP 1.3, log entry 45) -/

/-- Answer the control message in hand when its command is the one named: completion code and data. -/
def mctpAnswer (s : State) (p : Nat → Bool) (code : Byte) (data : Bytes) (f : State → State) : State :=
  match s.mgt.rx with
  | m :: _ =>
    if gServes s && leAt m.bytes 0 1 == 0 && p (leAt m.bytes 2 1) then
      sendMsg (f (takeMsg s m)) m ([0, cut m.bytes 1 1 |>.headD 0 |> (· &&& 0x1F), (cut m.bytes 2 1).headD 0, code] ++ data)
    else s
  | [] => s

/-- SET_ENDPOINT_ID (R725): `eid` is the one the message in hand carries. -/
def execSetEndpointId (eid : BitVec 8) (s : State) : Result :=
  done (s.when (match s.mgt.rx with | m :: _ => cut m.bytes 4 1 == [eid] | [] => false) fun s =>
    mctpAnswer s (· == 0x01) 0 [0, eid, 0] fun s => s.onMgt fun m => { m with eid := if eid = 0 then none else some eid })
/-- GET_ENDPOINT_ID (R725): the null EID until one is set. -/
def execGetEndpointId (s : State) : Result := done (mctpAnswer s (· == 0x02) 0 [s.mgt.eid.getD 0, 0, 0] id)
/-- GET_MCTP_VERSION_SUPPORT (R724, R725): version 1.3. -/
def execGetMctpVersionSupport (s : State) : Result := done (mctpAnswer s (· == 0x04) 0 [1, 0xF1, 0xF3, 0xFF, 0x00] id)
/-- GET_MESSAGE_TYPE_SUPPORT (R725, R726): type 0x7F. -/
def execGetMessageTypeSupport (s : State) : Result := done (mctpAnswer s (· == 0x05) 0 [1, 0x7F] id)
/-- GET_VENDOR_DEFINED_MESSAGE_SUPPORT (R725, R726): the IANA enterprise number. -/
def execGetVendorDefinedMessageSupport (s : State) : Result := done (mctpAnswer s (· == 0x06) 0 ([0xFF, 1] ++ enterprise ++ [0, 1]) id)
/-- MCTP_UNSUPPORTED_COMMAND (R725): ERROR_UNSUPPORTED_CMD. -/
def execMctpUnsupportedCommand (cmd : Byte) (s : State) : Result :=
  done (s.when (!(([0x01, 0x02, 0x04, 0x05, 0x06] : List Nat).contains cmd.toNat)) fun s => mctpAnswer s (· == cmd.toNat) 5 [] id)

/-! ### Graward messages (R732-R740) -/

/-- A Graward status with its detail. -/
abbrev GBad := Nat × BitVec 16

def gLength : Nat := 0x01
def gFormat : Nat := 0x02
def gReserved : Nat := 0x03
def gAbsent : Nat := 0x04
def gUnusable : Nat := 0x05
def gDenied : Nat := 0x07
def gAuth : Nat := 0x10
def gStale : Nat := 0x20
def gBusy : Nat := 0x21
def gOff : Nat := 0x22
def gRefused : Nat := 0x23

/-- Body of a message. -/
def gBody (b : Bytes) : Bytes := cut b 17 (leAt (gHead b) 6 2)

/-- Commands with a trailer, and those that need the main die (R734). -/
def gTrailer (cmd : Nat) : Bool := [0x05, 0x06, 0x07, 0x09, 0x0B].contains cmd
def gNeedsMain (cmd : Nat) : Bool := cmd == 0x05 || cmd == 0x09

/-- Is a body length that of the command (R734)? -/
def gLengthOk (cmd : Nat) (body : Bytes) : Bool :=
  match cmd with
  | 0x03 => body.length == 8
  | 0x05 => body.length == 16
  | 0x06 => body.length == 8 + leAt body 4 2
  | 0x07 => body.length == 16
  | 0x08 => body.length == 32
  | 0x09 => body.length == 96
  | 0x0A => body.length == 12
  | 0x0B => body.length == 4
  | _ => body.isEmpty

/-- Check 4 of R737: RETIRED serves four commands (10 R574), the subset of the boot ROM six (15 R788). -/
def gAllowed (s : State) (cmd : Nat) (body : Bytes) : Bool :=
  (lifecycle s != 5 || [0x01, 0x02, 0x03, 0x0A].contains cmd)
    && (!gSubset s || [0x01, 0x02, 0x0A, 0x08, 0x06].contains cmd || (cmd == 0x07 && leAt body 12 1 == 0))

/-- The current nonce (R735). -/
def nonceBytes (s : State) : Bytes := leBytes 4 s.store.powerUps ++ leBytes 8 s.mgt.nonce ++ zeros 4

/-- A key of the Gatehouse key holder (10 R568). -/
def heldKey (s : State) (slot : Nat) : Option Bytes := (tget none s.key.holder slot).map (·.material)

/-- The first of checks 1 to 9 of R737 that a message fails. -/
def gCheck (s : State) (b : Bytes) : Option GBad :=
  let h := gHead b
  let cmd := leAt h 1 1
  let flags := leAt h 2 1
  let body := gBody b
  let trailer := cut b (17 + body.length) 64
  let withTrailer := flags.testBit 1
  if leAt h 0 1 ≠ 1 ∨ flags.testBit 0 ∨ cmd < 1 ∨ cmd > 0x0C then some (gFormat, 0)
  else if !zeroAt h 5 1 ∨ !zeroAt h 10 2 ∨ flags ≥ 4 then some (gReserved, 0)
  else if b.length ≠ 17 + leAt h 6 2 + (if withTrailer then 64 else 0) ∨ !gLengthOk cmd body then some (gLength, 0)
  else if !gAllowed s cmd body then some (gDenied, 0)
  else if gNeedsMain cmd ∧ !s.pow.mainUp then some (gOff, 0)
  else if !gTrailer cmd then none
  else if !withTrailer then some (gAuth, 0)
  else match heldKey s 1 with
    | none => some (gUnusable, 0)
    | some key =>
      if trailer.take 16 ≠ nonceBytes s then some (gStale, 0)
      else if bvBytes (Config.hmac384 key (h ++ body ++ trailer.take 16 ++ leBytes 8 s.pow.unit.toNat)) ≠ trailer.drop 16 then some (gAuth, 0)
      else none

/-- Does a request reach check 9, which consumes the nonce (R738)? -/
def gReaches9 (b : Bytes) (r : Option GBad) : Bool :=
  gTrailer (leAt (gHead b) 1 1) && (r.isNone || (r == some (gAuth, 0) && (leAt (gHead b) 2 1).testBit 1))

/-- An AUTH_FAILED answer: recorded (R749), and the sixteenth within 1 s sets alert cause 8 (R731). -/
def authFailed (s : State) (cmd nonce : Nat) : State :=
  let times := (s.mgt.authTimes ++ [s.time.clk]).filter fun t => decide (s.time.clk - t < 1000000)
  let s := append s (.serge .g) 2 0x0206 0 (leBytes 1 cmd ++ zeros 3 ++ leBytes 8 nonce)
  let s := s.onMgt fun m => { m with authTimes := times.drop (times.length - 16) }
  s.when (decide (times.length ≥ 16)) (mgtAlert · 8)

/-- What a command does past R737: the failed body check, or the new state and the response body, which goes out unless the request now waits. -/
abbrev GEffect := State → Bytes → Except GBad (State × Bytes)

/-- Core G handles the request in hand when it is `msg` and its command is `cmd`; one whose command is not defined fails check 1 under any row. -/
def graward (cmd : Nat) (f : GEffect) (msg : Bytes) (s : State) : State :=
  match s.mgt.rx with
  | m :: _ =>
    let c := leAt (gHead msg) 1 1
    if !gServes s || m.bytes != msg || leAt msg 0 1 != 0x7F || (c != cmd && decide (1 ≤ c ∧ c ≤ 0x0C)) then s
    else
      let r := gCheck s msg
      let nonce := s.mgt.nonce
      -- a message that needs the main die wakes it from KEEP (15 R811)
      let s := s.when (r == some (gOff, 0) && s.pow.state == .keep) (ring · .wake)
      let s := (takeMsg s m).when (gReaches9 msg r) fun s => s.onMgt fun x => { x with nonce := x.nonce + 1 }
      match r with
      | some e => gReply (s.when (e.1 == gAuth) (authFailed · c nonce)) m e.1 e.2 []
      | none =>
        match f s (gBody msg) with
        | .error e => gReply s m e.1 e.2 []
        | .ok (t, body) => if t.mgt.proposals.length > s.mgt.proposals.length then t else gReply t m 0 0 body
  | [] => s

/-! ### Identity, health, telemetry, units, twin (R741-R746) -/

/-- GET_IDENTITY (R741, 10 R576). -/
def execGetIdentity (msg : Bytes) (s : State) : Result :=
  done (graward 0x01 (fun s _ => .ok (s, identityBlock s ++ if lifecycle s = 1 ∨ lifecycle s = 4 then offerBytes s else [])) msg s)

/-- TMP_STATUS (13 R722). -/
def tmpStatus (s : State) : BitVec 32 :=
  let b := fun (x : Bool) (n : Nat) => if x then 2 ^ n else 0
  BitVec.ofNat 32 (levelNow s + b s.tmp.inForce 2 + b (s.tmp.cleared && respInForce s) 3 + b s.tmp.restarting 4 + b s.tmp.bootHeld 5 + b s.tmp.withdrawn 6
    + s.tmp.sensor.toNat * 256)

/-- The power state GET_HEALTH shows (R742). -/
def healthState (s : State) : Nat :=
  if s.pow.safe then 5
  else match s.pow.state with
    | .doze => 1
    | .nap => 2
    | .keep => 3
    | _ => if s.pow.mainUp && decide (s.pow.bootStep ≥ 12) then 0 else 4

/-- GET_HEALTH (R742). -/
def healthBytes (s : State) : Bytes :=
  let b := fun (x : Bool) (n : Nat) => if x then 2 ^ n else 0
  let dev := if s.pow.mainRuns = 0 then 0 else if s.pow.mainUp then (devStatus s).toNat else s.mgt.devStatus.toNat
  nonceBytes s ++ leBytes 4 dev ++ leBytes 4 s.mgt.alert.toNat ++ leBytes 4 (tmpStatus s).toNat ++ leBytes 1 (healthState s)
    ++ leBytes 1 (b s.pow.mainUp 0 + b (heldKey s 1).isSome 1 + b s.store.stale 2 + b s.mgt.committed 3) ++ zeros 2

def execGetHealth (msg : Bytes) (s : State) : Result := done (graward 0x02 (fun s _ => .ok (s, healthBytes s)) msg s)

/-- GET_TELEMETRY (R743, R744). -/
def telemetry (s : State) (b : Bytes) : Except GBad (State × Bytes) :=
  let space := leAt b 0 1
  let first := leAt b 2 2
  let n := leAt b 4 2
  if !zeroAt b 1 1 then .error (gReserved, detSub 1)
  else if !zeroAt b 6 2 then .error (gReserved, detSub 6)
  else if space > 1 then .error (gFormat, detSub 0)
  else if n < 1 ∨ n > 64 then .error (gFormat, detSub 4)
  else if space = 0 then
    if first % 8 ≠ 0 ∨ first + 8 * n > 0x1000 then .error (gFormat, detSub 2)
    else
      let age := match s.mgt.copyAt with | some t => min 0xFFFFFFFE ((s.time.clk - t) / 1000) | none => 0xFFFFFFFF
      .ok (s, leBytes 4 age ++ zeros 4 ++ (List.range n).flatMap fun i => leBytes 8 (tget 0 s.mgt.copy (0x4000 + first + 8 * i)).toNat)
  else if first + n > 512 then .error (gFormat, detSub 2)
  else .ok (s, zeros 8 ++ (List.range n).flatMap fun i => leBytes 8 (hotGet s (first + i)).toNat)

def execGetTelemetry (msg : Bytes) (s : State) : Result := done (graward 0x03 telemetry msg s)

/-- GET_UNIT_TABLE (R745): live while the main die runs and the copy matches its table. -/
def unitTableBytes (s : State) : Bytes :=
  let ent := fun (t : Tbl UnitEnt) (u : Nat) => let e := tget {} t u; (e.st, e.lanes, e.reason)
  let live := s.pow.mainUp && s.unit.version == s.unit.gateVersion && (List.range 128).all fun u => ent s.unit.tbl u == ent s.unit.gate u
  leBytes 8 s.unit.gateVersion ++ leBytes 1 (if live then 1 else 0) ++ zeros 7
    ++ (List.range 128).flatMap fun u =>
      let e := tget {} s.unit.gate u
      leBytes 1 (ustCode e.st + 8 * e.lanes.toNat) ++ [e.reason]

def execGetUnitTable (msg : Bytes) (s : State) : Result := done (graward 0x04 (fun s _ => .ok (s, unitTableBytes s)) msg s)

/-- TWIN_STATUS (R746). -/
def execTwinStatus (msg : Bytes) (s : State) : Result :=
  done (graward 0x0C (fun s _ => .ok (s, if s.pow.mainUp then twinBytes s true else fit 32 s.mgt.twinLast)) msg s)

/-! ### Proposals (R751-R753) -/

/-- The body checks of R752. -/
def checkProposal (s : State) (b : Bytes) : Option GBad :=
  let u := leAt b 0 1
  let st := leAt b 1 1
  let lanes := leAt b 2 1
  let why := leAt b 3 1
  if lanes ≥ 4 then some (gReserved, detSub 2)
  else if leAt b 4 1 ≥ 2 then some (gReserved, detSub 4)
  else if !zeroAt b 5 3 then some (gReserved, detSub 5)
  else if !unitFitted .slx4816 u then some (gFormat, detSub 0)
  else if st ≠ 1 ∧ st ≠ 3 ∧ st ≠ 4 ∧ st ≠ 6 then some (gFormat, detSub 1)
  else if why < 1 ∨ why > 0x0C then some (gFormat, detSub 3)
  else if lanes ≠ 0 ∧ !(decide (0x20 ≤ u) && decide (u < 0x26) && st == 1) then some (gFormat, detSub 2)
  else if unitSt s u = .absent then some (gAbsent, 0)
  else if u = 0x32 then some (gRefused, 0)
  else if leAt b 8 8 ≠ s.unit.version then some (gRefused, detSub 8)
  else none

/-- The post of a proposal (R753). -/
def proposalPost (b : Bytes) : Post :=
  { unit := leAt b 0 1, st := BitVec.ofNat 3 (leAt b 1 1), source := 1, reason := 0x10, lanes := BitVec.ofNat 2 (leAt b 2 1), force := (leAt b 4 1).testBit 0 }

/-- PROPOSE_UNIT_STATE (R753): PROPOSAL is recorded, then the post is queued and DB_PROPOSE rung. While the append is deferred the post and the response
wait for it; a record store that is no longer in service is not waited for (log entry 133). -/
def propose (s : State) (b : Bytes) : Except GBad (State × Bytes) :=
  match checkProposal s b with
  | some e => .error e
  | none =>
    let t := append s (.serge .g) 2 0x0201 0 (b.take 5 ++ zeros 3 ++ cut b 8 8)
    if t.store.queue.length > s.store.queue.length && unitActive s 0x50 then
      .ok (t.onMgt fun m => { m with proposals := m.proposals ++ [(m.taken.getD {}, proposalPost b)] }, [])
    else .ok (post t (proposalPost b), [])

def execProposeUnitState (msg : Bytes) (s : State) : Result := done (graward 0x05 propose msg s)

/-! ### Staging (R757-R762) -/

/-- The standby bank: the one not running (R757); bank 1 where none has run yet (log entry 46). -/
def standbyBank (s : State) : BitVec 1 := if s.mgt.runBank = 1 then 0 else 1

/-- Is a commit or an adoption in progress (R761), or does the flash controller answer the main die (15 R772; log entry 126)? -/
def stageBusy (s : State) : Bool := s.mgt.adopt || s.unit.adopting != 0 || flashOfMain s

/-- The session's next offset: as it stands, or after a reset as the latest STAGE_SESSION record of the standby bank gives it (log entry 46). -/
def sessionNext (s : State) : Option Nat :=
  match s.mgt.stageNext with
  | some n => some n
  | none => match latest s 2 0x0203 0 with
    | some r => if leAt r.payload 0 1 = (standbyBank s).toNat then some (leAt r.payload 4 4) else none
    | none => none

/-- Bring the STAGE_SESSION record up to date (R749, R759). -/
def recordSession (s : State) (next : Nat) : State :=
  append s (.serge .g) 2 0x0203 0 (leBytes 1 s.mgt.stageBank.toNat ++ zeros 3 ++ leBytes 4 next)

/-- STAGE_IMAGE_BLOCK (R758, R759): `readBack` says that the block reads back as written. -/
def stageBlock (readBack : Bool) (s : State) (b : Bytes) : Except GBad (State × Bytes) :=
  let off := leAt b 0 4
  let n := leAt b 4 2
  if stageBusy s then .error (gBusy, 0)
  else if !zeroAt b 6 2 then .error (gReserved, detSub 6)
  else if n < 1 ∨ n > 1024 then .error (gFormat, detSub 4)
  else if (off ≠ 0 ∧ some off ≠ sessionNext s) ∨ off + n > 0x02000000 then .error (gFormat, detSub 0)
  else if !readBack then .error (gRefused, 0)
  else
    let data := if off = 0 then b.drop 8 else fit off s.mgt.stageData ++ b.drop 8
    let s := s.onMgt fun m => { m with stageBank := standbyBank s, stageData := data, stageNext := some (off + n), committed := false }
    .ok (s.when (decide (off / 2 ^ 20 ≠ (off + n) / 2 ^ 20)) (recordSession · (off + n)), leBytes 4 (off + n))

def execStageImageBlock (msg : Bytes) (readBackOk : Bool) (s : State) : Result := done (graward 0x06 (stageBlock readBackOk) msg s)

/-- COMMIT_STAGED_IMAGE (R760, R762): the staged HEADER names this length and sequence. -/
def commitImage (s : State) (b : Bytes) : Except GBad (State × Bytes) :=
  let total := leAt b 0 4
  let seq := leAt b 4 8
  let adopt := leAt b 12 1
  if stageBusy s then .error (gBusy, 0)
  else if !zeroAt b 13 3 then .error (gReserved, detSub 13)
  else if adopt > 1 then .error (gFormat, detSub 12)
  else if some total ≠ sessionNext s ∨ bankLength s.mgt.stageData ≠ total ∨ bankSeq s.mgt.stageData ≠ seq ∨ seq ≤ s.pow.imageSeq
      ∨ (adopt = 1 ∧ (tget {} s.unit.gate 0x39).st ≠ .active) then .error (gRefused, 0)
  else
    let s := recordSession s total
    let s := append s (.serge .g) 2 0x0204 0 (leBytes 1 s.mgt.stageBank.toNat ++ leBytes 1 adopt ++ zeros 2 ++ leBytes 4 total ++ leBytes 8 seq)
    let s := s.onMgt fun m => { m with committed := true, commitSeq := seq, adopt := decide (adopt = 1) }
    .ok (s.when (decide (adopt = 1)) fun s => irqMain (ring (s.onUnit fun m => { m with staged := true }) .staged) 7, [])

def execCommitStagedImage (msg : Bytes) (s : State) : Result := done (graward 0x07 commitImage msg s)

/-! ### Attestation, time, alerts, logs (R747, R748, R765-R767) -/

/-- ATTEST (R765, 10 R584): from the key holder and the Gatehouse copies. -/
def attestG (s : State) (b : Bytes) : Except GBad (State × Bytes) :=
  if (tget {} s.unit.gate 0x39).st ≠ .active then .error (gAbsent, 0)
  else match heldKey s 3 with
    | none => .error (gUnusable, 0)
    | some key => .ok (s, attestResponse key (attestMessage s (identityBlock s) b s.dig.gateMeas s.unit.gateVersion s.unit.gate))

def execAttest (msg : Bytes) (s : State) : Result := done (graward 0x08 attestG msg s)

/-- Detail of a voucher's failed check: class 0x3 becomes class 0x1 with the offset less 32 (R766). -/
def voucherDetail (d : BitVec 16) : BitVec 16 := if d.toNat / 0x1000 = 3 then detSub (d.toNat % 0x1000 - 32) else d

/-- SET_TIME_VOUCHER (R766), checked by the active control core under 12 R696. -/
def voucherG (s : State) (b : Bytes) : Except GBad (State × Bytes) :=
  if !coreUp s s.unit.active then .error (gAbsent, 0)
  else match checkVoucher s s.unit.active false b with
    | some e => .error (statusCode e.1, voucherDetail e.2)
    | none => .ok (acceptVoucher s b, [])

def execMgtSetTimeVoucher (msg : Bytes) (s : State) : Result := done (graward 0x09 voucherG msg s)

/-- CLEAR_ALERT (R767). -/
def clearAlertG (s : State) (b : Bytes) : Except GBad (State × Bytes) :=
  let s := s.onMgt fun m => { m with alert := m.alert &&& ~~~BitVec.ofNat 32 (leAt b 0 4) }
  .ok (s, leBytes 4 s.mgt.alert.toNat)

def execClearAlert (msg : Bytes) (s : State) : Result := done (graward 0x0B clearAlertG msg s)

/-- Whole records only, up to `max` records and `room` bytes (R747). -/
def packRecords : Nat → Nat → List Bytes → Bytes
  | 0, _, _ => []
  | _, _, [] => []
  | n + 1, room, r :: t => if r.length ≤ room then r ++ packRecords n (room - r.length) t else []

/-- A record as GET_LOG gives it: of a key slot the header alone, its length 0 (R748). -/
def logBytes (r : Record) : Bytes := if idSpace r.typ = 0x0101 then recHeader { r with payload := [] } else recHeader r ++ r.payload

/-- GET_LOG (R747). -/
def getLogG (s : State) (b : Bytes) : Except GBad (State × Bytes) :=
  let part := BitVec.ofNat 2 (leAt b 0 1)
  let typ := BitVec.ofNat 16 (leAt b 2 2)
  let from_ := leAt b 4 4
  if !zeroAt b 1 1 then .error (gReserved, detSub 1)
  else if !zeroAt b 9 3 then .error (gReserved, detSub 9)
  else if leAt b 0 1 < 1 ∨ leAt b 0 1 > 3 then .error (gFormat, detSub 0)
  else if !typeIn part typ then .error (gFormat, detSub 2)
  else if leAt b 8 1 = 0 then .error (gFormat, detSub 8)
  else if isLog typ then
    let ids := (((s.store.recs.filter fun r => r.part == part && r.typ == typ && readable r && decide (from_ ≤ r.id)).map (·.id)).dedup).mergeSort
    .ok (s, packRecords (leAt b 8 1) 4096 (ids.filterMap fun i => (latest s part typ i).map logBytes))
  else .ok (s, packRecords 1 4096 ((latest s part typ from_).map logBytes).toList)

def execGetLog (msg : Bytes) (s : State) : Result := done (graward 0x0A getLogG msg s)

/-! ### The MGT window (R729, R730) -/

/-- MGT_RX_TAKE. -/
def mgtTake (s : State) : State :=
  match s.mgt.rx with
  | m :: _ => writeStr (takeMsg s m) .g s.mgt.rxAddr.toNat m.bytes
  | [] => s

/-- MGT_TX_SEND: 1 to 4,113 bytes of data RAM; words that are no string, a length out of range or no message taken send nothing (log entry 44). -/
def mgtSend (s : State) : State :=
  match s.mgt.taken, readStr s .g s.mgt.txAddr.toNat s.mgt.txLen.toNat with
  | some m, some b => s.when (decide (1 ≤ s.mgt.txLen.toNat ∧ s.mgt.txLen.toNat ≤ 4113)) fun s => sendMsg s m b
  | _, _ => s

def mgtSet (s : State) (mask : BitVec 32) : State := s.onMgt fun m => { m with alert := m.alert ||| mask }

/-- A cause set in the same cycle as a clear of it stays set (R730). -/
def mgtClear (s : State) (mask setNow : BitVec 32) : State := s.onMgt fun m => { m with alert := m.alert &&& ~~~mask ||| setNow }

/-- A write to the MGT window, which is core G's alone: at these addresses cores A and B have the NVME window. -/
def mgtCmd (s : State) (c : CoreId) (a : Nat) (f : State → State) : State := s.when (c == .g) fun s => winCmd s .g a false f

/-- MGT_RX_TAKE (R729). -/
def execMgtRxTake (c : CoreId) (s : State) : Result := done (mgtCmd s c 0xB003 mgtTake)
/-- MGT_TX_SEND (R729). -/
def execMgtTxSend (c : CoreId) (s : State) : Result := done (mgtCmd s c 0xB006 mgtSend)
/-- MGT_ALERT_SET (R730). -/
def execMgtAlertSet (c : CoreId) (mask : BitVec 32) (s : State) : Result := done (mgtCmd s c 0xB008 (mgtSet · mask))
/-- MGT_ALERT_CLEAR (R730). -/
def execMgtAlertClear (c : CoreId) (mask setNow : BitVec 32) (s : State) : Result := done (mgtCmd s c 0xB009 (mgtClear · mask setNow))

end Sys2Proof.Machine
end

