-- ==== Sys2Proof/Machine/Bus.lean ====
section
/-! DEFINITION. Reads and writes of the engine windows by data address (09 R473-R497, 11 R594, R640, 12 R665, 13 R722, 14 R729, 15), the paged HBM
window, the BAR0 registers (03), and the commands REGISTER_WRITE and READ_TO_CLEAR. -/

namespace Sys2Proof.Machine

/-- One window register: what a read by a core returns and does, the tags a write may carry, whether the standby is shut out, and what a write
does. -/
structure Reg where
  rd : State → CoreId → W36 × State
  tags : List (BitVec 4)
  aOnly : Bool
  wr : State → CoreId → W36 → State

/-- Tags a register can be shown to accept. -/
def tI : List (BitVec 4) := [tInt]
def tB : List (BitVec 4) := [tBits]
def tIB : List (BitVec 4) := [tInt, tBits]
def tD : List (BitVec 4) := [tDaddr]
def tH : List (BitVec 4) := [tHandle]
def tAll : List (BitVec 4) := [tInt, tBits, tDaddr, tCaddr, tHandle]

/-- A read-only register: writes of any word are ignored (00 R12; log entry 48). -/
def regRo (f : State → CoreId → W36) : Reg := { rd := fun s c => (f s c, s), tags := tAll, aOnly := false, wr := fun s _ _ => s }
def regRoI (f : State → CoreId → BitVec 32) : Reg := regRo fun s c => intW (f s c)

/-- A result register (09 R484): read before its command has ended it returns INT 0 and sets the window's error bit. -/
def regRes (w : ResultWin) (f : State → CoreId → W36) : Reg :=
  { regRo f with rd := fun s c => if resultBusy s c w then (intW 0, earlyRead s c w) else (f s c, s) }

/-- A write-only register reads INT 0 (00 R12, 09 R483). -/
def regWo (tags : List (BitVec 4)) (aOnly : Bool) (f : State → CoreId → W36 → State) : Reg :=
  { rd := fun s _ => (intW 0, s), tags := tags, aOnly := aOnly, wr := f }

def regRw (tags : List (BitVec 4)) (aOnly : Bool) (g : State → CoreId → W36) (f : State → CoreId → W36 → State) : Reg :=
  { rd := fun s c => (g s c, s), tags := tags, aOnly := aOnly, wr := f }

def adr (v : BitVec 16) : W36 := daddrW (v.zeroExtend 32)
/-- The low half of a word's value. -/
def lo16 (w : W36) : BitVec 16 := w.val.extractLsb' 0 16

/-- A status word with busy, done, the early-read error and a status code (09 R485, R487, R490). -/
def statusReg (busy dn early : Bool) (e : Status) : BitVec 32 :=
  BitVec.ofNat 32 (bitAt busy 0 + bitAt dn 1 + bitAt early 2 + statusCode e * 256)

/-- KEY window (09 R485). -/
def keyReg : Nat → Option Reg
  | 0x0 => some (regWo tI false fun s c w => keyCmd s c (w.val.toNat % 256))
  | 0x1 => some (regRoI fun s _ => statusReg s.key.cmdBusy s.key.cmdDone s.key.cmdEarly s.key.cmdCode)
  | 0x2 => some (regRw tI false (fun s _ => intW s.key.slotReg) fun s _ w => s.onKey fun k => { k with slotReg := w.val &&& 0x3FFFFFF })
  | 0x3 => some (regWo tH false fun s _ w => s.onKey fun k => { k with handleIn := w })
  | 0x4 => some (regWo tH false fun s _ w => s.onKey fun k => { k with handleIn2 := w })
  | 0x5 => some (regRw tD false (fun s _ => adr s.key.inAddr) fun s _ w => s.onKey fun k => { k with inAddr := lo16 w })
  | 0x6 => some (regRw tI false (fun s _ => intW s.key.inLen) fun s _ w => s.onKey fun k => { k with inLen := w.val })
  | 0x7 => some (regRw tD false (fun s _ => adr s.key.outAddr) fun s _ w => s.onKey fun k => { k with outAddr := lo16 w })
  | 0x8 => some (regRw tB false (fun s _ => bitsW s.key.attr) fun s _ w => s.onKey fun k => { k with attr := w.val })
  | 0x9 => some (regRes .key fun s _ => s.key.handleOut)
  | 0xA => some (regRes .key fun s _ => intW s.key.result)
  | _ => none

/-- DIG_STATUS as a core sees it (11 R594). -/
def digStatus (s : State) (c : CoreId) : BitVec 32 :=
  let d := digGet s c
  BitVec.ofNat 32 (bitAt s.dig.owner.isSome 0 + bitAt (s.dig.owner == some c) 1 + bitAt d.done 2 + bitAt d.early 3 + d.result.toNat * 256)

/-- DIG window (11 R594). No pending digests stand between steps: a bank is accepted or rejected in the step that streams it. -/
def digReg (o : Nat) : Option Reg :=
  if 0x10 ≤ o ∧ o < 0x20 then some (regRes .dig fun s c => bitsW (BitVec.ofNat 32 (leAt (digGet s c).bank (4 * (o - 0x10)) 4)))
  else if 0x40 ≤ o ∧ o < 0xA0 then some { regRo (fun _ _ => {}) with rd := fun s c => measWord s c ((o - 0x40) / 12) ((o - 0x40) % 12) }
  else match o with
  | 0x0 => some (regWo tI false fun s c w => digBegin s c w.val)
  | 0x1 => some (regRoI digStatus)
  | 0x2 => some (regWo tH false fun s c w => digUpd s c fun d => { d with key := w })
  | 0x3 => some (regRw tD false (fun s c => adr (digGet s c).addr) fun s c w => digUpd s c fun d => { d with addr := lo16 w })
  | 0x4 => some (regRw tI false (fun s c => intW (digGet s c).len) fun s c w => digUpd s c fun d => { d with len := w.val })
  | 0x5 => some (regWo tI false fun s c _ => digAbsorb s c)
  | 0x6 => some (regWo tI false fun s c w => digClose s c w.val)
  | 0x7 => some (regWo tI false fun s c _ => digAbandon s c)
  | 0x8 => some (regRoI fun s c => BitVec.ofNat 32 (digGet s c).count)
  | 0x9 => some (regRoI fun s c => BitVec.ofNat 32 ((digGet s c).count / 2 ^ 32))
  | 0xA0 => some (regRoI fun s _ => BitVec.ofNat 32 (bitAt s.dig.snooping 0 + bitAt (!s.dig.adoptDig.isEmpty) 2))
  | _ => none

/-- The bank states of RNG_STATUS, numbered as R622 lists them. -/
def noiseCode : NoiseState → Nat
  | .starting => 0 | .ready => 1 | .switching => 2 | .failed => 3 | .stopped => 4

/-- RNG window (11 R640). -/
def rngReg (o : Nat) : Option Reg :=
  if 0xA ≤ o ∧ o ≤ 0xD then some (regRoI fun s _ => BitVec.ofNat 32 (tget 0 s.rng.fails (o - 0xA)))
  else match o with
  | 0x0 => some (regWo tI false fun s c w => rngCmd s c w.val.toNat)
  | 0x1 => some (regRoI fun s c => BitVec.ofNat 32 (bitAt (rngGet s c).busy 0 + bitAt (rngGet s c).done 1 + bitAt (rngReady s) 2 + s.rng.source % 4 * 8
      + noiseCode s.rng.bank * 32 + statusCode (rngGet s c).status * 256))
  | 0x2 => some (regRw tD false (fun s c => adr (rngGet s c).addr) fun s c w => rngUpd s c fun r => { r with addr := lo16 w })
  | 0x3 => some (regRw tI false (fun s c => intW (rngGet s c).len) fun s c w => rngUpd s c fun r => { r with len := w.val })
  | 0x4 => some (regWo tI true fun s _ w => rngSelect s w.val)
  | 0x5 => some (regWo tI true fun s _ w => rngTest s w.val)
  | 0x6 => some (regRes .rng fun s _ => intW (s.rng.testResult.zeroExtend 32))
  | 0x7 => some (regRoI fun s _ => s.rng.mode.zeroExtend 32)
  | 0x8 => some (regRoI fun s _ => BitVec.ofNat 32 s.rng.reseeds)
  | 0x9 => some (regRoI fun s _ => BitVec.ofNat 32 s.rng.requests)
  | _ => none

/-- LED window (09 R487). -/
def ledReg (o : Nat) : Option Reg :=
  if 0x2 ≤ o ∧ o ≤ 0x5 then some (regWo tI true fun s _ w => s.onLed fun l => { l with ledArgs := tput 0 l.ledArgs (o - 0x2) w.val })
  else match o with
  | 0x0 => some (regWo tI true fun s _ w => ledCmd s w.val.toNat)
  | 0x1 => some (regRoI fun s _ => statusReg s.led.ledBusy s.led.ledDone s.led.ledEarly s.led.ledCode)
  | 0x8 => some (regRes .led fun s _ => intW (s.led.ledResult.zeroExtend 32))
  | 0x10 => some (regRoI fun s _ => s.led.epoch.zeroExtend 32)
  | 0x11 => some (regRoI fun s _ => BitVec.ofNat 32 s.led.ceil)
  | 0x12 => some (regRoI fun s _ => BitVec.ofNat 32 (s.led.ceil / 2 ^ 32))
  | 0x13 => some (regRoI fun s _ => s.par.policy.zeroExtend 32)
  | _ => none

/-- The registers of one lane (09 R487). -/
def laneReg (l : Nat) : Nat → Option Reg
  | 0x0 => some (regRoI fun s _ => BitVec.ofNat 32 (ustCode (unitSt s l) + bitAt (laneBusy s l == 0) 8 + bitAt ((tget {} s.lane.lanes l).gated || unitSt s l == .retired || unitSt s l == .absent) 9))
  | 0x1 => some (regRoI fun s _ => BitVec.ofNat 32 (laneBusy s l))
  | 0x2 => some (regWo tI true fun s _ _ => laneTest s l)
  | 0x3 => some (regRes (.lane l) fun s _ => intW ((tget {} s.lane.lanes l).result.zeroExtend 32))
  | 0x4 => some (regWo tI true fun s _ _ => purgeLane s l)
  | 0x5 => some (regRo fun s _ => bitsW (tget {} s.lane.lanes l).fault)
  | _ => none

/-- The link states of FAB_PORT, numbered as R350 lists them. -/
def linkCode : LinkState → Nat | .down => 0 | .training => 1 | .up => 2

/-- FAB window (09 R490). -/
def fabReg (o : Nat) : Option Reg :=
  if 0x20 ≤ o ∧ o ≤ 0x25 then some (regRoI fun s _ =>
    let p := tget {} s.fab.ports (o - 0x20)
    BitVec.ofNat 32 (linkCode p.link + p.lanesRetired.toNat * 4 + (traffic s.time.clk 1000000 p).2 % 65536 * 65536))
  else match o with
  | 0x0 => some (regWo tI true fun s _ w => fabCmd s w.val.toNat)
  | 0x1 => some (regRoI fun s _ => statusReg (fabTaken s) s.fab.done false s.fab.code)
  | 0x2 => some (regWo tI true fun s _ w => s.onFab fun b => { b with arg0 := w.val })
  | 0x3 => some (regWo tI true fun s _ w => s.onFab fun b => { b with arg1 := w.val })
  | 0x10 => some (regRoI fun s _ => BitVec.ofNat 32 (nodeAddr s + bitAt s.fab.ownAuth 16 + bitAt s.fab.twinAuth 17 + bitAt s.fab.twinMember 18
      + bitAt s.fab.shadowOk 19))
  | 0x11 => some (regRoI fun s _ => BitVec.ofNat 32 (viewOf s (nodeAddr s)).term)
  | 0x12 => some (regWo tI false fun s _ w => s.onFab fun b => { b with viewSel := w.val })
  | 0x13 => some (regRoI fun s _ => BitVec.ofNat 32 (viewValue (s.fab.viewSel.toNat % 4096) (viewOf s (s.fab.viewSel.toNat % 4096)) false))
  | _ => none

/-- What a control core reads from host memory (log entry 47). -/
def hostRead (s : State) (a n : Nat) : Bytes := (List.range n).map fun i => Config.hostByte (a + i) s.time.clk

/-- HQ_DMA_CMD as a store writes it. -/
def dmaCmd (s : State) (c : CoreId) (v : Nat) : State :=
  match v with
  | 1 => dmaIn s c (hostRead s s.hq.dmaHost.toNat s.hq.dmaLen.toNat)
  | 2 => dmaOut s c
  | _ => s

/-- HQ_PLANE as a store writes it. -/
def planeCmd (s : State) (v : Nat) : State := match v with | 1 => planeOpenCmd s | 2 => planePause s | _ => s

/-- HQ window (09 R487). -/
def hqReg : Nat → Option Reg
  | 0x00 => some (regRoI fun s _ => BitVec.ofNat 32 (bitAt (canFetch s 0) 0 + bitAt s.hq.ctlFetched.isSome 1 + bitAt s.hq.open_ 2 + bitAt s.hq.paused 3))
  | 0x01 => some (regRw tD true (fun s _ => adr s.hq.ctlAddr) fun s _ w => s.onHq fun h => { h with ctlAddr := lo16 w })
  | 0x02 => some (regWo tI true fun s c _ => ctlFetch s c (hostRead s ((sqOf s 0).base.toNat * 4096 + 128 * (sqOf s 0).head) 128))
  | 0x03 => some (regRw tD true (fun s _ => adr s.hq.compAddr) fun s _ w => s.onHq fun h => { h with compAddr := lo16 w })
  | 0x04 => some (regWo tI true fun s c _ => ctlComplete s c false)
  | 0x05 => some (regWo tI true fun s _ w => s.onHq fun h => { h with dmaHost := h.dmaHost.extractLsb' 32 32 ++ w.val })
  | 0x06 => some (regWo tI true fun s _ w => s.onHq fun h => { h with dmaHost := w.val ++ h.dmaHost.extractLsb' 0 32 })
  | 0x07 => some (regWo tI true fun s _ w => s.onHq fun h => { h with dmaLen := w.val })
  | 0x08 => some (regWo tD true fun s _ w => s.onHq fun h => { h with dmaLocal := lo16 w })
  | 0x09 => some (regWo tI true fun s c w => dmaCmd s c w.val.toNat)
  | 0x0A => some (regRoI fun s _ => BitVec.ofNat 32 (bitAt s.hq.dmaBusy 0 + bitAt s.hq.dmaDone 1 + bitAt s.hq.dmaError 2))
  | 0x10 => some (regWo tI true fun s _ w => planeCmd s w.val.toNat)
  | 0x11 => some (regWo tI true fun s _ w => hqBind s w.val)
  | _ => none

/-- MBX_POST_WORD0 and MBX_POST_WORD1 (09 R496). -/
def postWord0 (s : State) : BitVec 32 :=
  match s.unit.posts with
  | p :: _ => postBits p
  | [] => 0
def postWord1 (s : State) : BitVec 32 := match s.unit.posts with | p :: _ => p.time | [] => 0

/-- A mailbox: outgoing words at `o`, its send at `o` + 0x10, received words at `o` + 0x20, its acknowledgement at `o` + 0x30 (09 R496). A message
word keeps its tag. -/
def mailReg (o : Nat) (aOnly : Bool) (get : State → CoreId → Mail) (upd : State → CoreId → (Mail → Mail) → State)
    (send : State → CoreId → Nat → State) (ack : State → CoreId → State) : Option Reg :=
  if o < 0x10 then some (regWo (tD ++ tIB) aOnly fun s c w => upd s c fun m => { m with out := tput {} m.out o w })
  else if o = 0x10 then some (regWo tI aOnly fun s c w => send s c w.val.toNat)
  else if 0x20 ≤ o ∧ o < 0x30 then some (regRo fun s c => tget {} (get s c).in_ (o - 0x20))
  else if o = 0x30 then some (regWo tI aOnly fun s c _ => ack s c)
  else none

/-- MBX window (09 R496). -/
def mbxReg (o : Nat) : Option Reg :=
  if 0x100 ≤ o ∧ o < 0x180 then some (regRoI fun s _ => BitVec.ofNat 32 (ustCode (unitSt s (o - 0x100))))
  else if 0x40 ≤ o ∧ o < 0x80 then mailReg (o - 0x40) false peerMail onPeerMail peerSend peerAck
  else if 0x80 ≤ o ∧ o < 0xC0 then mailReg (o - 0x80) true gateMail onGateMail gateSend gateAck
  else match o with
  | 0x00 => some (regRoI fun s _ => BitVec.ofNat 32 (s.unit.posts.length + bitAt s.unit.overflow 9))
  | 0x01 => some (regRo fun s _ => bitsW (postWord0 s))
  | 0x02 => some (regRoI fun s _ => postWord1 s)
  | 0x03 => some (regWo tI true fun s _ _ => nextPost s false)
  | 0x04 => some (regWo tB true fun s _ w => postSelf s w.val)
  | 0x10 => some (regWo tB true fun s _ w => mbxApplyCmd s w.val)
  | 0x11 => some (regRoI fun s _ => BitVec.ofNat 32 (bitAt (applyBusy s) 0 + bitAt s.unit.applyDrained 1 + bitAt s.unit.applyRefused 2
      + s.unit.applyUnit % 256 * 256))
  | 0x18 => some (regWo tI true fun s _ w => doorbell s w.val)
  | 0x20 => some (regRw tB false (fun s c => bitsW (tget 0 s.unit.irqEn (coreIdx c))) fun s c w =>
      s.onUnit fun m => { m with irqEn := tput 0 m.irqEn (coreIdx c) w.val })
  | 0x21 => some (regRw tB false (fun s c => bitsW (pendingBits s c)) fun s c w => irqClear s c w.val 0)
  | 0x22 => some (regRw tI false (fun s c => intW (tget 0 s.unit.timer (coreIdx c))) fun s c w =>
      s.onUnit fun m => { m with timer := tput 0 m.timer (coreIdx c) w.val })
  | _ => none

/-- TIME window (09 R490). -/
def timeReg : Nat → Option Reg
  | 0x0 => some { regRo (fun _ _ => {}) with rd := timeNowLow }
  | 0x1 => some (regRoI fun s c => match c with | .a => s.time.latchA | .b => s.time.latchB | .g => s.time.latchG)
  | 0x2 => some (regRoI fun s _ => BitVec.ofNat 32 (uncAt s.time s.time.us))
  | 0x3 => some (regRoI fun s _ => BitVec.ofNat 32 (bitAt s.time.anchored 0))
  | 0x4 => some (regWo tD true fun s _ w => s.onTime fun t => { t with vAddr := lo16 w })
  | 0x5 => some (regWo tI true fun s _ w => s.onTime fun t => { t with vLen := w.val })
  | 0x6 => some (regWo tI true fun s c w => timeCmd s c w.val.toNat)
  | 0x7 => some (regRoI fun s _ => statusReg s.time.busy s.time.done false s.time.code)
  | _ => none

/-- REC window (12 R665). -/
def recReg : Nat → Option Reg
  | 0x0 => some (regWo tI true fun s c w => recCmd s c w.val)
  | 0x1 => some (regRw tI true (fun s _ => intW (s.store.part.zeroExtend 32)) fun s _ w =>
      s.onStore fun r => { r with part := w.val.extractLsb' 0 2 })
  | 0x2 => some (regRw tI true (fun s _ => intW (s.store.typ.zeroExtend 32)) fun s _ w => s.onStore fun r => { r with typ := lo16 w })
  | 0x3 => some (regRw tI true (fun s _ => intW s.store.id) fun s _ w => s.onStore fun r => { r with id := w.val })
  | 0x4 => some (regRw tD true (fun s _ => adr s.store.addr) fun s _ w => s.onStore fun r => { r with addr := lo16 w })
  | 0x5 => some (regRw tI true (fun s _ => intW s.store.len) fun s _ w => s.onStore fun r => { r with len := w.val })
  | 0x6 => some (regRoI fun s _ => BitVec.ofNat 32 (bitAt s.store.busy 0 + bitAt s.store.done 1 + bitAt s.store.deferred 2 + bitAt s.store.ready 3
      + bitAt s.store.stale 4 + statusCode s.store.code * 256))
  | _ => none

/-- TMP_LEVEL_w (13 R722). -/
def levelWord (s : State) (w : Nat) : Nat :=
  (List.range 16).foldl (fun a i => if 16 * w + i < 28 then a + sensorLevel s (16 * w + i) % 4 * 4 ^ i else a) 0

/-- TMP window (13 R722). -/
def tmpReg (o : Nat) : Option Reg :=
  if 0x10 ≤ o ∧ o < 0x2C then some (regRoI fun s _ => BitVec.ofNat 32 (tget 0 s.tmp.counts (o - 0x10)))
  else match o with
  | 0x0 => some (regRoI fun s _ => tmpStatus s)
  | 0x1 => some (regRoI fun s _ => s.tmp.alarming.zeroExtend 32)
  | 0x2 => some (regRoI fun s _ => BitVec.ofNat 32 (levelWord s 0))
  | 0x3 => some (regRoI fun s _ => BitVec.ofNat 32 (levelWord s 1))
  | 0x30 => some (regRoI fun s _ => BitVec.ofNat 32 (logCount s 0x030B))
  | _ => none

/-- PWR_ROLE.refused of a core. -/
def roleRefused (s : State) (c : CoreId) : Bool := match c with | .a => s.unit.roleRefA | .b => s.unit.roleRefB | .g => false

/-- PWR_ROLE as a core reads it (09 R490, R491). -/
def roleWord (s : State) (c : CoreId) : BitVec 32 :=
  BitVec.ofNat 32 (bitAt (s.unit.active == c) 0 + bitAt (c != .g && coreUp s (peerOf c)) 1 + bitAt (roleRefused s c) 4)

/-- PWR_STATE (15). -/
def pwrState (s : State) : BitVec 32 :=
  BitVec.ofNat 32 ((match s.pow.state with | .doze => 1 | .nap => 2 | _ => 0) + bitAt s.pow.reqRefused 2 + s.pow.reqReason.toNat * 16)

/-- Reading an rc field clears it (00 R12); an event of the same cycle stays set (00 R14). -/
def rcClear (s : State) (f : RcField) (setNow : Bool) : State :=
  match f with
  | .pwrRoleRefused .a => s.onUnit fun m => { m with roleRefA := setNow }
  | .pwrRoleRefused .b => s.onUnit fun m => { m with roleRefB := setNow }
  | .pwrRoleRefused .g => s
  | .pwrStateRefused => s.onPow fun p => { p with reqRefused := setNow }
  | .pulseOverflow x => onPulse s x fun p => { p with overflow := setNow }

/-- PWR window (09 R490, 15). -/
def pwrReg : Nat → Option Reg
  | 0x0 => some { rd := fun s c => (intW (roleWord s c), rcClear s (.pwrRoleRefused c) false), tags := tI, aOnly := false, wr := fun s c w => pwrRole s c w.val }
  | 0x1 => some (regWo tI false fun s c _ => wdogWrite s c)
  | 0x2 => some (regWo tI true fun s c w => peerReset s c w.val)
  | 0x3 => some (regWo tI true fun s c w => pwrReq s c w.val)
  | 0x4 => some { regRo (fun _ _ => {}) with rd := fun s _ => (intW (pwrState s), rcClear s .pwrStateRefused false) }
  | _ => none

/-- NVME window of cores A and B (09 R490). -/
def nvmeReg : Nat → Option Reg
  | 0x0 => some (regWo tI true fun s _ w => nvmeCmd s w.val)
  | 0x1 => some (regRoI (nvmeWord 0))
  | 0x2 => some (regRoI (nvmeWord 1))
  | _ => none
where
  nvmeWord (d : Nat) (s : State) (_ : CoreId) : BitVec 32 :=
    let x := tget {} s.drives d
    BitVec.ofNat 32 (labelState s x + bitAt x.serving 8 + x.progress.toNat * 65536)

/-- MGT window of core G (14 R729). -/
def mgtReg : Nat → Option Reg
  | 0x0 => some (regRoI fun s _ => BitVec.ofNat 32 (bitAt (!s.mgt.rx.isEmpty) 0 + bitAt s.mgt.eid.isSome 2))
  | 0x1 => some (regRw tD false (fun s _ => adr s.mgt.rxAddr) fun s _ w => s.onMgt fun m => { m with rxAddr := lo16 w })
  | 0x2 => some (regRoI fun s _ => BitVec.ofNat 32 (match s.mgt.rx with | m :: _ => m.bytes.length | [] => 0))
  | 0x3 => some (regWo tI false fun s _ _ => mgtTake s)
  | 0x4 => some (regRw tD false (fun s _ => adr s.mgt.txAddr) fun s _ w => s.onMgt fun m => { m with txAddr := lo16 w })
  | 0x5 => some (regRw tI false (fun s _ => intW s.mgt.txLen) fun s _ w => s.onMgt fun m => { m with txLen := w.val })
  | 0x6 => some (regWo tI false fun s _ _ => mgtSend s)
  | 0x7 => some (regRoI fun s _ => s.mgt.alert)
  | 0x8 => some (regWo tB false fun s _ w => mgtSet s w.val)
  | 0x9 => some (regWo tB false fun s _ w => mgtClear s w.val 0)
  | 0xA => some (regRoI fun s _ => s.par.smbus.zeroExtend 32)
  | 0xB => some (regRoI fun s _ => BitVec.ofNat 32 (s.mgt.pecFails % 65536 + s.mgt.discards % 65536 * 65536))
  | _ => none

/-- HBM window (09 R487). -/
def hbmReg (o : Nat) : Option Reg :=
  if 0x10 ≤ o ∧ o < 0x20 then some (regRoI fun s _ =>
    BitVec.ofNat 32 (ustCode (unitSt s o) + tget 0 s.hbm.corrected (o - 0x10) % 65536 * 65536))
  else match o with
  | 0x0 => some (regRw tI false (fun s _ => intW (s.hbm.page.zeroExtend 32)) fun s _ w => s.onHbm fun h => { h with page := w.val.extractLsb' 0 12 })
  | 0x1 => some (regWo tI true fun s _ w => s.onHbm fun h => { h with pubEvent := lo16 w })
  | 0x2 => some (regWo tI true fun s _ w => s.onHbm fun h => { h with pubPtr := w.val })
  | 0x3 => some (regWo tI true fun s _ _ => hbmPublish s)
  | 0x4 => some (regRoI fun s _ => BitVec.ofNat 32 (bitAt s.hbm.pubBusy 0 + bitAt s.hbm.pubDone 1))
  | _ => none

/-- ID_DEVICE (03). -/
def idDevice (s : State) : BitVec 32 := BitVec.ofNat 32 (deviceCode s.pow.variant + s.pow.stepping.toNat * 65536)

/-- ID_BOOT (15 R784). -/
def idBoot (s : State) : BitVec 32 :=
  BitVec.ofNat 32 (s.pow.bank.toNat + s.pow.fail0.toNat * 16 + s.pow.fail1.toNat * 256 + bitAt s.pow.safeStrap 12 + bitAt s.pow.safeNone 13)

/-- ID window (09 R490). -/
def idReg : Nat → Option Reg
  | 0x0 => some (regRoI fun _ c => BitVec.ofNat 32 (coreIdx c))
  | 0x1 => some (regRoI fun s _ => idDevice s)
  | 0x2 => some (regRoI fun s _ => s.pow.unit.extractLsb' 0 32)
  | 0x3 => some (regRoI fun s _ => s.pow.unit.extractLsb' 32 32)
  | 0x4 => some (regRoI fun s _ => s.pow.node.zeroExtend 32)
  | 0x5 => some (regRoI fun s _ => BitVec.ofNat 32 (lifecycle s))
  | 0x6 => some (regWo tI false fun s c w => idLoad s c (w.val.extractLsb' 0 14))
  | 0x7 => some (regRoI fun s c => BitVec.ofNat 32 (bitAt (coreGet s c).idLock 0))
  | 0x8 => some (regRoI fun s _ => idBoot s)
  | _ => none

/-- PQ window (09 R487). -/
def pqReg (o : Nat) : Option Reg :=
  if 0x10 ≤ o ∧ o < 0x20 then some (regRoI fun s _ => BitVec.ofNat 32 (tget {} s.lane.lanes (o - 0x10)).pqReserved)
  else if o = 0 then some (regRoI fun s _ =>
    BitVec.ofNat 32 (bitAt (unitSt s 0x3A != .absent) 0 + ustCode (unitSt s 0x3A) * 2 + s.lane.pqQueue.length % 1024 * 64))
  else none

/-- The register at a data address, from 0x8000 to 0xBFFF, for a core (09 R473). -/
def regAt (c : CoreId) (a : Nat) : Option Reg :=
  let o := a % 0x400
  match (a - 0x8000) / 0x400 with
  | 0 => keyReg o
  | 1 => digReg o
  | 2 => rngReg o
  | 3 => ledReg o
  | 4 => laneReg (o / 0x40) (o % 0x40)
  | 5 => fabReg o
  | 6 => hqReg o
  | 7 => mbxReg o
  | 8 => timeReg o
  | 9 => recReg o
  | 10 => tmpReg o
  | 11 => pwrReg o
  | 12 => if c = .g then mgtReg o else nvmeReg o
  | 13 => hbmReg o
  | 14 => idReg o
  | _ => pqReg o

/-- The outcome of a data access: the word with the state after it, or the trap, and whether the Gatehouse link's CDC_STALL is reported. -/
inductive Bus where
  | ok (w : W36) (s : State)
  | bad (t : TrapInfo) (stall : Bool)

/-- A window access that no register answers; over a Gatehouse link that is down its CDC_STALL is reported (09 R475, R476). -/
def busNone (s : State) (c : CoreId) (a : Nat) : Bus := .bad (trBus, atData a) (linkSilent s c a)

/-- Word of the event and class table region that a paged address names (09 R479). -/
def hbmIndex (s : State) (a : Nat) : Nat := s.hbm.page.toNat * 16384 + (a - 0xC000)

/-- Read a data address (08 R454 check 8, 09 R473, R474, R484). Tags are checked by the instruction. -/
def busRead (s : State) (c : CoreId) (a : Nat) : Bus :=
  if a < 0x8000 then (if (coreGet s c).badData.contains a then .bad (trEcc, atData a) false else .ok (ramGet s c a) s)
  else if a < 0xC000 then
    match (if winRefused s c a false then none else regAt c a) with
    | some r => .ok (r.rd s c).1 (r.rd s c).2
    | none => busNone s c a
  else if c = .g then busNone s c a
  else if s.hbm.badWords.contains (hbmIndex s a) then .bad (trEcc, atData a) false
  else .ok (tget {} s.hbm.words (hbmIndex s a)) s

/-- Write a data address (08 R426, R427, 09 R482, R483): a tag that is not accepted is the first thing found (log entry 48). -/
def busWrite (s : State) (c : CoreId) (a : Nat) (w : W36) : Bus :=
  if a < 0x8000 then .ok w (ramPut s c a w)
  else if a < 0xC000 then
    match (if winRefused s c a false then none else regAt c a) with
    | some r =>
      if !r.tags.contains w.tag then .bad (trTag, atData a) false
      else if winRefused s c a r.aOnly then busNone s c a
      else .ok w (r.wr s c w)
    | none => busNone s c a
  else if c = .g then busNone s c a
  else if w.tag = tHandle ∨ w.tag = tCaddr then .bad (trTag, atData a) false
  else .ok w (s.onHbm fun h => { h with words := tput {} h.words (hbmIndex s a) w })

/-- Take a trap of a core; the stall of a silent crossing is reported all the same. -/
def busTrap (s : State) (c : CoreId) (t : TrapInfo) (stall : Bool) (resume : Nat) : State := trap (s.when stall (cdcStall · 0x48)) c t resume

/-! ### BAR0 (03 R96-R111) -/

/-- CAP_LANES, CAP_UNITS (03). -/
def capLanes (s : State) : BitVec 32 :=
  BitVec.ofNat 32 ((List.range 16).foldl (fun a n => a + bitAt (unitFitted s.pow.variant n) n + bitAt (unitActive s n) (16 + n)) 0)
def capUnits (s : State) : BitVec 32 :=
  BitVec.ofNat 32 ((List.range 6).foldl (fun a n => a + bitAt (unitFitted s.pow.variant (0x20 + n)) n) 0 + 0xC0 + bitAt (unitFitted s.pow.variant 0x3A) 8
    + (if s.pow.variant = .slx4806 then 16 else 24) * 65536)

def ringCode : RingState → Nat | .idle => 0 | .running => 1 | .draining => 2 | .error => 3

def sqCfg (r : SqRing) : Nat := bitAt r.enable 0 + r.kind.toNat * 2 + r.depthLog2.toNat * 256 + r.cq.toNat * 65536
def sqStatus (s : State) (n : Nat) : Nat :=
  let r := sqOf s n
  ringCode r.st + bitAt r.cfgError 2 + bitAt r.doorbellError 3 + bitAt (fallback s n) 4 + r.head % 4096 * 65536
def cqCfg (q : CqRing) : Nat := bitAt q.enable 0 + bitAt q.irqEnable 1 + q.depthLog2.toNat * 256 + q.vector.toNat * 65536
def cqStatus (q : CqRing) : Nat :=
  ringCode q.st + bitAt q.cfgError 2 + bitAt q.doorbellError 3 + bitAt q.writeError 4 + q.tail % 16384 * 65536 + bitAt q.phase 30

/-- The 64 bits at an 8-byte aligned BAR0 address, as a host read finds them (03 R97-R99, R164): a 32-bit read returns one half, but at 0x010C
the latch. -/
def bar0 (s : State) (a : Nat) : BitVec 64 :=
  let two := fun (lo hi : Nat) => BitVec.ofNat 64 (lo + hi * 2 ^ 32)
  let n := a % 0x400 / 0x20
  let r := sqOf s n
  let q := cqOf s n
  if a / 0x400 = 4 then
    (match a % 0x20 with | 0x0 => r.base ++ (0 : BitVec 12) | 0x8 => two (sqCfg r) (sqStatus s n) | 0x10 => two r.lanes.toNat 0 | _ => 0)
  else if a / 0x400 = 5 then
    let mod := two (q.modCount.toNat + q.modTimer.toNat * 256) 0
    (match a % 0x20 with | 0x0 => q.base ++ (0 : BitVec 12) | 0x8 => two (cqCfg q) (cqStatus q) | 0x10 => mod | _ => 0)
  else if a / 0x1000 = 4 then tget 0 s.tele.mirror a
  else match a with
  | 0x000 => two (idDevice s).toNat 0
  | 0x008 => s.pow.unit
  | 0x010 => two s.pow.node.toNat 0
  | 0x040 => two 0x0100 (capLanes s).toNat
  | 0x048 => two (capUnits s).toNat 0x3FEC2020
  | 0x050 => two 0x100400 0
  | 0x100 => two (devStatus s).toNat s.hq.cause.toNat
  | 0x108 => BitVec.ofNat 64 s.time.mUs
  | 0x110 => two s.hq.alert.toNat 0
  | _ => 0

/-- The 64-bit registers of BAR0 (03): ID_UNIT, DEV_TIME, the ring bases and the telemetry fields. -/
def bar0Wide (a : Nat) : Bool :=
  a == 0x008 || a == 0x108 || ((a / 0x400 == 4 || a / 0x400 == 5) && a % 0x20 == 0) || a / 0x1000 == 4

/-- A 32-bit host read (03 R96, R97, R99): at 0x0108 the high half of the time is latched, at 0x010C the latch is read. -/
def bar0Read32 (s : State) (a : Nat) : BitVec 32 × State :=
  if a % 4 ≠ 0 then (0, s)
  else if a = 0x108 then ((bar0 s a).extractLsb' 0 32, devTimeLow s)
  else if a = 0x10C then (s.hq.timeLatch, s)
  else ((bar0 s (a - a % 8)).extractLsb' (if a % 8 = 0 then 0 else 32) 32, s)

/-- A host read of `size` bytes (03 R96): 32 bits, or 64 bits of a 64-bit register, naturally aligned; any other returns 0. -/
def bar0Read (s : State) (a size : Nat) : BitVec 64 × State :=
  if size = 4 then ((bar0Read32 s a).1.zeroExtend 64, (bar0Read32 s a).2)
  else if size = 8 ∧ a % 8 = 0 ∧ bar0Wide a then (bar0 s a, s)
  else (0, s)

/-- A write to HQ_SQ_CFG: an IDLE ring takes the fields, and is enabled or not; elsewhere only enable counts (03 R103-R106). A write that sets
enable again while the ring is DRAINING or in ERROR is ignored: the rules do not say what it does. DESIGN CHOICE, log entry 104. -/
def sqCfgWrite (s : State) (n : Nat) (v : BitVec 32) : State :=
  if (sqOf s n).st = .idle then
    if v.getLsbD 0 then sqEnable n v s
    else onSq s n fun r => { r with kind := if n = 0 then 0 else v.extractLsb' 1 2, depthLog2 := v.extractLsb' 8 4, cq := v.extractLsb' 16 5 }
  else s.when (!v.getLsbD 0) (sqDisable n)

/-- A write to HQ_CQ_CFG (03 R103, R105, R107). -/
def cqCfgWrite (s : State) (n : Nat) (v : BitVec 32) : State :=
  if (cqOf s n).st = .idle then
    if v.getLsbD 0 then cqEnable n v s
    else onCq s n fun q => { q with irqEnable := v.getLsbD 1, depthLog2 := v.extractLsb' 8 4, vector := v.extractLsb' 16 6 }
  else s.when (!v.getLsbD 0) (cqDisable n)

/-- A ring base with bytes `o` to `o` + `size` - 1 replaced; bits [11:0] read 0. -/
def baseWrite (b : BitVec 52) (o size : Nat) (v : BitVec 64) : BitVec 52 :=
  if size = 8 then v.extractLsb' 12 52
  else if o = 0 then b.extractLsb' 20 32 ++ v.extractLsb' 12 20
  else v.extractLsb' 0 32 ++ b.extractLsb' 0 20

/-- DEV_CAUSE bits that the device sets, each as its own event would (03 R100). -/
def causes (s : State) (set : BitVec 32) : State := (List.range 12).foldl (fun s n => s.when (set.getLsbD n) (cause · n)) s

/-- A host write to BAR0 (03 R96, R97, R103-R111): naturally aligned, 32 bits, or 64 bits to a 64-bit register; any other is ignored, as is one to
a register that is read-only. A w1c bit that the device sets in the same cycle stays set (00 R13). -/
def bar0Write (s : State) (a size : Nat) (v : BitVec 64) (setNow : BitVec 32) : State :=
  let w := v.extractLsb' 0 32
  let clr := w &&& ~~~setNow
  let n := a % 0x400 / 0x20
  let o := a % 0x20
  if (size ≠ 4 ∧ size ≠ 8) ∨ a % size ≠ 0 then s
  else if a / 0x400 = 4 ∧ o < 8 then onSq s n fun r => if r.st = .idle then { r with base := baseWrite r.base o size v } else r
  else if a / 0x400 = 5 ∧ o < 8 then onCq s n fun q => if q.st = .idle then { q with base := baseWrite q.base o size v } else q
  else if size = 8 then s
  else if a = 0x104 then causes (s.onHq fun h => { h with cause := h.cause &&& ~~~clr.extractLsb' 0 12 }) setNow
  else if a = 0x110 then devAlert w s
  else if a / 0x400 = 4 ∧ o = 0x8 then sqCfgWrite s n w
  else if a / 0x400 = 4 ∧ o = 0xC then onSq s n fun r =>
    { r with cfgError := (r.cfgError && !clr.getLsbD 2) || setNow.getLsbD 2, doorbellError := (r.doorbellError && !clr.getLsbD 3) || setNow.getLsbD 3 }
  else if a / 0x400 = 5 ∧ o = 0x8 then cqCfgWrite s n w
  else if a / 0x400 = 5 ∧ o = 0xC then onCq s n fun q =>
    { q with cfgError := (q.cfgError && !clr.getLsbD 2) || setNow.getLsbD 2, doorbellError := (q.doorbellError && !clr.getLsbD 3) || setNow.getLsbD 3
             writeError := (q.writeError && !clr.getLsbD 4) || setNow.getLsbD 4 }
  else if a / 0x400 = 5 ∧ o = 0x10 then onCq s n fun q =>
    if q.st = .idle then { q with modCount := w.extractLsb' 0 8, modTimer := w.extractLsb' 8 8 } else q
  else if 0x2000 ≤ a ∧ a < 0x2080 then sqTail ((a - 0x2000) / 4) w s
  else if 0x2100 ≤ a ∧ a < 0x2180 then cqHead ((a - 0x2100) / 4) w s
  else s

/-! ### BAR2: the MSI-X table and the pending-bit array (03 R94, R163); the configuration space (03 R93, R95) -/

/-- The 32 bits at an aligned BAR2 address: 16 bytes for each vector (message address, message data, vector control with the mask bit), the
pending bits at 0x800. -/
def bar2 (s : State) (a : Nat) : BitVec 32 :=
  let x := tget {} s.hq.vecs (a / 16)
  if a < 0x400 then
    (match a % 16 / 4 with
     | 0 => x.addr.extractLsb' 0 32 | 1 => x.addr.extractLsb' 32 32 | 2 => x.data | _ => BitVec.ofNat 32 (bitAt x.masked 0))
  else if 0x800 ≤ a ∧ a < 0x808 then
    BitVec.ofNat 32 ((List.range 32).foldl (fun n i => n + bitAt (tget {} s.hq.vecs ((a - 0x800) / 4 * 32 + i)).pbit i) 0)
  else 0

/-- A 32-bit write to the MSI-X table: clearing a mask bit sends the pending message (R163). -/
def bar2Write32 (s : State) (a : Nat) (v : BitVec 32) : State :=
  let n := a / 16
  let upd := fun f => s.onHq fun h => { h with vecs := tupd {} h.vecs n f }
  if a % 4 ≠ 0 ∨ 0x400 ≤ a then s
  else match a % 16 / 4 with
    | 0 => upd fun x => { x with addr := x.addr.extractLsb' 32 32 ++ v }
    | 1 => upd fun x => { x with addr := v ++ x.addr.extractLsb' 0 32 }
    | 2 => upd fun x => { x with data := v }
    | _ => if v.getLsbD 0 then upd fun x => { x with masked := true } else unmaskVec s n

/-- A host write to BAR2, of 4 or 8 bytes and naturally aligned. -/
def bar2Write (s : State) (a size : Nat) (v : BitVec 64) : State :=
  if (size ≠ 4 ∧ size ≠ 8) ∨ a % size ≠ 0 then s
  else
    let s := bar2Write32 s a (v.extractLsb' 0 32)
    if size = 8 then bar2Write32 s (a + 4) (v.extractLsb' 32 32) else s

/-- The first words of the function's configuration space: vendor and device identifier, class code and revision (03 R93, log entry 103). -/
def configWord (s : State) (a : Nat) : BitVec 32 :=
  match a with
  | 0x0 => BitVec.ofNat 16 (deviceCode s.pow.variant) ++ Config.vendorId
  | 0x8 => (0x108000 : BitVec 24) ++ Config.revisionId
  | _ => 0

/-- A register of the Advanced Error Reporting capability, by its offset there (03 R95, log entry 101). -/
def aerRead (x : Aer) (a : Nat) : BitVec 32 :=
  match a with
  | 0x04 => x.unStatus | 0x08 => x.unMask | 0x0C => x.unSeverity | 0x10 => x.coStatus | 0x14 => x.coMask | 0x18 => x.control | _ => 0

/-- A configuration write to it: the status registers are w1c, the others rw. -/
def aerWrite (x : Aer) (a : Nat) (v setNow : BitVec 32) : Aer :=
  match a with
  | 0x04 => { x with unStatus := x.unStatus &&& ~~~v ||| setNow }
  | 0x08 => { x with unMask := v }
  | 0x0C => { x with unSeverity := v }
  | 0x10 => { x with coStatus := x.coStatus &&& ~~~v ||| setNow }
  | 0x14 => { x with coMask := v }
  | 0x18 => { x with control := v }
  | _ => x

/-- A store by a core to a window register or through the HBM window, outside any instruction of the model's own: its trap is taken. -/
def windowWrite (s : State) (c : CoreId) (a : Nat) (w : W36) : State :=
  if !coreLive s c || decide (a < 0x8000) then s
  else match busWrite s c a w with
    | .ok _ t => t
    | .bad i st => busTrap s c i st (coreGet s c).pc.toNat

/-- REGISTER_WRITE (00 R12, R13, 03 R94-R96, 09 R482, R483). The function is reached only while the main die runs with its link up (03). -/
def execRegisterWrite (t : RegTarget) (s : State) : Result :=
  done (match t with
    | .bar0 a size v now => s.when (hostReach s) fun s => bar0Write s a size v now
    | .bar2 a size v => s.when (hostReach s) fun s => bar2Write s a size v
    | .aer a v now => s.when (hostReach s) fun s => s.onHq fun h => { h with aer := aerWrite h.aer a v now }
    | .window c a w => windowWrite s c a.toNat w)

/-- The word that holds an rc field. -/
def rcWord (s : State) : RcField → BitVec 32
  | .pwrRoleRefused c => roleWord s c
  | .pwrStateRefused => pwrState s
  | .pulseOverflow x => BitVec.ofNat 32 (bitAt (tget {} s.tele.pulses x).overflow 0)

/-- READ_TO_CLEAR (00 R12, R14): the read returns the earlier value and clears the field, but for an event of the same cycle. -/
def execReadToClear (f : RcField) (setNow : Bool) (s : State) : Result :=
  done (rcClear (gotWord (intW (rcWord s f), s)) f setNow)

end Sys2Proof.Machine
end

