-- ==== Sys2Proof/Machine/Frames.lean ====
section
/-! DEFINITION. Frames as bytes (07 R363-R367, R373, R378-R385, R392, R406, R410), their delivery, and FRAME_ROUTE. -/

namespace Sys2Proof.Machine

/-- The header of a frame (07 R363). -/
structure Header where
  typ : Nat
  flags : Nat
  hops : Nat
  src : Nat
  dest : Nat
  len : Nat
  seq : Nat
  rsv : Bool

def headerOf (h : Bytes) : Header :=
  { typ := leAt h 0 1, flags := leAt h 1 1, hops := leAt h 2 1, src := leAt h 4 2 % 4096, dest := leAt h 6 2 % 4096, len := leAt h 8 2
    seq := leAt h 12 4
    rsv := decide (leAt h 1 1 ≥ 16) || !zeroAt h 3 1 || decide (leAt h 4 2 ≥ 4096) || decide (leAt h 6 2 ≥ 4096) || !zeroAt h 10 2 }

/-- Bits from `lo` up of a byte are zero. -/
def highZero (b : Bytes) (o lo : Nat) : Bool := decide (leAt b o 1 < 2 ^ lo)

/-- A journal record from its 16 bytes (06 R303); none for a reserved type or bit. -/
def recOfBytes (b : Bytes) : Option JRec :=
  if !highZero b 1 4 || !highZero b 7 4 then none
  else
    let k : Option JKind := match leAt b 0 1 with
      | 0 => some .pad | 1 => some .mint | 2 => some .close | 3 => some .enter | 4 => some .exit | 5 => some .voidFirst | 6 => some .voidLast
      | 7 => some .roll | _ => none
    k.map fun k => { kind := k, lane := leAt b 1 1, serial := leAt b 2 5, extra := BitVec.ofNat 4 (leAt b 7 1), t := leAt b 8 8 }

/-- The entries of a page from its bytes (06 R274, R275). -/
def entriesOf (b : Bytes) : Tbl LState :=
  ((List.range 16384).filterMap fun k =>
    match bitsOf (leAt b (k / 4) 1) (2 * (k % 4) + 1) (2 * (k % 4)) with
    | 0 => none | 1 => some (k, LState.live) | 2 => some (k, LState.inside) | _ => some (k, LState.closed))

/-- Well-formed, with a length and no reserved bit set (07 R367); otherwise the status a VERDICT_FWD is answered with. -/
def formed (len ok : Bool) (b : FrameBody) : Except Status FrameBody :=
  if !len then .error .badLength else if !ok then .error .reservedField else .ok b

def epochAt (b : Bytes) : BitVec 4 := BitVec.ofNat 4 (leAt b 1 1)

/-- MIRROR_JOURNAL (07 R380). -/
def mirrorBody (b : Bytes) : Except Status FrameBody :=
  match leAt b 0 1 with
  | 0 =>
    let n := leAt b 2 2
    let rs := (List.range n).map fun i => recOfBytes (cut b (24 + 16 * i) 16)
    formed (b.length == 24 + 16 * n) (highZero b 1 4 && zeroAt b 4 4 && rs.all Option.isSome) (.mirrorGroup (epochAt b) (leAt b 8 8) (leAt b 16 8) (rs.filterMap id))
  | 1 => formed (b.length == 8) (highZero b 1 4 && highZero b 3 4) (.pageRequest (epochAt b) (leAt b 2 2) (leAt b 4 4))
  | 2 => formed (b.length == 8) (highZero b 1 4 && highZero b 3 4) (.voidRequest (epochAt b) (leAt b 2 2) (leAt b 4 4))
  | _ => .error .badLength

/-- MIRROR_ACK (07 R381). -/
def mirrorAckBody (b : Bytes) : Except Status FrameBody :=
  match leAt b 0 1 with
  | 0 => formed (b.length == 16) (highZero b 1 4 && zeroAt b 2 6) (.groupAck (epochAt b) (leAt b 8 8))
  | 1 => formed (b.length == 16) (highZero b 1 4 && zeroAt b 2 6) (.leaseAck (epochAt b) (leAt b 8 8))
  | 2 => formed (b.length == 4112) (highZero b 1 4 && highZero b 3 4) (.page (epochAt b) (leAt b 2 2) (leAt b 4 4) (leAt b 8 8) (entriesOf (b.drop 16)))
  | 3 => formed (b.length == 8) (highZero b 1 4 && highZero b 3 4) (.pageAbsent (epochAt b) (leAt b 2 2) (leAt b 4 4))
  | 4 =>
    let n := leAt b 8 4
    formed (b.length == 16 + 16 * n && decide (n ≤ 256)) (highZero b 1 4 && highZero b 3 4 && zeroAt b 12 4)
      (.voidBlock (epochAt b) (leAt b 2 2) (leAt b 4 4) ((List.range n).map fun i => (leAt b (16 + 16 * i) 8, leAt b (24 + 16 * i) 8)))
  | _ => .error .badLength

def mkindOf (n : Nat) : Option MKind :=
  [MKind.join, .withdraw, .takeover, .exclude, .shadowComplete, .handbackOffer, .handbackAccept, .rollQuery, .rollConfirm, .rollRefuse, .view,
   .viewRequest, .decisionAck][n]?

def witnessOf (n : Nat) : Option WAnswer := [WAnswer.grant, .refuse, .abstain][n]?

/-- The payload of a frame, without its padding, by type (07 R366). -/
def bodyOf (typ : Nat) (b : Bytes) : Except Status FrameBody :=
  match typ with
  | 0x01 => formed (decide (b.length ≥ 8) && b.length == 8 + leAt b 3 1 % 128) (highZero b 0 4 && highZero b 1 6 && highZero b 3 7)
      (.verdictFwd (leAt b 0 1 % 16) (leAt b 1 1 % 64) (BitVec.ofNat 8 (leAt b 2 1)) (b.drop 8) (BitVec.ofNat 32 (leAt b 4 4)))
  | 0x02 => formed (b.length == 24)
      (highZero b 0 4 && highZero b 1 6 && highZero b 8 4 && decide (leAt b 8 1 % 2 = 0) && zeroAt b 9 1 && zeroAt b 14 2 && zeroAt b 23 1)
      (.verdictReply (leAt b 0 1) (leAt b 1 1) (BitVec.ofNat 8 (leAt b 2 1)) (BitVec.ofNat 8 (leAt b 3 1)) (BitVec.ofNat 32 (leAt b 4 4))
        (BitVec.ofNat 8 (leAt b 8 1)) (BitVec.ofNat 16 (leAt b 10 2)) (BitVec.ofNat 16 (leAt b 12 2)) (BitVec.ofNat 56 (leAt b 16 7)))
  | 0x03 => mirrorBody b
  | 0x04 => mirrorAckBody b
  | 0x05 => formed (b.length == 16) (zeroAt b 0 1 && highZero b 1 4 && zeroAt b 2 6) (.leaseMirror (epochAt b) (leAt b 8 8))
  | 0x06 =>
    let st := leAt b 0 1
    formed (b.length == 16) (highZero b 0 4 && highZero b 1 4 && zeroAt b 2 2)
      (.heartbeat (st.testBit 0) (st.testBit 1) (st.testBit 2) (st.testBit 3) (epochAt b) (leAt b 4 4) (leAt b 8 8))
  | 0x07 => formed (b.length == 8) (highZero b 0 1 && zeroAt b 1 1 && highZero b 3 4) (.witnessQuery (leAt b 0 1 == 1) (leAt b 2 2) (leAt b 4 4))
  | 0x08 => formed (b.length == 8) (highZero b 0 1 && (witnessOf (leAt b 1 1)).isSome && highZero b 3 4)
      (.witnessReply (leAt b 0 1 == 1) ((witnessOf (leAt b 1 1)).getD .abstain) (leAt b 2 2) (leAt b 4 4))
  | 0x09 => formed (b.length == 16) (highZero b 12 1 && zeroAt b 13 3) (.timePulse (leAt b 0 8) (leAt b 8 4) ((leAt b 12 1).testBit 0))
  | 0x0A =>
    let n := leAt b 8 2
    formed (b.length == 16 + n && decide (n ≤ 4096) && (leAt b 0 1 == 1 || n == 0)) (highZero b 0 2 && zeroAt b 1 1 && highZero b 3 2 && zeroAt b 10 6)
      (.keyTransport (BitVec.ofNat 8 (leAt b 0 1)) (leAt b 2 2) (BitVec.ofNat 32 (leAt b 4 4)) (b.drop 16))
  | 0x0B => formed (b.length == 24) ((mkindOf (leAt b 0 1)).isSome && highZero b 1 4 && highZero b 3 4)
      (.membership ((mkindOf (leAt b 0 1)).getD .join) (epochAt b) (leAt b 2 2) (leAt b 4 4) (leAt b 8 8) (BitVec.ofNat 64 (leAt b 16 8)))
  | _ => .error .badFormat

/-- The checks of R367 on header and payload as it arrives, padded. -/
def frameOf (h : Header) (payload : Bytes) : Except Status FrameBody :=
  if h.rsv then .error .reservedField
  else if payload.length ≠ (h.len + 7) / 8 * 8 ∨ h.len > 4112 ∨ h.hops > 30 then .error .badLength
  else if !zeroAt payload h.len 8 then .error .reservedField
  else bodyOf h.typ (payload.take h.len)

/-- The state a command leaves. -/
def after (s : State) : Result → State
  | .next t => t
  | .fault _ => s
  | .refused _ => s

/-- A MEMBERSHIP frame of a kind, delivered (07 R374). -/
def deliverMember (s : State) (k : MKind) (m : MFrame) : State :=
  after s (match k with
    | .join => execJoinRx m s
    | .withdraw => execWithdrawRx m s
    | .takeover => execTakeoverRx m s
    | .exclude => execExcludeRx m s
    | .shadowComplete => execShadowCompleteRx m s
    | .handbackOffer => execHandbackOfferRx m s
    | .handbackAccept => execHandbackAcceptRx m s
    | .rollQuery => execRollQueryRx m s
    | .rollConfirm => execRollConfirmRx m s
    | .rollRefuse => execRollRefuseRx m s
    | .view => execViewRx m s
    | .viewRequest => execViewRequestRx m s
    | .decisionAck => execDecisionAckRx m s)

/-- How a frame arrived: what a relay of it keeps (07 R365, R371, R378). -/
def carryOf (p : Port) (f : Frame) : Carry := { hops := f.hops, detour := f.detour, vc := f.vc, dim := some (portDim p) }

/-- A frame for this node is delivered: what its own command does. -/
def deliver (s : State) (p : Port) (f : Frame) : State :=
  match f.body with
  | .verdictFwd lane ctx gate cred seq => after s (execVerdictFwdRx 
      { src := f.src, lane := lane, ctx := ctx, gate := gate, cred := cred, seq := seq, relayed := f.relayed, carry := carryOf p f } 16 0 s)
  | .verdictReply lane ctx st v seq info det dec ser => after s (execVerdictReplyRx lane ctx st v seq info det dec ser s)
  | .mirrorGroup e g t rs => after s (execMirrorJournalRx f.src e g t rs s)
  | .pageRequest e h n => after s (execPageRequestRx f.src e h n s)
  | .voidRequest e h n => after s (execVoidRequestRx f.src e h n s)
  | .groupAck e g => after s (execGroupAckRx f.src e g s)
  | .leaseAck e c => after s (execLeaseAckRx f.src e c s)
  | .page e h n g es => after s (execPageRx f.src e h n g es s)
  | .pageAbsent e h n => after s (execPageAbsentRx f.src e h n s)
  | .voidBlock e h n rs => after s (execVoidBlockRx f.src e h n rs s)
  | .leaseMirror e c => after s (execLeaseMirrorRx f.src e c s)
  | .heartbeat a b c d e t g => after s (execHeartbeatRx f.src a b c d e t g s)
  | .witnessQuery x h t => after s (execWitnessQueryRx f.src x h t s)
  | .witnessReply x a h t => after s (execWitnessReplyRx f.src x a h t s)
  | .timePulse t u a => after s (execTimePulseRx p f.src t u a s)
  | .keyTransport k slot x blob =>
    after s (match k.toNat with
      | 0 => execKeyTransportRequestRx f.src slot x s
      | 1 => execKeyTransportDeliverRx f.src slot x blob s
      | 2 => execKeyTransportRefuseRx f.src slot x s
      | _ => execKeyTransportReceiptRx f.src slot x s)
  | .membership k e subj term v u => deliverMember s k { src := f.src, port := p, flood := f.flood, hops := f.hops, epoch := e, subject := subj, term := term, value := v, unit := u }

/-- Frame types of class Link (07 R366). -/
def isLinkClass (typ : Nat) : Bool := typ == 0x06 || typ == 0x09

/-- A frame accepted in order on port `p`: checked (R367, R368), delivered here, or routed on (R370). A flooded MEMBERSHIP frame is delivered at
every node. -/
def acceptFrame (s : State) (p : Port) (h : Header) (payload : Bytes) : State :=
  let here := h.dest == nodeAddr s
  match frameOf h payload with
  | .error e =>
    if h.typ = 0x01 ∧ here ∧ e ≠ .badFormat then
      let b := fit 8 payload
      after s (execVerdictFwdRx { src := h.src, lane := leAt b 0 1 % 16, ctx := leAt b 1 1 % 64, gate := BitVec.ofNat 8 (leAt b 2 1)
                                  seq := BitVec.ofNat 32 (leAt b 4 4), relayed := h.flags.testBit 3, bad := some e } 16 0 s)
    else discardFrame s
  | .ok body =>
    let f : Frame := { src := h.src, dest := h.dest, vc := h.flags.testBit 0, detour := h.flags.testBit 1, flood := h.flags.testBit 2
                       relayed := h.flags.testBit 3, hops := h.hops, body := body }
    if isLinkClass h.typ && f.flood then discardFrame s
    else if here && h.src == nodeAddr s then discardFrame s
    else if here || (f.flood && h.typ == 0x0B) then deliver s p f
    else if h.typ = 0x09 then discardFrame s
    else
      let f := { f with hops := f.hops + 1 }
      -- a forward redirected to this very node is delivered here (R378)
      match f.body with
      | .verdictFwd .. =>
        if stuck s f && !f.relayed && pairOther f.dest == nodeAddr s then deliver s p { f with relayed := true, dest := nodeAddr s }
        else routeFrame s (some (portDim p)) 2 f
      | _ => routeFrame s (some (portDim p)) 2 f

/-- FRAME_ROUTE (R356, R358, R361, R364-R370): a frame arrives on an UP link, as the bytes that crossed it. Its CRC is checked, then its link_seq: a
later one than expected is a gap, an earlier one has been taken already. The expected frame is deciphered under the key of its direction; a tag
that fails is answered as R358 says. -/
def execFrameRoute (p : Port) (wire : Bytes) (s : State) : Result :=
  done (
    let l := portSt s p
    let h := headerOf wire
    let e := l.rxSeq % 2 ^ 32
    if !linkUp s p || !s.pow.mainUp then s
    else if !crcGood wire then rxFail s p .crc
    else if h.seq ≠ e then (if (h.seq + 2 ^ 32 - e) % 2 ^ 32 < 2 ^ 31 then rxFail s p .gap else s)
    else
      match openFrame l.rxKey l.rxSeq wire with
      | none => rxFail s p .gcm
      | some payload => acceptFrame (tookFrame s p h.seq) p h payload)

end Sys2Proof.Machine
end

