-- ==== Sys2Proof/Machine/Flags.lean ====
section
/-! DEFINITION. Arithmetic, logic and shifts of the Serge cores with their flags and tags (08 R424, R434-R437, R440, R452). A combination of tags
that R424 does not allow has no result. -/

namespace Sys2Proof.Machine

/-- The flags Z, N, C, V. -/
structure Flags where
  z : Bool := false
  n : Bool := false
  c : Bool := false
  v : Bool := false
  deriving DecidableEq, Repr

/-- Z and N of a result (R435), with C and V given. -/
def flagsOf (r : BitVec 32) (c v : Bool) : Flags := { z := decide (r = 0), n := r.msb, c := c, v := v }

def Core.setFlags (k : Core) (f : Flags) : Core := { k with z := f.z, n := f.n, c := f.c, v := f.v }

/-- INT or BITS. -/
def isNum (w : W36) : Bool := w.tag = tInt || w.tag = tBits

/-- A DADDR sum or difference (R436): modulo 2^16, V when the true value lies outside 0-0xFFFF, C 0, Z and N of the 32-bit value. -/
def daddrSum (t : Int) : W36 × Flags :=
  let v := (BitVec.ofInt 16 t).zeroExtend 32
  (daddrW v, flagsOf v false (decide (t < 0 ∨ t > 0xFFFF)))

/-- ADD of two 32-bit values (R435). -/
def addVal (a b : BitVec 32) : BitVec 32 × Flags :=
  let r := a + b
  (r, flagsOf r (decide (2 ^ 32 ≤ a.toNat + b.toNat)) (decide (r.toInt ≠ a.toInt + b.toInt)))

/-- SUB of two 32-bit values (R435): C is 1 when no borrow occurs. -/
def subVal (a b : BitVec 32) : BitVec 32 × Flags :=
  let r := a - b
  (r, flagsOf r (decide (b.toNat ≤ a.toNat)) (decide (r.toInt ≠ a.toInt - b.toInt)))

/-- ADD (R424, R435, R436). -/
def addW (a b : W36) : Option (W36 × Flags) :=
  if a.tag = tInt ∧ b.tag = tInt then some (intW (addVal a.val b.val).1, (addVal a.val b.val).2)
  else if a.tag = tDaddr ∧ b.tag = tInt then some (daddrSum (a.val.toNat + b.val.toInt))
  else if a.tag = tInt ∧ b.tag = tDaddr then some (daddrSum (a.val.toInt + b.val.toNat))
  else none

/-- SUB (R424, R435, R436). -/
def subW (a b : W36) : Option (W36 × Flags) :=
  if a.tag = tInt ∧ b.tag = tInt then some (intW (subVal a.val b.val).1, (subVal a.val b.val).2)
  else if a.tag = tDaddr ∧ b.tag = tInt then some (daddrSum (a.val.toNat - b.val.toInt))
  else if a.tag = tDaddr ∧ b.tag = tDaddr then some (intW (subVal a.val b.val).1, { (subVal a.val b.val).2 with v := false })
  else none

/-- CMP (R424, R435-R437). -/
def cmpW (a b : W36) : Option Flags :=
  if isNum a ∧ isNum b then some (subVal a.val b.val).2
  else if a.tag = tDaddr ∧ b.tag = tDaddr then some { (subVal a.val b.val).2 with v := false }
  else if (a.tag = tHandle ∧ b.tag = tHandle) ∨ (a.tag = tCaddr ∧ b.tag = tCaddr) then some { z := decide (a.val = b.val) }
  else none

/-- AND, OR, XOR (R424): the tag of ACC is kept. -/
def logicW (f : BitVec 32 → BitVec 32 → BitVec 32) (a b : W36) : Option W36 :=
  if isNum a ∧ isNum b then some { tag := a.tag, val := f a.val b.val } else none

/-- MUL (R434): low and high word of the signed product, V when it lies outside 32 bits. -/
def mulVal (a b : BitVec 32) : BitVec 32 × BitVec 32 × Flags :=
  let p := a.toInt * b.toInt
  let lo := BitVec.ofInt 32 p
  (lo, BitVec.ofInt 32 (p / 2 ^ 32), flagsOf lo false (decide (p < -(2 ^ 31) ∨ 2 ^ 31 - 1 < p)))

/-- DIV (R434, R452): quotient truncated towards zero, remainder with the sign of the dividend; V only for -2^31 by -1. The divisor is not 0. -/
def divVal (a b : BitVec 32) : BitVec 32 × BitVec 32 × Flags :=
  let q := Int.tdiv a.toInt b.toInt
  let r := BitVec.ofInt 32 q
  (r, BitVec.ofInt 32 (Int.tmod a.toInt b.toInt), flagsOf r false (decide (q = 2 ^ 31)))

/-- A shift by `n`, 0-63, of a value, with C as it becomes: none leaves it unchanged (R452). -/
def shiftVal (op : ShiftOp) (a : BitVec 32) (n : Nat) : BitVec 32 × Option Bool :=
  if n = 0 then (a, none)
  else match op with
  | .lsl => (a <<< n, some (decide (n ≤ 32) && a.getLsbD (32 - n)))
  | .lsr => (a >>> n, some (decide (n ≤ 32) && a.getLsbD (n - 1)))
  | .asr => (a.sshiftRight n, some (decide (n ≤ 32) && a.getLsbD (n - 1)))
  | .ror => (a.rotateRight (n % 32), some (decide (n ≤ 32) && a.getLsbD (n - 1)))

/-- A shift of ACC: the tag is kept, V unchanged (R440). -/
def shiftAcc (op : ShiftOp) (n : Nat) (k : Core) : Core :=
  let r := shiftVal op k.acc.val n
  { k with acc := { k.acc with val := r.1 }, z := decide (r.1 = 0), n := r.1.msb, c := r.2.getD k.c }

end Sys2Proof.Machine
end

