-- ==== Sys2Proof/Machine/Serge.lean ====
section
/-! DEFINITION. The instructions of the Serge cores (08): the words of an instruction, the trap checks in their order (R454), one iteration of
every operation, repeats (R448-R451), and the commands, one for each instruction. -/

namespace Sys2Proof.Machine

/-! ### The words of an instruction (R428, R434, R440, R445) -/

def opCode : MOp → Nat
  | .ld => 0 | .st => 1 | .add => 2 | .sub => 3 | .and => 4 | .or => 5 | .xor => 6 | .cmp => 7 | .mul => 8 | .div => 9
  | .ldx => 10 | .ldy => 11 | .jmp => 12 | .call => 13

def modeCode : SMode → Nat | .direct => 0 | .x => 1 | .y => 2 | .imm => 3

def groupCode : GOp → Nat
  | .nop => 0x00 | .halt => 0x01 | .wait => 0x02 | .svc => 0x03 | .ei => 0x04 | .di => 0x05 | .iret => 0x06 | .ret => 0x07 | .jmpa => 0x08
  | .neg => 0x09 | .not => 0x0A | .stx => 0x0B | .sty => 0x0C | .xa => 0x0D | .ya => 0x0E | .lra => 0x0F | .alr => 0x10 | .asi => 0x11
  | .asb => 0x12 | .lslx => 0x13 | .lsrx => 0x14 | .asrx => 0x15 | .rorx => 0x16 | .adp => 0x17 | .tq t => 0x18 + t.toNat | .dpa => 0x1E

def shiftCode : ShiftOp → Nat | .lsl => 0x20 | .lsr => 0x40 | .asr => 0x60 | .ror => 0

/-- Bits [10:0] of the instruction word. -/
def opBits : SOp → Nat
  | .mem op mode field => opCode op * 128 + modeCode mode * 32 + field.toNat
  | .xmov field => 0x700 + field.toNat
  | .group g => 0x780 + groupCode g
  | .shift k field => 0x780 + shiftCode k + field.toNat

/-- The instruction word of an operation under a condition code (R428). -/
def instrWord (cond : BitVec 3) (op : SOp) : BitVec 14 := BitVec.ofNat 14 (cond.toNat * 0x800 + opBits op)

/-- The words in fetch order: repeat prefix, EXT prefixes, instruction word. -/
def seqWords (x : SCtx) (op : SOp) : List (BitVec 14) :=
  (match x.rep with
    | .none => []
    | .rep n i => [BitVec.ofNat 14 (0x3A00 + bitAt i 8 + (n - 1))]
    | .repx i => [BitVec.ofNat 14 (0x3C00 + bitAt i 8)])
  ++ x.exts.map (fun e => BitVec.ofNat 14 (0x3800 + e.toNat)) ++ [instrWord x.cond op]

/-- The operand modes, by code. -/
def modeOf (n : Nat) : SMode := match n with | 0 => .direct | 1 => .x | 2 => .y | _ => .imm

/-- The operations 0x0 to 0xD, by code. -/
def mopOf (n : Nat) : MOp :=
  match n with
  | 0 => .ld | 1 => .st | 2 => .add | 3 => .sub | 4 => .and | 5 => .or | 6 => .xor | 7 => .cmp | 8 => .mul | 9 => .div | 10 => .ldx | 11 => .ldy
  | 12 => .jmp | _ => .call

/-- The GROUP sub-ops, by mode:field (R440). -/
def groupOf (n : Nat) : SOp :=
  if n ≥ 0x60 then .shift .asr (BitVec.ofNat 5 n)
  else if n ≥ 0x40 then .shift .lsr (BitVec.ofNat 5 n)
  else if n ≥ 0x20 then .shift .lsl (BitVec.ofNat 5 n)
  else if 0x18 ≤ n ∧ n ≤ 0x1D then .group (.tq (BitVec.ofNat 3 (n - 0x18)))
  else .group (match n with
    | 0x01 => .halt | 0x02 => .wait | 0x03 => .svc | 0x04 => .ei | 0x05 => .di | 0x06 => .iret | 0x07 => .ret | 0x08 => .jmpa | 0x09 => .neg
    | 0x0A => .not | 0x0B => .stx | 0x0C => .sty | 0x0D => .xa | 0x0E => .ya | 0x0F => .lra | 0x10 => .alr | 0x11 => .asi | 0x12 => .asb
    | 0x13 => .lslx | 0x14 => .lsrx | 0x15 => .asrx | 0x16 => .rorx | 0x17 => .adp | 0x1E => .dpa | _ => .nop)

/-- The operands name an instruction: a condition code, a REP count of 1 to 256, a TQ tag of 0 to 5, a shift by an immediate. -/
def isInstr (x : SCtx) (op : SOp) : Bool :=
  x.cond != 7 && (match x.rep with | .rep n _ => decide (1 ≤ n ∧ n ≤ 256) | _ => true)
    && (match op with | .group (.tq t) => decide (t.toNat ≤ 5) | .shift .ror _ => false | _ => true)

/-! ### Checks 1 to 3 (R454) -/

/-- Fields of an instruction word. -/
def isPrefix (w : BitVec 14) : Bool := w.extractLsb' 11 3 == 7
def wOp (w : BitVec 14) : Nat := (w.extractLsb' 7 4).toNat
def wMode (w : BitVec 14) : Nat := (w.extractLsb' 5 2).toNat
def isExt (w : BitVec 14) : Bool := isPrefix w && w.extractLsb' 9 2 == 0
def isRep (w : BitVec 14) : Bool := isPrefix w && (w.extractLsb' 9 2 == 1 || w.extractLsb' 9 2 == 2)

/-- Is a word a defined encoding with zero reserved bits (R445, R469)? -/
def isDefined (w : BitVec 14) : Bool :=
  if isPrefix w then w.extractLsb' 9 2 == 0 || w.extractLsb' 9 2 == 1 || (w.extractLsb' 9 2 == 2 && w.extractLsb' 0 8 == 0)
  else !(wOp w == 1 && wMode w == 3) && !(wOp w == 0xE && wMode w != 0) && !(wOp w == 0xF && w.extractLsb' 0 7 == 0x1F)

/-- The condition code and operation that a word spells; none for a prefix word or an undefined encoding (R428, R434, R440, R469). -/
def instrOf (w : BitVec 14) : Option (BitVec 3 × SOp) :=
  if isPrefix w || !isDefined w then none
  else
    let field := w.extractLsb' 0 5
    some (w.extractLsb' 11 3,
      if wOp w = 0xF then groupOf (w.extractLsb' 0 7).toNat else if wOp w = 0xE then .xmov field else .mem (mopOf (wOp w)) (modeOf (wMode w)) field)

/-- Composite bits above [15] of a direct address are not zero in this EXT word, the n-th of m (R431). -/
def extHigh (m n : Nat) (w : BitVec 14) : Bool :=
  let at_ := 5 + 9 * (m - 1 - n)
  decide ((w.extractLsb' 0 9).toNat * 2 ^ at_ ≥ 2 ^ 16)

/-- Position of the first word with an undefined encoding or a reserved bit set. -/
def undefAt (ws : List (BitVec 14)) : Option Nat :=
  let last := ws.getLastD 0
  let direct := wMode last == 0 && decide (wOp last < 0xE)
  let exts := ws.filter isExt
  let before := fun (i : Nat) => ((ws.take i).filter isExt).length
  (List.range ws.length).find? fun i =>
    let w := ws.getD i 0
    !isDefined w || (direct && isExt w && extHigh exts.length (before i) w)

/-- A control sub-op (R441). -/
def isControl (w : BitVec 14) : Bool := wOp w == 0xF && decide (1 ≤ (w.extractLsb' 0 7).toNat) && decide ((w.extractLsb' 0 7).toNat ≤ 8)

/-- May an instruction word be repeated (R446)? -/
def repeatable (w : BitVec 14) : Bool := !(wOp w == 0xC || wOp w == 0xD || isControl w || ((wOp w == 8 || wOp w == 9) && wMode w == 2))

/-- Position of the first prefix word that R446 does not allow: a repeat prefix after another prefix or before an operation that may not be
repeated, an EXT before GROUP, a fourth EXT (log entry 49). -/
def prefixAt (ws : List (BitVec 14)) : Option Nat :=
  let last := ws.getLastD 0
  (List.range (ws.length - 1)).find? fun i =>
    let w := ws.getD i 0
    if isRep w then decide (i ≠ 0) || !repeatable last
    else wOp last == 0xF || decide (((ws.take i).filter isExt).length ≥ 3)

/-- Checks 1 to 3 of R454 for a sequence of words fetched from `pc`: the first word in fetch order that holds an uncorrectable ECC error, which lies
in program memory, or that lies beyond it; then the encodings; then the prefixes. -/
def frontCheck (c : CoreId) (bad : List Nat) (pc : Nat) (ws : List (BitVec 14)) : Option TrapInfo :=
  match (List.range ws.length).find? fun i => bad.contains (pc + i) && decide (pc + i < progEnd c) with
  | some i => some (trEcc, atProg (pc + i))
  | none =>
  if pc + ws.length > progEnd c then some (trBus, atProg (max pc (progEnd c)))
  else match undefAt ws with
    | some i => some (trUndef, atWord (ws.getD i 0) i)
    | none => (prefixAt ws).map fun i => (trPrefix, atWord (ws.getD i 0) i)

/-! ### Condition, registers, operands -/

/-- The condition (R429). -/
def condHolds (k : Core) (c : BitVec 3) : Bool :=
  match c.toNat with
  | 0 => true
  | 1 => k.z
  | 2 => !k.z
  | 3 => k.n != k.v
  | 4 => k.n == k.v
  | 5 => k.c
  | 6 => !k.c
  | _ => false

def anyTag : List (BitVec 4) := [tInt, tBits, tDaddr, tCaddr, tHandle]

/-- The registers an operation reads, each with the tags R424 allows: 0 ACC, 1 X, 2 Y, 3 LR. `count`: REPX reads its count from X. -/
def regNeeds (count : Bool) (op : SOp) (r : Nat) : List (List (BitVec 4)) :=
  (if count && r == 1 then [[tInt]] else []) ++
  match r, op with
  | 0, .mem .st _ _ | 0, .mem .cmp _ _ => [anyTag]
  | 0, .mem .add _ _ | 0, .mem .sub _ _ => [[tInt, tDaddr]]
  | 0, .mem .and _ _ | 0, .mem .or _ _ | 0, .mem .xor _ _ => [[tInt, tBits]]
  | 0, .mem .mul _ _ | 0, .mem .div _ _ => [[tInt]]
  | 1, .mem .ldx .x _ | 2, .mem .ldy .y _ => [[tInt, tDaddr]]
  | 1, .mem _ .x _ | 2, .mem _ .y _ | 1, .xmov _ | 2, .xmov _ => [[tDaddr]]
  | 0, .group .jmpa | 0, .group .alr => [[tCaddr]]
  | 0, .group .neg => [[tInt]]
  | 0, .group .not | 0, .group .asi | 0, .group .asb | 0, .shift _ _ => [[tInt, tBits]]
  | 0, .group .lslx | 0, .group .lsrx | 0, .group .asrx | 0, .group .rorx => [[tInt, tBits]]
  | 1, .group .lslx | 1, .group .lsrx | 1, .group .asrx | 1, .group .rorx => [[tInt]]
  | 0, .group .stx | 0, .group .sty => [anyTag]
  | 0, .group .adp => [[tDaddr]]
  | 1, .group .xa | 2, .group .ya | 3, .group .lra => [anyTag]
  | 3, .group .ret => [[tCaddr]]
  | _, _ => []

def regOf (k : Core) : Nat → W36
  | 0 => k.acc
  | 1 => k.x
  | 2 => k.y
  | _ => k.lr

/-- Check 6 (R423, R424, R454): every register read holds a word that is not VOID, of a tag allowed. -/
def regCheck (k : Core) (count : Bool) (op : SOp) : Option TrapInfo :=
  [0, 1, 2, 3].findSome? fun r => (regNeeds count op r).findSome? fun tags =>
    let w := regOf k r
    if w.tag = tVoid then some (trVoid, atReg r) else if tags.contains w.tag then none else some (trTag, atReg r)

/-- The composite with its width (R430). -/
def composite (exts : List (BitVec 9)) (field : BitVec 5) : Nat × Nat :=
  (5 + 9 * exts.length, (exts.foldl (fun a e => a * 512 + e.toNat) 0) * 32 + field.toNat)

/-- A value sign-extended from `w` bits. -/
def signed (w v : Nat) : Int := if 2 ^ (w - 1) ≤ v then (v : Int) - 2 ^ w else v

/-- The immediate, and the signed offset of R433 and of XMOV with EXT (R431). -/
def immOf (exts : List (BitVec 9)) (field : BitVec 5) : Int := signed (composite exts field).1 (composite exts field).2

/-- The offset of modes 01 and 10 (R431): field as 0-31, a composite sign-extended. -/
def offsetOf (exts : List (BitVec 9)) (field : BitVec 5) : Int := if exts.isEmpty then field.toNat else immOf exts field

/-- A data address formed from a value and an offset, modulo 2^16 (R432). -/
def wrapAddr (v : BitVec 32) (o : Int) : Nat := (BitVec.ofInt 16 (v.toNat + o)).toNat

/-- The operand's address (R431). -/
def eaOf (k : Core) (exts : List (BitVec 9)) (mode : SMode) (field : BitVec 5) : Nat :=
  match mode with
  | .direct => if exts.isEmpty then k.dp.toNat * 32 + field.toNat else (composite exts field).2 % 65536
  | .x => wrapAddr k.x.val (offsetOf exts field)
  | .y => wrapAddr k.y.val (offsetOf exts field)
  | .imm => 0

/-- One iteration: the state after it with the jump's target, or a trap. -/
inductive Iter where
  | ok (s : State) (jump : Option Nat)
  | bad (t : TrapInfo) (stall : Bool)

/-- A read word may be used: neither VOID nor of a reserved tag (R425). -/
def readCheck (a : Nat) (w : W36) : Option TrapInfo :=
  if w.tag = tVoid then some (trVoid, atData a) else if anyTag.contains w.tag then none else some (trTag, atData a)

/-- Z and N from a value that is loaded (R434): both cleared for HANDLE and CADDR. -/
def loadAcc (w : W36) (k : Core) : Core :=
  let plain := w.tag ≠ tHandle ∧ w.tag ≠ tCaddr
  { k with acc := w, z := decide (plain ∧ w.val = 0), n := decide plain && w.val.msb }

/-- An operation on a core's registers with its operand; none where R424 allows no such operand (R434). -/
def applyOp (op : MOp) (w : W36) (k : Core) : Option Core :=
  let logic := fun (f : BitVec 32 → BitVec 32 → BitVec 32) => (logicW f k.acc w).map fun r => { k with acc := r, z := decide (r.val = 0), n := r.val.msb }
  match op with
  | .ld => some (loadAcc w k)
  | .add => (addW k.acc w).map fun r => { k with acc := r.1 }.setFlags r.2
  | .sub => (subW k.acc w).map fun r => { k with acc := r.1 }.setFlags r.2
  | .and => logic (· &&& ·)
  | .or => logic (· ||| ·)
  | .xor => logic (· ^^^ ·)
  | .cmp => (cmpW k.acc w).map fun f => k.setFlags f
  | .mul =>
    let r := mulVal k.acc.val w.val
    if w.tag = tInt then some ({ k with acc := intW r.1, y := intW r.2.1 }.setFlags r.2.2) else none
  | .div =>
    let r := divVal k.acc.val w.val
    if w.tag = tInt then some ({ k with acc := intW r.1, y := intW r.2.1 }.setFlags r.2.2) else none
  | .ldx => some { k with x := w }
  | .ldy => some { k with y := w }
  | .st | .jmp | .call => some k

/-- A jump (R434, R438): the target must lie in program memory; CALL leaves the return address in LR. -/
def jumpTo (c : CoreId) (link : Bool) (next : Nat) (t : Int) (s : State) : Iter :=
  if t < 0 ∨ t ≥ progEnd c then .bad (trBus, intW (BitVec.ofInt 32 (0x20000 + t))) false
  else .ok (s.when link fun s => coreUpd s c fun k => { k with lr := caddrW (BitVec.ofNat 14 next) }) (some t.toNat)

/-- Checks 9 and 10 (R454) and the operation, with its operand in hand; `fault` names the operand. -/
def useOperand (c : CoreId) (op : MOp) (w : W36) (fault : W36) (next : Nat) (s : State) : Iter :=
  match op with
  | .jmp | .call => if w.tag = tCaddr then jumpTo c (op == .call) next w.val.toNat s else .bad (trTag, fault) false
  | _ =>
    match applyOp op w (coreGet s c) with
    | none => .bad (trTag, fault) false
    | some k => if op = .div ∧ w.val = 0 then .bad (trDiv, intW 0) false else .ok (coreUpd s c fun _ => k) none

/-- R433: a pointer moved by an offset, by the tag rule of ADD; the flags stay. -/
def movePtr (w : W36) (o : Int) : W36 := if w.tag = tDaddr then daddrW (BitVec.ofNat 32 (wrapAddr w.val o)) else intW (w.val + BitVec.ofInt 32 o)

/-- A DADDR immediate (R424): 0 to 0xFFFF. -/
def ptrImm (i : Int) : Option W36 := if 0 ≤ i ∧ i ≤ 0xFFFF then some (daddrW (BitVec.ofInt 32 i)) else none

/-- One iteration of an operation with an operand (R431-R438, R454 checks 8 to 11). `a`: address of the instruction word. -/
def memIter (c : CoreId) (exts : List (BitVec 9)) (op : MOp) (mode : SMode) (field : BitVec 5) (a : Nat) (s : State) : Iter :=
  let k := coreGet s c
  let ea := eaOf k exts mode field
  match op, mode with
  | .st, _ => (match busWrite s c ea k.acc with | .ok _ t => .ok t none | .bad i st => .bad i st)
  | .ldx, .x => .ok (coreUpd s c fun k => { k with x := movePtr k.x (immOf exts field) }) none
  | .ldy, .y => .ok (coreUpd s c fun k => { k with y := movePtr k.y (immOf exts field) }) none
  | .ldx, .imm => (match ptrImm (immOf exts field) with | some w => .ok (coreUpd s c fun k => { k with x := w }) none | none => .bad (trTag, atReg 1) false)
  | .ldy, .imm => (match ptrImm (immOf exts field) with | some w => .ok (coreUpd s c fun k => { k with y := w }) none | none => .bad (trTag, atReg 2) false)
  | .jmp, .imm => jumpTo c false (a + 1) (a + immOf exts field) s
  | .call, .imm => jumpTo c true (a + 1) (a + immOf exts field) s
  | _, .imm => useOperand c op (intW (BitVec.ofInt 32 (immOf exts field))) (atReg 0) (a + 1) s
  | _, _ =>
    match busRead s c ea with
    | .bad i st => .bad i st
    | .ok w t => (match readCheck ea w with | some i => .bad i false | none => useOperand c op w (atData ea) (a + 1) t)

/-- One iteration of XMOV (R434). -/
def xmovIter (c : CoreId) (exts : List (BitVec 9)) (field : BitVec 5) (s : State) : Iter :=
  let k := coreGet s c
  let src := wrapAddr k.x.val (offsetOf exts field)
  match busRead s c src with
  | .bad i st => .bad i st
  | .ok w t =>
    match readCheck src w with
    | some i => .bad i false
    | none =>
      match busWrite t c (k.y.val.toNat % 65536) w with
      | .bad i st => .bad i st
      | .ok _ u => .ok (coreUpd u c fun k => { k with x := movePtr k.x 1, y := movePtr k.y 1 }) none

/-- The effect of a sub-op on the core's registers (R440); the control sub-ops but RET, JMPA, EI and DI are not here. -/
def groupCore (g : GOp) (k : Core) : Core :=
  match g with
  | .neg => let r := subVal 0 k.acc.val; { k with acc := intW r.1 }.setFlags r.2
  | .not => let r := ~~~k.acc.val; { k with acc := { k.acc with val := r }, z := decide (r = 0), n := r.msb }
  | .stx => { k with x := k.acc }
  | .sty => { k with y := k.acc }
  | .xa => { k with acc := k.x }
  | .ya => { k with acc := k.y }
  | .lra => { k with acc := k.lr }
  | .alr => { k with lr := k.acc }
  | .asi => { k with acc := { k.acc with tag := tInt } }
  | .asb => { k with acc := { k.acc with tag := tBits } }
  | .lslx => shiftAcc .lsl (k.x.val.toNat % 64) k
  | .lsrx => shiftAcc .lsr (k.x.val.toNat % 64) k
  | .asrx => shiftAcc .asr (k.x.val.toNat % 64) k
  | .rorx => shiftAcc .ror (k.x.val.toNat % 64) k
  | .adp => { k with dp := k.acc.val.extractLsb' 5 11 }
  | .tq t => k.setFlags { z := k.acc.tag == t.zeroExtend 4 }
  | .dpa => { k with acc := daddrW (BitVec.ofNat 32 (k.dp.toNat * 32)) }
  | .di => { k with ie := false }
  | .nop | .halt | .wait | .svc | .ei | .iret | .ret | .jmpa => k

/-- One iteration of an operation (R434, R440). -/
def iter (x : SCtx) (op : SOp) (s : State) : Iter :=
  let c := x.core
  let k := coreGet s c
  match op with
  | .mem op mode field => memIter c x.exts op mode field (k.pc.toNat + (seqWords x (.mem op mode field)).length - 1) s
  | .xmov field => xmovIter c x.exts field s
  | .group .ret => jumpTo c false 0 k.lr.val.toNat s
  | .group .jmpa => jumpTo c false 0 k.acc.val.toNat s
  | .group g => .ok (coreUpd s c (groupCore g)) none
  | .shift sh field => .ok (coreUpd s c (shiftAcc sh (field.toNat + 1))) none

/-! ### Ending an instruction -/

/-- Is the core supplied? An instruction that powers its own die down does not go on. -/
def coreOn (s : State) (c : CoreId) : Bool := if c = .g then s.pow.standby else s.pow.mainUp

/-- The instruction completes and PC goes on: an EI before it takes effect now (R442), a repeat ends with REPC 0 (R448). -/
def finish (s : State) (c : CoreId) (pc : Nat) (ei : Bool) : State :=
  s.when (coreOn s c) fun s => coreUpd s c fun k => setPc c pc { k with repc := 0, rep := none, ie := k.ie || k.eiNext, eiNext := ei }

/-- WAIT completes (R443): the interrupt that is pending and enabled is taken where IE and the state allow it. -/
def waitEnd (s : State) (c : CoreId) (next : Nat) : State :=
  let s := finish (coreUpd s c fun k => { k with waiting := false }) c next false
  match takeable s c with
  | some n => takeIrq s c n next
  | none => s

/-- IRET (R460): its frame is read under check 8 of R454. -/
def iret (s : State) (c : CoreId) (w : BitVec 14) : State :=
  let k := coreGet s c
  let trapSt := k.st == .trap
  let f := if trapSt then 0x7FE8 else 0x7FE0
  let pc := ramGet s c f
  let st := ramGet s c (f + 1)
  let rc := ramGet s c (f + 2)
  let code := (st.val.extractLsb' 5 2).toNat
  let back := k.pc.toNat
  match [f, f + 1, f + 2].find? fun a => k.badData.contains a with
  | some a => trap s c (trEcc, atData a) back
  | none =>
  if pc.tag ≠ tCaddr then trap s c (trTag, atData f) back
  else if st.tag ≠ tBits then trap s c (trTag, atData (f + 1)) back
  else if rc.tag ≠ tInt then trap s c (trTag, atData (f + 2)) back
  else if rc.val.toNat > 65536 ∨ code > bitAt trapSt 0 then trap s c (trUndef, atWord w 0) back
  else
    coreUpd s c fun k => setPc c pc.val.toNat
      { k with
        z := st.val.getLsbD 0, n := st.val.getLsbD 1, c := st.val.getLsbD 2, v := st.val.getLsbD 3
        ie := st.val.getLsbD 4 || k.eiNext, eiNext := false
        dp := st.val.extractLsb' 8 11, repc := rc.val.toNat, st := if code = 0 then .normal else .interrupt }

/-! ### Services for owner code (09 R521, R522) -/

/-- Does a core execute owner code (09 R519)? -/
def ownerCode (s : State) (c : CoreId) : Bool :=
  let k := coreGet s c
  c != .g && k.ownerFw && decide (0x2800 ≤ k.pc.toNat) && decide (k.pc.toNat < 0x4000)

/-- Reason codes of a post (09 R498). -/
def reasonDefined (n : Nat) : Bool := (decide (1 ≤ n) && decide (n ≤ 0x0C)) || n == 0x10 || n == 0x11

/-- A descriptor at `a` (09 R522): words 0 and 1 and the address of word 2; none for another tag or a word 3 that is not 0. -/
def descriptor (s : State) (c : CoreId) (a : Nat) : Option (Nat × Nat × Nat) :=
  let w := fun (i : Nat) => ramGet s c (a + i)
  if (w 0).tag = tInt ∧ (w 1).tag = tInt ∧ (w 2).tag = tDaddr ∧ (w 3).tag = tInt ∧ (w 3).val = 0 then
    some ((w 0).val.toNat, (w 1).val.toNat, (w 2).val.toNat)
  else none

/-- Service 0x01: a post with source 3. -/
def svcPost (s : State) (y : W36) : Nat × State :=
  if y.tag = tBits ∧ unitFitted .slx4816 (y.val.extractLsb' 0 8).toNat ∧ (ustOf (y.val.extractLsb' 8 3).toNat).isSome
      ∧ reasonDefined (y.val.extractLsb' 16 8).toNat then (0, postSelf s y.val)
  else (2, s)

/-- Service 0x02: an OWNER record is queued. The length is tested before the id (log entry 125). -/
def svcRecord (s : State) (c : CoreId) (y : W36) : Nat × State :=
  match if y.tag = tDaddr then descriptor s c y.val.toNat else none with
  | none => (2, s)
  | some (id, n, a) =>
    if n > 4000 then (1, s)
    else if id > 0xFFFFFEFF then (2, s)
    else match readStr s c a n with
      | none => (2, s)
      | some b => (0, append s (.serge c) 1 0x01F0 id b)

/-- Service 0x03: MEAS_6 or MEAS_7 is extended by the SHA-384 of a string, through the FIRMWARE context. -/
def svcExtend (s : State) (c : CoreId) (y : W36) : Nat × State :=
  match if y.tag = tDaddr then descriptor s c y.val.toNat else none with
  | none => (2, s)
  | some (r, n, a) =>
    match if n ≤ 4096 ∧ (r = 6 ∨ r = 7) then readStr s c a n else none with
    | none => (4, s)
    | some b =>
      if !unitTakes s 0x39 then (8, s)
      else if s.dig.owner.isSome then (2, s)
      else
        let t := digUpd (digFree (digBegin s c 1)) c fun d => { d with done := true, result := 1, count := n }
        (1, extend t r (digestOf 1 none b))

/-- Service 0x04: an OWNER record with the code, and DB_ALERT. -/
def svcAlert (s : State) (c : CoreId) (y : W36) : Nat × State :=
  if y.tag = tInt ∧ y.val.toNat ≤ 255 then (0, dbAlert (append s (.serge c) 1 0x01F0 (0xFFFFFF00 + y.val.toNat) [])) else (2, s)

/-- The service whose number ACC holds; none of them answers with a free value (log entry 125). -/
def service (s : State) (c : CoreId) : Nat × State :=
  let k := coreGet s c
  match if k.acc.tag = tInt then k.acc.val.toNat else 0 with
  | 1 => svcPost s k.y
  | 2 => svcRecord s c k.y
  | 3 => svcExtend s c k.y
  | 4 => svcAlert s c k.y
  | _ => ((Config.afterSvc (2 * s.core.calls)).toNat, s)

/-- SVC from owner code (09 R522): base firmware is entered (08 R457), carries out the service and returns: ACC holds its result, X, DP and LR stand, Y is
free. -/
def svcOwner (s : State) (c : CoreId) (next : Nat) : State :=
  let k := coreGet s c
  let p := service (enter s c false trSvc (intW 0) next 0x800 (4 * trSvc)) c
  let t := coreUpd p.2 c fun k' => setPc c next { k' with
    acc := intW (BitVec.ofNat 32 p.1), y := bitsW (Config.afterSvc (2 * s.core.calls + 1)), z := k.z, n := k.n, c := k.c, v := k.v
    ie := k.ie || k.eiNext, dp := k.dp, st := k.st }
  t.onCore fun k => { k with calls := k.calls + 1 }

/-- The control sub-ops whose effect is more than the core's registers. -/
def runControl (s : State) (c : CoreId) (g : GOp) (w : BitVec 14) (next : Nat) : State :=
  match g with
  | .halt => haltCore s c
  | .wait => if (pendingSource s c).isSome then waitEnd s c next else coreUpd s c fun k => { k with waiting := true }
  | .svc => if ownerCode s c && (coreGet s c).st != .trap then svcOwner s c next else trap s c (trSvc, intW 0) next
  | .ei => finish s c next true
  | .iret => iret s c w
  | _ => s

/-- Iterations that a repeated instruction is to make (R449, R451, check 7 of R454). -/
def repeatCount (x : SCtx) (k : Core) (w : BitVec 14) : Except TrapInfo Nat :=
  if k.repc ≠ 0 then .ok k.repc
  else match x.rep with
    | .rep n _ => .ok n
    | .repx _ => if k.x.val.toNat ≤ 65536 then .ok k.x.val.toNat else .error (trPrefix, atWord w 0)
    | .none => .ok 1

/-- A repeat whose registers fail their check before its first iteration owes all its iterations (R453); a REPX without a valid count owes none. -/
def owed (x : SCtx) (op : SOp) (resumed : Bool) (k : Core) : Core :=
  let owe := fun n => { k with rep := some { x := x, op := op, left := n } }
  if resumed then k
  else match x.rep with
    | .none => k
    | .rep n _ => owe n
    | .repx _ => if k.x.tag = tInt ∧ k.x.val.toNat ≤ 65536 then owe k.x.val.toNat else k

/-- Is it one of the operations that `runControl` carries out? -/
def controlOf : SOp → Option GOp
  | .group .halt => some .halt
  | .group .wait => some .wait
  | .group .svc => some .svc
  | .group .ei => some .ei
  | .group .iret => some .iret
  | _ => none

/-- An instruction executes at PC on its core (R430, R448-R454). With a repeat prefix, or with REPC restored by IRET, it starts a repeat, whose
iterations are the REPEAT_ITERATION commands that follow. -/
def instr (x : SCtx) (op : SOp) (s : State) : State :=
  let c := x.core
  let k := coreGet s c
  let ws := seqWords x op
  let w := ws.getLastD 0
  let pc := k.pc.toNat
  let next := pc + ws.length
  let resumed := decide (k.repc ≠ 0) && repeatable w
  if !coreLive s c || k.waiting || k.rep.isSome || !isInstr x op then s
  else match frontCheck c k.badProg pc ws with
  | some t => trap s c t pc
  | none =>
    if !resumed && !condHolds k x.cond then finish s c next false
    else if op = .group .iret ∧ k.st = .normal then trap s c (trUndef, atWord w 0) pc
    else match regCheck k (!resumed && (match x.rep with | .repx _ => true | _ => false)) op with
    | some t => trap (coreUpd s c (owed x op resumed)) c t pc
    | none =>
      if x.rep = .none ∧ !resumed then
        match controlOf op with
        | some g => runControl s c g w next
        | none =>
          match iter x op s with
          | .bad t st => busTrap s c t st pc
          | .ok s jump => finish s c (jump.getD next) false
      else match repeatCount x k (ws.getD 0 0) with
        | .error t => trap s c t pc
        | .ok n => if n = 0 then finish s c next false else coreUpd s c fun k => { k with rep := some { x := x, op := op, left := n } }

/-- Stepping of the index register between iterations (R448). -/
def stepIndex (op : SOp) (k : Core) : Core :=
  match op with
  | .mem .ldx .x _ | .mem .ldy .y _ => k
  | .mem _ .x _ => { k with x := movePtr k.x 1 }
  | .mem _ .y _ => { k with y := movePtr k.y 1 }
  | _ => k

/-- REPEAT_ITERATION (R448, R453, R465): a pending interrupt is taken before the iteration of an interruptible repeat; a trap leaves REPC at the
iterations not completed. -/
def execRepeatIteration (c : CoreId) (s : State) : Result :=
  done (
    let k := coreGet s c
    let pc := k.pc.toNat
    match k.rep with
    | none => s
    | some r =>
      let intr := match r.x.rep with | .rep _ i => i | .repx i => i | .none => false
      let irqNow := if intr then takeable s c else none
      if !coreLive s c then s
      else match irqNow, regCheck k false r.op with
      | some n, _ => takeIrq (coreUpd s c fun k => { k with repc := r.left }) c n pc
      | none, some t => trap s c t pc
      | none, none =>
        match iter r.x r.op s with
        | .bad t st => busTrap s c t st pc
        | .ok s _ =>
          let s := s.when (coreOn s c) fun s => coreUpd s c fun k => stepIndex r.op { k with rep := some { r with left := r.left - 1 } }
          if r.left ≤ 1 then finish s c (pc + (seqWords r.x r.op).length) false else s)

/-- UNDEFINED_INSTRUCTION (R454): a sequence of words that fails one of the first three checks traps; words that pass them are an instruction and
have their own command. -/
def execUndefinedInstruction (c : CoreId) (words : List (BitVec 14)) (s : State) : Result :=
  done (
    let k := coreGet s c
    if !coreLive s c || k.waiting || k.rep.isSome || words.isEmpty then s
    else match frontCheck c k.badProg k.pc.toNat words with
    | some t => trap s c t k.pc.toNat
    | none => s)

/-- WAIT_COMPLETE (R443). -/
def execWaitComplete (c : CoreId) (s : State) : Result :=
  done (s.when (coreLive s c && (coreGet s c).waiting && (pendingSource s c).isSome) fun s => waitEnd s c ((coreGet s c).pc.toNat + 1))

/-! ### The instructions -/

/-- LD (R434). -/
def execLd (x : SCtx) (mode : SMode) (field : BitVec 5) (s : State) : Result := done (instr x (.mem .ld mode field) s)
/-- ST (R434). -/
def execSt (x : SCtx) (mode : SMode) (field : BitVec 5) (s : State) : Result := done (instr x (.mem .st mode field) s)
/-- ADD (R434). -/
def execAdd (x : SCtx) (mode : SMode) (field : BitVec 5) (s : State) : Result := done (instr x (.mem .add mode field) s)
/-- SUB (R434). -/
def execSub (x : SCtx) (mode : SMode) (field : BitVec 5) (s : State) : Result := done (instr x (.mem .sub mode field) s)
/-- AND (R434). -/
def execAndOp (x : SCtx) (mode : SMode) (field : BitVec 5) (s : State) : Result := done (instr x (.mem .and mode field) s)
/-- OR (R434). -/
def execOrOp (x : SCtx) (mode : SMode) (field : BitVec 5) (s : State) : Result := done (instr x (.mem .or mode field) s)
/-- XOR (R434). -/
def execXor (x : SCtx) (mode : SMode) (field : BitVec 5) (s : State) : Result := done (instr x (.mem .xor mode field) s)
/-- CMP (R434). -/
def execCmp (x : SCtx) (mode : SMode) (field : BitVec 5) (s : State) : Result := done (instr x (.mem .cmp mode field) s)
/-- MUL (R434). -/
def execMul (x : SCtx) (mode : SMode) (field : BitVec 5) (s : State) : Result := done (instr x (.mem .mul mode field) s)
/-- DIV (R434). -/
def execDiv (x : SCtx) (mode : SMode) (field : BitVec 5) (s : State) : Result := done (instr x (.mem .div mode field) s)
/-- LDX (R434). -/
def execLdx (x : SCtx) (mode : SMode) (field : BitVec 5) (s : State) : Result := done (instr x (.mem .ldx mode field) s)
/-- LDY (R434). -/
def execLdy (x : SCtx) (mode : SMode) (field : BitVec 5) (s : State) : Result := done (instr x (.mem .ldy mode field) s)
/-- JMP (R434). -/
def execJmp (x : SCtx) (mode : SMode) (field : BitVec 5) (s : State) : Result := done (instr x (.mem .jmp mode field) s)
/-- CALL (R434). -/
def execCall (x : SCtx) (mode : SMode) (field : BitVec 5) (s : State) : Result := done (instr x (.mem .call mode field) s)
/-- XMOV (R434). -/
def execXmov (x : SCtx) (field : BitVec 5) (s : State) : Result := done (instr x (.xmov field) s)
/-- NOP (R440). -/
def execNop (x : SCtx) (s : State) : Result := done (instr x (.group .nop) s)
/-- HALT (R440). -/
def execHalt (x : SCtx) (s : State) : Result := done (instr x (.group .halt) s)
/-- WAIT (R440). -/
def execWait (x : SCtx) (s : State) : Result := done (instr x (.group .wait) s)
/-- SVC (R440). -/
def execSvc (x : SCtx) (s : State) : Result := done (instr x (.group .svc) s)
/-- EI (R440). -/
def execEi (x : SCtx) (s : State) : Result := done (instr x (.group .ei) s)
/-- DI (R440). -/
def execDi (x : SCtx) (s : State) : Result := done (instr x (.group .di) s)
/-- IRET (R440). -/
def execIret (x : SCtx) (s : State) : Result := done (instr x (.group .iret) s)
/-- RET (R440). -/
def execRet (x : SCtx) (s : State) : Result := done (instr x (.group .ret) s)
/-- JMPA (R440). -/
def execJmpa (x : SCtx) (s : State) : Result := done (instr x (.group .jmpa) s)
/-- NEG (R440). -/
def execNeg (x : SCtx) (s : State) : Result := done (instr x (.group .neg) s)
/-- NOT (R440). -/
def execNotOp (x : SCtx) (s : State) : Result := done (instr x (.group .not) s)
/-- STX (R440). -/
def execStx (x : SCtx) (s : State) : Result := done (instr x (.group .stx) s)
/-- STY (R440). -/
def execSty (x : SCtx) (s : State) : Result := done (instr x (.group .sty) s)
/-- XA (R440). -/
def execXa (x : SCtx) (s : State) : Result := done (instr x (.group .xa) s)
/-- YA (R440). -/
def execYa (x : SCtx) (s : State) : Result := done (instr x (.group .ya) s)
/-- LRA (R440). -/
def execLra (x : SCtx) (s : State) : Result := done (instr x (.group .lra) s)
/-- ALR (R440). -/
def execAlr (x : SCtx) (s : State) : Result := done (instr x (.group .alr) s)
/-- ASI (R440). -/
def execAsi (x : SCtx) (s : State) : Result := done (instr x (.group .asi) s)
/-- ASB (R440). -/
def execAsb (x : SCtx) (s : State) : Result := done (instr x (.group .asb) s)
/-- LSLX (R440). -/
def execLslx (x : SCtx) (s : State) : Result := done (instr x (.group .lslx) s)
/-- LSRX (R440). -/
def execLsrx (x : SCtx) (s : State) : Result := done (instr x (.group .lsrx) s)
/-- ASRX (R440). -/
def execAsrx (x : SCtx) (s : State) : Result := done (instr x (.group .asrx) s)
/-- RORX (R440). -/
def execRorx (x : SCtx) (s : State) : Result := done (instr x (.group .rorx) s)
/-- ADP (R440). -/
def execAdp (x : SCtx) (s : State) : Result := done (instr x (.group .adp) s)
/-- TQ (R440). -/
def execTq (x : SCtx) (t : BitVec 3) (s : State) : Result := done (instr x (.group (.tq t)) s)
/-- DPA (R440). -/
def execDpa (x : SCtx) (s : State) : Result := done (instr x (.group .dpa) s)
/-- LSL (R440). -/
def execLsl (x : SCtx) (field : BitVec 5) (s : State) : Result := done (instr x (.shift .lsl field) s)
/-- LSR (R440). -/
def execLsr (x : SCtx) (field : BitVec 5) (s : State) : Result := done (instr x (.shift .lsr field) s)
/-- ASR (R440). -/
def execAsr (x : SCtx) (field : BitVec 5) (s : State) : Result := done (instr x (.shift .asr field) s)

end Sys2Proof.Machine
end

