-- ==== Sys2Proof/Machine/Dispatch.lean ====
section
/-! DEFINITION. The meaning of each command, one arm per row of the opcode table. -/

namespace Sys2Proof.Machine

/-- The effect of a command on everything but the queue. -/
def exec (i : Instr) (s : State) : Host.Outcome State Fault Refusal :=
  match i with
  | .vstbyEnterWindow => Sys2Proof.Machine.execVstbyEnterWindow s
  | .recordStoreRecoveryDone find => Sys2Proof.Machine.execRecordStoreRecoveryDone find s
  | .mainPgoodHigh straps safeLow => Sys2Proof.Machine.execMainPgoodHigh straps safeLow s
  | .mainPgoodFall => Sys2Proof.Machine.execMainPgoodFall s
  | .mainPgoodLowTimeout => Sys2Proof.Machine.execMainPgoodLowTimeout s
  | .sysReset => Sys2Proof.Machine.execSysReset s
  | .pciePerst rising => Sys2Proof.Machine.execPciePerst rising s
  | .functionLevelReset => Sys2Proof.Machine.execFunctionLevelReset s
  | .pwrfailAssert => Sys2Proof.Machine.execPwrfailAssert s
  | .vstbyWarning => Sys2Proof.Machine.execVstbyWarning s
  | .pwrfailPause => Sys2Proof.Machine.execPwrfailPause s
  | .pwrfailReopen => Sys2Proof.Machine.execPwrfailReopen s
  | .pwrfailDeassert => Sys2Proof.Machine.execPwrfailDeassert s
  | .standbyDomainStop => Sys2Proof.Machine.execStandbyDomainStop s
  | .vaultEnter => Sys2Proof.Machine.execVaultEnter s
  | .vstbyReturn elapsed => Sys2Proof.Machine.execVstbyReturn elapsed s
  | .totalPowerLoss => Sys2Proof.Machine.execTotalPowerLoss s
  | .vbatLow => Sys2Proof.Machine.execVbatLow s
  | .vbatReturn => Sys2Proof.Machine.execVbatReturn s
  | .holdcapMeasured tenths => Sys2Proof.Machine.execHoldcapMeasured tenths s
  | .gatehouseLinkAgreed => Sys2Proof.Machine.execGatehouseLinkAgreed s
  | .gatehouseLinkFrameRx body tag => Sys2Proof.Machine.execGatehouseLinkFrameRx body tag s
  | .imageBankStreamed bank img adoption => Sys2Proof.Machine.execImageBankStreamed bank img adoption s
  | .bootKeyStoreOpen badSlots keyEngineOk => Sys2Proof.Machine.execBootKeyStoreOpen badSlots keyEngineOk s
  | .hbmTrainingDone failed serial => Sys2Proof.Machine.execHbmTrainingDone failed serial s
  | .driveReady d labelA labelB id => Sys2Proof.Machine.execDriveReady d labelA labelB id s
  | .driveAttachTimeout => Sys2Proof.Machine.execDriveAttachTimeout s
  | .journalReplayDone => Sys2Proof.Machine.execJournalReplayDone s
  | .pergolaJoinEnd => Sys2Proof.Machine.execPergolaJoinEnd s
  | .sqEnable n cfg => Sys2Proof.Machine.execSqEnable n cfg s
  | .sqDisable n => Sys2Proof.Machine.execSqDisable n s
  | .sqDrainDone n => Sys2Proof.Machine.execSqDrainDone n s
  | .cqEnable n cfg => Sys2Proof.Machine.execCqEnable n cfg s
  | .cqDisable n => Sys2Proof.Machine.execCqDisable n s
  | .sqTailDoorbell n value => Sys2Proof.Machine.execSqTailDoorbell n value s
  | .cqHeadDoorbell n value => Sys2Proof.Machine.execCqHeadDoorbell n value s
  | .devAlertWrite value => Sys2Proof.Machine.execDevAlertWrite value s
  | .devTimeLowRead => Sys2Proof.Machine.execDevTimeLowRead s
  | .timeNowLowRead c => Sys2Proof.Machine.execTimeNowLowRead c s
  | .measWord0Read c n => Sys2Proof.Machine.execMeasWord0Read c n s
  | .resultEarlyRead c w => Sys2Proof.Machine.execResultEarlyRead c w s
  | .readToClear f setNow => Sys2Proof.Machine.execReadToClear f setNow s
  | .registerWrite t => Sys2Proof.Machine.execRegisterWrite t s
  | .msixUnmask v => Sys2Proof.Machine.execMsixUnmask v s
  | .entryFetch sq entry lane ctx => Sys2Proof.Machine.execEntryFetch sq entry lane ctx s
  | .entryReadFail sq => Sys2Proof.Machine.execEntryReadFail sq s
  | .completionWriteFail cq => Sys2Proof.Machine.execCompletionWriteFail cq s
  | .irqModerationTick => Sys2Proof.Machine.execIrqModerationTick s
  | .telemetryRefresh mainTemp gateTemp => Sys2Proof.Machine.execTelemetryRefresh mainTemp gateTemp s
  | .gatehouseTelemetryRefresh => Sys2Proof.Machine.execGatehouseTelemetryRefresh s
  | .driveLogPoll d log => Sys2Proof.Machine.execDriveLogPoll d log s
  | .defineEvent block => Sys2Proof.Machine.execDefineEvent block s
  | .closeEvent block => Sys2Proof.Machine.execCloseEvent block s
  | .voidSerials block => Sys2Proof.Machine.execVoidSerials block s
  | .importKey block => Sys2Proof.Machine.execImportKey block s
  | .deriveKey block => Sys2Proof.Machine.execDeriveKey block s
  | .retireKey block => Sys2Proof.Machine.execRetireKey block s
  | .setTimeVoucher block => Sys2Proof.Machine.execSetTimeVoucher block s
  | .queryLedger block => Sys2Proof.Machine.execQueryLedger block s
  | .epochRoll block => Sys2Proof.Machine.execEpochRoll block s
  | .bindRing block => Sys2Proof.Machine.execBindRing block s
  | .getStats block => Sys2Proof.Machine.execGetStats block s
  | .handBack block => Sys2Proof.Machine.execHandBack block s
  | .controlBlockReadFail => Sys2Proof.Machine.execControlBlockReadFail s
  | .mintIntake lane ctx => Sys2Proof.Machine.execMintIntake lane ctx s
  | .mintWrapperReadDone lane ctx read => Sys2Proof.Machine.execMintWrapperReadDone lane ctx read s
  | .mintWrapperReadTimeout lane ctx => Sys2Proof.Machine.execMintWrapperReadTimeout lane ctx s
  | .mintClock lane ctx => Sys2Proof.Machine.execMintClock lane ctx s
  | .mintRule lane ctx => Sys2Proof.Machine.execMintRule lane ctx s
  | .keyCacheFill lane slot gen => Sys2Proof.Machine.execKeyCacheFill lane slot gen s
  | .mintDrbgTimeout lane ctx => Sys2Proof.Machine.execMintDrbgTimeout lane ctx s
  | .mintLedgerAssign lane ctx => Sys2Proof.Machine.execMintLedgerAssign lane ctx s
  | .leaseOpenTimeout => Sys2Proof.Machine.execLeaseOpenTimeout s
  | .mintSealDone lane ctx => Sys2Proof.Machine.execMintSealDone lane ctx s
  | .mldsaJobDone => Sys2Proof.Machine.execMldsaJobDone s
  | .mintOutputWriteFail lane ctx => Sys2Proof.Machine.execMintOutputWriteFail lane ctx s
  | .verdictIntake lane ctx => Sys2Proof.Machine.execVerdictIntake lane ctx s
  | .verdictFwdRx f lane ctx => Sys2Proof.Machine.execVerdictFwdRx f lane ctx s
  | .heldForwardTimeout src seq => Sys2Proof.Machine.execHeldForwardTimeout src seq s
  | .forwardContextTimeout src seq => Sys2Proof.Machine.execForwardContextTimeout src seq s
  | .verdictCheck lane ctx => Sys2Proof.Machine.execVerdictCheck lane ctx s
  | .verdictClock lane ctx => Sys2Proof.Machine.execVerdictClock lane ctx s
  | .verdictRule lane ctx => Sys2Proof.Machine.execVerdictRule lane ctx s
  | .verdictLedgerApply lane ctx => Sys2Proof.Machine.execVerdictLedgerApply lane ctx s
  | .verdictReplyRx lane ctx status verdict seq info detail decider serial => Sys2Proof.Machine.execVerdictReplyRx lane ctx status verdict seq info detail decider serial s
  | .forwardReplyTimeout lane ctx => Sys2Proof.Machine.execForwardReplyTimeout lane ctx s
  | .passbackRebuildBlock => Sys2Proof.Machine.execPassbackRebuildBlock s
  | .groupTick => Sys2Proof.Machine.execGroupTick s
  | .journalBlockWriteDone d block => Sys2Proof.Machine.execJournalBlockWriteDone d block s
  | .driveWriteError d => Sys2Proof.Machine.execDriveWriteError d s
  | .driveLost d => Sys2Proof.Machine.execDriveLost d s
  | .mirrorJournalRx src epoch group tFirst recs => Sys2Proof.Machine.execMirrorJournalRx src epoch group tFirst recs s
  | .groupAckRx src epoch group => Sys2Proof.Machine.execGroupAckRx src epoch group s
  | .leaseMirrorRx src epoch ceiling => Sys2Proof.Machine.execLeaseMirrorRx src epoch ceiling s
  | .leaseAckRx src epoch ceiling => Sys2Proof.Machine.execLeaseAckRx src epoch ceiling s
  | .pageRequestRx src epoch subject page => Sys2Proof.Machine.execPageRequestRx src epoch subject page s
  | .pageRx src epoch subject page groupEnd entries => Sys2Proof.Machine.execPageRx src epoch subject page groupEnd entries s
  | .pageAbsentRx src epoch subject page => Sys2Proof.Machine.execPageAbsentRx src epoch subject page s
  | .voidRequestRx src epoch subject block => Sys2Proof.Machine.execVoidRequestRx src epoch subject block s
  | .voidBlockRx src epoch subject block ranges => Sys2Proof.Machine.execVoidBlockRx src epoch subject block ranges s
  | .mirrorResendTimeout group => Sys2Proof.Machine.execMirrorResendTimeout group s
  | .durabilityTimeout lane ctx => Sys2Proof.Machine.execDurabilityTimeout lane ctx s
  | .pageReadDone slot d data => Sys2Proof.Machine.execPageReadDone slot d data s
  | .pageMissSecondRead slot => Sys2Proof.Machine.execPageMissSecondRead slot s
  | .pageMissTimeout lane ctx => Sys2Proof.Machine.execPageMissTimeout lane ctx s
  | .checkpointStart => Sys2Proof.Machine.execCheckpointStart s
  | .checkpointWritesDone => Sys2Proof.Machine.execCheckpointWritesDone s
  | .voidRewritePage => Sys2Proof.Machine.execVoidRewritePage s
  | .resilverCopyDone d => Sys2Proof.Machine.execResilverCopyDone d s
  | .pcRebuildDone pc => Sys2Proof.Machine.execPcRebuildDone pc s
  | .rollConfirmTimeout => Sys2Proof.Machine.execRollConfirmTimeout s
  | .linkTrainStart p echo => Sys2Proof.Machine.execLinkTrainStart p echo s
  | .trainingPatternDetect p echo => Sys2Proof.Machine.execTrainingPatternDetect p echo s
  | .helloRx p h => Sys2Proof.Machine.execHelloRx p h s
  | .keyxRx p mac nonce switchAt => Sys2Proof.Machine.execKeyxRx p mac nonce switchAt s
  | .linkTrainTimeout p => Sys2Proof.Machine.execLinkTrainTimeout p s
  | .linkRetryTimer p echo => Sys2Proof.Machine.execLinkRetryTimer p echo s
  | .linkRekey p => Sys2Proof.Machine.execLinkRekey p s
  | .ackTimer p => Sys2Proof.Machine.execAckTimer p s
  | .ackRx p linkSeq => Sys2Proof.Machine.execAckRx p linkSeq s
  | .nakRx p linkSeq => Sys2Proof.Machine.execNakRx p linkSeq s
  | .linkAckTimeout p => Sys2Proof.Machine.execLinkAckTimeout p s
  | .degradeRx p lane => Sys2Proof.Machine.execDegradeRx p lane s
  | .laneRetrainDone p => Sys2Proof.Machine.execLaneRetrainDone p s
  | .laneRetrainTimeout p => Sys2Proof.Machine.execLaneRetrainTimeout p s
  | .downRx p => Sys2Proof.Machine.execDownRx p s
  | .frameRoute p wire => Sys2Proof.Machine.execFrameRoute p wire s
  | .heartbeatTimer => Sys2Proof.Machine.execHeartbeatTimer s
  | .heartbeatRx src ownAuth twinAuth shadow dataOpen epoch term groupEnd => Sys2Proof.Machine.execHeartbeatRx src ownAuth twinAuth shadow dataOpen epoch term groupEnd s
  | .heartbeatSilence src => Sys2Proof.Machine.execHeartbeatSilence src s
  | .witnessQueryRx src excl home term => Sys2Proof.Machine.execWitnessQueryRx src excl home term s
  | .witnessReplyRx src excl answer home term => Sys2Proof.Machine.execWitnessReplyRx src excl answer home term s
  | .decisionAckRx f => Sys2Proof.Machine.execDecisionAckRx f s
  | .grantLapse home => Sys2Proof.Machine.execGrantLapse home s
  | .collectionTimeout => Sys2Proof.Machine.execCollectionTimeout s
  | .collectionRetry => Sys2Proof.Machine.execCollectionRetry s
  | .abstainPeriodEnd => Sys2Proof.Machine.execAbstainPeriodEnd s
  | .joinRx f => Sys2Proof.Machine.execJoinRx f s
  | .withdrawRx f => Sys2Proof.Machine.execWithdrawRx f s
  | .takeoverRx f => Sys2Proof.Machine.execTakeoverRx f s
  | .excludeRx f => Sys2Proof.Machine.execExcludeRx f s
  | .shadowCompleteRx f => Sys2Proof.Machine.execShadowCompleteRx f s
  | .handbackOfferRx f => Sys2Proof.Machine.execHandbackOfferRx f s
  | .handbackAcceptRx f => Sys2Proof.Machine.execHandbackAcceptRx f s
  | .handbackOfferTimeout => Sys2Proof.Machine.execHandbackOfferTimeout s
  | .rollQueryRx f => Sys2Proof.Machine.execRollQueryRx f s
  | .rollConfirmRx f => Sys2Proof.Machine.execRollConfirmRx f s
  | .rollRefuseRx f => Sys2Proof.Machine.execRollRefuseRx f s
  | .rollConfirmLapse => Sys2Proof.Machine.execRollConfirmLapse s
  | .viewRequestRx f => Sys2Proof.Machine.execViewRequestRx f s
  | .viewRx f => Sys2Proof.Machine.execViewRx f s
  | .viewRequestTimeout => Sys2Proof.Machine.execViewRequestTimeout s
  | .timePulseTimer => Sys2Proof.Machine.execTimePulseTimer s
  | .timePulseRx p src time unc anchored => Sys2Proof.Machine.execTimePulseRx p src time unc anchored s
  | .keyTransportRequestRx src slot xfer => Sys2Proof.Machine.execKeyTransportRequestRx src slot xfer s
  | .keyTransportDeliverRx src slot xfer blob => Sys2Proof.Machine.execKeyTransportDeliverRx src slot xfer blob s
  | .keyTransportRefuseRx src slot xfer => Sys2Proof.Machine.execKeyTransportRefuseRx src slot xfer s
  | .keyTransportReceiptRx src slot xfer => Sys2Proof.Machine.execKeyTransportReceiptRx src slot xfer s
  | .keyTransportTimeout => Sys2Proof.Machine.execKeyTransportTimeout s
  | .coreReset c => Sys2Proof.Machine.execCoreReset c s
  | .ld x mode field => Sys2Proof.Machine.execLd x mode field s
  | .st x mode field => Sys2Proof.Machine.execSt x mode field s
  | .add x mode field => Sys2Proof.Machine.execAdd x mode field s
  | .sub x mode field => Sys2Proof.Machine.execSub x mode field s
  | .andOp x mode field => Sys2Proof.Machine.execAndOp x mode field s
  | .orOp x mode field => Sys2Proof.Machine.execOrOp x mode field s
  | .xor x mode field => Sys2Proof.Machine.execXor x mode field s
  | .cmp x mode field => Sys2Proof.Machine.execCmp x mode field s
  | .mul x mode field => Sys2Proof.Machine.execMul x mode field s
  | .div x mode field => Sys2Proof.Machine.execDiv x mode field s
  | .ldx x mode field => Sys2Proof.Machine.execLdx x mode field s
  | .ldy x mode field => Sys2Proof.Machine.execLdy x mode field s
  | .jmp x mode field => Sys2Proof.Machine.execJmp x mode field s
  | .call x mode field => Sys2Proof.Machine.execCall x mode field s
  | .xmov x field => Sys2Proof.Machine.execXmov x field s
  | .nop x => Sys2Proof.Machine.execNop x s
  | .halt x => Sys2Proof.Machine.execHalt x s
  | .wait x => Sys2Proof.Machine.execWait x s
  | .waitComplete c => Sys2Proof.Machine.execWaitComplete c s
  | .svc x => Sys2Proof.Machine.execSvc x s
  | .ei x => Sys2Proof.Machine.execEi x s
  | .di x => Sys2Proof.Machine.execDi x s
  | .iret x => Sys2Proof.Machine.execIret x s
  | .ret x => Sys2Proof.Machine.execRet x s
  | .jmpa x => Sys2Proof.Machine.execJmpa x s
  | .neg x => Sys2Proof.Machine.execNeg x s
  | .notOp x => Sys2Proof.Machine.execNotOp x s
  | .stx x => Sys2Proof.Machine.execStx x s
  | .sty x => Sys2Proof.Machine.execSty x s
  | .xa x => Sys2Proof.Machine.execXa x s
  | .ya x => Sys2Proof.Machine.execYa x s
  | .lra x => Sys2Proof.Machine.execLra x s
  | .alr x => Sys2Proof.Machine.execAlr x s
  | .asi x => Sys2Proof.Machine.execAsi x s
  | .asb x => Sys2Proof.Machine.execAsb x s
  | .lslx x => Sys2Proof.Machine.execLslx x s
  | .lsrx x => Sys2Proof.Machine.execLsrx x s
  | .asrx x => Sys2Proof.Machine.execAsrx x s
  | .rorx x => Sys2Proof.Machine.execRorx x s
  | .adp x => Sys2Proof.Machine.execAdp x s
  | .tq x t => Sys2Proof.Machine.execTq x t s
  | .dpa x => Sys2Proof.Machine.execDpa x s
  | .lsl x field => Sys2Proof.Machine.execLsl x field s
  | .lsr x field => Sys2Proof.Machine.execLsr x field s
  | .asr x field => Sys2Proof.Machine.execAsr x field s
  | .undefinedInstruction c words => Sys2Proof.Machine.execUndefinedInstruction c words s
  | .repeatIteration c => Sys2Proof.Machine.execRepeatIteration c s
  | .interruptEntry c => Sys2Proof.Machine.execInterruptEntry c s
  | .keyCmdOpen c => Sys2Proof.Machine.execKeyCmdOpen c s
  | .keyCmdClose c => Sys2Proof.Machine.execKeyCmdClose c s
  | .keyCmdImport c => Sys2Proof.Machine.execKeyCmdImport c s
  | .keyCmdDerive c => Sys2Proof.Machine.execKeyCmdDerive c s
  | .keyCmdRetire c => Sys2Proof.Machine.execKeyCmdRetire c s
  | .keyCmdVerify c => Sys2Proof.Machine.execKeyCmdVerify c s
  | .keyCmdMac c => Sys2Proof.Machine.execKeyCmdMac c s
  | .keyCmdTransportWrap c => Sys2Proof.Machine.execKeyCmdTransportWrap c s
  | .keyCmdTransportUnwrap c => Sys2Proof.Machine.execKeyCmdTransportUnwrap c s
  | .keyCmdAttest c => Sys2Proof.Machine.execKeyCmdAttest c s
  | .keyCommandEnd => Sys2Proof.Machine.execKeyCommandEnd s
  | .digStart c value => Sys2Proof.Machine.execDigStart c value s
  | .digUpdate c => Sys2Proof.Machine.execDigUpdate c s
  | .digFinish c value => Sys2Proof.Machine.execDigFinish c value s
  | .digAbort c => Sys2Proof.Machine.execDigAbort c s
  | .digCommandEnd => Sys2Proof.Machine.execDigCommandEnd s
  | .rngGenerate c => Sys2Proof.Machine.execRngGenerate c s
  | .rngGenerateFresh c => Sys2Proof.Machine.execRngGenerateFresh c s
  | .rngSelect c value => Sys2Proof.Machine.execRngSelect c value s
  | .rngTest c value => Sys2Proof.Machine.execRngTest c value s
  | .rngCommandEnd c => Sys2Proof.Machine.execRngCommandEnd c s
  | .noiseHealthFail bits => Sys2Proof.Machine.execNoiseHealthFail bits s
  | .noiseStartupTestDone source bits => Sys2Proof.Machine.execNoiseStartupTestDone source bits s
  | .reseedBufferFull bits => Sys2Proof.Machine.execReseedBufferFull bits s
  | .drbgReseedLimit => Sys2Proof.Machine.execDrbgReseedLimit s
  | .drbgRequestTimeout c => Sys2Proof.Machine.execDrbgRequestTimeout c s
  | .noiseRetestTimer source => Sys2Proof.Machine.execNoiseRetestTimer source s
  | .ledQuery c => Sys2Proof.Machine.execLedQuery c s
  | .ledVoid c => Sys2Proof.Machine.execLedVoid c s
  | .ledRoll c => Sys2Proof.Machine.execLedRoll c s
  | .ledCheckpoint c => Sys2Proof.Machine.execLedCheckpoint c s
  | .ledCommandEnd => Sys2Proof.Machine.execLedCommandEnd s
  | .laneSelftest c lane => Sys2Proof.Machine.execLaneSelftest c lane s
  | .laneSelftestDone lane pass syndrome => Sys2Proof.Machine.execLaneSelftestDone lane pass syndrome s
  | .lanePurge c lane => Sys2Proof.Machine.execLanePurge c lane s
  | .laneClockGate lane => Sys2Proof.Machine.execLaneClockGate lane s
  | .hqCtlFetch c entry => Sys2Proof.Machine.execHqCtlFetch c entry s
  | .hqCtlComplete c => Sys2Proof.Machine.execHqCtlComplete c s
  | .hqDmaHostToLocal c bytes => Sys2Proof.Machine.execHqDmaHostToLocal c bytes s
  | .hqDmaLocalToHost c => Sys2Proof.Machine.execHqDmaLocalToHost c s
  | .hqDmaDone ok => Sys2Proof.Machine.execHqDmaDone ok s
  | .hqPlaneOpen c => Sys2Proof.Machine.execHqPlaneOpen c s
  | .hqPlanePause c => Sys2Proof.Machine.execHqPlanePause c s
  | .hqBind c value => Sys2Proof.Machine.execHqBind c value s
  | .hbmPublish c => Sys2Proof.Machine.execHbmPublish c s
  | .hbmPublishEnd => Sys2Proof.Machine.execHbmPublishEnd s
  | .fabCmdHandBack c => Sys2Proof.Machine.execFabCmdHandBack c s
  | .fabCmdWithdraw c => Sys2Proof.Machine.execFabCmdWithdraw c s
  | .fabCmdKeyRequest c => Sys2Proof.Machine.execFabCmdKeyRequest c s
  | .fabCmdRollQuery c => Sys2Proof.Machine.execFabCmdRollQuery c s
  | .fabCommandEnd => Sys2Proof.Machine.execFabCommandEnd s
  | .nvmeAttachResilver c d => Sys2Proof.Machine.execNvmeAttachResilver c d s
  | .driveAttach d id => Sys2Proof.Machine.execDriveAttach d id s
  | .nvmeRetire c d => Sys2Proof.Machine.execNvmeRetire c d s
  | .timeVoucherSubmit c => Sys2Proof.Machine.execTimeVoucherSubmit c s
  | .timeCommandEnd => Sys2Proof.Machine.execTimeCommandEnd s
  | .timeMirrorUpdate => Sys2Proof.Machine.execTimeMirrorUpdate s
  | .recAppend c => Sys2Proof.Machine.execRecAppend c s
  | .recRead c => Sys2Proof.Machine.execRecRead c s
  | .recReadDone => Sys2Proof.Machine.execRecReadDone s
  | .recBeginTx c parts => Sys2Proof.Machine.execRecBeginTx c parts s
  | .recAbortTx c => Sys2Proof.Machine.execRecAbortTx c s
  | .recHotWrite c => Sys2Proof.Machine.execRecHotWrite c s
  | .recHotRead c => Sys2Proof.Machine.execRecHotRead c s
  | .recAppendCommit verify => Sys2Proof.Machine.execRecAppendCommit verify s
  | .appendPreconditionsMet => Sys2Proof.Machine.execAppendPreconditionsMet s
  | .sectorEraseDone sector => Sys2Proof.Machine.execSectorEraseDone sector s
  | .sectorRefresh sector => Sys2Proof.Machine.execSectorRefresh sector s
  | .pwrRoleGive c => Sys2Proof.Machine.execPwrRoleGive c s
  | .pwrRoleTake c => Sys2Proof.Machine.execPwrRoleTake c s
  | .pwrWdog c => Sys2Proof.Machine.execPwrWdog c s
  | .watchdogExpire c => Sys2Proof.Machine.execWatchdogExpire c s
  | .pwrPeerReset c value => Sys2Proof.Machine.execPwrPeerReset c value s
  | .pwrReqNap c => Sys2Proof.Machine.execPwrReqNap c s
  | .pwrReqKeep c => Sys2Proof.Machine.execPwrReqKeep c s
  | .pwrReqWake c => Sys2Proof.Machine.execPwrReqWake c s
  | .keepWithdrawWaitTimeout => Sys2Proof.Machine.execKeepWithdrawWaitTimeout s
  | .napWakeEvent w => Sys2Proof.Machine.execNapWakeEvent w s
  | .napWakeDone => Sys2Proof.Machine.execNapWakeDone s
  | .keepWake => Sys2Proof.Machine.execKeepWake s
  | .gpioWakeInput n => Sys2Proof.Machine.execGpioWakeInput n s
  | .idLoad c word => Sys2Proof.Machine.execIdLoad c word s
  | .mbxPostNext c => Sys2Proof.Machine.execMbxPostNext c s
  | .mbxPostSelf c word => Sys2Proof.Machine.execMbxPostSelf c word s
  | .observationPost unit st source reason => Sys2Proof.Machine.execObservationPost unit st source reason s
  | .mbxApply c word => Sys2Proof.Machine.execMbxApply c word s
  | .failoverSettled => Sys2Proof.Machine.execFailoverSettled s
  | .unitDrained unit => Sys2Proof.Machine.execUnitDrained unit s
  | .mbxDoorbellTable c => Sys2Proof.Machine.execMbxDoorbellTable c s
  | .mbxDoorbellAlert c => Sys2Proof.Machine.execMbxDoorbellAlert c s
  | .mbxIrqPendingClear c mask setNow => Sys2Proof.Machine.execMbxIrqPendingClear c mask setNow s
  | .timerMatch c => Sys2Proof.Machine.execTimerMatch c s
  | .mbxPeerSend c count => Sys2Proof.Machine.execMbxPeerSend c count s
  | .mbxPeerAck c => Sys2Proof.Machine.execMbxPeerAck c s
  | .mbxGSend c count => Sys2Proof.Machine.execMbxGSend c count s
  | .mbxGAck c => Sys2Proof.Machine.execMbxGAck c s
  | .tamperAlarm sensor measured => Sys2Proof.Machine.execTamperAlarm sensor measured s
  | .tamperFlushDone => Sys2Proof.Machine.execTamperFlushDone s
  | .tamperClear => Sys2Proof.Machine.execTamperClear s
  | .tamperWithdrawTimer => Sys2Proof.Machine.execTamperWithdrawTimer s
  | .tamperLoopTick n next sampled => Sys2Proof.Machine.execTamperLoopTick n next sampled s
  | .jtagUpdateIr ir extest => Sys2Proof.Machine.execJtagUpdateIr ir extest s
  | .cdcStall unit => Sys2Proof.Machine.execCdcStall unit s
  | .crossingResync x dropped => Sys2Proof.Machine.execCrossingResync x dropped s
  | .pulseDeliver x => Sys2Proof.Machine.execPulseDeliver x s
  | .pulsePhaseEnd x => Sys2Proof.Machine.execPulsePhaseEnd x s
  | .mctpMessageRx bytes eid tag pecOk ic => Sys2Proof.Machine.execMctpMessageRx bytes eid tag pecOk ic s
  | .setEndpointId eid => Sys2Proof.Machine.execSetEndpointId eid s
  | .getEndpointId => Sys2Proof.Machine.execGetEndpointId s
  | .getMctpVersionSupport => Sys2Proof.Machine.execGetMctpVersionSupport s
  | .getMessageTypeSupport => Sys2Proof.Machine.execGetMessageTypeSupport s
  | .getVendorDefinedMessageSupport => Sys2Proof.Machine.execGetVendorDefinedMessageSupport s
  | .mctpUnsupportedCommand cmd => Sys2Proof.Machine.execMctpUnsupportedCommand cmd s
  | .getIdentity msg => Sys2Proof.Machine.execGetIdentity msg s
  | .getHealth msg => Sys2Proof.Machine.execGetHealth msg s
  | .getTelemetry msg => Sys2Proof.Machine.execGetTelemetry msg s
  | .getUnitTable msg => Sys2Proof.Machine.execGetUnitTable msg s
  | .proposeUnitState msg => Sys2Proof.Machine.execProposeUnitState msg s
  | .stageImageBlock msg readBackOk => Sys2Proof.Machine.execStageImageBlock msg readBackOk s
  | .commitStagedImage msg => Sys2Proof.Machine.execCommitStagedImage msg s
  | .attest msg => Sys2Proof.Machine.execAttest msg s
  | .mgtSetTimeVoucher msg => Sys2Proof.Machine.execMgtSetTimeVoucher msg s
  | .getLog msg => Sys2Proof.Machine.execGetLog msg s
  | .clearAlert msg => Sys2Proof.Machine.execClearAlert msg s
  | .twinStatus msg => Sys2Proof.Machine.execTwinStatus msg s
  | .mgtRxTake c => Sys2Proof.Machine.execMgtRxTake c s
  | .mgtTxSend c => Sys2Proof.Machine.execMgtTxSend c s
  | .mgtAlertSet c mask => Sys2Proof.Machine.execMgtAlertSet c mask s
  | .mgtAlertClear c mask setNow => Sys2Proof.Machine.execMgtAlertClear c mask setNow s
  | .frameCrcGcmFailure p what => Sys2Proof.Machine.execFrameCrcGcmFailure p what s

end Sys2Proof.Machine
end

