-- ==== Sys2Proof/Machine/Pins.lean ====
section
/-! DEFINITION. The levels that the device puts on its output pins (15 R820, R821): every one follows from the state, so no field holds it. -/

namespace Sys2Proof.Machine

/-- What an output does to its line (15 R820, R821): drives it low or high, or leaves it to the board's pull. -/
inductive Level where
  | low | high | highZ
  deriving DecidableEq, Repr

/-- The outputs of the table of R821. -/
inductive OutPin where
  | ready | faultN | tamperN | smbAlertN | spiCsN | spiClk | spiResetN | mainPwrEn
  | ssdPerstN (d : Nat) | ssdRefclk (d : Nat) | gpio (n : Nat) | tloopOut (n : Nat)
  deriving DecidableEq, Repr

/-- A push-pull output. -/
def pushPull (b : Bool) : Level := if b then .high else .low

/-- An open-drain output that is asserted, low, or released. -/
def openDrain (asserted : Bool) : Level := if asserted then .low else .highZ

/-- FAULT_N is asserted: a unit is FAILED, the boot stopped under R798, or safe mode for a reason other than SAFE_N. With the main die off the Gatehouse
copy of the unit table stands for it. -/
def faultPin (s : State) : Bool :=
  ((if s.pow.mainUp then s.unit.tbl else s.unit.gate).any fun p => p.2.st == .failed) || s.pow.bootFault || (s.pow.safe && !s.pow.safeStrap)

/-- Has an output's domain its supply, and is it out of reset (R820)? -/
def pinPowered (s : State) : OutPin → Bool
  | .ready | .ssdPerstN _ | .ssdRefclk _ => s.pow.mainUp
  | .tamperN | .tloopOut _ => s.pow.vstby || s.pow.vbat
  | _ => s.pow.standby

/-- The level of an output in a powered domain (R821). SSD_REFCLK is high while the clock runs. The toggling of SPI and TLOOP lines within an operation is
left out. -/
def pinLevel (s : State) : OutPin → Level
  | .ready => pushPull s.pow.readyPin
  | .faultN => openDrain (faultPin s)
  | .tamperN => openDrain (!tamperPin s)
  | .smbAlertN => openDrain (s.mgt.alert != 0)
  | .spiCsN => .high
  | .spiClk => .low
  | .spiResetN => .high
  | .mainPwrEn => pushPull s.pow.pwrEn
  | .ssdPerstN d => pushPull (!s.pow.perst.getLsbD d)
  | .ssdRefclk _ => if s.pow.safe then .highZ else .high
  | .gpio n => match (tget 0 s.pow.gpioOut n).toNat with | 1 => .low | 2 => .high | _ => .highZ
  | .tloopOut n => if s.par.loops.getLsbD n then pushPull (s.tmp.loopOut.getLsbD n) else .highZ

/-- The level of an output pin: high-impedance without its domain's supply or in its reset (R820), else as the table of R821 says. -/
def pinOut (s : State) (p : OutPin) : Level := if pinPowered s p then pinLevel s p else .highZ

end Sys2Proof.Machine
end

