-- ==== Sys2Proof/Safety.lean ====
section
/-! DEFINITION. The vocabulary of the claims: what a command leaves unchanged, part by part; which unit states and life-cycle states are
final; which machine words of a Serge core are instructions. -/

namespace Sys2Proof.Machine

/-- The parts of the state (01 R16), and the model's own queue. -/
inductive Part where
  | hq
  | lane
  | hbm
  | led
  | drives
  | fab
  | key
  | dig
  | rng
  | store
  | time
  | unit
  | core
  | tmp
  | mgt
  | par
  | pow
  | tele
  | out
  | pending
  deriving DecidableEq, Repr

/-- The part holds the same data in both states. -/
def Part.Same (s t : State) : Part → Prop
  | .hq => t.hq = s.hq
  | .lane => t.lane = s.lane
  | .hbm => t.hbm = s.hbm
  | .led => t.led = s.led
  | .drives => t.drives = s.drives
  | .fab => t.fab = s.fab
  | .key => t.key = s.key
  | .dig => t.dig = s.dig
  | .rng => t.rng = s.rng
  | .store => t.store = s.store
  | .time => t.time = s.time
  | .unit => t.unit = s.unit
  | .core => t.core = s.core
  | .tmp => t.tmp = s.tmp
  | .mgt => t.mgt = s.mgt
  | .par => t.par = s.par
  | .pow => t.pow = s.pow
  | .tele => t.tele = s.tele
  | .out => t.out = s.out
  | .pending => t.pending = s.pending

/-- The frame of a command: every part but those listed is the same after it as before it. -/
def Keeps (changed : List Part) (s t : State) : Prop := ∀ p, p ∉ changed → p.Same s t

/-- The command completes: it answers a next state of which `P` holds and in which every part but those listed is unchanged. -/
def Completes (c : Instr) (s : State) (changed : List Part) (P : State → Prop) : Prop :=
  ∃ t, exec c s = .next t ∧ P t ∧ Keeps changed s t

/-- An access by core `c` to the window register at `a` is carried out: the core runs, and no rule refuses the access (09 R473-R476, R482). -/
def Reaches (s : State) (c : CoreId) (a : Nat) (aOnly : Bool) : Prop := coreLive s c = true ∧ winRefused s c a aOnly = false

/-- Frames of `n` bytes together go out on a port at once: none waits there, no retrain and no switch of keys holds them back, and the replay
buffer has room for them (07 R357, R359, R414). -/
def PortFree (s : State) (p : Port) (n : Nat) : Prop :=
  (portSt s p).waiting = [] ∧ (portSt s p).retraining = false ∧ (portSt s p).rekeying = false ∧ replayUsed (portSt s p) + n ≤ 131072

/-- A KEY command by core `c` is carried out: the write reaches the window, no command runs, and the key engine takes work (09 R485). -/
def KeyFree (s : State) (c : CoreId) : Prop := Reaches s c 0x8000 false ∧ s.key.cmdBusy = false ∧ unitTakes s 0x3B = true

/-- A REC command by core `c` is carried out: the write reaches the window, no command runs, and recovery has ended (12 R665, R667). -/
def RecFree (s : State) (c : CoreId) : Prop := Reaches s c 0xA400 true ∧ s.store.busy = false ∧ s.store.ready = true

/-- The main die stands in reset (15 R799): rings, lanes, ledger, fabric, window commands and unwrapped keys are at their reset values, the links and
the pin READY are down. -/
def MainDown (t : State) : Prop :=
  t.pow.mainUp = false ∧ t.pow.readyPin = false ∧ t.pow.linkUp = false ∧ t.hq = { sqs := [(0, { lanes := 0 })] } ∧ t.lane = {} ∧ t.led = { growTo := t.led.growTo } ∧ t.fab = {} ∧
    t.core.a = {} ∧ t.core.b = {} ∧ t.key.unwrapped = false ∧ t.key.cmdRun = none ∧ t.key.cmdHeld = none ∧ t.key.handlesA = [] ∧ t.key.handlesB = [] ∧
    (∀ p ∈ t.key.slots, p.2.material = []) ∧ t.rng.inst = false ∧ t.time.mAnch = false ∧ t.unit.posts = []

/-- The request `r` is in context `c` of lane `l` and stands in stage `st` (04 R165, 05 R221). -/
def Stands (s : State) (l c : Nat) (st : Stage) (r : Req) : Prop := getReq s (reqKey l c) = some r ∧ r.stage = st

/-- The management plane's request `c` of command `cmd`, in hand and served: the first of checks 1 to 9 that it fails is its answer (14 R737), and
one that passes them consumes the nonce where the command has a trailer (R738) and is answered as `effect` says, unless `effect` leaves it waiting. -/
def GrawardRequest (c : Bytes → Instr) (cmd : Nat) (effect : GEffect) : Prop :=
  ∀ (s : State) (m : MgtMsg) (rest : List MgtMsg), s.mgt.rx = m :: rest → gServes s = true → leAt m.bytes 0 1 = 0x7F → leAt (gHead m.bytes) 1 1 = cmd →
    let u := s.onMgt fun x => { x with rx := rest, taken := some m, nonce := if gTrailer cmd then x.nonce + 1 else x.nonce }
    (∀ e, gCheck s m.bytes = some e → e.1 ≠ gAuth → e ≠ (gOff, 0) →
      exec (c m.bytes) s = .next (gReply (s.onMgt fun x => { x with rx := rest, taken := some m }) m e.1 e.2 [])) ∧
    (gCheck s m.bytes = none → ∀ e, effect u (gBody m.bytes) = .error e → exec (c m.bytes) s = .next (gReply u m e.1 e.2 [])) ∧
    (gCheck s m.bytes = none → ∀ v b, effect u (gBody m.bytes) = .ok (v, b) →
      exec (c m.bytes) s = .next (if u.mgt.proposals.length < v.mgt.proposals.length then v else gReply v m 0 0 b))

/-- The MCTP control message in hand is served, and its command is `cmd` (14 R725). -/
def ControlInHand (s : State) (m : MgtMsg) (rest : List MgtMsg) (cmd : Nat) : Prop :=
  s.mgt.rx = m :: rest ∧ gServes s = true ∧ leAt m.bytes 0 1 = 0 ∧ leAt m.bytes 2 1 = cmd

/-- The answer to the MCTP control message in hand: completion code and data, to its source. -/
def controlAnswer (s : State) (m : MgtMsg) (rest : List MgtMsg) (code : Byte) (data : Bytes) : State :=
  sendMsg (s.onMgt fun x => { x with rx := rest, taken := some m }) m
    ([0, ((cut m.bytes 1 1).headD 0) &&& 0x1F, (cut m.bytes 2 1).headD 0, code] ++ data)

/-- Checks 1 to 4 of an instruction that no repeat prefix and no suspended repeat concerns (08 R454): its core runs and is not waiting or
repeating, its words are instructions, prefixes stand where they may, and its condition holds. -/
def SergeReady (s : State) (x : SCtx) (op : SOp) : Prop :=
  coreLive s x.core = true ∧ (coreGet s x.core).waiting = false ∧ (coreGet s x.core).rep = none ∧ (coreGet s x.core).repc = 0 ∧ x.rep = .none ∧
    isInstr x op = true ∧ frontCheck x.core (coreGet s x.core).badProg (coreGet s x.core).pc.toNat (seqWords x op) = none ∧ condHolds (coreGet s x.core) x.cond = true

/-- Address of the word after the instruction. -/
def sergeNext (s : State) (x : SCtx) (op : SOp) : Nat := (coreGet s x.core).pc.toNat + (seqWords x op).length

/-- The state after an instruction that changes registers of its core by `f` and goes on at `pc`; an EI before it takes effect (08 R442). -/
def sergeEnd (s : State) (x : SCtx) (pc : Nat) (f : Core → Core) : State := finish (coreUpd s x.core f) x.core pc false

/-- A register change that writes Z, N, C and V. -/
def withFlags (z n c v : Bool) (k : Core) : Core := { k with z := z, n := n, c := c, v := v }

/-- The operand of an instruction is the word `w` (08 R431, R425), and the state after reading it is `u`: the immediate, or a valid word at the
operand's address, with a DADDR in the index register of modes 01 and 10. -/
def Operand (s : State) (x : SCtx) (mode : SMode) (field : BitVec 5) (w : W36) (u : State) : Prop :=
  let k := coreGet s x.core
  (mode = .imm → w = intW (BitVec.ofInt 32 (immOf x.exts field)) ∧ u = s) ∧
    (mode ≠ .imm → busRead s x.core (eaOf k x.exts mode field) = .ok w u ∧ w.tag ∈ anyTag ∧ coreGet u x.core = k) ∧
    (mode = .x → k.x.tag = tDaddr) ∧ (mode = .y → k.y.tag = tDaddr)

/-- The prefixes, condition and operation of a command that is a Serge instruction. -/
def sergeOp : Instr → Option (SCtx × SOp)
  | .ld x m f => some (x, .mem .ld m f)
  | .st x m f => some (x, .mem .st m f)
  | .add x m f => some (x, .mem .add m f)
  | .sub x m f => some (x, .mem .sub m f)
  | .andOp x m f => some (x, .mem .and m f)
  | .orOp x m f => some (x, .mem .or m f)
  | .xor x m f => some (x, .mem .xor m f)
  | .cmp x m f => some (x, .mem .cmp m f)
  | .mul x m f => some (x, .mem .mul m f)
  | .div x m f => some (x, .mem .div m f)
  | .ldx x m f => some (x, .mem .ldx m f)
  | .ldy x m f => some (x, .mem .ldy m f)
  | .jmp x m f => some (x, .mem .jmp m f)
  | .call x m f => some (x, .mem .call m f)
  | .xmov x f => some (x, .xmov f)
  | .nop x => some (x, .group .nop)
  | .halt x => some (x, .group .halt)
  | .wait x => some (x, .group .wait)
  | .svc x => some (x, .group .svc)
  | .ei x => some (x, .group .ei)
  | .di x => some (x, .group .di)
  | .iret x => some (x, .group .iret)
  | .ret x => some (x, .group .ret)
  | .jmpa x => some (x, .group .jmpa)
  | .neg x => some (x, .group .neg)
  | .notOp x => some (x, .group .not)
  | .stx x => some (x, .group .stx)
  | .sty x => some (x, .group .sty)
  | .xa x => some (x, .group .xa)
  | .ya x => some (x, .group .ya)
  | .lra x => some (x, .group .lra)
  | .alr x => some (x, .group .alr)
  | .asi x => some (x, .group .asi)
  | .asb x => some (x, .group .asb)
  | .lslx x => some (x, .group .lslx)
  | .lsrx x => some (x, .group .lsrx)
  | .asrx x => some (x, .group .asrx)
  | .rorx x => some (x, .group .rorx)
  | .adp x => some (x, .group .adp)
  | .dpa x => some (x, .group .dpa)
  | .tq x t => some (x, .group (.tq t))
  | .lsl x f => some (x, .shift .lsl f)
  | .lsr x f => some (x, .shift .lsr f)
  | .asr x f => some (x, .shift .asr f)
  | _ => none

/-- A register or a word of data RAM of the core holds `w`. -/
def Holds (s : State) (c : CoreId) (w : W36) : Prop :=
  (coreGet s c).acc = w ∨ (coreGet s c).x = w ∨ (coreGet s c).y = w ∨ (coreGet s c).lr = w ∨ ∃ a, ramGet s c a = w

/-- The tags of ACC, operand and result of the arithmetic and logic operations (08 R424). -/
def tagTable : MOp → List (BitVec 4 × BitVec 4 × BitVec 4)
  | .add => [(tInt, tInt, tInt), (tDaddr, tInt, tDaddr), (tInt, tDaddr, tDaddr)]
  | .sub => [(tInt, tInt, tInt), (tDaddr, tInt, tDaddr), (tDaddr, tDaddr, tInt)]
  | .mul | .div => [(tInt, tInt, tInt)]
  | .and | .or | .xor => [(tInt, tInt, tInt), (tInt, tBits, tInt), (tBits, tInt, tBits), (tBits, tBits, tBits)]
  | _ => []

/-- The unit table holds one entry for a unit, and every unit that the variant lacks is ABSENT (00 R3). -/
def UnitsInv (s : State) : Prop := twf {} s.unit.tbl = true ∧ ∀ u, unitFitted s.pow.variant u = false → unitSt s u = .absent

/-- The CONTROL entry `e` of opcode `op` is in flight, the active core runs, and the request waits for nothing (03 R132). -/
def CtlReady (s : State) (op : Nat) (e : CtlEntry) : Prop :=
  s.hq.ctlFetched = some e ∧ leAt e.bytes 2 1 = op ∧ coreUp s s.unit.active = true ∧ s.pow.safe = false ∧ s.hq.ctlHeld = false
    ∧ s.hq.ctlWait.kind = .none

/-- The signed request `c` of opcode `op` completes: the first of checks 1 to 8 that fails completes it with that status, and a request that
passes them and the two length checks, with the record store free, has its sequence recorded and then `effect` on its body. -/
def SignedRequest (c : Bytes → Instr) (op : Nat) (effect : State → Bytes → State) : Prop :=
  ∀ (s : State) (e : CtlEntry) (block : Bytes), CtlReady s op e →
    let blk := fit (leAt e.bytes 4 4) block
    let body := cut blk 32 (leAt blk 24 4)
    ∃ t, exec (c block) s = .next t ∧
      (∀ x, ctlChecks s e.bytes blk = some x → t = endCtl s x.1 x.2) ∧
      (ctlChecks s e.bytes blk = none → appendsNow s = true →
        (leAt e.bytes 16 4 < respLen op → t = endCtl (ctlRecorded s e blk) .badLength (detSub 16)) ∧
        (respLen op ≤ leAt e.bytes 16 4 → (∀ n, fixedBody op = some n → n = body.length) → t = effect (ctlRecorded s e blk) body))

end Sys2Proof.Machine
end

