-- ==== Sys2Proof/WellFormed.lean ====
section
/-! DEFINITION. Which commands are well formed: every operand within the range its field has in the spec. An ill-formed command names no event;
what `exec` does with it is not claimed to be the device's. -/

namespace Sys2Proof

/-- What surrounds an instruction (08 R429, R445, R446): a condition code, a count of 1 to 256, at most three EXT words. Prefix sequences that trap
are well formed as far as they can be written; a fourth EXT word is one of UNDEFINED_INSTRUCTION's. -/
def SCtx.wf (x : SCtx) : Bool :=
  decide (x.cond ≠ 7) && decide (x.exts.length ≤ 3)
    && (match x.rep with | .rep n _ => decide (1 ≤ n) && decide (n ≤ 256) | .repx _ => true | .none => true)

/-- A MEMBERSHIP frame's fields (07 R363, R373). -/
def MFrame.wf (f : MFrame) : Bool :=
  decide (f.src < 4096) && decide (f.subject < 4096) && decide (f.term < 2 ^ 32) && decide (f.value < 2 ^ 64)

/-- A register write: a BAR0 access inside the 64 KiB or a BAR2 access inside the 4 KiB, of 4 or 8 bytes, naturally aligned (03 R94, R96), a
register of the AER capability, or a word of a defined tag at a window
address (08 R420, 09 R473). -/
def RegTarget.wf : RegTarget → Bool
  | .bar0 a n _ _ => decide (a < 65536) && (n == 4 || n == 8) && decide (a % n = 0)
  | .bar2 a n _ => decide (a < 4096) && (n == 4 || n == 8) && decide (a % n = 0)
  | .aer a _ _ => decide (a < 0x1C) && decide (a % 4 = 0)
  | .window _ a w => decide (0x8000 ≤ a.toNat) && decide (1 ≤ w.tag.toNat) && decide (w.tag.toNat ≤ 5)

/-- A window with result registers: of LANE, one of the sixteen. -/
def ResultWin.wf : ResultWin → Bool
  | .lane n => decide (n < 16)
  | .key => true
  | .dig => true
  | .led => true
  | .rng => true

/-- Every operand is within its range. -/
def Instr.wf : Instr → Bool
  | .vstbyEnterWindow => true
  | .recordStoreRecoveryDone f => f.flips.all fun x => decide (x.1 < 65536) && decide (x.2 < 2048)
  | .mainPgoodHigh _ _ => true
  | .mainPgoodFall => true
  | .mainPgoodLowTimeout => true
  | .sysReset => true
  | .pciePerst _ => true
  | .functionLevelReset => true
  | .pwrfailAssert => true
  | .vstbyWarning => true
  | .pwrfailPause => true
  | .pwrfailReopen => true
  | .pwrfailDeassert => true
  | .standbyDomainStop => true
  | .vaultEnter => true
  | .vstbyReturn elapsed => decide (elapsed < 2 ^ 64)
  | .totalPowerLoss => true
  | .vbatLow => true
  | .vbatReturn => true
  | .holdcapMeasured tenths => decide (tenths < 2 ^ 32)
  | .gatehouseLinkAgreed => true
  | .gatehouseLinkFrameRx _ _ => true
  | .imageBankStreamed _ _ _ => true
  | .bootKeyStoreOpen badSlots _ => badSlots.all (fun n => decide (n < 1024))
  | .hbmTrainingDone failed _ => failed.all (fun n => decide (n < 16))
  | .driveReady d a b _ => decide (d < 2) && decide (a.length = 48) && decide (b.length = 48)
  | .driveAttachTimeout => true
  | .journalReplayDone => true
  | .pergolaJoinEnd => true
  | .sqEnable n _ => decide (n < 32)
  | .sqDisable n => decide (n < 32)
  | .sqDrainDone n => decide (n < 32)
  | .cqEnable n _ => decide (n < 32)
  | .cqDisable n => decide (n < 32)
  | .sqTailDoorbell n _ => decide (n < 32)
  | .cqHeadDoorbell n _ => decide (n < 32)
  | .devAlertWrite _ => true
  | .devTimeLowRead => true
  | .timeNowLowRead _ => true
  | .measWord0Read _ n => decide (n < 8)
  | .resultEarlyRead _ w => w.wf
  | .readToClear _ _ => true
  | .registerWrite t => t.wf
  | .msixUnmask _ => true
  | .entryFetch sq entry lane ctx => decide (sq < 32) && decide (lane < 16) && decide (ctx < 64) && decide (entry.length = 128)
  | .entryReadFail sq => decide (sq < 32)
  | .completionWriteFail cq => decide (cq < 32)
  | .irqModerationTick => true
  | .telemetryRefresh mainTemp gateTemp => decide (mainTemp < 2 ^ 64) && decide (gateTemp < 2 ^ 64)
  | .gatehouseTelemetryRefresh => true
  | .driveLogPoll d _ => decide (d < 2)
  | .defineEvent _ => true
  | .closeEvent _ => true
  | .voidSerials _ => true
  | .importKey _ => true
  | .deriveKey _ => true
  | .retireKey _ => true
  | .setTimeVoucher _ => true
  | .queryLedger _ => true
  | .epochRoll _ => true
  | .bindRing _ => true
  | .getStats _ => true
  | .handBack _ => true
  | .controlBlockReadFail => true
  | .mintIntake lane ctx => decide (lane < 16) && decide (ctx < 64)
  | .mintWrapperReadDone lane ctx _ => decide (lane < 16) && decide (ctx < 64)
  | .mintWrapperReadTimeout lane ctx => decide (lane < 16) && decide (ctx < 64)
  | .mintClock lane ctx => decide (lane < 16) && decide (ctx < 64)
  | .mintRule lane ctx => decide (lane < 16) && decide (ctx < 64)
  | .keyCacheFill lane slot gen => decide (lane < 16) && decide (slot < 1024) && decide (gen < 65536)
  | .mintDrbgTimeout lane ctx => decide (lane < 16) && decide (ctx < 64)
  | .mintLedgerAssign lane ctx => decide (lane < 16) && decide (ctx < 64)
  | .leaseOpenTimeout => true
  | .mintSealDone lane ctx => decide (lane < 16) && decide (ctx < 64)
  | .mldsaJobDone => true
  | .mintOutputWriteFail lane ctx => decide (lane < 16) && decide (ctx < 64)
  | .verdictIntake lane ctx => decide (lane < 16) && decide (ctx < 64)
  | .verdictFwdRx f lane ctx => decide (lane < 16) && decide (ctx < 64) && decide (f.src < 4096)
  | .heldForwardTimeout src _ => decide (src < 4096)
  | .forwardContextTimeout src _ => decide (src < 4096)
  | .verdictCheck lane ctx => decide (lane < 16) && decide (ctx < 64)
  | .verdictClock lane ctx => decide (lane < 16) && decide (ctx < 64)
  | .verdictRule lane ctx => decide (lane < 16) && decide (ctx < 64)
  | .verdictLedgerApply lane ctx => decide (lane < 16) && decide (ctx < 64)
  | .verdictReplyRx lane ctx _ _ _ _ _ _ _ => decide (lane < 16) && decide (ctx < 64)
  | .forwardReplyTimeout lane ctx => decide (lane < 16) && decide (ctx < 64)
  | .passbackRebuildBlock => true
  | .groupTick => true
  | .journalBlockWriteDone d block => decide (d < 2) && decide (block < 2 ^ 64)
  | .driveWriteError d => decide (d < 2)
  | .driveLost d => decide (d < 2)
  | .mirrorJournalRx src _ group tFirst _ => decide (src < 4096) && decide (group < 2 ^ 64) && decide (tFirst < 2 ^ 64)
  | .groupAckRx src _ group => decide (src < 4096) && decide (group < 2 ^ 64)
  | .leaseMirrorRx src _ ceiling => decide (src < 4096) && decide (ceiling < 2 ^ 64)
  | .leaseAckRx src _ ceiling => decide (src < 4096) && decide (ceiling < 2 ^ 64)
  | .pageRequestRx src _ subject page => decide (src < 4096) && decide (subject < 4096) && decide (page < 2 ^ 26)
  | .pageRx src _ subject page _ _ => decide (src < 4096) && decide (subject < 4096) && decide (page < 2 ^ 26)
  | .pageAbsentRx src _ subject page => decide (src < 4096) && decide (subject < 4096) && decide (page < 2 ^ 26)
  | .voidRequestRx src _ subject block => decide (src < 4096) && decide (subject < 4096) && decide (block < 1024)
  | .voidBlockRx src _ subject block _ => decide (src < 4096) && decide (subject < 4096) && decide (block < 1024)
  | .mirrorResendTimeout group => decide (group < 2 ^ 64)
  | .durabilityTimeout lane ctx => decide (lane < 16 ∧ ctx < 64 ∨ lane = 16 ∧ ctx = 0)
  | .pageReadDone slot d data => decide (slot < 2 ^ 26) && decide (d < 2) && data.all fun es => es.all fun e => decide (e.1 < 16384)
  | .pageMissSecondRead slot => decide (slot < 2 ^ 26)
  | .pageMissTimeout lane ctx => decide (lane < 16 ∧ ctx < 64 ∨ lane = 16 ∧ ctx = 0)
  | .checkpointStart => true
  | .checkpointWritesDone => true
  | .voidRewritePage => true
  | .resilverCopyDone d => decide (d < 2)
  | .pcRebuildDone pc => decide (pc < 16)
  | .rollConfirmTimeout => true
  | .linkTrainStart _ _ => true
  | .trainingPatternDetect _ _ => true
  | .helloRx _ _ => true
  | .keyxRx _ _ _ switchAt => decide (switchAt < 2 ^ 64)
  | .linkTrainTimeout _ => true
  | .linkRetryTimer _ _ => true
  | .linkRekey _ => true
  | .ackTimer _ => true
  | .ackRx _ linkSeq => decide (linkSeq < 2 ^ 64)
  | .nakRx _ linkSeq => decide (linkSeq < 2 ^ 64)
  | .linkAckTimeout _ => true
  | .degradeRx _ _ => true
  | .laneRetrainDone _ => true
  | .laneRetrainTimeout _ => true
  | .downRx _ => true
  | .frameRoute _ wire => decide (wire.length % 8 = 0)
  | .heartbeatTimer => true
  | .heartbeatRx src _ _ _ _ _ term groupEnd => decide (src < 4096) && decide (term < 2 ^ 32) && decide (groupEnd < 2 ^ 64)
  | .heartbeatSilence src => decide (src < 4096)
  | .witnessQueryRx src _ home term => decide (src < 4096) && decide (home < 4096) && decide (term < 2 ^ 32)
  | .witnessReplyRx src _ _ home term => decide (src < 4096) && decide (home < 4096) && decide (term < 2 ^ 32)
  | .decisionAckRx f => f.wf
  | .grantLapse home => decide (home < 4096)
  | .collectionTimeout => true
  | .collectionRetry => true
  | .abstainPeriodEnd => true
  | .joinRx f => f.wf
  | .withdrawRx f => f.wf
  | .takeoverRx f => f.wf
  | .excludeRx f => f.wf
  | .shadowCompleteRx f => f.wf
  | .handbackOfferRx f => f.wf
  | .handbackAcceptRx f => f.wf
  | .handbackOfferTimeout => true
  | .rollQueryRx f => f.wf
  | .rollConfirmRx f => f.wf
  | .rollRefuseRx f => f.wf
  | .rollConfirmLapse => true
  | .viewRequestRx f => f.wf
  | .viewRx f => f.wf
  | .viewRequestTimeout => true
  | .timePulseTimer => true
  | .timePulseRx _ src time unc _ => decide (src < 4096) && decide (time < 2 ^ 64) && decide (unc < 2 ^ 32)
  | .keyTransportRequestRx src slot _ => decide (src < 4096) && decide (slot < 1024)
  | .keyTransportDeliverRx src slot _ _ => decide (src < 4096) && decide (slot < 1024)
  | .keyTransportRefuseRx src slot _ => decide (src < 4096) && decide (slot < 1024)
  | .keyTransportReceiptRx src slot _ => decide (src < 4096) && decide (slot < 1024)
  | .keyTransportTimeout => true
  | .coreReset _ => true
  | .ld x _ _ => x.wf
  | .st x mode _ => x.wf && decide (mode ≠ .imm)
  | .add x _ _ => x.wf
  | .sub x _ _ => x.wf
  | .andOp x _ _ => x.wf
  | .orOp x _ _ => x.wf
  | .xor x _ _ => x.wf
  | .cmp x _ _ => x.wf
  | .mul x _ _ => x.wf
  | .div x _ _ => x.wf
  | .ldx x _ _ => x.wf
  | .ldy x _ _ => x.wf
  | .jmp x _ _ => x.wf
  | .call x _ _ => x.wf
  | .xmov x _ => x.wf
  | .nop x => x.wf
  | .halt x => x.wf
  | .wait x => x.wf
  | .waitComplete _ => true
  | .svc x => x.wf
  | .ei x => x.wf
  | .di x => x.wf
  | .iret x => x.wf
  | .ret x => x.wf
  | .jmpa x => x.wf
  | .neg x => x.wf
  | .notOp x => x.wf
  | .stx x => x.wf
  | .sty x => x.wf
  | .xa x => x.wf
  | .ya x => x.wf
  | .lra x => x.wf
  | .alr x => x.wf
  | .asi x => x.wf
  | .asb x => x.wf
  | .lslx x => x.wf
  | .lsrx x => x.wf
  | .asrx x => x.wf
  | .rorx x => x.wf
  | .adp x => x.wf
  | .tq x t => x.wf && decide (t.toNat ≤ 5)
  | .dpa x => x.wf
  | .lsl x _ => x.wf
  | .lsr x _ => x.wf
  | .asr x _ => x.wf
  | .undefinedInstruction _ words => decide (words ≠ [])
  | .repeatIteration _ => true
  | .interruptEntry _ => true
  | .keyCmdOpen _ => true
  | .keyCmdClose _ => true
  | .keyCmdImport _ => true
  | .keyCmdDerive _ => true
  | .keyCmdRetire _ => true
  | .keyCmdVerify _ => true
  | .keyCmdMac _ => true
  | .keyCmdTransportWrap _ => true
  | .keyCmdTransportUnwrap _ => true
  | .keyCmdAttest _ => true
  | .keyCommandEnd => true
  | .digStart _ _ => true
  | .digUpdate _ => true
  | .digFinish _ _ => true
  | .digAbort _ => true
  | .digCommandEnd => true
  | .rngGenerate _ => true
  | .rngGenerateFresh _ => true
  | .rngSelect _ _ => true
  | .rngTest _ _ => true
  | .rngCommandEnd _ => true
  | .noiseHealthFail _ => true
  | .noiseStartupTestDone source _ => decide (source < 4)
  | .reseedBufferFull _ => true
  | .drbgReseedLimit => true
  | .drbgRequestTimeout _ => true
  | .noiseRetestTimer source => decide (source < 4)
  | .ledQuery _ => true
  | .ledVoid _ => true
  | .ledRoll _ => true
  | .ledCheckpoint _ => true
  | .ledCommandEnd => true
  | .laneSelftest _ lane => decide (lane < 16)
  | .laneSelftestDone lane _ _ => decide (lane < 16)
  | .lanePurge _ lane => decide (lane < 16)
  | .laneClockGate lane => decide (lane < 16)
  | .hqCtlFetch _ entry => decide (entry.length = 128)
  | .hqCtlComplete _ => true
  | .hqDmaHostToLocal _ _ => true
  | .hqDmaLocalToHost _ => true
  | .hqDmaDone _ => true
  | .hqPlaneOpen _ => true
  | .hqPlanePause _ => true
  | .hqBind _ _ => true
  | .hbmPublish _ => true
  | .hbmPublishEnd => true
  | .fabCmdHandBack _ => true
  | .fabCmdWithdraw _ => true
  | .fabCmdKeyRequest _ => true
  | .fabCmdRollQuery _ => true
  | .fabCommandEnd => true
  | .nvmeAttachResilver _ d => decide (d < 2)
  | .driveAttach d _ => decide (d < 2)
  | .nvmeRetire _ d => decide (d < 2)
  | .timeVoucherSubmit _ => true
  | .timeCommandEnd => true
  | .timeMirrorUpdate => true
  | .recAppend _ => true
  | .recRead _ => true
  | .recReadDone => true
  | .recBeginTx _ _ => true
  | .recAbortTx _ => true
  | .recHotWrite _ => true
  | .recHotRead _ => true
  | .recAppendCommit _ => true
  | .appendPreconditionsMet => true
  | .sectorEraseDone sector => decide (sector < 1024)
  | .sectorRefresh sector => decide (sector < 1024)
  | .pwrRoleGive _ => true
  | .pwrRoleTake _ => true
  | .pwrWdog _ => true
  | .watchdogExpire _ => true
  | .pwrPeerReset _ _ => true
  | .pwrReqNap _ => true
  | .pwrReqKeep _ => true
  | .pwrReqWake _ => true
  | .keepWithdrawWaitTimeout => true
  | .napWakeEvent _ => true
  | .napWakeDone => true
  | .keepWake => true
  | .gpioWakeInput n => decide (n < 8)
  | .idLoad _ _ => true
  | .mbxPostNext _ => true
  | .mbxPostSelf _ _ => true
  | .observationPost unit _ _ _ => decide (unit < 128)
  | .mbxApply _ _ => true
  | .failoverSettled => true
  | .unitDrained unit => decide (unit < 128)
  | .mbxDoorbellTable _ => true
  | .mbxDoorbellAlert _ => true
  | .mbxIrqPendingClear _ _ _ => true
  | .timerMatch _ => true
  | .mbxPeerSend _ count => decide (count < 2 ^ 32)
  | .mbxPeerAck _ => true
  | .mbxGSend _ count => decide (count < 2 ^ 32)
  | .mbxGAck _ => true
  | .tamperAlarm sensor _ => decide (sensor < 28)
  | .tamperFlushDone => true
  | .tamperClear => true
  | .tamperWithdrawTimer => true
  | .tamperLoopTick n _ _ => decide (n < 4)
  | .jtagUpdateIr _ _ => true
  | .cdcStall unit => decide (unit < 128)
  | .crossingResync _ dropped => dropped.all (fun p => decide (p.1 < 16) && decide (p.2 < 64))
  | .pulseDeliver _ => true
  | .pulsePhaseEnd _ => true
  | .mctpMessageRx bytes _ _ _ _ => decide (bytes.length ≤ 4113)
  | .setEndpointId _ => true
  | .getEndpointId => true
  | .getMctpVersionSupport => true
  | .getMessageTypeSupport => true
  | .getVendorDefinedMessageSupport => true
  | .mctpUnsupportedCommand _ => true
  | .getIdentity _ => true
  | .getHealth _ => true
  | .getTelemetry _ => true
  | .getUnitTable _ => true
  | .proposeUnitState _ => true
  | .stageImageBlock _ _ => true
  | .commitStagedImage _ => true
  | .attest _ => true
  | .mgtSetTimeVoucher _ => true
  | .getLog _ => true
  | .clearAlert _ => true
  | .twinStatus _ => true
  | .mgtRxTake _ => true
  | .mgtTxSend _ => true
  | .mgtAlertSet _ _ => true
  | .mgtAlertClear _ _ _ => true
  | .frameCrcGcmFailure _ _ => true

end Sys2Proof
end

