-- ==== Sys2Proof/Certificates/Slice0/Obligations.lean ====
section
/-! DEFINITION. The statements about the block that the provers settle. -/

open Sys2Proof Sys2Proof.Machine

/-- A valid enable of an IDLE submission ring makes it RUNNING with the type, depth and completion ring of the write and indices 0; one with a
bad type, a bad depth or a completion ring that is not RUNNING leaves it IDLE with cfg_error. A disable of a ring that is not IDLE makes
it DRAINING. The end of a drain with nothing in flight makes it IDLE with indices 0. A tail doorbell below the depth sets the tail; one at
or above it sets doorbell_error and ERROR and, unless the ring was in ERROR already, DEV_CAUSE.ring_error and HQ_EVENT. A host that does not
reach the registers, with the main die off or the link down, changes nothing. In the equations the next state is the old one with that one
ring changed (and the cause and interrupt the rule names), so every other ring and every other part is unchanged. Rests on R101, R104, R106, R110, R115, R493. -/
def Obligations.SubmissionRingsAreConfigured : Prop :=
  (∀ (s : State) (n : Nat) (cfg : BitVec 32),
    let kind : BitVec 2 := if n = 0 then 0 else cfg.extractLsb' 1 2
    let depth := cfg.extractLsb' 8 4
    let cq := cfg.extractLsb' 16 5
    hostReach s = true → n < 32 → (sqOf s n).st = .idle → (n = 0 ∨ kind = 1 ∨ kind = 2) → 4 ≤ depth.toNat → depth.toNat ≤ 12 → (cqOf s cq.toNat).st = .running →
    exec (.sqEnable n cfg) s
      = .next (onSq s n fun r => { r with kind := kind, depthLog2 := depth, cq := cq, enable := true, st := .running, head := 0, tail := 0 })) ∧
  (∀ (s : State) (n : Nat) (cfg : BitVec 32),
    let kind : BitVec 2 := if n = 0 then 0 else cfg.extractLsb' 1 2
    let depth := cfg.extractLsb' 8 4
    hostReach s = true → n < 32 → (sqOf s n).st = .idle →
    (n ≠ 0 ∧ (kind = 0 ∨ kind = 3)) ∨ depth.toNat < 4 ∨ 12 < depth.toNat ∨ (cqOf s (cfg.extractLsb' 16 5).toNat).st ≠ .running →
    ∃ t, exec (.sqEnable n cfg) s = .next t ∧ (sqOf t n).st = .idle ∧ (sqOf t n).cfgError = true ∧ (sqOf t n).enable = false ∧
      (∀ m, m ≠ n → sqOf t m = sqOf s m) ∧ Keeps [.hq] s t) ∧
  (∀ (s : State) (n : Nat), hostReach s = true → (sqOf s n).st ≠ .idle →
    exec (.sqDisable n) s = .next (onSq s n fun r => { r with enable := false, st := .draining })) ∧
  (∀ (s : State) (n : Nat), (sqOf s n).st = .draining → (sqOf s n).inFlight = 0 →
    exec (.sqDrainDone n) s = .next (onSq s n fun r => { r with st := .idle, head := 0, tail := 0 })) ∧
  (∀ (s : State) (n : Nat) (v : BitVec 32), hostReach s = true → n < 32 → (sqOf s n).st ≠ .idle →
    (v.extractLsb' 0 12).toNat < depthOf (sqOf s n).depthLog2 →
    exec (.sqTailDoorbell n v) s = .next (onSq s n fun r => { r with tail := (v.extractLsb' 0 12).toNat })) ∧
  (∀ (s : State) (n : Nat) (v : BitVec 32), hostReach s = true → n < 32 → (sqOf s n).st ≠ .idle →
    depthOf (sqOf s n).depthLog2 ≤ (v.extractLsb' 0 12).toNat →
    let u := onSq s n fun r => { r with doorbellError := true, st := .error }
    exec (.sqTailDoorbell n v) s = .next (if (sqOf s n).st = .error then u else irqMain (cause u 0) 3)) ∧
  (∀ (s : State) (n : Nat) (v : BitVec 32), hostReach s = false →
    exec (.sqEnable n v) s = .next s ∧ exec (.sqDisable n) s = .next s ∧ exec (.sqTailDoorbell n v) s = .next s)

/-- A valid enable of an IDLE completion ring makes it RUNNING with the depth, vector and interrupt enable of the write, tail 0 and phase 1. A
disable of a ring that no submission ring out of IDLE names makes it IDLE; one that is named sets cfg_error alone. A head doorbell that
releases entries the ring holds moves the head; any other sets doorbell_error and ERROR. A completion write that fails sets write_error
and ERROR. A ring that so enters ERROR sets DEV_CAUSE.ring_error and raises HQ_EVENT. Each next state is the old one with that one ring
changed, and the cause and interrupt the rule names. Rests on R105, R107, R111, R115, R150, R161, R162, R854. -/
def Obligations.CompletionRingsAreConfigured : Prop :=
  (∀ (s : State) (n : Nat) (cfg : BitVec 32),
    let depth := cfg.extractLsb' 8 4
    hostReach s = true → n < 32 → (cqOf s n).st = .idle → 4 ≤ depth.toNat → depth.toNat ≤ 14 → ((cqOf s n).modCount = 0 ∨ (cqOf s n).modTimer ≠ 0) →
    exec (.cqEnable n cfg) s = .next (onCq s n fun q => { q with
      irqEnable := cfg.getLsbD 1, depthLog2 := depth, vector := cfg.extractLsb' 16 6, enable := true, st := .running, tail := 0, phase := true,
      head := 0, reserved := 0 })) ∧
  (∀ (s : State) (n : Nat), hostReach s = true → (cqOf s n).st ≠ .idle → cqNamed s n = false →
    exec (.cqDisable n) s = .next (onCq s n fun q => { q with enable := false, st := .idle, tail := 0, phase := true, head := 0, reserved := 0 })) ∧
  (∀ (s : State) (n : Nat), hostReach s = true → (cqOf s n).st ≠ .idle → cqNamed s n = true →
    exec (.cqDisable n) s = .next (onCq s n fun q => { q with cfgError := true })) ∧
  (∀ (s : State) (n : Nat) (v : BitVec 32),
    let q := cqOf s n
    let d := depthOf q.depthLog2
    let h := (v.extractLsb' 0 14).toNat
    hostReach s = true → n < 32 → q.st ≠ .idle → h < d → (h + d - q.head) % d ≤ cqHeld q →
    exec (.cqHeadDoorbell n v) s = .next (onCq s n fun q => { q with head := h })) ∧
  (∀ (s : State) (n : Nat) (v : BitVec 32),
    let q := cqOf s n
    let d := depthOf q.depthLog2
    let h := (v.extractLsb' 0 14).toNat
    hostReach s = true → n < 32 → q.st ≠ .idle → d ≤ h ∨ cqHeld q < (h + d - q.head) % d →
    let u := onCq s n fun q => { q with doorbellError := true, st := .error }
    exec (.cqHeadDoorbell n v) s = .next (if q.st = .error then u else irqMain (cause u 0) 3)) ∧
  (∀ (s : State) (n : Nat) (v : BitVec 32), hostReach s = false →
    exec (.cqEnable n v) s = .next s ∧ exec (.cqDisable n) s = .next s ∧ exec (.cqHeadDoorbell n v) s = .next s) ∧
  (∀ (s : State) (n : Nat), (cqOf s n).st = .running →
    exec (.completionWriteFail n) s = .next (irqMain (cause (onCq s n fun q => { q with st := .error, writeError := true }) 0) 3))

/-- DEV_ALERT takes bits 11:0 of the write, and vector 0 is signalled exactly when an enable rises over a set cause. A read of DEV_TIME low
answers device time [31:0] and latches [63:32]. Unmasking a vector clears its mask and pending bit and sends the pending message. The tick
(the model's reading of the 1 µs clock, log entry 3) adds 1 to the local clock, and to device time while the part has standby or battery
power. A refresh sets the mirror from the live counters and gauges; the Gatehouse copy takes the mirror. A Function Level Reset makes
every listed ring IDLE with indices 0 and drops the requests in flight. Frames: the parts not named are unchanged. Rests on R34, R99,
R100, R155, R161, R163, R164, R687, R743. -/
def Obligations.HostRegistersAndTicksAct : Prop :=
  (∀ (s : State) (v : BitVec 32), hostReach s = true → Completes (.devAlertWrite v) s [.hq, .out] fun t =>
    t.hq.alert = v.extractLsb' 0 12 ∧ t.hq.cause = s.hq.cause ∧
    (v.extractLsb' 0 12 &&& ~~~s.hq.alert &&& s.hq.cause = 0 → t = s.onHq fun h => { h with alert := v.extractLsb' 0 12 }) ∧
    (v.extractLsb' 0 12 &&& ~~~s.hq.alert &&& s.hq.cause ≠ 0 → t = signal (s.onHq fun h => { h with alert := v.extractLsb' 0 12 }) 0)) ∧
  (∀ (s : State), hostReach s = true → Completes .devTimeLowRead s [.hq] fun t =>
    t.hq.readData = (BitVec.ofNat 32 s.time.mUs).zeroExtend 64 ∧ t.hq.timeLatch = BitVec.ofNat 32 (s.time.mUs / 2 ^ 32) ∧
    t = s.onHq fun h => { h with readData := t.hq.readData, timeLatch := t.hq.timeLatch }) ∧
  (∀ (s : State) (v : BitVec 6), hostReach s = true → (tget {} s.hq.vecs v.toNat).masked = true → (tget {} s.hq.vecs v.toNat).pbit = true → twf {} s.hq.vecs = true →
    Completes (.msixUnmask v) s [.hq, .out] fun t =>
      (tget {} t.hq.vecs v.toNat).masked = false ∧ (tget {} t.hq.vecs v.toNat).pbit = false ∧ t.out.msix = s.out.msix ++ [v]) ∧
  (∀ (s : State), Completes .irqModerationTick s [.hq, .out, .time] fun t =>
    t.time.clk = s.time.clk + 1 ∧ (s.pow.vstby = true ∨ s.pow.vbat = true → t.time.us = s.time.us + 1 ∧ t.time.mUs = s.time.mUs + 1)) ∧
  (∀ (s : State) (m g : Nat), mainRuns s = true → Completes (.telemetryRefresh m g) s [.tele, .store] fun t =>
    t.tele.mirror = t.tele.live ∧ ∀ off, off < 0x4700 → tget 0 t.tele.live off = tget 0 s.tele.live off) ∧
  (∀ (s : State), mainRuns s = true → s.pow.linkUp = true →
    exec .gatehouseTelemetryRefresh s = .next (s.onMgt fun m => { m with copy := s.tele.mirror, copyAt := some s.time.clk })) ∧
  (∀ (s : State), Completes .functionLevelReset s [.hq, .lane, .unit] fun t =>
    t.hq.flr = true ∧ t.hq.timeLatch = 0 ∧ (∀ p ∈ t.hq.sqs, p.2.st = .idle ∧ p.2.head = 0 ∧ p.2.tail = 0 ∧ p.2.enable = false) ∧
    (∀ p ∈ t.hq.cqs, p.2.st = .idle ∧ p.2.tail = 0 ∧ p.2.phase = true) ∧ ∀ p ∈ t.lane.reqs, p.2.dropped = true)

/-- With the CONTROL ring able to fetch and no request in hand, the fetched entry is the request in flight, and the ring's head moves on by
one modulo its depth. A MINT or VERDICT entry, for which a lane of the ring has a free context (and a job place where flags.pq asks for
one), occupies that context as a request in its first stage, with its tag; one that finds no job place on any lane is held, and its ring then
waits for a place with it alone. An entry that cannot be read leaves its ring in ERROR and completes INTERNAL_FAULT with detail DMA read, with
DEV_CAUSE.ring_error set. Rests on R109, R110, R114, R116, R117, R132, R210, R211, R214,
R574, R853. -/
def Obligations.EntriesAreFetched : Prop :=
  (∀ (s : State) (b : Bytes) (lane ctx : Nat), canFetch s 0 = true → s.hq.ctlFetched = none → s.key.fuse ≠ 3 →
    Completes (.entryFetch 0 b lane ctx) s [.hq, .core] fun t =>
      (∃ e, t.hq.ctlFetched = some e ∧ e.bytes = fit 128 b ∧ e.head = (sqOf t 0).head) ∧
      (sqOf t 0).head = ((sqOf s 0).head + 1) % depthOf (sqOf s 0).depthLog2 ∧ ∀ m, m ≠ 0 → sqOf t m = sqOf s m) ∧
  (∀ (s : State) (n : Nat) (b : Bytes) (lane ctx : Nat),
    n ≠ 0 → canFetch s n = true → (sqOf s n).kind = 1 ∨ (sqOf s n).kind = 2 → (leAt (fit 128 b) 2 1).testBit 1 = false ∨ (sqOf s n).kind = 2 →
    (ringLanes s n).contains lane = true → ctx < 64 → getReq s (reqKey lane ctx) = none →
    Completes (.entryFetch n b lane ctx) s [.hq, .lane, .pow, .unit] fun t =>
      ∃ q, getReq t (reqKey lane ctx) = some q ∧ q.sq = n ∧ q.entry = fit 128 b ∧ q.stage = .intake ∧
        q.tag = BitVec.ofNat 16 (leAt (fit 128 b) 0 2) ∧ q.isMint = ((sqOf s n).kind == 1)) ∧
  (∀ (s : State) (n : Nat) (b : Bytes) (lane ctx : Nat), n ≠ 0 → canFetch s n = true → needsPlace (sqOf s n) (fit 128 b) = true →
    (canPlace s n lane ctx true = true → twf {} s.lane.lanes = true → Completes (.entryFetch n b lane ctx) s [.hq, .lane, .pow, .unit] fun t =>
      (∃ q, getReq t (reqKey lane ctx) = some q ∧ q.entry = fit 128 b) ∧
      (tget {} t.lane.lanes lane).pqReserved = (tget {} s.lane.lanes lane).pqReserved + 1) ∧
    ((∀ l ∈ ringLanes s n, pqPlace s l = false) → Completes (.entryFetch n b lane ctx) s [.hq] fun t =>
      (∃ h, (sqOf t n).held = some h ∧ h.bytes = fit 128 b) ∧ canFetch t n = false)) ∧
  (∀ (s : State) (n : Nat) (b : Bytes) (lane ctx : Nat) (h : HeldEntry), n ≠ 0 → (sqOf s n).held = some h →
    exec (.entryFetch n b lane ctx) s = .next (if canPlace s n lane ctx true = true then
        dispatchEntry (onSq s n fun r => { r with held := none }) n h lane ctx else s) ∧
    exec (.entryReadFail n) s = .next s) ∧
  (∀ (s : State) (n : Nat), canFetch s n = true → n ≠ 0 ∨ s.hq.ctlFetched = none →
    Completes (.entryReadFail n) s [.hq, .out, .tele, .unit] fun t =>
      (sqOf t n).st = .error ∧ t.hq.cause.getLsbD 0 = true ∧
      ∃ c, t.out.comps = s.out.comps ++ [c] ∧ c.sq = n ∧ c.status = .internalFault ∧ c.detail = detDmaRead) ∧
  (∀ (s : State) (op : Nat) (e : CtlEntry), CtlReady s op e → ctlRsv e.bytes = none → 96 ≤ leAt e.bytes 4 4 → leAt e.bytes 4 4 ≤ 8192 →
    exec .controlBlockReadFail s = .next (endCtl s .internalFault detDmaRead))

/-- Each request that is in flight with its core running completes with the status of the first shared check that fails. One that passes them,
with the record store free, has its sequence recorded and then does what its opcode says: the event is added, or the event named is closed, at once
when no request stands in an event-reading stage, and otherwise at the end of a publish that the request waits for; the void starts; the answer is fixed and waits for durability; the roll's checks and its start; the hand-back's checks and its offer. Each
with the status of its own first failing check instead. Rests on R130, R131, R135, R136, R139, R140, R142, R318, R320, R341, R402, R488. -/
def Obligations.SignedRequestsOnEventsAndLedger : Prop :=
  SignedRequest .defineEvent 0x01 (fun s b =>
    match checkEvent s b with
    | some x => endCtl s x.1 x.2
    | none => if eventReaders s = [] ∧ s.hbm.publishing = [] then
          endCtl (s.onHbm fun h => { h with events := h.events ++ [(leAt b 0 4, { eventRec b with epoch := s.led.epoch })] }) .done
        else (s.onHbm fun h => { h with publishing := h.publishing ++ [{
            num := leAt b 0 4, event := some { eventRec b with epoch := s.led.epoch }, epoch := s.led.epoch, waits := eventReaders s }] }).onHq fun h => { h with ctlHeld := true, ctlFor := .publish }) ∧
  SignedRequest .closeEvent 0x02 (fun s b =>
    if zeroAt b 4 4 = false then endCtl s .reservedField (detBlock 36)
    else if eventOf s (leAt b 0 4) = none then endCtl s .eventUnknown
    else if eventReaders s = [] ∧ s.hbm.publishing = [] then endCtl (s.onHbm fun h => { h with
      events := h.events.map fun p => if p.1 = leAt b 0 4 then (p.1, { p.2 with closed := true }) else p }) .done
    else (s.onHbm fun h => { h with publishing := h.publishing ++ [{ num := leAt b 0 4, epoch := s.led.epoch, waits := eventReaders s }] }).onHq
      fun h => { h with ctlHeld := true, ctlFor := .publish }) ∧
  SignedRequest .voidSerials 0x03 (fun s b =>
    if zeroAt b 7 1 = false then endCtl s .reservedField (detBlock 39)
    else if zeroAt b 15 1 = false then endCtl s .reservedField (detBlock 47)
    else match startVoid s (leAt b 0 7) (leAt b 8 7) false with
      | .error e => endCtl s e.1 e.2
      | .ok s' => s') ∧
  SignedRequest .queryLedger 0x08 (fun s b =>
    if zeroAt b 7 1 = false then endCtl s .reservedField (detBlock 39)
    else match checkQuery s (leAt b 0 7) with
      | some e => endCtl s e.1 e.2
      | none => startQuery s (leAt b 0 7) false) ∧
  SignedRequest .epochRoll 0x09 doEpochRoll ∧
  SignedRequest .handBack 0x0C (fun s b =>
    if leAt b 0 2 ≥ 4096 then endCtl s .reservedField (detBlock 33)
    else if zeroAt b 2 2 = false then endCtl s .reservedField (detBlock (if zeroAt b 2 1 then 35 else 34))
    else match checkHandBack s (leAt b 0 2) (leAt b 4 4) with
      | some e => endCtl s e.1 e.2
      | none => startHandBack s (leAt b 0 2) false)

/-- As for the requests on events and the ledger: each request in flight with its core running completes with the first shared check that
fails; one that passes them, with the record store free, has its sequence recorded and then stores the imported or derived key and answers
its name, retires the slot, takes the voucher, sets the ring's lane mask (0 meaning all lanes), or answers the unit-table bytes; or ends
with its own first failing check. Past its checks of form a request on a slot that is being changed waits; one whose key cannot be stored because the DRBG
does not serve waits too. Rests on R130,
R131, R144, R146, R556, R559, R561, R562, R564, R635, R694, R695. -/
def Obligations.SignedRequestsOnKeysAndTheDevice : Prop :=
  SignedRequest .importKey 0x04 (fun s b => match firstBad (importForm b) with
   | some e => endCtl s e.1 e.2
   | none => if slotBusy s (leAt b 0 2) then s.onHq fun h => { h with ctlHeld := true, ctlFor := .record } else
    match checkImport s (.core s.unit.active) b with
    | .error e => endCtl s e.1 e.2
    | .ok k => if rngServes s then endCtl (storeNew s k 2) .done 0 (newKeyResponse s k) else s.onHq fun h => { h with ctlHeld := true, ctlFor := .random }) ∧
  SignedRequest .deriveKey 0x05 (fun s b => match firstBad (deriveForm b) with
   | some e => endCtl s e.1 e.2
   | none => if slotBusy s (leAt b 0 2) then s.onHq fun h => { h with ctlHeld := true, ctlFor := .record } else
    match checkDerive s (.core s.unit.active) b with
    | .error e => endCtl s e.1 e.2
    | .ok k => if rngServes s then endCtl (storeNew s k 3) .done 0 (newKeyResponse s k) else s.onHq fun h => { h with ctlHeld := true, ctlFor := .random }) ∧
  SignedRequest .retireKey 0x06 (fun s b => if slotBusy s (leAt b 0 2) then s.onHq fun h => { h with ctlHeld := true, ctlFor := .record } else
    match checkRetire s b with
    | some e => endCtl s e.1 e.2
    | none => endCtl (retireSlot s (leAt b 0 2)) .done) ∧
  SignedRequest .setTimeVoucher 0x07 (fun s b =>
    match checkVoucher s s.unit.active true b with
    | some e => endCtl s e.1 e.2
    | none => endCtl (acceptVoucher s b) .done) ∧
  SignedRequest .bindRing 0x0A (fun s b =>
    match firstBad [(zeroAt b 1 1, (.reservedField, detBlock 33)), (zeroAt b 2 1, (.reservedField, detBlock 34)),
        (zeroAt b 3 1, (.reservedField, detBlock 35)), (zeroAt b 6 2, (.reservedField, detBlock 38)),
        (decide (1 ≤ leAt b 0 1) && decide (leAt b 0 1 ≤ 31), (.badFormat, detBlock 32))] with
    | some e => endCtl s e.1 e.2
    | none => endCtl (onSq s (leAt b 0 1) fun r => { r with
        lanes := if BitVec.ofNat 16 (leAt b 4 2) = 0 then 0xFFFF else BitVec.ofNat 16 (leAt b 4 2) }) .done) ∧
  SignedRequest .getStats 0x0B (fun s _ => endCtl s .done 0 (statsBytes s.unit.version s.unit.tbl))

/-- With the digest engine free, a start by a core that reaches the window makes that core the owner of an empty message of the algorithm
written; with the HMAC bit set, under the key its handle resolves to. An update appends the bytes at the core's data address; a finish to
a destination the rules allow runs; its end gives the digest to the owner's bank (destination 0) or extends the measurement register (6 or
7) and frees the engine. An abort frees it. Reading word 0 of a measurement register answers its first word and latches the register for
that core. Rests on R592, R593, R594, R596, R597, R599, R601, R602, R604, R606, R608. -/
def Obligations.DigestWindowActs : Prop :=
  (∀ (s : State) (c : CoreId) (v : BitVec 32), Reaches s c 0x8400 false → unitTakes s 0x39 = true → s.dig.owner = none →
    v.extractLsb' 3 29 = 0 → v.extractLsb' 0 2 ≠ 3 → v.getLsbD 2 = false →
    Completes (.digStart c v) s [.dig] fun t =>
      t.dig.owner = some c ∧ t.dig.alg = v.extractLsb' 0 2 ∧ t.dig.hmacKey = none ∧ t.dig.msg = [] ∧ (digGet t c).result = 1) ∧
  (∀ (s : State) (c : CoreId) (v : BitVec 32) (k : KeyRef) (x : Slot), Reaches s c 0x8400 false → unitTakes s 0x39 = true → s.dig.owner = none →
    v.extractLsb' 3 29 = 0 → v.extractLsb' 0 2 ≠ 3 → v.getLsbD 2 = true → useHandle s c (digGet s c).key [kHmac] = .ok (k, x) →
    Completes (.digStart c v) s [.dig] fun t =>
      t.dig.owner = some c ∧ t.dig.alg = v.extractLsb' 0 2 ∧ t.dig.hmacKey = some x.material ∧ t.dig.msg = [] ∧ (digGet t c).result = 1) ∧
  (∀ (s : State) (c : CoreId) (b : Bytes), Reaches s c 0x8405 false → digRefuse s c = none → (digGet s c).len.toNat ≤ 4096 →
    s.dig.msg.length + (digGet s c).len.toNat < 2 ^ 32 → readStr s c (digGet s c).addr.toNat (digGet s c).len.toNat = some b →
    Completes (.digUpdate c) s [.dig] fun t => t.dig.msg = s.dig.msg ++ b ∧ t.dig.owner = s.dig.owner ∧ t.dig.running = some 15 ∧ (digGet t c).result = 1) ∧
  (∀ (s : State) (c : CoreId) (v : BitVec 32), Reaches s c 0x8406 false → digRefuse s c = none → v.extractLsb' 4 28 = 0 →
    v.extractLsb' 0 4 = 0 ∨ ((v.extractLsb' 0 4 = 6 ∨ v.extractLsb' 0 4 = 7) ∧ s.dig.alg = 1 ∧ s.dig.hmacKey = none) →
    Completes (.digFinish c v) s [.dig] fun t => t.dig.running = some (v.extractLsb' 0 4) ∧ t.dig.msg = s.dig.msg ∧ (digGet t c).result = 1) ∧
  (∀ (s : State) (c : CoreId), Reaches s c 0x8407 false → unitTakes s 0x39 = true → s.dig.owner = some c →
    Completes (.digAbort c) s [.dig] fun t => t.dig.owner = none ∧ t.dig.hmacKey = none ∧ t.dig.msg = [] ∧ t.dig.meas = s.dig.meas ∧ (digGet t c).result = 1) ∧
  (∀ (s : State) (c : CoreId), c ≠ .g → s.dig.owner = some c → s.dig.running = some 0 →
    Completes .digCommandEnd s [.dig, .unit] fun t =>
      t.dig.owner = none ∧ (digGet t c).done = true ∧ (digGet t c).bank = digestOf s.dig.alg s.dig.hmacKey s.dig.msg ∧ t.dig.meas = s.dig.meas) ∧
  (∀ (s : State) (c : CoreId) (n : BitVec 4), c ≠ .g → s.dig.owner = some c → s.dig.running = some n → n = 6 ∨ n = 7 →
    Completes .digCommandEnd s [.dig, .unit] fun t => t.dig.owner = none ∧ (digGet t c).done = true ∧
      t.dig.meas = tput [] s.dig.meas n.toNat
        (bvBytes (Config.sha384 (measOf s.dig.meas n.toNat ++ digestOf s.dig.alg s.dig.hmacKey s.dig.msg)))) ∧
  (∀ (s : State) (c : CoreId) (n : Nat), n < 8 → Reaches s c (0x8440 + 12 * n) false →
    Completes (.measWord0Read c n) s [.dig, .core] fun t =>
      t.core.busData = bitsW (BitVec.ofNat 32 (leAt (measOf s.dig.meas n) 0 4)) ∧ t.dig.meas = s.dig.meas ∧
      (digGet t c).latch = tput [] (digGet s c).latch n (measOf s.dig.meas n))

/-- A GENERATE of 1 to 4,096 bytes with the DRBG able to serve writes that many random bytes at RNG_ADDR, the next ones of the free values,
and counts them; with the DRBG not able to serve it waits. GENERATE_FRESH waits for a reseed made from a buffer filled afterwards. A
served command ends with done and RNG_EVENT; one that waits too long ends RANDOM_NOT_READY. RNG_SELECT of another ACTIVE source makes the
bank SWITCH to it; RNG_TEST of a source in TESTING starts its test; the 10-second timer moves a FAILED source to TESTING and starts its
test. Rests on R624, R627, R628, R629, R633, R635, R640, R641, R642, R643. -/
def Obligations.RandomWindowActs : Prop :=
  (∀ (s : State) (c : CoreId), Reaches s c 0x8800 false → (rngGet s c).busy = false → 1 ≤ (rngGet s c).len.toNat → (rngGet s c).len.toNat ≤ 4096 →
    rngServes s = true →
    Completes (.rngGenerate c) s [.rng, .core, .hq, .out] fun t =>
      (rngGet t c).busy = true ∧ (rngGet t c).waiting = false ∧ (rngGet t c).status = .done ∧ t.rng.drawn = s.rng.drawn + (rngGet s c).len.toNat ∧
      t.core = (writeStr s c (rngGet s c).addr.toNat (randBytes s (rngGet s c).len.toNat)).core) ∧
  (∀ (s : State) (c : CoreId), Reaches s c 0x8800 false → (rngGet s c).busy = false → 1 ≤ (rngGet s c).len.toNat → (rngGet s c).len.toNat ≤ 4096 →
    rngServes s = false →
    Completes (.rngGenerate c) s [.rng, .hq, .out] fun t => (rngGet t c).busy = true ∧ (rngGet t c).waiting = true ∧ t.rng.drawn = s.rng.drawn) ∧
  (∀ (s : State) (c : CoreId), Reaches s c 0x8800 false → (rngGet s c).busy = false → 1 ≤ (rngGet s c).len.toNat → (rngGet s c).len.toNat ≤ 4096 →
    Completes (.rngGenerateFresh c) s [.rng, .hq, .out] fun t =>
      (rngGet t c).waiting = true ∧ (rngGet t c).fresh = true ∧ t.rng.full = false ∧ t.rng.drawn = s.rng.drawn) ∧
  (∀ (s : State) (c : CoreId), c ≠ .g → (rngGet s c).busy = true → (rngGet s c).waiting = false →
    Completes (.rngCommandEnd c) s [.rng, .unit] fun t =>
      (rngGet t c).busy = false ∧ (rngGet t c).done = true ∧ (rngGet t c).status = (rngGet s c).status ∧ t.unit = (irqMain s 12).unit) ∧
  (∀ (s : State) (c : CoreId), c ≠ .g → (rngGet s c).waiting = true →
    Completes (.drbgRequestTimeout c) s [.rng, .unit] fun t =>
      (rngGet t c).busy = false ∧ (rngGet t c).status = .randomNotReady ∧ t.rng.drawn = s.rng.drawn ∧ t.unit = (irqMain s 12).unit) ∧
  (∀ (s : State) (c : CoreId) (v : BitVec 32), Reaches s c 0x8804 true → (v.extractLsb' 0 2).toNat ≠ s.rng.source →
    unitActive s (0x40 + (v.extractLsb' 0 2).toNat) = true → s.rng.bank = .ready →
    Completes (.rngSelect c v) s [.rng, .unit, .hq, .out] fun t =>
      t.rng.bank = .switching ∧ t.rng.source = (v.extractLsb' 0 2).toNat ∧ t.rng.full = false) ∧
  (∀ (s : State) (c : CoreId) (v : BitVec 32), Reaches s c 0x8805 true → unitSt s (0x40 + (v.extractLsb' 0 2).toNat) = .testing → s.rng.testing = none →
    exec (.rngTest c v) s = .next (s.onRng fun r => { r with testing := some (v.extractLsb' 0 2).toNat, testResult := 0, early := false })) ∧
  (∀ (s : State) (n : Nat), n < 4 → coreUp s s.unit.active = true → unitSt s (0x40 + n) = .failed → tget false s.rng.blocked n = false →
    s.rng.testing = none → appendsNow s = true →
    ∃ t, exec (.noiseRetestTimer n) s = .next t ∧ unitSt t (0x40 + n) = .testing ∧ t.rng.testing = some n ∧ t.unit.version = s.unit.version + 1)

/-- The buffer becomes full only from a READY bank: an instantiated DRBG that waits for no reseed keeps its bits as the next entropy input, and one
not yet instantiated, under no tamper response and with nothing waiting, is instantiated from them, a nonce of 128 bits, and unit number and
time. The reseed limit with an empty buffer stops service until a reseed; with a full one and nothing waiting the reseed follows at once from
its bits. Raw bits of the source in use are conditioned as the mode says; those that pass both health tests only move them on; a cutoff reached switches the bank to the next ACTIVE
source, or leaves it FAILED with none. From new, a run of identical bits one short of the repetition cutoff passes and one of that length
fails that test alone. A start-up test passed makes the bank READY, or, of a source under RNG_TEST, records the pass. Rests on R618, R619, R620,
R621, R623, R624, R625, R626, R630, R631, R632, R634. -/
def Obligations.NoiseBankAndDrbgReact : Prop :=
  (∀ (s : State) (e : Bytes), s.rng.bank = .ready → s.rng.full = false → s.pow.mainUp = true → s.rng.inst = true → s.rng.limit = false →
    s.rng.a.fresh = false → s.rng.b.fresh = false →
    Completes (.reseedBufferFull e) s [.rng, .hq, .out, .pow, .fab] fun t =>
      t.rng = { s.rng with full := true, entropy := fit (entropyBytes s.rng.mode) e, nonce := [] }) ∧
  (∀ (s : State) (e : Bytes), s.rng.bank = .ready → s.rng.full = false → s.pow.mainUp = true → s.rng.inst = false → s.tmp.inForce = false →
    s.lane.drawWait = [] → s.rng.a.waiting = false → s.rng.b.waiting = false → s.hq.ctlHeld = false →
    ∃ t, exec (.reseedBufferFull e) s = .next t ∧ t.rng.inst = true ∧ t.rng.full = false ∧ t.rng.requests = 0 ∧
      t.rng.seed = bvBytes (Config.drbgSeed (fit (entropyBytes s.rng.mode) e) (fit 16 (e.drop (entropyBytes s.rng.mode))) (persString s))) ∧
  (∀ (s : State), s.rng.inst = true → s.rng.bank ≠ .failed → s.rng.full = false →
    Completes .drbgReseedLimit s [.rng, .hq, .out] fun t => t.rng = { s.rng with limit := true }) ∧
  (∀ (s : State), s.rng.inst = true → s.rng.bank = .ready → s.rng.full = true → s.lane.drawWait = [] → s.rng.a.waiting = false → s.rng.b.waiting = false →
    s.hq.ctlHeld = false → ∃ t, exec .drbgReseedLimit s = .next t ∧ t.rng.limit = false ∧ t.rng.full = false ∧ t.rng.reseeds = s.rng.reseeds + 1 ∧
      t.rng.seed = bvBytes (Config.drbgReseed s.rng.seed s.rng.entropy)) ∧
  (∀ (a b c d : Bool) (t : List Bool), (conditioned 0 (a :: b :: t)).1 = (a ^^ b) :: (conditioned 0 t).1 ∧
    (conditioned 1 (a :: b :: c :: d :: t)).1 = (a ^^ b ^^ c ^^ d) :: (conditioned 1 t).1) ∧
  (∀ (s : State) (raw : List Bool), let x := conditioned s.rng.mode (s.rng.raw ++ raw)
    s.rng.bank = .ready → s.pow.mainUp = true → (healthRun s.rng.mode s.rng.health x.1).2 = none →
    exec (.noiseHealthFail raw) s = .next (s.onRng fun r => { r with health := (healthRun s.rng.mode s.rng.health x.1).1, raw := x.2 })) ∧
  (∀ (s : State) (bits : List Bool) (m : Nat), s.rng.bank = .ready → s.pow.mainUp = true →
    (healthRun s.rng.mode s.rng.health (conditioned s.rng.mode (s.rng.raw ++ bits)).1).2.isSome = true → nextSource s s.rng.source = some m →
    Completes (.noiseHealthFail bits) s [.rng, .unit, .hq, .out] fun t => t.rng.bank = .switching ∧ t.rng.source = m ∧ t.rng.full = false) ∧
  (∀ (s : State) (bits : List Bool), s.rng.bank = .ready → s.pow.mainUp = true →
    (healthRun s.rng.mode s.rng.health (conditioned s.rng.mode (s.rng.raw ++ bits)).1).2.isSome = true → nextSource s s.rng.source = none →
    Completes (.noiseHealthFail bits) s [.rng, .unit, .hq, .out] fun t => t.rng.bank = .failed ∧ t.rng.full = false) ∧
  (∀ (mode : BitVec 2) (b : Bool), (healthRun mode {} (List.replicate (repCutoff mode - 1) b)).2 = none ∧
    (healthRun mode {} (List.replicate (repCutoff mode) b)).2 = some (true, false)) ∧
  (∀ (s : State) (n : Nat) (bits : List Bool), s.rng.testing = some n → startupTest s.rng.mode bits = some none →
    Completes (.noiseStartupTestDone n bits) s [.rng, .unit] fun t => t.rng.testing = none ∧ t.rng.testResult = 1 ∧ t.rng.bank = s.rng.bank) ∧
  (∀ (s : State) (n : Nat) (bits : List Bool), s.rng.testing ≠ some n → s.rng.bank = .starting ∨ s.rng.bank = .switching → s.rng.source = n →
    s.pow.mainUp = true → startupTest s.rng.mode bits = some none →
    Completes (.noiseStartupTestDone n bits) s [.rng, .unit] fun t => t.rng = { s.rng with bank := .ready, raw := [], health := {} })

/-- With the window free, each command that reaches it marks it busy. A query on a serial this node decides fixes its answer, one that fails
its checks ends with their status; a void that passes its checks is applied or waits; a roll to the next epoch by a node that holds its
own authority alone starts; a checkpoint takes the next number and starts. A command that waits for nothing more ends with done and
LED_EVENT. Rests on R318, R320, R322, R324, R341, R342, R487, R489. -/
def Obligations.LedgerWindowCommandsAct : Prop :=
  (∀ (s : State) (c : CoreId), Reaches s c 0x8C00 true → ledTaken s = false →
    exec (.ledQuery c) s = .next (match checkQuery s (ledSerial s 0) with
      | some e => ledFail (ledStart s) e.1
      | none => startQuery (ledStart s) (ledSerial s 0) true)) ∧
  (∀ (s : State) (c : CoreId), Reaches s c 0x8C00 true → ledTaken s = false →
    exec (.ledVoid c) s = .next (match startVoid (ledStart s) (ledSerial s 0) (ledSerial s 1) true with
      | .error e => ledFail (ledStart s) e.1
      | .ok t => t)) ∧
  (∀ (s : State) (c : CoreId), let e := (tget 0 s.led.ledArgs 0).toNat
    Reaches s c 0x8C00 true → ledTaken s = false → e = (s.led.epoch.toNat + 1) % 16 → s.fab.twinAuth = false → s.fab.ownAuth = true →
    exec (.ledRoll c) s
      = .next (startRoll (setWait (ledStart s) { kind := .roll, home := nodeAddr s, epoch := BitVec.ofNat 4 e, viaLed := true }) (BitVec.ofNat 4 e))) ∧
  (∀ (s : State) (c : CoreId), Reaches s c 0x8C00 true → ledTaken s = false → s.led.ckptRun = none → s.led.replayed = true →
    Completes (.ledCheckpoint c) s [.led, .drives, .tele, .fab, .out] fun t =>
      t.led.ledBusy = true ∧ t.led.ckptDue = false ∧ ∃ k, t.led.ckptRun = some k ∧ k.k = s.led.ckptLast.k + 1 ∧
        k.p = s.led.blockSeq + (if s.led.openGroup = [] then 0 else 1) + (if s.led.openAuth = [] then 0 else 1)) ∧
  (∀ (s : State), s.led.ledBusy = true → s.hq.ctlWait.kind = .none → s.led.ledCkpt = false →
    exec .ledCommandEnd s = .next (irqMain (s.onLed fun l => { l with ledBusy := false, ledDone := true }) 13))

/-- A self-test of a lane in TESTING starts, and its end records pass or failure with the syndrome and posts TEST_PASSED or FAILED. A purge
empties the lane's key cache. An idle ACTIVE lane is gated, and with every lane gated the device dozes. HQ_CTL_FETCH places the fetched
entry's 128 bytes at HQ_CTL_ADDR; HQ_CTL_COMPLETE writes the words at HQ_COMP_ADDR as the completion in flight. A DMA of up to 8,192 bytes
moves them and then ends done. Pausing pauses an open plane; HQ_BIND sets a ring's lane mask. Rests on R144, R145, R147, R149, R190, R477,
R487, R498, R803. -/
def Obligations.LaneAndHostQueueWindowsAct : Prop :=
  (∀ (s : State) (c : CoreId) (l : Nat), l < 16 → Reaches s c (laneBase l + 2) true → unitSt s l = .testing →
    exec (.laneSelftest c l) s = .next (onLaneSt s l fun x => { x with testing := true, result := 0 })) ∧
  (∀ (s : State) (l : Nat) (y : BitVec 32), l < 16 → (tget {} s.lane.lanes l).testing = true →
    exec (.laneSelftestDone l true y) s = .next (observe (onLaneSt s l fun x => { x with testing := false, result := 1 }) l .active 0 0x11) ∧
    exec (.laneSelftestDone l false y) s
      = .next (observe (onLaneSt s l fun x => { x with testing := false, result := 2, fault := y }) l .failed 0 0x01)) ∧
  (∀ (s : State) (c : CoreId) (l : Nat), l < 16 → Reaches s c (laneBase l + 4) true →
    exec (.lanePurge c l) s = .next (onLaneSt s l fun x => { x with cache := [] })) ∧
  (∀ (s : State) (l : Nat), l < 16 → unitActive s l = true → s.pow.mainUp = true → s.pow.state = .doze → laneBusy s l = 0 →
    exec (.laneClockGate l) s = .next (onLaneSt s l fun x => { x with gated := true })) ∧
  (∀ (s : State) (l : Nat), l < 16 → unitActive s l = true → s.pow.mainUp = true → s.pow.state = .active → laneBusy s l = 0 →
    allGated (onLaneSt s l fun x => { x with gated := true }) = true →
    Completes (.laneClockGate l) s [.lane, .pow, .unit] fun t => t.pow.state = .doze ∧ (tget {} t.lane.lanes l).gated = true) ∧
  (∀ (s : State) (c : CoreId) (b : Bytes), Reaches s c 0x9802 true → canFetch s 0 = true → s.hq.ctlFetched = none → s.key.fuse ≠ 3 →
    Completes (.hqCtlFetch c b) s [.hq, .core] fun t =>
      (∃ e, t.hq.ctlFetched = some e ∧ e.bytes = fit 128 b) ∧
      t.core = (writeStr (hookInit s s.unit.active) c s.hq.ctlAddr.toNat (fit 128 b)).core) ∧
  (∀ (s : State) (c : CoreId) (e : CtlEntry) (b : Bytes), Reaches s c 0x9804 true → s.hq.ctlFetched = some e →
    readStr s c s.hq.compAddr.toNat 32 = some b → s.hq.ctlWait.viaLed = false →
    ∃ t u, exec (.hqCtlComplete c) s = .next t ∧ t = hookAfter (complete u 0 e.dropped e.fetched
        { tag := BitVec.ofNat 16 (leAt b 0 2), head := leAt b 2 2, status := statusOf (leAt b 5 1), verdict := BitVec.ofNat 8 (leAt b 6 1)
          info := BitVec.ofNat 8 (leAt b 7 1), serial := BitVec.ofNat 64 (leAt b 8 8), detail := BitVec.ofNat 16 (leAt b 16 2)
          decider := BitVec.ofNat 16 (leAt b 18 2), length := BitVec.ofNat 32 (leAt b 24 4) } []) (leAt e.bytes 2 1) (statusOf (leAt b 5 1)) ∧
      u = s.onHq fun h => { h with ctlFetched := none, ctlHeld := false, ctlWait := {} }) ∧
  (∀ (s : State) (c : CoreId) (b : Bytes), Reaches s c 0x9809 true → s.hq.dmaBusy = false → s.hq.dmaLen.toNat ≤ 8192 →
    Completes (.hqDmaHostToLocal c b) s [.hq, .core] fun t =>
      t.hq.dmaBusy = true ∧ t.hq.dmaError = false ∧ t.core = (writeStr s c s.hq.dmaLocal.toNat (fit s.hq.dmaLen.toNat b)).core) ∧
  (∀ (s : State) (c : CoreId) (b : Bytes), Reaches s c 0x9809 true → s.hq.dmaBusy = false → s.hq.dmaLen.toNat ≤ 8192 →
    readStr s c s.hq.dmaLocal.toNat s.hq.dmaLen.toNat = some b →
    Completes (.hqDmaLocalToHost c) s [.hq, .out] fun t =>
      t.hq.dmaBusy = true ∧ t.hq.dmaError = false ∧ t.out.writes = s.out.writes ++ [{ addr := s.hq.dmaHost.toNat, bytes := b }]) ∧
  (∀ (s : State), s.hq.dmaBusy = true → s.hq.dmaError = false →
    exec (.hqDmaDone true) s = .next (s.onHq fun h => { h with dmaBusy := false, dmaDone := true, dmaError := false })) ∧
  (∀ (s : State) (c : CoreId), Reaches s c 0x9810 true → planeOpen s = true →
    exec (.hqPlanePause c) s = .next (cause (s.onHq fun h => { h with paused := true }) 2)) ∧
  (∀ (s : State) (c : CoreId) (v : BitVec 32), Reaches s c 0x9811 true → (v.extractLsb' 0 5).toNat ≠ 0 →
    exec (.hqBind c v) s = .next (onSq s (v.extractLsb' 0 5).toNat fun r => { r with
      lanes := if v.extractLsb' 16 16 = 0 then 0xFFFF else v.extractLsb' 16 16 }))

/-- HBM_PUBLISH remembers every request in an event-reading stage, and the publish ends, with the directory entry written and source 16
raised, once none of them is still where it stood; the publishes of DEFINE_EVENT and CLOSE_EVENT end likewise, in order: their changes are made, and the
request that waits for the last completes DONE. The fabric window's commands, with none running, start: a hand-back that passes its
checks, the withdrawal, a key request in a life cycle that allows it, a roll query to a member twin; a command that waits for no answer
ends with done. An attach of a drive not in use begins its re-silver; a retirement drops it from service. Rests on R335, R336, R341, R397,
R402, R412, R487, R488, R490, R587. -/
def Obligations.PublishingFabricAndDriveWindowsAct : Prop :=
  (∀ (s : State) (c : CoreId), Reaches s c 0xB403 true → s.hbm.pubBusy = false →
    exec (.hbmPublish c) s = .next (s.onHbm fun h => { h with
      pubBusy := true, pubDone := false, pubWait := eventReaders s, pubRun := some (h.pubEvent.toNat, h.pubPtr.toNat) })) ∧
  (∀ (s : State) (p : Publish), s.hbm.pubRun = none → s.hbm.publishing = [p] → (∀ x ∈ p.waits, x ∉ eventReaders s) → s.hq.ctlHeld = true →
    s.hq.ctlFor = .publish → exec .hbmPublishEnd s = .next (endCtl (applyPublish (s.onHbm fun h => { h with publishing := [] }) p) .done)) ∧
  (∀ (s : State) (p : Publish) (x : Nat × Nat × Nat), s.hbm.pubRun = none → s.hbm.publishing.head? = some p → x ∈ p.waits → x ∈ eventReaders s →
    exec .hbmPublishEnd s = .next s) ∧
  (∀ (s : State) (i p : Nat), s.hbm.pubRun = some (i, p) → s.hbm.publishing = [] → (∀ x ∈ s.hbm.pubWait, x ∉ eventReaders s) →
    exec .hbmPublishEnd s = .next (irqMain (s.onHbm fun h => { h with
      pubBusy := false, pubDone := true, pubWait := [], pubRun := none, dir := tput 0 h.dir i (if p = 0xFFFFFFFF then 0 else p + 1) }) 16)) ∧
  (∀ (s : State) (c : CoreId), Reaches s c 0x9400 true → fabTaken s = false →
    exec (.fabCmdHandBack c) s = .next (match checkHandBack s (s.fab.arg0.toNat % 4096) s.fab.arg1.toNat with
      | some e => fabCode (fabStart s) e.1
      | none => startHandBack (fabStart s) (s.fab.arg0.toNat % 4096) true)) ∧
  (∀ (s : State) (c : CoreId), Reaches s c 0x9400 true → fabTaken s = false →
    exec (.fabCmdWithdraw c) s = .next (withdraw (fabStart s))) ∧
  (∀ (s : State) (c : CoreId), Reaches s c 0x9400 true → fabTaken s = false → hasTwin s = true → s.fab.keyReq = none →
    lifecycle s = 2 ∨ lifecycle s = 3 ∨ lifecycle s = 4 →
    exec (.fabCmdKeyRequest c) s = .next (askKey (fabStart s) (s.fab.arg0.toNat % 1024) 0)) ∧
  (∀ (s : State) (c : CoreId), Reaches s c 0x9400 true → fabTaken s = false → hasTwin s = true → s.fab.twinMember = true →
    exec (.fabCmdRollQuery c) s = .next (sendTo ((fabStart s).onFab fun b => { b with rollAsk := true }) (twinAddr s)
      (member s .rollQuery (nodeAddr s) (viewOf s (nodeAddr s)).term ((s.led.epoch.toNat + 1) % 16)))) ∧
  (∀ (s : State), s.fab.busy = true → s.hq.ctlWait.kind ≠ .handBack → s.fab.rollAsk = false → s.fab.keyReq = none →
    exec .fabCommandEnd s = .next (irqMain (s.onFab fun b => { b with busy := false, done := true }) 14)) ∧
  (∀ (s : State) (c : CoreId) (d : Nat), c ≠ .g → d < 2 → Reaches s c 0xB000 true → (tget {} s.drives d).serving = false → (tget {} s.drives d).resilver = 0 →
    exec (.nvmeAttachResilver c d) s = .next (onDrive s d fun x => { x with resilver := 1 })) ∧
  (∀ (s : State) (c : CoreId) (d : Nat), c ≠ .g → d < 2 → Reaches s c 0xB000 true →
    exec (.nvmeRetire c d) s = .next (dropDrive s d true))

/-- MBX_POST_NEXT takes the head post off the queue and processes it. A post by a core about itself is queued with source 3 and device time
[31:0]. MBX_APPLY is carried out while no apply runs. The doorbells ring DB_TABLE (with DEV_CAUSE.table) and DB_ALERT. A write to
MBX_IRQ_PENDING clears the bits written with 1. A timer that is reached raises source 21. A send hands 1 to 16 words to the other end and
awaits its acknowledgement; an acknowledgement frees the words and shows at the sender. TIME_NOW_LO answers [31:0] and latches [63:32]; a
result read while its command runs answers INT 0 and sets the early-read error. Rests on R29, R484, R490, R493, R495, R496, R497, R499,
R503, R505. -/
def Obligations.MeetingPointAndMailAct : Prop :=
  (∀ (s : State) (c : CoreId) (p : Post) (rest : List Post), Reaches s c 0x9C03 true → s.unit.posts = p :: rest →
    exec (.mbxPostNext c) s
      = .next (processPost (hookPost (s.onUnit fun m => { m with posts := rest, overflow := m.overflow && !rest.isEmpty }) p) p)) ∧
  (∀ (s : State) (c : CoreId) (w : BitVec 32), Reaches s c 0x9C04 true → s.unit.posts.length < 256 →
    Completes (.mbxPostSelf c w) s [.unit] fun t => t.unit.posts = s.unit.posts ++
      [{ unit := (w.extractLsb' 0 8).toNat, st := w.extractLsb' 8 3, source := 3, reason := w.extractLsb' 16 8, time := BitVec.ofNat 32 s.time.mUs }]) ∧
  (∀ (s : State) (c : CoreId) (w : BitVec 32), Reaches s c 0x9C10 true → applyBusy s = false → exec (.mbxApply c w) s = .next (mbxApply s w)) ∧
  (∀ (s : State) (c : CoreId), Reaches s c 0x9C18 true →
    exec (.mbxDoorbellTable c) s = .next (cause (s.onUnit fun m => { m with bells := m.bells ++ [.table] }) 1)) ∧
  (∀ (s : State) (c : CoreId), Reaches s c 0x9C18 true → Completes (.mbxDoorbellAlert c) s [.unit, .mgt] fun t =>
    t.unit.bells = s.unit.bells ++ [.alert] ∧ t.mgt.alert = setBit s.mgt.alert 0 true) ∧
  (∀ (s : State) (c : CoreId) (m now : BitVec 32), Reaches s c 0x9C21 false → twf 0 s.unit.irqPend = true →
    Completes (.mbxIrqPendingClear c m now) s [.unit] fun t =>
      tget 0 t.unit.irqPend (coreIdx c) = (tget 0 s.unit.irqPend (coreIdx c) &&& ~~~m ||| now) ∧
      ∀ d, d ≠ coreIdx c → tget 0 t.unit.irqPend d = tget 0 s.unit.irqPend d) ∧
  (∀ (s : State) (c : CoreId), coreLive s c = true → timerReached s c = true → exec (.timerMatch c) s = .next (irq (hookPeriodic s c) c 21)) ∧
  (∀ (s : State) (n : Nat), Reaches s .a 0x9C50 false → s.unit.mailA.unacked = false → 1 ≤ n → n ≤ 16 →
    Completes (.mbxPeerSend .a n) s [.unit] fun t =>
      t.unit.mailA.unacked = true ∧ t.unit.mailB.inLen = n ∧ t.unit.mailB.in_ = s.unit.mailA.out.filter fun p => decide (p.1 < n)) ∧
  (∀ (s : State), Reaches s .b 0x9C70 false → 0 < s.unit.mailB.inLen →
    Completes (.mbxPeerAck .b) s [.unit] fun t => t.unit.mailB.inLen = 0 ∧ t.unit.mailA.unacked = false ∧ t.unit.mailA.ackPend = true) ∧
  (∀ (s : State) (n : Nat), Reaches s .g 0x9C90 true → s.pow.linkUp = true → s.unit.mailG.unacked = false → 1 ≤ n → n ≤ 16 →
    Completes (.mbxGSend .g n) s [.unit] fun t =>
      t.unit.mailG.unacked = true ∧ t.unit.mailM.inLen = n ∧ t.unit.mailM.in_ = s.unit.mailG.out.filter fun p => decide (p.1 < n)) ∧
  (∀ (s : State) (c : CoreId), c ≠ .g → Reaches s c 0x9CB0 true → s.pow.linkUp = true → 0 < s.unit.mailM.inLen →
    Completes (.mbxGAck c) s [.unit] fun t => t.unit.mailM.inLen = 0 ∧ t.unit.mailG.unacked = false ∧ t.unit.mailG.ackPend = true) ∧
  (∀ (s : State), Reaches s .a 0xA000 false → Completes (.timeNowLowRead .a) s [.time, .core] fun t =>
    t.core.busData = intW (BitVec.ofNat 32 s.time.mUs) ∧ t.time = { s.time with latchA := BitVec.ofNat 32 (s.time.mUs / 2 ^ 32) }) ∧
  (∀ (s : State) (c : CoreId), Reaches s c 0x8009 false → s.key.cmdBusy = true → Completes (.resultEarlyRead c .key) s [.key, .core] fun t =>
    t.core.busData = intW 0 ∧ t.key = { s.key with cmdEarly := true })

/-- With no command running and the key engine taking work: OPEN of a key the core may use enters its handle in the core's table and answers
it; CLOSE takes the named handle out; IMPORT and DERIVE by the active core end with the first failing check or store the key and give its
handle; RETIRE of a key outside the enrolment slots retires it. A command that stores a key while the DRBG cannot serve waits for it, and is carried out at
its end, or ends RANDOM_NOT_READY at the timeout. The end of a command, its records committed, writes the output string,
shows status, handle and result, and raises KEY_DONE. Rests on R477, R484, R485, R486, R551, R552, R553, R555, R558, R560, R562, R564. -/
def Obligations.KeyWindowHandlesAndStores : Prop :=
  (∀ (s : State) (c : CoreId) (x : Slot), KeyFree s c → c ≠ .g → resolve s (.core c) { slot := regSlot s, gen := regGen s } allKinds = .ok x →
    handleFull s c = false →
    Completes (.keyCmdOpen c) s [.key] fun t => t.key.cmdBusy = true ∧
      handlesOf t c = handlesOf s c ++ [{ slot := regSlot s, gen := (slotOf s (regSlot s)).gen, kind := (slotOf s (regSlot s)).kind }] ∧
      t.key.cmdRun = some { core := c, handle := some (handleOf (regSlot s) (slotOf s (regSlot s)).gen (slotOf s (regSlot s)).kind) } ∧
      t.key.slots = s.key.slots) ∧
  (∀ (s : State) (c : CoreId), let mine := fun (h : Handle) => h.slot == handleSlot s.key.handleIn && h.gen == handleGen s.key.handleIn
    KeyFree s c → c ≠ .g → s.key.handleIn.tag = tHandle → (handlesOf s c).any mine = true →
    Completes (.keyCmdClose c) s [.key] fun t => t.key.cmdRun = some { core := c } ∧ handlesOf t c = (takeFirst mine (handlesOf s c)).2 ∧
      t.key.slots = s.key.slots) ∧
  (∀ (s : State) (c : CoreId) (b : Bytes), KeyFree s c → s.unit.active = c → keyInput s c = .ok b →
    exec (.keyCmdImport c) s = .next (match checkImport s (.core c) (bodyRegs s b) with
      | .error e => keyFail s c e.1
      | .ok k => if handleFull s c then keyFail s c .keyDenied else if rngServes s = false then keyHold s c 0x03
        else giveHandle (storeNew s k 2) c k.slot (nextGen (slotOf s k.slot)) k.kind)) ∧
  (∀ (s : State) (c : CoreId) (b : Bytes) (p : KeyRef) (x : Slot), KeyFree s c → s.unit.active = c → keyInput s c = .ok b →
    useHandle s c s.key.handleIn2 [kKdf] = .ok (p, x) →
    exec (.keyCmdDerive c) s = .next (match checkDerive s (.core c) (patch (bodyRegs s b) 8 (keyBytes (some p))) with
      | .error e => keyFail s c e.1
      | .ok k => if handleFull s c then keyFail s c .keyDenied else if rngServes s = false then keyHold s c 0x04
        else giveHandle (storeNew s k 3) c k.slot (nextGen (slotOf s k.slot)) k.kind)) ∧
  (∀ (s : State) (c : CoreId) (k : KeyRef) (x : Slot), KeyFree s c → s.unit.active = c → useHandle s c s.key.handleIn allKinds = .ok (k, x) →
    enrolWord k.slot = none →
    exec (.keyCmdRetire c) s = .next (keyRun (retireSlot s k.slot) { core := c })) ∧
  (∀ (s : State) (c : CoreId) (v : Nat), s.key.cmdHeld = some (c, v) → (rngServes s = false → exec .keyCommandEnd s = .next s) ∧
    (rngServes s = true → exec .keyCommandEnd s = .next (keyEnd (keyCmd (s.onKey fun k => { k with cmdBusy := false, cmdHeld := none }) c v))) ∧
    ((rngGet s c).waiting = false → exec (.drbgRequestTimeout c) s = .next (s.onKey fun k => { k with
      cmdHeld := none, cmdRun := some { core := c, code := .randomNotReady } }))) ∧
  (∀ (s : State) (r : KeyRun), s.key.cmdRun = some r → s.key.cmdHeld = none → keyAppends s = false →
    Completes .keyCommandEnd s [.key, .core, .unit] fun t =>
      t.key.cmdBusy = false ∧ t.key.cmdDone = true ∧ t.key.cmdCode = r.code ∧ t.key.handleOut = r.handle.getD s.key.handleOut ∧
      t.key.result = r.result.getD s.key.result ∧ t.core = (writeStr s r.core s.key.outAddr.toNat r.out).core ∧ t.unit = (irqMain s 10).unit)

/-- With no command running and the key engine taking work: VERIFY of a string whose last 64 bytes are the signature prepares 1 or 0 as the
signature check of the key's kind says; MAC prepares CMAC or HMAC-SHA-384 of the input under the handle's key; TRANSPORT_WRAP of a key
that may be carried prepares a blob under the transport key with the next 12 random bytes as IV; TRANSPORT_UNWRAP stores the key a blob
carries, or ends BAD_FORMAT or KEY_DENIED; ATTEST prepares the attestation of the 32-byte challenge under the secret in slot 3. The
primitives are the outside standards' (log entry 1). Rests on R477, R486, R582, R583, R585, R586, R587, R616. -/
def Obligations.KeyWindowComputes : Prop :=
  (∀ (s : State) (c : CoreId) (b : Bytes) (k : KeyRef) (x : Slot), KeyFree s c → keyInput s c = .ok b →
    useHandle s c s.key.handleIn [kEdPub, kP256Pub] = .ok (k, x) → 64 ≤ b.length →
    exec (.keyCmdVerify c) s = .next (keyRun s { core := c, result := some (
      if (if x.kind = kEdPub then Config.ed25519Verify x.material (b.take (b.length - 64)) (b.drop (b.length - 64))
          else Config.p256Verify x.material (b.take (b.length - 64)) (b.drop (b.length - 64))) then 1 else 0) })) ∧
  (∀ (s : State) (c : CoreId) (b : Bytes) (k : KeyRef) (x : Slot), KeyFree s c → keyInput s c = .ok b →
    useHandle s c s.key.handleIn [kAesMac, kHmac] = .ok (k, x) →
    exec (.keyCmdMac c) s = .next (keyOut s c (if x.kind = kAesMac then cmac x.material b else bvBytes (Config.hmac384 x.material b)))) ∧
  (∀ (s : State) (c : CoreId) (k j : KeyRef) (x y : Slot), KeyFree s c → s.unit.active = c → useHandle s c s.key.handleIn allKinds = .ok (k, x) →
    useHandle s c s.key.handleIn2 [kTransport] = .ok (j, y) → carriable s k x = true → rngServes s = true →
    exec (.keyCmdTransportWrap c) s = .next (keyOut (drew s 12) c (makeBlob y.material x k.slot 0 (nodeAddr s) (randBytes s 12)))) ∧
  (∀ (s : State) (c : CoreId) (b : Bytes) (j : KeyRef) (y : Slot), KeyFree s c → s.unit.active = c → keyInput s c = .ok b →
    useHandle s c s.key.handleIn2 [kTransport] = .ok (j, y) →
    exec (.keyCmdTransportUnwrap c) s = .next (match openBlob y.material b (regSlot s) 0 (twinAddr s) with
      | some (k, g) =>
        if deliverable s k.slot g = false then keyFail s c .badFormat
        else if handleFull s c = true then keyFail s c .keyDenied
        else if rngServes s = false then keyHold s c 0x09
        else giveHandle (storeSlot s k.slot g k.kind 4 k.parent k.attrs k.material) c k.slot g k.kind
      | none => keyFail s c .badFormat)) ∧
  (∀ (s : State) (c : CoreId) (ch : Bytes) (x : Slot), KeyFree s c → unitTakes s 0x39 = true → readStr s c s.key.inAddr.toNat 32 = some ch →
    resolve s (.core c) { slot := 3, gen := (slotOf s 3).gen } [kAttest] = .ok x →
    exec (.keyCmdAttest c) s
      = .next (keyOut s c (attestResponse x.material (attestMessage s (identityBlock s) ch s.dig.meas s.unit.version s.unit.tbl))))

/-- A request from the twin for a key that may be carried is answered DELIVER with a blob under the pair key, any other REFUSE; a delivery
that matches the transfer asked for waits while its slot is being changed; else it is opened and stored where it may be, its RECEIPT following
its commit, and otherwise counts as a failed transfer; a refusal ends the transfer asked for KEY_DENIED; a receipt ends the transfer delivered; a timeout drops the transfer
delivered, or tries again or ends the one asked for. A KEY_TRANSPORT frame from any other node is counted and discarded. Rests on R410,
R411, R412, R585, R586, R587, R590. -/
def Obligations.KeysAreCarriedBetweenTwins : Prop :=
  (∀ (s : State) (slot : Nat) (x : BitVec 32) (key : Bytes), let n := slot % 1024
    hasTwin s = true → pairKey s = some key → slotState s n = .loaded → (slotOf s n).retiring = false → s.key.unwrapped = true →
    carriable s { slot := n, gen := (slotOf s n).gen } (slotOf s n) = true → rngServes s = true →
    exec (.keyTransportRequestRx (twinAddr s) slot x) s = .next (sendTo ((drew s 12).onFab fun b => { b with keySent := some (n, x.toNat) }) (twinAddr s)
      (.keyTransport 1 n x (makeBlob key (slotOf s n) n x (nodeAddr s) (randBytes s 12))))) ∧
  (∀ (s : State) (slot : Nat) (x : BitVec 32), hasTwin s = true → pairKey s = none ∨ slotState s (slot % 1024) ≠ .loaded ∨ rngServes s = false →
    exec (.keyTransportRequestRx (twinAddr s) slot x) s = .next (sendTo s (twinAddr s) (.keyTransport 2 (slot % 1024) x []))) ∧
  (∀ (s : State) (n tries : Nat) (x : BitVec 32) (blob key : Bytes), n < 1024 → hasTwin s = true → s.fab.keyReq = some (n, x.toNat, tries) → pairKey s = some key →
    exec (.keyTransportDeliverRx (twinAddr s) n x blob) s = .next (if slotBusy s n then
        s.onFab fun b => { b with keyDelivery := some { src := twinAddr s, slot := n, xfer := x, blob := blob } }
      else match openBlob key blob n x (twinAddr s) with
      | some (k, g) =>
        if deliverable s n g = true ∧ rngServes s = true then
          (if appendsNow s = true then keyReceipt (storeSlot s n g k.kind 4 k.parent k.attrs k.material) n
           else storeSlot s n g k.kind 4 k.parent k.attrs k.material)
        else keyAskFail s
      | none => keyAskFail s)) ∧
  (∀ (s : State) (n tries : Nat) (x : BitVec 32), n < 1024 → hasTwin s = true → s.fab.keyReq = some (n, x.toNat, tries) → s.fab.twinRoute = false →
    exec (.keyTransportRefuseRx (twinAddr s) n x) s = .next (s.onFab fun b => { b with keyReq := none, code := .keyDenied })) ∧
  (∀ (s : State) (n : Nat) (x : BitVec 32), n < 1024 → hasTwin s = true → s.fab.keySent = some (n, x.toNat) →
    exec (.keyTransportReceiptRx (twinAddr s) n x) s = .next (s.onFab fun b => { b with keySent := none })) ∧
  (∀ (s : State), s.fab.keySent ≠ none → exec .keyTransportTimeout s = .next (s.onFab fun b => { b with keySent := none })) ∧
  (∀ (s : State) (n x tries : Nat), s.fab.keySent = none → keyAppends s = false → s.fab.keyReq = some (n, x, tries) → s.fab.twinRoute = true → tries < 3 →
    exec .keyTransportTimeout s = .next (askKey s n (tries + 1))) ∧
  (∀ (s : State) (src slot : Nat) (x : BitVec 32) (blob : Bytes), hasTwin s = false ∨ src ≠ twinAddr s →
    let t := s.onFab fun b => { b with discarded := b.discarded + 1 }
    exec (.keyTransportRequestRx src slot x) s = .next t ∧ exec (.keyTransportDeliverRx src slot x blob) s = .next t ∧
    exec (.keyTransportRefuseRx src slot x) s = .next t ∧ exec (.keyTransportReceiptRx src slot x) s = .next t)

/-- With the store ready and no command running: an APPEND the rules allow puts its record into the append queue, as the next part of the
core's open transaction when it has one in that partition; READ runs, and its end gives header and payload (of a key slot only the header,
KEY_DENIED) or the length all ones; BEGIN_TX opens a transaction of parts + 1 parts with its INTENT; ABORT_TX rolls it back; HOT_WRITE of
the writer's own slots sets each to its word; HOT_READ gives each slot, from 384 up zero. Rests on R652, R657, R658, R662, R664, R665,
R666, R667, R668, R679. -/
def Obligations.RecordWindowCommandsAct : Prop :=
  (∀ (s : State) (c : CoreId) (b : Bytes), RecFree s c → s.store.len.toNat ≤ 4000 → s.store.part ≠ 0 → typeIn s.store.part s.store.typ = true →
    readStr s c s.store.addr.toNat s.store.len.toNat = some b → mayAppend c s.store.part s.store.typ = true → veilClear s.store.typ b = true →
    openTxn s c s.store.part = none →
    exec (.recAppend c) s
      = .next (recQueue (recBusy s c 1) c { part := s.store.part, typ := s.store.typ, id := s.store.id.toNat, payload := b })) ∧
  (∀ (s : State) (c : CoreId) (b : Bytes) (x : Txn), RecFree s c → s.store.len.toNat ≤ 4000 → s.store.part ≠ 0 → typeIn s.store.part s.store.typ = true →
    readStr s c s.store.addr.toNat s.store.len.toNat = some b → mayAppend c s.store.part s.store.typ = true → veilClear s.store.typ b = true →
    openTxn s c s.store.part = some x →
    exec (.recAppend c) s = .next (recQueue
      ((recBusy s c 1).onStore fun y => { y with txns := tput none y.txns (coreIdx c) (some { x with queued := x.queued + 1 }) }) c
      { part := s.store.part, typ := s.store.typ, id := s.store.id.toNat, payload := b, txn := x.txn, idx := x.queued })) ∧
  (∀ (s : State) (c : CoreId), RecFree s c → s.store.part ≠ 0 → typeIn s.store.part s.store.typ = true →
    exec (.recRead c) s = .next (recBusy s c 2)) ∧
  (∀ (s : State), s.store.busy = true → s.store.cmd = 2 → latest s s.store.part s.store.typ s.store.id.toNat = none →
    exec .recReadDone s = .next (recEnd (s.onStore fun y => { y with len := 0xFFFFFFFF }) .done)) ∧
  (∀ (s : State) (r : Record), s.store.busy = true → s.store.cmd = 2 → latest s s.store.part s.store.typ s.store.id.toNat = some r →
    let u := s.onStore fun y => { y with len := BitVec.ofNat 32 r.payload.length }
    let h := writeStr u s.store.core s.store.addr.toNat (recHeader r)
    exec .recReadDone s = .next (if idSpace r.typ = 0x0101 then recEnd h .keyDenied
      else recEnd (writeStr h s.store.core (s.store.addr.toNat + 4) r.payload) .done)) ∧
  (∀ (s : State) (c : CoreId) (parts : BitVec 4), RecFree s c → s.store.part ≠ 0 → parts ≠ 0 → tget none s.store.txns (coreIdx c) = none →
    (c = .g → s.store.part = 2) → (c ≠ .g → s.store.part ≠ 2) →
    exec (.recBeginTx c parts) s = .next (recQueue ((recBusy s c 3).onStore fun y => { y with
        txns := tput none y.txns (coreIdx c) (some { part := s.store.part, txn := s.store.nextTxn, n := parts.toNat + 1 })
        nextTxn := if s.store.nextTxn = 255 then 1 else s.store.nextTxn + 1 }) c
      { part := s.store.part, typ := 0x0001, id := s.store.nextTxn, txn := s.store.nextTxn
        payload := leBytes 1 (parts.toNat + 1) ++ leBytes 1 (coreIdx c) ++ zeros 2 })) ∧
  (∀ (s : State) (c : CoreId), RecFree s c → (tget none s.store.txns (coreIdx c)).isSome = true →
    exec (.recAbortTx c) s = .next (recEnd (rollBack (recBusy s c 4) (coreIdx c)) .done)) ∧
  (∀ (s : State) (c : CoreId) (b : Bytes), let a := s.store.id.toNat; let n := s.store.len.toNat
    RecFree s c → hotRange s = none → s.store.saving = false → (∀ i, i < n → hotOwner (a + i) = if c = .g then 2 else 1) →
    readStr s c s.store.addr.toNat (8 * n) = some b → twf 0 s.store.hot = true →
    Completes (.recHotWrite c) s [.store, .unit] fun t => t.store.code = .done ∧ t.store.busy = false ∧ t.store.done = true ∧
      (∀ i, i < n → hotGet t (a + i) = BitVec.ofNat 64 (leAt b (8 * i) 8)) ∧
      ∀ m, m < a ∨ a + n ≤ m → hotGet t m = hotGet s m) ∧
  (∀ (s : State) (c : CoreId), RecFree s c → hotRange s = none →
    exec (.recHotRead c) s = .next (recEnd (writeStr (recBusy s c 6) c s.store.addr.toNat
      ((List.range s.store.len.toNat).flatMap fun i =>
        leBytes 8 (if s.store.id.toNat + i < 384 then (hotGet s (s.store.id.toNat + i)).toNat else 0))) .done))

/-- A group and its check word read back with nothing to correct; a page program changes bits from 1 to 0 only, and a fifth one between erases is not
made. Recovery makes the store ready with the power-up count one above the last recorded. HOLDCAP at 4.5 V lets the head of the queue begin. An
append that verifies is committed and what waits for it goes on; the first failed verify leaves a dead copy and tries again, the second
reports the store and ends the append. An erase empties its sector and counts it; a sector of the partitions that is due for refresh is
released. A voucher of 96 bytes is checked and taken, and the command ends with TIME_ANCHOR; with the main die up and the link up, the
mirror takes time, uncertainty and the anchored state. Rests on R648, R650, R654, R657, R660, R661, R673, R675, R677, R692, R695, R696. -/
def Obligations.AppendsSectorsAndTimeAct : Prop :=
  (∀ g : Bytes, groupErrors g (checkWord g) = some []) ∧
  (∀ (s : State) (n : Nat) (b : Bytes), twf blankPage s.store.nor = true → (norPage s n).length = 256 → b.length = 256 →
    (4 ≤ tget 0 s.store.progs n → progPage s n b = s) ∧
    (tget 0 s.store.progs n < 4 → (∀ i, i < 256 → (norPage (progPage s n b) n).getD i 0 = (norPage s n).getD i 0 &&& b.getD i 0) ∧
      (∀ m, m ≠ n → norPage (progPage s n b) m = norPage s m))) ∧
  (∀ (s : State) (f : RecoveryFind), s.pow.standby = true → s.pow.vstby = true → s.pow.pwrfail = false → s.store.ready = false →
    ∃ t, exec (.recordStoreRecoveryDone f) s = .next t ∧ t.store.ready = true ∧ t.store.hotKept = true) ∧
  (∀ (s : State), s.pow.standby = true → s.pow.vstby = true →
    exec .appendPreconditionsMet s = .next (mainStart (ctlGo (beginHead (s.onStore fun r => { r with holdcapOk := true }))))) ∧
  (∀ (s u : State) (a : Append) (rest : List Append), s.store.queue = a :: rest → s.pow.standby = true → a.begun = true → a.stopped = false →
    commitRec (s.onStore fun r => { r with queue := rest }) a.src a.record = some u →
    exec (.recAppendCommit true) s = .next (ctlGo (beginHead (afterAppend u a)))) ∧
  (∀ (s u : State) (a : Append) (rest : List Append), s.store.queue = a :: rest → s.pow.standby = true → a.begun = true → a.stopped = false →
    writeDead s a.record = some u →
    exec (.recAppendCommit false) s = .next (if a.tries = 0 then u.onStore fun r => { r with queue := { a with tries := 1 } :: rest }
      else ctlGo (beginHead (failAppend (observe (u.onStore fun r => { r with queue := rest }) 0x50 .failed 2 0x01) a)))) ∧
  (∀ (s : State) (n : Nat), s.pow.standby = true → (sectorOf s n).erasing = true → Completes (.sectorEraseDone n) s [.store, .mgt] fun t =>
    (sectorOf t n).erased = true ∧ (sectorOf t n).erasing = false ∧ (sectorOf t n).eraseCount = (sectorOf s n).eraseCount + 1 ∧
    t.store.recs = s.store.recs.filter (fun r => r.sector ≠ n) ∧ ∀ m, m ≠ n → sectorOf t m = sectorOf s m) ∧
  (∀ (s : State) (n : Nat), inParts n = true → s.store.ready = true → (sectorOf s n).erased = false → (sectorOf s n).erasing = false →
    315576000000000 < s.time.us - (sectorOf s n).erasedAt ∨ (∃ r ∈ s.store.recs, r.sector = n ∧ 2 ≤ r.worst) →
    exec (.sectorRefresh n) s = .next (releaseSector s n)) ∧
  (∀ (s : State) (c : CoreId) (b : Bytes), Reaches s c 0xA006 true → s.time.busy = false → s.time.vLen = 96 → readStr s c s.time.vAddr.toNat 96 = some b →
    exec (.timeVoucherSubmit c) s = .next (match checkVoucher s c false b with
      | some e => s.onTime fun t => { t with busy := true, done := false, code := e.1 }
      | none => (acceptVoucher s b).onTime fun t => { t with busy := true, done := false, code := .done })) ∧
  (∀ (s : State), s.time.busy = true → exec .timeCommandEnd s = .next (irqAll (s.onTime fun t => { t with busy := false, done := true }) 17)) ∧
  (∀ (s : State), s.pow.mainUp = true → s.pow.linkUp = true → Completes .timeMirrorUpdate s [.time, .pow] fun t =>
    t.time = { s.time with mUs := s.time.us, mUnc := uncAt s.time s.time.us, mAnch := s.time.anchored })

/-- An alarm of a sensor that watches sets its active bit and its last-sensor field. At level 0 no response begins; at level 1 or above a
response is in force no lower than that level, with the sensor among its raisers and management cause TAMPER set. In VAULT (no standby
domain) an alarm below level 3 is kept in the always-on latch. A loop whose output turns and whose input follows raises nothing, and one
sampled wrong alarms as its sensor. An EXTEST or the like alarms as sensor 0x17. The 16th bad link frame of a millisecond alarms as sensor
0x16. A sensor that does not watch changes nothing. Rests on R699, R700, R702, R704, R705, R706, R716, R718, R722, R838. -/
def Obligations.TamperAlarmsRespond : Prop :=
  (∀ (s : State) (n : Nat) (v : BitVec 32), n < 28 → sensorLive s n = true → s.pow.standby = true → sensorLevel s n = 0 →
    Completes (.tamperAlarm n v) s [.tmp, .store, .unit, .mgt] fun t =>
      t.tmp.alarming.getLsbD n = true ∧ t.tmp.sensor = BitVec.ofNat 8 n ∧ t.tmp.inForce = s.tmp.inForce ∧ t.tmp.level = s.tmp.level) ∧
  (∀ (s : State) (n : Nat) (v : BitVec 32), n < 28 → sensorLive s n = true → s.pow.standby = true → 1 ≤ sensorLevel s n → sensorLevel s n ≤ 2 →
    levelNow s = 0 → s.pow.mainUp = false → s.pow.state = .keep →
    ∃ t, exec (.tamperAlarm n v) s = .next t ∧ t.tmp.inForce = true ∧ t.tmp.level.toNat = sensorLevel s n ∧
      t.tmp.raisers.getLsbD n = true ∧ t.tmp.alarming.getLsbD n = true ∧ t.mgt.alert.getLsbD 1 = true ∧ (sensorLevel s n = 2 → t.key.unwrapped = false)) ∧
  (∀ (s : State) (n : Nat) (v : BitVec 32), n < 28 → sensorLive s n = true → s.pow.standby = false → sensorLevel s n < 3 →
    (∀ p ∈ s.tmp.latch, p.1 ≠ n) → s.tmp.latch.length < 8 →
    Completes (.tamperAlarm n v) s [.tmp] fun t => t.tmp.latch = s.tmp.latch ++ [(n, 1)] ∧ t.tmp.alarming.getLsbD n = true) ∧
  (∀ (s : State) (n : Nat) (v : BitVec 32), sensorLive s n = false → exec (.tamperAlarm n v) s = .next s) ∧
  (∀ (s : State) (n : Nat) (b : Bool), n < 4 → s.par.loops.getLsbD n = true → s.tmp.loopIn.getLsbD n ≠ b → s.tmp.loopOut.getLsbD n ≠ b →
    Completes (.tamperLoopTick n b b) s [.tmp] fun t =>
      t.tmp.loopOut.getLsbD n = b ∧ t.tmp.loopIn.getLsbD n = b ∧ t.tmp.alarming = s.tmp.alarming) ∧
  (∀ (s : State) (n : Nat) (b : Bool), n < 4 → s.par.loops.getLsbD n = true →
    ∃ t, exec (.tamperLoopTick n b (!b)) s = .next t ∧ t.tmp.loopIn.getLsbD n = (!b) ∧ t.tmp.alarming.getLsbD (0x18 + n) = true) ∧
  (∀ (s : State) (ir : BitVec 8), s.pow.standby = true → exec (.jtagUpdateIr ir false) s = .next (s.onPow fun p => { p with jtagIr := ir })) ∧
  (∀ (s : State) (ir : BitVec 8), s.pow.standby = true →
    ∃ t, exec (.jtagUpdateIr ir true) s = .next t ∧ t.tmp.alarming.getLsbD 0x17 = true) ∧
  (∀ (s : State) (b : Bytes) (g : BitVec 128), s.pow.linkUp = true → s.pow.linkBadMs < 15 → authentic s b g = false →
    exec (.gatehouseLinkFrameRx b g) s = .next (s.onPow fun p => { p with linkBad := p.linkBad + 1, linkBadMs := p.linkBadMs + 1 })) ∧
  (∀ (s : State) (b : Bytes) (g : BitVec 128), authentic s b g = true → exec (.gatehouseLinkFrameRx b g) s = .next s) ∧
  (∀ (s : State) (b : Bytes) (g : BitVec 128), s.pow.linkUp = true → s.pow.linkBadMs = 15 → authentic s b g = false →
    ∃ t, exec (.gatehouseLinkFrameRx b g) s = .next t ∧ t.tmp.alarming.getLsbD 0x16 = true ∧ t.tmp.sensor = 0x16)

/-- The end of a flush withdraws the node, and every link is DOWN. With every condition absent, a level-1 response in operation waits for
HQ_PLANE with its cleared bit set, and one on a main die that is off ends. After 100 ms a level-1 response withdraws the node. HQ_PLANE
open ends a cleared level-1 response and lets an open plane go on, opens the plane once every boot step has ended on an operational
device, and ends a pause; while a response stands uncleared it is ignored. Rests on R705, R706, R710, R711, R712, R715, R793. -/
def Obligations.TamperResponsesEnd : Prop :=
  (∀ (s : State), s.tmp.flushing = true → twf {} s.fab.ports = true →
    ∃ t, exec .tamperFlushDone s = .next t ∧ t.tmp.flushing = false ∧ t.tmp.withdrawn = true ∧ ∀ p, linkUp t p = false) ∧
  (∀ (s : State), s.tmp.inForce = true → s.tmp.level = 1 → s.pow.mainUp = true → 6 ≤ s.pow.bootStep →
    exec .tamperClear s = .next (s.onTmp fun t => { t with alarming := 0, raisers := 0, cleared := true })) ∧
  (∀ (s : State), s.tmp.inForce = true → s.tmp.bootHeld = false → s.pow.mainUp = false → s.tmp.level ≠ 3 →
    exec .tamperClear s = .next (s.onTmp fun t => { t with
      alarming := 0, raisers := 0, level := 0, inForce := false, cleared := false, bootHeld := false, restarting := false, withdrawn := false })) ∧
  (∀ (s : State), s.tmp.inForce = true → s.tmp.level = 1 → s.tmp.cleared = false → s.pow.mainUp = true → 6 ≤ s.pow.bootStep → s.fab.withdrawn = false →
    exec .tamperWithdrawTimer s = .next (withdraw (s.onTmp fun t => { t with withdrawn := true }))) ∧
  (∀ (s : State) (c : CoreId), Reaches s c 0x9810 true → respInForce s = true → s.tmp.cleared = false → exec (.hqPlaneOpen c) s = .next s) ∧
  (∀ (s : State) (c : CoreId), Reaches s c 0x9810 true → respInForce s = true → s.tmp.cleared = true → s.tmp.level = 1 → s.tmp.withdrawn = false →
    s.hq.open_ = true → s.pow.pwrfail = false →
    exec (.hqPlaneOpen c) s = .next (resumePlane (s.onTmp fun t => { t with
      level := 0, inForce := false, cleared := false, restarting := false, withdrawn := false }))) ∧
  (∀ (s : State) (c : CoreId), Reaches s c 0x9810 true → respInForce s = false → s.hq.open_ = false → stepsDone s = true → operational s = true →
    s.pow.bootStep = 11 →
    Completes (.hqPlaneOpen c) s [.hq, .led, .pow, .out] fun t =>
      t.hq.open_ = true ∧ t.hq.paused = false ∧ t.pow.bootStep = 12 ∧ t.pow.readyPin = true ∧ t.led.exits = [] ∧ t.led.openedAt = s.time.mUs) ∧
  (∀ (s : State) (c : CoreId), Reaches s c 0x9810 true → respInForce s = false → s.hq.open_ = true → s.hq.paused = true → s.hq.pausedPwrfail = false →
    s.pow.pwrfail = false →
    Completes (.hqPlaneOpen c) s [.hq, .led, .out] fun t => t.hq.paused = false ∧ t.hq.open_ = true ∧ t.led.stopApply = false)

/-- GIVE by the active core with its peer running moves the role to the peer and rings DB_TABLE; TAKE by the standby after a GIVE does the same, and one
after the peer has halted or is held in reset moves it, applies the recorded unit states and completes the entry in flight INTERNAL_FAULT; a TAKE by the active core is refused and
changes nothing else. A PWR_WDOG write is remembered, and the 10 ms end forgives a core that wrote it and resets any other and holds it in
reset. A peer reset resets the other main-die core with the bank to load from. A reset core keeps its program RAM and start kind;
registers, data RAM and handles are gone. The loader writes the next program word until ID_LOCK is set. Rests on R417, R418, R490, R491,
R492, R501, R510, R515, R516, R517, R518, R554. -/
def Obligations.ControlRolesAndCoreResets : Prop :=
  (∀ (s : State) (c : CoreId), Reaches s c 0xAC00 false → c ≠ .g → s.unit.active = c → coreUp s (peerOf c) = true →
    Completes (.pwrRoleGive c) s [.unit, .dig, .hq, .out] fun t => t.unit.active = peerOf c ∧ t.unit.gave = false ∧ t.unit.bells = s.unit.bells ++ [.table]) ∧
  (∀ (s : State) (c : CoreId), Reaches s c 0xAC00 false → c ≠ .g → s.unit.active ≠ c → s.unit.gave = true →
    Completes (.pwrRoleTake c) s [.unit, .dig, .hq, .out] fun t => t.unit.active = c ∧ t.unit.gave = false ∧ t.unit.bells = s.unit.bells ++ [.table]) ∧
  (∀ (s : State) (c : CoreId), Reaches s c 0xAC00 false → c ≠ .g → s.unit.active ≠ c → s.unit.gave = false →
    (coreGet s (peerOf c)).halted = true ∨ (coreGet s (peerOf c)).inReset = true →
    exec (.pwrRoleTake c) s = .next (endCtl (applyRecords (moveRole (roleOk s c) c)) .internalFault)) ∧
  (∀ (s : State), Reaches s .a 0xAC00 false → s.unit.active = .a →
    exec (.pwrRoleTake .a) s = .next (s.onUnit fun m => { m with roleRefA := true })) ∧
  (∀ (s : State) (c : CoreId), Reaches s c 0xAC01 false → exec (.pwrWdog c) s = .next (coreUpd s c fun k => { k with wdog := true })) ∧
  (∀ (s : State) (c : CoreId), coreLive s c = true → (coreGet s c).inRam = true → (coreGet s c).wdog = true →
    exec (.watchdogExpire c) s = .next (coreUpd s c fun k => { k with wdog := false })) ∧
  (∀ (s : State) (c : CoreId), coreLive s c = true → (coreGet s c).inRam = true → (coreGet s c).wdog = false →
    exec (.watchdogExpire c) s
      = .next (coreStopped (coreUpd (coreReset s c) c fun k => { k with inReset := true, startKind := 2 }) c)) ∧
  (∀ (s : State) (c : CoreId) (v : BitVec 32), Reaches s c 0xAC02 true → c ≠ .g → v.getLsbD 0 = true → v.getLsbD 1 = false →
    exec (.pwrPeerReset c v) s = .next (coreUpd (coreReset s (peerOf c)) (peerOf c) fun k => { k with
      startKind := if (coreGet s (peerOf c)).inReset = true then 2 else 0 })) ∧
  (∀ (s : State) (c : CoreId), (c = .g → s.pow.standby = true) → (c ≠ .g → s.pow.mainUp = true) →
    Completes (.coreReset c) s [.dig, .rng, .key, .store, .core, .unit] fun t =>
      coreGet t c = { prog := (coreGet s c).prog, badProg := (coreGet s c).badProg, startKind := (coreGet s c).startKind, ownerFw := (coreGet s c).ownerFw } ∧ handlesOf t c = [] ∧
      (∀ d, d ≠ c → coreGet t d = coreGet s d) ∧ t.key.slots = s.key.slots ∧ t.unit.tbl = s.unit.tbl) ∧
  (∀ (s : State) (c : CoreId) (w : BitVec 14), Reaches s c 0xB806 false → (coreGet s c).idLock = false → (coreGet s c).loadAddr.toNat < progEnd c →
    exec (.idLoad c w) s = .next (coreUpd s c fun k => { k with
      prog := tput 0 k.prog k.loadAddr.toNat (w ^^^ 0x079F), loadAddr := k.loadAddr + 1 })) ∧
  (∀ (s : State) (c : CoreId) (w : BitVec 14), Reaches s c 0xB806 false → (coreGet s c).idLock = true → exec (.idLoad c w) s = .next s)

/-- A fall of MAIN_PGOOD while the rails are on resets the main die and takes MAIN_PWR_EN low until the wait ends, when it is driven high
again. SYS_RESET resets both. After either, the rings, lanes, ledger, fabric view and unwrapped keys of the main die are at their reset
values. PERST rising marks the PCIe link trained, falling resets the function. PWRFAIL_N or a VSTBY warning begins the hot-set save, holds
appends and raises PWR_EVENT; the pause closes the open groups; deassertion resumes appends, and the reopen ends that pause. VSTBY
entering its window starts the standby domain. Rests on R155, R682, R703, R793, R799, R800, R801, R811, R833. -/
def Obligations.ResetsAndSupplyWarningsAct : Prop :=
  (∀ (s : State), s.pow.pwrEn = true → s.pow.pgood = true → ∃ t, exec .mainPgoodFall s = .next t ∧ MainDown t ∧
    t.pow.pgood = false ∧ t.pow.pwrEn = false ∧ t.pow.pgoodWait = true ∧ t.pow.standby = s.pow.standby) ∧
  (∀ (s : State), s.pow.pgoodWait = true → s.pow.pgood = false → s.pow.standby = true → s.store.ready = true →
    exec .mainPgoodLowTimeout s = .next (s.onPow fun p => { p with pgoodWait := false, pwrEn := true })) ∧
  (∀ (s : State), s.pow.standby = true → ∃ t, exec .sysReset s = .next t ∧ MainDown t ∧ t.store.ready = false ∧ t.store.queue = [] ∧
    t.pow.pwrEn = false ∧ t.store.hot = s.store.hot ∧ t.core.g = { prog := s.core.g.prog, badProg := s.core.g.badProg, startKind := s.core.g.startKind, ownerFw := s.core.g.ownerFw }) ∧
  (∀ (s : State), s.pow.mainUp = true → s.pow.state ≠ .keep →
    exec (.pciePerst true) s = .next (s.onHq fun h => { h with linkUp := true })) ∧
  (∀ (s : State), s.pow.mainUp = true → Completes (.pciePerst false) s [.hq, .lane, .unit] fun t =>
    t.hq.linkUp = false ∧ t.hq.flr = true ∧ (∀ p ∈ t.hq.sqs, p.2.st = .idle) ∧ ∀ p ∈ t.lane.reqs, p.2.dropped = true) ∧
  (∀ (s : State), s.pow.standby = true → s.pow.pwrfail = false → s.store.ready = true → s.store.saving = false →
    Completes .pwrfailAssert s [.pow, .tmp, .store, .unit] fun t =>
      t.pow.pwrfail = true ∧ t.store.saving = true ∧ t.store.held = true ∧ t.store.frozen = t.store.hot.filter (fun p => p.1 < 384)) ∧
  (∀ (s : State), s.pow.standby = true → s.pow.vstby = true → s.store.ready = true → s.store.saving = false →
    Completes .vstbyWarning s [.pow, .store, .unit] fun t =>
      t.pow.vstby = false ∧ t.store.saving = true ∧ t.store.held = true ∧ t.store.holdcapOk = false) ∧
  (∀ (s : State), s.pow.pwrfail = true → planeOpen s = true → s.led.openGroup = [] → s.led.openAuth = [] →
    Completes .pwrfailPause s [.hq, .led, .out] fun t => t.hq.paused = true ∧ t.hq.pausedPwrfail = true ∧ t.led.stopApply = true) ∧
  (∀ (s : State), s.pow.pwrfail = false → s.pow.vstby = true → s.hq.paused = true → s.hq.pausedPwrfail = true → s.tmp.inForce = false →
    Completes .pwrfailReopen s [.hq, .led, .out] fun t => t.hq.paused = false ∧ t.hq.pausedPwrfail = false ∧ t.led.stopApply = false) ∧
  (∀ (s : State), s.pow.standby = true → s.pow.pwrfail = true → s.pow.vstby = true → s.store.saving = false → s.hq.ctlHeld = false →
    Completes .pwrfailDeassert s [.pow, .store] fun t => t.pow.pwrfail = false ∧ t.store.held = false) ∧
  (∀ (s : State), s.pow.vstby = false → s.pow.standby = false → exec .vstbyEnterWindow s = .next (s.onPow fun p => { p with
    vstby := true, standby := true, state := .active, pwrEn := false, pgood := false, pgoodWait := false, mainRuns := 0 }))

/-- With VSTBY lost the standby domain stops: the main die is at reset, the hot set and the Gatehouse copies are gone, the key store's records
stay. VAULT is entered. On return of VSTBY after VAULT on VBAT, device time goes on by the elapsed time, with 31 µs more uncertainty.
Total power loss takes the voile, unanchors time and restarts it, and leaves VAULT with no supply. VBAT low and VBAT back set management
cause VBAT. A HOLDCAP measurement is kept. An output whose domain lacks its supply is high-impedance, so every output of the main domain with the
main die off, and every one of the standby domain with that domain down; in its domain, SMB_ALERT_N is low while MGT_ALERT is not zero and
GPIO_n follows its mode. Rests on R533, R645, R683, R685, R688, R689, R690, R697, R718, R730, R812, R820. -/
def Obligations.StandbyStopsAndPowerLossAct : Prop :=
  (∀ (s : State), s.pow.standby = true → s.pow.vstby = false → ∃ t, exec .standbyDomainStop s = .next t ∧ MainDown t ∧
    t.pow.standby = false ∧ t.pow.pwrEn = false ∧ t.store.hot = [] ∧ t.store.hotKept = false ∧ t.unit.gate = [] ∧ t.key.holder = [] ∧ t.dig.gateMeas = []) ∧
  (∀ (s : State), s.pow.vstby = false → s.pow.standby = false → exec .vaultEnter s = .next (s.onPow fun p => { p with state := .vault })) ∧
  (∀ (s : State), s.pow.vstby = false → s.pow.standby = true → ∃ t, exec .vaultEnter s = .next t ∧ MainDown t ∧ t.pow.state = .vault ∧ t.pow.standby = false) ∧
  (∀ (s : State) (d : Nat), s.pow.state = .vault → s.pow.vbat = true → s.pow.vstby = false →
    Completes (.vstbyReturn d) s [.time, .store] fun t => t.time.us = s.time.us + d ∧ t.time.extra = s.time.extra + 31 ∧
      t.time.anchored = s.time.anchored ∧ t.store.vbatUs = s.store.vbatUs + d) ∧
  (∀ (s : State), ∃ t, exec .totalPowerLoss s = .next t ∧ voileValid t = false ∧ t.time.anchored = false ∧ t.time.us = t.time.restart ∧
    t.pow.vstby = false ∧ t.pow.vbat = false ∧ t.pow.state = .vault ∧ t.tmp.latch = [] ∧ (s.time.anchored = true → t.mgt.alert.getLsbD 9 = true)) ∧
  (∀ (s : State) (d n : Nat),
    (s.pow.mainUp = false → ∀ p ∈ [OutPin.ready, .ssdPerstN d, .ssdRefclk d], pinOut s p = .highZ) ∧
    (s.pow.standby = false → ∀ p ∈ [OutPin.faultN, .smbAlertN, .spiCsN, .spiClk, .spiResetN, .mainPwrEn, .gpio n], pinOut s p = .highZ) ∧
    (s.pow.standby = true → (pinOut s .smbAlertN = .low ↔ s.mgt.alert ≠ 0) ∧ (pinOut s .spiCsN = .high ∧ pinOut s .spiClk = .low) ∧
      (tget 0 s.pow.gpioOut n = 1 → pinOut s (.gpio n) = .low) ∧ (tget 0 s.pow.gpioOut n = 2 → pinOut s (.gpio n) = .high) ∧
      (tget 0 s.pow.gpioOut n = 0 → pinOut s (.gpio n) = .highZ))) ∧
  (∀ (s : State), exec .vbatLow s = .next (mgtAlert (s.onPow fun p => { p with vbat := false }) 3)) ∧
  (∀ (s : State), exec .vbatReturn s = .next (mgtAlert (s.onPow fun p => { p with vbat := true }) 3)) ∧
  (∀ (s : State) (n : Nat), s.pow.standby = true → 800 ≤ n → exec (.holdcapMeasured n) s = .next (s.onStore fun r => { r with capTenths := n })) ∧
  (∀ (s : State) (n : Nat), s.pow.standby = true → n < 800 → exec (.holdcapMeasured n) s
    = .next (append (s.onStore fun r => { r with capTenths := n }) .gatehouse 3 0x030C 0 (leBytes 4 n ++ zeros 4)))

/-- A NAP request that no condition refuses enters NAP with the noise bank stopped; one refused says which condition failed. A KEEP request of
a node that holds its twin's authority is refused with reason 8; any other begins the entry into KEEP, with the plane closed. A wake
request by core G or a wake event in NAP begins the wake, whose end leaves NAP. The wait for TAKEOVER ends in KEEP with the main die at
reset. Settled requests end a node-level failover with WITHDRAW. A TAKEOVER with a higher term is adopted. In KEEP a wake input rings
DB_WAKE, and DB_WAKE drives MAIN_PWR_EN high unless a tamper response is in force; in NAP it begins the wake, and in DOZE, whose end the
spec does not describe (log entry 124), it ungates the ACTIVE lanes. Rests on R38, R41, R376, R393, R398, R804, R805, R807, R809,
R810, R811, R717. -/
def Obligations.PowerStatesChange : Prop :=
  (∀ (s : State) (c : CoreId), c ≠ .g → Reaches s c 0xAC03 true → napRefusal s = none → s.rng.bank ≠ .failed →
    Completes (.pwrReqNap c) s [.pow, .rng, .unit] fun t => t.pow.state = .nap ∧ t.rng.bank = .stopped ∧ t.pow.reqRefused = false) ∧
  (∀ (s : State) (c : CoreId) (n : Nat), c ≠ .g → Reaches s c 0xAC03 true → napRefusal s = some n →
    exec (.pwrReqNap c) s = .next (s.onPow fun p => { p with reqRefused := true, reqReason := BitVec.ofNat 4 n })) ∧
  (∀ (s : State) (c : CoreId), c ≠ .g → Reaches s c 0xAC03 true → s.fab.twinAuth = true →
    exec (.pwrReqKeep c) s = .next (s.onPow fun p => { p with reqRefused := true, reqReason := 8 })) ∧
  (∀ (s : State) (c : CoreId), c ≠ .g → Reaches s c 0xAC03 true → s.fab.twinAuth = false → s.pow.keepStep = 0 → s.hq.open_ = false →
    s.led.openGroup = [] → s.led.openAuth = [] → allSettled s = false →
    exec (.pwrReqKeep c) s = .next (s.onPow fun p => { p with keepStep := 1, reqRefused := false, reqReason := 0 })) ∧
  (∀ (s : State), Reaches s .g 0xAC03 true → s.pow.state = .nap → s.pow.mainUp = true →
    exec (.pwrReqWake .g) s = .next (s.onPow fun p => { p with waking := true })) ∧
  (∀ (s : State) (w : WakeCause), s.pow.state = .nap → s.pow.mainUp = true →
    exec (.napWakeEvent w) s = .next (s.onPow fun p => { p with waking := true })) ∧
  (∀ (s : State) (l : Nat), s.pow.state = .doze → l < 16 → unitActive s l = true → twf {} s.lane.lanes = true →
    Completes (.napWakeEvent .dbWake) s [.lane, .pow, .unit] fun t => t.pow.state = .active ∧ (tget {} t.lane.lanes l).gated = false) ∧
  (∀ (s : State), s.pow.state = .nap → s.pow.waking = true → s.led.ckptDue = false → s.rng.bank = .stopped →
    Completes .napWakeDone s [.pow, .time, .rng, .unit] fun t =>
      t.pow.state = (if allGated s then .doze else .active) ∧ t.pow.waking = false ∧ t.rng.bank = .starting) ∧
  (∀ (s : State), s.pow.keepStep = 3 → ∃ t, exec .keepWithdrawWaitTimeout s = .next t ∧ MainDown t ∧ t.pow.state = .keep ∧ t.pow.pwrEn = false) ∧
  (∀ (s : State), s.unit.failover = true → allSettled s = true → s.fab.withdrawn = false → s.pow.keepStep = 0 →
    exec .failoverSettled s = .next (withdraw s)) ∧
  (∀ (s : State) (f : MFrame), s.pow.mainUp = true → f.src ≠ nodeAddr s → f.flood = true → isRepeat s .takeover f.subject f.term f.value = false →
    (viewOf s f.subject).term < f.term → f.subject ≠ nodeAddr s → s.pow.keepStep ≠ 3 →
    ∃ t, exec (.takeoverRx f) s = .next t ∧ (viewOf t f.subject).term = f.term ∧ (viewOf t f.subject).byTwin = true) ∧
  (∀ (s : State), s.pow.state = .keep → s.pow.standby = true → .wake ∈ s.unit.bells → respInForce s = false →
    Completes .keepWake s [.pow, .unit] fun t => t.pow.pwrEn = true ∧ .wake ∉ t.unit.bells) ∧
  (∀ (s : State), s.pow.state = .nap → s.pow.standby = true → s.pow.mainUp = true → .wake ∈ s.unit.bells →
    Completes .keepWake s [.pow, .unit] fun t => t.pow.waking = true ∧ .wake ∉ t.unit.bells) ∧
  (∀ (s : State) (l : Nat), s.pow.state = .doze → s.pow.standby = true → .wake ∈ s.unit.bells → l < 16 → unitActive s l = true →
    Completes .keepWake s [.lane, .pow, .unit] fun t => t.pow.state = .active) ∧
  (∀ (s : State) (n : Nat), s.pow.state = .keep → s.pow.standby = true → n < 8 → s.par.wakeGpio.getLsbD n = true →
    Completes (.gpioWakeInput n) s [.pow, .unit] fun t => t.unit.bells = s.unit.bells ++ [.wake] ∧ t.pow.gpio.getLsbD n = false)

/-- A mint in INTAKE that passes the checks goes to CLOCK with the length its outputs need, or with flags.foreign to its one wrapper read,
whose bytes are checked in order; a closed plane or missing authority completes it PAUSED. In CLOCK the issue time and the validity, the
event's or the override's, are fixed. In RULE a key that cannot be used decides the status, a key that is not cached is waited for, and
with all keys cached the random bytes are drawn; a draw the DRBG cannot serve is held in arrival order. A failed or timed out wrapper read
completes the mint INTERNAL_FAULT with DMA_READ, a draw that times out RANDOM_NOT_READY. Rests on R165, R172, R173, R174, R175, R177,
R181, R182, R184, R185, R188, R857. -/
def Obligations.MintsReachTheLedger : Prop :=
  (∀ (s : State) (l c : Nat) (r : Req), Stands s l c .intake r → r.isMint = true → planeOpen s && s.fab.ownAuth = false →
    exec (.mintIntake l c) s = .next (endMint s r .paused)) ∧
  (∀ (s : State) (l c : Nat) (r : Req) (e : EventRec) (k : ClassRec), Stands s l c .intake r → r.isMint = true → planeOpen s = true → s.fab.ownAuth = true →
    mintRsv r.entry = none → (mPq r.m = true → unitActive s 0x3A = true ∧ k.pqAllowed = true) → r.m.outAddr.toNat % 8 = 0 →
    eventOf s r.m.event.toNat = some e → classOf e r.m.cls.toNat = some k → (mNfc r.m = true → k.nfcAllowed = true ∧ r.m.tslot.toNat ≤ 1023) →
    (mForeign r.m = true → 8 ≤ r.m.foreignLen.toNat → r.m.foreignLen.toNat ≤ 1052 →
      exec (.mintIntake l c) s = .next (putReq s { r with stage := .wrapperRead, seen := some e })) ∧
    (mForeign r.m = false → lengthNeeded s r.m e k 0 ≤ r.m.outLen.toNat →
      exec (.mintIntake l c) s = .next (putReq s { r with
        stage := .clock, seen := none, m := { r.m with lenNeeded := lengthNeeded s r.m e k 0, wrapper := none } })) ∧
    (mForeign r.m = false → r.m.outLen.toNat < lengthNeeded s r.m e k 0 → exec (.mintIntake l c) s = .next (endMint s r .badLength (detSub 48)))) ∧
  (∀ (s : State) (l c : Nat) (r : Req) (b : Bytes) (e : EventRec) (k : ClassRec), Stands s l c .wrapperRead r → r.seen = some e →
    classOf e r.m.cls.toNat = some k → (mPq r.m = true → unitActive s 0x3A = true) →
    let w := fit r.m.foreignLen.toNat b
    (∀ n st, checkWrapper w r.m.foreignLen.toNat k.format = .error (n, st) → exec (.mintWrapperReadDone l c (some b)) s = .next (endMint s r st (detWrap n))) ∧
    (∀ f, checkWrapper w r.m.foreignLen.toNat k.format = .ok f → lengthNeeded s r.m e k f.payload.length ≤ r.m.outLen.toNat →
      exec (.mintWrapperReadDone l c (some b)) s
        = .next (putReq s { r with
          stage := .clock, seen := none, m := { r.m with lenNeeded := lengthNeeded s r.m e k f.payload.length, wrapper := some w } }))) ∧
  (∀ (s : State) (l c : Nat) (r : Req) (b : Option Bytes), Stands s l c .wrapperRead r → mPq r.m = true → unitActive s 0x3A = false →
    exec (.mintWrapperReadDone l c b) s = .next (endMint s r .unitAbsent)) ∧
  (∀ (s : State) (l c : Nat) (r : Req), Stands s l c .wrapperRead r →
    (mPq r.m = false ∨ unitActive s 0x3A = true → exec (.mintWrapperReadDone l c none) s = .next (endMint s r .internalFault detDmaRead)) ∧
    exec (.mintWrapperReadTimeout l c) s = .next (endMint s r .internalFault detDmaRead)) ∧
  (∀ (s : State) (l c : Nat) (r : Req) (e : EventRec), Stands s l c .clock r → r.isMint = true → eventOf s r.m.event.toNat = some e →
    let now := minuteOf s.time.mUs
    let fixed := fun (a z : Nat) => putReq s { r with stage := .rule, m := { r.m with
      issueUs := s.time.mUs, vfrom := BitVec.ofNat 32 a, vuntil := BitVec.ofNat 32 z } }
    (timeUnfit s e = true → exec (.mintClock l c) s = .next (endMint s r .timeUnanchored)) ∧
    (timeUnfit s e = false → mOverride r.m = false → now < e.windowEnd → e.windowStart < now + maxValidity e →
      exec (.mintClock l c) s = .next (fixed e.windowStart (min e.windowEnd (now + maxValidity e)))) ∧
    (timeUnfit s e = false → mOverride r.m = true → e.windowStart ≤ r.m.vfrom.toNat → r.m.vfrom.toNat < r.m.vuntil.toNat →
      r.m.vuntil.toNat ≤ e.windowEnd → r.m.vuntil.toNat ≤ now + maxValidity e → now < r.m.vuntil.toNat →
      exec (.mintClock l c) s = .next (fixed r.m.vfrom.toNat r.m.vuntil.toNat))) ∧
  (∀ (s : State) (l c : Nat) (r : Req) (e : EventRec) (k : ClassRec), Stands s l c .rule r → r.isMint = true → eventOf s r.m.event.toNat = some e →
    classOf e r.m.cls.toNat = some k → e.closed = false →
    let fresh := { r with seen := none, got := [] }
    (∀ st, firstDenied s .mint (mintNeeds r.m e k) = some st → exec (.mintRule l c) s = .next (endMint s fresh st)) ∧
    (firstDenied s .mint (mintNeeds r.m e k) = none → (∃ n ∈ mintNeeds r.m e k, inCache s r.lane n.key = false) →
      exec (.mintRule l c) s = .next (putReq s { r with stage := .ruleHold, seen := some e, got := gotKeys s fresh (mintNeeds r.m e k) })) ∧
    (firstDenied s .mint (mintNeeds r.m e k) = none → (∀ n ∈ mintNeeds r.m e k, inCache s r.lane n.key = true) →
      (randNeed r.m k = 0 → Completes (.mintRule l c) s [.lane] fun t => ∃ q, getReq t (keyOf r) = some q ∧ q.stage = .ledger ∧ q.m.rand = r.m.rand ∧
        q.m.zoneMask = k.zoneMask ∧ q.m.macKey = needMaterial s fresh (needMac e)) ∧
      (0 < randNeed r.m k → rngServes s = true → Completes (.mintRule l c) s [.lane, .rng] fun t => ∃ q, getReq t (keyOf r) = some q ∧
        q.stage = .ledger ∧ q.m.rand = randBytes s (randNeed r.m k) ∧ t.rng.drawn = s.rng.drawn + randNeed r.m k) ∧
      (0 < randNeed r.m k → rngServes s = false → Completes (.mintRule l c) s [.lane] fun t => ∃ q, getReq t (keyOf r) = some q ∧
        q.stage = .drawHold ∧ t.lane.drawWait = s.lane.drawWait ++ [keyOf r]))) ∧
  (∀ (s : State) (l c : Nat) (r : Req), Stands s l c .drawHold r → exec (.mintDrbgTimeout l c) s = .next (endMint s r .randomNotReady))

/-- While operations may be applied and the lease is open, a mint at LEDGER takes the next serial: the entry becomes LIVE and the mint waits
for its group. Otherwise it waits; a closed lease puts it behind the opening, whose timeout ends every mint waiting with
DURABILITY_TIMEOUT, or SERIALS_EXHAUSTED where the twin withholds its acknowledgement for want of pages, and leaves the same lease to be
opened next unless a higher ceiling is known. When SEAL ends, a mint with no co-signature writes its parts from the
buffer's address on, the credential first; one with it joins the ML-DSA queue, and the end of its job writes them with the co-signature
last. A failed output write completes the mint INTERNAL_FAULT with DMA_WRITE, its buffer partly written (how far is a free value, log entry 9).
Rests on R120, R167, R169, R173, R193, R195, R196, R204, R209, R213, R217, R281. -/
def Obligations.MintsAreAssignedSealedAndEmitted : Prop :=
  (∀ (s : State) (l c : Nat) (r : Req), Stands s l c .ledger r → r.isMint = true → mayApply s && s.fab.ownAuth = false →
    exec (.mintLedgerAssign l c) s = .next (putReq s { r with stage := .ledger })) ∧
  (∀ (s : State) (l c n : Nat) (r : Req), Stands s l c .ledger r → r.isMint = true → mayApply s = true → s.fab.ownAuth = true → s.led.lease = some n →
    n * 65536 ≤ s.led.next → s.led.next < (n + 1) * 65536 → s.lane.leaseWait = [] → beingRebuilt s (slotFor true s.led.next) = false →
    entry s true s.led.next = .unissued →
    Completes (.mintLedgerAssign l c) s [.lane, .led, .fab, .out, .tele] fun t => t.led.next = s.led.next + 1 ∧ rawEntry t true s.led.next = .live ∧
      ∃ q, getReq t (keyOf r) = some q ∧ q.stage = .durable ∧ q.applied = true ∧ q.hasSerial = true ∧
        q.serial = BitVec.ofNat 56 (serialOf s.led.epoch (nodeAddr s) s.led.next)) ∧
  (∀ (s : State) (l c : Nat) (r : Req), Stands s l c .ledger r → r.isMint = true → mayApply s = true → s.fab.ownAuth = true → s.led.lease = none →
    s.led.opening.isSome = true →
    Completes (.mintLedgerAssign l c) s [.lane] fun t => t.lane.leaseWait = s.lane.leaseWait ++ [keyOf r] ∧
      getReq t (keyOf r) = some { r with stage := .leaseWait }) ∧
  (∀ (s : State) (o : LeaseSt), s.led.opening = some o → ∃ t, exec .leaseOpenTimeout s = .next t ∧
    t = endLeaseWaiters (s.onLed fun l => { l with reopen := some o.n })
      (if 2 ^ 26 < pagesOf ((o.n + 1) * 65536) + pagesOf (max s.led.twinCeil s.led.twinAsked) ∧ o.acked = false ∧ mirrors s = true
        then .serialsExhausted else .durabilityTimeout) ∧ t.led.opening = none ∧
    (s.led.ceil ≤ (o.n + 1) * 65536 → s.led.ceilAtTwin ≤ (o.n + 1) * 65536 → nextLease t = o.n)) ∧
  (∀ (s : State) (l c : Nat) (r : Req), Stands s l c .seal r → mPq r.m = false → ∃ t, exec (.mintSealDone l c) s = .next t ∧
    t.out.writes = s.out.writes ++ placeParts r.m.outAddr.toNat
      ([credential r] ++ (if mForeign r.m then [foreignResult r] else []) ++ (if mNfc r.m then [nfcRecord r] else []))) ∧
  (∀ (s : State) (l c : Nat) (r : Req), Stands s l c .seal r → mPq r.m = true → unitActive s 0x3A = true →
    Completes (.mintSealDone l c) s [.lane, .tele] fun t => t.lane.pqQueue = s.lane.pqQueue ++ [(r.lane, r.ctx)] ∧
      ∃ q, getReq t (keyOf r) = some q ∧ q.stage = .mldsa ∧ q.m.credential = credential r ∧ q.m.macKey = [] ∧ q.m.signKey = []) ∧
  (∀ (s : State) (l c : Nat) (r : Req) (rest : List (Nat × Nat)), s.lane.pqQueue = (l, c) :: rest → getReq s (reqKey l c) = some r → mPq r.m = true →
    ∃ t, exec .mldsaJobDone s = .next t ∧ t.out.writes = s.out.writes ++ placeParts r.m.outAddr.toNat
      ([r.m.credential] ++ (if mForeign r.m then [r.m.foreignOut] else []) ++ (if mNfc r.m then [r.m.nfcOut] else []) ++ [cosignRecord r.m])) ∧
  (∀ (s : State) (l c : Nat) (r : Req), Stands s l c .seal r → mPq r.m = false →
    exec (.mintOutputWriteFail l c) s = .next (endMint (count s (0x4680 + 8 * r.lane) (mintBusy r.m)) r .internalFault detDmaWrite 0
      (partly { r with m := sealedMint r }))) ∧
  (∀ (s : State) (l c : Nat) (r : Req), Stands s l c .mldsa r → s.lane.pqQueue.head? = some (l, c) →
    exec (.mintOutputWriteFail l c) s = .next (endMint s r .internalFault detDmaWrite 0 (partly r)))

/-- A verdict of this node's rings that passes the shape checks and whose home decides here goes to CHECK; elsewhere it is forwarded, or
without a route HOME_UNREACHABLE. In CHECK the gate tag under a usable and cached mac_key decides between CLOCK and REFUSE_FORGED, with no
usable mac_key the signature of a format 0x01 credential; a key not cached is waited for, and a cache fill tries those stages again. CLOCK
refuses EARLY or EXPIRED outside the credential's own minutes unless the direction is EXIT. RULE refuses a closed event, an EXIT of a
SINGLE class and a zone not allowed. At LEDGER a verdict waits while nothing may be applied, behind an earlier one of its submitter for the same
serial (log entry 112), and for its page; with it at hand the state decision is applied. Rests on R188, R221, R224, R227, R230, R239, R240, R244, R245, R249, R252, R253. -/
def Obligations.VerdictsAreDecided : Prop :=
  (∀ (s : State) (l c : Nat) (r : Req), Stands s l c .intake r → r.isMint = false → r.v.fwdIn = none →
    let u := skew s r.v.scanHint
    let home := serialHome (BitVec.ofNat 56 (beAt r.v.cred 2 7)).toNat
    let q := { r with serial := BitVec.ofNat 56 (beAt r.v.cred 2 7), hasSerial := decide (9 ≤ r.v.credLen) }
    (planeOpen s = false → exec (.verdictIntake l c) s = .next (endVerdict u r .paused)) ∧
    (planeOpen s = true → (leAt r.entry 3 1).testBit 7 = false → r.v.credLen ≠ 0 → r.v.credLen ≤ 120 → beyondCred r = none → vDir r ≠ 3 →
      (credShape r.v.cred = false → exec (.verdictIntake l c) s = .next (endVerdict u q .done .refuseForged)) ∧
      (credShape r.v.cred = true → decidesFor s home = true → exec (.verdictIntake l c) s = .next (verdictDecide u q)) ∧
      (credShape r.v.cred = true → decidesFor s home = false → fwdTarget s home = none →
        exec (.verdictIntake l c) s = .next (endVerdict u q .homeUnreachable .undecided detRouteNone)))) ∧
  (∀ (s : State) (l c : Nat) (r : Req) (f : FwdId) (e : EventRec) (k : ClassRec), Stands s l c .intake r → r.isMint = false → r.v.fwdIn = some f →
    serialEpoch (BitVec.ofNat 56 (beAt r.v.cred 2 7)).toNat = s.led.epoch → eventOf s (vEvent r) = some e → classOf e (vClass r) = some k →
    vFormat r = k.format.toNat → (leAt r.v.cred 1 1).testBit 0 = k.sigAlg →
    exec (.verdictIntake l c) s = .next (putReq s { r with
      stage := .check, serial := BitVec.ofNat 56 (beAt r.v.cred 2 7), hasSerial := decide (9 ≤ r.v.cred.length)
      v := { r.v with twinAuth := serialHome (BitVec.ofNat 56 (beAt r.v.cred 2 7)).toNat != nodeAddr s, cls := BitVec.ofNat 8 (vClass r) } })) ∧
  (∀ (s : State) (l c : Nat) (r : Req) (e : EventRec) (k : ClassRec) (x : Slot), Stands s l c .check r → r.isMint = false →
    eventOf s (vEvent r) = some e → classOf e (vClass r) = some k →
    let fresh := { r with seen := none, got := [] }
    (resolveNeed s .verdict (needMac e) = .ok x → inCache s r.lane e.macKey = false →
      exec (.verdictCheck l c) s = .next (putReq s { fresh with stage := .checkHold, seen := some e })) ∧
    (resolveNeed s .verdict (needMac e) = .ok x → inCache s r.lane e.macKey = true →
      let u := count (touchKey s r.lane e.macKey) (0x4680 + 8 * r.lane) 2500
      exec (.verdictCheck l c) s
        = .next (if tagMatches (needMaterial s fresh (needMac e)) r.v.cred then putReq u { fresh with stage := .clock } else endVerdict u fresh .done .refuseForged)) ∧
    (∀ st, resolveNeed s .verdict (needMac e) = .error st → vFormat r ≠ 1 → exec (.verdictCheck l c) s = .next (endVerdict s fresh st)) ∧
    (∀ st, resolveNeed s .verdict (needMac e) = .error st → vFormat r = 1 → resolveNeed s .verdict (needSign e k) = .ok x →
      inCache s r.lane (needSign e k).key = true →
      let q := { fresh with v := { r.v with sigPath := true } }
      let u := count (touchKey s r.lane (needSign e k).key) (0x4680 + 8 * r.lane) 25000
      exec (.verdictCheck l c) s
        = .next (if sigVerifies k.sigAlg (needMaterial s q (needSign e k)) r.v.cred then putReq u { q with stage := .clock } else endVerdict u q .done .refuseForged))) ∧
  (∀ (s : State) (l slot gen : Nat), keyWaiters s l ≠ [] → fillOk s l slot gen = true →
    exec (.keyCacheFill l slot gen) s = .next ((keyWaiters s l).foldl retryKey (fillKey s l { slot := slot, gen := gen }))) ∧
  (∀ (s : State) (l c : Nat) (r : Req) (e : EventRec), Stands s l c .clock r → r.isMint = false → eventOf s (vEvent r) = some e →
    exec (.verdictClock l c) s = .next (
      if timeUnfit s e then endVerdict s r .timeUnanchored
      else if vDir r ≠ 1 ∧ s.time.mUs < beAt r.v.cred 22 4 * 60000000 then endVerdict s r .done .refuseEarly
      else if vDir r ≠ 1 ∧ beAt r.v.cred 26 4 * 60000000 ≤ s.time.mUs then endVerdict s r .done .refuseExpired
      else putReq s { r with stage := .rule, v := { r.v with t := s.time.mUs } })) ∧
  (∀ (s : State) (l c : Nat) (r : Req) (e : EventRec) (k : ClassRec), Stands s l c .rule r → r.isMint = false → eventOf s (vEvent r) = some e →
    classOf e (vClass r) = some k →
    exec (.verdictRule l c) s = .next (
      if e.closed then endVerdict s r .done .refuseEventClosed
      else if vDir r = 1 ∧ k.reentry = false then endVerdict s r .done .refuseNotExit
      else if vDir r ≠ 1 ∧ (BitVec.ofNat 64 (beAt r.v.cred 14 8) &&& k.zoneMask).getLsbD (vZone r) = false then endVerdict s r .done .refuseZone
      else putReq s { r with stage := .ledger, v := { r.v with
        zoneMask := k.zoneMask, reentry := k.reentry, hold := k.holdS * 1000000, coldRefuse := k.coldRefuse } })) ∧
  (∀ (s : State) (l c : Nat) (r : Req), Stands s l c .ledger r → r.isMint = false → serialEpoch r.serial.toNat = s.led.epoch →
    let home := serialHome r.serial.toNat
    let own := home == nodeAddr s
    let slot := slotFor own (serialLocal r.serial.toNat)
    (mayApply s = false ∨ behind s r = true → exec (.verdictLedgerApply l c) s = .next (putReq s { r with stage := .ledger })) ∧
    (mayApply s = true → decidesFor s home = true → home = nodeAddr s ∨ s.led.deciding = true → behind s r = false → beingRebuilt s slot = false →
      exec (.verdictLedgerApply l c) s = .next (
        if pageAtHand s own (serialLocal r.serial.toNat) then applyVerdict (count (onPage s slot fun p => { p with used := s.time.clk }) 0x4600) r
        else startRead (putReq s { r with stage := .pageWait }) slot)))

/-- A VERDICT_FWD repeated within its reply time is ignored. One whose home decides here takes a lane context while the plane is open, and is
answered PAUSED while it is not; one decided elsewhere is relayed once to the holder, and held when it cannot be. A held forward, or one
waiting for a context, is answered DURABILITY_TIMEOUT at its timeout. A reply that matches the waiting verdict completes it as forwarded
with the reply's status, verdict and decider; any other is counted and discarded. The origin's own timeout completes it DURABILITY_TIMEOUT
with no decider. Rests on R231, R233, R234, R235, R236, R237, R371, R378, R863. -/
def Obligations.ForwardsAndRepliesAct : Prop :=
  (∀ (s : State) (f : FwdFrame) (l c a : Nat), (f.src, f.seq.toNat, a) ∈ s.lane.fwdSeen → s.time.clk - a < 1250 → exec (.verdictFwdRx f l c) s = .next s) ∧
  (∀ (s : State) (f : FwdFrame) (l c : Nat),
    (∀ p ∈ s.lane.fwdSeen, p.1 = f.src → p.2.1 = f.seq.toNat → 1250 ≤ s.time.clk - p.2.2) →
    let u := s.onLane fun b => { b with fwdSeen := (b.fwdSeen.filter fun p => decide (s.time.clk - p.2.2 < 1250)) ++ [(f.src, f.seq.toNat, s.time.clk)] }
    let h : HeldFwd := { f := f, since := s.time.clk }
    (∀ st, f.bad = some st → exec (.verdictFwdRx f l c) s = .next (replyFwd u f st)) ∧
    (f.bad = none → decidesFor s (fwdHome f) = true → planeOpen s = true → exec (.verdictFwdRx f l c) s = .next (giveFwd u h l c)) ∧
    (f.bad = none → decidesFor s (fwdHome f) = true → planeOpen s = false → exec (.verdictFwdRx f l c) s = .next (replyFwd u f .paused)) ∧
    (f.bad = none → decidesFor s (fwdHome f) = false → f.relayed = true →
      exec (.verdictFwdRx f l c) s = .next (u.onLane fun b => { b with held := b.held ++ [h] })) ∧
    (f.bad = none → decidesFor s (fwdHome f) = false → f.relayed = false → holderOf s (fwdHome f) ≠ nodeAddr s → routeExists s (holderOf s (fwdHome f)) = true →
      exec (.verdictFwdRx f l c) s = .next (routeFrame u f.carry.dim 2
        { src := f.src, dest := holderOf s (fwdHome f), relayed := true, hops := f.carry.hops + 1, detour := f.carry.detour, vc := f.carry.vc
          body := .verdictFwd f.lane f.ctx f.gate f.cred f.seq }))) ∧
  (∀ (s : State) (h : HeldFwd) (rest : List HeldFwd), s.lane.held = h :: rest →
    exec (.heldForwardTimeout h.f.src h.f.seq) s = .next (replyFwd (s.onLane fun b => { b with held := rest }) h.f .durabilityTimeout)) ∧
  (∀ (s : State) (h : HeldFwd) (rest : List HeldFwd), s.lane.ctxWait = h :: rest →
    exec (.forwardContextTimeout h.f.src h.f.seq) s = .next (replyFwd (s.onLane fun b => { b with ctxWait := rest }) h.f .durabilityTimeout)) ∧
  (∀ (s : State) (l c : Nat) (r : Req) (st v i : Byte) (q : BitVec 32) (d w : BitVec 16) (g : BitVec 56), Stands s l c .fwdWait r → r.v.fwdIn = none →
    (r.v.fwdSeq = q → exec (.verdictReplyRx l c st v q i d w g) s = .next (endForwarded s r
      { status := statusOf st.toNat, verdict := v, info := i &&& 0x0E, detail := d, decider := w, serial := g.zeroExtend 64 })) ∧
    (r.v.fwdSeq ≠ q → exec (.verdictReplyRx l c st v q i d w g) s = .next (s.onLane fun b => { b with fwdLate := b.fwdLate + 1 })) ∧
    exec (.forwardReplyTimeout l c) s = .next (endForwarded s r { status := .durabilityTimeout, verdict := 0x3F, serial := serialField r }))

/-- A tick closes the open groups: each non-empty one becomes the next group of its home with its records. A block written on a drive counts
for it. A write error takes a serving drive out of use. A mirrored group next in sequence becomes a MIRROR block and is applied, an
earlier one is acknowledged again, a later one kept. An acknowledgement marks its groups; a resend sends the group again. A lease mirror
that keeps the page bound is recorded, its acknowledgement ends the opening, and one of a higher ceiling begins it again above (log entry 117).
A durability timeout ends what waits. A checkpoint that is due takes the next number and p after the open groups (log entry 115), held in NAP;
its writes and record follow. Void-covered LIVE and INSIDE entries of one more page become CLOSED. The
passback rebuild goes one block back. Rests on R264, R265, R281, R305, R306, R307, R308, R313, R321, R324, R327, R335. -/
def Obligations.GroupsAndMirrorsAct : Prop :=
  (∀ (s : State), Completes .groupTick s [.led, .drives, .tele, .fab, .out] fun t => t.led.openGroup = [] ∧ t.led.openAuth = [] ∧
    (s.led.openGroup ≠ [] → t.led.nextGroup = s.led.nextGroup + 1 ∧
      ∃ g ∈ t.led.groups, g.seq = s.led.nextGroup ∧ g.home = nodeAddr s ∧ g.source = 0 ∧ g.recs = s.led.openGroup) ∧
    (s.led.openAuth ≠ [] → t.led.nextAuth = s.led.nextAuth + 1 ∧
      ∃ g ∈ t.led.groups, g.seq = s.led.nextAuth ∧ g.home = twinAddr s ∧ g.source = 2 ∧ g.recs = s.led.openAuth)) ∧
  (∀ (s : State) (d : Nat) (g : Group), (s.led.groups.find? fun x => x.block == g.block) = some g → d ∈ writeDrives s → d ∉ g.onDrives →
    let u := (putBlock s d (blockOf g)).onLed fun l => { l with
      groups := l.groups.map fun x => if x.block = g.block then { x with onDrives := x.onDrives ++ [d] } else x }
    exec (.journalBlockWriteDone d g.block) s = .next (if g.source = 1 then mirrorWritten u (g.home == nodeAddr s) else settle u)) ∧
  (∀ (s : State) (d : Nat), (tget {} s.drives d).serving = true →
    exec (.driveWriteError d) s = .next (dropDrive (observe s (0x28 + d) .retired 2 0x06) d true)) ∧
  (∀ (s : State) (d : Nat), d < 2 → (tget {} s.drives d).attached = true → unitSt s (0x28 + d) ≠ .retired →
    exec (.driveLost d) s = .next (dropDrive (onDrive (observe s (0x28 + d) .failed 2 0x0C) d fun x => { x with
      attached := false, ready := false, smart := [] }) d false)) ∧
  (∀ (s : State) (e : BitVec 4) (n a : Nat) (rs : List JRec), hasTwin s = true → s.pow.mainUp = true → s.led.replayed = true → rs.length ≤ 252 →
    s.fab.offer = none → s.fab.ownAuth = true → s.led.settled = true → s.fab.copying = false →
    let g : Group := { seq := n, home := twinAddr s, source := 1, epoch := e, recs := rs }
    (n = lastMirrored s false + 1 →
      exec (.mirrorJournalRx (twinAddr s) e n a rs) s = .next (drainMirror (takeGroup s false g) false (s.led.mirWrite.length + 1))) ∧
    (n ≤ lastMirrored s false → n ≤ s.led.mirEnd →
      exec (.mirrorJournalRx (twinAddr s) e n a rs) s = .next (sendTo s (twinAddr s) (.groupAck s.led.epoch s.led.mirEnd))) ∧
    (lastMirrored s false + 1 < n → (∀ x ∈ s.led.mirWrite, x.home = twinAddr s → x.seq ≠ n) →
      exec (.mirrorJournalRx (twinAddr s) e n a rs) s = .next (s.onLed fun l => { l with mirWrite := l.mirWrite ++ [g] }))) ∧
  (∀ (s : State) (n : Nat), hasTwin s = true → s.fab.twinAuth = false → s.led.settled = true →
    exec (.groupAckRx (twinAddr s) s.led.epoch n) s = .next (trySettle (settle (((count s 0x4620).onLed fun l => { l with
      groups := l.groups.map fun g => if g.source == 0 && decide (g.seq ≤ n) then { g with acked := true } else g }).onFab fun b => { b with twinHas := n, twinKnown := true })))) ∧
  (∀ (s : State) (n : Nat) (g : Group), mirrors s = true → (s.led.groups.find? fun x => x.seq == n && x.source != 1 && !x.acked && !x.dead) = some g →
    exec (.mirrorResendTimeout n) s = .next (sendTo s (twinAddr s) (.mirrorGroup g.epoch g.seq (firstT g.recs) g.recs))) ∧
  (∀ (s : State) (n : Nat), hasTwin s = true → s.led.opening = none → pagesOf n + pagesOf s.led.ceil ≤ 2 ^ 26 →
    exec (.leaseMirrorRx (twinAddr s) s.led.epoch n) s
      = .next (enqueue (s.onLed fun l => { l with twinAsked := max l.twinAsked n }) { src := .ledger, record :=
          { part := 1, typ := 0x0105, id := twinAddr s, payload := ceilPayload s.led.epoch (max n s.led.twinCeil) } })) ∧
  (∀ (s : State) (n : Nat), hasTwin s = true → s.led.opening = none → 2 ^ 26 < pagesOf n + pagesOf s.led.ceil →
    exec (.leaseMirrorRx (twinAddr s) s.led.epoch n) s = .next (s.onLed fun l => { l with twinAsked := max l.twinAsked n })) ∧
  (∀ (s : State) (n : Nat) (o : LeaseSt), hasTwin s = true → s.led.opening = some o →
    let u := s.onLed fun l => { l with ceilAtTwin := max l.ceilAtTwin n }
    ((o.n + 1) * 65536 = n → exec (.leaseAckRx (twinAddr s) s.led.epoch n) s
      = .next (tryLease (u.onLed fun l => { l with opening := some { o with acked := true } }))) ∧
    ((o.n + 1) * 65536 < n → exec (.leaseAckRx (twinAddr s) s.led.epoch n) s
      = .next (openLease (u.onLed fun l => { l with opening := none, reopen := none }))) ∧
    (n < (o.n + 1) * 65536 → exec (.leaseAckRx (twinAddr s) s.led.epoch n) s = .next u)) ∧
  (∀ (s : State) (l c : Nat) (r : Req), l < 16 → Stands s l c .durable r ∨ Stands s l c .ledger r →
    exec (.durabilityTimeout l c) s = .next (endReq s r .durabilityTimeout)) ∧
  (∀ (s : State) (l c : Nat), 16 ≤ l → s.hq.ctlWait.kind = .void ∨ s.hq.ctlWait.kind = .query ∨ (s.hq.ctlWait.kind = .roll ∧ s.led.rollHeld.isSome = true) →
    exec (.durabilityTimeout l c) s = .next (endWait (s.onLed fun l => { l with rollHeld := none }) .durabilityTimeout)) ∧
  (∀ (s : State), s.fab.rollAsk = true → exec .rollConfirmTimeout s = .next (
    if s.hq.ctlWait.kind = .roll then endWait (s.onFab fun b => { b with rollAsk := false }) .durabilityTimeout
    else irqMain (s.onFab fun b => { b with rollAsk := false, busy := false, done := true, code := .durabilityTimeout }) 14)) ∧
  (∀ (s : State), let owing := s.led.ckptDue = true ∨ 2 ^ 20 ≤ s.led.sinceCkpt ∨ 60000000 ≤ s.time.clk - s.led.ckptAt
    (owing → s.pow.state = .nap → exec .checkpointStart s = .next (s.onLed fun l => { l with ckptDue := true })) ∧
    (¬owing → exec .checkpointStart s = .next s) ∧
    (owing → s.pow.state ≠ .nap → s.pow.mainUp = true → s.led.ckptRun = none → s.led.replayed = true →
      Completes .checkpointStart s [.led, .drives, .tele, .fab, .out] fun t => t.led.ckptDue = false ∧ t.led.sinceCkpt = 0 ∧
        t.led.openGroup = [] ∧ t.led.openAuth = [] ∧ ∃ c, t.led.ckptRun = some c ∧ c.k = s.led.ckptLast.k + 1 ∧
        c.p = s.led.blockSeq + (if s.led.openGroup = [] then 0 else 1) + (if s.led.openAuth = [] then 0 else 1) ∧ c.p = t.led.blockSeq ∧
        c.chain = t.led.chain ∧ c.voidOwn = s.led.voidOwn)) ∧
  (∀ (s : State) (c : Ckpt), s.led.ckptRun = some c → s.led.ckptWritten = false →
    (∀ g ∈ s.led.groups, g.block < c.p → if g.source = 1 ∨ g.dead = true then onServing s g = true else g.durable = true) →
    let d := { c with root := s.led.root }
    ∃ t, exec .checkpointWritesDone s = .next t ∧ t.led.ckptWritten = true ∧ t.led.ckptRun = some { d with tag := ckptTag s d }) ∧
  (∀ (s : State) (n : Nat), s.led.rewritePage = n → n < pagesOf s.led.ceil → twf .unissued s.led.own = true →
    Completes .voidRewritePage s [.led] fun t => t.led.rewritePage = n + 1 ∧ (∀ x, x / 16384 = n → rawEntry t true x = entry s true x) ∧
      (∀ x, x / 16384 ≠ n → rawEntry t true x = rawEntry s true x) ∧ ∀ x, rawEntry t false x = rawEntry s false x) ∧
  (∀ (s : State) (q : Nat), s.led.rebuildQ = some q →
    (blockHeld s q = none ∨ 64 * 2 ^ 20 ≤ s.led.exits.length → exec .passbackRebuildBlock s = .next (s.onLed fun l => { l with rebuildQ := none })) ∧
    (∀ b, blockHeld s q = some b → s.led.exits.length < 64 * 2 ^ 20 →
      exec .passbackRebuildBlock s = .next (if oldBlock s b then rebuildOld s else rebuildBlock s q b)))

/-- A page request is answered with the page when this node's copy is complete, else PAGE_ABSENT. A page asked for replaces its slot with
every later record held applied; an absent one is asked again by a copy, else left to the page-miss bound. A void block's ranges join the
index, a full one is followed by the next request. A page whose tag verifies enters the cache and what waits goes on; one that fails turns to
the other drive, then to the twin; the second read begins at its bound, and the page-miss timeout completes its request or query
LEDGER_MISS_TIMEOUT. A
drive's copy ends with its pages and journal in place; one that meets the requirements attaches to be re-silvered, one that does not is
refused; a log poll keeps its fields; a pseudo-channel rebuild ends. Rests on R287, R289, R292, R293, R295, R336, R338, R383, R400. -/
def Obligations.PagesAndDrivesInServiceAct : Prop :=
  (∀ (s : State) (subject page : Nat), hasTwin s = true → s.led.replayed = true → canSupply s subject = false →
    exec (.pageRequestRx (twinAddr s) s.led.epoch subject page) s = .next (sendTo s (twinAddr s) (.pageAbsent s.led.epoch subject page))) ∧
  (∀ (s : State) (page : Nat), hasTwin s = true → s.led.replayed = true → canSupply s (nodeAddr s) = true →
    exec (.pageRequestRx (twinAddr s) s.led.epoch (nodeAddr s) page) s = .next (sendTo s (twinAddr s)
      (.page s.led.epoch (nodeAddr s) page (s.led.nextGroup - 1) (pageEntries s true page)))) ∧
  (∀ (s : State) (page g : Nat) (es : Tbl LState), hasTwin s = true → twinAddr s ≠ nodeAddr s →
    let slot := slotFor false (page * 16384)
    s.fab.pageAsk.contains slot || (pageSt s slot).fromTwin = true →
    let u := applyRecs (setPage s false page es) false (twinAddr s) none
      ((laterRecs (setPage s false page es) (twinAddr s) g).filter fun r => stateAfter r.kind != none && r.serial / 16384 == page)
    exec (.pageRx (twinAddr s) s.led.epoch (twinAddr s) page g es) s = .next (resumePages (tryCopied (askPages
      ((onPage (cachePage u slot) slot fun p => { p with dirty := true }).onFab fun b => { b with
        pageAsk := b.pageAsk.filter (· != slot), copyEnd := some (min g (b.copyEnd.getD g)) }) 64)))) ∧
  (∀ (s : State) (page : Nat), hasTwin s = true →
    let slot := slotFor true (page * 16384)
    exec (.pageAbsentRx (twinAddr s) s.led.epoch (nodeAddr s) page) s = .next (
      if s.fab.pageAsk.contains slot then sendTo s (twinAddr s) (.pageRequest s.led.epoch (nodeAddr s) page)
      else onPage s slot fun p => { p with fromTwin := false })) ∧
  (∀ (s : State) (subject block : Nat), hasTwin s = true → canSupply s subject = true → block < 1024 →
    exec (.voidRequestRx (twinAddr s) s.led.epoch subject block) s = .next (sendTo s (twinAddr s) (.voidBlock s.led.epoch subject block
      (((voidIdx s (subject == nodeAddr s)).drop (256 * block)).take 256)))) ∧
  (∀ (s : State) (block : Nat) (rs : List (Nat × Nat)), hasTwin s = true → twinAddr s ≠ nodeAddr s → s.fab.copying = true →
    s.fab.voidAsk = 1 + 2 * block → s.fab.rejoining = false →
    let u := s.onLed fun l => { l with voidShadow := rs.foldl (fun v r => insertRange v r.1 r.2) l.voidShadow }
    exec (.voidBlockRx (twinAddr s) s.led.epoch (twinAddr s) block rs) s = .next (
      if rs.length = 256 ∧ block < 1023 then askVoid u false (block + 1) else tryCopied (u.onFab fun b => { b with voidAsk := 0 }))) ∧
  (∀ (s : State) (slot d : Nat) (es : Tbl LState), (pageSt s slot).reading = true → (pageSt s slot).second = false → (pageSt s slot).cached = false →
    (pageSt s slot).dirty = false → d ∈ servingDrives s →
    (pageTag s slot (tget 0 s.led.versions slot) es = tget 0 s.led.tags slot →
      exec (.pageReadDone slot d (some es)) s = .next (resumePages (onPage (cachePage (setPage (readEnded (countRead s d false) slot)
        (slotOwner s slot).1 (slotOwner s slot).2 es) slot) slot fun q => { q with second := false }))) ∧
    (pageTag s slot (tget 0 s.led.versions slot) es ≠ tget 0 s.led.tags slot → otherServes (countRead s d true) d = true →
      exec (.pageReadDone slot d (some es)) s = .next (execPageReadDone.secondRead (countRead s d true) slot d)) ∧
    (pageTag s slot (tget 0 s.led.versions slot) es ≠ tget 0 s.led.tags slot → otherServes (countRead s d true) d = false →
      exec (.pageReadDone slot d (some es)) s = .next (askTwin (countRead s d true) slot))) ∧
  (∀ (s : State) (slot d : Nat), (pageSt s slot).reading = false → (pageSt s slot).second = true → (pageSt s slot).cached = false → d ∈ servingDrives s →
    exec (.pageReadDone slot d none) s = .next (askTwin (countRead s d false) slot)) ∧
  (∀ (s : State) (slot : Nat), (pageSt s slot).reading = true → (pageSt s slot).second = false → 2 ≤ (servingDrives s).length →
    exec (.pageMissSecondRead slot) s = .next (onPage (nvme s (turnDrive s) (.read (pageLba slot) 1)) slot fun p => { p with second := true })) ∧
  (∀ (s : State) (l c : Nat) (r : Req), l < 16 → Stands s l c .pageWait r → exec (.pageMissTimeout l c) s = .next (endReq s r .ledgerMissTimeout)) ∧
  (∀ (s : State) (l c : Nat), 16 ≤ l → s.hq.ctlWait.kind = .query → s.hq.ctlWait.unapplied = true →
    exec (.pageMissTimeout l c) s = .next (endWait s .ledgerMissTimeout)) ∧
  (∀ (s : State) (d e : Nat) (rest : List Nat), servingDrives s = e :: rest → (tget {} s.drives d).resilver = 2 → e ≠ d →
    let x := tget {} s.drives e
    exec (.resilverCopyDone d) s = .next (irqMain (onDrive s d fun y => { y with
      ckpts := x.ckpts, metaV := x.metaV, metaT := x.metaT, pages := x.pages, resilver := 6, progress := 0xFFFF
      journal := x.journal.foldl (fun t p => if p.2.seq ≥ s.led.ckptLast.p then tput {} t p.1 p.2 else t) y.journal }) 15)) ∧
  (∀ (s : State) (d : Nat) (id : DriveId), d < 2 → s.pow.mainUp = true → (tget {} s.drives d).serving = false → (tget {} s.drives d).resilver ≤ 1 →
    (meetsDrive id = true → Completes (.driveAttach d id) s [.drives, .hq, .unit, .out] fun t => let x := tget {} t.drives d
      x.attached = true ∧ x.ready = true ∧ x.dealloc = true ∧ x.journal = [] ∧ x.pages = [] ∧ x.queue = 1024 ∧ x.ident = id ∧
        x.resilver = (if servingDrives s = [] then 0 else 2)) ∧
    (meetsDrive id = false → unitActive s (0x28 + d) = false →
      exec (.driveAttach d id) s = .next (irqMain (onDrive (nvme (onDrive s d fun x => { x with ident := id, queue := 0 }) [d] .identify) d fun x =>
        { x with attached := true, ready := false, resilver := 0 }) 15))) ∧
  (∀ (s : State) (d : Nat) (g : SmartLog), d < 2 → (tget {} s.drives d).attached = true → s.pow.mainUp = true →
    exec (.driveLogPoll d g) s = .next (onDrive (nvme s [d] .logPage) d fun x => { x with smart := tputs 0 [] 0 [g.written, g.read, g.used, g.temp] })) ∧
  (∀ (s : State) (pc : Nat), (0x10 + pc) ∈ s.hbm.rebuilding → ∃ t, exec (.pcRebuildDone pc) s = .next t ∧ (0x10 + pc) ∉ t.hbm.rebuilding ∧
    (unitSt s (0x10 + pc) ≠ .draining → t.hbm.rebuilding = s.hbm.rebuilding.filter (· != 0x10 + pc) ∧ t.unit.tbl = s.unit.tbl))

/-- A heartbeat goes to every neighbour, and marks its sender heard with its higher term adopted; a twin whose own term rose without this
node's part has excluded it, so that its shadow is made complete again, or has taken its authority back. Silence forgets a node and, for
the twin, starts the collection that is wanted. A witness in its abstain period abstains, in another term refuses, and grants once to a querier its hearing
bears out. Enough grants have the new term recorded and the decision sent, one short is kept; enough acknowledgements exclude the silent
twin or take its authority. A lapsed grant ends unless it was acknowledged; a timed out attempt is abandoned and starts again while
wanted. An EXCLUDE of a higher term is adopted, one addressed to a witness acknowledged when built on its grant. Rests on R376, R385,
R386, R388, R389, R390, R391, R393, R394, R395, R403, R865. -/
def Obligations.AuthorityMovesByGrants : Prop :=
  (∀ (s : State) (p : Port), s.pow.mainUp = true → isMember s (nodeAddr s) = true → s.fab.withdrawn = false → s.led.replayed = true →
    (∀ q, PortFree s q 336) → linkUp s p = true → 1 < extOf s (portDim p) →
    Completes .heartbeatTimer s [.fab, .out] fun t => ∃ q, linkUp s q = true ∧ neighbour s q = neighbour s p ∧
      (q, { src := nodeAddr s, dest := neighbour s p, body := heartbeat s }) ∈ t.out.frames) ∧
  (∀ (s : State) (src term g : Nat) (own tw sh op : Bool) (e : BitVec 4), s.pow.mainUp = true → (adjacent s (nodeAddr s)).contains src = true →
    (∃ t, exec (.heartbeatRx src own tw sh op e term g) s = .next t ∧ hears t src = true) ∧
    (hasTwin s = false → s.fab.offer = none → exec (.heartbeatRx src own tw sh op e term g) s
      = .next (adopt (s.onFab fun b => { b with heard := tput false b.heard src true }) src term fun v => { v with byTwin := !own, member := true })) ∧
    (hasTwin s = true → src = twinAddr s → s.fab.offer = none → s.fab.joined = true → (viewOf s src).term < term →
      let u := s.onFab fun b => { b with
        heard := tput false b.heard src true, twinEpoch := e, twinEnd := g, collT := if b.collT.any (·.forOffer) then b.collT else none, collE := none }
      let v := adopt u src term fun v => { v with byTwin := false, member := true }
      exec (.heartbeatRx src true tw sh op e term g) s = .next (if s.fab.twinAuth then handedBack v term
        else startCopy (v.onFab fun b => { b with collT := none, withdrawWait := none }) false))) ∧
  (∀ (s : State) (src : Nat), let u := s.onFab fun b => { b with heard := tput false b.heard src false }
    (hasTwin s = false ∨ src ≠ twinAddr s → exec (.heartbeatSilence src) s = .next u) ∧
    (src = twinAddr s → excludeWanted u = true → s.fab.collE = none → takeoverWanted u = false → s.fab.twinAuth = false →
      exec (.heartbeatSilence src) s = .next (startCollect u true false)) ∧
    (src = twinAddr s → excludeWanted u = false → takeoverWanted u = true → s.fab.collT = none →
      exec (.heartbeatSilence src) s = .next (startCollect u false false))) ∧
  (∀ (s : State) (src home term : Nat) (x : Bool), s.pow.mainUp = true → s.fab.joined = true → (adjacent s home).contains (nodeAddr s) = true →
    let a := witnessAnswer s src x home term
    exec (.witnessQueryRx src x home term) s
      = .next (sendTo (s.onFab fun b => { b with grants := tput none b.grants home a.2 }) src (.witnessReply x a.1 home (viewOf s home).term)) ∧
    (s.fab.abstain = true → a.1 = .abstain) ∧ (s.fab.abstain = false → term ≠ (viewOf s home).term → a.1 = .refuse) ∧
    (s.fab.abstain = false → term = (viewOf s home).term → tget none s.fab.grants home = none → hasTwin s = true →
      (if x then hears s home = true ∧ src = home else hears s home = false ∧ src = twinOf home) →
      a = (.grant, some { querier := src, exclude := x, term := term, outstanding := true }))) ∧
  (∀ (s : State) (src home need : Nat) (x : Bool) (c : Collect), collectOf s x = some c → c.home = home → c.decided = false →
    (adjacent s home).contains src = true → src ≠ twinOf home → grantsNeeded x (adjacent s home).length = some need → src ∉ c.grants →
    (c.grants.length + 1 < need → exec (.witnessReplyRx src x .grant home c.term) s = .next (setCollect s x (some { c with grants := c.grants ++ [src] }))) ∧
    (need ≤ c.grants.length + 1 → c.forOffer = false → ∃ t d, exec (.witnessReplyRx src x .grant home c.term) s = .next t ∧ collectOf t x = some d ∧
      d.decided = true ∧ d.grants = c.grants ++ [src] ∧ (home = nodeAddr s → c.term < t.fab.ownTerm)) ∧
    (c.forOffer = true → ∀ m, c.term < m → exec (.witnessReplyRx src x .refuse home m) s = .next (handedBack s m))) ∧
  (∀ (s : State) (f : MFrame) (need : Nat) (c : Collect), collectOf s (f.value % 256 == 3) = some c → f.value % 256 = 2 ∨ f.value % 256 = 3 →
    f.subject = c.home → c.decided = true → f.term = c.term + 1 → f.src ∈ c.grants → f.src ∉ c.acks →
    grantsNeeded (f.value % 256 == 3) (adjacent s c.home).length = some need → hears s (twinAddr s) = false →
    (c.acks.length + 1 < need → exec (.decisionAckRx f) s = .next (setCollect s (f.value % 256 == 3) (some { c with acks := c.acks ++ [f.src] }))) ∧
    (need ≤ c.acks.length + 1 → f.value % 256 = 3 → s.fab.ownAuth = true →
      exec (.decisionAckRx f) s = .next (trySettle (tryLease (settle (excludeTwin s (c.term + 1)))))) ∧
    (need ≤ c.acks.length + 1 → f.value % 256 = 2 → s.fab.shadowOk = true → exec (.decisionAckRx f) s = .next (afterGain (takeAuthority s (c.term + 1))))) ∧
  (∀ (s : State) (home : Nat) (x : Grant), tget none s.fab.grants home = some x → Completes (.grantLapse home) s [.fab] fun t =>
    tget none t.fab.grants home = some (if x.acked then x else { x with outstanding := false })) ∧
  (∀ (s : State), exec .collectionTimeout s = .next (s.onFab fun b => { b with collT := none, collE := none })) ∧
  (∀ (s : State), excludeWanted s = true → s.fab.collE = none → takeoverWanted s = false → s.fab.twinAuth = false →
    exec .collectionRetry s = .next (startCollect s true false)) ∧
  (∀ (s : State), s.fab.joined = true → exec .abstainPeriodEnd s = .next (s.onFab fun b => { b with abstain := false })) ∧
  (∀ (s : State) (f : MFrame), s.pow.mainUp = true → f.src ≠ nodeAddr s →
    (f.flood = false → exec (.excludeRx f) s = .next (ackDecision s .exclude f)) ∧
    (f.flood = true → isRepeat s .exclude f.subject f.term f.value = false → (viewOf s f.subject).term < f.term → f.subject ≠ twinAddr s →
      ∃ t, exec (.excludeRx f) s = .next t ∧ (viewOf t f.subject).term = f.term ∧ (viewOf t f.subject).twinMember = false ∧
        (viewOf t f.subject).byTwin = false))

/-- A JOIN makes its sender a member, a WITHDRAW ends that, SHADOW_COMPLETE marks its copy. A HANDBACK_OFFER to a home that holds every group
gives it its authority at the offered term with no lease; its HANDBACK_ACCEPT ends the holder's part; an offer timed out resumes the
holder when the home is heard at the old term, else it waits. A roll query is confirmed for the next epoch with time anchored and every
event past, else refused; confirmation starts the roll, refusal ends it, a confirmation lapses. A view request is answered home by
home with what is more than this node's own record, a view taken until its last frame, after which a home that it did not name is in the
default state; a silent neighbour is passed over. Time pulses go out on every UP link; one that differs by more than both
uncertainties is observed. The join ends with authority known or presumed. Rests on R374, R397, R400, R402, R403, R405, R406, R407, R868,
R869, R341, R391. -/
def Obligations.MembershipFramesAct : Prop :=
  (∀ (s : State) (f : MFrame), s.pow.mainUp = true → f.src ≠ nodeAddr s → isRepeat s .join f.subject f.term f.value = false → twf {} s.fab.view = true →
    ∃ t, exec (.joinRx f) s = .next t ∧ isMember t f.src = true) ∧
  (∀ (s : State) (f : MFrame), s.pow.mainUp = true → f.src ≠ nodeAddr s → isRepeat s .withdraw f.subject f.term f.value = false →
    ∃ t, exec (.withdrawRx f) s = .next t ∧ isMember t f.src = false) ∧
  (∀ (s : State) (f : MFrame), s.pow.mainUp = true → f.src ≠ nodeAddr s → isRepeat s .shadowComplete f.subject f.term f.value = false →
    twf {} s.fab.view = true → ∃ t, exec (.shadowCompleteRx f) s = .next t ∧ (viewOf t f.src).shadowOk = true ∧ isMember t f.src = true) ∧
  (∀ (s : State) (f : MFrame), s.pow.mainUp = true → hasTwin s = true → f.src = twinAddr s → f.subject = nodeAddr s →
    (viewOf s (nodeAddr s)).term < f.term → s.fab.ownAuth = false → s.fab.rejoining = false → f.value ≤ s.led.ownEnd →
    ∃ t, exec (.handbackOfferRx f) s = .next t ∧ t.fab.ownAuth = true ∧ (viewOf t (nodeAddr s)).term = f.term ∧
      (viewOf t (nodeAddr s)).byTwin = false ∧ t.led.lease = none ∧ t.led.opening = none ∧ f.value < t.led.nextGroup) ∧
  (∀ (s : State) (f : MFrame) (o : Nat × Nat × Nat), s.pow.mainUp = true → hasTwin s = true → f.src = twinAddr s → f.src ≠ nodeAddr s → f.subject = f.src →
    f.flood = false → s.fab.offer = some o → o.2.1 ≤ f.term → exec (.handbackAcceptRx f) s = .next (handedBack s f.term)) ∧
  (∀ (s : State) (o : Nat × Nat × Nat), s.fab.offer = some o → s.fab.offerWait = false →
    (hears s o.1 = true → (viewOf s o.1).term < o.2.1 → exec .handbackOfferTimeout s = .next (resumeHolder s)) ∧
    (hears s o.1 = true → o.2.1 ≤ (viewOf s o.1).term → exec .handbackOfferTimeout s = .next (s.onFab fun b => { b with offerWait := true })) ∧
    (hears s o.1 = false → s.fab.collT = none →
      exec .handbackOfferTimeout s = .next (startCollect (s.onFab fun b => { b with offerWait := true }) false true))) ∧
  (∀ (s : State) (f : MFrame), s.pow.mainUp = true → hasTwin s = true → f.src = twinAddr s → let e := f.value % 16
    (e = (s.led.epoch.toNat + 1) % 16 → s.time.mAnch = true → eventsPast s = true → exec (.rollQueryRx f) s
      = .next (let u := s.onFab fun b => { b with rollOk := some (BitVec.ofNat 4 e) }; sendTo u f.src (member u .rollConfirm f.subject f.term e))) ∧
    (e ≠ (s.led.epoch.toNat + 1) % 16 ∨ s.time.mAnch = false ∨ eventsPast s = false →
      exec (.rollQueryRx f) s = .next (sendTo s f.src (member s .rollRefuse f.subject f.term e)))) ∧
  (∀ (s : State) (f : MFrame), s.fab.rollAsk = true → hasTwin s = true → f.src = twinAddr s → let u := s.onFab fun b => { b with rollAsk := false }
    (s.hq.ctlWait.kind = .roll → f.value % 16 = s.hq.ctlWait.epoch.toNat → exec (.rollConfirmRx f) s = .next (startRoll u s.hq.ctlWait.epoch)) ∧
    (s.hq.ctlWait.kind ≠ .roll → exec (.rollConfirmRx f) s = .next (endFab u .done)) ∧
    exec (.rollRefuseRx f) s = .next (if s.hq.ctlWait.kind = .roll then endWait u .badFormat (detBlock 32) else endFab u .badFormat)) ∧
  (∀ (s : State), exec .rollConfirmLapse s = .next (s.onFab fun b => { b with rollOk := none })) ∧
  (∀ (s : State) (f : MFrame), s.pow.mainUp = true → f.src ≠ nodeAddr s →
    ((∀ p ∈ s.fab.view, p.1 ∈ s.fab.fromRecord) → exec (.viewRequestRx f) s = .next (sendTo s f.src (member s .view 0 0 65536))) ∧
    (∀ home v, s.fab.view = [(home, v)] → home ∉ s.fab.fromRecord →
      exec (.viewRequestRx f) s = .next (sendTo s f.src (member s .view home v.term (viewValue home v true)))) ∧
    ∃ t, exec (.viewRequestRx f) s = .next t ∧ t.fab.view = s.fab.view) ∧
  (∀ (s : State) (f : MFrame), s.fab.viewAsked.isSome = true → s.fab.viewGot = false → f.src ≠ nodeAddr s → f.value.testBit 16 = false →
    (viewOf s f.subject).term ≤ f.term ∨ f.subject ∈ s.fab.fromRecord → let w := s.onFab fun b => { b with
      viewNamed := b.viewNamed ++ [f.subject], fromRecord := b.fromRecord.filter (· != f.subject) }
    let u := recordTerm (onView w f.subject fun v => { v with
      term := f.term, byTwin := f.value % 4096 != f.subject, member := f.value.testBit 12 || f.subject == nodeAddr s
      twinMember := f.value.testBit 13, shadowOk := f.value.testBit 14 }) f.subject f.term
    let x := (w.fab.fromRecord.filter fun h => !w.fab.viewNamed.contains h).foldl (fun s h => onView s h fun _ => {}) u
    (f.value.testBit 15 = false → exec (.viewRx f) s = .next u) ∧
    (f.value.testBit 15 = true → s.fab.joined = false →
      exec (.viewRx f) s = .next (x.onFab fun b => { b with viewGot := true, fromRecord := [], viewNamed := [] }))) ∧
  (∀ (s : State) (p : Port), s.fab.viewAsked.isSome = true → s.fab.viewGot = false → s.fab.viewNamed = [] → nextUpPort s s.fab.viewAsked = some p →
    exec .viewRequestTimeout s = .next (askView s p)) ∧
  (∀ (s : State) (p : Port), linkUp s p = true → PortFree s p 56 → Completes .timePulseTimer s [.fab, .out] fun t =>
    (p, { src := nodeAddr s, dest := neighbour s p, body := .timePulse s.time.mUs s.time.mUnc s.time.mAnch }) ∈ t.out.frames) ∧
  (∀ (s : State) (p : Port) (a t c : Nat), linkUp s p = true → s.time.mAnch = true → let theirs := t + (portSt s p).delay / 1000
    (c + s.time.mUnc + 2 < theirs - s.time.mUs ∨ c + s.time.mUnc + 2 < s.time.mUs - theirs → exec (.timePulseRx p a t c true) s
      = .next (observe (s.onFab fun b => { b with timeOffsets := b.timeOffsets + 1 }) 0x49 .active 0 0x0A)) ∧
    (theirs - s.time.mUs ≤ c + s.time.mUnc + 2 → s.time.mUs - theirs ≤ c + s.time.mUnc + 2 → exec (.timePulseRx p a t c true) s = .next s)) ∧
  (∀ (s : State), s.pow.mainUp = true → s.led.replayed = true → s.fab.joined = false → s.fab.viewGot = true ∨ allPorts.any (linkUp s) = false →
    ∃ t, exec .pergolaJoinEnd s = .next t ∧ t.fab.joined = true ∧ t.fab.abstain = true)

/-- A usable DOWN link starts training on the start, on a detected pattern and on the retry timer: the pattern, then, with its lanes locked, ALIGN
and its HELLO with a nonce from the DRBG and the delay that the echo measured. A HELLO that fails a check leaves it DOWN with an observation,
one that passes gives the keys of both directions and is answered by KEYX. A confirmed KEYX in training brings the link UP; one that does not
confirm leaves it DOWN. A re-key sends a KEYX with a fresh nonce and the count of the switch; the other end's ends it. The ACK timer
acknowledges the last frame taken, an ACK frees the replay buffer up to its number, a NAK sends the frames from its number again as they
were, and a frame resent eight times takes the link DOWN. A bad frame is answered by NAK, the third GCM failure within one second takes the
link DOWN. DEGRADE starts a retrain, whose end resends what is kept and then what waited; timeouts and DOWN take the link DOWN. A DOWN link
holds no keys and no frames. Rests on R351, R352, R353, R354, R355, R357, R358, R359, R360, R361, R413, R414. -/
def Obligations.LinksTrainAndResend : Prop :=
  (∀ (s : State) (p : Port) (echo : Option Nat), portUsable s p = true → s.pow.mainUp = true → s.led.replayed = true → s.pow.safe = false →
    (portSt s p).link = .down →
    exec (.linkTrainStart p echo) s = .next (startTraining s p echo) ∧ exec (.trainingPatternDetect p echo) s = .next (startTraining s p echo) ∧
    exec (.linkRetryTimer p echo) s = .next (startTraining s p echo) ∧
    (∀ d, echo = some d → rngServes s = true → Completes (.linkTrainStart p echo) s [.fab, .rng, .out] fun t =>
      (portSt t p).link = .training ∧ (portSt t p).nonce = randBytes s 32 ∧ (portSt t p).delay = d ∧
        t.out.blocks = s.out.blocks ++ [(p, .training), (p, .align), (p, .hello (ownHello t p))]) ∧
    (echo = none → Completes (.linkTrainStart p echo) s [.fab, .out] fun t => (portSt t p).link = .training ∧ (portSt t p).nonce = [] ∧
      t.out.blocks = s.out.blocks ++ [(p, .training)])) ∧
  (∀ (s : State) (p : Port) (h : Hello), (portSt s p).link = .training → (portSt s p).locked = true → (portSt s p).nonce ≠ [] →
    (portSt s p).helloOk = false →
    let u := onPort s p fun l => { l with peer := h, helloOk := true }
    (helloFine s p h = false → exec (.helloRx p h) s = .next (observe (linkDown s p) (portUnit p) .active 0 0x04)) ∧
    (helloFine s p h = true → linkKeysOf u p = none → exec (.helloRx p h) s = .next u) ∧
    (∀ k, helloFine s p h = true → linkKeysOf u p = some k →
      let v := onPort u p fun l => { l with linkKeys := k, txKey := directionKey u p k true, rxKey := directionKey u p k false }
      exec (.helloRx p h) s = .next (sendBlock v p (.keyx (keyxMac v p) [] 0)))) ∧
  (∀ (s : State) (p : Port) (n : Bytes) (w : Nat), (portSt s p).linkKeys ≠ [] → (portSt s p).helloOk = true →
    ((portSt s p).link = .training →
      (∃ t, exec (.keyxRx p (keyxMac s p) n w) s = .next t ∧ linkUp t p = true) ∧
      ∀ m, m ≠ keyxMac s p → ∃ t, exec (.keyxRx p m n w) s = .next t ∧ (portSt t p).link = .down) ∧
    (linkUp s p = true → n ≠ [] →
      ((portSt s p).rekeying = true → exec (.keyxRx p (keyxMac s p) n w) s = .next (finishRekey s p n w)) ∧
      ((portSt s p).rekeying = false → rngServes s = true → exec (.keyxRx p (keyxMac s p) n w) s = .next (finishRekey (sendRekey s p) p n w)))) ∧
  (∀ (s : State) (p : Port), linkUp s p = true → (portSt s p).rekeying = false → rngServes s = true →
    Completes (.linkRekey p) s [.fab, .rng, .out] fun t => (portSt t p).rekeying = true ∧ (portSt t p).nextNonce = randBytes s 32 ∧
      t.out.blocks = s.out.blocks ++ [(p, .keyx (keyxMac s p) (randBytes s 32) (portSt s p).txSeq)]) ∧
  (∀ (s : State) (p : Port) (n : Bytes) (w : Nat) (k : Bytes), linkUp s p = true → (portSt s p).waiting = [] → (portSt s p).rxSeq < w →
    linkKeysOf (onPort s p fun l => { l with nonce := l.nextNonce, nextNonce := [], peer := { l.peer with nonce := fit 32 n } }) p = some k →
    (portSt (finishRekey s p n w) p).txKey = directionKey s p k true ∧ (portSt (finishRekey s p n w) p).txSeq = 0 ∧
      (portSt (finishRekey s p n w) p).rxSwitch = some (w, directionKey s p k false) ∧ (portSt (finishRekey s p n w) p).rekeying = false) ∧
  (∀ (s : State) (p : Port), (portSt s p).link = .training → twf {} s.fab.ports = true → ∃ t, exec (.linkTrainTimeout p) s = .next t ∧ (portSt t p).link = .down ∧
    (portSt t p).linkKeys = [] ∧ (portSt t p).txKey = [] ∧ (portSt t p).rxKey = [] ∧ (portSt t p).replay = []) ∧
  (∀ (s : State) (p : Port) (n : Nat), linkUp s p = true → (portSt s p).lastRx = some n → exec (.ackTimer p) s = .next (sendBlock s p (.ack n))) ∧
  (∀ (s : State) (p : Port) (n : Nat), linkUp s p = true → let rest := fromSeq n (portSt s p).replay
    (rest = [] → exec (.ackRx p n) s = .next s) ∧
    (rest ≠ [] → exec (.ackRx p n) s = .next (flushPort (onPort s p fun l => { l with replay := rest.drop 1 }) p)) ∧
    (rest ≠ [] → (portSt s p).waiting = [] → Completes (.ackRx p n) s [.fab] fun t => linkUp t p = true ∧
      (portSt t p).replay = rest.drop 1 ∧ (portSt t p).linkKeys = (portSt s p).linkKeys)) ∧
  (∀ (s : State) (p : Port) (n : Nat), linkUp s p = true → let again := fromSeq n (portSt s p).replay
    again ≠ [] → ∃ t, exec (.nakRx p n) s = .next t ∧ t.out.frames = s.out.frames ++ again.map (fun x => (p, x.frame)) ∧
      t.out.wire = s.out.wire ++ again.map (fun x => (p, x.wire)) ∧
      ((∀ x ∈ (portSt s p).replay, x.resends < 7) → linkUp t p = true ∧ (portSt t p).replay =
        (portSt s p).replay.take ((portSt s p).replay.length - again.length) ++ again.map fun x => { x with resends := x.resends + 1 }) ∧
      ((∃ x ∈ again, 7 ≤ x.resends) → (portSt t p).link = .down ∧ (portSt t p).replay = [])) ∧
  (∀ (s : State) (p : Port), linkUp s p = true → (portSt s p).retraining = false → exec (.linkAckTimeout p) s = .next (linkDown s p)) ∧
  (∀ (s : State) (p : Port), linkUp s p = true →
    exec (.frameCrcGcmFailure p .crc) s = .next (sendBlock s p (.nak ((portSt s p).rxSeq % 2 ^ 32))) ∧
    exec (.frameCrcGcmFailure p .gap) s = .next (sendBlock s p (.nak ((portSt s p).rxSeq % 2 ^ 32))) ∧
    (2 ≤ (freshPort s.time.clk (portSt s p)).gcmFails.length → ∃ t, exec (.frameCrcGcmFailure p .gcm) s = .next t ∧ (portSt t p).link = .down) ∧
    ((freshPort s.time.clk (portSt s p)).gcmFails.length < 2 → ∃ t, exec (.frameCrcGcmFailure p .gcm) s = .next t ∧ linkUp t p = true ∧
      (portSt t p).gcmFails = (freshPort s.time.clk (portSt s p)).gcmFails ++ [s.time.clk])) ∧
  (∀ (s : State) (p : Port) (l : BitVec 1), linkUp s p = true → Completes (.degradeRx p l) s [.fab] fun t => (portSt t p).retraining = true ∧
    (portSt t p).lanesRetired = (portSt s p).lanesRetired ||| (if l = 0 then 1 else 2)) ∧
  (∀ (s : State) (p : Port), linkUp s p = true → (portSt s p).retraining = true → let u := onPort s p fun l => { l with retraining := false }
    exec (.laneRetrainDone p) s = .next (flushPort (sendAgain u p (portSt s p).replay) p) ∧
    ((portSt s p).waiting = [] → Completes (.laneRetrainDone p) s [.fab, .out] fun t => (portSt t p).retraining = false ∧
      t.out.frames = s.out.frames ++ (portSt s p).replay.map fun x => (p, x.frame)) ∧
    exec (.laneRetrainTimeout p) s = .next (linkDown s p)) ∧
  (∀ (s : State) (p : Port), (portSt s p).link ≠ .down → exec (.downRx p) s = .next (linkDown s p))

/-- A frame arrives on an UP link as its bytes. One whose CRC fails, one whose link_seq is later than expected and one whose tag fails are
answered by NAK; one that was taken already changes nothing. The expected one, opened under the key of its direction and the count of
frames under it, is taken and counted. One that its checks refuse, a flooded one of class Link and one from this node to itself are
discarded and counted. One that is well formed, for another node and no TIME_PULSE goes on towards it with one more hop, but a forward
that no link can take and whose pair member is this node is delivered here; one for this node is delivered as its own command does. A
frame put on a link is sealed under its key with the link's count, and kept. Rests on R356, R358, R359, R361, R363, R364, R365, R366,
R367, R368, R370, R378. -/
def Obligations.FramesAreTakenRoutedOrDiscarded : Prop :=
  (∀ (s : State) (p : Port) (w : Bytes), linkUp s p = true → s.pow.mainUp = true →
    let h := headerOf w
    let e := (portSt s p).rxSeq % 2 ^ 32
    let u := tookFrame s p h.seq
    (crcGood w = false → exec (.frameRoute p w) s = .next (rxFail s p .crc)) ∧
    (crcGood w = true → h.seq ≠ e → (h.seq + 2 ^ 32 - e) % 2 ^ 32 < 2 ^ 31 → exec (.frameRoute p w) s = .next (rxFail s p .gap)) ∧
    (crcGood w = true → h.seq ≠ e → 2 ^ 31 ≤ (h.seq + 2 ^ 32 - e) % 2 ^ 32 → exec (.frameRoute p w) s = .next s) ∧
    (crcGood w = true → h.seq = e → openFrame (portSt s p).rxKey (portSt s p).rxSeq w = none → exec (.frameRoute p w) s = .next (rxFail s p .gcm)) ∧
    (∀ b, crcGood w = true → h.seq = e → openFrame (portSt s p).rxKey (portSt s p).rxSeq w = some b →
      exec (.frameRoute p w) s = .next (acceptFrame u p h b) ∧
      (∀ x, frameOf h b = .error x → h.typ ≠ 1 → exec (.frameRoute p w) s = .next (discardFrame u)) ∧
      (∀ body, frameOf h b = .ok body → (isLinkClass h.typ = true ∧ h.flags.testBit 2 = true) ∨ (h.dest = nodeAddr s ∧ h.src = nodeAddr s) →
        exec (.frameRoute p w) s = .next (discardFrame u)) ∧
      (∀ body, frameOf h b = .ok body → h.dest ≠ nodeAddr s → h.flags.testBit 2 = false → h.typ ≠ 9 →
        let f : Frame := {
          src := h.src, dest := h.dest, vc := h.flags.testBit 0, detour := h.flags.testBit 1, flood := false, relayed := h.flags.testBit 3
          hops := h.hops + 1, body := body }
        (h.typ ≠ 1 ∨ stuck u f = false → exec (.frameRoute p w) s = .next (routeFrame u (some (portDim p)) 2 f)) ∧
        (h.typ = 1 → stuck u f = true → f.relayed = false → pairOther f.dest = nodeAddr s →
          exec (.frameRoute p w) s = .next (deliver u p { f with relayed := true, dest := nodeAddr s }))) ∧
      (∀ a t c q r w' g x, frameOf h b = .ok (.heartbeat a t c q r w' g) → h.dest = nodeAddr s → h.src ≠ nodeAddr s → h.typ = 6 →
        h.flags.testBit 2 = false → exec (.heartbeatRx h.src a t c q r w' g) u = .next x → exec (.frameRoute p w) s = .next x))) ∧
  (∀ (s : State) (p : Port) (f : Frame), linkUp s p = true → PortFree s p (wireSize f) → let n := (portSt s p).txSeq
    let x := sealFrame (portSt s p).txKey n f
    (sendOn s p f).out.wire = s.out.wire ++ [(p, x)] ∧ (portSt (sendOn s p f) p).txSeq = n + 1 ∧
      (portSt (sendOn s p f) p).replay = (portSt s p).replay ++ [{ seq := n, frame := f, wire := x }]) ∧
  (∀ (s : State) (p : Port) (f : Frame), (portSt s p).rekeying = true ∨ (portSt s p).retraining = true →
    sendOn s p f = onPort s p fun l => { l with waiting := l.waiting ++ [f] })

/-- A message with a good PEC that the port takes joins the queue of three and raises MGT_RX on core G; a bad PEC is counted, and any other
message is discarded and counted. Each MCTP control command in hand is answered with its data and leaves the queue,
SET_ENDPOINT_ID setting the EID its message carries; an undefined one is answered ERROR_UNSUPPORTED_CMD. MGT_RX_TAKE puts the first message at its address and off the
queue; MGT_TX_SEND sends the words at its address, 1 to 4,113 bytes, to the source of the message taken. MGT_ALERT_SET sets causes,
MGT_ALERT_CLEAR clears them but for one set in the same cycle. Rests on R723, R724, R725, R726, R727, R728, R729, R730. -/
def Obligations.ControlMessagesAreTakenAndAnswered : Prop :=
  (∀ (s : State) (b : Bytes) (eid : BitVec 8) (tag : BitVec 3), gServes s = true →
    (portTakes b = true → s.mgt.rx.length < 3 →
      exec (.mctpMessageRx b eid tag true false) s = .next (irq (s.onMgt fun m => { m with rx := m.rx ++ [{ bytes := b, eid := eid, tag := tag }] }) .g 4)) ∧
    (portTakes b = false ∨ 3 ≤ s.mgt.rx.length →
      exec (.mctpMessageRx b eid tag true false) s = .next (s.onMgt fun m => { m with discards := satInc 16 m.discards })) ∧
    (∀ ic, exec (.mctpMessageRx b eid tag false ic) s = .next (s.onMgt fun m => { m with pecFails := satInc 16 m.pecFails }))) ∧
  (∀ (s : State) (m : MgtMsg) (rest : List MgtMsg),
    (ControlInHand s m rest 1 → ∀ eid, cut m.bytes 4 1 = [eid] → exec (.setEndpointId eid) s
      = .next (controlAnswer (s.onMgt fun x => { x with eid := if eid = 0 then none else some eid }) m rest 0 [0, eid, 0])) ∧
    (ControlInHand s m rest 2 → exec .getEndpointId s = .next (controlAnswer s m rest 0 [s.mgt.eid.getD 0, 0, 0])) ∧
    (ControlInHand s m rest 4 → exec .getMctpVersionSupport s = .next (controlAnswer s m rest 0 [1, 0xF1, 0xF3, 0xFF, 0x00])) ∧
    (ControlInHand s m rest 5 → exec .getMessageTypeSupport s = .next (controlAnswer s m rest 0 [1, 0x7F])) ∧
    (ControlInHand s m rest 6 → exec .getVendorDefinedMessageSupport s = .next (controlAnswer s m rest 0 ([0xFF, 1] ++ enterprise ++ [0, 1]))) ∧
    (∀ c : Byte, c.toNat ∉ [1, 2, 4, 5, 6] → ControlInHand s m rest c.toNat → exec (.mctpUnsupportedCommand c) s = .next (controlAnswer s m rest 5 []))) ∧
  (∀ (s : State) (m : MgtMsg) (rest : List MgtMsg), Reaches s .g 0xB003 false → s.mgt.rx = m :: rest →
    exec (.mgtRxTake .g) s = .next (writeStr (s.onMgt fun x => { x with rx := rest, taken := some m }) .g s.mgt.rxAddr.toNat m.bytes)) ∧
  (∀ (s : State) (m : MgtMsg) (b : Bytes), Reaches s .g 0xB006 false → s.mgt.taken = some m → 1 ≤ s.mgt.txLen.toNat → s.mgt.txLen.toNat ≤ 4113 →
    readStr s .g s.mgt.txAddr.toNat s.mgt.txLen.toNat = some b → exec (.mgtTxSend .g) s = .next (sendMsg s m b)) ∧
  (∀ (s : State) (k : BitVec 32), Reaches s .g 0xB008 false → exec (.mgtAlertSet .g k) s = .next (s.onMgt fun m => { m with alert := m.alert ||| k })) ∧
  (∀ (s : State) (k n : BitVec 32), Reaches s .g 0xB009 false →
    exec (.mgtAlertClear .g k n) s = .next (s.onMgt fun m => { m with alert := m.alert &&& ~~~k ||| n }))

/-- Each of the twelve Graward requests in hand is answered with the first of checks 1 to 9 that it fails, and otherwise with what its command
gives: identity, health with the current nonce, telemetry, the unit table, a proposal that records PROPOSAL and queues its post once it is recorded, a staged
block that moves the session on, a commit that records IMAGE_COMMIT, an attestation of the key holder, a voucher checked and taken, log
records, the alert causes left after a clear, the twin's state. A request with a trailer that passes consumes the nonce. Rests on R735,
R737, R738, R741, R742, R743, R745, R746, R747, R752, R753, R767. -/
def Obligations.GrawardRequestsAreAnswered : Prop :=
  GrawardRequest .getIdentity 0x01 (fun s _ => .ok (s, identityBlock s ++ if lifecycle s = 1 ∨ lifecycle s = 4 then offerBytes s else [])) ∧
  GrawardRequest .getHealth 0x02 (fun s _ => .ok (s, healthBytes s)) ∧ (∀ s : State, (healthBytes s).take 16 = nonceBytes s) ∧
  GrawardRequest .getTelemetry 0x03 telemetry ∧
  GrawardRequest .getUnitTable 0x04 (fun s _ => .ok (s, unitTableBytes s)) ∧
  GrawardRequest .proposeUnitState 0x05 propose ∧
  (∀ (s : State) (b : Bytes), (∀ e, checkProposal s b = some e → propose s b = .error e) ∧
    (checkProposal s b = none →
      let t := append s (.serge .g) 2 0x0201 0 (b.take 5 ++ zeros 3 ++ cut b 8 8)
      let p : Post := { unit := leAt b 0 1, st := BitVec.ofNat 3 (leAt b 1 1), source := 1, reason := 0x10, lanes := BitVec.ofNat 2 (leAt b 2 1), force := (leAt b 4 1).testBit 0 }
      propose s b = .ok (if s.store.queue.length < t.store.queue.length ∧ unitActive s 0x50 = true then
        t.onMgt fun m => { m with proposals := m.proposals ++ [(m.taken.getD {}, p)] } else post t p, []))) ∧
  (∀ (s : State) (m : MgtMsg) (p : Post) (rest : List (MgtMsg × Post)), s.mgt.proposals = (m, p) :: rest →
    proposed s true = gReply (post (s.onMgt fun x => { x with proposals := rest }) p) m 0 0 []) ∧
  (∀ ok, GrawardRequest (fun b => .stageImageBlock b ok) 0x06 (stageBlock ok)) ∧
  GrawardRequest .commitStagedImage 0x07 commitImage ∧
  GrawardRequest .attest 0x08 attestG ∧
  GrawardRequest .mgtSetTimeVoucher 0x09 voucherG ∧
  GrawardRequest .getLog 0x0A getLogG ∧
  GrawardRequest .clearAlert 0x0B (fun s b => let a := s.mgt.alert &&& ~~~BitVec.ofNat 32 (leAt b 0 4); .ok (s.onMgt fun m => { m with alert := a }, leBytes 4 a.toNat)) ∧
  GrawardRequest .twinStatus 0x0C (fun s _ => .ok (s, if s.pow.mainUp then twinBytes s true else fit 32 s.mgt.twinLast))

/-- A core's store to a window register that answers takes effect when the word's tag is one the register accepts, and traps TAGFAULT at its
address when it is not; one that no register answers, or that a rule refuses, traps BUS. A host write to a ring's base address takes
effect while the ring is IDLE and is ignored while it is not, and a write of 1s to DEV_CAUSE clears those bits alone, but for those that an event of
the same cycle sets. The MSI-X table holds what is written to it, a mask bit too. With the main die off or the link down a host's write
changes nothing. A read of a read-to-
clear field clears it, but an event of the same cycle stays set. Rests on R12, R13, R14, R94, R96, R98, R103, R426, R473, R474, R482, R483. -/
def Obligations.RegistersReadAndWrite : Prop :=
  (∀ (s : State) (c : CoreId) (a : BitVec 16) (w : W36) (r : Reg), coreLive s c = true → 0x8000 ≤ a.toNat → a.toNat < 0xC000 →
    regAt c a.toNat = some r → winRefused s c a.toNat r.aOnly = false →
    (w.tag ∈ r.tags → exec (.registerWrite (.window c a w)) s = .next (r.wr s c w)) ∧
    (w.tag ∉ r.tags → exec (.registerWrite (.window c a w)) s = .next (trap s c (trTag, atData a.toNat) (coreGet s c).pc.toNat))) ∧
  (∀ (s : State) (c : CoreId) (a : BitVec 16) (w : W36), coreLive s c = true → 0x8000 ≤ a.toNat → a.toNat < 0xC000 → linkSilent s c a.toNat = false →
    winRefused s c a.toNat false = true ∨ regAt c a.toNat = none →
    exec (.registerWrite (.window c a w)) s = .next (trap s c (trBus, atData a.toNat) (coreGet s c).pc.toNat)) ∧
  (∀ (s : State) (n : Nat) (v : BitVec 64), s.pow.mainUp = true → s.hq.linkUp = true → n < 32 → ∀ now, exec (.registerWrite (.bar0 (0x1000 + 0x20 * n) 8 v now)) s
    = .next (onSq s n fun r => if r.st = .idle then { r with base := v.extractLsb' 12 52 } else r)) ∧
  (∀ (s : State) (v : BitVec 64) (now : BitVec 32), s.pow.mainUp = true → s.hq.linkUp = true →
    exec (.registerWrite (.bar0 0x104 4 v now)) s
      = .next (causes (s.onHq fun h => { h with cause := h.cause &&& ~~~(v.extractLsb' 0 32 &&& ~~~now).extractLsb' 0 12 }) now) ∧
    (now = 0 → exec (.registerWrite (.bar0 0x104 4 v now)) s = .next (s.onHq fun h => { h with cause := h.cause &&& ~~~v.extractLsb' 0 12 }))) ∧
  (∀ (s : State) (n : Nat) (v : BitVec 32), s.pow.mainUp = true → s.hq.linkUp = true → n < 64 →
    (∃ t, exec (.registerWrite (.bar2 (16 * n + 8) 4 (v.zeroExtend 64))) s = .next t ∧ (twf {} s.hq.vecs = true → bar2 t (16 * n + 8) = v)) ∧
    (v.getLsbD 0 = true → ∃ t, exec (.registerWrite (.bar2 (16 * n + 12) 4 (v.zeroExtend 64))) s = .next t ∧ (tget {} t.hq.vecs n).masked = true)) ∧
  (∀ (s : State) (t : RegTarget), hostReach s = false → (∀ c a w, t ≠ .window c a w) → exec (.registerWrite t) s = .next s) ∧
  (∀ (s : State) (now : Bool), (∃ t, exec (.readToClear (.pwrRoleRefused .a) now) s = .next t ∧ t.unit.roleRefA = now) ∧
    (∃ t, exec (.readToClear (.pwrRoleRefused .b) now) s = .next t ∧ t.unit.roleRefB = now) ∧
    (∃ t, exec (.readToClear .pwrStateRefused now) s = .next t ∧ t.pow.reqRefused = now ∧ t.core.busData = intW (pwrState s)) ∧
    (twf {} s.tele.pulses = true → ∀ x, ∃ t, exec (.readToClear (.pulseOverflow x) now) s = .next t ∧ (tget {} t.tele.pulses x).overflow = now ∧
      (tget {} t.tele.pulses x).count = (tget {} s.tele.pulses x).count))

/-- A running core in NORMAL with IE set takes the lowest pending enabled source between instructions and between iterations of an
interruptible repeat, whose iterations left are saved; otherwise the entry does nothing. The data plane and hardware post about a unit
that is fitted. A DRAINING unit that has finished its last work shows drained and is decided RETIRED; a DISPUTED one shows drained. A
stalled crossing sets its causes and an observation; a resynchronisation clears its pulse state and carries the number of items dropped. A
pulse is delivered at once, counted during the acknowledge phase, and overflows at 15; the end of the phase delivers the count. Rests on
R453, R457, R463, R494, R498, R503, R815, R816, R817, R818. -/
def Obligations.InterruptsPostsAndCrossingsAct : Prop :=
  (∀ (s : State) (c : CoreId) (n : Nat), coreLive s c = true → (coreGet s c).waiting = false → takeable s c = some n →
    ((coreGet s c).rep = none → exec (.interruptEntry c) s = .next (takeIrq s c n (coreGet s c).pc.toNat)) ∧
    (∀ r d, (coreGet s c).rep = some r → r.x.rep = .rep d true → exec (.interruptEntry c) s
      = .next (takeIrq (coreUpd s c fun k => { k with repc := r.left }) c n (coreGet s c).pc.toNat)) ∧
    (∀ r d, (coreGet s c).rep = some r → r.x.rep = .rep d false → exec (.interruptEntry c) s = .next s)) ∧
  (∀ (s : State) (c : CoreId), (coreGet s c).st ≠ .normal ∨ (coreGet s c).ie = false → exec (.interruptEntry c) s = .next s) ∧
  (∀ (s : State) (u : Nat) (x : BitVec 3) (r : BitVec 8), s.pow.mainUp = true → unitSt s u ≠ .absent → x = 1 ∨ x = 3 ∨ x = 6 →
    exec (.observationPost u x 0 r) s = .next (post s { unit := u, st := x, source := 0, reason := r }) ∧
    exec (.observationPost u x 2 r) s = .next (post s { unit := u, st := x, source := 2, reason := r })) ∧
  (∀ (s : State) (u : Nat), unitSt s u = .draining → (unitEnt s u).drained = false → unitBusy s u = false → s.unit.adoptLane ≠ some u →
    Completes (.unitDrained u) s [.unit] fun t => (unitEnt t u).drained = true ∧ unitSt t u = .draining ∧
      t.unit.decided = s.unit.decided ++ [(u, .retired, (unitEnt s u).reason)]) ∧
  (∀ (s : State) (u : Nat), unitSt s u = .disputed → (unitEnt s u).drained = false → unitBusy s u = false → s.unit.adoptLane ≠ some u →
    Completes (.unitDrained u) s [.unit] fun t => (unitEnt t u).drained = true ∧ unitSt t u = .disputed ∧ t.unit.decided = s.unit.decided) ∧
  (∀ (s : State) (u : Nat), s.pow.mainUp = true → exec (.cdcStall u) s = .next (observe (irqMain (cause s 8) 2) u .failed 2 0x07)) ∧
  (∀ (s : State) (x : Nat), exec (.crossingResync x []) s
    = .next ((onPulse s x fun p => { p with ack := false, count := 0, overflow := false }).onTele fun t => { t with flushed := tput 0 t.flushed x 0 })) ∧
  (∀ (s : State) (x l c : Nat) (r : Req) (rest : List (Nat × Nat)), assoc (l * 64 + c) s.lane.reqs = some r → exec (.crossingResync x ((l, c) :: rest)) s
    = .next ((onPulse (rest.foldl dropItem (endReq s r .internalFault 0)) x fun p => { p with ack := false, count := 0, overflow := false }).onTele fun t =>
      { t with flushed := tput 0 t.flushed x (rest.length + 1) })) ∧
  (∀ (s : State) (x : Nat), exec (.pulseDeliver x) s = .next (onPulse s x fun p =>
    if p.ack = false then { p with ack := true, events := p.events ++ [1] }
    else if p.count < 15 then { p with count := p.count + 1 } else { p with overflow := true })) ∧
  (∀ (s : State) (x : Nat), (tget {} s.tele.pulses x).ack = true → Completes (.pulsePhaseEnd x) s [.tele] fun t =>
    ((tget {} s.tele.pulses x).count ≠ 0 → tget {} t.tele.pulses x = { tget {} s.tele.pulses x with
      count := 0, events := (tget {} s.tele.pulses x).events ++ [(tget {} s.tele.pulses x).count] }) ∧
    ((tget {} s.tele.pulses x).count = 0 → twf {} s.tele.pulses = true → tget {} t.tele.pulses x = { tget {} s.tele.pulses x with ack := false }))

/-- At MAIN_PGOOD the main die comes up at boot step 2 with straps and safe input as sampled and the unit states restored. The link's
agreement makes a session key from the pairing secret and brings time and measurements over. The first image read of a start resets the
flash, reads its SFDP tables and takes the fastest mode that they declare. Both HEADERs are read, and the bank in turn is the one with the higher sequence that has
failed no check, bank 0 first; the other is not read before it. A streamed bank that fails a check is recorded, and with the other failed already the device
goes to safe mode; one that passes is accepted with its sequence and parameters. Step 6 fails without an intact root. Training ends with
its failed channels recorded, a drive reports, is refused or waits, the attach times out, and a checkpoint that does not verify stops the
boot while one that does ends with the ledger replayed. Rests on R20, R784, R786, R787, R793, R794, R795, R798, R859, R545, R330, R772. -/
def Obligations.TheMainDieStarts : Prop :=
  (∀ (s : State) (p : BitVec 12) (safe : Bool), s.pow.pwrEn = true → s.pow.mainUp = false → s.pow.standby = true → s.store.ready = true →
    s.tmp.level ≠ 3 → ∃ t, exec (.mainPgoodHigh p safe) s = .next t ∧ t.pow.mainUp = true ∧ t.pow.pgood = true ∧ t.pow.bootStep = 2 ∧
      t.pow.node = (if s.pow.variant = .slx4806 then p &&& 0xF00 else p) ∧ t.pow.safe = safe ∧ t.pow.mainRuns = s.pow.mainRuns + 1 ∧
      t.unit.version = s.unit.gateVersion) ∧
  (∀ (s : State), s.pow.mainUp = true → s.pow.standby = true → s.pow.linkUp = false → Completes .gatehouseLinkAgreed s [.pow, .dig, .time] fun t =>
    t.pow.linkUp = true ∧ t.pow.linkSession = bvBytes (Config.linkSession s.pow.pairSecret s.pow.mainRuns) ∧ t.dig.gateMeas = s.dig.meas ∧
      t.time.mUs = s.time.us ∧ t.time.mAnch = s.time.anchored ∧ t.dig.snooping = !s.pow.safe) ∧
  (∀ (s : State) (n : BitVec 1) (b : Bank), s.pow.mainUp = true → s.pow.linkUp = true → s.tmp.bootHeld = false → s.pow.bank = 3 → s.pow.safe = false →
    s.pow.bootStep < 4 →
      let h0 := if n = 0 then b.header else b.other
      let h1 := if n = 0 then b.other else b.header
      let u := readHeaders (openFlash s b.modes) h0 h1
      (bankInTurn u h0 h1 = none → exec (.imageBankStreamed n b false) s = .next (enterSafe u)) ∧
      (∀ m, bankInTurn u h0 h1 = some m → m ≠ n → exec (.imageBankStreamed n b false) s = .next u) ∧
      (∀ k, bankInTurn u h0 h1 = some n → bankFail u b = some k → exec (.imageBankStreamed n b false) s = .next (rejectBank u n k)) ∧
      (s.pow.sfdpRead = false → ∃ t, exec (.imageBankStreamed n b false) s = .next t ∧ t.pow.sfdpRead = true ∧
        t.pow.readMode = (if b.modes.octal then .octal else if b.modes.quad then .quad else if b.modes.quadOut then .quadOut else .single) ∧
        t.out.spi = s.out.spi ++ [.reset 10, .sfdp .single 25, .select t.pow.readMode
          (if b.modes.octal then 100 else if b.modes.quad then 133 else if b.modes.quadOut then 133 else 25)]) ∧
      (bankInTurn u h0 h1 = some n → bankFail u b = none → exec (.imageBankStreamed n b false) s = .next (acceptBank u n b) ∧
        (acceptBank s n b).pow.bank = n.zeroExtend 2 ∧ (acceptBank s n b).pow.imageSeq = bankSeq b.header ∧ (acceptBank s n b).pow.bootStep = 4 ∧
        (acceptBank s n b).par = imageParams b)) ∧
  (∀ (s : State) (k : Nat), 0 < k → k < 16 → (s.pow.fail1 = 0 → (rejectBank s 0 k).pow.safe = s.pow.safe ∧ (rejectBank s 0 k).pow.fail0 = BitVec.ofNat 4 k) ∧
    (s.pow.fail1 ≠ 0 → (rejectBank s 0 k).pow.safe = true ∧ (rejectBank s 0 k).pow.safeNone = true ∧ (rejectBank s 0 k).par = {})) ∧
  (∀ (s : State) (n : BitVec 1) (b : Bank), s.pow.mainUp = true → s.pow.linkUp = true → s.tmp.bootHeld = false → s.pow.bank = n.zeroExtend 2 →
    s.unit.adopting = 0 → bankFail s b = none → exec (.imageBankStreamed n b false) s = .next (reloadCores s b)) ∧
  (∀ (s : State) (b : Bank), s.pow.mainUp = true → s.pow.linkUp = true → s.tmp.bootHeld = false →
    exec (.imageBankStreamed s.unit.adoptBank b true) s = .next (adoptBank s b)) ∧
  (∀ (s : State) (bad : List Nat), s.pow.mainUp = true → s.pow.linkUp = true → s.pow.bank ≠ 3 → s.tmp.bootHeld = false → s.rng.inst = true → s.pow.bootStep < 6 →
    (∀ ok, exec (.bootKeyStoreOpen bad ok) s = .next (openStore s bad ok)) ∧
    ((openRoot (loadCounts s)).key.fuse ≠ 3 →
      ∃ t, exec (.bootKeyStoreOpen bad false) s = .next t ∧ t.pow.bootFault = true ∧ t.pow.bootStep = 6 ∧ t.key.unwrapped = s.key.unwrapped)) ∧
  (∀ (s : State) (bad : List Nat), 6 ≤ s.pow.bootStep → s.tmp.restarting = true → s.tmp.cleared = true → s.key.unwrapped = false → s.rng.inst = true →
    s.pow.mainUp = true → s.pow.linkUp = true → rootIntact s = true → unitActive s 0x3B = true → exec (.bootKeyStoreOpen bad true) s = .next (hbmKey (unwrapStore s 1024 bad))) ∧
  (∀ (s : State) (f : List Nat) (b : Bytes), s.pow.mainUp = true → s.hbm.trained = false → ∃ t, exec (.hbmTrainingDone f b) s = .next t ∧
    t.hbm.trained = true ∧ t.pow.hbmSerial = fit 12 b ∧ ∀ n, n < 16 → n ∈ f → unitSt s (0x10 + n) ≠ .absent → unitSt t (0x10 + n) = .failed) ∧
  (∀ (s : State) (d : Nat) (a b : Bytes) (id : DriveId), d < 2 → s.pow.mainUp = true → s.pow.perst.getLsbD d = false → s.pow.attachDone = false →
    let u := nvme (onDrive s d fun x => { x with ident := id, queue := 0 }) [d] .identify
    (meetsDrive id = true → exec (.driveReady d a b id) s
      = .next (tryAttachEnd (onDrive (nvme (nvme (makeQueues u d) [d] (.read 0 1)) [d] (.read 1 1)) d fun x => { x with
        attached := true, ready := true, dealloc := false, labelA := a, labelB := b }))) ∧
    (meetsDrive id = false → exec (.driveReady d a b id) s
      = .next (tryAttachEnd ((bootUnit (onDrive u d fun x => { x with attached := true, ready := false }) (0x28 + d) .retired 0x01).onPow
        fun p => { p with perst := setBit p.perst d true })))) ∧
  (∀ (s : State), s.pow.mainUp = true → s.pow.safe = false → s.pow.attachDone = false →
    exec .driveAttachTimeout s = .next (tryAttachEnd (s.onPow fun p => { p with attachOver := true }))) ∧
  (∀ (s : State), s.pow.mainUp = true → s.pow.attachDone = true → s.pow.bootFault = false → s.hbm.keyLoaded = true → s.led.replayed = false →
    s.key.unwrapped = true → servingDrives s ≠ [] →
    (replayBase s = none → exec .journalReplayDone s = .next (s.onPow fun p => { p with bootFault := true })) ∧
    (∀ b, replayBase s = some b → ∃ t, exec .journalReplayDone s = .next t ∧ t.led.replayed = true ∧ 9 ≤ t.pow.bootStep) ∧
    (∀ r, latest s 3 0x0303 0 = some r → (∀ d ∈ servingDrives s, (tget {} (tget {} s.drives d).ckpts (leAt r.payload 0 8 % 2)).k ≠ leAt r.payload 0 8) →
      exec .journalReplayDone s = .next (s.onPow fun p => { p with bootFault := true })))

/-- With checks 1 to 4 passed and registers of the tags allowed, NOP, NEG, NOT, STX, STY, XA, YA, LRA, ALR, ASI, ASB, ADP, DPA, TQ, DI and the
shifts give the core's registers and flags the values of the GROUP table, PC goes to the next word, and nothing else of the device
changes. A shift by 0 keeps C; a shift's C is the last bit shifted out, and 0 past 32. A condition that fails only advances PC. Rests on
R423, R424, R430, R440, R442, R452. -/
def Obligations.RegisterInstructionsComplete : Prop :=
  (∀ (s : State) (x : SCtx), SergeReady s x (.group .nop) → exec (.nop x) s = .next (sergeEnd s x (sergeNext s x (.group .nop)) id)) ∧
  (∀ (s : State) (x : SCtx), SergeReady s x (.group .di) →
    exec (.di x) s = .next (sergeEnd s x (sergeNext s x (.group .di)) fun k => { k with ie := false })) ∧
  (∀ (s : State) (x : SCtx), SergeReady s x (.group .neg) → (coreGet s x.core).acc.tag = tInt →
    exec (.neg x) s = .next (sergeEnd s x (sergeNext s x (.group .neg)) fun k =>
      withFlags (k.acc.val == 0) (-k.acc.val).msb (k.acc.val == 0) (k.acc.val == 0x80000000) { k with acc := intW (-k.acc.val) })) ∧
  (∀ (s : State) (x : SCtx), SergeReady s x (.group .not) → (coreGet s x.core).acc.tag ∈ [tInt, tBits] →
    exec (.notOp x) s = .next (sergeEnd s x (sergeNext s x (.group .not)) fun k =>
      withFlags (k.acc.val == 0xFFFFFFFF) (!k.acc.val.msb) k.c k.v { k with acc := { tag := k.acc.tag, val := ~~~k.acc.val } })) ∧
  (∀ (s : State) (x : SCtx), (coreGet s x.core).acc.tag ∈ anyTag →
    (SergeReady s x (.group .stx) → exec (.stx x) s = .next (sergeEnd s x (sergeNext s x (.group .stx)) fun k => { k with x := k.acc })) ∧
    (SergeReady s x (.group .sty) → exec (.sty x) s = .next (sergeEnd s x (sergeNext s x (.group .sty)) fun k => { k with y := k.acc }))) ∧
  (∀ (s : State) (x : SCtx), SergeReady s x (.group .xa) → (coreGet s x.core).x.tag ∈ anyTag →
    exec (.xa x) s = .next (sergeEnd s x (sergeNext s x (.group .xa)) fun k => { k with acc := k.x })) ∧
  (∀ (s : State) (x : SCtx), SergeReady s x (.group .ya) → (coreGet s x.core).y.tag ∈ anyTag →
    exec (.ya x) s = .next (sergeEnd s x (sergeNext s x (.group .ya)) fun k => { k with acc := k.y })) ∧
  (∀ (s : State) (x : SCtx), SergeReady s x (.group .lra) → (coreGet s x.core).lr.tag ∈ anyTag →
    exec (.lra x) s = .next (sergeEnd s x (sergeNext s x (.group .lra)) fun k => { k with acc := k.lr })) ∧
  (∀ (s : State) (x : SCtx), SergeReady s x (.group .alr) → (coreGet s x.core).acc.tag = tCaddr →
    exec (.alr x) s = .next (sergeEnd s x (sergeNext s x (.group .alr)) fun k => { k with lr := k.acc })) ∧
  (∀ (s : State) (x : SCtx), (coreGet s x.core).acc.tag ∈ [tInt, tBits] →
    (SergeReady s x (.group .asi) →
      exec (.asi x) s = .next (sergeEnd s x (sergeNext s x (.group .asi)) fun k => { k with acc := intW k.acc.val })) ∧
    (SergeReady s x (.group .asb) →
      exec (.asb x) s = .next (sergeEnd s x (sergeNext s x (.group .asb)) fun k => { k with acc := bitsW k.acc.val }))) ∧
  (∀ (s : State) (x : SCtx), SergeReady s x (.group .adp) → (coreGet s x.core).acc.tag = tDaddr →
    exec (.adp x) s = .next (sergeEnd s x (sergeNext s x (.group .adp)) fun k => { k with dp := k.acc.val.extractLsb' 5 11 })) ∧
  (∀ (s : State) (x : SCtx), SergeReady s x (.group .dpa) →
    exec (.dpa x) s = .next (sergeEnd s x (sergeNext s x (.group .dpa)) fun k => { k with acc := daddrW (k.dp.zeroExtend 32 <<< 5) })) ∧
  (∀ (s : State) (x : SCtx) (t : BitVec 3), SergeReady s x (.group (.tq t)) →
    exec (.tq x t) s = .next (sergeEnd s x (sergeNext s x (.group (.tq t))) fun k =>
      withFlags (decide (k.acc.tag.toNat = t.toNat)) false false false k)) ∧
  (∀ (s : State) (x : SCtx) (field : BitVec 5), (coreGet s x.core).acc.tag ∈ [tInt, tBits] →
    let n := field.toNat + 1
    (SergeReady s x (.shift .lsl field) → exec (.lsl x field) s = .next (sergeEnd s x (sergeNext s x (.shift .lsl field)) fun k =>
      withFlags (k.acc.val <<< n == 0) (k.acc.val <<< n).msb (k.acc.val.getLsbD (32 - n)) k.v { k with acc := { tag := k.acc.tag, val := k.acc.val <<< n } })) ∧
    (SergeReady s x (.shift .lsr field) → exec (.lsr x field) s = .next (sergeEnd s x (sergeNext s x (.shift .lsr field)) fun k =>
      withFlags (k.acc.val >>> n == 0) (k.acc.val >>> n).msb (k.acc.val.getLsbD (n - 1)) k.v { k with acc := { tag := k.acc.tag, val := k.acc.val >>> n } })) ∧
    (SergeReady s x (.shift .asr field) → exec (.asr x field) s = .next (sergeEnd s x (sergeNext s x (.shift .asr field)) fun k =>
      withFlags (k.acc.val.sshiftRight n == 0) k.acc.val.msb (k.acc.val.getLsbD (n - 1)) k.v
        { k with acc := { tag := k.acc.tag, val := k.acc.val.sshiftRight n } }))) ∧
  (∀ (s : State) (x : SCtx), (coreGet s x.core).acc.tag ∈ [tInt, tBits] → (coreGet s x.core).x.tag = tInt →
    let n := (coreGet s x.core).x.val.toNat % 64
    let last := fun (b : Nat) (k : Core) => if n = 0 then k.c else decide (n ≤ 32) && k.acc.val.getLsbD b
    let put := fun (v : BitVec 32) (b : Nat) (k : Core) => withFlags (v == 0) v.msb (last b k) k.v { k with acc := { tag := k.acc.tag, val := v } }
    (SergeReady s x (.group .lslx) →
      exec (.lslx x) s = .next (sergeEnd s x (sergeNext s x (.group .lslx)) fun k => put (k.acc.val <<< n) (32 - n) k)) ∧
    (SergeReady s x (.group .lsrx) →
      exec (.lsrx x) s = .next (sergeEnd s x (sergeNext s x (.group .lsrx)) fun k => put (k.acc.val >>> n) (n - 1) k)) ∧
    (SergeReady s x (.group .asrx) →
      exec (.asrx x) s = .next (sergeEnd s x (sergeNext s x (.group .asrx)) fun k => put (k.acc.val.sshiftRight n) (n - 1) k)) ∧
    (SergeReady s x (.group .rorx) →
      exec (.rorx x) s = .next (sergeEnd s x (sergeNext s x (.group .rorx)) fun k => put (k.acc.val.rotateRight (n % 32)) (n - 1) k))) ∧
  (∀ (s : State) (x : SCtx) (op : SOp), coreLive s x.core = true → (coreGet s x.core).waiting = false → (coreGet s x.core).rep = none →
    (coreGet s x.core).repc = 0 → isInstr x op = true → frontCheck x.core (coreGet s x.core).badProg (coreGet s x.core).pc.toNat (seqWords x op) = none →
    condHolds (coreGet s x.core) x.cond = false → instr x op s = sergeEnd s x (sergeNext s x op) id)

/-- With checks 1 to 4 passed, LD, ADD, SUB, AND, OR, XOR, CMP, MUL, DIV, LDX and LDY use the operand of each mode and leave in the core's
registers and flags what the operation, tag and edge-case tables give for the operand tags, PC going on to the next word; nothing but the
core's registers changes beyond the operand's read. Tags that the table does not allow trap TAGFAULT, a zero divisor DIVZERO, a VOID
operand VOIDLOAD, a data RAM word with an uncorrectable ECC error ECC. Rests on R424, R425, R431, R433, R434, R435, R436, R437, R452,
R454. -/
def Obligations.OperandInstructionsComplete : Prop :=
  (∀ (s : State) (x : SCtx) (m : SMode) (f : BitVec 5) (w : W36) (u : State), SergeReady s x (.mem .ld m f) → Operand s x m f w u →
    exec (.ld x m f) s = .next (sergeEnd u x (sergeNext s x (.mem .ld m f)) fun k =>
      if w.tag = tHandle ∨ w.tag = tCaddr then withFlags false false k.c k.v { k with acc := w }
      else withFlags (w.val == 0) w.val.msb k.c k.v { k with acc := w })) ∧
  (∀ (s : State) (x : SCtx) (m : SMode) (f : BitVec 5) (w : W36) (u : State), SergeReady s x (.mem .add m f) → Operand s x m f w u →
    let a := (coreGet s x.core).acc
    let next := sergeNext s x (.mem .add m f)
    (a.tag = tInt → w.tag = tInt → exec (.add x m f) s = .next (sergeEnd u x next fun k =>
      withFlags (a.val + w.val == 0) (a.val + w.val).msb (decide (2 ^ 32 ≤ a.val.toNat + w.val.toNat)) (BitVec.saddOverflow a.val w.val)
        { k with acc := intW (a.val + w.val) })) ∧
    (∀ t : Int, (a.tag = tDaddr ∧ w.tag = tInt ∧ t = a.val.toNat + w.val.toInt) ∨ (a.tag = tInt ∧ w.tag = tDaddr ∧ t = a.val.toInt + w.val.toNat) →
      exec (.add x m f) s = .next (sergeEnd u x next fun k => withFlags (decide (t % 65536 = 0)) false false (decide (t < 0 ∨ 0xFFFF < t))
        { k with acc := daddrW (BitVec.ofInt 32 (t % 65536)) })) ∧
    (a.tag ∈ [tInt, tDaddr] → (w.tag ∉ [tInt, tDaddr] ∨ (a.tag = tDaddr ∧ w.tag = tDaddr)) → m ≠ .imm →
      exec (.add x m f) s = .next (trap s x.core (trTag, atData (eaOf (coreGet s x.core) x.exts m f)) (coreGet s x.core).pc.toNat))) ∧
  (∀ (s : State) (x : SCtx) (m : SMode) (f : BitVec 5) (w : W36) (u : State), SergeReady s x (.mem .sub m f) → Operand s x m f w u →
    let a := (coreGet s x.core).acc
    let next := sergeNext s x (.mem .sub m f)
    (a.tag = tInt → w.tag = tInt → exec (.sub x m f) s = .next (sergeEnd u x next fun k =>
      withFlags (a.val == w.val) (a.val - w.val).msb (decide (w.val.toNat ≤ a.val.toNat)) (BitVec.ssubOverflow a.val w.val)
        { k with acc := intW (a.val - w.val) })) ∧
    (∀ t : Int, a.tag = tDaddr → w.tag = tInt → t = a.val.toNat - w.val.toInt →
      exec (.sub x m f) s = .next (sergeEnd u x next fun k => withFlags (decide (t % 65536 = 0)) false false (decide (t < 0 ∨ 0xFFFF < t))
        { k with acc := daddrW (BitVec.ofInt 32 (t % 65536)) })) ∧
    (a.tag = tDaddr → w.tag = tDaddr → exec (.sub x m f) s = .next (sergeEnd u x next fun k =>
      withFlags (a.val == w.val) (a.val - w.val).msb (decide (w.val.toNat ≤ a.val.toNat)) false { k with acc := intW (a.val - w.val) }))) ∧
  (∀ (s : State) (x : SCtx) (m : SMode) (f : BitVec 5) (w : W36) (u : State), (coreGet s x.core).acc.tag ∈ [tInt, tBits] → w.tag ∈ [tInt, tBits] →
    Operand s x m f w u →
    let a := (coreGet s x.core).acc
    let put := fun (r : BitVec 32) (k : Core) => withFlags (r == 0) r.msb k.c k.v { k with acc := { tag := a.tag, val := r } }
    (SergeReady s x (.mem .and m f) →
      exec (.andOp x m f) s = .next (sergeEnd u x (sergeNext s x (.mem .and m f)) fun k => put (a.val &&& w.val) k)) ∧
    (SergeReady s x (.mem .or m f) →
      exec (.orOp x m f) s = .next (sergeEnd u x (sergeNext s x (.mem .or m f)) fun k => put (a.val ||| w.val) k)) ∧
    (SergeReady s x (.mem .xor m f) →
      exec (.xor x m f) s = .next (sergeEnd u x (sergeNext s x (.mem .xor m f)) fun k => put (a.val ^^^ w.val) k))) ∧
  (∀ (s : State) (x : SCtx) (m : SMode) (f : BitVec 5) (w : W36) (u : State), SergeReady s x (.mem .cmp m f) → Operand s x m f w u →
    let a := (coreGet s x.core).acc
    let next := sergeNext s x (.mem .cmp m f)
    (a.tag ∈ [tInt, tBits] → w.tag ∈ [tInt, tBits] → exec (.cmp x m f) s = .next (sergeEnd u x next
      (withFlags (a.val == w.val) (a.val - w.val).msb (decide (w.val.toNat ≤ a.val.toNat)) (BitVec.ssubOverflow a.val w.val)))) ∧
    (a.tag = tDaddr → w.tag = tDaddr → exec (.cmp x m f) s = .next (sergeEnd u x next
      (withFlags (a.val == w.val) (a.val - w.val).msb (decide (w.val.toNat ≤ a.val.toNat)) false))) ∧
    (a.tag = w.tag → a.tag ∈ [tHandle, tCaddr] →
      exec (.cmp x m f) s = .next (sergeEnd u x next (withFlags (a.val == w.val) false false false)))) ∧
  (∀ (s : State) (x : SCtx) (m : SMode) (f : BitVec 5) (w : W36) (u : State), (coreGet s x.core).acc.tag = tInt → w.tag = tInt → Operand s x m f w u →
    let a := (coreGet s x.core).acc.val
    (SergeReady s x (.mem .mul m f) → ∀ (p : BitVec 64), p = a.signExtend 64 * w.val.signExtend 64 →
      exec (.mul x m f) s = .next (sergeEnd u x (sergeNext s x (.mem .mul m f)) fun k =>
        withFlags (p.extractLsb' 0 32 == 0) (p.getLsbD 31) false (decide (p.toInt < -(2 ^ 31) ∨ 2 ^ 31 ≤ p.toInt))
          { k with acc := intW (p.extractLsb' 0 32), y := intW (p.extractLsb' 32 32) })) ∧
    (SergeReady s x (.mem .div m f) → w.val ≠ 0 →
      exec (.div x m f) s = .next (sergeEnd u x (sergeNext s x (.mem .div m f)) fun k =>
        withFlags (a.sdiv w.val == 0) (a.sdiv w.val).msb false (a == 0x80000000 && w.val == 0xFFFFFFFF)
          { k with acc := intW (a.sdiv w.val), y := intW (a.srem w.val) })) ∧
    (SergeReady s x (.mem .div m f) → w.val = 0 → exec (.div x m f) s = .next (trap s x.core (trDiv, intW 0) (coreGet s x.core).pc.toNat))) ∧
  (∀ (s : State) (x : SCtx) (m : SMode) (f : BitVec 5) (w : W36) (u : State), Operand s x m f w u → m ≠ .imm →
    (SergeReady s x (.mem .ldx m f) → m ≠ .x →
      exec (.ldx x m f) s = .next (sergeEnd u x (sergeNext s x (.mem .ldx m f)) fun k => { k with x := w })) ∧
    (SergeReady s x (.mem .ldy m f) → m ≠ .y →
      exec (.ldy x m f) s = .next (sergeEnd u x (sergeNext s x (.mem .ldy m f)) fun k => { k with y := w }))) ∧
  (∀ (s : State) (x : SCtx) (f : BitVec 5),
    let i := immOf x.exts f
    (SergeReady s x (.mem .ldx .x f) → (coreGet s x.core).x.tag = tDaddr →
      exec (.ldx x .x f) s = .next (sergeEnd s x (sergeNext s x (.mem .ldx .x f)) fun k =>
        { k with x := daddrW (BitVec.ofInt 32 ((k.x.val.toNat + i) % 65536)) })) ∧
    (SergeReady s x (.mem .ldy .y f) → (coreGet s x.core).y.tag = tDaddr →
      exec (.ldy x .y f) s = .next (sergeEnd s x (sergeNext s x (.mem .ldy .y f)) fun k =>
        { k with y := daddrW (BitVec.ofInt 32 ((k.y.val.toNat + i) % 65536)) })) ∧
    (SergeReady s x (.mem .ldx .x f) → (coreGet s x.core).x.tag = tInt →
      exec (.ldx x .x f) s = .next (sergeEnd s x (sergeNext s x (.mem .ldx .x f)) fun k => { k with x := intW (k.x.val + BitVec.ofInt 32 i) })) ∧
    (SergeReady s x (.mem .ldy .y f) → (coreGet s x.core).y.tag = tInt →
      exec (.ldy x .y f) s = .next (sergeEnd s x (sergeNext s x (.mem .ldy .y f)) fun k => { k with y := intW (k.y.val + BitVec.ofInt 32 i) })) ∧
    (SergeReady s x (.mem .ldx .imm f) → 0 ≤ i → i ≤ 0xFFFF →
      exec (.ldx x .imm f) s = .next (sergeEnd s x (sergeNext s x (.mem .ldx .imm f)) fun k => { k with x := daddrW (BitVec.ofInt 32 i) })) ∧
    (SergeReady s x (.mem .ldy .imm f) → 0 ≤ i → i ≤ 0xFFFF →
      exec (.ldy x .imm f) s = .next (sergeEnd s x (sergeNext s x (.mem .ldy .imm f)) fun k => { k with y := daddrW (BitVec.ofInt 32 i) }))) ∧
  (∀ (s : State) (x : SCtx) (m : SMode) (f : BitVec 5) (u : State), SergeReady s x (.mem .ld m f) → m ≠ .imm → (coreGet s x.core).x.tag = tDaddr →
    (coreGet s x.core).y.tag = tDaddr → busRead s x.core (eaOf (coreGet s x.core) x.exts m f) = .ok {} u →
    exec (.ld x m f) s = .next (trap s x.core (trVoid, atData (eaOf (coreGet s x.core) x.exts m f)) (coreGet s x.core).pc.toNat)) ∧
  (∀ (s : State) (x : SCtx) (m : SMode) (f : BitVec 5), SergeReady s x (.mem .ld m f) → m ≠ .imm → (coreGet s x.core).x.tag = tDaddr →
    (coreGet s x.core).y.tag = tDaddr → eaOf (coreGet s x.core) x.exts m f < 0x8000 → eaOf (coreGet s x.core) x.exts m f ∈ (coreGet s x.core).badData →
    exec (.ld x m f) s = .next (trap s x.core (trEcc, atData (eaOf (coreGet s x.core) x.exts m f)) (coreGet s x.core).pc.toNat))

/-- With checks 1 to 4 passed, ST writes ACC at the operand's address in data RAM and no other word, or writes the engine register there; XMOV
copies a word with its tag and steps X and Y. JMP and CALL go to the CADDR operand or to the instruction word's address plus the
immediate, RET to LR and JMPA to ACC; CALL leaves the next address in LR. A target outside program memory traps BUS with LR and PC as they
were. Rests on R426, R427, R431, R432, R434, R438, R440, R483. -/
def Obligations.StoresAndJumpsComplete : Prop :=
  (∀ (s : State) (x : SCtx) (m : SMode) (f : BitVec 5) (w : W36) (t : State), SergeReady s x (.mem .st m f) → (coreGet s x.core).acc.tag ∈ anyTag →
    ((m = .x → (coreGet s x.core).x.tag = tDaddr) ∧ (m = .y → (coreGet s x.core).y.tag = tDaddr)) →
    let ea := eaOf (coreGet s x.core) x.exts m f
    (ea < 0x8000 → exec (.st x m f) s = .next (sergeEnd (ramPut s x.core ea (coreGet s x.core).acc) x (sergeNext s x (.mem .st m f)) id)) ∧
    (busWrite s x.core ea (coreGet s x.core).acc = .ok w t → exec (.st x m f) s = .next (sergeEnd t x (sergeNext s x (.mem .st m f)) id)) ∧
    (∀ i, busWrite s x.core ea (coreGet s x.core).acc = .bad i false → exec (.st x m f) s = .next (trap s x.core i (coreGet s x.core).pc.toNat))) ∧
  (∀ (s : State) (x : SCtx) (f : BitVec 5) (w w' : W36) (u t : State), SergeReady s x (.xmov f) → (coreGet s x.core).x.tag = tDaddr →
    (coreGet s x.core).y.tag = tDaddr → w.tag ∈ anyTag →
    let k := coreGet s x.core
    busRead s x.core (wrapAddr k.x.val (offsetOf x.exts f)) = .ok w u → busWrite u x.core (k.y.val.toNat % 65536) w = .ok w' t →
    coreGet u x.core = k → (coreGet t x.core).x = k.x → (coreGet t x.core).y = k.y →
    exec (.xmov x f) s = .next (sergeEnd t x (sergeNext s x (.xmov f)) fun j => { j with
      x := daddrW (BitVec.ofNat 32 ((k.x.val.toNat + 1) % 65536)), y := daddrW (BitVec.ofNat 32 ((k.y.val.toNat + 1) % 65536)) })) ∧
  (∀ (s : State) (x : SCtx) (m : SMode) (f : BitVec 5) (w : W36) (u : State), Operand s x m f w u → m ≠ .imm → w.tag = tCaddr →
    (w.val.toNat < progEnd x.core →
      (SergeReady s x (.mem .jmp m f) → exec (.jmp x m f) s = .next (sergeEnd u x w.val.toNat id)) ∧
      (SergeReady s x (.mem .call m f) → exec (.call x m f) s = .next (sergeEnd u x w.val.toNat fun k =>
        { k with lr := caddrW (BitVec.ofNat 14 (sergeNext s x (.mem .call m f))) }))) ∧
    (progEnd x.core ≤ w.val.toNat →
      (SergeReady s x (.mem .jmp m f) →
        exec (.jmp x m f) s = .next (trap s x.core (trBus, intW (BitVec.ofNat 32 (0x20000 + w.val.toNat))) (coreGet s x.core).pc.toNat)) ∧
      (SergeReady s x (.mem .call m f) →
        exec (.call x m f) s = .next (trap s x.core (trBus, intW (BitVec.ofNat 32 (0x20000 + w.val.toNat))) (coreGet s x.core).pc.toNat)))) ∧
  (∀ (s : State) (x : SCtx) (f : BitVec 5) (t : Nat),
    ((sergeNext s x (.mem .jmp .imm f) : Int) - 1 + immOf x.exts f = t → t < progEnd x.core → SergeReady s x (.mem .jmp .imm f) →
      exec (.jmp x .imm f) s = .next (sergeEnd s x t id)) ∧
    ((sergeNext s x (.mem .call .imm f) : Int) - 1 + immOf x.exts f = t → t < progEnd x.core → SergeReady s x (.mem .call .imm f) →
      exec (.call x .imm f) s = .next (sergeEnd s x t fun k => { k with lr := caddrW (BitVec.ofNat 14 (sergeNext s x (.mem .call .imm f))) }))) ∧
  (∀ (s : State) (x : SCtx), SergeReady s x (.group .ret) → (coreGet s x.core).lr.tag = tCaddr → (coreGet s x.core).lr.val.toNat < progEnd x.core →
    exec (.ret x) s = .next (sergeEnd s x (coreGet s x.core).lr.val.toNat id)) ∧
  (∀ (s : State) (x : SCtx), SergeReady s x (.group .jmpa) → (coreGet s x.core).acc.tag = tCaddr → (coreGet s x.core).acc.val.toNat < progEnd x.core →
    exec (.jmpa x) s = .next (sergeEnd s x (coreGet s x.core).acc.val.toNat id))

/-- EI sets IE when the next instruction completes. HALT stops its core. WAIT completes at once with a source pending and enabled, then taking
the interrupt where IE and the state allow it, else it waits, and WAIT_COMPLETE ends it so. SVC enters the SVC vector with the next
address saved; from owner code its service is carried out, with ACC holding the result and X, DP and LR unchanged. IRET restores the frame of its state. A repeat prefix starts a repeat of its count, whose iterations execute one at a time,
stepping the index register; the last one goes on to the next word. Words that fail checks 1 to 3 trap with their cause; outside TRAP
only; in boot ROM the entry ends at once in its handler, which posts FAILED for the core and halts it (R512). Rests on R440, R442, R443, R444, R446, R448, R449, R451, R453, R454, R460, R522. -/
def Obligations.ControlInstructionsAct : Prop :=
  (∀ (s : State) (x : SCtx), SergeReady s x (.group .ei) → exec (.ei x) s
    = .next (coreUpd s x.core fun k => setPc x.core (sergeNext s x (.group .ei)) { k with ie := k.ie || k.eiNext, eiNext := true })) ∧
  (∀ (s : State) (x : SCtx), SergeReady s x (.group .halt) → ∃ t, exec (.halt x) s = .next t ∧ (coreGet t x.core).halted = true ∧
    (coreGet t x.core).pc = (coreGet s x.core).pc ∧ (coreGet t x.core).acc = (coreGet s x.core).acc ∧ (coreGet t x.core).ram = (coreGet s x.core).ram) ∧
  (∀ (s : State) (x : SCtx), SergeReady s x (.group .wait) →
    (pendingSource s x.core = none → exec (.wait x) s = .next (coreUpd s x.core fun k => { k with waiting := true })) ∧
    (∀ n, pendingSource s x.core = some n → (coreGet s x.core).ie = false → (coreGet s x.core).eiNext = false →
      exec (.wait x) s = .next (sergeEnd s x (sergeNext s x (.group .wait)) id)) ∧
    (∀ n, pendingSource s x.core = some n → (coreGet s x.core).ie = true → (coreGet s x.core).st = .normal →
      exec (.wait x) s = .next (takeIrq (sergeEnd s x (sergeNext s x (.group .wait)) id) x.core n (sergeNext s x (.group .wait))))) ∧
  (∀ (s : State) (c : CoreId) (n : Nat), coreLive s c = true → (coreGet s c).waiting = true → pendingSource s c = some n →
    (coreGet s c).ie = true → (coreGet s c).st = .normal →
    ∃ t, exec (.waitComplete c) s = .next t ∧ (coreGet t c).waiting = false ∧ (coreGet t c).pc = 0x824 ∧ (coreGet t c).st = .interrupt ∧
      (coreGet t c).ie = false ∧ (twf {} (coreGet s c).ram = true → ramGet t c 0x7FE0 = caddrW (BitVec.ofNat 14 ((coreGet s c).pc.toNat + 1)) ∧
        ramGet t c 0x7FE3 = intW (BitVec.ofNat 32 (0x100 + n)))) ∧
  (∀ (s : State) (x : SCtx), SergeReady s x (.group .svc) → (coreGet s x.core).st ≠ .trap → ownerCode s x.core = false → exec (.svc x) s
    = .next (if (coreGet s x.core).pc.toNat < 0x800 then romHandler (enter s x.core false 8 (intW 0) (sergeNext s x (.group .svc)) 0 0x20) x.core
        else enter s x.core false 8 (intW 0) (sergeNext s x (.group .svc)) 0x800 0x20)) ∧
  (∀ (s : State) (x : SCtx), SergeReady s x (.group .svc) → (coreGet s x.core).st ≠ .trap → ownerCode s x.core = true → x.core ≠ .g →
    let k := coreGet s x.core
    let p := service (enter s x.core false 8 (intW 0) (sergeNext s x (.group .svc)) 0x800 0x20) x.core
    ∃ t, exec (.svc x) s = .next t ∧ (coreGet t x.core).acc = intW (BitVec.ofNat 32 p.1) ∧ (coreGet t x.core).x = k.x ∧ (coreGet t x.core).lr = k.lr ∧
      (coreGet t x.core).dp = k.dp ∧ (coreGet t x.core).st = k.st ∧ (coreGet t x.core).pc = BitVec.ofNat 15 (sergeNext s x (.group .svc)) ∧
      t.unit.posts = p.2.unit.posts ∧ t.store = p.2.store ∧ t.dig = p.2.dig) ∧
  (∀ (s : State) (c : CoreId) (k : Core), coreGet s c = k → k.acc = intW 4 → k.y.tag = tInt →
    (k.y.val.toNat ≤ 255 → service s c = (0, dbAlert (append s (.serge c) 1 0x01F0 (0xFFFFFF00 + k.y.val.toNat) []))) ∧
    (255 < k.y.val.toNat → service s c = (2, s))) ∧
  (∀ (s : State) (c : CoreId) (k : Core) (id n a : Nat), coreGet s c = k → k.acc = intW 2 → k.y.tag = tDaddr →
    descriptor s c k.y.val.toNat = some (id, n, a) →
    (4000 < n → service s c = (1, s)) ∧ (n ≤ 4000 → 0xFFFFFEFF < id → service s c = (2, s)) ∧
    (∀ b, n ≤ 4000 → id ≤ 0xFFFFFEFF → readStr s c a n = some b → service s c = (0, append s (.serge c) 1 0x01F0 id b))) ∧
  (∀ (s : State) (x : SCtx), SergeReady s x (.group .iret) → (coreGet s x.core).st ≠ .normal →
    let f := if (coreGet s x.core).st = .trap then 0x7FE8 else 0x7FE0
    let pc := ramGet s x.core f
    let sw := ramGet s x.core (f + 1)
    let rc := ramGet s x.core (f + 2)
    (∀ i < 3, f + i ∉ (coreGet s x.core).badData) → pc.tag = tCaddr → sw.tag = tBits → rc.tag = tInt → rc.val.toNat ≤ 65536 →
    sw.val.extractLsb' 5 2 = 0 ∨ (sw.val.extractLsb' 5 2 = 1 ∧ (coreGet s x.core).st = .trap) → (coreGet s x.core).eiNext = false →
    exec (.iret x) s = .next (coreUpd s x.core fun k => setPc x.core pc.val.toNat { withFlags (sw.val.getLsbD 0) (sw.val.getLsbD 1) (sw.val.getLsbD 2) (sw.val.getLsbD 3) k with
      ie := sw.val.getLsbD 4, dp := sw.val.extractLsb' 8 11, repc := rc.val.toNat, st := if sw.val.extractLsb' 5 2 = 0 then .normal else .interrupt })) ∧
  (∀ (s : State) (x : SCtx) (m : SMode) (f : BitVec 5) (n : Nat) (i : Bool), x.rep = .rep n i → SergeReady s { x with rep := .none } (.mem .ld m f) →
    isInstr x (.mem .ld m f) = true → frontCheck x.core (coreGet s x.core).badProg (coreGet s x.core).pc.toNat (seqWords x (.mem .ld m f)) = none →
    (m = .x → (coreGet s x.core).x.tag = tDaddr) → (m = .y → (coreGet s x.core).y.tag = tDaddr) →
    exec (.ld x m f) s = .next (coreUpd s x.core fun k => { k with rep := some { x := x, op := .mem .ld m f, left := n } })) ∧
  (∀ (s : State) (c : CoreId) (r : RepState) (k : Core), coreLive s c = true → (coreGet s c).rep = some r → r.x.core = c → regCheck (coreGet s c) false r.op = none →
    takeable s c = none → ∀ t : State, iter r.x r.op s = .ok t none → coreOn t c = true → coreGet t c = k →
    (1 < r.left → exec (.repeatIteration c) s = .next (coreUpd t c fun _ => stepIndex r.op { k with rep := some { r with left := r.left - 1 } })) ∧
    (r.left = 1 → ∃ u, exec (.repeatIteration c) s = .next u ∧ (coreGet u c).rep = none ∧ (coreGet u c).repc = 0 ∧
      (coreGet u c).pc = BitVec.ofNat 15 ((coreGet s c).pc.toNat + (seqWords r.x r.op).length) ∧ (coreGet u c).acc = k.acc)) ∧
  (∀ (s : State) (c : CoreId) (r : RepState) (sh : ShiftOp) (f : BitVec 5), coreLive s c = true → (coreGet s c).rep = some r → r.x.core = c →
    r.op = .shift sh f → (coreGet s c).acc.tag ∈ [tInt, tBits] → takeable s c = none →
    (1 < r.left → exec (.repeatIteration c) s
      = .next (coreUpd s c fun k => { shiftAcc sh (f.toNat + 1) k with rep := some { r with left := r.left - 1 } })) ∧
    (r.left ≤ 1 → exec (.repeatIteration c) s
      = .next (sergeEnd s r.x ((coreGet s c).pc.toNat + (seqWords r.x r.op).length) (shiftAcc sh (f.toNat + 1))))) ∧
  (∀ (s : State) (c : CoreId) (r : RepState) (m : SMode) (f : BitVec 5) (w : W36) (u : State), coreLive s c = true → (coreGet s c).rep = some r →
    r.x.core = c → r.op = .mem .ld m f → Operand s r.x m f w u → coreOn u c = true → takeable s c = none →
    let ld := fun k : Core => if w.tag = tHandle ∨ w.tag = tCaddr then withFlags false false k.c k.v { k with acc := w }
      else withFlags (w.val == 0) w.val.msb k.c k.v { k with acc := w }
    (1 < r.left → exec (.repeatIteration c) s
      = .next (coreUpd u c fun k => stepIndex r.op { ld k with rep := some { r with left := r.left - 1 } })) ∧
    (r.left ≤ 1 → exec (.repeatIteration c) s
      = .next (sergeEnd u r.x ((coreGet s c).pc.toNat + (seqWords r.x r.op).length) fun k => stepIndex r.op (ld k)))) ∧
  (∀ (s : State) (c : CoreId) (r : RepState) (m : SMode) (f : BitVec 5), coreLive s c = true → (coreGet s c).rep = some r →
    r.x.core = c → r.op = .mem .st m f → (coreGet s c).acc.tag ∈ anyTag → ((m = .x → (coreGet s c).x.tag = tDaddr) ∧ (m = .y → (coreGet s c).y.tag = tDaddr)) →
    eaOf (coreGet s c) r.x.exts m f < 0x8000 → takeable s c = none →
    let u := ramPut s c (eaOf (coreGet s c) r.x.exts m f) (coreGet s c).acc
    (1 < r.left → exec (.repeatIteration c) s
      = .next (coreUpd u c fun k => stepIndex r.op { k with rep := some { r with left := r.left - 1 } })) ∧
    (r.left ≤ 1 → exec (.repeatIteration c) s
      = .next (sergeEnd u r.x ((coreGet s c).pc.toNat + (seqWords r.x r.op).length) (stepIndex r.op)))) ∧
  (∀ (s : State) (c : CoreId) (ws : List (BitVec 14)) (i : TrapInfo), coreLive s c = true → (coreGet s c).waiting = false → (coreGet s c).rep = none → ws ≠ [] →
    frontCheck c (coreGet s c).badProg (coreGet s c).pc.toNat ws = some i → (coreGet s c).st ≠ .trap →
    exec (.undefinedInstruction c ws) s
      = .next (if (coreGet s c).pc.toNat < 0x800 then romHandler (enter s c false i.1 i.2 (coreGet s c).pc.toNat 0 (4 * i.1)) c
        else enter s c false i.1 i.2 (coreGet s c).pc.toNat 0x800 (4 * i.1)))

/-- The block takes its commands first in, first out: with command c at the front, a step answers what c answers on the state whose queue is
the rest, and with no command waiting a step leaves the state as it is. The queue is the model's own (log entries 6 and 50). Rests on R12,
R16. -/
def Obligations.StepRunsTheFrontCommand : Prop :=
  (∀ (s : State) (c : Instr) (rest : List Instr), s.pending = c :: rest → step s = exec c { s with pending := rest }) ∧
  (∀ (s : State), s.pending = [] → step s = .next s)

/-- In the state after reset ACC, X, Y and LR of every core hold VOID words of value 0, PC, DP, REPC and the flags are 0 and the state is
NORMAL; every word of data RAM is VOID; the unit table holds every unit that the variant lacks as ABSENT; the data plane is closed, the
main die unpowered, the READY pin low and the queue empty. The fused variant and life cycle of the device are the model's choice (log
entry 2). Rests on R3, R417, R418. -/
def Obligations.ResetStateIsSound : Prop :=
  (∀ (c : CoreId), coreGet State.reset c = {} ∧ (coreGet State.reset c).acc = { tag := tVoid, val := 0 } ∧ (coreGet State.reset c).pc = 0 ∧
    (coreGet State.reset c).st = .normal ∧ ∀ a, ramGet State.reset c a = { tag := tVoid, val := 0 }) ∧
  UnitsInv State.reset ∧ (∀ v u, unitFitted v u = false → (tget {} (freshUnits v) u).st = .absent) ∧
  State.reset.hq.open_ = false ∧ State.reset.pow.mainUp = false ∧ State.reset.pow.readyPin = false ∧ State.reset.pending = [] ∧
  lifecycle State.reset = 1 ∧ planeOpen State.reset = false

/-- Let the unit table hold one entry for a unit, with every unit that the variant lacks ABSENT; so does the state after any step, of the same
variant, and a unit that is ABSENT before the step is ABSENT after it. The table of a device that has had no unit change holds the lacking
units so, for every variant. Rests on R3. -/
def Obligations.AbsentUnitsStayAbsent : Prop :=
  (∀ (s t : State), UnitsInv s → step s = .next t → UnitsInv t ∧ t.pow.variant = s.pow.variant ∧ ∀ u, unitSt s u = .absent → unitSt t u = .absent) ∧
  (∀ v u, unitFitted v u = false → (tget {} (freshUnits v) u).st = .absent)

/-- Where the data plane is closed before a step and open after it, the life-cycle state after the step is OPERATIONAL. Rests on R572. -/
def Obligations.DataPlaneOpensOnlyInOperational : Prop :=
  ∀ (s t : State), step s = .next t → s.hq.open_ = false → t.hq.open_ = true → lifecycle t = 3

/-- Where the life-cycle fuse reads RETIRED before a step, it reads RETIRED after it, and a blown root-kill fuse stays blown; the life-cycle
state is then RETIRED before and after. Rests on R571, R574. -/
def Obligations.RetirementIsFinal : Prop :=
  ∀ (s t : State), step s = .next t → (s.key.fuse = 3 → t.key.fuse = 3 ∧ lifecycle s = 5 ∧ lifecycle t = 5) ∧ (s.key.rootKill = true → t.key.rootKill = true)

/-- For every condition code and operation whose word is a defined encoding, the word of the instruction spells that condition code and
operation and no other; every word that is no prefix and is a defined encoding is the word of the condition code and operation it spells.
Rests on R428, R434, R440, R469. -/
def Obligations.InstructionWordsRoundTrip : Prop :=
  (∀ (x : SCtx) (op : SOp), isInstr x op = true → isDefined (instrWord x.cond op) = true → instrOf (instrWord x.cond op) = some (x.cond, op)) ∧
  (∀ (w : BitVec 14) (c : BitVec 3) (op : SOp), instrOf w = some (c, op) → instrWord c op = w ∧ isInstr { cond := c } op = true) ∧
  (∀ (w : BitVec 14), isPrefix w = false → isDefined w = true → (instrOf w).isSome = true)

/-- For each of the seven condition codes the words of each range are defined or not as the encoding table lists and spell the operation the
table names there; the prefix words are defined as listed; the counts of defined and undefined words are the table's. Rests on R469. -/
def Obligations.InstructionWordsAreAccountedFor : Prop :=
  (∀ (c : Fin 7) (n : Fin 0x800), let w := BitVec.ofNat 14 (c.val * 0x800 + n.val)
    isDefined w = !((decide (0xE0 ≤ n.val) && decide (n.val ≤ 0xFF)) || (decide (0x720 ≤ n.val) && decide (n.val ≤ 0x77F)) || n.val == 0x79F) ∧
    (isDefined w = true → match instrOf w with
      | some (k, .mem op _ _) => k.toNat = c.val ∧ opCode op = n.val / 128 ∧ n.val < 0x700
      | some (k, .xmov _) => k.toNat = c.val ∧ 0x700 ≤ n.val ∧ n.val ≤ 0x71F
      | some (k, .group g) => k.toNat = c.val ∧ groupCode g + 0x780 = n.val ∧ n.val ≤ 0x79E
      | some (k, .shift _ _) => k.toNat = c.val ∧ 0x7A0 ≤ n.val
      | none => False)) ∧
  (∀ (n : Fin 0x800), let w := BitVec.ofNat 14 (0x3800 + n.val)
    isDefined w = (decide (n.val < 0x400) || n.val == 0x400 || n.val == 0x500) ∧ isExt w = decide (n.val < 0x200) ∧
    isRep w = (decide (0x200 ≤ n.val) && decide (n.val < 0x600)) ∧ instrOf w = none) ∧
  ((List.range 16384).countP fun n => isDefined (BitVec.ofNat 14 n)) = 14459 ∧ ((List.range 16384).countP fun n => !isDefined (BitVec.ofNat 14 n)) = 1925

/-- Entry writes the return address, the status word, REPC, the cause, the fault word and three zeros into the frame of its kind and no other
word of data RAM; the status word holds the flags, IE, the state before entry and DP in their places and zeros elsewhere; IE and REPC
become 0, DP 0x3FF, the state TRAP or INTERRUPT, PC the vector; the tagged registers and flags stay. Rests on R457, R458. -/
def Obligations.EntryWritesTheFrame : Prop :=
  (∀ (s : State) (c : CoreId) (intr : Bool) (cause : Nat) (fault : W36) (resume base off : Nat), twf {} (coreGet s c).ram = true →
    let k := coreGet s c
    let t := enter s c intr cause fault resume base off
    let f := if intr then 0x7FE0 else 0x7FE8
    ramGet t c f = caddrW (BitVec.ofNat 14 resume) ∧ ramGet t c (f + 1) = bitsW (statusWord k) ∧ ramGet t c (f + 2) = intW (BitVec.ofNat 32 k.repc) ∧
    ramGet t c (f + 3) = intW (BitVec.ofNat 32 cause) ∧ ramGet t c (f + 4) = fault ∧ ramGet t c (f + 5) = intW 0 ∧ ramGet t c (f + 6) = intW 0 ∧
    ramGet t c (f + 7) = intW 0 ∧ (∀ a, a < f ∨ f + 7 < a → ramGet t c a = ramGet s c a) ∧
    (coreGet t c).ie = false ∧ (coreGet t c).repc = 0 ∧ (coreGet t c).dp = 0x3FF ∧ (coreGet t c).st = (if intr then .interrupt else .trap) ∧
    (coreGet t c).pc = BitVec.ofNat 15 (base + off) ∧ (coreGet t c).acc = k.acc ∧ (coreGet t c).x = k.x ∧ (coreGet t c).y = k.y ∧ (coreGet t c).lr = k.lr ∧
    (coreGet t c).z = k.z ∧ (coreGet t c).n = k.n ∧ (coreGet t c).c = k.c ∧ (coreGet t c).v = k.v ∧ ∀ d, d ≠ c → coreGet t d = coreGet s d) ∧
  (∀ (k : Core), (statusWord k).getLsbD 0 = k.z ∧ (statusWord k).getLsbD 1 = k.n ∧ (statusWord k).getLsbD 2 = k.c ∧ (statusWord k).getLsbD 3 = k.v ∧
    (statusWord k).getLsbD 4 = k.ie ∧ (statusWord k).extractLsb' 5 2 = (match k.st with | .normal => 0 | .interrupt => 1 | .trap => 2) ∧
    (statusWord k).getLsbD 7 = false ∧ (statusWord k).extractLsb' 8 11 = k.dp ∧ (statusWord k).extractLsb' 19 13 = 0)

/-- In state TRAP a trap of any cause is what HALT does; the core is halted with its registers, flags, PC, state, frame and every other word
of its data RAM as they were, and so is every other core's. Rests on R461. -/
def Obligations.DoubleTrapsStopTheCore : Prop :=
  ∀ (s : State) (c : CoreId) (i : TrapInfo) (resume : Nat), (coreGet s c).st = .trap →
    trap s c i resume = haltCore s c ∧
    ((coreGet s c).halted = false → coreGet (trap s c i resume) c = { coreGet s c with halted := true, waiting := false, rep := none } ∧
      (∀ d, d ≠ c → coreGet (trap s c i resume) d = coreGet s d) ∧ ∀ d a, ramGet (trap s c i resume) d a = ramGet s d a)

/-- The address of every mode is below 2^16: the page and field of a direct address, the composite of one with EXT, and the sum of index
register and offset modulo 2^16, as are both addresses of XMOV and a pointer moved by LDX or LDY. Rests on R432. -/
def Obligations.DataAddressesWrap : Prop :=
  (∀ (k : Core) (es : List (BitVec 9)) (m : SMode) (f : BitVec 5), eaOf k es m f < 65536 ∧
    (m = .direct → es = [] → eaOf k es m f = (k.dp ++ f).toNat) ∧
    (m = .x → (eaOf k es m f : Int) = (k.x.val.toNat + offsetOf es f) % 65536) ∧
    (m = .y → (eaOf k es m f : Int) = (k.y.val.toNat + offsetOf es f) % 65536)) ∧
  (∀ (w : W36) (o : Int), w.tag = tDaddr → (movePtr w o).tag = tDaddr ∧ ((movePtr w o).val.toNat : Int) = (w.val.toNat + o) % 65536)

/-- On a running core in NORMAL with IE set, between instructions, with source n pending and enabled and no lower source both pending and
enabled, interrupt entry leaves the cause 0x100 + n in the frame, and the return address is the next instruction's. With none both pending
and enabled nothing happens. Rests on R494. -/
def Obligations.LowestPendingSourceIsTaken : Prop :=
  ∀ (s : State) (c : CoreId), coreLive s c = true → (coreGet s c).waiting = false → (coreGet s c).rep = none → (coreGet s c).st = .normal →
    (coreGet s c).ie = true → twf {} (coreGet s c).ram = true →
    let both := fun (n : Nat) => (pendingBits s c).getLsbD n && (tget 0 s.unit.irqEn (coreIdx c)).getLsbD n
    (∀ n, both n = true → (∀ m, m < n → both m = false) → ∃ t, exec (.interruptEntry c) s = .next t ∧ ramGet t c 0x7FE3 = intW (BitVec.ofNat 32 (0x100 + n)) ∧
      ramGet t c 0x7FE0 = caddrW (BitVec.ofNat 14 (coreGet s c).pc.toNat) ∧ (coreGet t c).pc = 0x824 ∧ (coreGet t c).st = .interrupt) ∧
    ((∀ n, both n = false) → exec (.interruptEntry c) s = .next s)

/-- With checks 1 to 6 passed, an instruction with a memory operand, or XMOV, whose read returns a VOID word traps VOIDLOAD, and one whose
read returns a word of a reserved tag traps TAGFAULT, with the data address as fault word. A store, or an XMOV, of a HANDLE or CADDR word
to a data address from 0xC000 to 0xFFFF traps TAGFAULT at that address. Rests on R425, R427. -/
def Obligations.ReadsAndStoresCheckTags : Prop :=
  (∀ (i : Instr) (s : State) (x : SCtx) (op : MOp) (m : SMode) (f : BitVec 5) (w : W36) (u : State), sergeOp i = some (x, .mem op m f) →
    SergeReady s x (.mem op m f) → regCheck (coreGet s x.core) false (.mem op m f) = none → op ≠ .st → m ≠ .imm → ¬ (op = .ldx ∧ m = .x) → ¬ (op = .ldy ∧ m = .y) →
    let ea := eaOf (coreGet s x.core) x.exts m f
    busRead s x.core ea = .ok w u →
    (w.tag = 0 → exec i s = .next (trap s x.core (trVoid, atData ea) (coreGet s x.core).pc.toNat)) ∧
    (6 ≤ w.tag.toNat → exec i s = .next (trap s x.core (trTag, atData ea) (coreGet s x.core).pc.toNat))) ∧
  (∀ (s : State) (x : SCtx) (f : BitVec 5) (w : W36) (u : State), SergeReady s x (.xmov f) → regCheck (coreGet s x.core) false (.xmov f) = none →
    let a := wrapAddr (coreGet s x.core).x.val (offsetOf x.exts f)
    let b := (coreGet s x.core).y.val.toNat % 65536
    busRead s x.core a = .ok w u →
    (w.tag = 0 → exec (.xmov x f) s = .next (trap s x.core (trVoid, atData a) (coreGet s x.core).pc.toNat)) ∧
    (6 ≤ w.tag.toNat → exec (.xmov x f) s = .next (trap s x.core (trTag, atData a) (coreGet s x.core).pc.toNat)) ∧
    (w.tag = tHandle ∨ w.tag = tCaddr → x.core ≠ .g → 0xC000 ≤ b →
      exec (.xmov x f) s = .next (trap s x.core (trTag, atData b) (coreGet s x.core).pc.toNat))) ∧
  (∀ (s : State) (x : SCtx) (m : SMode) (f : BitVec 5), SergeReady s x (.mem .st m f) → regCheck (coreGet s x.core) false (.mem .st m f) = none → m ≠ .imm →
    let ea := eaOf (coreGet s x.core) x.exts m f
    (coreGet s x.core).acc.tag = tHandle ∨ (coreGet s x.core).acc.tag = tCaddr → x.core ≠ .g → 0xC000 ≤ ea →
    exec (.st x m f) s = .next (trap s x.core (trTag, atData ea) (coreGet s x.core).pc.toNat))

/-- With checks 1 to 4 passed, a JMP or CALL of any mode whose target lies outside the core's program memory traps BUS with the program
address as fault word; outside state TRAP, LR keeps its word, and the saved PC is the address of the instruction's first word. Rests on
R438. -/
def Obligations.JumpsOutsideProgramMemoryTrap : Prop :=
  ∀ (i : Instr) (s : State) (x : SCtx) (op : MOp) (m : SMode) (f : BitVec 5) (w : W36) (u : State) (t : Int), sergeOp i = some (x, .mem op m f) → op = .jmp ∨ op = .call →
    SergeReady s x (.mem op m f) → Operand s x m f w u → (m ≠ .imm → w.tag = tCaddr) →
    t = (if m = .imm then (sergeNext s x (.mem op m f) : Int) - 1 + immOf x.exts f else w.val.toNat) → t < 0 ∨ (progEnd x.core : Int) ≤ t →
    exec i s = .next (trap s x.core (trBus, intW (BitVec.ofInt 32 (0x20000 + t))) (coreGet s x.core).pc.toNat) ∧
    ((coreGet s x.core).st ≠ .trap → twf {} (coreGet s x.core).ram = true → ∀ v, exec i s = .next v → (coreGet v x.core).lr = (coreGet s x.core).lr ∧
      ramGet v x.core 0x7FE8 = caddrW (BitVec.ofNat 14 (coreGet s x.core).pc.toNat))

/-- The 32-bit read at 0x0108 returns bits 31..0 of the device time and latches bits 63..32; a 32-bit read at 0x010C returns the latch and
changes nothing; a 64-bit read is the whole time and leaves the latch; after a function reset the latch is 0. A host that does not reach the
registers changes nothing. Rests on R99. -/
def Obligations.DeviceTimeIsLatched : Prop :=
  (∀ (s : State), (bar0Read32 s 0x108).1 = BitVec.ofNat 32 s.time.mUs ∧ (bar0Read32 s 0x108).2.hq.timeLatch = (BitVec.ofNat 64 s.time.mUs).extractLsb' 32 32 ∧
    (hostReach s = true → exec .devTimeLowRead s = .next (bar0Read32 s 0x108).2 ∧
      ∃ t, exec .devTimeLowRead s = .next t ∧ (bar0Read32 t 0x10C).1 = (BitVec.ofNat 64 s.time.mUs).extractLsb' 32 32) ∧
    (hostReach s = false → exec .devTimeLowRead s = .next s) ∧
    bar0Read32 s 0x10C = (s.hq.timeLatch, s) ∧ bar0 s 0x108 = BitVec.ofNat 64 s.time.mUs) ∧
  State.reset.hq.timeLatch = 0 ∧ (∀ (s : State), ∃ t, exec .functionLevelReset s = .next t ∧ t.hq.timeLatch = 0 ∧ (bar0Read32 t 0x10C).1 = 0)

/-- A global serial made of an epoch, a 12-bit node address and a 40-bit local serial is 56 bits wide and its fields read back as they were
put in; every 56-bit serial is made of its fields. Rests on R46, R47. -/
def Obligations.SerialsReadBack : Prop :=
  (∀ (e : BitVec 4) (h l : Nat), h < 4096 → l < 2 ^ 40 → serialOf e h l < 2 ^ 56 ∧ serialEpoch (serialOf e h l) = e ∧ serialHome (serialOf e h l) = h ∧
    serialLocal (serialOf e h l) = l) ∧
  (∀ (g : Nat), g < 2 ^ 56 → serialOf (serialEpoch g) (serialHome g) (serialLocal g) = g)

/-- After an instruction that stores to no engine register, every HANDLE or CADDR word that a register or a word of data RAM of its core holds
was held there before it, or is a word read from a data address, or is the CADDR of a return address: the one CALL leaves in LR or entry
leaves in its frame. Rests on R422, R424, R457. -/
def Obligations.WordsAreNotForged : Prop :=
  ∀ (i : Instr) (x : SCtx) (op : SOp) (s t : State) (w : W36), sergeOp i = some (x, op) →
    (∀ m f, op = .mem .st m f → eaOf (coreGet s x.core) x.exts m f < 0x8000) → (∀ f, op = .xmov f → (coreGet s x.core).y.val.toNat % 65536 < 0x8000) →
    exec i s = .next t → w.tag = tHandle ∨ w.tag = tCaddr → Holds t x.core w →
    Holds s x.core w ∨ (∃ a u, busRead s x.core a = .ok w u) ∨
      (∃ n, n ≤ (seqWords x op).length ∧ w = caddrW (BitVec.ofNat 14 ((coreGet s x.core).pc.toNat + n)))

/-- With checks 1 to 4 passed and ACC of a tag that the operation takes, ADD, SUB, AND, OR, XOR, MUL and DIV leave in ACC a word of the tag
that the tag table gives for the tags of ACC and operand, a zero divisor apart; for a pair of tags that the table does not list they trap
TAGFAULT, naming the operand. Rests on R423, R424, R454. -/
def Obligations.OperandTagsFollowTheTable : Prop :=
  ∀ (i : Instr) (s : State) (x : SCtx) (op : MOp) (m : SMode) (f : BitVec 5) (w : W36) (u : State), sergeOp i = some (x, .mem op m f) →
    op ∈ [MOp.add, .sub, .and, .or, .xor, .mul, .div] → SergeReady s x (.mem op m f) → Operand s x m f w u → coreOn u x.core = true →
    (∀ r, ((coreGet s x.core).acc.tag, w.tag, r) ∈ tagTable op → (op = .div → w.val ≠ 0) → ∃ t, exec i s = .next t ∧ (coreGet t x.core).acc.tag = r) ∧
    ((∃ r q, ((coreGet s x.core).acc.tag, q, r) ∈ tagTable op) → (∀ r, ((coreGet s x.core).acc.tag, w.tag, r) ∉ tagTable op) →
      exec i s = .next (trap s x.core (trTag, if m = .imm then atReg 0 else atData (eaOf (coreGet s x.core) x.exts m f)) (coreGet s x.core).pc.toNat))
end

