-- ==== Sys2Proof/Laws/Frame.lean ====
section
/-! SUPPORT. How frames compose, and the frame of every named update. -/

namespace Sys2Proof.Machine

theorem Keeps.refl (l : List Part) (s : State) : Keeps l s s := fun p _ => by cases p <;> rfl

theorem Keeps.trans {l : List Part} {s t u : State} (h : Keeps l s t) (k : Keeps l t u) : Keeps l s u := by
  intro p hp
  have a := h p hp
  have b := k p hp
  cases p <;> exact Eq.trans b a

theorem Keeps.mono {l m : List Part} {s t : State} (h : Keeps l s t) (hl : ∀ p, p ∈ l → p ∈ m) : Keeps m s t :=
  fun p hp => h p fun q => hp (hl p q)

theorem keeps_onHq (s : State) (f : _ → _) : Keeps [.hq] s (s.onHq f) := fun p hp => by cases p <;> first | rfl | simp at hp
theorem keeps_onLane (s : State) (f : _ → _) : Keeps [.lane] s (s.onLane f) := fun p hp => by cases p <;> first | rfl | simp at hp
theorem keeps_onHbm (s : State) (f : _ → _) : Keeps [.hbm] s (s.onHbm f) := fun p hp => by cases p <;> first | rfl | simp at hp
theorem keeps_onLed (s : State) (f : _ → _) : Keeps [.led] s (s.onLed f) := fun p hp => by cases p <;> first | rfl | simp at hp
theorem keeps_onDrives (s : State) (f : _ → _) : Keeps [.drives] s (s.onDrives f) := fun p hp => by cases p <;> first | rfl | simp at hp
theorem keeps_onFab (s : State) (f : _ → _) : Keeps [.fab] s (s.onFab f) := fun p hp => by cases p <;> first | rfl | simp at hp
theorem keeps_onKey (s : State) (f : _ → _) : Keeps [.key] s (s.onKey f) := fun p hp => by cases p <;> first | rfl | simp at hp
theorem keeps_onDig (s : State) (f : _ → _) : Keeps [.dig] s (s.onDig f) := fun p hp => by cases p <;> first | rfl | simp at hp
theorem keeps_onRng (s : State) (f : _ → _) : Keeps [.rng] s (s.onRng f) := fun p hp => by cases p <;> first | rfl | simp at hp
theorem keeps_onStore (s : State) (f : _ → _) : Keeps [.store] s (s.onStore f) := fun p hp => by cases p <;> first | rfl | simp at hp
theorem keeps_onTime (s : State) (f : _ → _) : Keeps [.time] s (s.onTime f) := fun p hp => by cases p <;> first | rfl | simp at hp
theorem keeps_onUnit (s : State) (f : _ → _) : Keeps [.unit] s (s.onUnit f) := fun p hp => by cases p <;> first | rfl | simp at hp
theorem keeps_onCore (s : State) (f : _ → _) : Keeps [.core] s (s.onCore f) := fun p hp => by cases p <;> first | rfl | simp at hp
theorem keeps_onTmp (s : State) (f : _ → _) : Keeps [.tmp] s (s.onTmp f) := fun p hp => by cases p <;> first | rfl | simp at hp
theorem keeps_onMgt (s : State) (f : _ → _) : Keeps [.mgt] s (s.onMgt f) := fun p hp => by cases p <;> first | rfl | simp at hp
theorem keeps_onPar (s : State) (f : _ → _) : Keeps [.par] s (s.onPar f) := fun p hp => by cases p <;> first | rfl | simp at hp
theorem keeps_onPow (s : State) (f : _ → _) : Keeps [.pow] s (s.onPow f) := fun p hp => by cases p <;> first | rfl | simp at hp
theorem keeps_onTele (s : State) (f : _ → _) : Keeps [.tele] s (s.onTele f) := fun p hp => by cases p <;> first | rfl | simp at hp
theorem keeps_onOut (s : State) (f : _ → _) : Keeps [.out] s (s.onOut f) := fun p hp => by cases p <;> first | rfl | simp at hp

theorem Keeps.when {l : List Part} {s : State} (b : Bool) (f : State → State) (h : Keeps l s (f s)) : Keeps l s (s.when b f) := by
  cases b
  · exact Keeps.refl l s
  · exact h

end Sys2Proof.Machine
end

