-- ==== Sys2Proof/Laws/Tbl.lean ====
section
/-! SUPPORT. The laws of sparse tables: read after write, and the canonical form that every table operation keeps. -/

namespace Sys2Proof.Machine

/-- A write of a value other than the default is read back, whatever the table. -/
theorem tget_tput_self {α : Type} [DecidableEq α] {d : α} {v : α} (hv : v ≠ d) (k : Nat) :
    ∀ t : Tbl α, tget d (tput d t k v) k = v
  | [] => by simp [tput, hv, tget]
  | (j, w) :: t => by
    unfold tput
    by_cases h : k < j
    · simp [h, hv, tget]
    · by_cases e : k = j
      · simp [e, hv, tget]
      · have : ¬ j = k := fun q => e q.symm
        simp [h, e, tget, this, tget_tput_self hv k t]

/-- A write leaves every other key alone. -/
theorem tget_tput_ne {α : Type} [DecidableEq α] {d : α} {v : α} {k m : Nat} (hm : m ≠ k) :
    ∀ t : Tbl α, tget d (tput d t k v) m = tget d t m
  | [] => by
    by_cases hv : v = d
    · simp [tput, hv]
    · simp [tput, hv, tget, Ne.symm hm]
  | (j, w) :: t => by
    unfold tput
    have hk : ¬ k = m := fun q => hm q.symm
    by_cases h : k < j
    · by_cases hv : v = d
      · simp [h, hv]
      · simp [h, hv, tget, hk]
    · by_cases e : k = j
      · subst e
        by_cases hv : v = d
        · simp [hv, tget, hk]
        · simp [hv, tget, hk]
      · simp [h, e, tget, tget_tput_ne hm t]

theorem tget_tupd_self {α : Type} [DecidableEq α] {d : α} {t : Tbl α} {k : Nat} {f : α → α} (h : f (tget d t k) ≠ d) :
    tget d (tupd d t k f) k = f (tget d t k) := tget_tput_self h k t

theorem tget_tupd_ne {α : Type} [DecidableEq α] {d : α} {t : Tbl α} {k m : Nat} {f : α → α} (hm : m ≠ k) :
    tget d (tupd d t k f) m = tget d t m := tget_tput_ne hm t

/-- The tail of a canonical table is canonical. -/
theorem twf_tail {α : Type} [DecidableEq α] {d : α} {p : Nat × α} {t : Tbl α} (h : twf d (p :: t) = true) : twf d t = true := by
  cases t with
  | nil => rfl
  | cons q t => obtain ⟨j, v⟩ := p; obtain ⟨k, w⟩ := q; simp only [twf, Bool.and_eq_true] at h; exact h.2

/-- A key below every key of a canonical table is unlisted. -/
theorem tget_below {α : Type} [DecidableEq α] {d : α} {k : Nat} :
    ∀ {t : Tbl α}, twf d t = true → (∀ p, t.head? = some p → k < p.1) → tget d t k = d
  | [], _, _ => rfl
  | [(j, v)], _, h => by
    have : k < j := h (j, v) rfl
    have hj : ¬ j = k := by omega
    simp [tget, hj]
  | (j, v) :: (i, w) :: t, hw, h => by
    have hk : k < j := h (j, v) rfl
    have hj : ¬ j = k := by omega
    have hij : j < i := by simp only [twf, Bool.and_eq_true, decide_eq_true_eq] at hw; exact hw.1.1
    have := tget_below (twf_tail hw) (k := k) (by intro p hp; simp at hp; subst hp; simp; omega)
    simp only [tget, hj, if_false]
    simpa [tget] using this

/-- Putting a smaller key with a listed value before a canonical table keeps it canonical. -/
theorem twf_cons {α : Type} [DecidableEq α] {d : α} {k : Nat} {v : α} {t : Tbl α} (hv : v ≠ d) (ht : twf d t = true)
    (h : ∀ p, t.head? = some p → k < p.1) : twf d ((k, v) :: t) = true := by
  cases t with
  | nil => simp [twf, hv]
  | cons q t => obtain ⟨j, w⟩ := q; have : k < j := h (j, w) rfl; simp [twf, this, hv, ht]

/-- Every key of a canonical table's tail is above its head. -/
theorem twf_lt {α : Type} [DecidableEq α] {d : α} {j : Nat} {v : α} {t : Tbl α} (h : twf d ((j, v) :: t) = true) :
    ∀ p, t.head? = some p → j < p.1 := by
  cases t with
  | nil => simp
  | cons q t => obtain ⟨k, w⟩ := q; simp only [twf, Bool.and_eq_true, decide_eq_true_eq] at h; intro p hp; simp at hp; subst hp; exact h.1.1

theorem twf_head {α : Type} [DecidableEq α] {d : α} {j : Nat} {v : α} {t : Tbl α} (h : twf d ((j, v) :: t) = true) : v ≠ d := by
  cases t with
  | nil => simpa [twf] using h
  | cons q t => obtain ⟨k, w⟩ := q; simp only [twf, Bool.and_eq_true, decide_eq_true_eq] at h; exact h.1.2

/-- The first key of a written table is the key written or the table's first key. -/
theorem tput_head {α : Type} [DecidableEq α] {d : α} {k : Nat} {v : α} {i : Nat} :
    ∀ {t : Tbl α}, twf d t = true → i < k → (∀ p, t.head? = some p → i < p.1) → ∀ p, (tput d t k v).head? = some p → i < p.1
  | [], _, hi, _ => by
    by_cases hv : v = d
    · simp [tput, hv]
    · simp [tput, hv, hi]
  | (j, w) :: t, hw, hi, h => by
    have hj : i < j := h (j, w) rfl
    unfold tput
    by_cases a : k < j
    · by_cases hv : v = d
      · simp [a, hv, hj]
      · simp [a, hv, hi]
    · by_cases e : k = j
      · by_cases hv : v = d
        · subst e
          simp only [lt_irrefl, if_false, if_true, hv]
          intro p hp
          exact lt_trans hj (twf_lt hw p hp)
        · subst e
          simp [hv, hi]
      · simp [a, e, hj]

/-- A write keeps the canonical form. -/
theorem twf_tput {α : Type} [DecidableEq α] {d : α} {k : Nat} {v : α} : ∀ {t : Tbl α}, twf d t = true → twf d (tput d t k v) = true
  | [], _ => by
    by_cases hv : v = d
    · simp [tput, hv, twf]
    · simp [tput, hv, twf]
  | (j, w) :: t, hw => by
    unfold tput
    by_cases a : k < j
    · by_cases hv : v = d
      · simp [a, hv, hw]
      · simp only [a, hv, if_true, if_false]
        exact twf_cons hv hw (by intro p hp; simp at hp; subst hp; exact a)
    · by_cases e : k = j
      · by_cases hv : v = d
        · simp [e, hv, twf_tail hw]
        · subst e
          simp only [lt_irrefl, if_false, if_true, hv]
          exact twf_cons hv (twf_tail hw) (twf_lt hw)
      · simp only [a, e, if_false]
        exact twf_cons (twf_head hw) (twf_tput (twf_tail hw)) (tput_head (twf_tail hw) (by omega) (twf_lt hw))

theorem twf_tupd {α : Type} [DecidableEq α] {d : α} {k : Nat} {f : α → α} {t : Tbl α} (h : twf d t = true) : twf d (tupd d t k f) = true :=
  twf_tput h

theorem twf_tputs {α : Type} [DecidableEq α] {d : α} : ∀ {vs : List α} {t : Tbl α} {k : Nat}, twf d t = true → twf d (tputs d t k vs) = true
  | [], _, _, h => h
  | _ :: vs, _, _, h => twf_tputs (vs := vs) (twf_tput h)

/-- In a canonical table a write is read back, whatever the value. -/
theorem tget_tput {α : Type} [DecidableEq α] {d : α} {k : Nat} {v : α} : ∀ {t : Tbl α}, twf d t = true → tget d (tput d t k v) k = v
  | [], _ => by
    by_cases hv : v = d
    · simp [tput, hv, tget]
    · simp [tput, hv, tget]
  | (j, w) :: t, hw => by
    unfold tput
    by_cases a : k < j
    · by_cases hv : v = d
      · simp only [a, hv, if_true]
        exact tget_below hw (by intro p hp; simp at hp; subst hp; exact a)
      · simp [a, hv, tget]
    · by_cases e : k = j
      · by_cases hv : v = d
        · subst e
          simp only [lt_irrefl, if_false, if_true, hv]
          exact tget_below (twf_tail hw) (twf_lt hw)
        · simp [e, hv, tget]
      · have : ¬ j = k := fun q => e q.symm
        simp [a, e, tget, this, tget_tput (twf_tail hw)]

theorem tget_tupd {α : Type} [DecidableEq α] {d : α} {k : Nat} {f : α → α} {t : Tbl α} (h : twf d t = true) :
    tget d (tupd d t k f) k = f (tget d t k) := tget_tput h

end Sys2Proof.Machine
end

