-- ==== Sys2Proof/Laws/Ops.lean ====
section
/-! SUPPORT. What each shared operation can do: the parts it changes, and what it does to a core's registers and data RAM. -/

namespace Sys2Proof.Machine

/-! ### Cores -/

@[simp] theorem coreGet_coreUpd_self (s : State) (c : CoreId) (f : Core → Core) : coreGet (coreUpd s c f) c = f (coreGet s c) := by cases c <;> rfl

theorem coreGet_coreUpd_ne (s : State) {c d : CoreId} (f : Core → Core) (h : d ≠ c) : coreGet (coreUpd s c f) d = coreGet s d := by
  cases c <;> cases d <;> first | rfl | exact absurd rfl h

theorem keeps_coreUpd (s : State) (c : CoreId) (f : Core → Core) : Keeps [.core] s (coreUpd s c f) := by cases c <;> exact keeps_onCore s _

theorem keeps_ramPut (s : State) (c : CoreId) (a : Nat) (w : W36) : Keeps [.core] s (ramPut s c a w) := by
  unfold ramPut; split
  · exact keeps_coreUpd s c _
  · exact Keeps.refl _ s

theorem keeps_ramPuts (c : CoreId) : ∀ (ws : List W36) (s : State) (a : Nat), Keeps [.core] s (ramPuts s c a ws)
  | [], s, _ => Keeps.refl _ s
  | w :: ws, s, a => (keeps_ramPut s c a w).trans (keeps_ramPuts c ws _ (a + 1))

theorem keeps_writeStr (s : State) (c : CoreId) (a : Nat) (b : Bytes) : Keeps [.core] s (writeStr s c a b) := keeps_ramPuts c _ s a

/-- Data RAM in canonical form. -/
def RamWf (s : State) (c : CoreId) : Prop := twf {} (coreGet s c).ram = true

theorem ramWf_ramPut {s : State} {c d : CoreId} {a : Nat} {w : W36} (h : RamWf s d) : RamWf (ramPut s c a w) d := by
  unfold RamWf ramPut at *
  split
  · by_cases e : d = c
    · subst e; rw [coreGet_coreUpd_self]; exact twf_tput h
    · rw [coreGet_coreUpd_ne _ _ e]; exact h
  · exact h

theorem ramWf_ramPuts {c d : CoreId} : ∀ {ws : List W36} {s : State} {a : Nat}, RamWf s d → RamWf (ramPuts s c a ws) d
  | [], _, _, h => h
  | w :: ws, s, a, h => by rw [ramPuts]; exact ramWf_ramPuts (ws := ws) (ramWf_ramPut h)

/-- A word written reads back. -/
theorem ramGet_ramPut_self {s : State} {c : CoreId} {a : Nat} {w : W36} (h : RamWf s c) (ha : a < 0x8000) : ramGet (ramPut s c a w) c a = w := by
  simp only [ramGet, ramPut, ha, if_true, coreGet_coreUpd_self]; exact tget_tput h

/-- Every other word stays. -/
theorem ramGet_ramPut_ne {s : State} {c d : CoreId} {a b : Nat} {w : W36} (h : b ≠ a ∨ d ≠ c) : ramGet (ramPut s c a w) d b = ramGet s d b := by
  unfold ramGet ramPut
  split
  · by_cases e : d = c
    · subst e; rw [coreGet_coreUpd_self]; exact tget_tput_ne (d := ({} : W36)) (h.resolve_right fun q => q rfl) _
    · rw [coreGet_coreUpd_ne _ _ e]
  · rfl

/-- Words written at consecutive addresses leave the others. -/
theorem ramGet_ramPuts_ne {c d : CoreId} {b : Nat} :
    ∀ {ws : List W36} {s : State} {a : Nat}, b < a ∨ a + ws.length ≤ b ∨ d ≠ c → ramGet (ramPuts s c a ws) d b = ramGet s d b
  | [], _, _, _ => rfl
  | w :: ws, s, a, h => by
    simp only [List.length_cons] at h
    rw [ramPuts, ramGet_ramPuts_ne (by rcases h with h | h | h; exact .inl (by omega); exact .inr (.inl (by omega)); exact .inr (.inr h)), ramGet_ramPut_ne]
    rcases h with h | h | h
    · exact .inl (by omega)
    · exact .inl (by omega)
    · exact .inr h

/-- Words written at consecutive addresses of data RAM read back. -/
theorem ramGet_ramPuts {c : CoreId} : ∀ (ws : List W36) (s : State) (a i : Nat), RamWf s c → a + ws.length ≤ 0x8000 → (h : i < ws.length) →
    ramGet (ramPuts s c a ws) c (a + i) = ws[i]
  | [], _, _, _, _, _, h => absurd h (Nat.not_lt_zero _)
  | w :: ws, s, a, 0, hs, ha, _ => by
    simp only [List.length_cons] at ha
    rw [ramPuts, ramGet_ramPuts_ne (.inl (by omega)), Nat.add_zero, ramGet_ramPut_self hs (by omega)]
    rfl
  | w :: ws, s, a, i + 1, hs, ha, h => by
    simp only [List.length_cons] at ha h
    have := ramGet_ramPuts ws (ramPut s c a w) (a + 1) i (ramWf_ramPut hs) (by omega) (by omega)
    rw [ramPuts, show a + (i + 1) = a + 1 + i by omega, this]
    rfl

theorem keeps_enter (s : State) (c : CoreId) (i : Bool) (q : Nat) (f : W36) (r b o : Nat) : Keeps [.core] s (enter s c i q f r b o) := by
  unfold enter
  extract_lets k a s'
  exact (keeps_ramPuts c _ s _).trans (keeps_coreUpd _ c _)

theorem keeps_takeIrq (s : State) (c : CoreId) (n r : Nat) : Keeps [.core] s (takeIrq s c n r) := keeps_enter s c _ _ _ _ _ _

theorem keeps_finish (s : State) (c : CoreId) (pc : Nat) (ei : Bool) : Keeps [.core] s (finish s c pc ei) := Keeps.when _ _ (keeps_coreUpd s c _)

/-! ### Unit table, posts, interrupts and alerts -/

theorem keeps_setUnit (s : State) (u : Nat) (st : UState) (r : Byte) : Keeps [.unit] s (setUnit s u st r) := keeps_onUnit s _
theorem keeps_ring (s : State) (b : Bell) : Keeps [.unit] s (ring s b) := keeps_onUnit s _
theorem keeps_irq (s : State) (c : CoreId) (n : Nat) : Keeps [.unit] s (irq s c n) := keeps_onUnit s _
theorem keeps_irqMain (s : State) (n : Nat) : Keeps [.unit] s (irqMain s n) := (keeps_irq s _ n).trans (keeps_irq _ _ n)
theorem keeps_irqAll (s : State) (n : Nat) : Keeps [.unit] s (irqAll s n) := (keeps_irqMain s n).trans (keeps_irq _ _ n)
theorem keeps_mgtAlert (s : State) (b : Nat) : Keeps [.mgt] s (mgtAlert s b) := keeps_onMgt s _

theorem keeps_dbAlert (s : State) : Keeps [.unit, .mgt] s (dbAlert s) :=
  ((keeps_ring s _).mono (by simp)).trans ((keeps_mgtAlert _ _).mono (by simp))

theorem keeps_post (s : State) (p : Post) : Keeps [.unit] s (post s p) := by
  unfold post
  extract_lets p' s'
  have h : Keeps [.unit] s s' := Keeps.when (f := fun s => s.onUnit _) _ (keeps_onUnit s _)
  refine h.trans ?_
  split
  · exact keeps_onUnit _ _
  · split
    · exact ((keeps_onUnit _ _).trans (keeps_ring _ _)).trans (keeps_irqMain _ _)
    · exact ((keeps_onUnit _ _).trans (keeps_ring _ _)).trans (keeps_irqMain _ _)

theorem keeps_observe (s : State) (u : Nat) (st : UState) (q : BitVec 2) (r : Byte) : Keeps [.unit] s (observe s u st q r) := keeps_post s _

/-- An ABSENT unit stays ABSENT (00 R3). -/
theorem setUnit_absent {s : State} (h : twf {} s.unit.tbl = true) (u : Nat) (st : UState) (r : Byte) {v : Nat} (hv : unitSt s v = .absent) :
    unitSt (setUnit s u st r) v = .absent := by
  unfold unitSt unitEnt setUnit State.onUnit at *
  by_cases e : v = u
  · subst e; simp only [tget_tupd h]; rw [if_pos (.inl hv)]; exact hv
  · simp only [tget_tupd_ne e]; exact hv

/-- The table keeps its canonical form. -/
theorem setUnit_wf {s : State} (h : twf {} s.unit.tbl = true) (u : Nat) (st : UState) (r : Byte) : twf {} (setUnit s u st r).unit.tbl = true := by
  have := twf_tupd (k := u) (f := fun e => if e.st = .absent ∨ st = .absent then e
    else { e with st := st, reason := r, drained := false, stopped := e.stopped && decide (st ≠ .active) }) h
  exact this

/-- A unit that is not ABSENT takes the state it is put into, unless that is ABSENT. -/
theorem setUnit_self {s : State} (h : twf {} s.unit.tbl = true) (u : Nat) {st : UState} (r : Byte) (h1 : unitSt s u ≠ .absent) (h2 : st ≠ .absent) :
    unitSt (setUnit s u st r) u = st := by
  unfold unitSt unitEnt setUnit State.onUnit at *
  simp only [tget_tupd h]; rw [if_neg (by rintro (q | q); exact h1 q; exact h2 q)]

/-- Every other unit stays. -/
theorem setUnit_ne (s : State) {u v : Nat} (st : UState) (r : Byte) (h : v ≠ u) : unitSt (setUnit s u st r) v = unitSt s v := by
  unfold unitSt unitEnt setUnit State.onUnit
  simp only [tget_tupd_ne h]

/-! ### Host causes, telemetry, time, random bytes, the data plane -/

theorem keeps_signal (s : State) (v : Nat) : Keeps [.hq, .out] s (signal s v) := by
  unfold signal; split
  · exact (keeps_onHq s _).mono (by simp)
  · exact (keeps_onOut s _).mono (by simp)

theorem keeps_cause (s : State) (n : Nat) : Keeps [.hq, .out] s (cause s n) :=
  ((keeps_onHq s _).mono (by simp)).trans (Keeps.when _ _ (keeps_signal _ 0))

theorem keeps_count (s : State) (o n : Nat) : Keeps [.tele] s (count s o n) := keeps_onTele s _
theorem keeps_gauge (s : State) (o : Nat) (v : BitVec 64) : Keeps [.tele] s (Machine.gauge s o v) := keeps_onTele s _
theorem keeps_mirrorTime (s : State) : Keeps [.time] s (mirrorTime s) := keeps_onTime s _
theorem keeps_progPage (s : State) (n : Nat) (b : Bytes) : Keeps [.store] s (progPage s n b) := by
  unfold progPage; split
  · exact Keeps.refl _ _
  · exact keeps_onStore s _
/-- A program keeps the canonical form of the array. -/
theorem nor_wf_progPage {s : State} (h : twf blankPage s.store.nor = true) (n : Nat) (b : Bytes) : twf blankPage (progPage s n b).store.nor = true := by
  unfold progPage; split
  · exact h
  · exact twf_tput h
theorem keeps_progPages (s : State) (r : Record) (n : Nat) : Keeps [.store] s (progPages s r n) := by
  unfold progPages
  generalize List.range n = l
  induction l generalizing s with
  | nil => exact Keeps.refl _ _
  | cons i l ih => exact (keeps_progPage s _ _).trans (ih _)
theorem keeps_writeRec (s : State) (r : Record) (w : BitVec 32) : Keeps [.store] s (writeRec s r w) :=
  ((keeps_progPages s r _).trans (keeps_progPage _ _ _)).trans (keeps_onStore _ _)
theorem keeps_drew (s : State) (n : Nat) : Keeps [.rng] s (drew s n) := keeps_onRng s _

theorem keeps_pausePlane (s : State) : Keeps [.hq, .out] s (pausePlane s) := ((keeps_onHq s _).mono (by simp)).trans (keeps_cause _ 2)

theorem keeps_closePlane (s : State) : Keeps [.hq, .pow, .out] s (closePlane s) :=
  (((keeps_onHq s _).mono (by simp)).trans ((keeps_onPow _ _).mono (by simp))).trans ((keeps_cause _ 2).mono (by simp))

theorem keeps_openPlane (s : State) : Keeps [.hq, .led, .pow, .out] s (openPlane s) :=
  (((keeps_onHq s _).mono (by simp)).trans ((keeps_onLed _ _).mono (by simp))).trans
    (((keeps_onPow _ _).mono (by simp)).trans ((keeps_cause _ 3).mono (by simp)))

/-! ### Rings and completions -/

theorem keeps_onSq (s : State) (n : Nat) (f : SqRing → SqRing) : Keeps [.hq] s (onSq s n f) := keeps_onHq s _
theorem keeps_onCq (s : State) (n : Nat) (f : CqRing → CqRing) : Keeps [.hq] s (onCq s n f) := keeps_onHq s _

theorem keeps_moderate (s : State) (n : Nat) : Keeps [.hq, .out] s (moderate s n) :=
  Keeps.when _ _ (((keeps_onCq s n _).mono (by simp)).trans (keeps_signal _ _))

theorem keeps_countComp (s : State) (k : BitVec 2) (c : Comp) (us : Nat) : Keeps [.tele] s (countComp s k c us) := by
  unfold countComp
  split
  · exact keeps_count s _ _
  · split
    · exact ((keeps_count s _ _).trans (Keeps.when _ _ (keeps_count _ _ _))).trans (keeps_count _ _ _)
    · exact keeps_count s _ _

theorem keeps_complete (s : State) (sq : Nat) (d : Bool) (q : Nat) (c : Comp) (o : List HostWrite) :
    Keeps [.hq, .out, .tele] s (complete s sq d q c o) := by
  unfold complete
  extract_lets s1 s2 r n s3 q1 s4 us c' s5 last s6 s7 s8
  have h1 : Keeps [.hq, .out, .tele] s s1 := (keeps_onOut s _).mono (by simp)
  have h2 : Keeps [.hq, .out, .tele] s1 s2 := Keeps.when (f := (cause · 9)) _ ((keeps_cause s1 9).mono (by simp))
  have h3 : Keeps [.hq, .out, .tele] s2 s3 := (keeps_onSq s2 _ _).mono (by simp)
  have h4 : Keeps [.hq, .out, .tele] s3 s4 := (keeps_onCq s3 _ _).mono (by simp)
  have h5 : Keeps [.hq, .out, .tele] s4 s5 := (keeps_onOut s4 _).mono (by simp)
  have h6 : Keeps [.hq, .out, .tele] s5 s6 := (keeps_onCq s5 _ _).mono (by simp)
  have h7 : Keeps [.hq, .out, .tele] s6 s7 := Keeps.when (f := fun s => onCq s n _) _ ((keeps_onCq s6 _ _).mono (by simp))
  have h8 : Keeps [.hq, .out, .tele] s7 s8 := (keeps_countComp s7 _ _ _).mono (by simp)
  split
  · exact h1.trans h2
  · split
    · exact ((((((((h1.trans h2).trans h3).trans h4).trans h5).trans h6).trans h7).trans h8)).trans ((keeps_moderate s8 n).mono (by simp))
    · exact ((h1.trans h2).trans h3).trans h4

end Sys2Proof.Machine
end

