-- ==== Sys2Proof/Laws/Serge.lean ====
section
/-! SUPPORT. What a Serge instruction does once its first four checks have passed, and what reading its registers checks. -/

namespace Sys2Proof.Machine

/-- An instruction that no repeat concerns and that passes checks 1 to 6: a control operation is carried out, any other makes one iteration. -/
theorem instr_ready {s : State} {x : SCtx} {op : SOp} (h : SergeReady s x op) (hi : op = .group .iret → (coreGet s x.core).st ≠ .normal)
    (hr : regCheck (coreGet s x.core) false op = none) :
    instr x op s = match controlOf op with
      | some g => runControl s x.core g ((seqWords x op).getLastD 0) (sergeNext s x op)
      | none => match iter x op s with
        | .bad t st => busTrap s x.core t st (coreGet s x.core).pc.toNat
        | .ok t jump => finish t x.core (jump.getD (sergeNext s x op)) false := by
  obtain ⟨h1, h2, h3, h4, h5, h6, h7, h8⟩ := h
  have hi' : ¬ (op = .group .iret ∧ (coreGet s x.core).st = .normal) := fun q => hi q.1 q.2
  unfold instr
  simp only [h1, h2, h3, h4, h5, h6, h7, h8, sergeNext, hi', Bool.not_true, Bool.or_self, Option.isSome_none, ne_eq, not_true_eq_false, decide_false,
    Bool.false_and, Bool.not_false, Bool.and_false, Bool.false_eq_true, and_self, hr, ↓reduceIte]
  all_goals (cases controlOf op <;> rfl)

/-- One register with the tags allowed. -/
theorem regCheck_one {k : Core} {op : SOp} (h : ∀ r ∈ [0, 1, 2, 3], ∀ tags ∈ regNeeds false op r, (regOf k r).tag ≠ tVoid ∧ (regOf k r).tag ∈ tags) :
    regCheck k false op = none := by
  unfold regCheck
  rw [List.findSome?_eq_none_iff]
  intro r hr
  rw [List.findSome?_eq_none_iff]
  intro tags ht
  obtain ⟨h1, h2⟩ := h r hr tags ht
  simp [h1, h2]

/-- A condition that fails: the instruction has no effect (08 R430). -/
theorem instr_skip {s : State} {x : SCtx} {op : SOp} (h1 : coreLive s x.core = true) (h2 : (coreGet s x.core).waiting = false)
    (h3 : (coreGet s x.core).rep = none) (h4 : (coreGet s x.core).repc = 0) (h6 : isInstr x op = true)
    (h7 : frontCheck x.core (coreGet s x.core).badProg (coreGet s x.core).pc.toNat (seqWords x op) = none) (h8 : condHolds (coreGet s x.core) x.cond = false) :
    instr x op s = finish s x.core (sergeNext s x op) false := by
  unfold instr
  simp [h1, h2, h3, h4, h6, h7, h8, sergeNext]

/-- An update of a core by the identity is none. -/
theorem coreUpd_id (s : State) (c : CoreId) : coreUpd s c id = s := by cases c <;> rfl

/-- Updates that agree on the core as it stands are the same update. -/
theorem coreUpd_congr {s : State} {c : CoreId} {f g : Core → Core} (h : f (coreGet s c) = g (coreGet s c)) : coreUpd s c f = coreUpd s c g := by
  cases c <;> simp only [coreGet] at h <;> simp only [coreUpd, State.onCore, h]

/-- An instruction whose one iteration changes only registers of its core, by `g`, which does to the core as it stands what `f` does. -/
theorem instr_reg {s : State} {x : SCtx} {op : SOp} (g : Core → Core) {f : Core → Core} (h : SergeReady s x op) (hc : controlOf op = none)
    (hi : op ≠ .group .iret) (hr : regCheck (coreGet s x.core) false op = none) (ho : iter x op s = .ok (coreUpd s x.core g) none)
    (hg : g (coreGet s x.core) = f (coreGet s x.core)) : done (instr x op s) = .next (sergeEnd s x (sergeNext s x op) f) := by
  rw [instr_ready h (fun e => absurd e hi) hr, hc]
  simp only [ho, done, sergeEnd, coreUpd_congr hg, Option.getD_none]

/-- The place a fault of the operand names. -/
def operandPlace (s : State) (x : SCtx) (m : SMode) (f : BitVec 5) : W36 :=
  if m = .imm then atReg 0 else atData (eaOf (coreGet s x.core) x.exts m f)

/-- The valid word at an operand's address passes check 8 (08 R425). -/
theorem readCheck_any {a : Nat} {w : W36} (h : w.tag ∈ anyTag) : readCheck a w = none := by
  have h1 : w.tag ≠ tVoid := by intro e; rw [e] at h; revert h; decide
  simp [readCheck, h1, h]

/-- An operation with an operand, other than the pointer forms, stores and relative jumps, uses the operand. -/
theorem memIter_operand {s u : State} {x : SCtx} {op : MOp} {m : SMode} {f : BitVec 5} {w : W36} (h : Operand s x m f w u) (a : Nat)
    (h1 : op ≠ .st) (h2 : op = .ldx → m ≠ .x ∧ m ≠ .imm) (h3 : op = .ldy → m ≠ .y ∧ m ≠ .imm) (h4 : op = .jmp ∨ op = .call → m ≠ .imm) :
    memIter x.core x.exts op m f a s = useOperand x.core op w (operandPlace s x m f) (a + 1) u := by
  obtain ⟨hi, hm, -, -⟩ := h
  unfold memIter
  by_cases e : m = .imm
  · obtain ⟨rfl, rfl⟩ := hi e
    subst e
    cases op <;> simp_all [operandPlace]
  · obtain ⟨h5, h6, h7⟩ := hm e
    cases op <;> cases m <;> simp_all [operandPlace, readCheck_any]

/-- A word of the tags that an operation allows is not VOID. -/
theorem tag_not_void {t : BitVec 4} (h : t ∈ anyTag) : t ≠ tVoid := by
  intro e; rw [e] at h; revert h; decide

/-- The tags that an operation with an operand allows in ACC (08 R424): none where it does not read ACC. -/
def accTags : MOp → List (List (BitVec 4))
  | .st | .cmp => [anyTag]
  | .add | .sub => [[tInt, tDaddr]]
  | .and | .or | .xor => [[tInt, tBits]]
  | .mul | .div => [[tInt]]
  | .ld | .ldx | .ldy | .jmp | .call => []

theorem accTags_any {op : MOp} {tags : List (BitVec 4)} {t : BitVec 4} (h : tags ∈ accTags op) (ht : t ∈ tags) : t ∈ anyTag := by
  cases op <;> simp [accTags] at h <;> subst h <;> simp [anyTag] at ht ⊢ <;> grind

theorem regNeeds_acc (op : MOp) (m : SMode) (f : BitVec 5) : regNeeds false (.mem op m f) 0 = accTags op := by cases op <;> rfl

theorem regNeeds_x (op : MOp) (m : SMode) (f : BitVec 5) :
    regNeeds false (.mem op m f) 1 = if m = .x then (if op = .ldx then [[tInt, tDaddr]] else [[tDaddr]]) else [] := by cases op <;> cases m <;> rfl

theorem regNeeds_y (op : MOp) (m : SMode) (f : BitVec 5) :
    regNeeds false (.mem op m f) 2 = if m = .y then (if op = .ldy then [[tInt, tDaddr]] else [[tDaddr]]) else [] := by cases op <;> cases m <;> rfl

theorem regNeeds_lr (op : MOp) (m : SMode) (f : BitVec 5) : regNeeds false (.mem op m f) 3 = [] := by cases op <;> cases m <;> rfl

/-- Check 6 of an operation with an operand: ACC of a tag allowed, a DADDR in the index register of the mode. -/
theorem regCheck_mem {k : Core} {op : MOp} {m : SMode} {f : BitVec 5} (ha : ∀ tags ∈ accTags op, k.acc.tag ∈ tags)
    (hx : m = .x → k.x.tag = tDaddr) (hy : m = .y → k.y.tag = tDaddr) : regCheck k false (.mem op m f) = none := by
  apply regCheck_one
  intro r hr tags ht
  have d1 : tDaddr ≠ tVoid := by decide
  have key : r = 0 ∧ tags ∈ accTags op ∨ r = 1 ∧ m = .x ∧ tDaddr ∈ tags ∨ r = 2 ∧ m = .y ∧ tDaddr ∈ tags := by
    simp only [List.mem_cons, List.not_mem_nil, or_false] at hr
    rcases hr with rfl | rfl | rfl | rfl
    · exact .inl ⟨rfl, regNeeds_acc op m f ▸ ht⟩
    · rw [regNeeds_x] at ht
      split at ht
      · split at ht <;> simp at ht <;> subst ht <;> simp_all
      · simp at ht
    · rw [regNeeds_y] at ht
      split at ht
      · split at ht <;> simp at ht <;> subst ht <;> simp_all
      · simp at ht
    · rw [regNeeds_lr] at ht
      simp at ht
  rcases key with ⟨rfl, h⟩ | ⟨rfl, h, h'⟩ | ⟨rfl, h, h'⟩
  · exact ⟨tag_not_void (accTags_any h (ha tags h)), ha tags h⟩
  · simp [regOf, hx h, h', d1]
  · simp [regOf, hy h, h', d1]

/-- An operation that uses its operand: registers change by `g`. -/
theorem instr_operand {s u : State} {x : SCtx} {op : MOp} {m : SMode} {f : BitVec 5} {w : W36} (g : Core → Core) (h1 : SergeReady s x (.mem op m f))
    (h2 : Operand s x m f w u) (h3 : op ≠ .st) (h4 : op = .ldx → m ≠ .x ∧ m ≠ .imm) (h5 : op = .ldy → m ≠ .y ∧ m ≠ .imm) (h6 : op ≠ .jmp)
    (h7 : op ≠ .call) (h8 : ¬ (op = .div ∧ w.val = 0)) (ha : ∀ tags ∈ accTags op, (coreGet s x.core).acc.tag ∈ tags)
    (h10 : applyOp op w (coreGet u x.core) = some (g (coreGet u x.core))) :
    done (instr x (.mem op m f) s) = .next (sergeEnd u x (sergeNext s x (.mem op m f)) g) := by
  rw [instr_ready h1 (by simp) (regCheck_mem ha h2.2.2.1 h2.2.2.2)]
  have : iter x (.mem op m f) s = .ok (coreUpd u x.core g) none := by
    simp only [iter]
    rw [memIter_operand h2 _ h3 h4 h5 (by simp [h6, h7])]
    have e : coreUpd u x.core (fun _ => g (coreGet u x.core)) = coreUpd u x.core g := coreUpd_congr rfl
    cases op <;> simp_all [useOperand]
  simp only [controlOf, this, done, sergeEnd, Option.getD_none]

/-- An operand of tags that the operation does not allow. -/
theorem instr_badOperand {s u : State} {x : SCtx} {op : MOp} {m : SMode} {f : BitVec 5} {w : W36} (h1 : SergeReady s x (.mem op m f))
    (h2 : Operand s x m f w u) (h3 : op ≠ .st) (h4 : op = .ldx → m ≠ .x ∧ m ≠ .imm) (h5 : op = .ldy → m ≠ .y ∧ m ≠ .imm) (h6 : op ≠ .jmp)
    (h7 : op ≠ .call) (ha : ∀ tags ∈ accTags op, (coreGet s x.core).acc.tag ∈ tags) (h10 : applyOp op w (coreGet u x.core) = none) :
    done (instr x (.mem op m f) s) = .next (trap s x.core (trTag, operandPlace s x m f) (coreGet s x.core).pc.toNat) := by
  rw [instr_ready h1 (by simp) (regCheck_mem ha h2.2.2.1 h2.2.2.2)]
  simp only [controlOf, iter]
  rw [memIter_operand h2 _ h3 h4 h5 (by simp [h6, h7])]
  cases op <;> simp_all [useOperand, done, busTrap, State.when]

/-- The core is the same after the operand's read. -/
theorem Operand.core {s u : State} {x : SCtx} {m : SMode} {f : BitVec 5} {w : W36} (h : Operand s x m f w u) : coreGet u x.core = coreGet s x.core := by
  by_cases e : m = .imm
  · rw [(h.1 e).2]
  · exact (h.2.1 e).2.2

end Sys2Proof.Machine
end

