-- ==== Sys2Proof/Laws/State.lean ====
section
/-! SUPPORT. What each named update leaves: one lemma per update and part. -/

namespace Sys2Proof.Machine

@[simp] theorem State.onHq_hq (s : State) (f : HqSt → HqSt) : (s.onHq f).hq = f s.hq := rfl
@[simp] theorem State.onHq_lane (s : State) (f : HqSt → HqSt) : (s.onHq f).lane = s.lane := rfl
@[simp] theorem State.onHq_hbm (s : State) (f : HqSt → HqSt) : (s.onHq f).hbm = s.hbm := rfl
@[simp] theorem State.onHq_led (s : State) (f : HqSt → HqSt) : (s.onHq f).led = s.led := rfl
@[simp] theorem State.onHq_drives (s : State) (f : HqSt → HqSt) : (s.onHq f).drives = s.drives := rfl
@[simp] theorem State.onHq_fab (s : State) (f : HqSt → HqSt) : (s.onHq f).fab = s.fab := rfl
@[simp] theorem State.onHq_key (s : State) (f : HqSt → HqSt) : (s.onHq f).key = s.key := rfl
@[simp] theorem State.onHq_dig (s : State) (f : HqSt → HqSt) : (s.onHq f).dig = s.dig := rfl
@[simp] theorem State.onHq_rng (s : State) (f : HqSt → HqSt) : (s.onHq f).rng = s.rng := rfl
@[simp] theorem State.onHq_store (s : State) (f : HqSt → HqSt) : (s.onHq f).store = s.store := rfl
@[simp] theorem State.onHq_time (s : State) (f : HqSt → HqSt) : (s.onHq f).time = s.time := rfl
@[simp] theorem State.onHq_unit (s : State) (f : HqSt → HqSt) : (s.onHq f).unit = s.unit := rfl
@[simp] theorem State.onHq_core (s : State) (f : HqSt → HqSt) : (s.onHq f).core = s.core := rfl
@[simp] theorem State.onHq_tmp (s : State) (f : HqSt → HqSt) : (s.onHq f).tmp = s.tmp := rfl
@[simp] theorem State.onHq_mgt (s : State) (f : HqSt → HqSt) : (s.onHq f).mgt = s.mgt := rfl
@[simp] theorem State.onHq_par (s : State) (f : HqSt → HqSt) : (s.onHq f).par = s.par := rfl
@[simp] theorem State.onHq_pow (s : State) (f : HqSt → HqSt) : (s.onHq f).pow = s.pow := rfl
@[simp] theorem State.onHq_tele (s : State) (f : HqSt → HqSt) : (s.onHq f).tele = s.tele := rfl
@[simp] theorem State.onHq_out (s : State) (f : HqSt → HqSt) : (s.onHq f).out = s.out := rfl
@[simp] theorem State.onHq_pending (s : State) (f : HqSt → HqSt) : (s.onHq f).pending = s.pending := rfl
@[simp] theorem State.onLane_hq (s : State) (f : LaneBank → LaneBank) : (s.onLane f).hq = s.hq := rfl
@[simp] theorem State.onLane_lane (s : State) (f : LaneBank → LaneBank) : (s.onLane f).lane = f s.lane := rfl
@[simp] theorem State.onLane_hbm (s : State) (f : LaneBank → LaneBank) : (s.onLane f).hbm = s.hbm := rfl
@[simp] theorem State.onLane_led (s : State) (f : LaneBank → LaneBank) : (s.onLane f).led = s.led := rfl
@[simp] theorem State.onLane_drives (s : State) (f : LaneBank → LaneBank) : (s.onLane f).drives = s.drives := rfl
@[simp] theorem State.onLane_fab (s : State) (f : LaneBank → LaneBank) : (s.onLane f).fab = s.fab := rfl
@[simp] theorem State.onLane_key (s : State) (f : LaneBank → LaneBank) : (s.onLane f).key = s.key := rfl
@[simp] theorem State.onLane_dig (s : State) (f : LaneBank → LaneBank) : (s.onLane f).dig = s.dig := rfl
@[simp] theorem State.onLane_rng (s : State) (f : LaneBank → LaneBank) : (s.onLane f).rng = s.rng := rfl
@[simp] theorem State.onLane_store (s : State) (f : LaneBank → LaneBank) : (s.onLane f).store = s.store := rfl
@[simp] theorem State.onLane_time (s : State) (f : LaneBank → LaneBank) : (s.onLane f).time = s.time := rfl
@[simp] theorem State.onLane_unit (s : State) (f : LaneBank → LaneBank) : (s.onLane f).unit = s.unit := rfl
@[simp] theorem State.onLane_core (s : State) (f : LaneBank → LaneBank) : (s.onLane f).core = s.core := rfl
@[simp] theorem State.onLane_tmp (s : State) (f : LaneBank → LaneBank) : (s.onLane f).tmp = s.tmp := rfl
@[simp] theorem State.onLane_mgt (s : State) (f : LaneBank → LaneBank) : (s.onLane f).mgt = s.mgt := rfl
@[simp] theorem State.onLane_par (s : State) (f : LaneBank → LaneBank) : (s.onLane f).par = s.par := rfl
@[simp] theorem State.onLane_pow (s : State) (f : LaneBank → LaneBank) : (s.onLane f).pow = s.pow := rfl
@[simp] theorem State.onLane_tele (s : State) (f : LaneBank → LaneBank) : (s.onLane f).tele = s.tele := rfl
@[simp] theorem State.onLane_out (s : State) (f : LaneBank → LaneBank) : (s.onLane f).out = s.out := rfl
@[simp] theorem State.onLane_pending (s : State) (f : LaneBank → LaneBank) : (s.onLane f).pending = s.pending := rfl
@[simp] theorem State.onHbm_hq (s : State) (f : HbmSt → HbmSt) : (s.onHbm f).hq = s.hq := rfl
@[simp] theorem State.onHbm_lane (s : State) (f : HbmSt → HbmSt) : (s.onHbm f).lane = s.lane := rfl
@[simp] theorem State.onHbm_hbm (s : State) (f : HbmSt → HbmSt) : (s.onHbm f).hbm = f s.hbm := rfl
@[simp] theorem State.onHbm_led (s : State) (f : HbmSt → HbmSt) : (s.onHbm f).led = s.led := rfl
@[simp] theorem State.onHbm_drives (s : State) (f : HbmSt → HbmSt) : (s.onHbm f).drives = s.drives := rfl
@[simp] theorem State.onHbm_fab (s : State) (f : HbmSt → HbmSt) : (s.onHbm f).fab = s.fab := rfl
@[simp] theorem State.onHbm_key (s : State) (f : HbmSt → HbmSt) : (s.onHbm f).key = s.key := rfl
@[simp] theorem State.onHbm_dig (s : State) (f : HbmSt → HbmSt) : (s.onHbm f).dig = s.dig := rfl
@[simp] theorem State.onHbm_rng (s : State) (f : HbmSt → HbmSt) : (s.onHbm f).rng = s.rng := rfl
@[simp] theorem State.onHbm_store (s : State) (f : HbmSt → HbmSt) : (s.onHbm f).store = s.store := rfl
@[simp] theorem State.onHbm_time (s : State) (f : HbmSt → HbmSt) : (s.onHbm f).time = s.time := rfl
@[simp] theorem State.onHbm_unit (s : State) (f : HbmSt → HbmSt) : (s.onHbm f).unit = s.unit := rfl
@[simp] theorem State.onHbm_core (s : State) (f : HbmSt → HbmSt) : (s.onHbm f).core = s.core := rfl
@[simp] theorem State.onHbm_tmp (s : State) (f : HbmSt → HbmSt) : (s.onHbm f).tmp = s.tmp := rfl
@[simp] theorem State.onHbm_mgt (s : State) (f : HbmSt → HbmSt) : (s.onHbm f).mgt = s.mgt := rfl
@[simp] theorem State.onHbm_par (s : State) (f : HbmSt → HbmSt) : (s.onHbm f).par = s.par := rfl
@[simp] theorem State.onHbm_pow (s : State) (f : HbmSt → HbmSt) : (s.onHbm f).pow = s.pow := rfl
@[simp] theorem State.onHbm_tele (s : State) (f : HbmSt → HbmSt) : (s.onHbm f).tele = s.tele := rfl
@[simp] theorem State.onHbm_out (s : State) (f : HbmSt → HbmSt) : (s.onHbm f).out = s.out := rfl
@[simp] theorem State.onHbm_pending (s : State) (f : HbmSt → HbmSt) : (s.onHbm f).pending = s.pending := rfl
@[simp] theorem State.onLed_hq (s : State) (f : LedgerSt → LedgerSt) : (s.onLed f).hq = s.hq := rfl
@[simp] theorem State.onLed_lane (s : State) (f : LedgerSt → LedgerSt) : (s.onLed f).lane = s.lane := rfl
@[simp] theorem State.onLed_hbm (s : State) (f : LedgerSt → LedgerSt) : (s.onLed f).hbm = s.hbm := rfl
@[simp] theorem State.onLed_led (s : State) (f : LedgerSt → LedgerSt) : (s.onLed f).led = f s.led := rfl
@[simp] theorem State.onLed_drives (s : State) (f : LedgerSt → LedgerSt) : (s.onLed f).drives = s.drives := rfl
@[simp] theorem State.onLed_fab (s : State) (f : LedgerSt → LedgerSt) : (s.onLed f).fab = s.fab := rfl
@[simp] theorem State.onLed_key (s : State) (f : LedgerSt → LedgerSt) : (s.onLed f).key = s.key := rfl
@[simp] theorem State.onLed_dig (s : State) (f : LedgerSt → LedgerSt) : (s.onLed f).dig = s.dig := rfl
@[simp] theorem State.onLed_rng (s : State) (f : LedgerSt → LedgerSt) : (s.onLed f).rng = s.rng := rfl
@[simp] theorem State.onLed_store (s : State) (f : LedgerSt → LedgerSt) : (s.onLed f).store = s.store := rfl
@[simp] theorem State.onLed_time (s : State) (f : LedgerSt → LedgerSt) : (s.onLed f).time = s.time := rfl
@[simp] theorem State.onLed_unit (s : State) (f : LedgerSt → LedgerSt) : (s.onLed f).unit = s.unit := rfl
@[simp] theorem State.onLed_core (s : State) (f : LedgerSt → LedgerSt) : (s.onLed f).core = s.core := rfl
@[simp] theorem State.onLed_tmp (s : State) (f : LedgerSt → LedgerSt) : (s.onLed f).tmp = s.tmp := rfl
@[simp] theorem State.onLed_mgt (s : State) (f : LedgerSt → LedgerSt) : (s.onLed f).mgt = s.mgt := rfl
@[simp] theorem State.onLed_par (s : State) (f : LedgerSt → LedgerSt) : (s.onLed f).par = s.par := rfl
@[simp] theorem State.onLed_pow (s : State) (f : LedgerSt → LedgerSt) : (s.onLed f).pow = s.pow := rfl
@[simp] theorem State.onLed_tele (s : State) (f : LedgerSt → LedgerSt) : (s.onLed f).tele = s.tele := rfl
@[simp] theorem State.onLed_out (s : State) (f : LedgerSt → LedgerSt) : (s.onLed f).out = s.out := rfl
@[simp] theorem State.onLed_pending (s : State) (f : LedgerSt → LedgerSt) : (s.onLed f).pending = s.pending := rfl
@[simp] theorem State.onDrives_hq (s : State) (f : Tbl Drive → Tbl Drive) : (s.onDrives f).hq = s.hq := rfl
@[simp] theorem State.onDrives_lane (s : State) (f : Tbl Drive → Tbl Drive) : (s.onDrives f).lane = s.lane := rfl
@[simp] theorem State.onDrives_hbm (s : State) (f : Tbl Drive → Tbl Drive) : (s.onDrives f).hbm = s.hbm := rfl
@[simp] theorem State.onDrives_led (s : State) (f : Tbl Drive → Tbl Drive) : (s.onDrives f).led = s.led := rfl
@[simp] theorem State.onDrives_drives (s : State) (f : Tbl Drive → Tbl Drive) : (s.onDrives f).drives = f s.drives := rfl
@[simp] theorem State.onDrives_fab (s : State) (f : Tbl Drive → Tbl Drive) : (s.onDrives f).fab = s.fab := rfl
@[simp] theorem State.onDrives_key (s : State) (f : Tbl Drive → Tbl Drive) : (s.onDrives f).key = s.key := rfl
@[simp] theorem State.onDrives_dig (s : State) (f : Tbl Drive → Tbl Drive) : (s.onDrives f).dig = s.dig := rfl
@[simp] theorem State.onDrives_rng (s : State) (f : Tbl Drive → Tbl Drive) : (s.onDrives f).rng = s.rng := rfl
@[simp] theorem State.onDrives_store (s : State) (f : Tbl Drive → Tbl Drive) : (s.onDrives f).store = s.store := rfl
@[simp] theorem State.onDrives_time (s : State) (f : Tbl Drive → Tbl Drive) : (s.onDrives f).time = s.time := rfl
@[simp] theorem State.onDrives_unit (s : State) (f : Tbl Drive → Tbl Drive) : (s.onDrives f).unit = s.unit := rfl
@[simp] theorem State.onDrives_core (s : State) (f : Tbl Drive → Tbl Drive) : (s.onDrives f).core = s.core := rfl
@[simp] theorem State.onDrives_tmp (s : State) (f : Tbl Drive → Tbl Drive) : (s.onDrives f).tmp = s.tmp := rfl
@[simp] theorem State.onDrives_mgt (s : State) (f : Tbl Drive → Tbl Drive) : (s.onDrives f).mgt = s.mgt := rfl
@[simp] theorem State.onDrives_par (s : State) (f : Tbl Drive → Tbl Drive) : (s.onDrives f).par = s.par := rfl
@[simp] theorem State.onDrives_pow (s : State) (f : Tbl Drive → Tbl Drive) : (s.onDrives f).pow = s.pow := rfl
@[simp] theorem State.onDrives_tele (s : State) (f : Tbl Drive → Tbl Drive) : (s.onDrives f).tele = s.tele := rfl
@[simp] theorem State.onDrives_out (s : State) (f : Tbl Drive → Tbl Drive) : (s.onDrives f).out = s.out := rfl
@[simp] theorem State.onDrives_pending (s : State) (f : Tbl Drive → Tbl Drive) : (s.onDrives f).pending = s.pending := rfl
@[simp] theorem State.onFab_hq (s : State) (f : FabSt → FabSt) : (s.onFab f).hq = s.hq := rfl
@[simp] theorem State.onFab_lane (s : State) (f : FabSt → FabSt) : (s.onFab f).lane = s.lane := rfl
@[simp] theorem State.onFab_hbm (s : State) (f : FabSt → FabSt) : (s.onFab f).hbm = s.hbm := rfl
@[simp] theorem State.onFab_led (s : State) (f : FabSt → FabSt) : (s.onFab f).led = s.led := rfl
@[simp] theorem State.onFab_drives (s : State) (f : FabSt → FabSt) : (s.onFab f).drives = s.drives := rfl
@[simp] theorem State.onFab_fab (s : State) (f : FabSt → FabSt) : (s.onFab f).fab = f s.fab := rfl
@[simp] theorem State.onFab_key (s : State) (f : FabSt → FabSt) : (s.onFab f).key = s.key := rfl
@[simp] theorem State.onFab_dig (s : State) (f : FabSt → FabSt) : (s.onFab f).dig = s.dig := rfl
@[simp] theorem State.onFab_rng (s : State) (f : FabSt → FabSt) : (s.onFab f).rng = s.rng := rfl
@[simp] theorem State.onFab_store (s : State) (f : FabSt → FabSt) : (s.onFab f).store = s.store := rfl
@[simp] theorem State.onFab_time (s : State) (f : FabSt → FabSt) : (s.onFab f).time = s.time := rfl
@[simp] theorem State.onFab_unit (s : State) (f : FabSt → FabSt) : (s.onFab f).unit = s.unit := rfl
@[simp] theorem State.onFab_core (s : State) (f : FabSt → FabSt) : (s.onFab f).core = s.core := rfl
@[simp] theorem State.onFab_tmp (s : State) (f : FabSt → FabSt) : (s.onFab f).tmp = s.tmp := rfl
@[simp] theorem State.onFab_mgt (s : State) (f : FabSt → FabSt) : (s.onFab f).mgt = s.mgt := rfl
@[simp] theorem State.onFab_par (s : State) (f : FabSt → FabSt) : (s.onFab f).par = s.par := rfl
@[simp] theorem State.onFab_pow (s : State) (f : FabSt → FabSt) : (s.onFab f).pow = s.pow := rfl
@[simp] theorem State.onFab_tele (s : State) (f : FabSt → FabSt) : (s.onFab f).tele = s.tele := rfl
@[simp] theorem State.onFab_out (s : State) (f : FabSt → FabSt) : (s.onFab f).out = s.out := rfl
@[simp] theorem State.onFab_pending (s : State) (f : FabSt → FabSt) : (s.onFab f).pending = s.pending := rfl
@[simp] theorem State.onKey_hq (s : State) (f : KeySt → KeySt) : (s.onKey f).hq = s.hq := rfl
@[simp] theorem State.onKey_lane (s : State) (f : KeySt → KeySt) : (s.onKey f).lane = s.lane := rfl
@[simp] theorem State.onKey_hbm (s : State) (f : KeySt → KeySt) : (s.onKey f).hbm = s.hbm := rfl
@[simp] theorem State.onKey_led (s : State) (f : KeySt → KeySt) : (s.onKey f).led = s.led := rfl
@[simp] theorem State.onKey_drives (s : State) (f : KeySt → KeySt) : (s.onKey f).drives = s.drives := rfl
@[simp] theorem State.onKey_fab (s : State) (f : KeySt → KeySt) : (s.onKey f).fab = s.fab := rfl
@[simp] theorem State.onKey_key (s : State) (f : KeySt → KeySt) : (s.onKey f).key = f s.key := rfl
@[simp] theorem State.onKey_dig (s : State) (f : KeySt → KeySt) : (s.onKey f).dig = s.dig := rfl
@[simp] theorem State.onKey_rng (s : State) (f : KeySt → KeySt) : (s.onKey f).rng = s.rng := rfl
@[simp] theorem State.onKey_store (s : State) (f : KeySt → KeySt) : (s.onKey f).store = s.store := rfl
@[simp] theorem State.onKey_time (s : State) (f : KeySt → KeySt) : (s.onKey f).time = s.time := rfl
@[simp] theorem State.onKey_unit (s : State) (f : KeySt → KeySt) : (s.onKey f).unit = s.unit := rfl
@[simp] theorem State.onKey_core (s : State) (f : KeySt → KeySt) : (s.onKey f).core = s.core := rfl
@[simp] theorem State.onKey_tmp (s : State) (f : KeySt → KeySt) : (s.onKey f).tmp = s.tmp := rfl
@[simp] theorem State.onKey_mgt (s : State) (f : KeySt → KeySt) : (s.onKey f).mgt = s.mgt := rfl
@[simp] theorem State.onKey_par (s : State) (f : KeySt → KeySt) : (s.onKey f).par = s.par := rfl
@[simp] theorem State.onKey_pow (s : State) (f : KeySt → KeySt) : (s.onKey f).pow = s.pow := rfl
@[simp] theorem State.onKey_tele (s : State) (f : KeySt → KeySt) : (s.onKey f).tele = s.tele := rfl
@[simp] theorem State.onKey_out (s : State) (f : KeySt → KeySt) : (s.onKey f).out = s.out := rfl
@[simp] theorem State.onKey_pending (s : State) (f : KeySt → KeySt) : (s.onKey f).pending = s.pending := rfl
@[simp] theorem State.onDig_hq (s : State) (f : DigSt → DigSt) : (s.onDig f).hq = s.hq := rfl
@[simp] theorem State.onDig_lane (s : State) (f : DigSt → DigSt) : (s.onDig f).lane = s.lane := rfl
@[simp] theorem State.onDig_hbm (s : State) (f : DigSt → DigSt) : (s.onDig f).hbm = s.hbm := rfl
@[simp] theorem State.onDig_led (s : State) (f : DigSt → DigSt) : (s.onDig f).led = s.led := rfl
@[simp] theorem State.onDig_drives (s : State) (f : DigSt → DigSt) : (s.onDig f).drives = s.drives := rfl
@[simp] theorem State.onDig_fab (s : State) (f : DigSt → DigSt) : (s.onDig f).fab = s.fab := rfl
@[simp] theorem State.onDig_key (s : State) (f : DigSt → DigSt) : (s.onDig f).key = s.key := rfl
@[simp] theorem State.onDig_dig (s : State) (f : DigSt → DigSt) : (s.onDig f).dig = f s.dig := rfl
@[simp] theorem State.onDig_rng (s : State) (f : DigSt → DigSt) : (s.onDig f).rng = s.rng := rfl
@[simp] theorem State.onDig_store (s : State) (f : DigSt → DigSt) : (s.onDig f).store = s.store := rfl
@[simp] theorem State.onDig_time (s : State) (f : DigSt → DigSt) : (s.onDig f).time = s.time := rfl
@[simp] theorem State.onDig_unit (s : State) (f : DigSt → DigSt) : (s.onDig f).unit = s.unit := rfl
@[simp] theorem State.onDig_core (s : State) (f : DigSt → DigSt) : (s.onDig f).core = s.core := rfl
@[simp] theorem State.onDig_tmp (s : State) (f : DigSt → DigSt) : (s.onDig f).tmp = s.tmp := rfl
@[simp] theorem State.onDig_mgt (s : State) (f : DigSt → DigSt) : (s.onDig f).mgt = s.mgt := rfl
@[simp] theorem State.onDig_par (s : State) (f : DigSt → DigSt) : (s.onDig f).par = s.par := rfl
@[simp] theorem State.onDig_pow (s : State) (f : DigSt → DigSt) : (s.onDig f).pow = s.pow := rfl
@[simp] theorem State.onDig_tele (s : State) (f : DigSt → DigSt) : (s.onDig f).tele = s.tele := rfl
@[simp] theorem State.onDig_out (s : State) (f : DigSt → DigSt) : (s.onDig f).out = s.out := rfl
@[simp] theorem State.onDig_pending (s : State) (f : DigSt → DigSt) : (s.onDig f).pending = s.pending := rfl
@[simp] theorem State.onRng_hq (s : State) (f : RngSt → RngSt) : (s.onRng f).hq = s.hq := rfl
@[simp] theorem State.onRng_lane (s : State) (f : RngSt → RngSt) : (s.onRng f).lane = s.lane := rfl
@[simp] theorem State.onRng_hbm (s : State) (f : RngSt → RngSt) : (s.onRng f).hbm = s.hbm := rfl
@[simp] theorem State.onRng_led (s : State) (f : RngSt → RngSt) : (s.onRng f).led = s.led := rfl
@[simp] theorem State.onRng_drives (s : State) (f : RngSt → RngSt) : (s.onRng f).drives = s.drives := rfl
@[simp] theorem State.onRng_fab (s : State) (f : RngSt → RngSt) : (s.onRng f).fab = s.fab := rfl
@[simp] theorem State.onRng_key (s : State) (f : RngSt → RngSt) : (s.onRng f).key = s.key := rfl
@[simp] theorem State.onRng_dig (s : State) (f : RngSt → RngSt) : (s.onRng f).dig = s.dig := rfl
@[simp] theorem State.onRng_rng (s : State) (f : RngSt → RngSt) : (s.onRng f).rng = f s.rng := rfl
@[simp] theorem State.onRng_store (s : State) (f : RngSt → RngSt) : (s.onRng f).store = s.store := rfl
@[simp] theorem State.onRng_time (s : State) (f : RngSt → RngSt) : (s.onRng f).time = s.time := rfl
@[simp] theorem State.onRng_unit (s : State) (f : RngSt → RngSt) : (s.onRng f).unit = s.unit := rfl
@[simp] theorem State.onRng_core (s : State) (f : RngSt → RngSt) : (s.onRng f).core = s.core := rfl
@[simp] theorem State.onRng_tmp (s : State) (f : RngSt → RngSt) : (s.onRng f).tmp = s.tmp := rfl
@[simp] theorem State.onRng_mgt (s : State) (f : RngSt → RngSt) : (s.onRng f).mgt = s.mgt := rfl
@[simp] theorem State.onRng_par (s : State) (f : RngSt → RngSt) : (s.onRng f).par = s.par := rfl
@[simp] theorem State.onRng_pow (s : State) (f : RngSt → RngSt) : (s.onRng f).pow = s.pow := rfl
@[simp] theorem State.onRng_tele (s : State) (f : RngSt → RngSt) : (s.onRng f).tele = s.tele := rfl
@[simp] theorem State.onRng_out (s : State) (f : RngSt → RngSt) : (s.onRng f).out = s.out := rfl
@[simp] theorem State.onRng_pending (s : State) (f : RngSt → RngSt) : (s.onRng f).pending = s.pending := rfl
@[simp] theorem State.onStore_hq (s : State) (f : RecSt → RecSt) : (s.onStore f).hq = s.hq := rfl
@[simp] theorem State.onStore_lane (s : State) (f : RecSt → RecSt) : (s.onStore f).lane = s.lane := rfl
@[simp] theorem State.onStore_hbm (s : State) (f : RecSt → RecSt) : (s.onStore f).hbm = s.hbm := rfl
@[simp] theorem State.onStore_led (s : State) (f : RecSt → RecSt) : (s.onStore f).led = s.led := rfl
@[simp] theorem State.onStore_drives (s : State) (f : RecSt → RecSt) : (s.onStore f).drives = s.drives := rfl
@[simp] theorem State.onStore_fab (s : State) (f : RecSt → RecSt) : (s.onStore f).fab = s.fab := rfl
@[simp] theorem State.onStore_key (s : State) (f : RecSt → RecSt) : (s.onStore f).key = s.key := rfl
@[simp] theorem State.onStore_dig (s : State) (f : RecSt → RecSt) : (s.onStore f).dig = s.dig := rfl
@[simp] theorem State.onStore_rng (s : State) (f : RecSt → RecSt) : (s.onStore f).rng = s.rng := rfl
@[simp] theorem State.onStore_store (s : State) (f : RecSt → RecSt) : (s.onStore f).store = f s.store := rfl
@[simp] theorem State.onStore_time (s : State) (f : RecSt → RecSt) : (s.onStore f).time = s.time := rfl
@[simp] theorem State.onStore_unit (s : State) (f : RecSt → RecSt) : (s.onStore f).unit = s.unit := rfl
@[simp] theorem State.onStore_core (s : State) (f : RecSt → RecSt) : (s.onStore f).core = s.core := rfl
@[simp] theorem State.onStore_tmp (s : State) (f : RecSt → RecSt) : (s.onStore f).tmp = s.tmp := rfl
@[simp] theorem State.onStore_mgt (s : State) (f : RecSt → RecSt) : (s.onStore f).mgt = s.mgt := rfl
@[simp] theorem State.onStore_par (s : State) (f : RecSt → RecSt) : (s.onStore f).par = s.par := rfl
@[simp] theorem State.onStore_pow (s : State) (f : RecSt → RecSt) : (s.onStore f).pow = s.pow := rfl
@[simp] theorem State.onStore_tele (s : State) (f : RecSt → RecSt) : (s.onStore f).tele = s.tele := rfl
@[simp] theorem State.onStore_out (s : State) (f : RecSt → RecSt) : (s.onStore f).out = s.out := rfl
@[simp] theorem State.onStore_pending (s : State) (f : RecSt → RecSt) : (s.onStore f).pending = s.pending := rfl
@[simp] theorem State.onTime_hq (s : State) (f : TimeSt → TimeSt) : (s.onTime f).hq = s.hq := rfl
@[simp] theorem State.onTime_lane (s : State) (f : TimeSt → TimeSt) : (s.onTime f).lane = s.lane := rfl
@[simp] theorem State.onTime_hbm (s : State) (f : TimeSt → TimeSt) : (s.onTime f).hbm = s.hbm := rfl
@[simp] theorem State.onTime_led (s : State) (f : TimeSt → TimeSt) : (s.onTime f).led = s.led := rfl
@[simp] theorem State.onTime_drives (s : State) (f : TimeSt → TimeSt) : (s.onTime f).drives = s.drives := rfl
@[simp] theorem State.onTime_fab (s : State) (f : TimeSt → TimeSt) : (s.onTime f).fab = s.fab := rfl
@[simp] theorem State.onTime_key (s : State) (f : TimeSt → TimeSt) : (s.onTime f).key = s.key := rfl
@[simp] theorem State.onTime_dig (s : State) (f : TimeSt → TimeSt) : (s.onTime f).dig = s.dig := rfl
@[simp] theorem State.onTime_rng (s : State) (f : TimeSt → TimeSt) : (s.onTime f).rng = s.rng := rfl
@[simp] theorem State.onTime_store (s : State) (f : TimeSt → TimeSt) : (s.onTime f).store = s.store := rfl
@[simp] theorem State.onTime_time (s : State) (f : TimeSt → TimeSt) : (s.onTime f).time = f s.time := rfl
@[simp] theorem State.onTime_unit (s : State) (f : TimeSt → TimeSt) : (s.onTime f).unit = s.unit := rfl
@[simp] theorem State.onTime_core (s : State) (f : TimeSt → TimeSt) : (s.onTime f).core = s.core := rfl
@[simp] theorem State.onTime_tmp (s : State) (f : TimeSt → TimeSt) : (s.onTime f).tmp = s.tmp := rfl
@[simp] theorem State.onTime_mgt (s : State) (f : TimeSt → TimeSt) : (s.onTime f).mgt = s.mgt := rfl
@[simp] theorem State.onTime_par (s : State) (f : TimeSt → TimeSt) : (s.onTime f).par = s.par := rfl
@[simp] theorem State.onTime_pow (s : State) (f : TimeSt → TimeSt) : (s.onTime f).pow = s.pow := rfl
@[simp] theorem State.onTime_tele (s : State) (f : TimeSt → TimeSt) : (s.onTime f).tele = s.tele := rfl
@[simp] theorem State.onTime_out (s : State) (f : TimeSt → TimeSt) : (s.onTime f).out = s.out := rfl
@[simp] theorem State.onTime_pending (s : State) (f : TimeSt → TimeSt) : (s.onTime f).pending = s.pending := rfl
@[simp] theorem State.onUnit_hq (s : State) (f : UnitSt → UnitSt) : (s.onUnit f).hq = s.hq := rfl
@[simp] theorem State.onUnit_lane (s : State) (f : UnitSt → UnitSt) : (s.onUnit f).lane = s.lane := rfl
@[simp] theorem State.onUnit_hbm (s : State) (f : UnitSt → UnitSt) : (s.onUnit f).hbm = s.hbm := rfl
@[simp] theorem State.onUnit_led (s : State) (f : UnitSt → UnitSt) : (s.onUnit f).led = s.led := rfl
@[simp] theorem State.onUnit_drives (s : State) (f : UnitSt → UnitSt) : (s.onUnit f).drives = s.drives := rfl
@[simp] theorem State.onUnit_fab (s : State) (f : UnitSt → UnitSt) : (s.onUnit f).fab = s.fab := rfl
@[simp] theorem State.onUnit_key (s : State) (f : UnitSt → UnitSt) : (s.onUnit f).key = s.key := rfl
@[simp] theorem State.onUnit_dig (s : State) (f : UnitSt → UnitSt) : (s.onUnit f).dig = s.dig := rfl
@[simp] theorem State.onUnit_rng (s : State) (f : UnitSt → UnitSt) : (s.onUnit f).rng = s.rng := rfl
@[simp] theorem State.onUnit_store (s : State) (f : UnitSt → UnitSt) : (s.onUnit f).store = s.store := rfl
@[simp] theorem State.onUnit_time (s : State) (f : UnitSt → UnitSt) : (s.onUnit f).time = s.time := rfl
@[simp] theorem State.onUnit_unit (s : State) (f : UnitSt → UnitSt) : (s.onUnit f).unit = f s.unit := rfl
@[simp] theorem State.onUnit_core (s : State) (f : UnitSt → UnitSt) : (s.onUnit f).core = s.core := rfl
@[simp] theorem State.onUnit_tmp (s : State) (f : UnitSt → UnitSt) : (s.onUnit f).tmp = s.tmp := rfl
@[simp] theorem State.onUnit_mgt (s : State) (f : UnitSt → UnitSt) : (s.onUnit f).mgt = s.mgt := rfl
@[simp] theorem State.onUnit_par (s : State) (f : UnitSt → UnitSt) : (s.onUnit f).par = s.par := rfl
@[simp] theorem State.onUnit_pow (s : State) (f : UnitSt → UnitSt) : (s.onUnit f).pow = s.pow := rfl
@[simp] theorem State.onUnit_tele (s : State) (f : UnitSt → UnitSt) : (s.onUnit f).tele = s.tele := rfl
@[simp] theorem State.onUnit_out (s : State) (f : UnitSt → UnitSt) : (s.onUnit f).out = s.out := rfl
@[simp] theorem State.onUnit_pending (s : State) (f : UnitSt → UnitSt) : (s.onUnit f).pending = s.pending := rfl
@[simp] theorem State.onCore_hq (s : State) (f : Cores → Cores) : (s.onCore f).hq = s.hq := rfl
@[simp] theorem State.onCore_lane (s : State) (f : Cores → Cores) : (s.onCore f).lane = s.lane := rfl
@[simp] theorem State.onCore_hbm (s : State) (f : Cores → Cores) : (s.onCore f).hbm = s.hbm := rfl
@[simp] theorem State.onCore_led (s : State) (f : Cores → Cores) : (s.onCore f).led = s.led := rfl
@[simp] theorem State.onCore_drives (s : State) (f : Cores → Cores) : (s.onCore f).drives = s.drives := rfl
@[simp] theorem State.onCore_fab (s : State) (f : Cores → Cores) : (s.onCore f).fab = s.fab := rfl
@[simp] theorem State.onCore_key (s : State) (f : Cores → Cores) : (s.onCore f).key = s.key := rfl
@[simp] theorem State.onCore_dig (s : State) (f : Cores → Cores) : (s.onCore f).dig = s.dig := rfl
@[simp] theorem State.onCore_rng (s : State) (f : Cores → Cores) : (s.onCore f).rng = s.rng := rfl
@[simp] theorem State.onCore_store (s : State) (f : Cores → Cores) : (s.onCore f).store = s.store := rfl
@[simp] theorem State.onCore_time (s : State) (f : Cores → Cores) : (s.onCore f).time = s.time := rfl
@[simp] theorem State.onCore_unit (s : State) (f : Cores → Cores) : (s.onCore f).unit = s.unit := rfl
@[simp] theorem State.onCore_core (s : State) (f : Cores → Cores) : (s.onCore f).core = f s.core := rfl
@[simp] theorem State.onCore_tmp (s : State) (f : Cores → Cores) : (s.onCore f).tmp = s.tmp := rfl
@[simp] theorem State.onCore_mgt (s : State) (f : Cores → Cores) : (s.onCore f).mgt = s.mgt := rfl
@[simp] theorem State.onCore_par (s : State) (f : Cores → Cores) : (s.onCore f).par = s.par := rfl
@[simp] theorem State.onCore_pow (s : State) (f : Cores → Cores) : (s.onCore f).pow = s.pow := rfl
@[simp] theorem State.onCore_tele (s : State) (f : Cores → Cores) : (s.onCore f).tele = s.tele := rfl
@[simp] theorem State.onCore_out (s : State) (f : Cores → Cores) : (s.onCore f).out = s.out := rfl
@[simp] theorem State.onCore_pending (s : State) (f : Cores → Cores) : (s.onCore f).pending = s.pending := rfl
@[simp] theorem State.onTmp_hq (s : State) (f : TamperSt → TamperSt) : (s.onTmp f).hq = s.hq := rfl
@[simp] theorem State.onTmp_lane (s : State) (f : TamperSt → TamperSt) : (s.onTmp f).lane = s.lane := rfl
@[simp] theorem State.onTmp_hbm (s : State) (f : TamperSt → TamperSt) : (s.onTmp f).hbm = s.hbm := rfl
@[simp] theorem State.onTmp_led (s : State) (f : TamperSt → TamperSt) : (s.onTmp f).led = s.led := rfl
@[simp] theorem State.onTmp_drives (s : State) (f : TamperSt → TamperSt) : (s.onTmp f).drives = s.drives := rfl
@[simp] theorem State.onTmp_fab (s : State) (f : TamperSt → TamperSt) : (s.onTmp f).fab = s.fab := rfl
@[simp] theorem State.onTmp_key (s : State) (f : TamperSt → TamperSt) : (s.onTmp f).key = s.key := rfl
@[simp] theorem State.onTmp_dig (s : State) (f : TamperSt → TamperSt) : (s.onTmp f).dig = s.dig := rfl
@[simp] theorem State.onTmp_rng (s : State) (f : TamperSt → TamperSt) : (s.onTmp f).rng = s.rng := rfl
@[simp] theorem State.onTmp_store (s : State) (f : TamperSt → TamperSt) : (s.onTmp f).store = s.store := rfl
@[simp] theorem State.onTmp_time (s : State) (f : TamperSt → TamperSt) : (s.onTmp f).time = s.time := rfl
@[simp] theorem State.onTmp_unit (s : State) (f : TamperSt → TamperSt) : (s.onTmp f).unit = s.unit := rfl
@[simp] theorem State.onTmp_core (s : State) (f : TamperSt → TamperSt) : (s.onTmp f).core = s.core := rfl
@[simp] theorem State.onTmp_tmp (s : State) (f : TamperSt → TamperSt) : (s.onTmp f).tmp = f s.tmp := rfl
@[simp] theorem State.onTmp_mgt (s : State) (f : TamperSt → TamperSt) : (s.onTmp f).mgt = s.mgt := rfl
@[simp] theorem State.onTmp_par (s : State) (f : TamperSt → TamperSt) : (s.onTmp f).par = s.par := rfl
@[simp] theorem State.onTmp_pow (s : State) (f : TamperSt → TamperSt) : (s.onTmp f).pow = s.pow := rfl
@[simp] theorem State.onTmp_tele (s : State) (f : TamperSt → TamperSt) : (s.onTmp f).tele = s.tele := rfl
@[simp] theorem State.onTmp_out (s : State) (f : TamperSt → TamperSt) : (s.onTmp f).out = s.out := rfl
@[simp] theorem State.onTmp_pending (s : State) (f : TamperSt → TamperSt) : (s.onTmp f).pending = s.pending := rfl
@[simp] theorem State.onMgt_hq (s : State) (f : MgtSt → MgtSt) : (s.onMgt f).hq = s.hq := rfl
@[simp] theorem State.onMgt_lane (s : State) (f : MgtSt → MgtSt) : (s.onMgt f).lane = s.lane := rfl
@[simp] theorem State.onMgt_hbm (s : State) (f : MgtSt → MgtSt) : (s.onMgt f).hbm = s.hbm := rfl
@[simp] theorem State.onMgt_led (s : State) (f : MgtSt → MgtSt) : (s.onMgt f).led = s.led := rfl
@[simp] theorem State.onMgt_drives (s : State) (f : MgtSt → MgtSt) : (s.onMgt f).drives = s.drives := rfl
@[simp] theorem State.onMgt_fab (s : State) (f : MgtSt → MgtSt) : (s.onMgt f).fab = s.fab := rfl
@[simp] theorem State.onMgt_key (s : State) (f : MgtSt → MgtSt) : (s.onMgt f).key = s.key := rfl
@[simp] theorem State.onMgt_dig (s : State) (f : MgtSt → MgtSt) : (s.onMgt f).dig = s.dig := rfl
@[simp] theorem State.onMgt_rng (s : State) (f : MgtSt → MgtSt) : (s.onMgt f).rng = s.rng := rfl
@[simp] theorem State.onMgt_store (s : State) (f : MgtSt → MgtSt) : (s.onMgt f).store = s.store := rfl
@[simp] theorem State.onMgt_time (s : State) (f : MgtSt → MgtSt) : (s.onMgt f).time = s.time := rfl
@[simp] theorem State.onMgt_unit (s : State) (f : MgtSt → MgtSt) : (s.onMgt f).unit = s.unit := rfl
@[simp] theorem State.onMgt_core (s : State) (f : MgtSt → MgtSt) : (s.onMgt f).core = s.core := rfl
@[simp] theorem State.onMgt_tmp (s : State) (f : MgtSt → MgtSt) : (s.onMgt f).tmp = s.tmp := rfl
@[simp] theorem State.onMgt_mgt (s : State) (f : MgtSt → MgtSt) : (s.onMgt f).mgt = f s.mgt := rfl
@[simp] theorem State.onMgt_par (s : State) (f : MgtSt → MgtSt) : (s.onMgt f).par = s.par := rfl
@[simp] theorem State.onMgt_pow (s : State) (f : MgtSt → MgtSt) : (s.onMgt f).pow = s.pow := rfl
@[simp] theorem State.onMgt_tele (s : State) (f : MgtSt → MgtSt) : (s.onMgt f).tele = s.tele := rfl
@[simp] theorem State.onMgt_out (s : State) (f : MgtSt → MgtSt) : (s.onMgt f).out = s.out := rfl
@[simp] theorem State.onMgt_pending (s : State) (f : MgtSt → MgtSt) : (s.onMgt f).pending = s.pending := rfl
@[simp] theorem State.onPar_hq (s : State) (f : Params → Params) : (s.onPar f).hq = s.hq := rfl
@[simp] theorem State.onPar_lane (s : State) (f : Params → Params) : (s.onPar f).lane = s.lane := rfl
@[simp] theorem State.onPar_hbm (s : State) (f : Params → Params) : (s.onPar f).hbm = s.hbm := rfl
@[simp] theorem State.onPar_led (s : State) (f : Params → Params) : (s.onPar f).led = s.led := rfl
@[simp] theorem State.onPar_drives (s : State) (f : Params → Params) : (s.onPar f).drives = s.drives := rfl
@[simp] theorem State.onPar_fab (s : State) (f : Params → Params) : (s.onPar f).fab = s.fab := rfl
@[simp] theorem State.onPar_key (s : State) (f : Params → Params) : (s.onPar f).key = s.key := rfl
@[simp] theorem State.onPar_dig (s : State) (f : Params → Params) : (s.onPar f).dig = s.dig := rfl
@[simp] theorem State.onPar_rng (s : State) (f : Params → Params) : (s.onPar f).rng = s.rng := rfl
@[simp] theorem State.onPar_store (s : State) (f : Params → Params) : (s.onPar f).store = s.store := rfl
@[simp] theorem State.onPar_time (s : State) (f : Params → Params) : (s.onPar f).time = s.time := rfl
@[simp] theorem State.onPar_unit (s : State) (f : Params → Params) : (s.onPar f).unit = s.unit := rfl
@[simp] theorem State.onPar_core (s : State) (f : Params → Params) : (s.onPar f).core = s.core := rfl
@[simp] theorem State.onPar_tmp (s : State) (f : Params → Params) : (s.onPar f).tmp = s.tmp := rfl
@[simp] theorem State.onPar_mgt (s : State) (f : Params → Params) : (s.onPar f).mgt = s.mgt := rfl
@[simp] theorem State.onPar_par (s : State) (f : Params → Params) : (s.onPar f).par = f s.par := rfl
@[simp] theorem State.onPar_pow (s : State) (f : Params → Params) : (s.onPar f).pow = s.pow := rfl
@[simp] theorem State.onPar_tele (s : State) (f : Params → Params) : (s.onPar f).tele = s.tele := rfl
@[simp] theorem State.onPar_out (s : State) (f : Params → Params) : (s.onPar f).out = s.out := rfl
@[simp] theorem State.onPar_pending (s : State) (f : Params → Params) : (s.onPar f).pending = s.pending := rfl
@[simp] theorem State.onPow_hq (s : State) (f : PowerSt → PowerSt) : (s.onPow f).hq = s.hq := rfl
@[simp] theorem State.onPow_lane (s : State) (f : PowerSt → PowerSt) : (s.onPow f).lane = s.lane := rfl
@[simp] theorem State.onPow_hbm (s : State) (f : PowerSt → PowerSt) : (s.onPow f).hbm = s.hbm := rfl
@[simp] theorem State.onPow_led (s : State) (f : PowerSt → PowerSt) : (s.onPow f).led = s.led := rfl
@[simp] theorem State.onPow_drives (s : State) (f : PowerSt → PowerSt) : (s.onPow f).drives = s.drives := rfl
@[simp] theorem State.onPow_fab (s : State) (f : PowerSt → PowerSt) : (s.onPow f).fab = s.fab := rfl
@[simp] theorem State.onPow_key (s : State) (f : PowerSt → PowerSt) : (s.onPow f).key = s.key := rfl
@[simp] theorem State.onPow_dig (s : State) (f : PowerSt → PowerSt) : (s.onPow f).dig = s.dig := rfl
@[simp] theorem State.onPow_rng (s : State) (f : PowerSt → PowerSt) : (s.onPow f).rng = s.rng := rfl
@[simp] theorem State.onPow_store (s : State) (f : PowerSt → PowerSt) : (s.onPow f).store = s.store := rfl
@[simp] theorem State.onPow_time (s : State) (f : PowerSt → PowerSt) : (s.onPow f).time = s.time := rfl
@[simp] theorem State.onPow_unit (s : State) (f : PowerSt → PowerSt) : (s.onPow f).unit = s.unit := rfl
@[simp] theorem State.onPow_core (s : State) (f : PowerSt → PowerSt) : (s.onPow f).core = s.core := rfl
@[simp] theorem State.onPow_tmp (s : State) (f : PowerSt → PowerSt) : (s.onPow f).tmp = s.tmp := rfl
@[simp] theorem State.onPow_mgt (s : State) (f : PowerSt → PowerSt) : (s.onPow f).mgt = s.mgt := rfl
@[simp] theorem State.onPow_par (s : State) (f : PowerSt → PowerSt) : (s.onPow f).par = s.par := rfl
@[simp] theorem State.onPow_pow (s : State) (f : PowerSt → PowerSt) : (s.onPow f).pow = f s.pow := rfl
@[simp] theorem State.onPow_tele (s : State) (f : PowerSt → PowerSt) : (s.onPow f).tele = s.tele := rfl
@[simp] theorem State.onPow_out (s : State) (f : PowerSt → PowerSt) : (s.onPow f).out = s.out := rfl
@[simp] theorem State.onPow_pending (s : State) (f : PowerSt → PowerSt) : (s.onPow f).pending = s.pending := rfl
@[simp] theorem State.onTele_hq (s : State) (f : TeleSt → TeleSt) : (s.onTele f).hq = s.hq := rfl
@[simp] theorem State.onTele_lane (s : State) (f : TeleSt → TeleSt) : (s.onTele f).lane = s.lane := rfl
@[simp] theorem State.onTele_hbm (s : State) (f : TeleSt → TeleSt) : (s.onTele f).hbm = s.hbm := rfl
@[simp] theorem State.onTele_led (s : State) (f : TeleSt → TeleSt) : (s.onTele f).led = s.led := rfl
@[simp] theorem State.onTele_drives (s : State) (f : TeleSt → TeleSt) : (s.onTele f).drives = s.drives := rfl
@[simp] theorem State.onTele_fab (s : State) (f : TeleSt → TeleSt) : (s.onTele f).fab = s.fab := rfl
@[simp] theorem State.onTele_key (s : State) (f : TeleSt → TeleSt) : (s.onTele f).key = s.key := rfl
@[simp] theorem State.onTele_dig (s : State) (f : TeleSt → TeleSt) : (s.onTele f).dig = s.dig := rfl
@[simp] theorem State.onTele_rng (s : State) (f : TeleSt → TeleSt) : (s.onTele f).rng = s.rng := rfl
@[simp] theorem State.onTele_store (s : State) (f : TeleSt → TeleSt) : (s.onTele f).store = s.store := rfl
@[simp] theorem State.onTele_time (s : State) (f : TeleSt → TeleSt) : (s.onTele f).time = s.time := rfl
@[simp] theorem State.onTele_unit (s : State) (f : TeleSt → TeleSt) : (s.onTele f).unit = s.unit := rfl
@[simp] theorem State.onTele_core (s : State) (f : TeleSt → TeleSt) : (s.onTele f).core = s.core := rfl
@[simp] theorem State.onTele_tmp (s : State) (f : TeleSt → TeleSt) : (s.onTele f).tmp = s.tmp := rfl
@[simp] theorem State.onTele_mgt (s : State) (f : TeleSt → TeleSt) : (s.onTele f).mgt = s.mgt := rfl
@[simp] theorem State.onTele_par (s : State) (f : TeleSt → TeleSt) : (s.onTele f).par = s.par := rfl
@[simp] theorem State.onTele_pow (s : State) (f : TeleSt → TeleSt) : (s.onTele f).pow = s.pow := rfl
@[simp] theorem State.onTele_tele (s : State) (f : TeleSt → TeleSt) : (s.onTele f).tele = f s.tele := rfl
@[simp] theorem State.onTele_out (s : State) (f : TeleSt → TeleSt) : (s.onTele f).out = s.out := rfl
@[simp] theorem State.onTele_pending (s : State) (f : TeleSt → TeleSt) : (s.onTele f).pending = s.pending := rfl
@[simp] theorem State.onOut_hq (s : State) (f : OutSt → OutSt) : (s.onOut f).hq = s.hq := rfl
@[simp] theorem State.onOut_lane (s : State) (f : OutSt → OutSt) : (s.onOut f).lane = s.lane := rfl
@[simp] theorem State.onOut_hbm (s : State) (f : OutSt → OutSt) : (s.onOut f).hbm = s.hbm := rfl
@[simp] theorem State.onOut_led (s : State) (f : OutSt → OutSt) : (s.onOut f).led = s.led := rfl
@[simp] theorem State.onOut_drives (s : State) (f : OutSt → OutSt) : (s.onOut f).drives = s.drives := rfl
@[simp] theorem State.onOut_fab (s : State) (f : OutSt → OutSt) : (s.onOut f).fab = s.fab := rfl
@[simp] theorem State.onOut_key (s : State) (f : OutSt → OutSt) : (s.onOut f).key = s.key := rfl
@[simp] theorem State.onOut_dig (s : State) (f : OutSt → OutSt) : (s.onOut f).dig = s.dig := rfl
@[simp] theorem State.onOut_rng (s : State) (f : OutSt → OutSt) : (s.onOut f).rng = s.rng := rfl
@[simp] theorem State.onOut_store (s : State) (f : OutSt → OutSt) : (s.onOut f).store = s.store := rfl
@[simp] theorem State.onOut_time (s : State) (f : OutSt → OutSt) : (s.onOut f).time = s.time := rfl
@[simp] theorem State.onOut_unit (s : State) (f : OutSt → OutSt) : (s.onOut f).unit = s.unit := rfl
@[simp] theorem State.onOut_core (s : State) (f : OutSt → OutSt) : (s.onOut f).core = s.core := rfl
@[simp] theorem State.onOut_tmp (s : State) (f : OutSt → OutSt) : (s.onOut f).tmp = s.tmp := rfl
@[simp] theorem State.onOut_mgt (s : State) (f : OutSt → OutSt) : (s.onOut f).mgt = s.mgt := rfl
@[simp] theorem State.onOut_par (s : State) (f : OutSt → OutSt) : (s.onOut f).par = s.par := rfl
@[simp] theorem State.onOut_pow (s : State) (f : OutSt → OutSt) : (s.onOut f).pow = s.pow := rfl
@[simp] theorem State.onOut_tele (s : State) (f : OutSt → OutSt) : (s.onOut f).tele = s.tele := rfl
@[simp] theorem State.onOut_out (s : State) (f : OutSt → OutSt) : (s.onOut f).out = f s.out := rfl
@[simp] theorem State.onOut_pending (s : State) (f : OutSt → OutSt) : (s.onOut f).pending = s.pending := rfl

end Sys2Proof.Machine
end

