-- ==== Sys2Proof/Laws/Wire.lean ====
section
/-! SUPPORT. What the bytes of a frame give back: a sealed frame passes its CRC and opens to its padded payload. -/

namespace Sys2Proof.Machine

@[simp] theorem leBytes_length (n v : Nat) : (leBytes n v).length = n := by
  induction n generalizing v with
  | zero => rfl
  | succ n ih => simp [leBytes, ih]

theorem leNat_leBytes (n v : Nat) : leNat (leBytes n v) = v % 256 ^ n := by
  induction n generalizing v with
  | zero => simp [leBytes, leNat, Nat.mod_one]
  | succ n ih =>
    simp only [leBytes, leNat, ih, BitVec.toNat_ofNat]
    show v % 256 + 256 * (v / 256 % 256 ^ n) = v % 256 ^ (n + 1)
    rw [Nat.pow_succ, Nat.mul_comm (256 ^ n) 256, Nat.mod_mul]

@[simp] theorem bvBytes_length {w : Nat} (v : BitVec w) : (bvBytes v).length = w / 8 := by simp [bvBytes, beBytes]

@[simp] theorem gcmCrypt_length (key iv b : Bytes) : (gcmCrypt key iv b).length = b.length := by simp [gcmCrypt]

/-- Deciphering is enciphering again. -/
theorem gcmCrypt_gcmCrypt (key iv b : Bytes) : gcmCrypt key iv (gcmCrypt key iv b) = b := by
  apply List.ext_getElem
  · simp
  · intro i h1 h2; simp [gcmCrypt]

/-- Filling to whole blocks only appends zeros. -/
theorem toBlocks_eq (b : Bytes) : toBlocks b = b ++ zeros ((b.length + 7) / 8 * 8 - b.length) := by
  simp only [toBlocks, fit]; rw [List.take_of_length_le (by omega)]

theorem toBlocks_length (b : Bytes) : (toBlocks b).length = (b.length + 7) / 8 * 8 := by
  rw [toBlocks_eq]; simp only [List.length_append, zeros, List.length_replicate]; omega

@[simp] theorem headerBytes_length (f : Frame) (len seq : Nat) : (headerBytes f len seq).length = 16 := by
  simp [headerBytes, zeros]

theorem leAt_append_left (a b : Bytes) (o n : Nat) (h : o + n ≤ a.length) : leAt (a ++ b) o n = leAt a o n := by
  simp only [leAt, cut]; rw [List.drop_append_of_le_length (by omega), List.take_append_of_le_length (by simp; omega)]

theorem leAt_headerBytes_length (f : Frame) (len seq : Nat) (h : len < 65536) : leAt (headerBytes f len seq) 8 2 = len := by
  have e : cut (headerBytes f len seq) 8 2 = leBytes 2 len := by simp [headerBytes, cut, leBytes, zeros]
  simp only [leAt, e, leNat_leBytes]; omega

theorem cut_append {a b c : Bytes} {o n : Nat} (ho : a.length = o) (hn : b.length = n) : cut (a ++ (b ++ c)) o n = b := by
  subst ho hn; simp [cut]

/-- The parts of a sealed frame. -/
theorem sealFrame_parts (key : Bytes) (n : Nat) (f : Frame) (hp : (payloadBytes f.body).length < 65536) :
    let h := headerBytes f (payloadBytes f.body).length n
    let ct := gcmCrypt key (frameIv n) (toBlocks (payloadBytes f.body))
    let g := gcmTagOf key (frameIv n) h ct
    ∃ z, sealFrame key n f = h ++ (ct ++ (g ++ (leBytes 4 (crc32c (h ++ (ct ++ g))).toNat ++ z))) ∧ h.length = 16 ∧
      crcAt (sealFrame key n f) = 16 + ct.length + g.length ∧ g.length = 16 := by
  intro h ct g
  have hg : g.length = 16 := by simp [g, gcmTagOf]
  have hc : ct.length = ((payloadBytes f.body).length + 7) / 8 * 8 := by simp only [ct, gcmCrypt_length, toBlocks_length]
  have e : ∃ z, sealFrame key n f = h ++ (ct ++ (g ++ (leBytes 4 (crc32c (h ++ (ct ++ g))).toNat ++ z))) := by
    have s : sealFrame key n f = toBlocks (h ++ ct ++ g ++ leBytes 4 (crc32c (h ++ ct ++ g)).toNat) := rfl
    rw [s, toBlocks_eq]; simp only [List.append_assoc]; exact ⟨_, rfl⟩
  obtain ⟨z, e⟩ := e
  refine ⟨z, e, headerBytes_length .., ?_, hg⟩
  have hl : leAt (sealFrame key n f) 8 2 = (payloadBytes f.body).length := by
    rw [e, leAt_append_left _ _ _ _ (by simp [h]), leAt_headerBytes_length _ _ _ hp]
  simp only [crcAt, hl, hc, hg]; omega

/-- Bytes followed by their CRC where their header places it pass (07 R364). -/
theorem crcGood_append (b z : Bytes) (h : crcAt (b ++ (leBytes 4 (crc32c b).toNat ++ z)) = b.length) :
    crcGood (b ++ (leBytes 4 (crc32c b).toNat ++ z)) = true := by
  simp only [crcGood, leAt, h]
  have hlt := (crc32c b).isLt
  rw [cut_append rfl (leBytes_length 4 _), leNat_leBytes, List.take_left' rfl, Nat.mod_eq_of_lt (by omega)]
  simp

/-- A sealed frame passes its CRC (07 R364). -/
theorem sealFrame_crcGood (key : Bytes) (n : Nat) (f : Frame) (hp : (payloadBytes f.body).length < 65536) : crcGood (sealFrame key n f) = true := by
  obtain ⟨z, e, hh, ha, hg⟩ := sealFrame_parts key n f hp
  rw [e] at ha ⊢
  generalize gcmTagOf key (frameIv n) _ _ = g at *
  generalize headerBytes f (payloadBytes f.body).length n = h at *
  generalize gcmCrypt key (frameIv n) (toBlocks (payloadBytes f.body)) = ct at *
  have e2 (x : Bytes) : h ++ (ct ++ (g ++ x)) = (h ++ (ct ++ g)) ++ x := by simp only [List.append_assoc]
  rw [e2] at ha ⊢
  exact crcGood_append _ _ (by rw [ha]; simp; omega)

/-- A sealed frame opens, under the same key and count, to its padded payload (07 R356). -/
theorem sealFrame_opens (key : Bytes) (n : Nat) (f : Frame) (hp : (payloadBytes f.body).length < 65536) :
    openFrame key n (sealFrame key n f) = some (toBlocks (payloadBytes f.body)) := by
  obtain ⟨z, e, hh, ha, hg⟩ := sealFrame_parts key n f hp
  simp only [openFrame, ha]
  rw [e]
  have h1 : 16 + (gcmCrypt key (frameIv n) (toBlocks (payloadBytes f.body))).length + (gcmTagOf key (frameIv n)
      (headerBytes f (payloadBytes f.body).length n) (gcmCrypt key (frameIv n) (toBlocks (payloadBytes f.body)))).length - 32
      = (gcmCrypt key (frameIv n) (toBlocks (payloadBytes f.body))).length := by omega
  rw [h1, cut_append hh rfl, List.take_left' hh, ← List.append_assoc, cut_append (by rw [List.length_append]; omega) hg, if_pos rfl, gcmCrypt_gcmCrypt]

end Sys2Proof.Machine
end

