-- ==== Sys2Proof/Tests/Slice0.lean ====
section
/-! SUPPORT. The package's own tests. Expected values are the spec's worked examples and tables, or hand calculation from its rules; `witness_`
theorems show states and operands that meet the hypotheses of the statements of Certificates/Slice0/Obligations.lean. -/

namespace Sys2Proof.Tests

set_option Elab.async false

open Sys2Proof.Machine

/-! ### Well-formedness: a command with one operand out of range, for each check, is refused; with every operand in range it is not -/

theorem test_illFormed0 : ([
    .vstbyReturn (2 ^ 64), .holdcapMeasured (2 ^ 32), .bootKeyStoreOpen [1024] false,
    .hbmTrainingDone [16] [], .driveReady 2 (zeros 48) (zeros 48) {}, .driveReady 0 (zeros 47) (zeros 48) {}, .driveReady 0 (zeros 48) [] {}, .sqEnable 32 0,
    .sqDisable 32, .sqDrainDone 32, .cqEnable 32 0,
    .cqDisable 32, .sqTailDoorbell 32 0, .cqHeadDoorbell 32 0,
    .measWord0Read .a 8, .resultEarlyRead .a (.lane 16), .registerWrite (.bar0 2 4 0 0),
    .registerWrite (.bar0 65536 4 0 0), .registerWrite (.bar0 0 2 0 0), .registerWrite (.bar2 4096 8 0), .registerWrite (.aer 0x1C 0 0), .registerWrite (.window .a 0x7FFF (intW 0)),
    .registerWrite (.window .a 0x8000 {}), .registerWrite (.window .a 0x8000 { tag := 6 }), .entryFetch 32 (zeros 128) 0 0,
    .entryFetch 0 (zeros 128) 16 0, .entryFetch 0 (zeros 128) 0 64, .entryFetch 0 (zeros 129) 0 0,
    .entryReadFail 32] : List Instr).all (fun i => !i.wf) = true := by decide +kernel

theorem test_illFormed1 : ([
    .completionWriteFail 32, .telemetryRefresh (2 ^ 64) 0, .telemetryRefresh 0 (2 ^ 64),
    .driveLogPoll 2 {}, .mintIntake 16 0, .mintIntake 0 64,
    .mintWrapperReadDone 16 0 none, .mintWrapperReadDone 0 64 none, .mintWrapperReadTimeout 16 0,
    .mintWrapperReadTimeout 0 64, .mintClock 16 0, .mintClock 0 64,
    .mintRule 16 0, .mintRule 0 64, .keyCacheFill 16 0 0,
    .keyCacheFill 0 1024 0, .keyCacheFill 0 0 65536, .mintDrbgTimeout 16 0,
    .mintDrbgTimeout 0 64, .mintLedgerAssign 16 0, .mintLedgerAssign 0 64,
    .mintSealDone 16 0, .mintSealDone 0 64, .mintOutputWriteFail 16 0,
    .mintOutputWriteFail 0 64] : List Instr).all (fun i => !i.wf) = true := by decide +kernel

theorem test_illFormed2 : ([
    .verdictIntake 16 0, .verdictIntake 0 64, .verdictFwdRx {} 16 0,
    .verdictFwdRx {} 0 64, .verdictFwdRx { src := 4096 } 0 0, .heldForwardTimeout 4096 0,
    .forwardContextTimeout 4096 0, .verdictCheck 16 0, .verdictCheck 0 64,
    .verdictClock 16 0, .verdictClock 0 64, .verdictRule 16 0,
    .verdictRule 0 64, .verdictLedgerApply 16 0, .verdictLedgerApply 0 64,
    .verdictReplyRx 16 0 0 0 0 0 0 0 0, .verdictReplyRx 0 64 0 0 0 0 0 0 0, .forwardReplyTimeout 16 0,
    .forwardReplyTimeout 0 64, .journalBlockWriteDone 2 0, .journalBlockWriteDone 0 (2 ^ 64),
    .driveWriteError 2, .driveLost 2, .mirrorJournalRx 4096 0 0 0 [],
    .mirrorJournalRx 0 0 (2 ^ 64) 0 []] : List Instr).all (fun i => !i.wf) = true := by decide +kernel

theorem test_illFormed3 : ([
    .mirrorJournalRx 0 0 0 (2 ^ 64) [], .groupAckRx 4096 0 0, .groupAckRx 0 0 (2 ^ 64),
    .leaseMirrorRx 4096 0 0, .leaseMirrorRx 0 0 (2 ^ 64), .leaseAckRx 4096 0 0,
    .leaseAckRx 0 0 (2 ^ 64), .pageRequestRx 4096 0 0 0, .pageRequestRx 0 0 4096 0,
    .pageRequestRx 0 0 0 (2 ^ 26), .pageRx 4096 0 0 0 0 [], .pageRx 0 0 4096 0 0 [],
    .pageRx 0 0 0 (2 ^ 26) 0 [], .pageAbsentRx 4096 0 0 0, .pageAbsentRx 0 0 4096 0,
    .pageAbsentRx 0 0 0 (2 ^ 26), .voidRequestRx 4096 0 0 0, .voidRequestRx 0 0 4096 0,
    .voidRequestRx 0 0 0 1024, .voidBlockRx 4096 0 0 0 [], .voidBlockRx 0 0 4096 0 [],
    .voidBlockRx 0 0 0 1024 [], .mirrorResendTimeout (2 ^ 64), .durabilityTimeout 16 1,
    .durabilityTimeout 0 64] : List Instr).all (fun i => !i.wf) = true := by decide +kernel

theorem test_illFormed4 : ([
    .pageReadDone (2 ^ 26) 0 none, .pageReadDone 0 2 none, .pageReadDone 0 0 (some [(16384, .live)]), .pageMissSecondRead (2 ^ 26),
    .pageMissTimeout 16 1, .pageMissTimeout 0 64, .resilverCopyDone 2,
    .pcRebuildDone 16, .keyxRx .xp [] [] (2 ^ 64),
    .ackRx .xp (2 ^ 64), .nakRx .xp (2 ^ 64), .frameRoute .xp (zeros 17),
    .heartbeatRx 4096 false false false false 0 0 0, .heartbeatRx 0 false false false false 0 (2 ^ 32) 0, .heartbeatRx 0 false false false false 0 0 (2 ^ 64),
    .heartbeatSilence 4096, .witnessQueryRx 4096 false 0 0, .witnessQueryRx 0 false 4096 0,
    .witnessQueryRx 0 false 0 (2 ^ 32), .witnessReplyRx 4096 false .grant 0 0, .witnessReplyRx 0 false .grant 4096 0,
    .witnessReplyRx 0 false .grant 0 (2 ^ 32)] : List Instr).all (fun i => !i.wf) = true := by decide +kernel

theorem test_illFormed5 : ([
    .decisionAckRx { src := 4096 }, .grantLapse 4096, .joinRx { src := 4096 },
    .withdrawRx { src := 4096 }, .takeoverRx { src := 4096 }, .excludeRx { src := 4096 },
    .shadowCompleteRx { src := 4096 }, .handbackOfferRx { src := 4096 }, .handbackAcceptRx { src := 4096 },
    .rollQueryRx { src := 4096 }, .rollConfirmRx { src := 4096 }, .rollRefuseRx { src := 4096 },
    .viewRequestRx { src := 4096 }, .viewRx { src := 4096 }, .timePulseRx .xp 4096 0 0 false,
    .timePulseRx .xp 0 (2 ^ 64) 0 false, .timePulseRx .xp 0 0 (2 ^ 32) false, .keyTransportRequestRx 4096 0 0,
    .keyTransportRequestRx 0 1024 0, .keyTransportDeliverRx 4096 0 0 [], .keyTransportDeliverRx 0 1024 0 [],
    .keyTransportRefuseRx 4096 0 0, .keyTransportRefuseRx 0 1024 0, .keyTransportReceiptRx 4096 0 0,
    .keyTransportReceiptRx 0 1024 0] : List Instr).all (fun i => !i.wf) = true := by decide +kernel

theorem test_illFormed6 : ([
    .ld { cond := 7 } .direct 0, .st { cond := 7 } .direct 0, .st {} .imm 0,
    .add { cond := 7 } .direct 0, .sub { cond := 7 } .direct 0, .andOp { cond := 7 } .direct 0,
    .orOp { cond := 7 } .direct 0, .xor { cond := 7 } .direct 0, .cmp { cond := 7 } .direct 0,
    .mul { cond := 7 } .direct 0, .div { cond := 7 } .direct 0, .ldx { cond := 7 } .direct 0,
    .ldy { cond := 7 } .direct 0, .jmp { cond := 7 } .direct 0, .call { cond := 7 } .direct 0,
    .xmov { cond := 7 } 0, .nop { cond := 7 }, .halt { cond := 7 },
    .wait { cond := 7 }, .svc { cond := 7 }, .ei { cond := 7 },
    .di { cond := 7 }, .iret { cond := 7 }, .ret { cond := 7 },
    .jmpa { cond := 7 }] : List Instr).all (fun i => !i.wf) = true := by decide +kernel

theorem test_illFormed7 : ([
    .neg { cond := 7 }, .notOp { cond := 7 }, .stx { cond := 7 },
    .sty { cond := 7 }, .xa { cond := 7 }, .ya { cond := 7 },
    .lra { cond := 7 }, .alr { cond := 7 }, .asi { cond := 7 },
    .asb { cond := 7 }, .lslx { cond := 7 }, .lsrx { cond := 7 },
    .asrx { cond := 7 }, .rorx { cond := 7 }, .adp { cond := 7 },
    .tq { cond := 7 } 0, .tq {} 6, .dpa { cond := 7 },
    .lsl { cond := 7 } 0, .lsr { cond := 7 } 0, .asr { cond := 7 } 0,
    .undefinedInstruction .a [], .noiseStartupTestDone 4 [], .noiseRetestTimer 4,
    .laneSelftest .a 16] : List Instr).all (fun i => !i.wf) = true := by decide +kernel

theorem test_illFormed8 : ([
    .laneSelftestDone 16 false 0, .lanePurge .a 16, .laneClockGate 16,
    .hqCtlFetch .a (zeros 129), .nvmeAttachResilver .a 2, .driveAttach 2 {},
    .nvmeRetire .a 2, .sectorEraseDone 1024, .sectorRefresh 1024, .recordStoreRecoveryDone { flips := [(65536, 0)] }, .recordStoreRecoveryDone { flips := [(0, 2048)] },
    .gpioWakeInput 8, .observationPost 128 0 0 0, .unitDrained 128,
    .mbxPeerSend .a (2 ^ 32), .mbxGSend .a (2 ^ 32), .tamperAlarm 28 0,
    .tamperLoopTick 4 false false, .cdcStall 128, .crossingResync 0 [(16, 0)],
    .crossingResync 0 [(0, 64)], .mctpMessageRx (zeros 4114) 0 0 false false, .nop { exts := [0, 0, 0, 0] }, .nop { rep := .rep 0 true },
    .nop { rep := .rep 257 false }] : List Instr).all (fun i => !i.wf) = true := by decide +kernel

theorem test_illFormed9 : ([
    .joinRx { subject := 4096 }, .joinRx { term := 2 ^ 32 }, .joinRx { value := 2 ^ 64 }] : List Instr).all (fun i => !i.wf) = true := by decide +kernel

theorem test_wellFormed0 : ([
    .vstbyReturn 0, .holdcapMeasured 0, .bootKeyStoreOpen [] false,
    .hbmTrainingDone [] [], .driveReady 0 (zeros 48) (zeros 48) {}, .sqEnable 0 0,
    .sqDisable 0, .sqDrainDone 0, .cqEnable 0 0,
    .cqDisable 0, .sqTailDoorbell 0 0, .cqHeadDoorbell 0 0,
    .measWord0Read .a 0, .resultEarlyRead .a .key, .registerWrite (.bar0 0 4 0 0), .registerWrite (.bar2 4088 8 0), .registerWrite (.aer 0x18 0 0),
    .entryFetch 0 (zeros 128) 0 0, .entryReadFail 0, .completionWriteFail 0,
    .telemetryRefresh 0 0, .driveLogPoll 0 {}, .mintIntake 0 0,
    .mintWrapperReadDone 0 0 none, .mintWrapperReadTimeout 0 0, .mintClock 0 0,
    .mintRule 0 0, .keyCacheFill 0 0 0, .mintDrbgTimeout 0 0,
    .mintLedgerAssign 0 0, .mintSealDone 0 0, .mintOutputWriteFail 0 0,
    .verdictIntake 0 0, .verdictFwdRx {} 0 0, .heldForwardTimeout 0 0,
    .forwardContextTimeout 0 0, .verdictCheck 0 0, .verdictClock 0 0,
    .verdictRule 0 0, .verdictLedgerApply 0 0, .verdictReplyRx 0 0 0 0 0 0 0 0 0,
    .forwardReplyTimeout 0 0] : List Instr).all Instr.wf = true := by decide +kernel

theorem test_wellFormed1 : ([
    .journalBlockWriteDone 0 0, .driveWriteError 0, .driveLost 0,
    .mirrorJournalRx 0 0 0 0 [], .groupAckRx 0 0 0, .leaseMirrorRx 0 0 0,
    .leaseAckRx 0 0 0, .pageRequestRx 0 0 0 0, .pageRx 0 0 0 0 0 [],
    .pageAbsentRx 0 0 0 0, .voidRequestRx 0 0 0 0, .voidBlockRx 0 0 0 0 [],
    .mirrorResendTimeout 0, .durabilityTimeout 0 0, .pageReadDone 0 0 (some [(16383, .live)]),
    .pageMissSecondRead 0, .pageMissTimeout 0 0, .resilverCopyDone 0,
    .pcRebuildDone 0, .linkTrainStart .xp none, .trainingPatternDetect .xp none,
    .keyxRx .xp [] [] 0, .linkRetryTimer .xp none, .linkRekey .xp,
    .ackRx .xp 0, .nakRx .xp 0, .frameRoute .xp (zeros 16),
    .heartbeatRx 0 false false false false 0 0 0, .heartbeatSilence 0, .witnessQueryRx 0 false 0 0,
    .witnessReplyRx 0 false .grant 0 0, .decisionAckRx {}, .grantLapse 0,
    .joinRx {}, .withdrawRx {}, .takeoverRx {},
    .excludeRx {}, .shadowCompleteRx {}, .handbackOfferRx {},
    .handbackAcceptRx {}] : List Instr).all Instr.wf = true := by decide +kernel

theorem test_wellFormed2 : ([
    .rollQueryRx {}, .rollConfirmRx {}, .rollRefuseRx {},
    .viewRequestRx {}, .viewRx {}, .timePulseRx .xp 0 0 0 false,
    .keyTransportRequestRx 0 0 0, .keyTransportDeliverRx 0 0 0 [], .keyTransportRefuseRx 0 0 0,
    .keyTransportReceiptRx 0 0 0, .ld {} .direct 0, .st {} .direct 0,
    .add {} .direct 0, .sub {} .direct 0, .andOp {} .direct 0,
    .orOp {} .direct 0, .xor {} .direct 0, .cmp {} .direct 0,
    .mul {} .direct 0, .div {} .direct 0, .ldx {} .direct 0,
    .ldy {} .direct 0, .jmp {} .direct 0, .call {} .direct 0,
    .xmov {} 0, .nop {}, .halt {},
    .wait {}, .svc {}, .ei {},
    .di {}, .iret {}, .ret {},
    .jmpa {}, .neg {}, .notOp {},
    .stx {}, .sty {}, .xa {},
    .ya {}] : List Instr).all Instr.wf = true := by decide +kernel

theorem test_wellFormed3 : ([
    .lra {}, .alr {}, .asi {},
    .asb {}, .lslx {}, .lsrx {},
    .asrx {}, .rorx {}, .adp {},
    .tq {} 0, .dpa {}, .lsl {} 0,
    .lsr {} 0, .asr {} 0, .undefinedInstruction .a [0],
    .noiseStartupTestDone 0 [], .noiseRetestTimer 0, .laneSelftest .a 0,
    .laneSelftestDone 0 false 0, .lanePurge .a 0, .laneClockGate 0,
    .hqCtlFetch .a (zeros 128), .nvmeAttachResilver .a 0, .driveAttach 0 {},
    .nvmeRetire .a 0, .sectorEraseDone 0, .sectorRefresh 0,
    .gpioWakeInput 0, .observationPost 0 0 0 0, .unitDrained 0,
    .mbxPeerSend .a 0, .mbxGSend .a 0, .tamperAlarm 0 0,
    .tamperLoopTick 0 false false, .cdcStall 0, .crossingResync 0 [],
    .mctpMessageRx [] 0 0 false false, .commitStagedImage []] : List Instr).all Instr.wf = true := by decide +kernel

/-- No word spells a command: the opcode table gives no row bits. -/
theorem test_noWord : decodeTableWord 16 0x0560 = none ∧ State.reset.withFetchWord 16 0x0560 = State.reset := by decide

/-- Does a command answer a next state with a property? -/
def after (r : Result) (p : State → Bool) : Bool :=
  match r with
  | .next t => p t
  | _ => false

/-! SubmissionRingsAreConfigured -/

/-- A host queue engine with completion ring 1 running and three submission rings: 1 IDLE, 2 RUNNING, 3 DRAINING. -/
def ringSt : State := (State.reset.onPow fun p => { p with mainUp := true }).onHq fun h => { h with
  linkUp := true, cqs := [(1, { st := .running })], sqs := [(2, { st := .running, depthLog2 := 4 }), (3, { st := .draining })] }

theorem witness_hostReach : hostReach ringSt = true ∧ hostReach State.reset = false := by decide
theorem test_sqEnable_runs : (1 < 32 ∧ (sqOf ringSt 1).st = .idle ∧ (0x00010402#32).extractLsb' 1 2 = 1#2 ∧
    4 ≤ ((0x00010402#32).extractLsb' 8 4).toNat ∧ (cqOf ringSt ((0x00010402#32).extractLsb' 16 5).toNat).st = .running) := by decide
theorem test_sqEnable_refused : (sqOf ringSt 1).st = .idle ∧ ((0x00010302#32).extractLsb' 8 4).toNat < 4 ∧
    ((0x00010D02#32).extractLsb' 8 4).toNat > 12 := by decide
theorem test_sqDisable_witness : (sqOf ringSt 2).st ≠ .idle := by decide
theorem test_sqDrain_witness : (sqOf ringSt 3).st = .draining ∧ (sqOf ringSt 3).inFlight = 0 := by decide
theorem test_sqTail_edges : ((15#32).extractLsb' 0 12).toNat < depthOf (sqOf ringSt 2).depthLog2 ∧
    depthOf (sqOf ringSt 2).depthLog2 ≤ ((16#32).extractLsb' 0 12).toNat := by decide

/-! CompletionRingsAreConfigured -/

/-- Completion rings: 1 RUNNING, named by submission ring 2; 4 RUNNING with two entries held, named by none. -/
def compSt : State := ringSt.onHq fun h => { h with
  cqs := [(1, { st := .running }), (4, { st := .running, tail := 2 })], sqs := [(2, { st := .running, cq := 1 })] }

theorem witness_cqEnable : hostReach compSt = true ∧ (cqOf compSt 5).st = .idle ∧ 4 ≤ ((0x00050402#32).extractLsb' 8 4).toNat ∧
    ((0x00050E02#32).extractLsb' 8 4).toNat ≤ 14 ∧ (cqOf compSt 5).modCount = 0 := by decide
theorem witness_cqDisable : (cqOf compSt 4).st ≠ .idle ∧ cqNamed compSt 4 = false ∧ cqNamed compSt 1 = true := by decide
theorem witness_cqHead : (cqOf compSt 4).st ≠ .idle ∧ ((2#32).extractLsb' 0 14).toNat < depthOf (cqOf compSt 4).depthLog2 ∧
    (2 + 16 - (cqOf compSt 4).head) % 16 ≤ cqHeld (cqOf compSt 4) ∧ cqHeld (cqOf compSt 4) < (3 + 16 - (cqOf compSt 4).head) % 16 ∧
    (cqOf compSt 4).st = .running := by decide

/-! HostRegistersAndTicksAct -/

/-- Vector 3 masked with its message pending. -/
def vecSt : State := ringSt.onHq fun h => { h with vecs := [(3, { masked := true, pbit := true })] }
theorem witness_msixUnmask : hostReach vecSt = true ∧ (tget {} vecSt.hq.vecs 3).masked = true ∧ (tget {} vecSt.hq.vecs 3).pbit = true ∧ twf {} vecSt.hq.vecs = true := by
  decide
/-- A main die that runs, with the Gatehouse link up. -/
def runSt : State := State.reset.onPow fun p => { p with mainUp := true, state := .active, linkUp := true, standby := true, vstby := true }
theorem witness_mainRuns : mainRuns runSt = true ∧ runSt.pow.linkUp = true := by decide

/-! EntriesAreFetched -/

/-- A main die that runs with CONTROL ring 0 and MINT ring 1 RUNNING, an entry waiting in each, and lane 2 ACTIVE. -/
def fetchSt : State := (runSt.onHq fun h => { h with
  sqs := [(0, { st := .running, tail := 1 }), (1, { st := .running, kind := 1, cq := 1, tail := 15, head := 15 - 1 })]
  cqs := [(0, { st := .running }), (1, { st := .running })] }).onUnit fun m => { m with tbl := [(2, { st := .active })] }
theorem witness_fetch_control : canFetch fetchSt 0 = true ∧ fetchSt.hq.ctlFetched = none ∧ fetchSt.key.fuse ≠ 3 := by decide
theorem witness_fetch_mint : canFetch fetchSt 1 = true ∧ (sqOf fetchSt 1).kind = 1 ∧ (leAt (fit 128 []) 2 1).testBit 1 = false ∧
    (ringLanes fetchSt 1).contains 2 = true ∧ getReq fetchSt (reqKey 2 63) = none := by decide
/-- An entry with flags.pq; lane 2 with every job place taken; ring 1 with that entry held. -/
def pqEntry : Bytes := [5, 0, 2]
def fullSt : State := fetchSt.onLane fun b => { b with lanes := [(2, { pqReserved := 32 })] }
def heldSt : State := onSq fetchSt 1 fun r => { r with held := some { bytes := fit 128 pqEntry } }
theorem witness_fetchPq : needsPlace (sqOf fetchSt 1) (fit 128 pqEntry) = true ∧ canPlace fetchSt 1 2 63 true = true ∧ twf {} fetchSt.lane.lanes = true ∧
    ringLanes fullSt 1 = [2] ∧ (∀ l ∈ ringLanes fullSt 1, pqPlace fullSt l = false) ∧ canFetch fullSt 1 = true ∧
    (sqOf heldSt 1).held = some { bytes := fit 128 pqEntry } ∧ canPlace heldSt 1 2 63 true = true ∧ canPlace heldSt 1 2 64 true = false := by decide
theorem test_held : after (exec (.entryFetch 1 pqEntry 2 63) fullSt) (fun t => ((sqOf t 1).held.map (·.bytes)) == some (fit 128 pqEntry) && t.lane.reqs == []) ∧
    after (exec (.entryFetch 1 [] 2 63) heldSt) (fun t => (sqOf t 1).held.isNone && (tget {} t.lane.lanes 2).pqReserved == 1) := by decide +kernel
theorem test_entryFetch_head : after (exec (.entryFetch 1 [5] 2 63) fetchSt) (fun t =>
    (sqOf t 1).head == 15 && (cqOf t 1).reserved == 1 && (getReq t (reqKey 2 63)).map (·.tag) == some 5) := by decide
theorem test_entryReadFail : after (exec (.entryReadFail 1) fetchSt) (fun t =>
    (sqOf t 1).st == .error && t.hq.cause.getLsbD 0 && (t.out.comps.map fun c => (c.sq, c.status, c.detail)) == [(1, .internalFault, 0x4003)]) := by
  decide
/-- A core in program RAM with a GET_STATS request of 96 bytes in hand. -/
def ctlEntry : CtlEntry := { bytes := [1, 0, 0x0B, 0, 96, 0, 0, 0] ++ zeros 120 }
def ctlSt : State := (runSt.onHq fun h => { h with ctlFetched := some ctlEntry }).onCore fun k => { k with a := { k.a with inRam := true, inReset := false } }
theorem test_controlBlockReadFail : after (exec .controlBlockReadFail ctlSt) (fun t =>
    t.hq.ctlFetched == none && (t.out.comps.map (·.status)) == []) := by decide
theorem witness_ctlReady : CtlReady ctlSt 0x0B ctlEntry ∧ ctlRsv ctlEntry.bytes = none ∧ leAt ctlEntry.bytes 4 4 = 96 := by
  refine ⟨⟨rfl, ?_⟩, ?_⟩ <;> decide

/-! SignedRequestsOnEventsAndLedger -/

/-- A CONTROL request of an opcode in hand, and its shortest block, with the controller key loaded. -/
def ctlOp (op : Byte) : CtlEntry := { bytes := [1, 0, op, 0, 96, 0, 0, 0] ++ zeros 8 ++ [0, 4] ++ zeros 110 }
def ctlOpSt (op : Byte) : State := (((ctlSt.onHq fun h => { h with ctlFetched := some (ctlOp op) }).onKey fun k => { k with
  unwrapped := true, fuse := 2, voile := zeros 32, voileInv := List.replicate 32 0xFF, slots := [(0, { st := .loaded, kind := kEdPub, attrs := 0x00003103, gen := 1, material := zeros 32 })] }).onStore fun r => { r with
  ready := true, holdcapOk := true }).onUnit fun m => { m with tbl := [(0x50, { st := .active })] }
def ctlBlk (op : Byte) : Bytes := ascii "SXCQ" ++ [1, op, 0, 0] ++ leBytes 8 (ctlOpSt op).pow.unit.toNat ++ [1, 0, 0, 0, 0, 0, 0, 0] ++ zeros 72
theorem witness_ctlOpcodes : ∀ op ∈ ([1, 2, 3, 4, 5, 6, 7, 8, 9, 0xA, 0xB, 0xC] : List Byte), CtlReady (ctlOpSt op) op.toNat (ctlOp op) := by
  intro op h; refine ⟨rfl, ?_⟩; revert op; decide +kernel
theorem witness_ctlFails : ∀ op ∈ ([1, 2, 3, 4, 5, 6, 7, 8, 9, 0xA, 0xB, 0xC] : List Byte),
    ctlChecks (ctlOpSt op) (ctlOp op).bytes (ctlBlk 0xD) = some (.badFormat, detBlock 5) := by decide +kernel
/-- Where the signature verifies, the request passes every check. -/
theorem witness_ctlPasses (h : ∀ pk m sig, Config.ed25519Verify pk m sig = true) : ∀ op ∈ ([2, 6, 7, 8, 0xB] : List Byte),
    ctlChecks (ctlOpSt op) (ctlOp op).bytes (ctlBlk op) = none ∧ appendsNow (ctlOpSt op) = true := by
  simp only [ctlChecks, h]; decide +kernel

/-! SignedRequestsOnKeysAndTheDevice -/

theorem witness_ctlLengths : leAt (ctlOp 0xB).bytes 16 4 = 0x400 ∧ respLen 0xB ≤ 0x400 ∧ respLen 6 ≤ 0x400 ∧ fixedBody 0xB = some 0 ∧ leAt (ctlOp 0xB).bytes 4 4 = 96 := by
  decide
def servesSt (op : Byte) : State := ((ctlOpSt op).onRng fun r => { r with inst := true, bank := .ready }).onUnit fun m => { m with tbl := [(0x44, { st := .active }), (0x50, { st := .active })] }
theorem witness_ctlDrbg : rngServes (servesSt 4) = true ∧ rngServes (ctlOpSt 4) = false ∧ CtlReady (servesSt 4) 4 (ctlOp 4) ∧ slotBusy (servesSt 4) 0 = false ∧
    slotBusy ((servesSt 4).onKey fun k => { k with changes := [{ slot := 0 }] }) 0 = true := by
  refine ⟨by decide, by decide, ⟨rfl, ?_⟩, by decide, by decide⟩; decide
theorem test_ctlFails : after (exec (.retireKey (ctlBlk 0xD)) (ctlOpSt 6)) (fun t => t.hq.ctlFetched.isNone) := by decide +kernel

/-! DigestWindowActs -/

/-- Core A runs; the digest engine is ACTIVE; core A holds the handle of an HMAC key in slot 7. -/
def digSt : State := ((runSt.onCore fun k => { k with a := { k.a with inReset := false, inRam := true } }).onUnit fun m => { m with
  tbl := [(0x39, { st := .active }), (0x44, { st := .active })] }).onKey fun k => { k with
    fuse := 2, voile := zeros 32, voileInv := List.replicate 32 0xFF, inService := true, unwrapped := true, handlesA := [{ slot := 7, gen := 1 }]
    slots := [(7, { st := .loaded, gen := 1, top := 1, kind := kHmac, attrs := 0x2101, material := [9] })] }
def digHmacSt : State := digSt.onDig fun d => { d with a := { d.a with key := handleOf 7 1 kHmac } }
/-- The same while core A owns a SHA-384 message, with data to feed. -/
def digOwnSt : State := digSt.onDig fun d => { d with owner := some .a, alg := 1, a := { d.a with len := 4, addr := 0 } }
theorem witness_digStart : Reaches digSt .a 0x8400 false ∧ unitTakes digSt 0x39 = true ∧ digSt.dig.owner = none := by
  refine ⟨⟨?_, ?_⟩, ?_, ?_⟩ <;> decide
theorem witness_digStart_hmac : Reaches digHmacSt .a 0x8400 false ∧ unitTakes digHmacSt 0x39 = true ∧
    (match useHandle digHmacSt .a (digGet digHmacSt .a).key [kHmac] with | .ok y => y.2.material == [9] | .error _ => false) = true := by
  refine ⟨⟨?_, ?_⟩, ?_, ?_⟩ <;> decide
theorem witness_digOwned : Reaches digOwnSt .a 0x8405 false ∧ Reaches digOwnSt .a 0x8406 false ∧ Reaches digOwnSt .a 0x8407 false ∧
    digRefuse digOwnSt .a = none ∧ digOwnSt.dig.hmacKey = none := by
  refine ⟨⟨?_, ?_⟩, ⟨?_, ?_⟩, ⟨?_, ?_⟩, ?_, ?_⟩ <;> decide
theorem witness_digUpdate : readStr (ramPut digOwnSt .a 0 (bitsW 5)) .a 0 4 = some [5, 0, 0, 0] := by decide
theorem witness_digEnd : (digOwnSt.onDig fun d => { d with running := some 6 }).dig.owner = some .a := by decide
theorem witness_measRead : Reaches digSt .a (0x8440 + 12 * 7) false := by refine ⟨?_, ?_⟩ <;> decide

/-! RandomWindowActs -/

/-- A DRBG that serves; core A asks for 3 bytes at address 5. -/
def rngSt : State := digSt.onRng fun r => { r with inst := true, bank := .ready, a := { r.a with len := 3, addr := 5 } }
theorem witness_rngGenerate : Reaches rngSt .a 0x8800 false ∧ rngServes rngSt = true ∧ rngServes digSt = false ∧
    1 ≤ (rngGet rngSt .a).len.toNat ∧ (rngGet rngSt .a).busy = false := by
  refine ⟨⟨?_, ?_⟩, ?_, ?_, ?_, ?_⟩ <;> decide
theorem test_rngGenerate : after (exec (.rngGenerate .a) rngSt) (fun t =>
    t.rng.drawn == 3 && (rngGet t .a).busy && !(rngGet t .a).waiting && ((ramGet t .a 5).tag == tBits) && (ramGet t .a 6) == {}) := by decide
/-- Source 1 ACTIVE, source 2 in TESTING, source 3 FAILED; the record store takes appends at once. -/
def noiseSt : State := ((rngSt.onUnit fun m => { m with
  tbl := [(0x39, { st := .active }), (0x41, { st := .active }), (0x42, { st := .testing }), (0x43, { st := .failed }), (0x50, { st := .active })] }).onStore
    fun r => { r with ready := true, holdcapOk := true, sectors := [(1, { erased := true })] })
theorem witness_rngSelect : Reaches noiseSt .a 0x8804 true ∧ unitActive noiseSt 0x41 = true ∧ noiseSt.rng.bank = .ready ∧
    Reaches noiseSt .a 0x8805 true ∧ unitSt noiseSt 0x42 = .testing := by
  refine ⟨⟨?_, ?_⟩, ?_, ?_, ⟨?_, ?_⟩, ?_⟩ <;> decide
theorem witness_retest : coreUp noiseSt noiseSt.unit.active = true ∧ unitSt noiseSt 0x43 = .failed ∧ appendsNow noiseSt = true := by decide +kernel
theorem test_retest : after (exec (.noiseRetestTimer 3) noiseSt) (fun t => unitSt t 0x43 == .testing && t.rng.testing == some 3) := by decide +kernel

/-! NoiseBankAndDrbgReact -/

theorem witness_bufferFull : rngSt.rng.bank = .ready ∧ rngSt.rng.full = false ∧ rngSt.pow.mainUp = true ∧ rngSt.rng.inst = true ∧
    rngSt.rng.limit = false ∧ rngSt.rng.a.fresh = false ∧ rngSt.rng.b.fresh = false := by decide
/-- A READY bank with the DRBG not instantiated. -/
def uninstSt : State := rngSt.onRng fun r => { r with inst := false }
theorem test_instantiate : after (exec (.reseedBufferFull (zeros 96)) uninstSt) (fun t => t.rng.inst && !t.rng.full) = true ∧ uninstSt.tmp.inForce = false ∧
    uninstSt.lane.drawWait = [] ∧ uninstSt.rng.a.waiting = false ∧ uninstSt.rng.b.waiting = false ∧ uninstSt.hq.ctlHeld = false := by decide
theorem witness_reseedLimit : rngSt.rng.bank ≠ .failed ∧ rngSt.rng.full = false ∧ rngSt.lane.drawWait = [] ∧ rngSt.rng.a.waiting = false ∧
    rngSt.rng.b.waiting = false ∧ rngSt.hq.ctlHeld = false ∧ (rngSt.onRng fun r => { r with full := true }).rng.full = true := by decide
theorem test_reseedLimit : after (exec .drbgReseedLimit rngSt) (fun t => t.rng.limit) = true ∧
    after (exec .drbgReseedLimit (rngSt.onRng fun r => { r with full := true })) (fun t => !t.rng.limit && t.rng.reseeds == 1) = true := by decide
/-- Raw bits whose conditioned bits under XOR4 are the ones named (11 R618). -/
def xor4Raw (b : List Bool) : List Bool := b.flatMap fun x => [x, false, false, false]
theorem test_conditioned : conditioned 0 [true, false, true, true, true] = ([true, false], [true]) ∧
    conditioned 1 [true, false, false, false, true, true] = ([true], [true, true]) ∧ conditioned 2 [true, true, false, true, true, false] = ([false, true], []) := by decide
theorem test_healthFail : nextSource noiseSt noiseSt.rng.source = some 1 ∧ nextSource rngSt rngSt.rng.source = none ∧
    after (exec (.noiseHealthFail (xor4Raw (List.replicate 49 true))) noiseSt) (fun t => t.rng.source == 1 && t.rng.bank == .switching && tget 0 t.rng.fails 0 == 1) = true ∧
    after (exec (.noiseHealthFail (xor4Raw (List.replicate 48 true))) noiseSt) (fun t => t.rng.bank == .ready && t.rng.health.run == 48) = true := by decide +kernel
/-- As many alternating bits as 11 R621 asks for: no run, and half of each window alike. -/
def fairBits : List Bool := (List.replicate 2048 [false, true]).flatten
theorem witness_startup : startupTest noiseSt.rng.mode (xor4Raw fairBits) = some none ∧ startupTest 0 [] = none ∧
    startupTest 2 (List.replicate 46 [true, false]).flatten = some (some (true, false)) ∧
    (healthRun noiseSt.rng.mode noiseSt.rng.health (conditioned noiseSt.rng.mode (noiseSt.rng.raw ++ xor4Raw (List.replicate 49 true))).1).2.isSome = true ∧
    (healthRun noiseSt.rng.mode noiseSt.rng.health (conditioned noiseSt.rng.mode (noiseSt.rng.raw ++ [true])).1).2 = none := by decide +kernel
theorem test_startupDone : after (exec (.noiseStartupTestDone 0 (xor4Raw fairBits)) (rngSt.onRng fun r => { r with bank := .starting })) (fun t =>
    t.rng.bank == .ready) = true ∧
    after (exec (.noiseStartupTestDone 2 (xor4Raw fairBits)) (noiseSt.onRng fun r => { r with testing := some 2 })) (fun t => t.rng.testResult == 1) = true := by decide +kernel

/-! LedgerWindowCommandsAct -/

/-- Core A with the ledger window free, the ledger replayed, own authority, and epoch 1 named for a roll. -/
def ledSt : State := (digSt.onLed fun l => { l with replayed := true, ledArgs := [(0, 1)] }).onFab fun b => { b with ownAuth := true }
theorem witness_ledgerWindow : Reaches ledSt .a 0x8C00 true ∧ ledTaken ledSt = false ∧ (tget 0 ledSt.led.ledArgs 0).toNat = (ledSt.led.epoch.toNat + 1) % 16 ∧
    ledSt.fab.twinAuth = false ∧ ledSt.fab.ownAuth = true ∧ ledSt.led.ckptRun = none := by
  refine ⟨⟨?_, ?_⟩, ?_⟩ <;> decide
theorem test_ledCheckpoint : after (exec (.ledCheckpoint .a) ledSt) (fun t => (t.led.ckptRun.map (·.k)) == some 1 && t.led.ledBusy) := by decide
theorem test_ledCommandEnd : after (exec .ledCommandEnd (ledStart ledSt)) (fun t => t.led.ledDone && !t.led.ledBusy && (tget 0 t.unit.irqPend 1).getLsbD 13) := by
  decide

/-! LaneAndHostQueueWindowsAct -/

/-- Core A runs in ACTIVE with lane 3 in TESTING, lane 2 ACTIVE, the data plane open, and a CONTROL entry to fetch. -/
def laneWinSt : State := (fetchSt.onCore fun k => { k with a := { k.a with inReset := false, inRam := true } }).onHq (fun h => { h with open_ := true, dmaLen := 4 })
  |>.onUnit fun m => { m with tbl := [(2, { st := .active }), (3, { st := .testing })] }
theorem witness_laneWindow : Reaches laneWinSt .a (laneBase 3 + 2) true ∧ unitSt laneWinSt 3 = .testing ∧ Reaches laneWinSt .a (laneBase 3 + 4) true ∧
    unitActive laneWinSt 2 = true ∧ laneBusy laneWinSt 2 = 0 ∧ laneWinSt.pow.state = .active ∧
    allGated (onLaneSt laneWinSt 2 fun x => { x with gated := true }) = true := by
  refine ⟨⟨?_, ?_⟩, ?_, ⟨?_, ?_⟩, ?_⟩ <;> decide
theorem witness_laneTest : (tget {} (onLaneSt laneWinSt 3 fun x => { x with testing := true }).lane.lanes 3).testing = true := by decide
theorem witness_hqWindow : Reaches laneWinSt .a 0x9802 true ∧ canFetch laneWinSt 0 = true ∧ laneWinSt.hq.ctlFetched = none ∧
    Reaches laneWinSt .a 0x9809 true ∧ laneWinSt.hq.dmaBusy = false ∧ Reaches laneWinSt .a 0x9810 true ∧ planeOpen laneWinSt = true ∧
    Reaches laneWinSt .a 0x9811 true := by
  refine ⟨⟨?_, ?_⟩, ?_, ?_, ⟨?_, ?_⟩, ?_, ⟨?_, ?_⟩, ?_, ⟨?_, ?_⟩⟩ <;> decide
theorem test_hqCtlFetch : after (exec (.hqCtlFetch .a [7]) laneWinSt) (fun t => (t.hq.ctlFetched.map fun e => e.bytes.take 2) == some [7, 0] &&
    ramGet t .a 0 == bitsW 7) := by decide +kernel
/-- The CONTROL entry in hand, with 32 bytes of completion at 0 and four bytes to send. -/
def compWinSt : State := ramPuts (laneWinSt.onHq fun h => { h with ctlFetched := some ctlEntry }) .a 0 (List.replicate 8 (bitsW 0))
theorem witness_hqCtlComplete : Reaches compWinSt .a 0x9804 true ∧ readStr compWinSt .a compWinSt.hq.compAddr.toNat 32 = some (zeros 32) ∧
    compWinSt.hq.ctlWait.viaLed = false ∧ readStr compWinSt .a compWinSt.hq.dmaLocal.toNat compWinSt.hq.dmaLen.toNat = some (zeros 4) := by
  refine ⟨⟨?_, ?_⟩, ?_, ?_, ?_⟩ <;> decide
theorem test_hqDma : after (exec (.hqDmaHostToLocal .a [1, 2, 3, 4]) laneWinSt) (fun t => t.hq.dmaBusy && ramGet t .a 0 == bitsW 0x04030201) ∧
    after (exec (.hqDmaLocalToHost .a) compWinSt) (fun t => (t.out.writes.map (·.bytes)) == [zeros 4]) := by decide +kernel

/-! PublishingFabricAndDriveWindowsAct -/

/-- Core A in OPERATIONAL with a member twin, drive 1 not in use, and an event record to publish. -/
def fabWinSt : State := ((ledSt.onFab fun b => { b with twinMember := true }).onHbm fun h => { h with pubRun := some (3, 5), pubWait := [] }).onPar fun p => { p with extX := 2 }
theorem witness_publish : Reaches fabWinSt .a 0xB403 true ∧ fabWinSt.hbm.pubBusy = false ∧ fabWinSt.hbm.pubRun = some (3, 5) ∧
    fabWinSt.hbm.pubWait = [] ∧ fabWinSt.hbm.publishing = [] := by refine ⟨⟨?_, ?_⟩, ?_⟩ <;> decide
/-- A CLOSE_EVENT of event 4 waits for the publish; the second state has a mint in RULE that it waits for. -/
def closingSt (w : List (Nat × Nat × Nat)) : State := ((fabWinSt.onHbm fun h => { h with pubRun := none, events := [(4, {})], publishing := [{ num := 4, waits := w }] }).onLane
  fun l => { l with reqs := [(65, { lane := 0, ctx := 1, stage := .rule })] }).onHq fun h => { h with ctlFetched := some (ctlOp 2), ctlHeld := true, ctlFor := .publish }
theorem witness_closing : (closingSt []).hbm.pubRun = none ∧ (closingSt []).hbm.publishing = [{ num := 4 }] ∧ (closingSt []).hq.ctlHeld = true ∧
    (closingSt []).hq.ctlFor = .publish ∧ (eventReaders (closingSt [])).length = 1 ∧
    (∃ x ∈ eventReaders (closingSt []), x ∈ (closingSt (eventReaders (closingSt []))).hbm.publishing.flatMap (·.waits)) := by decide
theorem test_closing : after (exec .hbmPublishEnd (closingSt [])) (fun t => t.hbm.events == [(4, { closed := true })] && !t.hq.ctlHeld && t.hbm.publishing == []) = true ∧
    after (exec .hbmPublishEnd (closingSt (eventReaders (closingSt [])))) (fun t => t.hbm.events == [(4, {})] && t.hq.ctlHeld) = true := by decide +kernel
theorem witness_fabricWindow : Reaches fabWinSt .a 0x9400 true ∧ fabTaken fabWinSt = false ∧ hasTwin fabWinSt = true ∧ fabWinSt.fab.keyReq = none ∧
    lifecycle fabWinSt = 3 ∧ fabWinSt.fab.twinMember = true ∧ fabWinSt.fab.rollAsk = false ∧ fabWinSt.hq.ctlWait.kind ≠ .handBack := by
  refine ⟨⟨?_, ?_⟩, ?_⟩ <;> decide
theorem witness_fabricEnd : (fabStart fabWinSt).fab.busy = true := by decide
theorem witness_driveWindow : Reaches fabWinSt .a 0xB000 true ∧ (tget {} fabWinSt.drives 1).serving = false ∧ (tget {} fabWinSt.drives 1).resilver = 0 := by
  refine ⟨⟨?_, ?_⟩, ?_⟩ <;> decide
theorem test_nvmeRetire : after (exec (.nvmeRetire .a 1) (onDrive fabWinSt 1 fun x => { x with serving := true }))
    (fun t => !(tget {} t.drives 1).serving && ((tget {} t.drives 1).labelA.take 6 == ascii "SXLB" ++ [1, 3])) := by decide +kernel

/-! MeetingPointAndMailAct -/

/-- All three cores run, the Gatehouse link is up, one post and mail wait, and a KEY command runs. -/
def mailSt : State := (((runSt.onCore fun k => { k with
    a := { k.a with inReset := false, inRam := true }, b := { k.b with inReset := false, inRam := true }, g := { k.g with inReset := false } }).onUnit fun m => { m with
  posts := [{ unit := 2, st := 6, source := 2 }], mailB := { m.mailB with inLen := 2 }, mailM := { m.mailM with inLen := 1 }, irqPend := [(0, 5)] }).onKey
    fun k => { k with cmdBusy := true }).onUnit fun m => { m with tbl := [(2, { st := .active })] }
theorem witness_mailWindow : Reaches mailSt .a 0x9C03 true ∧ Reaches mailSt .a 0x9C10 true ∧ applyBusy mailSt = false ∧ Reaches mailSt .a 0x9C18 true ∧
    Reaches mailSt .a 0x9C21 false ∧ twf 0 mailSt.unit.irqPend = true ∧ Reaches mailSt .a 0x9C50 false ∧ mailSt.unit.mailA.unacked = false := by
  refine ⟨⟨?_, ?_⟩, ⟨?_, ?_⟩, ?_, ⟨?_, ?_⟩, ⟨?_, ?_⟩, ?_, ⟨?_, ?_⟩, ?_⟩ <;> decide
theorem witness_mailAcks : Reaches mailSt .b 0x9C70 false ∧ 0 < mailSt.unit.mailB.inLen ∧ Reaches mailSt .g 0x9C90 true ∧ mailSt.unit.mailG.unacked = false ∧
    Reaches mailSt .a 0x9CB0 true ∧ 0 < mailSt.unit.mailM.inLen ∧ Reaches mailSt .a 0xA000 false ∧ Reaches mailSt .a 0x8009 false := by
  refine ⟨⟨?_, ?_⟩, ?_, ⟨?_, ?_⟩, ?_, ⟨?_, ?_⟩, ?_, ⟨?_, ?_⟩, ⟨?_, ?_⟩⟩ <;> decide
theorem witness_timer : coreLive mailSt .a = true ∧ timerReached mailSt .a = true := by decide
theorem test_postNext : after (exec (.mbxPostNext .a) mailSt) (fun t => t.unit.posts == [] && t.unit.decided == [(2, .failed, 0)]) := by decide

/-! KeyWindowHandlesAndStores -/

/-- Core A in OPERATIONAL with the key engine ACTIVE; slot 9 holds a KDF parent core A may use, whose handle it holds; a MAC key in slot 10. -/
def keySt : State := (digSt.onUnit fun m => { m with tbl := [(0x39, { st := .active }), (0x3B, { st := .active }), (0x44, { st := .active })] }).onKey fun k => { k with
  slots := [(3, { st := .loaded, gen := 1, kind := kAttest, attrs := 0x7507, material := [4] }), (9, { st := .loaded, gen := 2, kind := kKdf, attrs := 0x12101, material := [7] }),
    (10, { st := .loaded, gen := 1, kind := kAesMac, attrs := 0x2101, material := [8] }), (11, { st := .loaded, gen := 1, kind := kTransport, attrs := 0x43101 }),
    (12, { st := .loaded, gen := 1, kind := kEdPub, attrs := 0x2101 })]
  handlesA := [{ slot := 9, gen := 2, kind := kKdf }, { slot := 10, gen := 1, kind := kAesMac }, { slot := 11, gen := 1, kind := kTransport }, { slot := 12, gen := 1, kind := kEdPub }]
  slotReg := 9 + 1024 * 2, handleIn := handleOf 9 2 kKdf, handleIn2 := handleOf 9 2 kKdf }
def isOk {α : Type} : Except Status α → Bool
  | .ok _ => true
  | .error _ => false
theorem witness_keyWindow : KeyFree keySt .a ∧ isOk (resolve keySt (.core .a) { slot := regSlot keySt, gen := regGen keySt } allKinds) = true ∧
    handleFull keySt .a = false ∧ keySt.key.handleIn.tag = tHandle ∧ keySt.unit.active = .a ∧ isOk (keyInput keySt .a) = true ∧
    isOk (useHandle keySt .a keySt.key.handleIn2 [kKdf]) = true ∧ enrolWord 9 = none := by
  refine ⟨⟨⟨?_, ?_⟩, ?_, ?_⟩, ?_⟩ <;> decide
theorem witness_keyDrbg : rngServes keySt = false ∧ rngServes (keySt.onRng fun r => { r with inst := true, bank := .ready }) = true ∧ keyAppends keySt = false := by decide
theorem test_keyOpen : after (exec (.keyCmdOpen .a) keySt) (fun t => (handlesOf t .a).length == 5 && t.key.cmdBusy) := by decide
theorem test_keyClose : after (exec (.keyCmdClose .a) keySt) (fun t => ((handlesOf t .a).map (·.slot)) == [10, 11, 12]) := by decide
theorem witness_keyEnd : keyAppends keySt = false ∧ keySt.key.cmdHeld = none := by decide
/-- An IMPORT that waits for the DRBG. -/
def keyWaitSt : State := keyHold keySt .a 0x03
theorem witness_keyWait : keyWaitSt.key.cmdHeld = some (.a, 0x03) ∧ rngServes keyWaitSt = false ∧ (rngGet keyWaitSt .a).waiting = false ∧
    rngServes (keyWaitSt.onRng fun r => { r with inst := true, bank := .ready }) = true := by decide
theorem test_keyWait : after (exec (.drbgRequestTimeout .a) keyWaitSt) (fun t => t.key.cmdHeld == none && (t.key.cmdRun.map (·.code)) == some .randomNotReady) = true := by
  decide
theorem test_keyEnd : after (exec .keyCommandEnd (keyRun keySt { core := .a, result := some 3, out := [1, 2] })) (fun t =>
    t.key.cmdDone && t.key.result == 3 && ramGet t .a 0 == bitsW 0x201) := by decide

/-! KeyWindowComputes -/

/-- The same with the handles of a public key, a MAC key or a transport key in the input registers, and 64 bytes of input. -/
def keyInSt (h1 h2 : W36) : State := ramPuts ((keySt.onKey fun k => { k with handleIn := h1, handleIn2 := h2, inLen := 64 }).onRng fun r => { r with inst := true }) .a 0
  (List.replicate 16 (bitsW 0))
theorem witness_keyCompute : KeyFree (keyInSt (handleOf 12 1 kEdPub) {}) .a ∧ isOk (keyInput (keyInSt {} {}) .a) = true ∧
    isOk (useHandle (keyInSt (handleOf 12 1 kEdPub) {}) .a (handleOf 12 1 kEdPub) [kEdPub, kP256Pub]) = true ∧
    isOk (useHandle (keyInSt {} {}) .a (handleOf 10 1 kAesMac) [kAesMac, kHmac]) = true ∧
    isOk (useHandle (keyInSt {} {}) .a (handleOf 11 1 kTransport) [kTransport]) = true ∧
    carriable (keyInSt {} {}) { slot := 9, gen := 2 } (slotOf (keyInSt {} {}) 9) = true ∧ rngServes (keyInSt {} {}) = true ∧ unitTakes (keyInSt {} {}) 0x39 = true ∧
    readStr (keyInSt {} {}) .a 0 32 = some (zeros 32) ∧
    isOk (resolve (keyInSt {} {}) (.core .a) { slot := 3, gen := 1 } [kAttest]) = true := by
  refine ⟨⟨⟨?_, ?_⟩, ?_, ?_⟩, ?_⟩ <;> decide +kernel

/-! KeysAreCarriedBetweenTwins -/

/-- A pair in OPERATIONAL whose fabric key stands in slot 9; a transfer asked for, one delivered. -/
def twinKeySt : State := ((keyInSt {} {}).onPar fun p => { p with extX := 2, fabKey := 9 }).onFab fun b => { b with
  keyReq := some (20, 6, 0), twinRoute := true }
theorem witness_keyRequest : hasTwin twinKeySt = true ∧ (pairKey twinKeySt).isSome = true ∧ slotState twinKeySt 9 = .loaded ∧ twinKeySt.key.unwrapped = true ∧
    carriable twinKeySt { slot := 9, gen := 2 } (slotOf twinKeySt 9) = true ∧ rngServes twinKeySt = true ∧ slotState twinKeySt 30 ≠ .loaded := by decide +kernel
theorem witness_keyDelivery : slotBusy twinKeySt 20 = false ∧ slotBusy (twinKeySt.onKey fun k => { k with changes := [{ slot := 20 }] }) 20 = true ∧
    rngServes (twinKeySt.onRng fun r => { r with inst := false }) = false ∧ (slotOf twinKeySt 9).retiring = false := by decide +kernel
theorem witness_keyTransfer : twinKeySt.fab.keyReq = some (20, (6 : BitVec 32).toNat, 0) ∧ twinKeySt.fab.keySent = none ∧ keyAppends twinKeySt = false ∧
    (twinKeySt.onFab fun b => { b with twinRoute := false }).fab.twinRoute = false ∧
    (twinKeySt.onFab fun b => { b with keySent := some (9, 1) }).fab.keySent = some (9, (1 : BitVec 32).toNat) := by decide

/-! RecordWindowCommandsAct -/

/-- Core A with a ready record store: a one-word CONTROL record at address 0, a transaction open for core B, records to read, hot slot 8 to write. -/
def recSt : State := ((keyInSt {} {}).onStore fun r => { r with
  ready := true, holdcapOk := true, part := 1, typ := 0x0107, id := 8, len := 4, txns := [(1, some { part := 1, txn := 4, n := 2 })], nextTxn := 255
  recs := [{ part := 1, typ := 0x0107, id := 8, seq := 1, mark := .present, payload := [1, 2], sector := 5 }] }).onUnit fun m => { m with active := .a }
theorem witness_recWindow : RecFree recSt .a ∧ readStr recSt .a 0 4 = some (zeros 4) ∧ mayAppend .a 1 0x0107 = true ∧ typeIn 1 0x0107 = true ∧
    openTxn recSt .a 1 = none ∧ tget none recSt.store.txns 0 = none ∧ (latest recSt 1 0x0107 8).isSome = true ∧ (latest recSt 1 0x0107 9) = none := by
  refine ⟨⟨⟨?_, ?_⟩, ?_, ?_⟩, ?_⟩ <;> decide +kernel
def recTxnSt : State := (recSt.onCore fun k => { k with b := k.a }).onUnit fun m => { m with active := .b }
theorem witness_recTxn : RecFree recTxnSt .b ∧ (openTxn recTxnSt .b 1).isSome = true ∧ readStr recTxnSt .b 0 4 = some (zeros 4) ∧
    (tget none recTxnSt.store.txns 1).isSome = true := by
  refine ⟨⟨⟨?_, ?_⟩, ?_, ?_⟩, ?_⟩ <;> decide +kernel
theorem witness_recHot : hotRange recSt = none ∧ (List.range 4).all (fun i => hotOwner (8 + i) == 1) = true ∧ readStr recSt .a 0 32 = some (zeros 32) ∧
    twf 0 recSt.store.hot = true ∧ hotOwner 255 = 1 ∧ hotOwner 256 = 2 := by decide +kernel
theorem test_recBeginTx : after (exec (.recBeginTx .a 15) recSt) (fun t => (tget none t.store.txns 0).map (·.n) == some 16 && t.store.nextTxn == 1) := by
  decide +kernel
theorem test_recReadKeyDenied : after (exec .recReadDone (recSt.onStore fun r => { r with
    busy := true, cmd := 2, core := .a, typ := 0x0101, id := 3, recs := [{ part := 1, typ := 0x0101, id := 3, seq := 1, mark := .present, payload := [9] }] }))
    (fun t => t.store.code == .keyDenied && ramGet t .a 4 == bitsW 0) := by decide +kernel

/-! AppendsSectorsAndTimeAct -/

/-- A standby domain on VSTBY with an append under way, a sector being erased and one erased eleven years ago. -/
def storeSt : State := (runSt.onStore fun r => { r with
  ready := true, holdcapOk := true, queue := [{ begun := true, record := { part := 3, typ := 0x0301, payload := zeros 16 } }]
  sectors := [(5, { erasing := true }), (6, { erased := false }), (900, { erased := true })] }).onTime fun t => { t with us := 350000000000000, vLen := 96, busy := true }
theorem witness_store : storeSt.pow.standby = true ∧ storeSt.pow.vstby = true ∧ (sectorOf storeSt 5).erasing = true ∧ (sectorOf storeSt 6).erased = false ∧
    315576000000000 < storeSt.time.us - (sectorOf storeSt 6).erasedAt ∧
    (commitRec (storeSt.onStore fun r => { r with queue := [] }) .gatehouse { part := 3, typ := 0x0301, payload := zeros 16 }).isSome = true := by decide +kernel
theorem witness_recovery : runSt.pow.standby = true ∧ runSt.pow.vstby = true ∧ runSt.pow.pwrfail = false ∧ runSt.store.ready = false := by decide
theorem test_recovery : after (exec (.recordStoreRecoveryDone {}) runSt) (fun t => t.store.ready && t.store.powerUps == 1 && t.store.hotKept) := by decide +kernel
theorem witness_commitPlaced : (placeIn storeSt 3 (pagesFor (zeros 16).length)).isSome = true ∧ inParts 6 = true := by decide +kernel
/-- The next state, or the old one. -/
def nextOf (i : Instr) (s : State) : State := match exec i s with | .next t => t | _ => s
/-- Two unit entries in CONTROL, on pages 1 to 3 of sector 0, and the store before recovery. -/
def norSt : State := (append (append ((runSt.onStore fun r => { r with ready := true, holdcapOk := true }).onUnit fun m => { m with tbl := [(0x50, { st := .active })] })
  .gatehouse 1 0x0107 5 [1, 2, 3]) .gatehouse 1 0x0107 6 (List.replicate 300 7)).onStore fun r => { r with ready := false, recs := [] }
/-- A third record cut off after this many bytes. -/
def cutSt (n : Nat) : State := match placeIn norSt 1 1 with
  | some (t, p) => (tearAt t (placed t.store.recs { part := 1, typ := 0x0106, payload := leBytes 8 9 } p) n).onStore fun r => { r with torn := none }
  | none => norSt
def shown (s : State) : List (Nat × Nat × Nat × Bool × MarkWord) := (s.store.recs.filter (·.part == 1)).map fun r => (r.id, r.sector, r.corr, r.bad, r.mark)
theorem test_bch : checkWord (List.replicate 32 7) = 0x2DE49 ∧ groupErrors ((List.replicate 32 7).set 3 6) 0x2DE49 = some [42] ∧
    groupErrors (List.replicate 32 7) (0x2DE49 ^^^ 7) = none ∧ markOf 0x3CA55AFF = .present ∧ markOf 0xFFFFFFFF = .absent ∧ markOf 0x80000001 = .dead := by decide +kernel
theorem test_recoverBytes : shown (nextOf (.recordStoreRecoveryDone { flips := [(1, 3), (1, 200), (3, 4), (3, 5), (3, 6)] }) norSt)
    = [(5, 0, 2, false, .present), (6, 0, 0, true, .present)] := by decide +kernel
theorem test_recoverCut : shown (nextOf (.recordStoreRecoveryDone {}) (cutSt 100)) = [(5, 1, 0, false, .present), (6, 1, 0, false, .present)] ∧
    shown (nextOf (.recordStoreRecoveryDone {}) (cutSt 251)) = [(5, 0, 0, false, .present), (6, 0, 0, false, .present), (0, 0, 0, false, .dead)] := by decide +kernel
theorem witness_norPages : twf blankPage norSt.store.nor = true ∧ (norPage norSt 1).length = 256 ∧ blankPage.length = 256 ∧ tget 0 norSt.store.progs 1 = 2 := by decide +kernel
theorem witness_dead : (writeDead storeSt { part := 3, typ := 0x0301, payload := zeros 16 }).isSome = true := by decide +kernel
theorem test_commitFails : after (exec (.recAppendCommit false) storeSt) (fun t => (t.store.recs.map (·.mark)) == [.dead] && (t.store.queue.map (·.tries)) == [1]) := by
  decide +kernel
theorem test_eraseDone : after (exec (.sectorEraseDone 5) storeSt) (fun t => (sectorOf t 5).erased && (sectorOf t 5).eraseCount == 1) := by decide +kernel
theorem witness_voucher : Reaches keySt .a 0xA006 true ∧ readStr (ramPuts keySt .a 0 (List.replicate 24 (bitsW 0))) .a 0 96 = some (zeros 96) := by
  refine ⟨⟨?_, ?_⟩, ?_⟩ <;> decide

/-! TamperAlarmsRespond -/

/-- KEEP: the standby domain runs with the main die off; then the same with no standby domain. -/
def keepSt : State := (runSt.onPow fun p => { p with mainUp := false, state := .keep, linkUp := false }).onKey fun k => { k with unwrapped := true }
def vaultSt : State := State.reset.onPow fun p => { p with state := .vault, vbat := true }
theorem witness_tamper : sensorLive keepSt 0x09 = true ∧ sensorLevel keepSt 0x09 = 2 ∧ levelNow keepSt = 0 ∧ sensorLive keepSt 0x00 = false ∧
    sensorLive vaultSt 0x12 = true ∧ sensorLive vaultSt 0x0A = true ∧ sensorLevel vaultSt 0x0A < 3 := by decide
theorem test_tamperLevel2 : after (exec (.tamperAlarm 0x09 7) keepSt) (fun t => t.tmp.inForce && t.tmp.level == 2 && !t.key.unwrapped && t.mgt.alert.getLsbD 1 &&
    t.tmp.raisers.getLsbD 9) := by decide +kernel
theorem test_tamperVault : after (exec (.tamperAlarm 0x0A 7) vaultSt) (fun t => t.tmp.latch == [(0x0A, 1)]) := by decide
/-- Sensor 0x18 watches one external loop. -/
def loopSt : State := keepSt.onPar fun p => { p with loops := 1, levels := [(0x18, some 0)] }
theorem witness_loop : sensorLive loopSt 0x18 = true ∧ sensorLevel loopSt 0x18 = 0 ∧ loopSt.par.loops.getLsbD 0 = true := by decide
theorem test_loopWrong : after (exec (.tamperLoopTick 0 true false) loopSt) (fun t => t.tmp.alarming.getLsbD 0x18 && t.tmp.loopOut == 1) := by decide +kernel
theorem test_loopRight : after (exec (.tamperLoopTick 0 true true) loopSt) (fun t => t.tmp.alarming == 0 && t.tmp.loopIn == 1) := by decide +kernel
theorem test_jtag : after (exec (.jtagUpdateIr 0 true) keepSt) (fun t => t.tmp.alarming.getLsbD 0x17) := by decide +kernel
def badLinkSt : State := runSt.onPow fun p => { p with linkBadMs := 15 }
/-- A frame's own tag authenticates it, and any other does not. -/
theorem witness_linkFrame : badLinkSt.pow.linkUp = true ∧ badLinkSt.pow.linkBadMs = 15 ∧ runSt.pow.linkBadMs < 15 ∧
    authentic badLinkSt [1] (Config.linkTag badLinkSt.pow.linkSession [1]) = true ∧ authentic badLinkSt [1] (Config.linkTag badLinkSt.pow.linkSession [1] + 1) = false := by
  refine ⟨rfl, rfl, by decide, by simp [authentic], ?_⟩
  simp only [authentic, beq_eq_false_iff_ne, ne_eq]; bv_omega
theorem test_linkBad (g : BitVec 128) (h : authentic badLinkSt [1] g = false) : after (exec (.gatehouseLinkFrameRx [1] g) badLinkSt) (fun t =>
    t.tmp.sensor == 0x16 && t.pow.linkBadMs == 0) := by
  simp only [exec, execGatehouseLinkFrameRx, h]; decide +kernel

/-! TamperResponsesEnd -/

/-- A level-1 response in operation, with the plane open and core A running. -/
def respSt : State := (compWinSt.onTmp fun t => { t with inForce := true, level := 1 }).onPow fun p => { p with bootStep := 12 }
theorem witness_tamperEnds : respSt.tmp.inForce = true ∧ respSt.tmp.level = 1 ∧ respSt.tmp.cleared = false ∧ respSt.pow.mainUp = true ∧ 6 ≤ respSt.pow.bootStep ∧
    respSt.fab.withdrawn = false ∧ Reaches respSt .a 0x9810 true ∧ respInForce respSt = true ∧ respSt.hq.open_ = true ∧ respSt.tmp.withdrawn = false := by
  refine ⟨?_, ?_, ?_, ?_, ?_, ?_, ⟨?_, ?_⟩, ?_⟩ <;> decide
theorem test_tamperFlush : after (exec .tamperFlushDone (respSt.onTmp fun t => { t with flushing := true, level := 2 })) (fun t => t.tmp.withdrawn && !t.tmp.flushing) := by
  decide +kernel
theorem test_planeIgnored : after (exec (.hqPlaneOpen .a) respSt) (fun t => decide (t = respSt)) := by decide +kernel
/-- Every boot step ended on an OPERATIONAL device with no twin: the plane is closed at step 11. -/
def readySt : State := ((((((respSt.onTmp fun _ => {}).onHq fun h => { h with open_ := false }).onHbm fun h => { h with keyLoaded := true, trained := true }).onKey fun k => { k with
    fuse := 2, voile := zeros 32, voileInv := List.replicate 32 0xFF, inService := true, unwrapped := true }).onRng fun r => { r with inst := true }).onPow fun p => { p with bootStep := 11, attachDone := true }).onUnit
  (fun m => { m with tbl := (List.range 16).map (fun n => (0x10 + n, ({ st := .active } : UnitEnt))) ++
    [0x38, 0x3B, 0x3C, 0x44, 0x48, 0x49, 0x50].map fun n => (n, { st := .active }) })
  |>.onDrives (fun _ => [(0, { serving := true })]) |>.onLed (fun l => { l with replayed := true, settled := true }) |>.onFab fun b => { b with joined := true }
theorem witness_planeOpens : respInForce readySt = false ∧ readySt.hq.open_ = false ∧ stepsDone readySt = true ∧ operational readySt = true ∧
    readySt.pow.bootStep = 11 ∧ Reaches readySt .a 0x9810 true := by
  refine ⟨?_, ?_, ?_, ?_, ?_, ?_, ?_⟩ <;> decide +kernel
theorem test_planeOpens : after (exec (.hqPlaneOpen .a) readySt) (fun t => t.hq.open_ && t.pow.bootStep == 12 && t.hq.cause.getLsbD 3) := by decide +kernel

/-! ControlRolesAndCoreResets -/

/-- Cores A and B in program RAM, A active. -/
def roleSt : State := keySt.onCore fun k => { k with b := k.a }
theorem witness_roles : Reaches roleSt .a 0xAC00 false ∧ roleSt.unit.active = .a ∧ coreUp roleSt .b = true ∧ Reaches roleSt .b 0xAC00 false ∧
    Reaches roleSt .a 0xAC01 false ∧ Reaches roleSt .a 0xAC02 true ∧ Reaches roleSt .a 0xB806 false ∧ (coreGet roleSt .a).idLock = false ∧
    (coreGet roleSt .a).loadAddr.toNat < progEnd .a := by
  refine ⟨⟨?_, ?_⟩, ?_, ?_, ⟨?_, ?_⟩, ⟨?_, ?_⟩, ⟨?_, ?_⟩, ⟨?_, ?_⟩, ?_, ?_⟩ <;> decide
theorem witness_watchdog : coreLive roleSt .a = true ∧ (coreGet roleSt .a).inRam = true ∧ (coreGet roleSt .a).wdog = false ∧
    (coreGet (coreUpd roleSt .a fun k => { k with halted := true }) (peerOf .b)).halted = true := by decide
theorem test_roleGive : after (exec (.pwrRoleGive .a) roleSt) (fun t => t.unit.active == .b && t.hq.ctlFetched == none && t.unit.bells == roleSt.unit.bells ++ [.table]) := by decide +kernel
theorem test_roleTakePlanned : after (exec (.pwrRoleTake .b) (roleSt.onUnit fun m => { m with gave := true })) (fun t => t.unit.active == .b && !t.unit.gave) := by
  decide +kernel
theorem test_coreReset : after (exec (.coreReset .a) roleSt) (fun t => (coreGet t .a).inReset == false && (coreGet t .a).inRam == false &&
    (handlesOf t .a) == [] && (coreGet t .b) == (coreGet roleSt .b)) := by decide +kernel
theorem test_watchdogHolds : after (exec (.watchdogExpire .a) roleSt) (fun t => (coreGet t .a).inReset && (tget 0 t.unit.irqPend 1).getLsbD 1) := by decide +kernel

/-! ResetsAndSupplyWarningsAct -/

/-- The main rails on, the store ready, the plane open. -/
def railSt : State := (roleSt.onPow fun p => { p with pwrEn := true, pgood := true }).onStore fun r => { r with ready := true, holdcapOk := true, hot := [(9, 4)] }
theorem witness_rails : railSt.pow.pwrEn = true ∧ railSt.pow.pgood = true ∧ railSt.pow.standby = true ∧ railSt.store.ready = true ∧ railSt.store.saving = false ∧
    railSt.pow.pwrfail = false ∧ railSt.pow.vstby = true ∧ railSt.pow.mainUp = true ∧ railSt.pow.state ≠ .keep := by decide
theorem test_pgoodFall : after (exec .mainPgoodFall railSt) (fun t => !t.pow.mainUp && !t.key.unwrapped && t.pow.pgoodWait && decide (t.led = {})) := by decide +kernel
theorem test_sysReset : after (exec .sysReset railSt) (fun t => !t.store.ready && t.store.hot == [(9, 4)]) := by decide +kernel
theorem test_pwrfail : after (exec .pwrfailAssert railSt) (fun t => t.store.held && t.store.saving && t.store.frozen == [(0, 1), (2, 1), (9, 4)]) := by decide +kernel
/-- A pause of PWRFAIL_N on an open plane. -/
def pauseSt : State := (railSt.onPow fun p => { p with pwrfail := true }).onHq fun h => { h with open_ := true }
theorem witness_pause : pauseSt.pow.pwrfail = true ∧ planeOpen pauseSt = true ∧ pauseSt.led.openGroup = [] ∧ pauseSt.led.openAuth = [] ∧ pauseSt.store.saving = false ∧
    pauseSt.tmp.inForce = false := by decide
theorem test_pauseReopen : after (exec .pwrfailPause pauseSt) (fun t => t.hq.paused &&
    after (exec .pwrfailReopen (t.onPow fun p => { p with pwrfail := false })) (fun u => !u.hq.paused && !u.led.stopApply)) := by decide +kernel
theorem witness_vstby : State.reset.pow.vstby = false ∧ State.reset.pow.standby = false := by decide

/-! StandbyStopsAndPowerLossAct -/

/-- The standby domain after VSTBY is lost. -/
def stopSt : State := railSt.onPow fun p => { p with vstby := false }
theorem witness_stop : stopSt.pow.standby = true ∧ stopSt.pow.vstby = false ∧ vaultSt.pow.state = .vault ∧ vaultSt.pow.vbat = true ∧ vaultSt.pow.vstby = false := by decide
theorem test_stop : after (exec .standbyDomainStop stopSt) (fun t => t.store.hot == [] && !t.pow.standby && !t.pow.mainUp) := by decide +kernel
theorem test_vaultReturn : after (exec (.vstbyReturn 40) vaultSt) (fun t => t.time.us == 40 && t.time.extra == 31) := by decide
theorem test_powerLoss : after (exec .totalPowerLoss railSt) (fun t => !voileValid t && !t.time.anchored && t.pow.state == .vault) := by decide +kernel

/-! PowerStatesChange -/

theorem witness_nap : Reaches roleSt .a 0xAC03 true ∧ napRefusal (roleSt.onLed fun l => { l with replayed := true }) = none ∧ roleSt.rng.bank ≠ .failed ∧
    napRefusal (compWinSt.onLed fun l => { l with replayed := true }) = some 3 ∧ napRefusal roleSt = some 4 := by
  refine ⟨⟨?_, ?_⟩, ?_⟩ <;> decide +kernel
theorem witness_keep : roleSt.fab.twinAuth = false ∧ roleSt.pow.keepStep = 0 ∧ roleSt.hq.open_ = false ∧
    allSettled (setWait roleSt { kind := .query }) = false ∧ Reaches (setWait roleSt { kind := .query }) .a 0xAC03 true := by
  refine ⟨?_, ?_, ?_, ?_, ⟨?_, ?_⟩⟩ <;> decide
/-- NAP, waking, with core G running. -/
def napSt : State := ((mailSt.onPow fun p => { p with state := .nap, waking := true }).onRng fun r => { r with bank := .stopped }).onUnit fun m => { m with failover := true }
theorem witness_wake : Reaches napSt .g 0xAC03 true ∧ napSt.pow.state = .nap ∧ napSt.pow.mainUp = true ∧ napSt.led.ckptDue = false ∧ napSt.unit.failover = true ∧
    allSettled napSt = true ∧ napSt.fab.withdrawn = false ∧ napSt.pow.keepStep = 0 := by refine ⟨⟨?_, ?_⟩, ?_⟩ <;> decide
theorem test_keepOff : after (exec .keepWithdrawWaitTimeout (railSt.onPow fun p => { p with keepStep := 3 })) (fun t => t.pow.state == .keep && !t.pow.mainUp) := by
  decide +kernel
def takeFrame : MFrame := { src := 0x200, flood := true, subject := 0x100, term := 3 }
theorem witness_takeover : takeFrame.src ≠ nodeAddr napSt ∧ isRepeat napSt .takeover 0x100 3 0 = false ∧ (viewOf napSt 0x100).term < 3 ∧
    takeFrame.subject ≠ nodeAddr napSt := by decide
theorem test_takeover : after (exec (.takeoverRx takeFrame) napSt) (fun t => (viewOf t 0x100).term == 3 && (viewOf t 0x100).byTwin) := by decide +kernel
/-- DOZE with lane 0 ACTIVE and gated, and DB_WAKE rung. -/
def dozeSt : State := ring ((napSt.onPow fun p => { p with state := .doze }).onLane fun b => { b with lanes := [(2, { gated := true })] }) .wake
theorem witness_doze : dozeSt.pow.state = .doze ∧ dozeSt.pow.standby = true ∧ .wake ∈ dozeSt.unit.bells ∧ unitActive dozeSt 2 = true ∧ twf {} dozeSt.lane.lanes = true ∧
    .wake ∈ (ring napSt .wake).unit.bells ∧ respInForce (ring keepSt .wake) = false := by decide
theorem test_dozeWake : after (exec .keepWake dozeSt) (fun t => t.pow.state == .active && !(tget {} t.lane.lanes 2).gated) ∧
    after (exec .keepWake (ring napSt .wake)) (fun t => t.pow.waking && t.unit.bells == []) := by decide +kernel
theorem test_keepWake : after (exec .keepWake (ring keepSt .wake)) (fun t => t.pow.pwrEn) := by decide +kernel
theorem test_gpioWake : after (exec (.gpioWakeInput 7) (keepSt.onPar fun p => { p with wakeGpio := 0x80 })) (fun t => t.unit.bells == [.wake] && t.pow.gpio == 0x7F) := by
  decide +kernel

/-! MintsReachTheLedger -/

/-- Standby and main dies up, the plane open, own authority, time anchored, one ED25519 event with a class of format 2, its MAC key loaded and cached. -/
def evRec (alg : Bool) (fmt : BitVec 8) : EventRec :=
  { windowStart := 100, windowEnd := 900, maxValidity := 50, macKey := { slot := 10, gen := 1 }, signKey := some { slot := 12, gen := 1 },
    classes := [{ format := fmt, sigAlg := alg, zoneMask := 2, nfcAllowed := true, pqAllowed := true }] }
def planeSt (alg : Bool) (fmt : BitVec 8) : State :=
  (((((keySt.onHq fun h => { h with open_ := true }).onFab fun b => { b with ownAuth := true }).onTime fun t => { t with mAnch := true, mUs := 120 * 60000000, mUnc := 1 }).onHbm
    fun h => { h with events := [(5, evRec alg fmt)] }).onUnit fun m => { m with tbl := [(0, { st := .active }), (0x38, { st := .active }), (0x3B, { st := .active }), (0x44, { st := .active })] }).onKey
    fun k => { k with slots := [(10, { st := .loaded, gen := 1, kind := kAesMac, attrs := 0x2218, material := [8] }),
      (12, { st := .loaded, gen := 1, kind := if alg then kP256Priv else kEdPriv, attrs := 0x2218, material := [9] })] }
/-- The mint of a class-0 credential in a stage of context 1 of lane 0, with the flags given. -/
def mintReq (st : Stage) (flags : BitVec 8) : Req :=
  { lane := 0, ctx := 1, sq := 1, isMint := true, stage := st, entry := zeros 128, m := { flags := flags, event := 5, outAddr := 64, outLen := 4096, foreignLen := 20 } }
def mintSt (alg : Bool) (fmt : BitVec 8) (st : Stage) (flags : BitVec 8) : State :=
  (planeSt alg fmt).onLane fun b => { b with reqs := [(1, mintReq st flags)], lanes := [(0, { cache := [10, 12].map fun n =>
    { key := { slot := n, gen := 1 }, slot := slotOf (planeSt alg fmt) n } })] }
theorem witness_intake : Stands (mintSt false 2 .intake 0) 0 1 .intake (mintReq .intake 0) ∧ planeOpen (planeSt false 2) = true ∧
    mintRsv (mintReq .intake 0).entry = none ∧ eventOf (planeSt false 2) 5 = some (evRec false 2) ∧ (classOf (evRec false 2) 0).isSome = true ∧
    lengthNeeded (planeSt false 2) (mintReq .intake 0).m (evRec false 2) {} 0 ≤ 4096 ∧ mForeign (mintReq .intake 8).m = true := by
  refine ⟨⟨?_, ?_⟩, ?_⟩ <;> decide
theorem witness_closedPlane : planeOpen (mintSt false 2 .intake 0) && ((mintSt false 2 .intake 0).onFab fun b => { b with ownAuth := false }).fab.ownAuth = false := by
  decide
/-- A wrapper of one payload byte string and a serial slot of 7 bytes. -/
def wrapBytes : Bytes := [1, 2, 0, 0, 27, 0, 0, 0, 1, 0, 7, 0] ++ zeros 7 ++ [2, 0, 4, 0, 0, 0, 0, 7]
theorem witness_wrapper : (match checkWrapper (fit 27 wrapBytes) 27 1 with | .ok f => f.payload.length == 7 && f.coverLen == 7 | .error _ => false) = true ∧
    (match checkWrapper (fit 27 (0 :: wrapBytes)) 27 1 with | .error (n, st) => n == 1 && st == .badFormat | .ok _ => false) = true := by decide
def readSt (flags : BitVec 8) : State := (mintSt false 2 .wrapperRead 0).onLane fun b => { b with
  reqs := [(1, { mintReq .wrapperRead flags with seen := some (evRec false 2) })] }
theorem witness_wrapperRead : Stands (readSt 0) 0 1 .wrapperRead { mintReq .wrapperRead 0 with seen := some (evRec false 2) } ∧
    Stands (readSt 2) 0 1 .wrapperRead { mintReq .wrapperRead 2 with seen := some (evRec false 2) } ∧ mPq (mintReq .wrapperRead 2).m = true ∧
    mPq (mintReq .wrapperRead 0).m = false ∧ unitActive (readSt 2) 0x3A = false := by refine ⟨⟨?_, ?_⟩, ⟨?_, ?_⟩, ?_⟩ <;> decide
theorem witness_clock : timeUnfit (planeSt false 2) (evRec false 2) = false ∧ minuteOf (planeSt false 2).time.mUs < (evRec false 2).windowEnd ∧
    (evRec false 2).windowStart < minuteOf (planeSt false 2).time.mUs + maxValidity (evRec false 2) ∧ timeUnfit State.reset (evRec false 2) = true := by decide
theorem witness_rule : firstDenied (mintSt false 2 .rule 0) .mint (mintNeeds (mintReq .rule 0).m (evRec false 2) { format := 2 }) = none ∧
    (mintNeeds (mintReq .rule 0).m (evRec false 2) { format := 2 }).all (fun n => inCache (mintSt false 2 .rule 0) 0 n.key) = true ∧
    firstDenied (mintSt true 1 .rule 0) .mint (mintNeeds (mintReq .rule 0).m (evRec true 1) { format := 1, sigAlg := true }) = none ∧
    randNeed (mintReq .rule 0).m { format := 1, sigAlg := true } = 32 ∧ randNeed (mintReq .rule 0).m { format := 2 } = 0 ∧
    firstDenied keySt .mint (mintNeeds (mintReq .rule 0).m (evRec false 2) { format := 2 }) = some .keyDenied := by decide
/-- With nothing cached the same mint waits for its key. -/
def coldSt : State := (mintSt false 2 .rule 0).onLane fun b => { b with lanes := [] }
theorem witness_notCached : (mintNeeds (mintReq .rule 0).m (evRec false 2) { format := 2 }).any (fun n => !inCache coldSt 0 n.key) = true ∧
    firstDenied coldSt .mint (mintNeeds (mintReq .rule 0).m (evRec false 2) { format := 2 }) = none ∧ rngServes (mintSt true 1 .rule 0) = false ∧
    rngServes ((mintSt true 1 .rule 0).onRng fun r => { r with inst := true, bank := .ready }) = true := by decide
theorem test_ruleHold : after (exec (.mintRule 0 1) coldSt) (fun t => (getReq t 1).map (fun r => (r.stage, r.seen)) == some (.ruleHold, some (evRec false 2))) := by
  decide +kernel
theorem test_mintIntake : after (exec (.mintIntake 0 1) (mintSt false 2 .intake 0)) (fun t => (getReq t 1).map (fun r => (r.stage, r.m.lenNeeded)) == some (.clock, 64)) := by
  decide +kernel
theorem test_mintClock : after (exec (.mintClock 0 1) (mintSt false 2 .clock 0)) (fun t => (getReq t 1).map (fun r => (r.m.vfrom, r.m.vuntil)) == some (100, 170)) := by
  decide +kernel
theorem test_mintRule : after (exec (.mintRule 0 1) (mintSt false 2 .rule 0)) (fun t => (getReq t 1).map (·.stage) == some .ledger) ∧
    after (exec (.mintRule 0 1) (mintSt true 1 .rule 0)) (fun t => (getReq t 1).map (·.stage) == some .drawHold && t.lane.drawWait == [1]) := by decide +kernel

/-! MintsAreAssignedSealedAndEmitted -/

def leaseSt : State := (mintSt false 2 .ledger 0).onLed fun l => { l with lease := some 0, next := 65535 }
theorem witness_assign : Stands leaseSt 0 1 .ledger (mintReq .ledger 0) ∧ mayApply leaseSt = true ∧ leaseSt.fab.ownAuth = true ∧ leaseSt.led.lease = some 0 ∧
    leaseSt.lane.leaseWait = [] ∧ beingRebuilt leaseSt (slotFor true 65535) = false ∧ entry leaseSt true 65535 = .unissued := by
  refine ⟨⟨?_, ?_⟩, ?_⟩ <;> decide
def openingSt (st : Stage) (flags : BitVec 8) : State := (mintSt false 2 st flags).onLed fun l => { l with opening := some { n := 0 } }
theorem witness_opening : Stands (openingSt .ledger 0) 0 1 .ledger (mintReq .ledger 0) ∧ mayApply (openingSt .ledger 0) = true ∧
    (openingSt .ledger 0).led.lease = none ∧ (openingSt .ledger 0).led.opening.isSome = true := by refine ⟨⟨?_, ?_⟩, ?_⟩ <;> decide
theorem witness_notApplied : Stands (leaseSt.onLed fun l => { l with stopApply := true }) 0 1 .ledger (mintReq .ledger 0) ∧
    (mayApply (leaseSt.onLed fun l => { l with stopApply := true }) && leaseSt.fab.ownAuth) = false := by refine ⟨⟨?_, ?_⟩, ?_⟩ <;> decide
def sealSt (flags : BitVec 8) : State := (mintSt false 2 .seal flags).onUnit fun m => { m with tbl := [(0x3A, { st := .active })] }
theorem witness_seal : Stands (sealSt 0) 0 1 .seal (mintReq .seal 0) ∧ mPq (mintReq .seal 0).m = false ∧ Stands (sealSt 2) 0 1 .seal (mintReq .seal 2) ∧
    mPq (mintReq .seal 2).m = true ∧ unitActive (sealSt 2) 0x3A = true := by refine ⟨⟨?_, ?_⟩, ?_, ⟨?_, ?_⟩, ?_⟩ <;> decide
def jobSt : State := (mintSt false 2 .mldsa 2).onLane fun b => { b with pqQueue := [(0, 1)] }
theorem witness_job : jobSt.lane.pqQueue = [(0, 1)] ∧ Stands jobSt 0 1 .mldsa (mintReq .mldsa 2) ∧ jobSt.lane.pqQueue.head? = some (0, 1) := by
  refine ⟨?_, ⟨?_, ?_⟩, ?_⟩ <;> decide
theorem witness_leaseTimeout : (openingSt .leaseWait 0).led.opening = some { n := 0 } ∧ (openingSt .leaseWait 0).led.ceil ≤ 65536 ∧
    (openingSt .leaseWait 0).led.ceilAtTwin ≤ 65536 := by decide
theorem test_assign : after (exec (.mintLedgerAssign 0 1) leaseSt) (fun t => t.led.next == 65536 && rawEntry t true 65535 == .live &&
    (getReq t 1).map (·.stage) == some .durable && t.led.openGroup.length == 1) := by decide +kernel
theorem test_leaseTimeout : after (exec .leaseOpenTimeout ((openingSt .leaseWait 0).onLane fun b => { b with leaseWait := [1] }))
    (fun t => t.led.opening == none && t.lane.reqs == [] && t.lane.leaseWait == []) := by decide +kernel
theorem test_seal : after (exec (.mintSealDone 0 1) (sealSt 0)) (fun t => t.lane.reqs == [] && (t.out.writes.map (·.addr)) == [64]) ∧
    after (exec (.mintSealDone 0 1) (sealSt 2)) (fun t => t.lane.pqQueue == [(0, 1)]) := by decide +kernel

/-! VerdictsAreDecided -/

/-- A format 2 credential of home 0, epoch 0, serial 3 in a stage of context 1 of lane 0, presented for entry in zone 1. -/
def credBytes : Bytes := [2, 0] ++ beBytes 7 3 ++ beBytes 4 5 ++ [0] ++ beBytes 8 2 ++ beBytes 4 100 ++ beBytes 4 900 ++ zeros 18 ++ zeros 12
def verdReq (st : Stage) : Req := { lane := 0, ctx := 1, stage := st, entry := zeros 128, serial := 3, hasSerial := true, v := { gate := 4, credLen := 60, cred := credBytes } }
def verdSt (st : Stage) : State := (mintSt false 2 .intake 0).onLane fun b => { b with reqs := [(1, verdReq st)] }
theorem witness_verdictIntake : Stands (verdSt .intake) 0 1 .intake (verdReq .intake) ∧ credBytes.length = 60 ∧ beyondCred (verdReq .intake) = none ∧
    vDir (verdReq .intake) = 0 ∧ credShape credBytes = true ∧ decidesFor (verdSt .intake) (serialHome (BitVec.ofNat 56 (beAt credBytes 2 7)).toNat) = true ∧
    serialEpoch (BitVec.ofNat 56 (beAt credBytes 2 7)).toNat = (verdSt .intake).led.epoch ∧ vFormat (verdReq .intake) = 2 ∧
    fwdTarget (verdSt .intake) 0x100 = none ∧ decidesFor (verdSt .intake) 0x100 = false := by refine ⟨⟨?_, ?_⟩, ?_⟩ <;> decide
theorem witness_verdictCheck : (match resolveNeed (verdSt .check) .verdict (needMac (evRec false 2)) with | .ok _ => true | .error _ => false) = true ∧
    inCache (verdSt .check) 0 { slot := 10, gen := 1 } = true ∧
    (match resolveNeed ((verdSt .check).onKey fun k => { k with slots := k.slots.drop 1 }) .verdict (needMac (evRec false 2)) with | .ok _ => false | .error _ => true) = true ∧
    (match resolveNeed ((verdSt .check).onKey fun k => { k with slots := k.slots.drop 1 }) .verdict (needSign (evRec false 1) { format := 1 }) with
      | .ok _ => true | .error _ => false) = true := by decide
theorem witness_cacheFill : keyWaiters (verdSt .checkHold) 0 ≠ [] ∧ fillOk (verdSt .checkHold) 0 10 1 = true := by decide
theorem test_cacheFill : after (exec (.keyCacheFill 0 10 1) ((mintSt false 2 .ruleHold 0).onLane fun b => { b with
    lanes := [], reqs := [(1, { mintReq .ruleHold 0 with seen := some (evRec false 2) })] })) (fun t =>
    (tget {} t.lane.lanes 0).cache.map (·.key) == [{ slot := 10, gen := 1 }] && (getReq t 1).map (·.stage) == some .ledger) := by decide +kernel
theorem witness_verdictLedger : Stands (verdSt .ledger) 0 1 .ledger (verdReq .ledger) ∧ mayApply (verdSt .ledger) = true ∧
    decidesFor (verdSt .ledger) (serialHome 3) = true ∧ serialHome 3 = nodeAddr (verdSt .ledger) ∧ beingRebuilt (verdSt .ledger) (slotFor true 3) = false ∧
    pageAtHand (verdSt .ledger) true 3 = true ∧ behind (verdSt .ledger) (verdReq .ledger) = false := by
  refine ⟨⟨?_, ?_⟩, ?_⟩ <;> decide
/-- An earlier verdict of ring 1 for serial 3 stands in CLOCK. -/
def behindSt : State := (verdSt .ledger).onLane fun b => { b with reqs := [(0, verdReq .clock), (1, { verdReq .ledger with order := 1 })] }
theorem witness_behind : behind behindSt { verdReq .ledger with order := 1 } = true ∧ Stands behindSt 0 1 .ledger { verdReq .ledger with order := 1 } := by
  refine ⟨?_, ⟨?_, ?_⟩⟩ <;> decide
theorem test_verdictIntake : after (exec (.verdictIntake 0 1) (verdSt .intake)) (fun t => (getReq t 1).map (·.stage) == some .check) := by decide +kernel
theorem test_verdictClock : after (exec (.verdictClock 0 1) (verdSt .clock)) (fun t => (getReq t 1).map (·.stage) == some .rule) := by decide +kernel
theorem test_verdictRule : after (exec (.verdictRule 0 1) (verdSt .rule)) (fun t => (getReq t 1).map (·.stage) == some .ledger) := by decide +kernel
theorem test_verdictLedger : after (exec (.verdictLedgerApply 0 1) ((verdSt .ledger).onLed fun l => { l with own := [(3, .live)] })) (fun t =>
    rawEntry t true 3 == .closed && (getReq t 1).map (·.stage) == some .durable) := by decide +kernel

/-! ForwardsAndRepliesAct -/

def fwdFrame : FwdFrame := { src := 0x100, lane := 2, ctx := 3, gate := 4, cred := credBytes, seq := 7 }
def fwdSt : State := (verdSt .fwdWait).onLane fun b => { b with fwdSeen := [(0x100, 9, 0)], held := [{ f := fwdFrame }], ctxWait := [{ f := fwdFrame }] }
theorem witness_forward : (0x100, 9, 0) ∈ fwdSt.lane.fwdSeen ∧ (∀ p ∈ fwdSt.lane.fwdSeen, p.1 = fwdFrame.src → p.2.1 = fwdFrame.seq.toNat → 1250 ≤ fwdSt.time.clk - p.2.2) ∧
    fwdFrame.bad = none ∧ decidesFor fwdSt (fwdHome fwdFrame) = true ∧ planeOpen fwdSt = true ∧ fwdSt.lane.held = [{ f := fwdFrame }] ∧
    Stands fwdSt 0 1 .fwdWait (verdReq .fwdWait) ∧ (verdReq .fwdWait).v.fwdSeq = 0 := by
  refine ⟨?_, ?_, ?_, ?_, ?_, ?_, ⟨?_, ?_⟩, ?_⟩ <;> decide
theorem test_forwardRx : after (exec (.verdictFwdRx fwdFrame 0 5) fwdSt) (fun t => (getReq t 5).map (·.v.fwdIn) == some (some { src := 0x100, lane := 2, ctx := 3, seq := 7 })) := by
  decide +kernel
theorem test_replyRx : after (exec (.verdictReplyRx 0 1 0 0x10 0 0 0 5 3) fwdSt) (fun t =>
    t.lane.fwdLate == 0 && t.lane.ctxWait == []) := by decide +kernel

/-! GroupsAndMirrorsAct -/

/-- The open groups hold a record each; the twin at 0x100 is a member. -/
def groupSt : State := ((planeSt false 2).onLed fun l => { l with
  openGroup := [{ kind := .mint, serial := 3 }], openAuth := [{ kind := .close, serial := 4 }], nextGroup := 7, nextAuth := 9, replayed := true, settled := true
  mirEnd := 5, blockSeq := 11 }).onDrives fun _ => [(0, { serving := true, attached := true })]
theorem test_groupTick : after (exec .groupTick groupSt) (fun t => t.led.openGroup == [] && (t.led.groups.map fun g => (g.seq, g.source)) == [(7, 0), (9, 2)] &&
    t.led.blockSeq == 13) := by decide +kernel
def testGroup (src : BitVec 2) : Group := { seq := 7, home := 0, source := src, block := 11, recs := [{ kind := .mint, serial := 3 }] }
def writtenSt (src : BitVec 2) : State := groupSt.onLed fun l => { l with groups := [testGroup src] }
theorem witness_blockWrite : ((writtenSt 0).led.groups.find? fun x => x.block == (testGroup 0).block) = some (testGroup 0) ∧ 0 ∈ writeDrives (writtenSt 0) ∧
    0 ∉ (testGroup 0).onDrives ∧ ((writtenSt 1).led.groups.find? fun x => x.block == 11) = some (testGroup 1) := by decide
theorem test_blockWrite : after (exec (.journalBlockWriteDone 0 11) ((writtenSt 0).onPar fun p => { p with policy := 1 })) (fun t => t.led.ownEnd == 7) := by decide +kernel
theorem witness_driveLost : (tget {} groupSt.drives 0).serving = true ∧ (tget {} groupSt.drives 0).attached = true ∧ unitSt groupSt 0x28 ≠ .retired := by decide
def rollHeldSt : State := setWait (groupSt.onLed fun l => { l with rollHeld := some 3 }) { kind := .roll }
def mirrorSt : State := groupSt.onPar fun p => { p with extX := 2 }
theorem witness_mirror : hasTwin mirrorSt = true ∧ mirrorSt.pow.mainUp = true ∧ mirrorSt.led.replayed = true ∧ mirrorSt.fab.offer = none ∧ mirrorSt.fab.ownAuth = true ∧
    mirrorSt.led.settled = true ∧ mirrorSt.fab.copying = false ∧ lastMirrored mirrorSt false = 5 ∧ mirrorSt.fab.twinAuth = false ∧ mirrorSt.led.mirEnd = 5 ∧
    mirrorSt.led.mirWrite = [] ∧ mirrorSt.led.opening = none := by decide
/-- An opening of lease 3 that waits for the twin. -/
def ackSt : State := mirrorSt.onLed fun l => { l with opening := some { n := 3 } }
theorem witness_leaseMirror : mirrorSt.led.opening = none ∧ pagesOf 65536 + pagesOf mirrorSt.led.ceil ≤ 2 ^ 26 ∧
    2 ^ 26 < pagesOf (2 ^ 40) + pagesOf (mirrorSt.onLed fun l => { l with ceil := 65536 }).led.ceil ∧ ackSt.led.opening = some { n := 3 } ∧
    rollHeldSt.led.rollHeld.isSome = true ∧ rollHeldSt.hq.ctlWait.kind = .roll := by decide
theorem test_leaseAck : after (exec (.leaseAckRx 0x100 0 262144) ackSt) (fun t => t.led.opening.all (·.acked)) ∧
    after (exec (.leaseAckRx 0x100 0 65536) ackSt) (fun t => t.led.opening == some { n := 3 } && t.led.ceilAtTwin == 65536) := by decide +kernel
theorem witness_checkpointDue : (groupSt.onLed fun l => { l with ckptDue := true }).led.ckptDue = true ∧ groupSt.led.ckptDue = false ∧ groupSt.led.sinceCkpt < 2 ^ 20 ∧
    groupSt.time.clk - groupSt.led.ckptAt < 60000000 := by decide
theorem test_mirror : after (exec (.mirrorJournalRx 0x100 0 6 0 [{ kind := .mint, serial := 9 }]) (mirrorSt.onUnit fun m => { m with tbl := [] })) (fun t =>
    rawEntry t false 9 == .live && lastMirrored t false == 6) := by decide +kernel
def resendSt : State := ((writtenSt 0).onPar fun p => { p with extX := 2 }).onFab fun b => { b with view := [(0x100, { member := true })] }
theorem witness_resend : mirrors resendSt = true ∧ (resendSt.led.groups.find? fun x => x.seq == 7 && x.source != 1 && !x.acked) = some (testGroup 0) := by decide
theorem witness_timeouts : Stands leaseSt 0 1 .ledger (mintReq .ledger 0) ∧ (setWait leaseSt { kind := .void }).hq.ctlWait.kind = .void ∧
    (leaseSt.onFab fun b => { b with rollAsk := true }).fab.rollAsk = true := by refine ⟨⟨?_, ?_⟩, ?_⟩ <;> decide
theorem witness_checkpoint : groupSt.pow.state ≠ .nap ∧ groupSt.pow.mainUp = true ∧ groupSt.led.ckptRun = none ∧ groupSt.led.replayed = true := by decide
def ckptSt : State := groupSt.onLed fun l => { l with ckptRun := some { k := 1, p := 11 }, groups := [{ testGroup 0 with durable := true, block := 10 }] }
theorem witness_checkpointWrites : ckptSt.led.ckptRun = some { k := 1, p := 11 } ∧ ckptSt.led.ckptWritten = false ∧
    ∀ g ∈ ckptSt.led.groups, g.source ≠ 1 ∧ g.durable = true := by decide
def voidSt : State := groupSt.onLed fun l => { l with ceil := 65536, voidOwn := [(2, 16384)], own := [(1, .live), (2, .live), (3, .inside), (16384, .live)] }
theorem witness_voidRewrite : voidSt.led.rewritePage = 0 ∧ 0 < pagesOf voidSt.led.ceil ∧ twf .unissued voidSt.led.own = true := by decide
theorem test_voidRewrite : after (exec .voidRewritePage voidSt) (fun t => t.led.own == [(1, .live), (2, .closed), (3, .closed), (16384, .live)]) := by decide +kernel
def rebuildSt (t : Nat) : State := (groupSt.onLed fun l => { l with rebuildQ := some 4, openedAt := dayUs + 10, cover := [(0, dayUs + 10)] }).onDrives fun _ =>
  [(0, { serving := true, journal := [(4, { magic := journalMagic, seq := 4, seq2 := 4, recs := [{ kind := .exit, serial := 3, t := t }], tFirst := t })] })]
theorem witness_rebuild : (blockHeld (rebuildSt 10) 4).isSome = true ∧ blockHeld (rebuildSt 10) 3 = none ∧ (rebuildSt 10).led.rebuildQ = some 4 ∧ servingDrives (rebuildSt 10) = [0] ∧ (rebuildSt 10).led.exits.length < 64 * 2 ^ 20 := by decide
theorem test_rebuild : after (exec .passbackRebuildBlock (rebuildSt 10)) (fun t => t.led.exits == [(3, some 10)] && t.led.cover == [(0, 10)] && t.led.rebuildQ == some 3) ∧
    after (exec .passbackRebuildBlock (rebuildSt 9)) (fun t => t.led.exits == [] && t.led.cover == [(0, 10)] && t.led.rebuildQ == none) := by decide +kernel

/-! PagesAndDrivesInServiceAct -/

def pagesSt : State := mirrorSt.onLed fun l => { l with pages := [(1, { reading := true }), (2, { second := true })], own := [(5, .live)] }
theorem witness_pages : hasTwin pagesSt = true ∧ pagesSt.led.replayed = true ∧ canSupply pagesSt (twinAddr pagesSt) = false ∧ canSupply pagesSt (nodeAddr pagesSt) = true ∧
    twinAddr pagesSt ≠ nodeAddr pagesSt ∧ (pageSt pagesSt 1).reading = true ∧ (pageSt pagesSt 1).cached = false ∧ 0 ∈ servingDrives pagesSt ∧
    (pageSt pagesSt 2).reading = false ∧ (pageSt pagesSt 2).second = true := by decide
def copySt : State := pagesSt.onFab fun b => { b with copying := true, voidAsk := 1, pageAsk := [slotFor false 0], rejoining := false }
theorem witness_copy : copySt.fab.copying = true ∧ copySt.fab.voidAsk = 1 + 2 * 0 ∧ copySt.fab.rejoining = false ∧
    (copySt.fab.pageAsk.contains (slotFor false (0 * 16384)) || (pageSt copySt (slotFor false 0)).fromTwin) = true := by decide +kernel
/-- Page 1 of the region is being read, under a tag that verifies over an empty page, and over one that does not. -/
def tagSt (good : Bool) : State := pagesSt.onLed fun l => { l with tags := [(1, pageTag pagesSt 1 0 [] + if good then 0 else 1)] }
theorem witness_pageTag : pageTag (tagSt true) 1 (tget 0 (tagSt true).led.versions 1) [] = tget 0 (tagSt true).led.tags 1 ∧
    pageTag (tagSt false) 1 (tget 0 (tagSt false).led.versions 1) [] ≠ tget 0 (tagSt false).led.tags 1 := by
  have e (g : Bool) : pageTag (tagSt g) 1 (tget 0 (tagSt g).led.versions 1) [] = pageTag pagesSt 1 0 [] := rfl
  have t (g : Bool) : tget 0 (tagSt g).led.tags 1 = pageTag pagesSt 1 0 [] + if g then 0 else 1 := rfl
  rw [e, e, t, t]; generalize pageTag pagesSt 1 0 [] = x
  exact ⟨by simp, by simp only [Bool.false_eq_true, if_false]; bv_omega⟩
theorem test_pageRx : after (exec (.pageRx 0x100 0 0x100 0 0 [(3, .live)]) copySt) (fun t => rawEntry t false 3 == .live && t.fab.pageAsk == []) := by decide +kernel
theorem test_voidBlock : after (exec (.voidBlockRx 0x100 0 0x100 0 [(3, 9)]) copySt) (fun t => t.led.voidShadow == [(3, 9)] && t.fab.voidAsk == 0) := by decide +kernel
def twoDriveSt : State := pagesSt.onDrives fun _ => [(0, { serving := true }), (1, { serving := true })]
theorem witness_pageOthers : otherServes (countRead (twoDriveSt) 0 true) 0 = true ∧ otherServes (countRead pagesSt 0 true) 0 = false ∧
    (pageSt pagesSt 1).dirty = false ∧ ((setWait pagesSt { kind := .query }).onHq fun h => { h with ctlWait := { h.ctlWait with unapplied := true } }).hq.ctlWait.unapplied = true ∧
    0x13 ∈ (pagesSt.onHbm fun h => { h with rebuilding := [0x13] }).hbm.rebuilding ∧ unitSt pagesSt 0x13 ≠ .draining := by decide +kernel
theorem witness_secondRead : (servingDrives twoDriveSt).length = 2 ∧ Stands (mintSt false 2 .pageWait 0) 0 1 .pageWait (mintReq .pageWait 0) := by
  refine ⟨?_, ⟨?_, ?_⟩⟩ <;> decide
def resilverSt : State := pagesSt.onDrives fun _ => [(0, { serving := true, pages := [(3, { version := 2 })] }), (1, { resilver := 2, attached := true })]
theorem witness_resilver : servingDrives resilverSt = [0] ∧ (tget {} resilverSt.drives 1).resilver = 2 ∧ (tget {} resilverSt.drives 1).attached = true := by decide
theorem test_resilver : after (exec (.resilverCopyDone 1) resilverSt) (fun t => (tget {} t.drives 1).resilver == 6 && (tget {} t.drives 1).pages == [(3, { version := 2 })]) := by
  decide +kernel
theorem witness_attach : pagesSt.pow.mainUp = true ∧ (tget {} pagesSt.drives 1).serving = false ∧ (tget {} pagesSt.drives 1).resilver ≤ 1 ∧
    unitActive pagesSt 0x29 = false := by decide
theorem test_pcRebuild : after (exec (.pcRebuildDone 3) (pagesSt.onHbm fun h => { h with rebuilding := [0x13, 0x14] })) (fun t =>
    t.hbm.rebuilding == [0x14]) := by decide +kernel

/-! AuthorityMovesByGrants -/

/-- A 4 by 4 by 4 fabric, this node 0x000 with every member, joined; its twin is 0x100, its other neighbours 0x300, 0x010, 0x030, 0x001, 0x003. -/
def netSt : State := (((groupSt.onPar fun p => { p with extX := 4, extY := 4, extZ := 4 }).onFab fun b => { b with
  joined := true, abstain := false, twinMember := true, shadowOk := true, ports := [(0, { link := .up }), (3, { link := .up })] }).onUnit fun m => { m with
  tbl := [(0x20, { st := .active }), (0x23, { st := .active }), (0x38, { st := .active })] }).onLed fun l => { l with openGroup := [], openAuth := [] }
theorem witness_heartbeat : netSt.pow.mainUp = true ∧ isMember netSt (nodeAddr netSt) = true ∧ netSt.fab.withdrawn = false ∧ netSt.led.replayed = true ∧
    linkUp netSt .xp = true ∧ 1 < extOf netSt (portDim .xp) ∧ (allPorts.all fun p => !(portSt netSt p).retraining) = true ∧
    adjacent netSt (nodeAddr netSt) = [0x100, 0x300, 0x010, 0x030, 0x001, 0x003] ∧ netSt.fab.offer = none := by decide
theorem witness_heartbeatRoom : ∀ q, PortFree netSt q 336 := by
  intro q; cases q <;> exact ⟨by decide, by decide, by decide, by decide⟩
theorem witness_heartbeatTwin : hasTwin netSt = true ∧ twinAddr netSt = 0x100 ∧ netSt.fab.joined = true ∧ (viewOf netSt 0x100).term < 5 ∧
    (adjacent netSt (nodeAddr netSt)).contains 0x100 = true ∧ (netSt.onFab fun b => { b with twinAuth := true }).fab.twinAuth = true := by decide
theorem test_heartbeatTwin : after (exec (.heartbeatRx 0x100 true false true true 0 5 0) netSt) (fun t => t.fab.copying && !t.fab.shadowOk) ∧
    after (exec (.heartbeatRx 0x100 true false true true 0 5 0) (netSt.onFab fun b => { b with twinAuth := true })) (fun t => !t.fab.twinAuth) := by decide +kernel
theorem test_heartbeat : after (exec .heartbeatTimer netSt) (fun t => t.out.frames.length == 6) := by decide +kernel
theorem witness_heartbeatAlone : hasTwin (netSt.onPar fun p => { p with extX := 1 }) = false ∧
    (adjacent (netSt.onPar fun p => { p with extX := 1 }) 0).contains 0x010 = true := by decide
theorem test_heartbeatRx : after (exec (.heartbeatRx 0x010 true false true true 0 4 0) netSt) (fun t => hears t 0x010 && (viewOf t 0x010).term == 4) := by decide +kernel
theorem witness_silence : excludeWanted netSt = true ∧ takeoverWanted (netSt.onFab fun b => { b with shadowOk := false }) = false ∧ netSt.fab.collE = none ∧
    netSt.fab.twinAuth = false ∧ excludeWanted (netSt.onFab fun b => { b with twinMember := false }) = false ∧ takeoverWanted netSt = true := by decide
theorem test_silence : after (exec (.heartbeatSilence 0x100) netSt) (fun t => t.fab.collE.isSome && t.fab.collT.isSome && t.out.frames.length == 10) := by decide +kernel
theorem witness_witness : (adjacent netSt 0x010).contains (nodeAddr netSt) = true ∧ tget none netSt.fab.grants 0x010 = none ∧ hears netSt 0x010 = false ∧
    twinOf 0x010 = 0x110 ∧ (viewOf netSt 0x010).term = 0 := by decide
theorem test_grant : after (exec (.witnessQueryRx 0x110 false 0x010 0) netSt) (fun t => (tget none t.fab.grants 0x010).isSome) := by decide +kernel
def collSt (dec : Bool) : State := netSt.onFab fun b => { b with
  collE := some { exclude := true, home := 0, grants := [0x300, 0x010, 0x030], decided := dec, acks := [0x300, 0x010] } }
theorem witness_collect : (collectOf (collSt false) true).isSome = true ∧ grantsNeeded true (adjacent netSt 0).length = some 4 ∧
    (adjacent netSt 0).contains 0x001 = true ∧ twinOf 0 = 0x100 ∧ hears (collSt true) (twinAddr netSt) = false ∧ netSt.fab.ownAuth = true := by decide
theorem test_decision : after (exec (.witnessReplyRx 0x001 true .grant 0 0) (collSt false)) (fun t => t.fab.ownTerm == 1 &&
    (t.fab.collE.map (·.decided)) == some true) := by decide +kernel
theorem test_exclude : after (exec (.decisionAckRx { src := 0x001, subject := 0, term := 1, value := 3 }) ((collSt true).onFab fun b => { b with
    collE := b.collE.map fun c => { c with grants := [0x300, 0x010, 0x030, 0x001], acks := [0x300, 0x010, 0x030] } })) (fun t => !t.fab.twinMember &&
    !isMember t 0x100 && (viewOf t 0).term == 1) := by decide +kernel
theorem test_takeover2 : after (exec (.decisionAckRx { src := 0x200, subject := 0x100, term := 1, value := 2 }) (netSt.onFab fun b => { b with
    collT := some { home := 0x100, grants := [0x200, 0x110, 0x130], acks := [0x110, 0x130], decided := true } })) (fun t => t.fab.twinAuth && (viewOf t 0x100).byTwin) := by
  decide +kernel
theorem witness_lapse : tget none [(3, some ({ outstanding := true } : Grant))] 3 = some { outstanding := true } := by decide
theorem test_exclude3 : after (exec (.excludeRx { src := 0x010, flood := true, subject := 0x010, term := 2 }) netSt) (fun t => (viewOf t 0x010).term == 2 &&
    !(viewOf t 0x010).twinMember && !isMember t 0x110) := by decide +kernel

/-! MembershipFramesAct -/

def viewSt : State := netSt.onFab fun b => { b with viewAsked := some 0, rollAsk := true, ownAuth := false }
theorem witness_frames : isRepeat viewSt .join 0x010 0 0 = false ∧ twf {} viewSt.fab.view = true ∧ viewSt.fab.rejoining = false ∧
    (viewOf viewSt (nodeAddr viewSt)).term < 1 ∧ hasTwin viewSt = true ∧ twinAddr viewSt = 0x100 ∧ nodeAddr viewSt ≠ 0x100 ∧
    nextUpPort viewSt viewSt.fab.viewAsked = some .ym ∧ viewSt.hq.ctlWait.kind ≠ .roll ∧ viewSt.fab.view = [] ∧ viewSt.fab.viewGot = false ∧
    eventsPast viewSt = false ∧ viewSt.time.mAnch = true ∧ eventsPast (viewSt.onHbm fun h => { h with events := [] }) = true := by decide
/-- A view that holds what the record store gave for home 0x300 and, in the second, more than that. -/
def recViewSt (own : Bool) : State := viewSt.onFab fun b => { b with view := [(0x300, { term := 4 })], fromRecord := if own then [0x300] else [] }
theorem witness_viewRequest : (∀ p ∈ (recViewSt true).fab.view, p.1 ∈ (recViewSt true).fab.fromRecord) ∧ 0x300 ∉ (recViewSt false).fab.fromRecord ∧
    (recViewSt true).fab.viewAsked.isSome = true ∧ (recViewSt true).fab.viewNamed = [] ∧ 0x300 ∈ (recViewSt true).fab.fromRecord ∧
    PortFree viewSt .xp 56 ∧ (viewSt.onFab fun b => { b with joined := false }).fab.joined = false := by
  refine ⟨by decide, by decide, by decide, by decide, by decide, ⟨by decide, by decide, by decide, by decide⟩, rfl⟩
theorem test_viewRequest : after (exec (.viewRequestRx { src := 0x010, subject := 0 }) (recViewSt false)) (fun t => t.out.frames.length == 1) = true ∧
    after (exec (.viewRx { src := 0x010, subject := 0x200, value := 0x200 + 4096 + 32768 }) ((recViewSt true).onFab fun b => { b with joined := false }))
      (fun t => t.fab.viewGot && (viewOf t 0x300).term == 0) := by decide +kernel
theorem test_join : after (exec (.joinRx { src := 0x010, flood := true, subject := 0x010 }) (viewSt.onFab fun b => { b with view := [(0x010, { member := false })] })) (fun t =>
    isMember t 0x010) := by decide +kernel
theorem test_withdraw : after (exec (.withdrawRx { src := 0x100, flood := true, subject := 0x100, value := 5 }) netSt) (fun t => t.fab.twinAuth && !isMember t 0x100) := by
  decide +kernel
theorem test_handBack : after (exec (.handbackOfferRx { src := 0x100, subject := 0, term := 2, value := 0 }) viewSt) (fun t => t.fab.ownAuth && (viewOf t 0).term == 2) := by
  decide +kernel
def offerSt : State := netSt.onFab fun b => { b with offer := some (0x100, 2, 0), twinAuth := true, heard := [(0x100, true)] }
theorem witness_offer : offerSt.fab.offer = some (0x100, 2, 0) ∧ offerSt.fab.offerWait = false ∧ hears offerSt 0x100 = true ∧ (viewOf offerSt 0x100).term < 2 := by decide
theorem test_handBackAccept : after (exec (.handbackAcceptRx { src := 0x100, subject := 0x100, term := 2 }) offerSt) (fun t => !t.fab.twinAuth && t.fab.offer == none) := by
  decide +kernel
theorem test_view : after (exec (.viewRx { src := 0x010, subject := 0x100, term := 3, value := 0x100 + 4096 + 8192 + 16384 }) viewSt) (fun t =>
    (viewOf t 0x100).term == 3 && !(viewOf t 0x100).byTwin && t.fab.twinTerm == 3) := by decide +kernel
theorem test_timePulse : after (exec (.timePulseRx .xp 0x100 (120 * 60000000 + 100) 1 true) netSt) (fun t => t.fab.timeOffsets == 1) ∧
    after (exec (.timePulseRx .xp 0x100 (120 * 60000000 + 3) 1 true) netSt) (fun t => t.fab.timeOffsets == 0) := by decide +kernel
theorem test_timePulses : after (exec .timePulseTimer netSt) (fun t => t.out.frames.length == 2) := by decide +kernel
def soloSt : State := netSt.onFab fun b => { b with joined := false, ports := [], ownAuth := false }
theorem witness_joinEnd : soloSt.fab.joined = false ∧ allPorts.any (linkUp soloSt) = false := by decide
theorem test_joinEnd : after (exec .pergolaJoinEnd soloSt) (fun t => t.fab.joined && (viewOf t 0).byTwin && !t.fab.ownAuth) := by decide +kernel

/-! LinksTrainAndResend -/

/-- This node's X+ link in a state, with two frames kept for replay, the second resent six times. -/
def linkSt (l : LinkState) : State := ((netSt.onFab fun b => { b with ports := [(0, {
  link := l, linkKeys := [1], helloOk := true, rxSeq := 4, lastRx := some 3, gcmFails := [0]
  replay := [{ seq := 7, wire := [7] }, { seq := 8, frame := { src := 1 }, wire := [8], resends := 6 }] })] }).onRng fun r => { r with inst := true, bank := .ready })
  |>.onUnit fun m => { m with tbl := tput {} m.tbl 0x44 { st := .active } }
theorem witness_train : portUsable (linkSt .down) .xp = true ∧ (linkSt .down).pow.mainUp = true ∧ (linkSt .down).led.replayed = true ∧ (linkSt .down).pow.safe = false ∧
    (portSt (linkSt .down) .xp).link = .down ∧ rngServes (linkSt .down) = true := by decide
theorem test_train : after (exec (.linkTrainStart .xp (some 5)) (linkSt .down)) (fun t => (portSt t .xp).link == .training && t.out.blocks.length == 3) ∧
    after (exec (.trainingPatternDetect .xp none) (linkSt .down)) (fun t => !(portSt t .xp).locked && t.out.blocks == [(.xp, .training)]) := by decide
def helloSt (l : LinkState) : State := netSt.onFab fun b => { b with ports := [(0, { link := l, locked := true, nonce := [1] })] }
def peerHello : Hello := { addr := 0x100, port := .xm, extX := 4, extY := 4, extZ := 4, delay := 9 }
/-- A fabric key stands in slot 5. -/
def fabKeySt (s : State) : State := (s.onKey fun k => { k with
  slots := [(5, { st := .loaded, gen := 1, kind := kKdf, attrs := 0x2101, material := [1] })], unwrapped := true }).onPar fun p => { p with fabKey := 5 }
theorem witness_hello : (portSt (helloSt .training) .xp).helloOk = false ∧ (portSt (helloSt .training) .xp).locked = true ∧ (portSt (helloSt .training) .xp).nonce ≠ [] ∧
    helloFine (helloSt .training) .xp peerHello = true ∧ helloFine (helloSt .training) .xp { peerHello with port := .xp } = false ∧
    linkKeysOf (onPort (helloSt .training) .xp fun l => { l with peer := peerHello, helloOk := true }) .xp = none ∧
    (linkKeysOf (onPort (fabKeySt (helloSt .training)) .xp fun l => { l with peer := peerHello, helloOk := true }) .xp).isSome = true ∧
    helloFine (fabKeySt (helloSt .training)) .xp peerHello = true := by decide +kernel
theorem test_hello : after (exec (.helloRx .xp { peerHello with extX := 2 }) (helloSt .training)) (fun t => (portSt t .xp).link == .down && t.unit.posts.length == 1) := by
  decide +kernel
theorem witness_keyx : (portSt (linkSt .training) .xp).linkKeys ≠ [] ∧ (portSt (linkSt .training) .xp).helloOk = true ∧ (portSt (linkSt .training) .xp).link = .training ∧
    twf {} (linkSt .training).fab.ports = true ∧ linkUp (linkSt .up) .xp = true ∧ rngServes (linkSt .up) = true ∧
    (portSt (onPort (linkSt .up) .xp fun l => { l with rekeying := true }) .xp).rekeying = true := by decide
def rekeySt : State := fabKeySt (linkSt .up)
theorem witness_finishRekey : linkUp rekeySt .xp = true ∧ (portSt rekeySt .xp).waiting = [] ∧ (portSt rekeySt .xp).rxSeq < 5 ∧
    (linkKeysOf (onPort rekeySt .xp fun l => { l with nonce := l.nextNonce, nextNonce := [], peer := { l.peer with nonce := fit 32 [9] } }) .xp).isSome = true := by
  decide +kernel
theorem witness_up : linkUp (linkSt .up) .xp = true ∧ (portSt (linkSt .up) .xp).rekeying = false ∧ (portSt (linkSt .up) .xp).lastRx = some 3 ∧
    fromSeq 7 (portSt (linkSt .up) .xp).replay ≠ [] ∧ fromSeq 9 (portSt (linkSt .up) .xp).replay = [] ∧ (portSt (linkSt .up) .xp).waiting = [] ∧
    (portSt (linkSt .up) .xp).retraining = false ∧ (∀ x ∈ (portSt (linkSt .up) .xp).replay, x.resends < 7) ∧
    (freshPort 0 (portSt (linkSt .up) .xp)).gcmFails.length < 2 ∧ (freshPort 0 { portSt (linkSt .up) .xp with gcmFails := [0, 0] }).gcmFails.length = 2 := by decide
theorem witness_retrain : (portSt (onPort (linkSt .up) .xp fun l => { l with retraining := true }) .xp).retraining = true ∧
    PortFree (linkSt .up) .xp 336 ∧ PortFree (linkSt .up) .xp 56 := by
  refine ⟨rfl, ⟨?_, ?_, ?_, ?_⟩, ⟨?_, ?_, ?_, ?_⟩⟩ <;> decide
theorem test_trainTimeout : after (exec (.linkTrainTimeout .xp) (linkSt .training)) (fun t => (portSt t .xp).link == .down && (portSt t .xp).linkKeys == []) := by
  decide +kernel
theorem test_ackTimer : after (exec (.ackTimer .xp) (linkSt .up)) (fun t => t.out.blocks == [(.xp, .ack 3)]) := by decide +kernel
theorem test_ack : after (exec (.ackRx .xp 7) (linkSt .up)) (fun t => (portSt t .xp).replay.map (·.seq) == [8]) ∧
    after (exec (.ackRx .xp 6) (linkSt .up)) (fun t => (portSt t .xp).replay.map (·.seq) == [7, 8]) := by decide +kernel
theorem test_nak : after (exec (.nakRx .xp 8) (linkSt .up)) (fun t => t.out.frames == [(.xp, { src := 1 })] && t.out.wire == [(.xp, [8])] &&
    after (exec (.nakRx .xp 8) t) (fun u => (portSt u .xp).link == .down)) := by decide +kernel
theorem test_gcm : after (exec (.frameCrcGcmFailure .xp .gcm) (onPort (linkSt .up) .xp fun l => { l with gcmFails := [0, 0] })) (fun t => (portSt t .xp).link == .down) ∧
    after (exec (.frameCrcGcmFailure .xp .gcm) ((onPort (linkSt .up) .xp fun l => { l with gcmFails := [0, 0] }).onTime fun t => { t with clk := 1000000 }))
      (fun t => (portSt t .xp).link == .up && (portSt t .xp).gcmFails == [1000000]) := by decide +kernel
theorem test_degrade : after (exec (.degradeRx .xp 1) (linkSt .up)) (fun t => (portSt t .xp).lanesRetired == 2 &&
    after (exec (.laneRetrainDone .xp) t) (fun u => u.out.frames.length == 2)) := by decide +kernel

/-! FramesAreTakenRoutedOrDiscarded -/

/-- The CRC-32C check value of the algorithm's catalogue. -/
theorem test_crc : crc32c (ascii "123456789") = 0xE3069283 := by decide +kernel
/-- A HEARTBEAT of node 0x100 to this node, and a WITHDRAW of it to node 0x030, as they cross the link with a count. -/
def beatFrame : Frame := { src := 0x100, body := .heartbeat true false false false 0 5 0 }
def leaveFrame : Frame := { src := 0x100, dest := 0x030, body := .membership .withdraw 0 0x100 0 0 0 }
def wireOf (f : Frame) (n : Nat) : Bytes := sealFrame [] n f
theorem wireOf_good (f : Frame) (n : Nat) (h : (payloadBytes f.body).length < 65536) : crcGood (wireOf f n) = true := sealFrame_crcGood [] n f h
theorem witness_frame : (headerOf (wireOf beatFrame 4)).seq = (portSt (linkSt .up) .xp).rxSeq % 2 ^ 32 ∧ (headerOf (wireOf beatFrame 4)).typ = 6 ∧
    (headerOf (wireOf beatFrame 4)).dest = nodeAddr (linkSt .up) ∧ (headerOf (wireOf leaveFrame 4)).dest ≠ nodeAddr (linkSt .up) ∧ linkUp (linkSt .up) .xp = true ∧
    (match frameOf (headerOf (wireOf beatFrame 4)) (toBlocks (payloadBytes beatFrame.body)) with | .ok (.heartbeat a _ _ _ _ w _) => a && w == 5 | _ => false) = true ∧
    (match frameOf (headerOf (wireOf leaveFrame 4)) (toBlocks (payloadBytes leaveFrame.body)) with | .ok (.membership .withdraw ..) => true | _ => false) = true ∧
    (match frameOf (headerOf (wireOf beatFrame 4)) (zeros 8) with | .error _ => true | _ => false) = true := by decide +kernel
theorem witness_frameOpens : crcGood (wireOf beatFrame 4) = true ∧
    openFrame (portSt (linkSt .up) .xp).rxKey (portSt (linkSt .up) .xp).rxSeq (wireOf beatFrame 4) = some (toBlocks (payloadBytes beatFrame.body)) ∧
    openFrame (portSt (linkSt .up) .xp).rxKey (portSt (linkSt .up) .xp).rxSeq (wireOf leaveFrame 4) = some (toBlocks (payloadBytes leaveFrame.body)) :=
  ⟨wireOf_good _ _ (by decide), sealFrame_opens [] 4 beatFrame (by decide), sealFrame_opens [] 4 leaveFrame (by decide)⟩
/-- The empty HEARTBEAT with every bit of its tag inverted, under a good CRC. -/
def badTag : Bytes := headerBytes beatFrame 0 4 ++ (gcmTagOf [] (frameIv 4) (headerBytes beatFrame 0 4) []).map (~~~ ·)
theorem witness_badTag : crcGood (badTag ++ (leBytes 4 (crc32c badTag).toNat ++ [])) = true ∧
    (headerOf (badTag ++ (leBytes 4 (crc32c badTag).toNat ++ []))).seq = 4 ∧
    openFrame (portSt (linkSt .up) .xp).rxKey (portSt (linkSt .up) .xp).rxSeq (badTag ++ (leBytes 4 (crc32c badTag).toNat ++ [])) = none := by
  have hl : badTag.length = 32 := by simp [badTag, gcmTagOf]
  have hc (z : Bytes) : crcAt (badTag ++ z) = 32 := by
    simp only [crcAt, badTag, List.append_assoc]; rw [leAt_append_left _ _ _ _ (by simp), leAt_headerBytes_length _ _ _ (by decide)]
  refine ⟨crcGood_append _ _ (by rw [hc, hl]), ?_, ?_⟩
  · simp only [headerOf, badTag, List.append_assoc]; rw [leAt_append_left _ _ _ _ (by simp)]; decide
  · have hk : (portSt (linkSt .up) .xp).rxKey = [] ∧ (portSt (linkSt .up) .xp).rxSeq = 4 := by decide
    rw [hk.1, hk.2]; simp only [openFrame, hc]
    have ht : (badTag ++ (leBytes 4 (crc32c badTag).toNat ++ [])).take 16 = headerBytes beatFrame 0 4 := by
      simp only [badTag, List.append_assoc]; exact List.take_left' (headerBytes_length ..)
    have hg : cut (badTag ++ (leBytes 4 (crc32c badTag).toNat ++ [])) 16 16 = (gcmTagOf [] (frameIv 4) (headerBytes beatFrame 0 4) []).map (~~~ ·) := by
      generalize leBytes 4 (crc32c badTag).toNat ++ [] = z
      simp only [badTag, List.append_assoc]; exact cut_append (headerBytes_length ..) (by simp [gcmTagOf])
    have he : cut (badTag ++ (leBytes 4 (crc32c badTag).toNat ++ [])) 16 (32 - 32) = [] := by simp [cut]
    rw [ht, he, show 32 - 16 = 16 from rfl, hg, if_neg]
    generalize hx : gcmTagOf [] (frameIv 4) (headerBytes beatFrame 0 4) [] = g
    intro h
    cases g with
    | nil => have := congrArg List.length hx; simp [gcmTagOf] at this
    | cons a g => simp only [List.map_cons, List.cons.injEq] at h; have := h.1; bv_omega
theorem witness_frameForward :
    let f : Frame := { src := 0x100, dest := 0x100, body := .verdictFwd 0 0 0 [] 0 }
    let u := linkSt .down
    (match frameOf (headerOf (wireOf f 4)) (toBlocks (payloadBytes f.body)) with | .ok (.verdictFwd ..) => true | _ => false) = true ∧ (headerOf (wireOf f 4)).typ = 1 ∧
    (headerOf (wireOf f 4)).dest = 0x100 ∧ pairOther 0x100 = nodeAddr u ∧ stuck u { dest := 0x100, body := .verdictFwd 0 0 0 [] 0 } = true := by decide +kernel
/-- What a frame of this node's link does when it opens. -/
theorem wireOf_taken (s : State) (f : Frame) (n : Nat) (h : (payloadBytes f.body).length < 65536) (hu : linkUp s .xp = true) (hm : s.pow.mainUp = true)
    (hk : (portSt s .xp).rxKey = []) (hn : (portSt s .xp).rxSeq = n) (hs : (headerOf (wireOf f n)).seq = n % 2 ^ 32) :
    exec (.frameRoute .xp (wireOf f n)) s = .next (acceptFrame (tookFrame s .xp (n % 2 ^ 32)) .xp (headerOf (wireOf f n)) (toBlocks (payloadBytes f.body))) := by
  have hg := wireOf_good f n h
  have ho : openFrame [] n (wireOf f n) = _ := sealFrame_opens [] n f h
  simp [exec, execFrameRoute, done, hu, hm, hk, hn, hs, hg, ho]
theorem test_frameTaken : after (exec (.frameRoute .xp (wireOf beatFrame 4)) (linkSt .up)) (fun t =>
    (portSt t .xp).rxSeq == 5 && hears t 0x100 && (viewOf t 0x100).term == 5) := by
  rw [wireOf_taken _ _ _ (by decide) (by decide) (by decide) (by decide) (by decide) (by decide +kernel)]; decide +kernel
theorem test_frameOn : after (exec (.frameRoute .xp (wireOf leaveFrame 4)) (onPort (linkSt .up) .ym fun l => { l with link := .up })) (fun t =>
    t.out.frames.map (fun f => (f.1, f.2.hops)) == [(.ym, 1)]) := by
  rw [wireOf_taken _ _ _ (by decide) (by decide) (by decide) (by decide) (by decide) (by decide +kernel)]; decide +kernel
theorem test_frameSent : (sendOn (linkSt .up) .xp beatFrame).out.wire = [(.xp, wireOf beatFrame 0)] := rfl

/-! ControlMessagesAreTakenAndAnswered -/

/-- Core G running its program with one message in hand. -/
def mgtSt (b : Bytes) : State := (((mailSt.onCore fun k => { k with g := { k.g with inRam := true } }).onUnit fun m => { m with tbl := [(0x32, { st := .active })] }).onPow
  fun p => { p with variant := .slx4816 }).onMgt fun m => { m with rx := [{ bytes := b, eid := 8, tag := 3 }], txLen := 4 }
theorem witness_port : gServes (mgtSt []) = true ∧ portTakes [0, 0x81, 2] = true ∧ (mgtSt []).mgt.rx.length < 3 ∧ portTakes [1] = false ∧
    portTakes ([0x7F] ++ enterprise ++ [1]) = true := by decide
theorem witness_setEid : ControlInHand (mgtSt [0, 0x81, 1, 0, 9]) { bytes := [0, 0x81, 1, 0, 9], eid := 8, tag := 3 } [] 1 ∧ cut [0, 0x81, 1, 0, 9] 4 1 = ([9] : Bytes) := by
  refine ⟨⟨?_, ?_⟩, ?_⟩ <;> decide
theorem witness_control :
    ControlInHand (mgtSt [0, 0x81, 2]) { bytes := [0, 0x81, 2], eid := 8, tag := 3 } [] 2 ∧ ControlInHand (mgtSt [0, 0x81, 4]) { bytes := [0, 0x81, 4], eid := 8, tag := 3 } [] 4 ∧
    ControlInHand (mgtSt [0, 0x81, 5]) { bytes := [0, 0x81, 5], eid := 8, tag := 3 } [] 5 ∧ ControlInHand (mgtSt [0, 0x81, 6]) { bytes := [0, 0x81, 6], eid := 8, tag := 3 } [] 6 ∧
    ControlInHand (mgtSt [0, 0x81, 7]) { bytes := [0, 0x81, 7], eid := 8, tag := 3 } [] (7 : Byte).toNat := by
  refine ⟨⟨?_, ?_⟩, ⟨?_, ?_⟩, ⟨?_, ?_⟩, ⟨?_, ?_⟩, ⟨?_, ?_⟩⟩ <;> decide
theorem test_setEid : after (exec (.setEndpointId 9) (mgtSt [0, 0x81, 1, 0, 9])) (fun t => t.mgt.eid == some 9 && t.mgt.rx == [] &&
    t.out.mctp.map (·.bytes) == [[0, 1, 1, 0, 0, 9, 0]]) := by decide +kernel
theorem test_unsupported : after (exec (.mctpUnsupportedCommand 7) (mgtSt [0, 0x81, 7])) (fun t => t.out.mctp.map (·.bytes) == [[0, 1, 7, 5]]) := by decide +kernel
theorem witness_mgtWindow : Reaches (mgtSt []) .g 0xB003 false ∧ Reaches (mgtSt []) .g 0xB006 false ∧ Reaches (mgtSt []) .g 0xB008 false ∧ Reaches (mgtSt []) .g 0xB009 false ∧
    readStr (ramPuts (mgtSt []) .g 0 [bitsW 7]) .g (mgtSt []).mgt.txAddr.toNat 4 = some [7, 0, 0, 0] ∧ (mgtSt []).mgt.txLen.toNat = 4 := by
  refine ⟨⟨?_, ?_⟩, ⟨?_, ?_⟩, ⟨?_, ?_⟩, ⟨?_, ?_⟩, ?_⟩ <;> decide +kernel
theorem test_alert : after (exec (.mgtAlertClear .g 0x11 0x10) ((mgtSt []).onMgt fun m => { m with alert := 0x13 })) (fun t => t.mgt.alert == 0x12) := by decide +kernel
theorem test_setEidOther : after (exec (.setEndpointId 8) (mgtSt [0, 0x81, 1, 0, 9])) (fun t => t.mgt.eid == none && t.mgt.rx.length == 1) := by decide +kernel
theorem test_rxTake : after (exec (.mgtRxTake .g) (mgtSt [1, 2, 3, 4])) (fun t => ramGet t .g 0 == bitsW 0x04030201 && t.mgt.rx == [] && t.mgt.taken.isSome) := by
  decide +kernel

/-! GrawardRequestsAreAnswered -/

/-- A Graward request of a command with a body and no trailer. -/
def gMsg (cmd : Byte) (body : Bytes) : Bytes := [0x7F] ++ enterprise ++ [1, cmd, 0, 9, 0, 0] ++ leBytes 2 body.length ++ zeros 4 ++ body
theorem witness_graward : ([(1, []), (2, []), (3, zeros 8), (4, []), (8, zeros 32), (10, zeros 12), (12, [])] : List (Byte × Bytes)).all (fun p =>
    gServes (mgtSt (gMsg p.1 p.2)) && leAt (gMsg p.1 p.2) 0 1 == 0x7F && leAt (gHead (gMsg p.1 p.2)) 1 1 == p.1.toNat && gCheck (mgtSt (gMsg p.1 p.2)) (gMsg p.1 p.2) == none) := by
  decide +kernel
/-- The same with a trailer made under the holder's key of slot 1. -/
def gSigned (s : State) (key : Bytes) (cmd : Byte) (body : Bytes) : Bytes :=
  let h : Bytes := [1, cmd, 2, 9, 0, 0] ++ leBytes 2 body.length ++ zeros 4
  [0x7F] ++ enterprise ++ h ++ body ++ nonceBytes s ++ bvBytes (Config.hmac384 key (h ++ body ++ nonceBytes s ++ leBytes 8 s.pow.unit.toNat))
def signedSt : State := (mgtSt []).onKey fun k => { k with holder := [(1, some { material := [5] })] }
/-- A proposal whose record is committed queues its post and is answered (14 R753). -/
theorem test_proposed : let u := proposed ((mgtSt []).onMgt fun m => { m with proposals := [({ bytes := gMsg 5 (zeros 16), eid := 8, tag := 3 }, { unit := 2, st := 4 })] }) true
    u.mgt.proposals = [] ∧ u.unit.posts.length = (mgtSt []).unit.posts.length + 1 ∧ u.out.mctp.length = 1 := by decide +kernel
theorem witness_grawardSigned : gCheck signedSt (gSigned signedSt [5] 0x0B (zeros 4)) = none := by
  have e : (cut (gSigned signedSt [5] 0x0B (zeros 4)) (17 + (gBody (gSigned signedSt [5] 0x0B (zeros 4))).length) 64).drop 16
      = bvBytes (Config.hmac384 [5] (gHead (gSigned signedSt [5] 0x0B (zeros 4)) ++ gBody (gSigned signedSt [5] 0x0B (zeros 4))
        ++ (cut (gSigned signedSt [5] 0x0B (zeros 4)) (17 + (gBody (gSigned signedSt [5] 0x0B (zeros 4))).length) 64).take 16
        ++ leBytes 8 signedSt.pow.unit.toNat)) := by rfl
  have k : heldKey signedSt 1 = some [5] := by decide
  unfold gCheck
  simp only []
  rw [if_neg (by decide +kernel), if_neg (by decide +kernel), if_neg (by decide +kernel), if_neg (by decide +kernel), if_neg (by decide +kernel),
    if_neg (by decide +kernel), if_neg (by decide +kernel), k]
  simp only []
  rw [if_neg (by decide +kernel), if_neg]
  rw [e]
  exact fun h => h rfl
theorem witness_grawardRefused : gCheck signedSt (gMsg 0x0B (zeros 4)) = some (gAuth, 0) ∧ gCheck signedSt (gMsg 0x0B []) = some (gLength, 0) ∧
    gCheck signedSt (gMsg 0x0D []) = some (gFormat, 0) := by decide +kernel
theorem test_getHealth : after (exec (.getHealth (gMsg 2 [])) (mgtSt (gMsg 2 []))) (fun t => t.mgt.rx == [] &&
    t.out.mctp.map (fun m => (m.eid, m.tag, m.bytes.length, cut m.bytes 9 1)) == [(8, 3, 5 + 12 + 32 + 0, [0])]) := by decide +kernel
theorem test_telemetryBad : after (exec (.getTelemetry (gMsg 3 [0, 0, 4, 0, 1, 0, 0, 0])) (mgtSt (gMsg 3 [0, 0, 4, 0, 1, 0, 0, 0]))) (fun t =>
    t.out.mctp.map (fun m => (cut m.bytes 9 1, cut m.bytes 13 2)) == [([2], [2, 0x10])]) := by decide +kernel
theorem test_proposal : checkProposal ((mgtSt []).onUnit fun m => { m with tbl := [(2, { st := .active })] }) [2, 3, 0, 1, 0, 0, 0, 0, 0, 0, 0, 0, 0, 0, 0, 0] = none ∧
    checkProposal (mgtSt []) [0x32, 3, 0, 1, 0, 0, 0, 0, 0, 0, 0, 0, 0, 0, 0, 0] = some (gRefused, 0) := by decide +kernel

/-! RegistersReadAndWrite -/

theorem witness_register : coreLive roleSt .a = true ∧ (regAt .a 0x8002).isSome = true ∧ winRefused roleSt .a 0x8002 false = false ∧
    (match regAt .a 0x8002 with | some r => decide (tInt ∈ r.tags ∧ tBits ∉ r.tags) && !winRefused roleSt .a 0x8002 r.aOnly | none => false) = true ∧
    (regAt .a 0x83FF).isNone = true ∧ linkSilent roleSt .a 0x83FF = false := by decide +kernel
def hostSt : State := runSt.onHq fun h => { h with linkUp := true, cause := 7 }
theorem witness_host : hostSt.pow.mainUp = true ∧ hostSt.hq.linkUp = true ∧ twf {} hostSt.tele.pulses = true ∧ twf {} hostSt.hq.vecs = true ∧ hostReach State.reset = false ∧
    (0 : BitVec 32).getLsbD 0 = false ∧ (1 : BitVec 32).getLsbD 0 = true := by decide
theorem test_msixTable : after (exec (.registerWrite (.bar2 1016 4 77)) hostSt) (fun t => bar2 t 1016 == 77) ∧
    after (exec (.registerWrite (.bar2 1020 4 1)) hostSt) (fun t => (tget {} t.hq.vecs 63).masked) := by decide +kernel
theorem test_register : after (exec (.registerWrite (.window .a 0x8002 (intW 5))) roleSt) (fun t => t.key.slotReg == 5) ∧
    after (exec (.registerWrite (.window .a 0x8002 (bitsW 5))) roleSt) (fun t => t.key.slotReg == roleSt.key.slotReg && (coreGet t .a).st == .trap &&
      ramGet t .a 0x7FEB == intW 2) := by decide +kernel
theorem test_host : after (exec (.registerWrite (.bar0 0x104 4 5 0)) hostSt) (fun t => t.hq.cause == 2) ∧
    after (exec (.registerWrite (.bar0 0x104 4 5 1)) hostSt) (fun t => t.hq.cause == 3) ∧
    after (exec (.registerWrite (.bar0 0x1040 8 0x123456789000 0)) hostSt) (fun t => (sqOf t 2).base == 0x123456789) := by decide +kernel

/-! InterruptsPostsAndCrossingsAct -/

/-- Core A in NORMAL with IE set, sources 3 and 5 pending and enabled. -/
def irqSt : State := (roleSt.onCore fun k => { k with a := { k.a with ie := true, pc := 0x900, z := true } }).onUnit fun m => { m with irqPend := [(0, 0x28)], irqEn := [(0, 0x28)] }
theorem witness_interrupt : coreLive irqSt .a = true ∧ (coreGet irqSt .a).waiting = false ∧ takeable irqSt .a = some 3 ∧ (coreGet irqSt .a).rep = none := by decide
theorem test_interrupt : after (exec (.interruptEntry .a) irqSt) (fun t => (coreGet t .a).pc == 0x824 && ramGet t .a 0x7FE0 == caddrW 0x900 &&
    ramGet t .a 0x7FE1 == bitsW 0x11 && ramGet t .a 0x7FE3 == intW 0x103 && !(coreGet t .a).ie && (coreGet t .a).dp == 0x3FF) := by decide +kernel
def repSt (i : Bool) : State := irqSt.onCore fun k => { k with a := { k.a with rep := some { x := { core := .a, rep := .rep 9 i }, left := 4 } } }
theorem witness_repeat : takeable (repSt true) .a = some 3 ∧ (coreGet (repSt true) .a).rep.isSome = true ∧ takeable (repSt false) .a = some 3 := by decide
theorem test_repeat : after (exec (.interruptEntry .a) (repSt true)) (fun t => ramGet t .a 0x7FE2 == intW 4) := by decide +kernel
def drainSt (st : UState) : State := laneWinSt.onUnit fun m => { m with tbl := [(2, { st := st })] }
theorem witness_drained : unitSt (drainSt .draining) 2 = .draining ∧ (unitEnt (drainSt .draining) 2).drained = false ∧ unitBusy (drainSt .draining) 2 = false ∧
    (drainSt .draining).unit.adoptLane ≠ some 2 ∧ unitSt (drainSt .disputed) 2 = .disputed ∧ (drainSt .draining).pow.mainUp = true := by decide
theorem test_drained : after (exec (.unitDrained 2) (drainSt .draining)) (fun t => (unitEnt t 2).drained && t.unit.decided == [(2, .retired, 0)]) := by decide +kernel
theorem test_stall : after (exec (.cdcStall 0x48) hostSt) (fun t => t.hq.cause.getLsbD 8 && (tget 0 t.unit.irqPend 1).getLsbD 2 && t.unit.posts.length == 1) := by
  decide +kernel
theorem witness_resync : assoc (0 * 64 + 1) (verdSt .check).lane.reqs = some (verdReq .check) := by decide
def pulseSt (n : Nat) : State := runSt.onTele fun t => { t with pulses := [(3, { ack := true, count := n })] }
theorem witness_pulse : (tget {} (pulseSt 2).tele.pulses 3).ack = true ∧ (tget {} (pulseSt 0).tele.pulses 3).count = 0 ∧ twf {} (pulseSt 0).tele.pulses = true := by decide
theorem test_pulse : after (exec (.pulseDeliver 3) (pulseSt 15)) (fun t => (tget {} t.tele.pulses 3).overflow && (tget {} t.tele.pulses 3).count == 15) ∧
    after (exec (.pulsePhaseEnd 3) (pulseSt 2)) (fun t => (tget {} t.tele.pulses 3).events == [2] && (tget {} t.tele.pulses 3).ack) := by decide +kernel

/-! TheMainDieStarts -/

/-- The rails on, the main die not yet out of reset, units recorded by the Gatehouse. -/
def upSt : State := (((State.reset.onPow fun p => { p with pwrEn := true, standby := true, vstby := true }).onStore fun r => { r with ready := true }).onUnit fun m => { m with
  tbl := [(2, { st := .active }), (0x10, { st := .active }), (0x30, { st := .active }), (0x31, { st := .active })], gate := [(2, { st := .draining }), (0x30, { st := .failed })]
  gateVersion := 9 })
theorem witness_up2 : upSt.pow.pwrEn = true ∧ upSt.pow.mainUp = false ∧ upSt.pow.standby = true ∧ upSt.store.ready = true ∧ upSt.tmp.level ≠ 3 := by decide
theorem test_mainUp : after (exec (.mainPgoodHigh 0x123 false) upSt) (fun t => unitSt t 2 == .retired && t.unit.active == .b && (coreGet t .a).inReset &&
    t.pow.node == 0x123 && t.unit.version == 9) := by decide +kernel
def bootSt : State := (runSt.onPow fun p => { p with linkUp := false, bootStep := 2, perst := 0 }).onKey fun k => { k with fuse := 1 }
theorem test_linkAgreed : after (exec .gatehouseLinkAgreed bootSt) (fun t => t.pow.linkUp && t.pow.linkSession.length == 32 && t.dig.snooping) := by decide +kernel
theorem witness_link : bootSt.pow.mainUp = true ∧ bootSt.pow.standby = true ∧ bootSt.pow.linkUp = false ∧ bootSt.tmp.bootHeld = false ∧ bootSt.pow.safe = false := by decide
def bankSt : State := bootSt.onPow fun p => { p with linkUp := true, bank := 3 }
theorem witness_bank : bankSt.pow.mainUp = true ∧ bankSt.pow.linkUp = true ∧ bankSt.pow.bank = 3 ∧ bankSt.pow.bootStep < 4 ∧ (bankFail bankSt {}).isSome = true ∧
    (bankSt.onPow fun p => { p with bank := 1 }).pow.bank = (1 : BitVec 1).zeroExtend 2 ∧ bankSt.unit.adopting = 0 := by decide +kernel
/-- A bank of VENDOR_FW_A, VENDOR_FW_G and SIGNATURES, each firmware of one word. -/
def fwSec : Bytes := leBytes 2 0x800 ++ leBytes 2 1 ++ zeros 4 ++ [5, 0]
def goodBank : Bank := {
  header := ascii "DAXI" ++ [1, 3] ++ leBytes 2 7 ++ leBytes 8 9 ++ leBytes 4 12392 ++ zeros 4 ++ [2] ++ zeros 3 ++ leBytes 4 4096 ++ leBytes 4 10 ++ zeros 4
    ++ [3] ++ zeros 3 ++ leBytes 4 8192 ++ leBytes 4 10 ++ zeros 4 ++ [7] ++ zeros 3 ++ leBytes 4 12288 ++ leBytes 4 104 ++ zeros 4 ++ zeros 184
  sections := [{ typ := 2, offset := 4096, bytes := fwSec }, { typ := 3, offset := 8192, bytes := fwSec },
    { typ := 7, offset := 12288, bytes := [1, 0, 0, 0] ++ leBytes 4 14 ++ List.replicate 32 6 ++ zeros 64 }]
  modes := { quad := true } }
/-- Where the signature verifies and its key is the vendor's, the bank passes every check. -/
theorem witness_goodBank (h : ∀ pk m sig, Config.ed25519Verify pk m sig = true) (hv : Config.sha384 (List.replicate 32 6) = Config.vendorHash) :
    bankFail bankSt goodBank = none ∧ bankFail (bankSt.onPow fun p => { p with bank := 1 }) goodBank = none ∧ bankSt.pow.sfdpRead = false := by
  have e : sigEntry goodBank 1 = some ([1, 0, 0, 0] ++ leBytes 4 14 ++ List.replicate 32 6 ++ zeros 64) := by decide +kernel
  have c : cut ([1, 0, 0, 0] ++ leBytes 4 14 ++ List.replicate 32 (6 : Byte) ++ zeros 64) 8 32 = List.replicate 32 6 := by decide +kernel
  have v : vendorOk goodBank = true := by
    simp only [vendorOk, e, c, hv, sigCovers, h, beq_self_eq_true]; decide +kernel
  simp only [bankFail, v]; decide +kernel
/-- The HEADERs of both banks decide which bank is read: the one of higher sequence that has failed nothing. -/
theorem witness_bankTurn : let h := goodBank.header
    let u := readHeaders (openFlash bankSt goodBank.modes) h []
    bankInTurn u h [] = some 0 ∧ bankInTurn (readHeaders bankSt [] h) [] h = some 1 ∧ bankInTurn (readHeaders bankSt [] []) [] [] = none ∧
    bankInTurn (readHeaders (bankSt.onPow fun p => { p with fail0 := 1 }) h h) h h = some 1 := by decide +kernel
theorem test_flash : after (exec (.imageBankStreamed 0 { modes := { quad := true } } false) bankSt) (fun t => t.pow.sfdpRead && t.pow.readMode == .quad &&
    t.out.spi == [.reset 10, .sfdp .single 25, .select .quad 133]) := by decide +kernel
theorem test_safeMode : after (exec (.imageBankStreamed 0 {} false) (bankSt.onPow fun p => { p with fail1 := 2 })) (fun t => t.pow.safe && t.pow.safeNone) := by decide +kernel
def openSt : State := (bankSt.onPow fun p => { p with bank := 1, bootStep := 5 }).onRng fun r => { r with inst := true }
theorem witness_keyStore : openSt.pow.bank ≠ 3 ∧ openSt.rng.inst = true ∧ openSt.pow.bootStep < 6 := by decide
theorem witness_reopen : (openSt.onTmp fun t => { t with restarting := true, cleared := true }).tmp.restarting = true ∧ openSt.key.unwrapped = false := by decide
theorem test_training : after (exec (.hbmTrainingDone [0] [1]) (bootSt.onUnit fun m => { m with tbl := [(0x10, { st := .active }), (0x11, { st := .active })] })) (fun t =>
    unitSt t 0x10 == .failed && unitSt t 0x11 == .active && t.hbm.trained) := by decide +kernel
theorem witness_drive : meetsDrive {} = true ∧ meetsDrive { writeCache := true } = false ∧ meetsDrive { version := 0x00010300 } = false ∧ bootSt.pow.perst.getLsbD 0 = false ∧ bootSt.pow.attachDone = false ∧ bootSt.hbm.trained = false := by decide
theorem test_driveReady : after (exec (.driveReady 1 (zeros 48) (zeros 48) {}) bootSt) (fun t => (tget {} t.drives 1).attached && (tget {} t.drives 1).queue == 1024) ∧
    after (exec (.driveReady 1 (zeros 48) (zeros 48) { capacity := 1 }) bootSt) (fun t => t.pow.perst == 2 && !(tget {} t.drives 1).ready) := by decide +kernel
theorem test_attachTimeout : after (exec .driveAttachTimeout (bootSt.onHbm fun h => { h with keyLoaded := true })) (fun t => t.pow.attachDone && t.pow.bootFault) := by
  decide +kernel
def replaySt : State := (((bootSt.onPow fun p => { p with attachDone := true }).onHbm fun h => { h with keyLoaded := true }).onKey fun k => { k with
  unwrapped := true }).onDrives fun _ => [(0, { serving := true })]
/-- The same with the record of checkpoint 1, which no drive holds. -/
def ckptRecSt : State := replaySt.onStore fun r => { r with recs := [{ part := 3, typ := 0x0303, payload := [1], mark := .present }] }
theorem witness_replay : replaySt.pow.attachDone = true ∧ replaySt.pow.bootFault = false ∧ replaySt.led.replayed = false ∧ servingDrives replaySt ≠ [] ∧
    replayBase replaySt = some {} ∧ replayBase ckptRecSt = none ∧ (latest ckptRecSt 3 0x0303 0).isSome = true ∧
    (∀ d ∈ servingDrives ckptRecSt, (tget {} (tget {} ckptRecSt.drives d).ckpts 1).k ≠ 1) := by decide +kernel

/-! RegisterInstructionsComplete -/

/-- Core A runs in program RAM with a register of every kind. -/
def sgSt : State := (roleSt.onCore fun k => { k with a := { k.a with pc := 0x1200, acc := intW 0x80000000, x := daddrW 0x400, y := daddrW 0x500, lr := caddrW 0x1100, dp := 0x20, c := true, ram := [(0x400, intW 100), (0x401, intW 0xFFFFFFFF), (0x402, bitsW 7), (0x403, caddrW 0x1300), (0x404, daddrW 0x9000), (0x405, handleW 5), (0x407, intW 0)] } })
def sgAcc (w : W36) : State := sgSt.onCore fun k => { k with a := { k.a with acc := w, x := intW 33 } }
def sx : SCtx := { core := .a }
theorem witness_registerInstr : SergeReady sgSt sx (.group .nop) ∧ SergeReady sgSt sx (.group .neg) ∧ (coreGet sgSt .a).acc.tag = tInt ∧ (coreGet sgSt .a).x.tag ∈ anyTag ∧
    (coreGet sgSt .a).y.tag ∈ anyTag ∧ (coreGet sgSt .a).lr.tag ∈ anyTag := by (repeat' apply And.intro) <;> decide +kernel
theorem witness_moreRegisterInstr : SergeReady sgSt sx (.group .di) ∧ SergeReady sgSt sx (.group .not) ∧ SergeReady sgSt sx (.group .stx) ∧ SergeReady sgSt sx (.group .sty) ∧
    SergeReady sgSt sx (.group .xa) ∧ SergeReady sgSt sx (.group .ya) ∧ SergeReady sgSt sx (.group .lra) ∧ SergeReady sgSt sx (.group .asi) ∧ SergeReady sgSt sx (.group .asb) ∧
    SergeReady sgSt sx (.group .dpa) ∧ SergeReady sgSt sx (.group (.tq 5)) := by (repeat' apply And.intro) <;> decide +kernel
theorem witness_addrInstr : SergeReady (sgAcc (caddrW 5)) sx (.group .alr) ∧ (coreGet (sgAcc (caddrW 5)) .a).acc.tag = tCaddr ∧
    SergeReady (sgAcc (daddrW 5)) sx (.group .adp) ∧ (coreGet (sgAcc (daddrW 5)) .a).acc.tag = tDaddr := by (repeat' apply And.intro) <;> decide +kernel
theorem witness_shift : SergeReady (sgAcc (intW 5)) sx (.group .lslx) ∧ SergeReady (sgAcc (intW 5)) sx (.group .lsrx) ∧ SergeReady (sgAcc (intW 5)) sx (.group .asrx) ∧
    SergeReady (sgAcc (intW 5)) sx (.group .rorx) ∧ (coreGet (sgAcc (intW 5)) .a).x.tag = tInt ∧ SergeReady sgSt sx (.shift .lsl 31) ∧ SergeReady sgSt sx (.shift .lsr 0) ∧
    SergeReady sgSt sx (.shift .asr 3) := by (repeat' apply And.intro) <;> decide +kernel
theorem witness_skip : condHolds (coreGet sgSt .a) 1 = false ∧ isInstr { core := .a, cond := 1 } (.group .halt) = true ∧
    frontCheck .a [] 0x1200 (seqWords { core := .a, cond := 1 } (.group .halt)) = none := by decide +kernel
theorem test_neg : after (exec (.neg sx) sgSt) (fun t => let k := coreGet t .a; k.acc == intW 0x80000000 && k.v && k.n && !k.z && !k.c && k.pc == 0x1201) := by decide +kernel
theorem test_lsrx : after (exec (.lsrx sx) (sgAcc (intW 0xFFFFFFFF))) (fun t => let k := coreGet t .a; k.acc == intW 0 && k.z && !k.c) ∧
    after (exec (.rorx sx) (sgAcc (intW 0x80000001))) (fun t => let k := coreGet t .a; k.acc == intW 0xC0000000 && k.n && !k.c) := by decide +kernel
theorem test_shift32 : after (exec (.lsl sx 31) (sgAcc (intW 3))) (fun t => let k := coreGet t .a; k.acc == intW 0 && k.z && k.c) ∧
    after (exec (.asr sx 31) (sgAcc (bitsW 0x80000000))) (fun t => let k := coreGet t .a; k.acc == bitsW 0xFFFFFFFF && k.n && k.c) := by decide +kernel
theorem test_pages : after (exec (.dpa sx) sgSt) (fun t => (coreGet t .a).acc == daddrW 0x400) ∧
    after (exec (.adp sx) (sgAcc (daddrW 0xFFFF))) (fun t => (coreGet t .a).dp == 0x7FF) ∧
    after (exec (.tq sx 1) sgSt) (fun t => (coreGet t .a).z && !(coreGet t .a).c) := by decide +kernel

/-! OperandInstructionsComplete -/

theorem witness_ecc : let s := sgSt.onCore fun k => { k with a := { k.a with badData := [0x400] } }
    SergeReady s sx (.mem .ld .x 0) ∧ (coreGet s .a).x.tag = tDaddr ∧ (coreGet s .a).y.tag = tDaddr ∧ eaOf (coreGet s .a) [] .x 0 = 0x400 := by
  unfold SergeReady; refine ⟨?_, ?_, ?_, ?_⟩ <;> decide +kernel
theorem witness_operand : SergeReady sgSt sx (.mem .ld .x 2) ∧ Operand sgSt sx .x 2 (bitsW 7) sgSt ∧ SergeReady sgSt sx (.mem .add .direct 0) ∧
    Operand sgSt sx .direct 0 (intW 100) sgSt ∧ SergeReady sgSt sx (.mem .mul .imm 31) ∧ Operand sgSt sx .imm 31 (intW 0xFFFFFFFF) sgSt := by
  unfold SergeReady Operand; refine ⟨by decide +kernel, ?_, by decide +kernel, ?_, by decide +kernel, ?_⟩ <;>
    first | exact ⟨by decide +kernel, fun _ => ⟨rfl, by decide +kernel, rfl⟩, by decide +kernel, by decide +kernel⟩ | exact ⟨fun _ => ⟨rfl, rfl⟩, fun h => absurd rfl h, by decide, by decide⟩
theorem witness_pointerOps : SergeReady sgSt sx (.mem .sub .direct 0) ∧ SergeReady sgSt sx (.mem .cmp .direct 0) ∧ SergeReady sgSt sx (.mem .and .direct 0) ∧
    SergeReady sgSt sx (.mem .or .direct 0) ∧ SergeReady sgSt sx (.mem .xor .direct 0) ∧ SergeReady sgSt sx (.mem .div .direct 0) ∧ SergeReady sgSt sx (.mem .ldx .direct 0) ∧
    SergeReady sgSt sx (.mem .ldy .direct 0) ∧ SergeReady sgSt sx (.mem .ldx .x 31) ∧ SergeReady sgSt sx (.mem .ldy .y 31) ∧ SergeReady sgSt sx (.mem .ldx .imm 5) ∧
    SergeReady sgSt sx (.mem .ldy .imm 5) ∧ immOf [] 5 = 5 ∧ (coreGet sgSt .a).x.tag = tDaddr ∧ (coreGet sgSt .a).y.tag = tDaddr ∧ (coreGet (sgAcc (intW 1)) .a).x.tag = tInt ∧
    SergeReady (sgAcc (intW 1)) sx (.mem .ldx .x 3) := by (repeat' apply And.intro) <;> decide +kernel
theorem witness_void : busRead sgSt .a (eaOf (coreGet sgSt .a) [] .x 6) = .ok {} sgSt := rfl
theorem test_addOverflow : after (exec (.add sx .x 1) sgSt) (fun t => let k := coreGet t .a; k.acc == intW 0x7FFFFFFF && k.v && k.c && !k.n && !k.z) := by decide +kernel
theorem test_mul : after (exec (.mul sx .x 1) sgSt) (fun t => let k := coreGet t .a; k.acc == intW 0x80000000 && k.y == intW 0 && k.v && k.n && !k.c) := by decide +kernel
theorem test_div : after (exec (.div sx .x 1) sgSt) (fun t => let k := coreGet t .a; k.acc == intW 0x80000000 && k.y == intW 0 && k.v) ∧
    after (exec (.div sx .x 7) sgSt) (fun t => let k := coreGet t .a; k.pc == 0x810 && k.st == .trap && k.acc == intW 0x80000000) := by decide +kernel
theorem test_ldxMode : after (exec (.ldx sx .x 31) sgSt) (fun t => (coreGet t .a).x == daddrW 0x3FF) ∧
    after (exec (.ldx { core := .a, exts := [0x20] } .imm 0) sgSt) (fun t => (coreGet t .a).x == daddrW 0x400 && (coreGet t .a).pc == 0x1202) := by decide +kernel
theorem test_loadFlags : after (exec (.ld sx .direct 5) sgSt) (fun t => (coreGet t .a).acc == handleW 5 && !(coreGet t .a).z && !(coreGet t .a).n) ∧
    after (exec (.ld sx .imm 16) sgSt) (fun t => (coreGet t .a).acc == intW 0xFFFFFFF0 && (coreGet t .a).n) := by decide +kernel
theorem test_voidLoad : after (exec (.ld sx .x 6) sgSt) (fun t => (coreGet t .a).pc == 0x80C && ramGet t .a 0x7FEC == daddrW 0x406) ∧
    after (exec (.add sx .direct 2) sgSt) (fun t => (coreGet t .a).pc == 0x808 && ramGet t .a 0x7FEC == daddrW 0x402) := by decide +kernel

/-! StoresAndJumpsComplete -/

theorem witness_storeInstr : SergeReady sgSt sx (.mem .st .y 3) ∧ (coreGet sgSt .a).acc.tag ∈ anyTag ∧ (coreGet sgSt .a).x.tag = tDaddr ∧ (coreGet sgSt .a).y.tag = tDaddr ∧
    eaOf (coreGet sgSt .a) [] .y 3 = 0x503 := by (repeat' apply And.intro) <;> decide +kernel
theorem witness_xmov : SergeReady sgSt sx (.xmov 5) ∧ busRead sgSt .a (wrapAddr (coreGet sgSt .a).x.val (offsetOf [] 5)) = .ok (handleW 5) sgSt ∧
    busWrite sgSt .a 0x500 (handleW 5) = .ok (handleW 5) (ramPut sgSt .a 0x500 (handleW 5)) := by
  refine ⟨by (repeat' apply And.intro) <;> decide +kernel, rfl, rfl⟩
theorem witness_jump : SergeReady sgSt sx (.mem .jmp .direct 3) ∧ Operand sgSt sx .direct 3 (caddrW 0x1300) sgSt ∧ SergeReady sgSt sx (.mem .call .imm 16) ∧
    (sergeNext sgSt sx (.mem .call .imm 16) : Int) - 1 + immOf [] 16 = (0x11F0 : Nat) ∧ SergeReady sgSt sx (.group .ret) ∧ (coreGet sgSt .a).lr.tag = tCaddr := by
  refine ⟨by (repeat' apply And.intro) <;> decide +kernel, ⟨by decide, fun _ => ⟨rfl, by decide, rfl⟩, by decide, by decide⟩, by (repeat' apply And.intro) <;> decide +kernel, by decide +kernel,
    by (repeat' apply And.intro) <;> decide +kernel, by decide⟩
theorem witness_jmpa : SergeReady (sgAcc (caddrW 0x3FFF)) sx (.group .jmpa) ∧ (coreGet (sgAcc (caddrW 0x3FFF)) .a).acc.val.toNat < progEnd .a := by
  (repeat' apply And.intro) <;> decide +kernel
theorem test_store : after (exec (.st sx .y 3) sgSt) (fun t => ramGet t .a 0x503 == intW 0x80000000 && (coreGet t .a).pc == 0x1201 && ramGet t .a 0x400 == intW 100) := by
  decide +kernel
theorem test_xmov : after (exec (.xmov sx 5) sgSt) (fun t => ramGet t .a 0x500 == handleW 5 && (coreGet t .a).x == daddrW 0x401 && (coreGet t .a).y == daddrW 0x501) := by
  decide +kernel
theorem test_call : after (exec (.call sx .direct 3) sgSt) (fun t => (coreGet t .a).pc == 0x1300 && (coreGet t .a).lr == caddrW 0x1201) ∧
    after (exec (.jmp { core := .a, exts := [0x57] } .imm 0x17) (sgSt.onCore fun k => { k with a := { k.a with pc := 0x808 } })) (fun t => (coreGet t .a).pc == 0x1300) := by
  decide +kernel

/-! ControlInstructionsAct -/

theorem witness_controlInstr : SergeReady sgSt sx (.group .ei) ∧ SergeReady sgSt sx (.group .halt) ∧ SergeReady sgSt sx (.group .wait) ∧ pendingSource sgSt .a = none ∧
    (coreGet sgSt .a).ie = false ∧ (coreGet sgSt .a).eiNext = false ∧ SergeReady sgSt sx (.group .svc) ∧ (coreGet sgSt .a).st ≠ .trap := by (repeat' apply And.intro) <;> decide +kernel
theorem witness_waitIrq : SergeReady irqSt sx (.group .wait) ∧ pendingSource irqSt .a = some 3 ∧ (coreGet irqSt .a).ie = true ∧ (coreGet irqSt .a).st = .normal := by
  (repeat' apply And.intro) <;> decide +kernel
def waitSt (i : Bool) : State := irqSt.onCore fun k => { k with a := { k.a with waiting := true, ie := i } }
theorem witness_waiting : coreLive (waitSt true) .a = true ∧ (coreGet (waitSt true) .a).waiting = true ∧ pendingSource (waitSt true) .a = some 3 ∧
    twf {} (coreGet (waitSt true) .a).ram = true := by decide +kernel
def iretSt : State := sgSt.onCore fun k => { k with a := { k.a with st := .trap, ram := [(0x7FE8, caddrW 0x1203), (0x7FE9, bitsW 0x2010), (0x7FEA, intW 5)] } }
theorem witness_iret : SergeReady iretSt sx (.group .iret) ∧ (coreGet iretSt .a).st ≠ .normal := by (repeat' apply And.intro) <;> decide +kernel
theorem test_iret : after (exec (.iret sx) iretSt) (fun t => let k := coreGet t .a; k.pc == 0x1203 && k.ie && k.dp == 0x20 && k.repc == 5 && k.st == .normal) := by decide +kernel
/-- The repeated sum of chapter 08 at its eighth iteration: the operand is BITS. -/
def sumX : SCtx := { core := .a, rep := .rep 12 true }
def sumSt (left a : Nat) (acc : W36) : State := sgSt.onCore fun k => { k with a := { k.a with
  pc := 0x1203, ie := true, c := false, x := daddrW (BitVec.ofNat 32 a), acc := acc, rep := if left = 12 then none else some { x := sumX, op := .mem .add .x 0, left := left }, ram := [(0x400, intW 100), (0x406, intW 700), (0x407, bitsW 800), (0x40B, intW 1200)] } }
theorem witness_repeatStart : SergeReady (sumSt 12 0x400 (intW 0)) sx (.mem .ld .x 0) ∧ isInstr sumX (.mem .ld .x 0) = true ∧
    frontCheck .a [] 0x1203 (seqWords sumX (.mem .ld .x 0)) = none := by (repeat' apply And.intro) <;> decide +kernel
theorem test_repeatStart : after (exec (.add sumX .x 0) (sumSt 12 0x400 (intW 0))) (fun t => (coreGet t .a).rep == some { x := sumX, op := .mem .add .x 0, left := 12 }) := by
  decide +kernel
theorem witness_iteration : coreLive (sumSt 6 0x406 (intW 2100)) .a = true ∧ regCheck (coreGet (sumSt 6 0x406 (intW 2100)) .a) false (.mem .add .x 0) = none ∧
    takeable (sumSt 6 0x406 (intW 2100)) .a = none := by decide +kernel
/-- Repeats of a shift, a load and a store at address 0x400, with three iterations left and with one. -/
def loopX : SCtx := { core := .a, rep := .rep 4 false }
def rptSt (op : SOp) (left : Nat) : State := (sgAcc (intW 3)).onCore fun k => { k with a := { k.a with
  x := daddrW 0x400, rep := some { x := loopX, op := op, left := left } } }
theorem witness_repeats : ∀ left ∈ [1, 3], coreLive (rptSt (.shift .lsl 1) left) .a = true ∧ (coreGet (rptSt (.shift .lsl 1) left) .a).acc.tag ∈ [tInt, tBits] ∧
    takeable (rptSt (.shift .lsl 1) left) .a = none ∧ takeable (rptSt (.mem .ld .x 0) left) .a = none ∧ takeable (rptSt (.mem .st .x 0) left) .a = none ∧
    (coreGet (rptSt (.mem .st .x 0) left) .a).acc.tag ∈ anyTag ∧ (coreGet (rptSt (.mem .st .x 0) left) .a).x.tag = tDaddr ∧
    eaOf (coreGet (rptSt (.mem .st .x 0) left) .a) [] .x 0 < 0x8000 := by decide +kernel
theorem witness_repeatOperand (left : Nat) : Operand (rptSt (.mem .ld .x 0) left) loopX .x 0 (intW 100) (rptSt (.mem .ld .x 0) left) ∧
    coreOn (rptSt (.mem .ld .x 0) left) .a = true := by
  refine ⟨⟨fun h => absurd h (by decide), fun _ => ⟨rfl, by decide, rfl⟩, fun _ => rfl, fun h => absurd h (by decide)⟩, rfl⟩
theorem test_repeats : after (exec (.repeatIteration .a) (rptSt (.shift .lsl 1) 3)) (fun t => (coreGet t .a).acc == intW 12 && ((coreGet t .a).rep.map (·.left)) == some 2) ∧
    after (exec (.repeatIteration .a) (rptSt (.mem .st .x 0) 1)) (fun t => ramGet t .a 0x400 == intW 3 && (coreGet t .a).x == daddrW 0x401 && (coreGet t .a).rep.isNone &&
      (coreGet t .a).pc == 0x1202) ∧
    after (exec (.repeatIteration .a) (rptSt (.mem .ld .x 0) 3)) (fun t => (coreGet t .a).acc == intW 100 && (coreGet t .a).x == daddrW 0x401) := by decide +kernel
theorem test_iteration : after (exec (.repeatIteration .a) (sumSt 6 0x406 (intW 2100))) (fun t => (coreGet t .a).acc == intW 2800 && (coreGet t .a).x == daddrW 0x407 &&
    ((coreGet t .a).rep.map (·.left)) == some 5) := by decide +kernel
/-- Step 6 of the example of chapter 08: the frame of the tag fault. -/
theorem test_sumFault : after (exec (.repeatIteration .a) (sumSt 5 0x407 (intW 2800))) (fun t => (List.range 8).map (fun i => ramGet t .a (0x7FE8 + i)) ==
    [caddrW 0x1203, bitsW 0x2010, intW 5, intW 2, daddrW 0x407, intW 0, intW 0, intW 0] && (coreGet t .a).pc == 0x808 && (coreGet t .a).acc == intW 2800) := by decide +kernel
theorem test_sumEnd : after (exec (.repeatIteration .a) (sumSt 1 0x40B (intW 6600))) (fun t => (coreGet t .a).acc == intW 7800 && (coreGet t .a).x == daddrW 0x40C &&
    (coreGet t .a).pc == 0x1205 && (coreGet t .a).rep.isNone) := by decide +kernel
theorem test_sumWords : seqWords sumX (.mem .add .x 0) = [0x3B0B, 0x0120] ∧ seqWords { core := .a, exts := [0x20] } (.mem .ldx .imm 0) = [0x3820, 0x0560] ∧
    seqWords sx (.group .ret) = [0x0787] ∧ seqWords sx (.mem .ldx .x 31) = [0x053F] := by decide
theorem witness_undefined : frontCheck .a [] 0x1200 [0x3B0B, 0x0600] = some (trPrefix, atWord 0x3B0B 0) ∧ frontCheck .a [] 0x1200 [0x079F] = some (trUndef, atWord 0x79F 0) := by decide
theorem test_undefined : after (exec (.undefinedInstruction .a [0x3820, 0x00E0]) sgSt) (fun t => (coreGet t .a).pc == 0x804 && ramGet t .a 0x7FEC == intW 0x100E0) := by
  decide +kernel
/-- Owner code that asks for services 4 and 2: a supply-fault note of 7, and a record of four bytes at 0x410. -/
def ownSt (n : BitVec 32) (y : W36) : State := sgSt.onCore fun k => { k with a := { k.a with
  ownerFw := true, pc := 0x2900, acc := intW n, y := y, ram := [(0x400, intW 9), (0x401, intW 4), (0x402, daddrW 0x410), (0x403, intW 0), (0x410, bitsW 5)] } }
theorem witness_service : SergeReady (ownSt 4 (intW 7)) sx (.group .svc) ∧ ownerCode (ownSt 4 (intW 7)) .a = true ∧ (coreGet (ownSt 4 (intW 7)) .a).st ≠ .trap ∧
    (coreGet (ownSt 4 (intW 7)) .a).y.tag = tInt ∧ descriptor (ownSt 2 (daddrW 0x400)) .a 0x400 = some (9, 4, 0x410) ∧
    readStr (ownSt 2 (daddrW 0x400)) .a 0x410 4 = some [5, 0, 0, 0] := by (repeat' apply And.intro) <;> decide +kernel
theorem test_svc : after (exec (.svc sx) sgSt) (fun t => (coreGet t .a).pc == 0x820 && ramGet t .a 0x7FE8 == caddrW 0x1201 && ramGet t .a 0x7FEB == intW 8) := by decide +kernel
theorem test_wait : after (exec (.waitComplete .a) (waitSt false)) (fun t => (coreGet t .a).pc == 0x901 && !(coreGet t .a).waiting && (coreGet t .a).st == .normal) := by decide +kernel

/-! StepRunsTheFrontCommand -/

theorem witness_step : ({ State.reset with pending := [.nop {}] } : State).pending = .nop {} :: [] ∧ State.reset.pending = [] := by decide
theorem test_step : after (step { sgSt with pending := [.nop sx, .halt sx] }) (fun t => (coreGet t .a).pc == 0x1201 && t.pending == [.halt sx]) := by decide +kernel

/-! ResetStateIsSound -/

theorem witness_lacking : unitFitted .slx4812 0x0C = false ∧ unitFitted .slx4816 0x60 = false := by decide

/-! AbsentUnitsStayAbsent -/

theorem witness_units : UnitsInv { State.reset with pending := [.nop {}] } :=
  ⟨by decide +kernel, fun u h => by
    by_cases hu : u < 128
    · have : ∀ v : Fin 128, unitFitted .slx4816 v.val = false → unitSt State.reset v.val = .absent := by decide +kernel
      exact this ⟨u, hu⟩ h
    · have : ∀ p ∈ State.reset.unit.tbl, p.1 < 128 := by decide +kernel
      have key : ∀ (t : Tbl UnitEnt), (∀ p ∈ t, p.1 < 128) → tget {} t u = {} := by
        intro t; induction t with
        | nil => intro _; rfl
        | cons p t ih => intro hp; simp only [tget]; rw [if_neg (by have := hp p (by simp); omega)]; exact ih fun q hq => hp q (by simp [hq])
      simp only [unitSt, unitEnt]; rw [key _ this]⟩

/-! DataPlaneOpensOnlyInOperational -/

def opensSt : State := (((ctlOpSt 1).onPow fun p => { p with bootStep := 11, attachDone := true }).onKey fun k => { k with inService := true }).onHbm fun h => { h with
  keyLoaded := true, trained := true }
def opens2 : State := (((((opensSt.onLed fun l => { l with replayed := true, settled := true }).onFab fun b => { b with joined := true }).onRng fun r => { r with
  inst := true }).onDrives fun _ => [(0, { serving := true })]).onUnit fun m => { m with tbl := freshUnits .slx4816, active := .a })
theorem witness_opens : after (step { opens2 with pending := [.hqPlaneOpen .a] }) (fun t => t.hq.open_ && lifecycle t == 3) = true ∧ opens2.hq.open_ = false := by
  decide +kernel

/-! RetirementIsFinal -/

theorem witness_retired : (runSt.onKey fun k => { k with fuse := 3, rootKill := true }).key.fuse = 3 ∧
    after (step ((runSt.onKey fun k => { k with fuse := 3, rootKill := true }))) (fun t => lifecycle t == 5) = true := by decide

/-! InstructionWordsRoundTrip -/

theorem witness_roundTrip : isInstr { cond := 6 } (.group (.tq 5)) = true ∧ instrOf 0x379D = some (6, .group (.tq 5)) ∧ isPrefix 0x0560 = false ∧ isDefined 0x0560 = true := by decide
/-- The words of the routine and the vector of chapter 08, and of its software stack. -/
theorem test_words : instrOf 0x0560 = some (0, .mem .ldx .imm 0) ∧ instrOf 0x0060 = some (0, .mem .ld .imm 0) ∧ instrOf 0x0120 = some (0, .mem .add .x 0) ∧
    instrOf 0x0787 = some (0, .group .ret) ∧ instrOf 0x0677 = some (0, .mem .jmp .imm 0x17) ∧ instrOf 0x0098 = some (0, .mem .st .direct 0x18) ∧
    instrOf 0x053F = some (0, .mem .ldx .x 31) ∧ instrOf 0x0788 = some (0, .group .jmpa) ∧ instrOf 0x00E0 = none ∧ instrOf 0x079F = none := by decide

/-! InstructionWordsAreAccountedFor -/

theorem test_prefixWords : isDefined 0x3C00 = true ∧ isDefined 0x3C01 = false ∧ isDefined 0x3E00 = false ∧ isDefined 0x39FF = true := by decide

/-! EntryWritesTheFrame -/

theorem witness_entryFrame : twf {} (coreGet irqSt .a).ram = true ∧ statusWord { z := true, v := true, ie := true, st := .interrupt, dp := 0x7FF } = 0x0007FF39 := by decide

/-! DoubleTrapsStopTheCore -/

theorem witness_doubleTrap : (coreGet iretSt .a).st = .trap ∧ (coreGet iretSt .a).halted = false := by decide
theorem test_doubleTrap : after (exec (.svc sx) iretSt) (fun t => (coreGet t .a).halted && (coreGet t .a).pc == 0x1200) := by decide +kernel

/-! DataAddressesWrap -/

theorem test_wrap : eaOf { x := daddrW 0xFFFF } [] .x 2 = 1 ∧ eaOf { y := daddrW 0 } [0x1FF] .y 31 = 0xFFFF ∧ eaOf { dp := 0x3FF } [] .direct 31 = 0x7FFF := by decide

/-! LowestPendingSourceIsTaken -/

theorem witness_lowest : coreLive irqSt .a = true ∧ (coreGet irqSt .a).rep = none ∧ (pendingBits irqSt .a).getLsbD 3 = true ∧ (pendingBits irqSt .a).getLsbD 5 = true ∧
    (tget 0 irqSt.unit.irqEn 0).getLsbD 3 = true ∧ twf {} (coreGet irqSt .a).ram = true := by decide

/-! ReadsAndStoresCheckTags -/

theorem witness_checkTags : sergeOp (.add sx .x 6) = some (sx, .mem .add .x 6) ∧ SergeReady sgSt sx (.mem .add .x 6) ∧ regCheck (coreGet sgSt .a) false (.mem .add .x 6) = none ∧
    busRead sgSt .a (eaOf (coreGet sgSt .a) [] .x 6) = .ok {} sgSt := by
  refine ⟨rfl, by (repeat' apply And.intro) <;> decide +kernel, by decide, rfl⟩
def hbmSt : State := (sgAcc (handleW 9)).onCore fun k => { k with a := { k.a with x := daddrW 0x403, y := daddrW 0xC000, ram := [(0x403, caddrW 5), (0x404, { tag := 9 })] } }
theorem witness_hbmStore : SergeReady hbmSt sx (.mem .st .y 1) ∧ regCheck (coreGet hbmSt .a) false (.mem .st .y 1) = none ∧ eaOf (coreGet hbmSt .a) [] .y 1 = 0xC001 ∧
    SergeReady hbmSt sx (.xmov 0) ∧ regCheck (coreGet hbmSt .a) false (.xmov 0) = none ∧ (ramGet hbmSt .a 0x404).tag = 9 := by
  (repeat' apply And.intro) <;> decide +kernel
theorem test_hbmStore : after (exec (.st sx .y 1) hbmSt) (fun t => (coreGet t .a).pc == 0x808 && ramGet t .a 0x7FEC == daddrW 0xC001) ∧
    after (exec (.xmov sx 0) hbmSt) (fun t => (coreGet t .a).pc == 0x808 && ramGet t .a 0x7FEC == daddrW 0xC000 && (coreGet t .a).x == daddrW 0x403) ∧
    after (exec (.ld sx .x 1) hbmSt) (fun t => (coreGet t .a).pc == 0x808 && ramGet t .a 0x7FEC == daddrW 0x404) := by decide +kernel

/-! JumpsOutsideProgramMemoryTrap -/

def farSt : State := sgSt.onCore fun k => { k with a := { k.a with ram := [(0x400, caddrW 0x3FFF), (0x401, { tag := 4, val := 0x4000 })] } }
theorem witness_jumpOut : SergeReady farSt sx (.mem .call .direct 1) ∧ Operand farSt sx .direct 1 { tag := 4, val := 0x4000 } farSt ∧ SergeReady farSt sx (.mem .jmp .imm 1) := by
  refine ⟨by (repeat' apply And.intro) <;> decide +kernel, ⟨by decide, fun _ => ⟨rfl, by decide, rfl⟩, by decide, by decide⟩, by (repeat' apply And.intro) <;> decide +kernel⟩
theorem test_jumpOut : after (exec (.call sx .direct 1) farSt) (fun t => (coreGet t .a).pc == 0x81C && (coreGet t .a).lr == caddrW 0x1100 && ramGet t .a 0x7FEC == intW 0x24000) ∧
    after (exec (.jmp { core := .a, exts := [0x1F0, 0] } .imm 0) sgSt) (fun t => (coreGet t .a).pc == 0x81C) := by decide +kernel

/-! DeviceTimeIsLatched -/

theorem test_latch : after (exec .devTimeLowRead (hostSt.onTime fun t => { t with mUs := 0x500000007 })) (fun t => t.hq.timeLatch == 5 && t.hq.readData == 7) := by decide

/-! SerialsReadBack -/

theorem witness_serial : serialOf 1 0x35A 0x2A710153 = 0x135A002A710153 ∧ serialHome 0x135A002A710153 = 0x35A ∧ serialLocal 0x135A002A710153 = 0x2A710153 := by decide

/-! WordsAreNotForged -/

theorem witness_held : sergeOp (.xa sx) = some (sx, .group .xa) ∧ Holds sgSt .a (caddrW 0x1100) ∧ after (exec (.lra sx) sgSt) (fun t => (coreGet t .a).acc == caddrW 0x1100) = true := by
  refine ⟨rfl, .inr (.inr (.inr (.inl rfl))), by decide +kernel⟩

/-! OperandTagsFollowTheTable -/

theorem witness_tagTable : SergeReady sgSt sx (.mem .and .x 2) ∧ ((coreGet sgSt .a).acc.tag, tBits, tInt) ∈ tagTable .and ∧ coreOn sgSt .a = true ∧
    Operand sgSt sx .x 2 (bitsW 7) sgSt := by
  refine ⟨by (repeat' apply And.intro) <;> decide +kernel, by decide, by decide, ⟨by decide, fun _ => ⟨rfl, by decide, rfl⟩, by decide, by decide⟩⟩
theorem witness_tagOther : SergeReady sgSt sx (.mem .add .x 2) ∧ (∀ r ∈ [tInt, tDaddr], (tInt, tBits, r) ∉ tagTable .add) ∧ (tInt, tInt, tInt) ∈ tagTable .add := by
  refine ⟨by (repeat' apply And.intro) <;> decide +kernel, by decide, by decide⟩

end Sys2Proof.Tests
end

section
/-! SUPPORT. What no operation leaves undone to the variant, the unit table and the fuses: the relation between the state before and the state
after, and how branches, folds, outcomes and named updates keep it. -/

namespace Sys2Proof.Machine

-- One theorem at a time: the check's memory limit leaves no room for a thread for each.
set_option Elab.async false

/-- What no operation of the model undoes: the variant (00 R1), the form of the unit table with its ABSENT units (00 R3), and the fuses of a
retired device (10 R571, R574). -/
structure Stays (s t : State) : Prop where
  variant : t.pow.variant = s.pow.variant
  form : twf {} s.unit.tbl = true → twf {} t.unit.tbl = true
  absent : twf {} s.unit.tbl = true → ∀ u, unitSt s u = .absent → unitSt t u = .absent
  retired : s.key.fuse = 3 → t.key.fuse = 3
  rootKill : s.key.rootKill = true → t.key.rootKill = true

/-- Every state that an outcome holds stays as `Stays` says; one definition for each type of outcome. -/
def StaysNext (s : State) (r : Result) : Prop := ∀ t, r = .next t → Stays s t
def StaysSome (s : State) (o : Option State) : Prop := ∀ t, o = some t → Stays s t
def StaysPlace {α : Type} (s : State) (o : Option (State × α)) : Prop := ∀ t x, o = some (t, x) → Stays s t
def StaysOk {ε : Type} (s : State) (x : Except ε State) : Prop := ∀ t, x = .ok t → Stays s t
def StaysBody {ε : Type} (s : State) (x : Except ε (State × Bytes)) : Prop := ∀ t b, x = .ok (t, b) → Stays s t
def StaysBus (s : State) (b : Bus) : Prop := ∀ w t, b = .ok w t → Stays s t
def StaysIter (s : State) (i : Iter) : Prop := ∀ t j, i = .ok t j → Stays s t

/-- A read and a write of a window register stay as `Stays` says. -/
structure StaysReg (r : Reg) : Prop where
  rd : ∀ {s t : State} {c : CoreId}, Stays s t → Stays s (r.rd t c).2
  wr : ∀ {s t : State} {c : CoreId} {w : W36}, Stays s t → Stays s (r.wr t c w)
def StaysWin (o : Option Reg) : Prop := ∀ r, o = some r → StaysReg r

variable {s t u : State}

theorem Stays.refl (s : State) : Stays s s := ⟨rfl, id, fun _ _ => id, id, id⟩

theorem Stays.trans (h : Stays s t) (k : Stays t u) : Stays s u where
  variant := k.variant.trans h.variant
  form hs := k.form (h.form hs)
  absent hs v hv := k.absent (h.form hs) v (h.absent hs v hv)
  retired hs := k.retired (h.retired hs)
  rootKill hs := k.rootKill (h.rootKill hs)

/-- A change of anything but the variant, the unit table and the fuses. -/
theorem Stays.of_eq (h : Stays s t) (hv : u.pow.variant = t.pow.variant := by rfl) (ht : u.unit.tbl = t.unit.tbl := by rfl)
    (hf : u.key.fuse = t.key.fuse := by rfl) (hr : u.key.rootKill = t.key.rootKill := by rfl) : Stays s u :=
  h.trans ⟨hv, fun hs => ht ▸ hs, fun _ v hu => by rw [unitSt, unitEnt, ht]; exact hu, fun e => hf.trans e, fun e => hr.trans e⟩

/-- A change of parts that hold neither the variant nor the unit table nor the fuses. -/
theorem Stays.of_keeps {l : List Part} (h : Stays s t) (hk : Keeps l t u) (hl : ∀ p ∈ [Part.unit, .key, .pow], p ∉ l := by decide) : Stays s u := by
  have hunit : u.unit = t.unit := hk .unit (hl _ (by decide))
  have hkey : u.key = t.key := hk .key (hl _ (by decide))
  have hpow : u.pow = t.pow := hk .pow (hl _ (by decide))
  exact h.of_eq (by rw [hpow]) (by rw [hunit]) (by rw [hkey]) (by rw [hkey])

/-! ### Branches, folds and outcomes -/

theorem Stays.ite {c : Prop} [Decidable c] (ht : Stays s t) (hu : Stays s u) : Stays s (if c then t else u) := by
  split
  · exact ht
  · exact hu

theorem Stays.when {b : Bool} {f : State → State} (h : Stays s t) (hf : ∀ {u}, Stays s u → Stays s (f u)) : Stays s (t.when b f) := by
  cases b
  · exact h
  · exact hf h

theorem Stays.foldl {α : Type} {f : State → α → State} {l : List α} (h : Stays s t) (hf : ∀ {u} x, Stays s u → Stays s (f u x)) :
    Stays s (l.foldl f t) := by
  induction l generalizing t with
  | nil => exact h
  | cons x l ih => exact ih (hf x h)

theorem Stays.foldlFst {α β : Type} {f : State × β → α → State × β} {l : List α} {p : State × β} (h : Stays s p.1)
    (hf : ∀ {q} x, Stays s q.1 → Stays s (f q x).1) : Stays s (l.foldl f p).1 := by
  induction l generalizing p with
  | nil => exact h
  | cons x l ih => exact ih (hf x h)

theorem StaysNext.done (h : Stays s t) : StaysNext s (done t) := by rintro _ ⟨⟩; exact h

theorem StaysNext.get {r : Result} (h : StaysNext s r) (e : r = .next t) : Stays s t := h t e
theorem StaysSome.get {o : Option State} (h : StaysSome s o) (e : o = some t) : Stays s t := h t e
theorem StaysPlace.get {α : Type} {o : Option (State × α)} {x : α} (h : StaysPlace s o) (e : o = some (t, x)) : Stays s t := h t x e
theorem StaysOk.get {ε : Type} {x : Except ε State} (h : StaysOk s x) (e : x = .ok t) : Stays s t := h t e
theorem StaysBody.get {ε : Type} {x : Except ε (State × Bytes)} {b : Bytes} (h : StaysBody s x) (e : x = .ok (t, b)) : Stays s t := h t b e
theorem StaysBus.get {b : Bus} {w : W36} (h : StaysBus s b) (e : b = .ok w t) : Stays s t := h w t e
theorem StaysIter.get {i : Iter} {j : Option Nat} (h : StaysIter s i) (e : i = .ok t j) : Stays s t := h t j e
theorem StaysWin.get {o : Option Reg} {r : Reg} (h : StaysWin o) (e : o = some r) : StaysReg r := h r e

theorem StaysSome.none : StaysSome s none := by rintro _ ⟨⟩
theorem StaysSome.some (h : Stays s t) : StaysSome s (some t) := by rintro _ ⟨⟩; exact h
theorem StaysSome.ite {c : Prop} [Decidable c] {x y : Option State} (hx : StaysSome s x) (hy : StaysSome s y) : StaysSome s (if c then x else y) := by
  split
  · exact hx
  · exact hy
theorem StaysSome.map {α : Type} {o : Option α} {f : α → State} (hf : ∀ x, o = Option.some x → Stays s (f x)) : StaysSome s (o.map f) := by
  cases o with
  | none => exact .none
  | some x => exact .some (hf x rfl)
theorem Stays.getD {o : Option State} (ho : StaysSome s o) (h : Stays s t) : Stays s (o.getD t) := by
  cases o with
  | none => exact h
  | some u => exact ho u rfl

theorem StaysPlace.none {α : Type} : StaysPlace (α := α) s none := by rintro _ _ ⟨⟩
theorem StaysPlace.some {α : Type} {x : α} (h : Stays s t) : StaysPlace s (some (t, x)) := by rintro _ _ ⟨⟩; exact h

theorem StaysOk.error {ε : Type} {e : ε} : StaysOk s (.error e) := by rintro _ ⟨⟩
theorem StaysOk.ok {ε : Type} (h : Stays s t) : StaysOk (ε := ε) s (.ok t) := by rintro _ ⟨⟩; exact h
theorem StaysOk.ite {ε : Type} {c : Prop} [Decidable c] {x y : Except ε State} (hx : StaysOk s x) (hy : StaysOk s y) :
    StaysOk s (if c then x else y) := by
  split
  · exact hx
  · exact hy

theorem StaysBody.error {ε : Type} {e : ε} : StaysBody s (.error e) := by rintro _ _ ⟨⟩
theorem StaysBody.ok {ε : Type} {b : Bytes} (h : Stays s t) : StaysBody (ε := ε) s (.ok (t, b)) := by rintro _ _ ⟨⟩; exact h
theorem StaysBody.ite {ε : Type} {c : Prop} [Decidable c] {x y : Except ε (State × Bytes)} (hx : StaysBody s x) (hy : StaysBody s y) :
    StaysBody s (if c then x else y) := by
  split
  · exact hx
  · exact hy

theorem StaysBus.bad {i : TrapInfo} {b : Bool} : StaysBus s (.bad i b) := by rintro _ _ ⟨⟩
theorem StaysBus.ok {w : W36} (h : Stays s t) : StaysBus s (.ok w t) := by rintro _ _ ⟨⟩; exact h
theorem StaysBus.ite {c : Prop} [Decidable c] {x y : Bus} (hx : StaysBus s x) (hy : StaysBus s y) : StaysBus s (if c then x else y) := by
  split
  · exact hx
  · exact hy

theorem StaysIter.bad {i : TrapInfo} {b : Bool} : StaysIter s (.bad i b) := by rintro _ _ ⟨⟩
theorem StaysIter.ok {j : Option Nat} (h : Stays s t) : StaysIter s (.ok t j) := by rintro _ _ ⟨⟩; exact h
theorem StaysIter.ite {c : Prop} [Decidable c] {x y : Iter} (hx : StaysIter s x) (hy : StaysIter s y) : StaysIter s (if c then x else y) := by
  split
  · exact hx
  · exact hy

theorem StaysWin.none : StaysWin none := by rintro _ ⟨⟩
theorem StaysWin.some {r : Reg} (h : StaysReg r) : StaysWin (some r) := by rintro _ ⟨⟩; exact h
theorem StaysWin.ite {c : Prop} [Decidable c] {x y : Option Reg} (hx : StaysWin x) (hy : StaysWin y) : StaysWin (if c then x else y) := by
  split
  · exact hx
  · exact hy

/-! ### The named updates -/

theorem Stays.onHq {f : HqSt → HqSt} (h : Stays s t) : Stays s (t.onHq f) := h.of_keeps (keeps_onHq t f)
theorem Stays.onLane {f : LaneBank → LaneBank} (h : Stays s t) : Stays s (t.onLane f) := h.of_keeps (keeps_onLane t f)
theorem Stays.onHbm {f : HbmSt → HbmSt} (h : Stays s t) : Stays s (t.onHbm f) := h.of_keeps (keeps_onHbm t f)
theorem Stays.onLed {f : LedgerSt → LedgerSt} (h : Stays s t) : Stays s (t.onLed f) := h.of_keeps (keeps_onLed t f)
theorem Stays.onDrives {f : Tbl Drive → Tbl Drive} (h : Stays s t) : Stays s (t.onDrives f) := h.of_keeps (keeps_onDrives t f)
theorem Stays.onFab {f : FabSt → FabSt} (h : Stays s t) : Stays s (t.onFab f) := h.of_keeps (keeps_onFab t f)
theorem Stays.onDig {f : DigSt → DigSt} (h : Stays s t) : Stays s (t.onDig f) := h.of_keeps (keeps_onDig t f)
theorem Stays.onRng {f : RngSt → RngSt} (h : Stays s t) : Stays s (t.onRng f) := h.of_keeps (keeps_onRng t f)
theorem Stays.onStore {f : RecSt → RecSt} (h : Stays s t) : Stays s (t.onStore f) := h.of_keeps (keeps_onStore t f)
theorem Stays.onTime {f : TimeSt → TimeSt} (h : Stays s t) : Stays s (t.onTime f) := h.of_keeps (keeps_onTime t f)
theorem Stays.onCore {f : Cores → Cores} (h : Stays s t) : Stays s (t.onCore f) := h.of_keeps (keeps_onCore t f)
theorem Stays.onTmp {f : TamperSt → TamperSt} (h : Stays s t) : Stays s (t.onTmp f) := h.of_keeps (keeps_onTmp t f)
theorem Stays.onMgt {f : MgtSt → MgtSt} (h : Stays s t) : Stays s (t.onMgt f) := h.of_keeps (keeps_onMgt t f)
theorem Stays.onPar {f : Params → Params} (h : Stays s t) : Stays s (t.onPar f) := h.of_keeps (keeps_onPar t f)
theorem Stays.onTele {f : TeleSt → TeleSt} (h : Stays s t) : Stays s (t.onTele f) := h.of_keeps (keeps_onTele t f)
theorem Stays.onOut {f : OutSt → OutSt} (h : Stays s t) : Stays s (t.onOut f) := h.of_keeps (keeps_onOut t f)

theorem Stays.onPow {f : PowerSt → PowerSt} (h : Stays s t) (hf : (f t.pow).variant = t.pow.variant := by with_reducible rfl) : Stays s (t.onPow f) :=
  h.of_eq hf
theorem Stays.onKey {f : KeySt → KeySt} (h : Stays s t)
    (hf : (f t.key).fuse = t.key.fuse ∧ (f t.key).rootKill = t.key.rootKill := by with_reducible exact ⟨rfl, rfl⟩) : Stays s (t.onKey f) :=
  h.of_eq rfl rfl hf.1 hf.2
/-- A change of the fuses that leaves RETIRED and a blown root-kill fuse as they are. -/
theorem Stays.onFuse {f : KeySt → KeySt} (h : Stays s t) (hf : t.key.fuse = 3 → (f t.key).fuse = 3)
    (hr : t.key.rootKill = true → (f t.key).rootKill = true) : Stays s (t.onKey f) :=
  h.trans ⟨rfl, id, fun _ _ => id, hf, hr⟩
theorem Stays.onUnit {f : UnitSt → UnitSt} (h : Stays s t) (hf : (f t.unit).tbl = t.unit.tbl := by with_reducible rfl) : Stays s (t.onUnit f) :=
  h.of_eq rfl hf
/-- A change of one entry of the unit table that leaves an ABSENT unit's entry as it is. -/
theorem Stays.onEntry {f : UnitSt → UnitSt} {v : Nat} {g : UnitEnt → UnitEnt} (h : Stays s t)
    (hf : (f t.unit).tbl = tupd {} t.unit.tbl v g := by with_reducible rfl) (hg : ∀ e, e.st = .absent → g e = e := by exact fun _ he => if_pos he) :
    Stays s (t.onUnit f) := by
  refine h.trans ⟨rfl, fun w => ?_, fun w x hx => ?_, id, id⟩
  · show twf {} (f t.unit).tbl = true
    rw [hf]; exact twf_tupd w
  · show (tget {} (f t.unit).tbl x).st = .absent
    have hx : (tget {} t.unit.tbl x).st = .absent := hx
    rw [hf]
    by_cases e : x = v
    · subst e; rw [tget_tupd w, hg _ hx]; exact hx
    · rw [tget_tupd_ne e]; exact hx

theorem Stays.withDrives {d : Tbl Drive} (h : Stays s t) : Stays s { t with drives := d } := h.of_eq
theorem Stays.withPar {p : Params} (h : Stays s t) : Stays s { t with par := p } := h.of_eq
theorem Stays.withPending {q : List Instr} (h : Stays s t) : Stays s { t with pending := q } := h.of_eq

end Sys2Proof.Machine
end

section
/-! SUPPORT. What no operation undoes, for each operation of the shared operations, the words of a core, the NOR array and the record store. -/

namespace Sys2Proof.Machine

-- One theorem at a time: the check's memory limit leaves no room for a thread for each.
set_option Elab.async false

variable {s t : State}

/-! ### Shared operations -/

theorem Stays.coreUpd {c : CoreId} {f : Core → Core} (h : Stays s t) : Stays s (coreUpd t c f) := by
  unfold Machine.coreUpd
  split <;> exact .onCore h

theorem Stays.setUnit {v : Nat} {st : UState} {reason : Byte} (h : Stays s t) : Stays s (setUnit t v st reason) := by
  unfold Machine.setUnit
  exact .onEntry h (hg := by exact fun _ he => if_pos (.inl he))

theorem Stays.ring {b : Bell} (h : Stays s t) : Stays s (ring t b) :=
  .onUnit h

theorem Stays.irq {c : CoreId} {n : Nat} (h : Stays s t) : Stays s (irq t c n) :=
  .onUnit h

theorem Stays.irqMain {n : Nat} (h : Stays s t) : Stays s (irqMain t n) :=
  .irq (.irq h)

theorem Stays.irqAll {n : Nat} (h : Stays s t) : Stays s (irqAll t n) :=
  .irq (.irqMain h)

theorem Stays.mgtAlert {bit : Nat} (h : Stays s t) : Stays s (mgtAlert t bit) :=
  .onMgt h

theorem Stays.dbAlert (h : Stays s t) : Stays s (dbAlert t) :=
  .mgtAlert (.ring h)

theorem Stays.post {p : Post} (h : Stays s t) : Stays s (post t p) := by
  unfold Machine.post
  extract_lets _ s1
  have h1 : Stays s s1 := .when h fun h => .onEntry h
  exact .ite (.onUnit h1) (.ite (.irqMain (.ring (.onUnit h1))) (.irqMain (.ring (.onUnit h1))))

theorem Stays.observe {unit : Nat} {st : UState} {source : BitVec 2} {reason : Byte} (h : Stays s t) : Stays s (observe t unit st source reason) :=
  .post h

theorem Stays.signal {v : Nat} (h : Stays s t) : Stays s (signal t v) :=
  .ite (.onHq h) (.onOut h)

theorem Stays.cause {n : Nat} (h : Stays s t) : Stays s (cause t n) :=
  .when (.onHq h) .signal

theorem Stays.count {off : Nat} {n : Nat} (h : Stays s t) : Stays s (count t off n) :=
  .onTele h

theorem Stays.gauge {off : Nat} {v : BitVec 64} (h : Stays s t) : Stays s (gauge t off v) :=
  .onTele h

theorem Stays.mirrorTime (h : Stays s t) : Stays s (mirrorTime t) :=
  .onTime h

theorem Stays.drew {n : Nat} (h : Stays s t) : Stays s (drew t n) :=
  .onRng h

theorem Stays.pausePlane (h : Stays s t) : Stays s (pausePlane t) :=
  .cause (.onHq h)

theorem Stays.closePlane (h : Stays s t) : Stays s (closePlane t) :=
  .cause (.onPow (.onHq h))

theorem Stays.openPlane (h : Stays s t) : Stays s (openPlane t) :=
  .cause (.onPow (.onLed (.onHq h)))

theorem Stays.onSq {n : Nat} {f : SqRing → SqRing} (h : Stays s t) : Stays s (onSq t n f) :=
  .onHq h

theorem Stays.onCq {n : Nat} {f : CqRing → CqRing} (h : Stays s t) : Stays s (onCq t n f) :=
  .onHq h

theorem Stays.moderate {n : Nat} (h : Stays s t) : Stays s (moderate t n) :=
  .when h fun h => .signal (.onCq h)

theorem Stays.countComp {kind : BitVec 2} {c : Comp} {us : Nat} (h : Stays s t) : Stays s (countComp t kind c us) :=
  .ite (.count h) (.ite (.count (.when (.count h) .count)) (.count h))

theorem Stays.complete {sq : Nat} {dropped : Bool} {fetched : Nat} {c : Comp} {outs : List HostWrite} (h : Stays s t) :
    Stays s (complete t sq dropped fetched c outs) :=
  .ite (.when (.onOut h) .cause) (.ite (.moderate (.countComp (.when (.onCq (.onOut (.onCq (.onSq (.when (.onOut h) .cause))))) .onCq))) (.onCq (.onSq
      (.when (.onOut h) .cause))))

/-! ### Words and strings in data RAM -/

theorem Stays.ramPut {c : CoreId} {a : Nat} {w : W36} (h : Stays s t) : Stays s (ramPut t c a w) :=
  .ite (.coreUpd h) h

theorem Stays.ramPuts {c : CoreId} {a : Nat} {ws : List W36} (h : Stays s t) : Stays s (ramPuts t c a ws) := by
  induction ws generalizing t a with
  | nil => exact h
  | cons w ws ih => exact ih (.ramPut h)

theorem Stays.writeStr {c : CoreId} {a : Nat} {b : Bytes} (h : Stays s t) : Stays s (writeStr t c a b) :=
  .ramPuts h

/-! ### The NOR array -/

theorem Stays.progPage {n : Nat} {b : Bytes} (h : Stays s t) : Stays s (progPage t n b) :=
  .ite h (.onStore h)

theorem Stays.progPages {r : Record} {n : Nat} (h : Stays s t) : Stays s (progPages t r n) :=
  .foldl h fun _ h => .progPage h

theorem Stays.progMark {r : Record} {w : BitVec 32} (h : Stays s t) : Stays s (progMark t r w) :=
  .progPage h

theorem Stays.writeRec {r : Record} {w : BitVec 32} (h : Stays s t) : Stays s (writeRec t r w) :=
  .onStore (.progMark (.progPages h))

theorem Stays.killRecs {p : Record → Bool} (h : Stays s t) : Stays s (killRecs t p) :=
  .foldl (.onStore h) fun _ h => .progMark h

/-! ### The record store -/

theorem Stays.useSector {part : BitVec 2} {n : Nat} (h : Stays s t) : Stays s (useSector t part n) := by
  unfold Machine.useSector
  exact .onStore (.progPage h)

theorem StaysSome.openSector {part : BitVec 2} (h : Stays s t) : StaysSome s (openSector t part) :=
  .map fun _ _ => .onStore (.useSector h)

theorem StaysPlace.placeIn {part : BitVec 2} {pages : Nat} (h : Stays s t) : StaysPlace s (placeIn t part pages) := by
  unfold Machine.placeIn
  extract_lets here
  clear_value here
  split
  · exact .some (.onStore h)
  · split
    · exact .none
    next e =>
      split
      · exact .some (.onStore ((StaysSome.openSector h).get e))
      · exact .none

theorem Stays.closeSector {n : Nat} (h : Stays s t) : Stays s (closeSector t n) :=
  .onStore h

theorem StaysSome.copyForward {rs : List Record} (h : Stays s t) : StaysSome s (copyForward t rs) := by
  induction rs generalizing t with
  | nil => exact .some h
  | cons r rs ih =>
    unfold Machine.copyForward
    split
    next _ _ _ e => exact ih (.writeRec ((StaysPlace.placeIn h).get e))
    · exact .none

theorem Stays.releaseSector {n : Nat} (h : Stays s t) : Stays s (releaseSector t n) := by
  unfold Machine.releaseSector
  split
  next u1 e1 =>
    exact .onStore (.progPage ((StaysSome.copyForward (.closeSector h)).get e1))
  · exact h

theorem Stays.eraseSector {sector : Nat} (h : Stays s t) : Stays s (eraseSector t sector) :=
  .when (.onStore (.onStore h)) .mgtAlert

theorem Stays.evacuate {n : Nat} (h : Stays s t) : Stays s (evacuate t n) := by
  unfold Machine.evacuate
  split
  next u1 e1 =>
    exact .eraseSector ((StaysSome.copyForward (.closeSector h)).get e1)
  · exact h

theorem Stays.compact {part : BitVec 2} (h : Stays s t) : Stays s (compact t part) := by
  unfold Machine.compact
  refine .ite ?_ h
  split
  · exact .releaseSector h
  · exact h

theorem Stays.txnDone {part : BitVec 2} {txn : Nat} (h : Stays s t) : Stays s (txnDone t part txn) := by
  unfold Machine.txnDone
  extract_lets s1
  have h1 : Stays s s1 := .onStore h
  split
  next u2 _ e2 =>
    exact .writeRec ((StaysPlace.placeIn h1).get e2)
  · exact h1

theorem Stays.applyRecord {r : Record} (h : Stays s t) : Stays s (applyRecord t r) := by
  unfold Machine.applyRecord
  split
  · exact .onFuse h (fun e => (if_neg (by rw [e]; decide)).trans e) id
  · exact .onKey h
  · exact .onKey h
  · exact .onKey h
  · exact h

theorem Stays.afterCommit {r : Record} {key : Nat} (h : Stays s t) : Stays s (afterCommit t r key) := by
  unfold Machine.afterCommit
  extract_lets s1 _
  have h1 : Stays s s1 := .when h .mgtAlert
  refine .ite (.applyRecord h1) ?_
  split
  · exact .ite (.ite (.foldl (.txnDone (.onStore h1)) fun _ h => .applyRecord h) (.onStore h1)) h1
  · exact h1

theorem StaysSome.commitRec {src : AppendSrc} {r : Record} (h : Stays s t) : StaysSome s (commitRec t src r) := by
  unfold Machine.commitRec
  extract_lets _
  split
  · exact .none
  next u2 _ e2 =>
    exact .some (.compact (.afterCommit (.onStore (.writeRec ((StaysPlace.placeIn h).get e2)))))

theorem StaysSome.writeDead {r : Record} (h : Stays s t) : StaysSome s (writeDead t r) :=
  .map fun _ e => .writeRec ((StaysPlace.placeIn h).get e)

theorem Stays.storeFault (h : Stays s t) : Stays s (storeFault t) :=
  .observe h

theorem Stays.beginHead (h : Stays s t) : Stays s (beginHead t) :=
  .when h .onStore

theorem Stays.enqueue {a : Append} (h : Stays s t) : Stays s (enqueue t a) :=
  .beginHead (.onStore h)

theorem Stays.appendRecord {src : AppendSrc} {r : Record} (h : Stays s t) : Stays s (appendRecord t src r) := by
  unfold Machine.appendRecord
  refine .ite ?_ (.enqueue h)
  split
  next u1 e1 =>
    exact (StaysSome.commitRec h).get e1
  · exact .ite (.enqueue (.compact h)) (.storeFault h)

theorem Stays.append {src : AppendSrc} {part : BitVec 2} {typ : BitVec 16} {id : Nat} {payload : Bytes} (h : Stays s t) :
    Stays s (append t src part typ id payload) :=
  .appendRecord h

theorem Stays.openTx {src : AppendSrc} {part : BitVec 2} {parts : Nat} (h : Stays s t) : Stays s (openTx t src part parts) := by
  unfold Machine.openTx
  exact .onStore h

theorem Stays.hotPut {slot : Nat} {v : BitVec 64} (h : Stays s t) : Stays s (hotPut t slot v) :=
  .onStore h

theorem Stays.startSave (h : Stays s t) : Stays s (startSave t) :=
  .when h fun h => .onStore (.hotPut (.hotPut h))

theorem Stays.finishSave (h : Stays s t) : Stays s (finishSave t) :=
  .when h fun h => .ite h (.onStore (.writeRec (.when h .useSector)))

end Sys2Proof.Machine
end

section
/-! SUPPORT. What no operation undoes, for each operation of the host queue engine, the keys and the fabric. -/

namespace Sys2Proof.Machine

-- One theorem at a time: the check's memory limit leaves no room for a thread for each.
set_option Elab.async false

variable {s t : State}

/-! ### The host queue engine -/

theorem Stays.ringError (h : Stays s t) : Stays s (ringError t) :=
  .irqMain (.cause h)

theorem Stays.doorbellErr {was : RingState} (h : Stays s t) : Stays s (doorbellErr t was) :=
  .ite h (.ringError h)

theorem Stays.takeIndex {n : Nat} (h : Stays s t) : Stays s (takeIndex t n) :=
  .onCq (.onHq (.onSq h))

theorem Stays.ungate {l : Nat} (h : Stays s t) : Stays s (ungate t l) :=
  .when (.onLane h) fun h => .irqAll (.onPow h)

theorem Stays.callHook {c : CoreId} {addr : Nat} {ie : Bool} {y : Option W36} (h : Stays s t) : Stays s (callHook t c addr ie y) :=
  .when h fun h => .onCore (.coreUpd h)

theorem Stays.hookInit {c : CoreId} (h : Stays s t) : Stays s (hookInit t c) :=
  .when h fun h => .callHook (.coreUpd h)

theorem Stays.hookPeriodic {c : CoreId} (h : Stays s t) : Stays s (hookPeriodic t c) :=
  .when h fun h => .callHook (.coreUpd h)

theorem Stays.hookPost {p : Post} (h : Stays s t) : Stays s (hookPost t p) :=
  .callHook h

theorem Stays.hookAfter {op : Nat} {st : Status} (h : Stays s t) : Stays s (hookAfter t op st) :=
  .callHook h

theorem Stays.fetchCtl {entry : Bytes} (h : Stays s t) : Stays s (fetchCtl t entry) :=
  .when h fun h => .onHq (.takeIndex (.hookInit h))

theorem Stays.dispatchEntry {n : Nat} {x2 : HeldEntry} {lane : Nat} {ctx : Nat} (h : Stays s t) : Stays s (dispatchEntry t n x2 lane ctx) := by
  unfold Machine.dispatchEntry
  exact .onLane (.ungate h)

theorem Stays.fetchEntry {n : Nat} {entry : Bytes} {lane : Nat} {ctx : Nat} (h : Stays s t) : Stays s (fetchEntry t n entry lane ctx) := by
  unfold Machine.fetchEntry
  extract_lets _ _ _ s1 _
  have h1 : Stays s s1 := .takeIndex h
  split
  · exact .ite (.dispatchEntry (.onSq h)) h
  · exact .ite h (.ite (.onSq h1) (.ite (.dispatchEntry h1) h))

theorem StaysNext.execEntryFetch {sq : Nat} {entry : Bytes} {lane : Nat} {ctx : Nat} (h : Stays s t) :
    StaysNext s (execEntryFetch sq entry lane ctx t) :=
  .done (.ite (.fetchCtl h) (.fetchEntry h))

theorem StaysNext.execEntryReadFail {sq : Nat} (h : Stays s t) : StaysNext s (execEntryReadFail sq t) :=
  .done (.when h fun h => .ringError (.onSq (.complete (.takeIndex h))))

theorem StaysNext.execCompletionWriteFail {cq : Nat} (h : Stays s t) : StaysNext s (execCompletionWriteFail cq t) :=
  .done (.when h fun h => .ringError (.onCq h))

theorem Stays.sqEnable {n : Nat} {cfg : BitVec 32} (h : Stays s t) : Stays s (sqEnable n cfg t) :=
  .when h .onSq

theorem StaysNext.execSqEnable {n : Nat} {cfg : BitVec 32} (h : Stays s t) : StaysNext s (execSqEnable n cfg t) :=
  .done (.when h .sqEnable)

theorem Stays.sqDisable {n : Nat} (h : Stays s t) : Stays s (sqDisable n t) :=
  .when h .onSq

theorem StaysNext.execSqDisable {n : Nat} (h : Stays s t) : StaysNext s (execSqDisable n t) :=
  .done (.when h .sqDisable)

theorem StaysNext.execSqDrainDone {n : Nat} (h : Stays s t) : StaysNext s (execSqDrainDone n t) :=
  .done (.when h .onSq)

theorem Stays.cqEnable {n : Nat} {cfg : BitVec 32} (h : Stays s t) : Stays s (cqEnable n cfg t) :=
  .when h .onCq

theorem StaysNext.execCqEnable {n : Nat} {cfg : BitVec 32} (h : Stays s t) : StaysNext s (execCqEnable n cfg t) :=
  .done (.when h .cqEnable)

theorem Stays.cqDisable {n : Nat} (h : Stays s t) : Stays s (cqDisable n t) :=
  .when h fun h => .ite (.onCq h) (.onCq h)

theorem StaysNext.execCqDisable {n : Nat} (h : Stays s t) : StaysNext s (execCqDisable n t) :=
  .done (.when h .cqDisable)

theorem Stays.sqTail {n : Nat} {value : BitVec 32} (h : Stays s t) : Stays s (sqTail n value t) :=
  .when h fun h => .ite (.onSq h) (.doorbellErr (.onSq h))

theorem StaysNext.execSqTailDoorbell {n : Nat} {value : BitVec 32} (h : Stays s t) : StaysNext s (execSqTailDoorbell n value t) :=
  .done (.when h .sqTail)

theorem Stays.cqHead {n : Nat} {value : BitVec 32} (h : Stays s t) : Stays s (cqHead n value t) :=
  .when h fun h => .ite (.onCq h) (.doorbellErr (.onCq h))

theorem StaysNext.execCqHeadDoorbell {n : Nat} {value : BitVec 32} (h : Stays s t) : StaysNext s (execCqHeadDoorbell n value t) :=
  .done (.when h .cqHead)

theorem Stays.devAlert {value : BitVec 32} (h : Stays s t) : Stays s (devAlert value t) :=
  .when (.onHq h) .signal

theorem StaysNext.execDevAlertWrite {value : BitVec 32} (h : Stays s t) : StaysNext s (execDevAlertWrite value t) :=
  .done (.when h .devAlert)

theorem Stays.devTimeLow (h : Stays s t) : Stays s (devTimeLow t) :=
  .onHq h

theorem StaysNext.execDevTimeLowRead (h : Stays s t) : StaysNext s (execDevTimeLowRead t) :=
  .done (.when h .devTimeLow)

theorem Stays.unmaskVec {v : Nat} (h : Stays s t) : Stays s (unmaskVec t v) :=
  .when (.onHq h) .signal

theorem StaysNext.execMsixUnmask {v : BitVec 6} (h : Stays s t) : StaysNext s (execMsixUnmask v t) :=
  .done (.when h .unmaskVec)

theorem StaysNext.execIrqModerationTick (h : Stays s t) : StaysNext s (execIrqModerationTick t) :=
  .done (.foldl (.onTime h) fun _ h => .moderate h)

theorem StaysNext.execTelemetryRefresh {mainTemp : Nat} {gateTemp : Nat} (h : Stays s t) : StaysNext s (execTelemetryRefresh mainTemp gateTemp t) :=
  .done (.when h fun h => .when (.onTele (.foldl (.foldl (.gauge (.gauge (.gauge h))) fun _ h => .gauge h) fun _ h => .gauge h)) fun h => .onTele
      (.foldl h fun _ h => .ite (.hotPut h) h))

theorem StaysNext.execGatehouseTelemetryRefresh (h : Stays s t) : StaysNext s (execGatehouseTelemetryRefresh t) :=
  .done (.when h .onMgt)

theorem Stays.resetFunction (h : Stays s t) : Stays s (resetFunction t) := by
  unfold Machine.resetFunction
  exact .onLane (.onHq h)

theorem StaysNext.execFunctionLevelReset (h : Stays s t) : StaysNext s (execFunctionLevelReset t) :=
  .done (.irqMain (.resetFunction h))

/-! ### Keys -/

theorem Stays.loadHolder (h : Stays s t) : Stays s (loadHolder t) :=
  .onKey h

theorem Stays.purgeKeys {p : KeyRef → Bool} (h : Stays s t) : Stays s (purgeKeys t p) :=
  .onLane h

theorem Stays.applyChange {c : KeyChange} (h : Stays s t) : Stays s (applyChange t c) := by
  unfold Machine.applyChange
  extract_lets _ _
  split
  · exact .purgeKeys (.onKey h)
  · exact .onKey h

theorem Stays.settleChange {c : KeyChange} (h : Stays s t) : Stays s (settleChange t c) :=
  .ite (.applyChange h) (.ite (.onKey h) (.onKey h))

theorem Stays.settleKeys (h : Stays s t) : Stays s (settleKeys t) :=
  .ite h (.loadHolder (.foldl (.onKey h) fun _ h => .settleChange h))

theorem Stays.storePart {txn : Nat} {idx : Nat} {slot : Nat} {gen : Nat} {kind : BitVec 8} {origin : Nat} {parent : Option KeyRef} {attrs : BitVec 32}
    {m : Bytes} (h : Stays s t) :
    Stays s (storePart txn idx t slot gen kind origin parent attrs m) :=
  .settleKeys (.appendRecord (.drew (.onKey h)))

theorem Stays.storeSlot {slot : Nat} {gen : Nat} {kind : BitVec 8} {origin : Nat} {parent : Option KeyRef} {attrs : BitVec 32} {m : Bytes} (h :
    Stays s t) :
    Stays s (storeSlot t slot gen kind origin parent attrs m) :=
  .storePart h

theorem Stays.purgeLane {l : Nat} (h : Stays s t) : Stays s (purgeLane t l) :=
  .onLane h

theorem Stays.retireSlot {slot : Nat} (h : Stays s t) : Stays s (retireSlot t slot) :=
  .settleKeys (.append (.purgeKeys (.onKey h)))

theorem Stays.storeNew {k : NewKey} {origin : Nat} (h : Stays s t) : Stays s (storeNew t k origin) :=
  .storeSlot h

/-! ### The fabric -/

theorem Stays.onPort {p : Port} {f : PortSt → PortSt} (h : Stays s t) : Stays s (onPort t p f) :=
  .onFab h

theorem Stays.putFrame {p : Port} {f : Frame} (h : Stays s t) : Stays s (putFrame t p f) := by
  unfold Machine.putFrame
  exact .onOut (.onPort h)

theorem Stays.sendOn {p : Port} {f : Frame} (h : Stays s t) : Stays s (sendOn t p f) :=
  .ite (.putFrame h) (.onPort h)

theorem Stays.putFrames {p : Port} {fs : List Frame} (h : Stays s t) : Stays s (putFrames t p fs) := by
  induction fs generalizing t with
  | nil => exact .onPort h
  | cons f fs ih => exact .ite (ih (.putFrame h)) (.onPort h)

theorem Stays.flushPort {p : Port} (h : Stays s t) : Stays s (flushPort t p) :=
  .putFrames h

theorem Stays.sendAgain {p : Port} {xs : List Sent} (h : Stays s t) : Stays s (sendAgain t p xs) :=
  .onOut h

theorem Stays.discardFrame (h : Stays s t) : Stays s (discardFrame t) :=
  .onFab h

theorem Stays.routeFrame {arrived : Option Nat} {n : Nat} {f : Frame} (h : Stays s t) : Stays s (routeFrame t arrived n f) := by
  induction n generalizing f with
  | zero => exact .discardFrame h
  | succ n ih =>
    unfold Machine.routeFrame
    split
    · exact h
    · refine .ite (.sendOn h) ?_
      split
      · exact .sendOn h
      · split
        · exact .ite (.discardFrame h) ih
        · exact .discardFrame h

theorem Stays.sendTo {dest : Nat} {body : FrameBody} {relayed : Bool} (h : Stays s t) : Stays s (sendTo t dest body relayed) :=
  .routeFrame h

theorem Stays.onView {home : Nat} {f : HomeView → HomeView} (h : Stays s t) : Stays s (onView t home f) :=
  .onFab h

theorem Stays.floodOn {k : MKind} {subject : Nat} {term : Nat} {value : Nat} {f : Frame} {except : Option Port} (h : Stays s t) :
    Stays s (floodOn t k subject term value f except) :=
  .foldl (.onFab h) fun _ h => .sendOn h

theorem Stays.flood {k : MKind} {subject : Nat} {term : Nat} {value : Nat} (h : Stays s t) : Stays s (flood t k subject term value) :=
  .floodOn h

theorem Stays.floodAgain {k : MKind} {f : MFrame} (h : Stays s t) : Stays s (floodAgain t k f) :=
  .ite (.floodOn h) h

theorem Stays.recordTerm {home : Nat} {term : Nat} (h : Stays s t) : Stays s (recordTerm t home term) :=
  .ite (.hotPut (.onFab h)) (.ite (.hotPut (.onFab h)) h)

theorem Stays.adopt {home : Nat} {term : Nat} {f : HomeView → HomeView} (h : Stays s t) : Stays s (adopt t home term f) :=
  .ite (.irqMain (.recordTerm (.onView (.onFab h)))) h

theorem Stays.dropTwin (h : Stays s t) : Stays s (dropTwin t) :=
  .when h fun h => .irqMain (.onLed (.onFab h))

theorem Stays.takeAuthority {term : Nat} (h : Stays s t) : Stays s (takeAuthority t term) :=
  .flood (.irqMain (.cause (.onLed (.onFab (.dropTwin (.onView (.onView (.recordTerm h))))))))

theorem Stays.excludeTwin {term : Nat} (h : Stays s t) : Stays s (excludeTwin t term) :=
  .flood (.onFab (.dropTwin (.onView (.onView (.recordTerm h)))))

theorem Stays.withdraw (h : Stays s t) : Stays s (withdraw t) :=
  .flood (.onView (.onFab h))

theorem Stays.linkDown {p : Port} (h : Stays s t) : Stays s (linkDown t p) :=
  .when (.when (.onPort h) .irqMain) .observe

end Sys2Proof.Machine
end

section
/-! SUPPORT. What no operation undoes, for each operation of the ledger engine, the mint pipeline and the verdict pipeline. -/

namespace Sys2Proof.Machine

-- One theorem at a time: the check's memory limit leaves no room for a thread for each.
set_option Elab.async false

variable {s t : State}

/-! ### The ledger engine -/

theorem Stays.putReq {r : Req} (h : Stays s t) : Stays s (putReq t r) :=
  .onLane h

theorem Stays.inStage {lane : Nat} {ctx : Nat} {st : Stage} {f : Req → State} (h : Stays s t) (hf : ∀ u, Stays s (f u)) :
    Stays s (inStage t lane ctx st f) := by
  unfold Machine.inStage
  split
  · exact .ite (hf _) h
  · exact h

theorem Stays.dropReq {r : Req} (h : Stays s t) : Stays s (dropReq t r) :=
  .onLane h

theorem Stays.startFwd {f : FwdFrame} {lane : Nat} {ctx : Nat} {since : Nat} (h : Stays s t) : Stays s (startFwd t f lane ctx since) :=
  .putReq (.ungate h)

theorem Stays.freeReq {r : Req} (h : Stays s t) : Stays s (freeReq t r) := by
  unfold Machine.freeReq
  extract_lets s1
  have h1 : Stays s s1 := .dropReq h
  split
  · exact .ite (.startFwd (.onLane h1)) h1
  · exact h1

theorem Stays.endMint {r : Req} {st : Status} {detail : BitVec 16} {length : Nat} {outs : List HostWrite} (h : Stays s t) :
    Stays s (endMint t r st detail length outs) :=
  .freeReq (.complete h)

theorem Stays.endVerdict {r : Req} {st : Status} {v : VCode} {detail : BitVec 16} (h : Stays s t) : Stays s (endVerdict t r st v detail) := by
  unfold Machine.endVerdict
  extract_lets _ _ _
  split
  · exact .freeReq (.sendTo h)
  · exact .freeReq (.complete h)

theorem Stays.endReq {r : Req} {st : Status} {detail : BitVec 16} (h : Stays s t) : Stays s (endReq t r st detail) :=
  .ite (.endMint h) (.endVerdict h)

theorem Stays.replyFwd {f : FwdFrame} {st : Status} (h : Stays s t) : Stays s (replyFwd t f st) :=
  .sendTo h

theorem Stays.endCtl {st : Status} {detail : BitVec 16} {resp : Bytes} (h : Stays s t) : Stays s (endCtl t st detail resp) := by
  unfold Machine.endCtl
  split
  · exact h
  · exact .hookAfter (.complete (.onHq h))

theorem Stays.endWait {st : Status} {detail : BitVec 16} {resp : Bytes} (h : Stays s t) : Stays s (endWait t st detail resp) :=
  .ite (.ite (.irqMain (.onFab (.onHq h))) (.irqMain (.onLed (.onHq h)))) (.endCtl h)

theorem Stays.onPage {slot : Nat} {f : PageSt → PageSt} (h : Stays s t) : Stays s (onPage t slot f) :=
  .onLed h

theorem Stays.evict (h : Stays s t) : Stays s (evict t) := by
  unfold Machine.evict
  refine .ite h ?_
  split
  · exact .onPage h
  · exact h

theorem Stays.cachePage {slot : Nat} (h : Stays s t) : Stays s (cachePage t slot) :=
  .onPage (.evict h)

theorem Stays.setEntry {own : Bool} {x : Nat} {e : LState} (h : Stays s t) : Stays s (setEntry t own x e) :=
  .onPage (.onLed h)

theorem Stays.nvme {ds : List Nat} {c : NvmeCmd} (h : Stays s t) : Stays s (nvme t ds c) :=
  .onOut h

theorem Stays.sealBlock {g : Group} (h : Stays s t) : Stays s (sealBlock t g) :=
  .count (.onLed (.nvme h))

theorem Stays.closeGroup {own : Bool} (h : Stays s t) : Stays s (closeGroup t own) :=
  .ite h (.when (.sealBlock (.onLed h)) .sendTo)

theorem Stays.joinGroup {own : Bool} {rs : List JRec} (h : Stays s t) : Stays s (joinGroup t own rs).1 := by
  unfold Machine.joinGroup
  exact .ite (.closeGroup (.onLed (.ite (.closeGroup h) h))) (.onLed (.ite (.closeGroup h) h))

theorem Stays.killGroups {p : Group → Bool} (h : Stays s t) : Stays s (killGroups t p) :=
  .onLed h

theorem Stays.addExit {serial : Nat} {e : Nat} (h : Stays s t) : Stays s (addExit t serial e) := by
  unfold Machine.addExit
  exact .onLed (.ite (by
    split
    · exact .onLed h
    · exact h) h)

theorem Stays.applyVerdict {r : Req} (h : Stays s t) : Stays s (applyVerdict t r) := by
  unfold Machine.applyVerdict
  extract_lets _ _ _ _ _ _ _ _
  split
  · exact .observe (.endVerdict h)
  · extract_lets _
    split
    · exact .putReq (.joinGroup (.ite (.addExit (.setEntry h)) (.setEntry h)))
    · split
      · exact .putReq h
      · exact .endVerdict h

theorem Stays.startRead {slot : Nat} (h : Stays s t) : Stays s (startRead t slot) :=
  .ite h (.count (.onLed (.onPage (.nvme h))))

theorem Stays.verdictAtLedger {r : Req} (h : Stays s t) : Stays s (verdictAtLedger t r) :=
  .ite (.endVerdict h) (.ite (.putReq h) (.ite (.putReq h) (.ite (.startRead (.putReq h)) (.applyVerdict (.count (.onPage h))))))

theorem Stays.endLeaseWaiters {st : Status} (h : Stays s t) : Stays s (endLeaseWaiters t st) :=
  .foldl (.onLed (.onLane h)) fun _ h => by
    split
    · exact .endMint h
    · exact h

theorem Stays.mirrorOpening (h : Stays s t) : Stays s (mirrorOpening t) := by
  unfold Machine.mirrorOpening
  split
  · exact .when h fun h => .sendTo (.onLed h)
  · exact h

theorem Stays.openLease (h : Stays s t) : Stays s (openLease t) :=
  .ite (.endLeaseWaiters h) (.mirrorOpening (.enqueue (.onLed h)))

theorem Stays.assignSerial {r : Req} (h : Stays s t) : Stays s (assignSerial t r) :=
  .ite (.observe (.endMint (.onLed h))) (.putReq (.joinGroup (.setEntry (.onLed h))))

theorem Stays.mintAtLedger {r : Req} (h : Stays s t) : Stays s (mintAtLedger t r) :=
  .ite (.putReq h) (.ite (.ite (.putReq h) (.assignSerial h)) (.ite (.openLease (.onLane (.putReq h))) (.onLane (.putReq h))))

theorem Stays.pinLease {n : Nat} {on : Bool} (h : Stays s t) : Stays s (pinLease t n on) :=
  .foldl h fun _ h => .onPage h

theorem Stays.drainLease (h : Stays s t) : Stays s (drainLease t) :=
  .foldl (.onLane h) fun _ h => by
    split
    · exact .mintAtLedger h
    · exact h

theorem Stays.closeLease (h : Stays s t) : Stays s (closeLease t) := by
  unfold Machine.closeLease
  split
  · exact .onLed (.pinLease h)
  · exact h

theorem Stays.tryLease (h : Stays s t) : Stays s (tryLease t) := by
  unfold Machine.tryLease
  split
  · exact .ite (.drainLease (.pinLease (.onLed (.closeLease h)))) h
  · exact h

theorem Stays.holdNode {n : Nat} {i : Nat} (h : Stays s t) : Stays s (holdNode t n i) := by
  unfold Machine.holdNode
  exact .onLed h

theorem Stays.retree {slots : List Nat} (h : Stays s t) : Stays s (retree t slots) := by
  unfold Machine.retree
  exact .onLed (.foldl h fun _ h => .foldl h fun _ h => .holdNode h)

theorem Stays.rebuildTree (h : Stays s t) : Stays s (rebuildTree t) :=
  .retree (.onLed h)

theorem Stays.writeLabel {d : Nat} {st : Nat} {seq : Nat} (h : Stays s t) : Stays s (writeLabel t d st seq) :=
  .nvme (.onDrives h)

theorem Stays.markDirty (h : Stays s t) : Stays s (markDirty t) :=
  .retree (.onLed (.onLed h))

theorem Stays.startCheckpoint (h : Stays s t) : Stays s (startCheckpoint t) :=
  .ite h (.markDirty (.onDrives (.onLed (.closeGroup (.closeGroup h)))))

theorem Stays.startDue (h : Stays s t) : Stays s (startDue t) :=
  .ite (.startCheckpoint h) h

theorem Stays.clearPages {gone : Nat → Bool} (h : Stays s t) : Stays s (clearPages t gone) :=
  .onLed h

theorem Stays.rollOwn {e : BitVec 4} (h : Stays s t) : Stays s (rollOwn t e) :=
  .nvme (.onDrives (.foldl (.rebuildTree (.onHbm (.onKey (.onLed (.when (.clearPages h) .onLed))))) fun _ h => .writeLabel h))

theorem Stays.rollShadow {e : BitVec 4} (h : Stays s t) : Stays s (rollShadow t e) :=
  .rebuildTree (.onFab (.onLed (.clearPages h)))

theorem Stays.releaseReq {k : Nat} (h : Stays s t) : Stays s (releaseReq t k) := by
  unfold Machine.releaseReq
  split
  · exact .ite (.ite (.putReq h) (.endVerdict h)) h
  · exact h

theorem Stays.settleRoll (h : Stays s t) : Stays s (settleRoll t) := by
  unfold Machine.settleRoll
  split
  · exact .ite (.ite (.endWait (.startDue (.rollOwn h))) (.startDue (.rollOwn h))) h
  · exact h

theorem Stays.releaseCtl (h : Stays s t) : Stays s (releaseCtl t) := by
  unfold Machine.releaseCtl
  extract_lets _ _ _
  refine .ite h ?_
  split
  · exact .endWait h
  · exact .endWait h
  · exact .ite h (.sendTo (.onFab h))
  · exact h
  · exact h

theorem Stays.settle (h : Stays s t) : Stays s (settle t) := by
  unfold Machine.settle
  exact .onLed (.startDue (.releaseCtl (.settleRoll (.foldl (.onLed (.count (.onLed h))) fun _ h => .releaseReq h))))

theorem Stays.putBlock {d : Nat} {b : JBlock} (h : Stays s t) : Stays s (putBlock t d b) :=
  .withDrives h

theorem Stays.onDrive {d : Nat} {f : Drive → Drive} (h : Stays s t) : Stays s (onDrive t d f) :=
  .onDrives h

/-! ### The mint pipeline -/

theorem Stays.cacheFront {lane : Nat} {e : CacheEnt} (h : Stays s t) : Stays s (cacheFront t lane e) :=
  .onLane h

theorem Stays.touchKey {lane : Nat} {k : KeyRef} (h : Stays s t) : Stays s (touchKey t lane k) := by
  unfold Machine.touchKey
  split
  · exact .cacheFront h
  · exact h

theorem Stays.fillKey {lane : Nat} {k : KeyRef} (h : Stays s t) : Stays s (fillKey t lane k) :=
  .cacheFront h

theorem Stays.touchKeys {lane : Nat} {ks : List KeyRef} (h : Stays s t) : Stays s (touchKeys t lane ks) :=
  .foldl h fun _ h => .touchKey h

theorem Stays.intakeEnd {r : Req} {e : EventRec} {c : ClassRec} {w : Option Bytes} (h : Stays s t) : Stays s (intakeEnd t r e c w) := by
  unfold Machine.intakeEnd
  extract_lets _ _
  split
  · exact .ite (.endMint h) (.putReq h)
  · split
    · exact .endMint h
    · exact .ite (.endMint h) (.putReq h)

theorem Stays.mintIntake {r : Req} (h : Stays s t) : Stays s (mintIntake t r) := by
  unfold Machine.mintIntake
  extract_lets _
  refine .ite (.endMint h) ?_
  split
  · exact .endMint h
  · refine .ite (.endMint h) ?_
    refine .ite (.endMint h) ?_
    split
    · exact .endMint h
    · split
      · exact .endMint h
      · exact .ite (.endMint h) (.ite (.endMint h) (.ite (.endMint h) (.ite (.endMint h) (.ite (.putReq h) (.intakeEnd h)))))

theorem StaysNext.execMintIntake {lane : Nat} {ctx : Nat} (h : Stays s t) : StaysNext s (execMintIntake lane ctx t) :=
  .done (.inStage h fun _ => .ite (.mintIntake h) h)

theorem StaysNext.execMintWrapperReadDone {lane : Nat} {ctx : Nat} {read : Option Bytes} (h : Stays s t) :
    StaysNext s (execMintWrapperReadDone lane ctx read t) :=
  .done (.inStage h fun _ => .ite (.endMint h) (by
    split
    · exact .endMint h
    · split
      · exact .endMint h
      · split
        · exact .endMint h
        · exact .intakeEnd h))

theorem StaysNext.execMintWrapperReadTimeout {lane : Nat} {ctx : Nat} (h : Stays s t) : StaysNext s (execMintWrapperReadTimeout lane ctx t) :=
  .done (.inStage h fun _ => .endMint h)

theorem Stays.mintClock {r : Req} (h : Stays s t) : Stays s (mintClock t r) := by
  unfold Machine.mintClock
  split
  · exact .endMint h
  · refine .ite (.endMint h) ?_
    extract_lets _ _ _ _ x3 _
    clear_value x3
    split
    · exact .endMint h
    · exact .putReq h

theorem StaysNext.execMintClock {lane : Nat} {ctx : Nat} (h : Stays s t) : StaysNext s (execMintClock lane ctx t) :=
  .done (.inStage h fun _ => .ite (.mintClock h) h)

theorem Stays.mintDraw {r : Req} {n : Nat} (h : Stays s t) : Stays s (mintDraw t r n) :=
  .ite (.putReq h) (.ite (.drew (.putReq h)) (.onLane (.putReq h)))

theorem Stays.mintRuleOn {r : Req} {e : EventRec} (h : Stays s t) : Stays s (mintRuleOn t r e) := by
  unfold Machine.mintRuleOn
  split
  · exact .endMint h
  · refine .ite (.endMint h) ?_
    extract_lets _ _ _
    split
    · exact .endMint h
    · exact .ite (.putReq h) (.mintDraw (.touchKeys h))

theorem Stays.mintRule {r : Req} (h : Stays s t) : Stays s (mintRule t r) := by
  unfold Machine.mintRule
  split
  · exact .endMint h
  · exact .mintRuleOn h

theorem StaysNext.execMintRule {lane : Nat} {ctx : Nat} (h : Stays s t) : StaysNext s (execMintRule lane ctx t) :=
  .done (.inStage h fun _ => .ite (.mintRule h) h)

theorem Stays.serveDraws (h : Stays s t) : Stays s (serveDraws t) :=
  .ite h (.foldl (.onLane h) fun _ h => by
    split
    · exact .ite (.mintDraw h) h
    · exact h)

theorem StaysNext.execMintDrbgTimeout {lane : Nat} {ctx : Nat} (h : Stays s t) : StaysNext s (execMintDrbgTimeout lane ctx t) :=
  .done (.inStage h fun _ => .endMint h)

theorem StaysNext.execMintLedgerAssign {lane : Nat} {ctx : Nat} (h : Stays s t) : StaysNext s (execMintLedgerAssign lane ctx t) :=
  .done (.inStage h fun _ => .ite (.mintAtLedger h) h)

theorem StaysNext.execLeaseOpenTimeout (h : Stays s t) : StaysNext s (execLeaseOpenTimeout t) :=
  .done (by
    split
    · exact .endLeaseWaiters (.onLed h)
    · exact h)

theorem Stays.emitMint {r : Req} (h : Stays s t) : Stays s (emitMint t r) :=
  .endMint h

theorem Stays.mintSeal {r : Req} (h : Stays s t) : Stays s (mintSeal t r) :=
  .ite (.ite (.onLane (.putReq (.count h))) (.endMint (.count h))) (.emitMint (.count h))

theorem StaysNext.execMintSealDone {lane : Nat} {ctx : Nat} (h : Stays s t) : StaysNext s (execMintSealDone lane ctx t) :=
  .done (.inStage h fun _ => .mintSeal h)

theorem StaysNext.execMldsaJobDone (h : Stays s t) : StaysNext s (execMldsaJobDone t) :=
  .done (by
    split
    · exact h
    · split
      · exact .emitMint h
      · exact .onLane h)

theorem Stays.endJobs (h : Stays s t) : Stays s (endJobs t) :=
  .foldl (.onLane h) fun _ h => by
    split
    · exact .endMint h
    · exact h

theorem StaysNext.execMintOutputWriteFail {lane : Nat} {ctx : Nat} (h : Stays s t) : StaysNext s (execMintOutputWriteFail lane ctx t) :=
  .done (by
    split
    · exact .ite (.endMint (.count h)) (.ite (.endMint h) h)
    · exact h)

/-! ### The verdict pipeline -/

theorem Stays.giveFwd {x1 : HeldFwd} {lane : Nat} {ctx : Nat} (h : Stays s t) : Stays s (giveFwd t x1 lane ctx) := by
  unfold Machine.giveFwd
  refine .ite (.startFwd h) ?_
  split
  · exact .startFwd h
  · exact .onLane h

theorem Stays.serveHeld (h : Stays s t) : Stays s (serveHeld t) :=
  .foldl (.onLane h) fun _ h => .ite (.giveFwd h) (.replyFwd h)

theorem Stays.verdictDecide {r : Req} (h : Stays s t) : Stays s (verdictDecide t r) := by
  unfold Machine.verdictDecide
  extract_lets _ _ _
  refine .ite (.endVerdict h) ?_
  split
  · exact .endVerdict h
  · split
    · exact .endVerdict h
    · exact .ite (.endVerdict h) (.putReq h)

theorem Stays.skew {hint : BitVec 32} (h : Stays s t) : Stays s (skew t hint) :=
  .when h .gauge

theorem Stays.verdictIntake {r : Req} (h : Stays s t) : Stays s (verdictIntake t r) := by
  unfold Machine.verdictIntake
  extract_lets s1 _ _ _ s2 s3 _
  have h1 : Stays s s1 := .skew h
  have h2 : Stays s s2 := .onLane h1
  have h3 : Stays s s3 := .count h2
  refine .ite (.endVerdict h1) ?_
  refine .ite (.endVerdict h1) ?_
  refine .ite (.endVerdict h1) ?_
  split
  · exact .endVerdict h1
  · refine .ite (.endVerdict h1) ?_
    refine .ite (.endVerdict h1) ?_
    refine .ite (.verdictDecide h1) ?_
    split
    · exact .endVerdict h1
    · exact .ite (.putReq h1) (.sendTo (.putReq h3))

theorem StaysNext.execVerdictIntake {lane : Nat} {ctx : Nat} (h : Stays s t) : StaysNext s (execVerdictIntake lane ctx t) :=
  .done (.inStage h fun _ => .ite h (.ite (.verdictDecide h) (.verdictIntake h)))

theorem StaysNext.execVerdictFwdRx {f : FwdFrame} {lane : Nat} {ctx : Nat} (h : Stays s t) : StaysNext s (execVerdictFwdRx f lane ctx t) :=
  .done (by
    extract_lets _ s1 _ _ _
    have h1 : Stays s s1 := .onLane h
    refine .ite h ?_
    split
    · exact .replyFwd h1
    · exact .ite (.ite (.giveFwd h1) (.replyFwd h1)) (.ite (.routeFrame h1) (.onLane h1)))

theorem StaysNext.execHeldForwardTimeout {src : Nat} {seq : BitVec 32} (h : Stays s t) : StaysNext s (execHeldForwardTimeout src seq t) :=
  .done (by
    split
    · exact .replyFwd (.onLane h)
    · exact h)

theorem StaysNext.execForwardContextTimeout {src : Nat} {seq : BitVec 32} (h : Stays s t) : StaysNext s (execForwardContextTimeout src seq t) :=
  .done (by
    split
    · exact .replyFwd (.onLane h)
    · exact h)

theorem Stays.endForwarded {r : Req} {c : Comp} (h : Stays s t) : Stays s (endForwarded t r c) :=
  .freeReq (.complete h)

theorem StaysNext.execVerdictReplyRx {lane : Nat} {ctx : Nat} {status : Byte} {verdict : Byte} {seq : BitVec 32} {info : Byte} {detail : BitVec 16}
    {decider : BitVec 16} {serial : BitVec 56} (h : Stays s t) :
    StaysNext s (execVerdictReplyRx lane ctx status verdict seq info detail decider serial t) :=
  .done (by
    split
    · exact .ite (.endForwarded h) (.onLane h)
    · exact .onLane h)

theorem StaysNext.execForwardReplyTimeout {lane : Nat} {ctx : Nat} (h : Stays s t) : StaysNext s (execForwardReplyTimeout lane ctx t) :=
  .done (.inStage h fun _ => .endForwarded h)

theorem Stays.verdictCheckOn {r : Req} {e : EventRec} (h : Stays s t) : Stays s (verdictCheckOn t r e) := by
  unfold Machine.verdictCheckOn
  split
  · exact .endVerdict h
  · split
    · exact .ite (.putReq h) (.ite (.putReq (.count (.touchKey h))) (.endVerdict (.count (.touchKey h))))
    · refine .ite (.endVerdict h) ?_
      extract_lets _ _ _ s6
      have h6 : Stays s s6 := .count (.touchKey h)
      split
      · exact .endVerdict h
      · exact .ite (.putReq h) (.ite (.putReq h6) (.endVerdict h6))

theorem Stays.verdictCheck {r : Req} (h : Stays s t) : Stays s (verdictCheck t r) := by
  unfold Machine.verdictCheck
  split
  · exact .endVerdict h
  · exact .verdictCheckOn h

theorem StaysNext.execVerdictCheck {lane : Nat} {ctx : Nat} (h : Stays s t) : StaysNext s (execVerdictCheck lane ctx t) :=
  .done (.inStage h fun _ => .ite h (.verdictCheck h))

theorem Stays.retryKey {k : Nat} (h : Stays s t) : Stays s (retryKey t k) := by
  unfold Machine.retryKey
  split
  · split
    · exact .ite (.mintRuleOn h) (.ite (.verdictCheckOn h) h)
    · exact h
  · exact h

theorem StaysNext.execKeyCacheFill {lane : Nat} {slot : Nat} {gen : Nat} (h : Stays s t) : StaysNext s (execKeyCacheFill lane slot gen t) :=
  .done (.foldl (.when h .fillKey) fun _ h => .retryKey h)

theorem Stays.verdictClock {r : Req} (h : Stays s t) : Stays s (verdictClock t r) := by
  unfold Machine.verdictClock
  split
  · exact .endVerdict h
  · exact .ite (.endVerdict h) (.ite (.endVerdict h) (.ite (.endVerdict h) (.putReq h)))

theorem StaysNext.execVerdictClock {lane : Nat} {ctx : Nat} (h : Stays s t) : StaysNext s (execVerdictClock lane ctx t) :=
  .done (.inStage h fun _ => .ite h (.verdictClock h))

theorem Stays.verdictRule {r : Req} (h : Stays s t) : Stays s (verdictRule t r) := by
  unfold Machine.verdictRule
  split
  · exact .endVerdict h
  · split
    · exact .endVerdict h
    · exact .ite (.endVerdict h) (.ite (.endVerdict h) (.ite (.endVerdict h) (.putReq h)))

theorem StaysNext.execVerdictRule {lane : Nat} {ctx : Nat} (h : Stays s t) : StaysNext s (execVerdictRule lane ctx t) :=
  .done (.inStage h fun _ => .ite h (.verdictRule h))

theorem StaysNext.execVerdictLedgerApply {lane : Nat} {ctx : Nat} (h : Stays s t) : StaysNext s (execVerdictLedgerApply lane ctx t) :=
  .done (.inStage h fun _ => .ite h (.verdictAtLedger h))

end Sys2Proof.Machine
end

section
/-! SUPPORT. What no operation undoes, for each operation of the signed control requests, the digest engine, the random bytes and the ordered
change of a unit. -/

namespace Sys2Proof.Machine

-- One theorem at a time: the check's memory limit leaves no room for a thread for each.
set_option Elab.async false

variable {s t : State}

/-! ### Signed control requests -/

theorem Stays.tryOpen (h : Stays s t) : Stays s (tryOpen t) :=
  .when h fun h => .onPow (.ite h (.onFab h))

theorem Stays.openData (h : Stays s t) : Stays s (openData t) :=
  .openPlane (.onLed (.onPow h))

theorem Stays.acceptVoucher {b : Bytes} (h : Stays s t) : Stays s (acceptVoucher t b) :=
  .ite (.tryOpen (.onKey (.append (.append (.ite (.mirrorTime (.onTime h)) (.irqAll (.cause (.mirrorTime (.onTime h))))))))) (.append (.ite
      (.mirrorTime (.onTime h)) (.irqAll (.cause (.mirrorTime (.onTime h))))))

theorem Stays.applyPublish {p : Publish} (h : Stays s t) : Stays s (applyPublish t p) :=
  .when h .onHbm

theorem Stays.publishEvent {num : Nat} {event : Option EventRec} (h : Stays s t) : Stays s (publishEvent t num event) :=
  .ite (.endCtl (.applyPublish h)) (.onHq (.onHbm h))

theorem Stays.endPublishes (h : Stays s t) : Stays s (endPublishes t) :=
  .when (.foldl (.onHbm h) fun _ h => .applyPublish h) .endCtl

theorem Stays.doDefineEvent {b : Bytes} (h : Stays s t) : Stays s (doDefineEvent t b) := by
  unfold Machine.doDefineEvent
  split
  · exact .endCtl h
  · exact .publishEvent h

theorem Stays.doCloseEvent {b : Bytes} (h : Stays s t) : Stays s (doCloseEvent t b) := by
  unfold Machine.doCloseEvent
  refine .ite (.endCtl h) ?_
  split
  · exact .endCtl h
  · exact .publishEvent h

theorem Stays.setWait {w : CtlWait} (h : Stays s t) : Stays s (setWait t w) :=
  .onHq h

theorem Stays.applyVoid {home : Nat} {f : Nat} {l : Nat} {viaLed : Bool} (h : Stays s t) : Stays s (applyVoid t home f l viaLed) :=
  .ite (.setWait h) (.setWait (.joinGroup (.onLed h)))

theorem StaysOk.startVoid {a : Nat} {b : Nat} {viaLed : Bool} (h : Stays s t) : StaysOk s (startVoid t a b viaLed) :=
  .ite .error (.ite .error (.ite .error (.ok (.applyVoid h))))

theorem Stays.doVoidSerials {b : Bytes} (h : Stays s t) : Stays s (doVoidSerials t b) := by
  unfold Machine.doVoidSerials
  refine .ite (.endCtl h) ?_
  refine .ite (.endCtl h) ?_
  split
  · exact .endCtl h
  next u2 e2 =>
    exact (StaysOk.startVoid h).get e2

theorem Stays.answerQuery {g : Nat} {viaLed : Bool} (h : Stays s t) : Stays s (answerQuery t g viaLed) :=
  .releaseCtl (.setWait h)

theorem Stays.startQuery {g : Nat} {viaLed : Bool} (h : Stays s t) : Stays s (startQuery t g viaLed) :=
  .ite (.answerQuery h) (.ite (.setWait h) (.startRead (.setWait h)))

theorem Stays.resumeQuery (h : Stays s t) : Stays s (resumeQuery t) :=
  .when h .answerQuery

theorem Stays.doQueryLedger {b : Bytes} (h : Stays s t) : Stays s (doQueryLedger t b) := by
  unfold Machine.doQueryLedger
  refine .ite (.endCtl h) ?_
  split
  · exact .endCtl h
  · exact .startQuery h

theorem Stays.writeRoll {e : BitVec 4} (h : Stays s t) : Stays s (writeRoll t e) := by
  unfold Machine.writeRoll
  exact .onLed (.closeGroup (.joinGroup (.closeGroup h)))

theorem Stays.failRoll (h : Stays s t) : Stays s (failRoll t) :=
  .ite (.endWait (.onLed h)) (.onLed h)

theorem Stays.startRoll {e : BitVec 4} (h : Stays s t) : Stays s (startRoll t e) :=
  .ite (.onLed h) (.ite (.writeRoll (.append (.onLed h))) (.ite (.failRoll (.append (.onLed h))) (.append (.onLed h))))

theorem Stays.resumeRoll (h : Stays s t) : Stays s (resumeRoll t) := by
  unfold Machine.resumeRoll
  split
  · exact .when h fun h => .startRoll (.onLed h)
  · exact h

theorem Stays.doEpochRoll {b : Bytes} (h : Stays s t) : Stays s (doEpochRoll t b) :=
  .ite (.endCtl h) (.ite (.endCtl h) (.ite (.endCtl h) (.ite (.endCtl h) (.ite (.endCtl h) (.ite (.sendTo (.onFab (.setWait h))) (.startRoll
      (.setWait h)))))))

theorem Stays.startHandBack {home : Nat} {viaLed : Bool} (h : Stays s t) : Stays s (startHandBack t home viaLed) :=
  .releaseCtl (.setWait (.closeGroup (.onLed h)))

theorem Stays.doHandBack {b : Bytes} (h : Stays s t) : Stays s (doHandBack t b) := by
  unfold Machine.doHandBack
  extract_lets _
  refine .ite (.endCtl h) ?_
  refine .ite (.endCtl h) ?_
  split
  · exact .endCtl h
  · exact .startHandBack h

theorem Stays.bindRing {sq : Nat} {mask : BitVec 16} (h : Stays s t) : Stays s (bindRing t sq mask) :=
  .onSq h

theorem Stays.doBindRing {b : Bytes} (h : Stays s t) : Stays s (doBindRing t b) := by
  unfold Machine.doBindRing
  extract_lets _
  split
  · exact .endCtl h
  · exact .endCtl (.bindRing h)

theorem Stays.doGetStats (h : Stays s t) : Stays s (doGetStats t) :=
  .endCtl h

theorem Stays.keyTurn {slot : Nat} {f : State → State} (h : Stays s t) (hf : ∀ {u}, Stays s u → Stays s (f u)) : Stays s (keyTurn t slot f) :=
  .ite (.onHq h) (hf h)

theorem Stays.endStore {k : NewKey} {origin : Nat} (h : Stays s t) : Stays s (endStore t k origin) :=
  .ite (.endCtl (.storeNew h)) (.onHq h)

theorem Stays.doImportKey {b : Bytes} (h : Stays s t) : Stays s (doImportKey t b) := by
  unfold Machine.doImportKey
  split
  · exact .endCtl h
  · exact .keyTurn h fun h => by
      split
      · exact .endCtl h
      · exact .endStore h

theorem Stays.doDeriveKey {b : Bytes} (h : Stays s t) : Stays s (doDeriveKey t b) := by
  unfold Machine.doDeriveKey
  split
  · exact .endCtl h
  · exact .keyTurn h fun h => by
      split
      · exact .endCtl h
      · exact .endStore h

theorem Stays.doRetireKey {b : Bytes} (h : Stays s t) : Stays s (doRetireKey t b) := by
  unfold Machine.doRetireKey
  split
  · exact .endCtl h
  · exact .endCtl (.retireSlot h)

theorem Stays.doVoucher {b : Bytes} (h : Stays s t) : Stays s (doVoucher t b) := by
  unfold Machine.doVoucher
  split
  · exact .endCtl h
  · exact .endCtl (.acceptVoucher h)

theorem Stays.ctlBody {e : Bytes} {blk : Bytes} (h : Stays s t) : Stays s (ctlBody t e blk) := by
  unfold Machine.ctlBody
  extract_lets x1 _
  refine .ite (.endCtl h) ?_
  refine .ite (.endCtl h) ?_
  clear_value x1
  split
  · exact .doDefineEvent h
  · exact .doCloseEvent h
  · exact .doVoidSerials h
  · exact .doImportKey h
  · exact .doDeriveKey h
  · exact .keyTurn h .doRetireKey
  · exact .doVoucher h
  · exact .doQueryLedger h
  · exact .doEpochRoll h
  · exact .doBindRing h
  · exact .doGetStats h
  · exact .doHandBack h

theorem Stays.ctlResume (h : Stays s t) : Stays s (ctlResume t) := by
  unfold Machine.ctlResume
  split
  · split
    · exact .ite (.ctlBody (.onHq h)) h
    · exact h
  · exact h

theorem Stays.ctlGo (h : Stays s t) : Stays s (ctlGo t) :=
  .ite h (.ctlResume h)

theorem Stays.ctlRecorded {e : CtlEntry} {blk : Bytes} (h : Stays s t) : Stays s (ctlRecorded t e blk) :=
  .ite (.onHq (.append h)) (.endCtl (.onHq (.append h)))

theorem Stays.ctlRun {e : CtlEntry} {block : Bytes} (h : Stays s t) : Stays s (ctlRun t e block) := by
  unfold Machine.ctlRun
  refine .ite (.endCtl h) ?_
  extract_lets _
  split
  · exact .endCtl h
  · exact .ite (.ctlBody (.ctlRecorded h)) (.ctlRecorded h)

theorem Stays.ctlRequest {op : Nat} {block : Bytes} (h : Stays s t) : Stays s (ctlRequest op block t) := by
  unfold Machine.ctlRequest
  split
  · extract_lets _
    refine .ite h ?_
    refine .ite (.ctlRun h) ?_
    refine .ite ?_ (.ite (.resumeRoll h) h)
    split
    · exact .applyVoid h
    · exact h
  · exact h

theorem StaysNext.execDefineEvent {block : Bytes} (h : Stays s t) : StaysNext s (execDefineEvent block t) :=
  .done (.ctlRequest h)

theorem StaysNext.execCloseEvent {block : Bytes} (h : Stays s t) : StaysNext s (execCloseEvent block t) :=
  .done (.ctlRequest h)

theorem StaysNext.execVoidSerials {block : Bytes} (h : Stays s t) : StaysNext s (execVoidSerials block t) :=
  .done (.ctlRequest h)

theorem StaysNext.execImportKey {block : Bytes} (h : Stays s t) : StaysNext s (execImportKey block t) :=
  .done (.ctlRequest h)

theorem StaysNext.execDeriveKey {block : Bytes} (h : Stays s t) : StaysNext s (execDeriveKey block t) :=
  .done (.ctlRequest h)

theorem StaysNext.execRetireKey {block : Bytes} (h : Stays s t) : StaysNext s (execRetireKey block t) :=
  .done (.ctlRequest h)

theorem StaysNext.execSetTimeVoucher {block : Bytes} (h : Stays s t) : StaysNext s (execSetTimeVoucher block t) :=
  .done (.ctlRequest h)

theorem StaysNext.execQueryLedger {block : Bytes} (h : Stays s t) : StaysNext s (execQueryLedger block t) :=
  .done (.ctlRequest h)

theorem StaysNext.execEpochRoll {block : Bytes} (h : Stays s t) : StaysNext s (execEpochRoll block t) :=
  .done (.ctlRequest h)

theorem StaysNext.execBindRing {block : Bytes} (h : Stays s t) : StaysNext s (execBindRing block t) :=
  .done (.ctlRequest h)

theorem StaysNext.execGetStats {block : Bytes} (h : Stays s t) : StaysNext s (execGetStats block t) :=
  .done (.ctlRequest h)

theorem StaysNext.execHandBack {block : Bytes} (h : Stays s t) : StaysNext s (execHandBack block t) :=
  .done (.ctlRequest h)

theorem StaysNext.execControlBlockReadFail (h : Stays s t) : StaysNext s (execControlBlockReadFail t) :=
  .done (by
    split
    · extract_lets _
      refine .ite h ?_
      refine .ite (.endCtl h) ?_
      split
      · exact .endCtl h
      · exact .ite (.endCtl h) (.endCtl h)
    · exact h)

/-! ### The digest engine -/

theorem Stays.digUpd {c : CoreId} {f : DigCore → DigCore} (h : Stays s t) : Stays s (digUpd t c f) :=
  .onDig h

theorem Stays.digResult {c : CoreId} {r : BitVec 4} (h : Stays s t) : Stays s (digResult t c r) :=
  .digUpd h

theorem Stays.extend {n : Nat} {v : Bytes} (h : Stays s t) : Stays s (extend t n v) := by
  unfold Machine.extend
  exact .onDig h

theorem Stays.digFree (h : Stays s t) : Stays s (digFree t) :=
  .onDig h

theorem Stays.digEnd (h : Stays s t) : Stays s (digEnd t) := by
  unfold Machine.digEnd
  split
  · exact .digFree (.digResult h)
  · exact h

theorem Stays.digBegin {c : CoreId} {v : BitVec 32} (h : Stays s t) : Stays s (digBegin t c v) := by
  unfold Machine.digBegin
  extract_lets _ x1
  refine .ite (.digResult h) ?_
  refine .ite (.digResult h) ?_
  refine .ite (.digResult h) ?_
  clear_value x1
  split
  · exact .digResult h
  · exact .digUpd (.onDig h)

theorem Stays.digAbsorb {c : CoreId} (h : Stays s t) : Stays s (digAbsorb t c) := by
  unfold Machine.digAbsorb
  extract_lets _ _
  split
  · exact .digResult h
  · refine .ite (.digResult h) ?_
    refine .ite (.digResult h) ?_
    split
    · exact .digResult (.digFree h)
    · exact .digUpd (.onDig h)

theorem Stays.digClose {c : CoreId} {v : BitVec 32} (h : Stays s t) : Stays s (digClose t c v) := by
  unfold Machine.digClose
  split
  · exact .digResult h
  · exact .ite (.digResult h) (.digResult (.onDig h))

theorem Stays.digAbandon {c : CoreId} (h : Stays s t) : Stays s (digAbandon t c) :=
  .ite (.digResult h) (.ite (.digResult h) (.digResult (.digFree h)))

theorem StaysNext.execDigCommandEnd (h : Stays s t) : StaysNext s (execDigCommandEnd t) :=
  .done (by
    split
    · exact .ite (.onDig (.irqMain h)) (.digFree (.digUpd (.ite (.digUpd (.irqMain h)) (.extend (.irqMain h)))))
    · exact h)

theorem Stays.measWord {c : CoreId} {n : Nat} {w : Nat} (h : Stays s t) : Stays s (measWord t c n w).2 := by
  unfold Machine.measWord
  extract_lets _ _
  split
  · with_reducible exact .digUpd h
  · split <;> with_reducible exact h

/-! ### Random bytes -/

theorem Stays.rngUpd {c : CoreId} {f : RngCore → RngCore} (h : Stays s t) : Stays s (rngUpd t c f) :=
  .onRng h

theorem Stays.rngStep {f : State → State} (h : Stays s t) (hf : ∀ {u}, Stays s u → Stays s (f u)) : Stays s (rngStep t f) :=
  .ite (hf h) (.cause (hf h))

theorem Stays.rngServe {c : CoreId} (h : Stays s t) : Stays s (rngServe t c) :=
  .ite (.rngUpd (.writeStr (.drew h))) h

theorem Stays.rngServeAll (h : Stays s t) : Stays s (rngServeAll t) :=
  .rngServe (.rngServe (.serveDraws (.when h .ctlResume)))

theorem Stays.rngCmd {c : CoreId} {v : Nat} (h : Stays s t) : Stays s (rngCmd t c v) :=
  .ite h (.rngStep (.when (.rngUpd h) .onRng) .rngServe)

theorem Stays.rngEnd {c : CoreId} (h : Stays s t) : Stays s (rngEnd t c) :=
  .irqMain (.rngUpd h)

theorem StaysNext.execRngCommandEnd {c : CoreId} (h : Stays s t) : StaysNext s (execRngCommandEnd c t) :=
  .done (.when h .rngEnd)

theorem StaysNext.execDrbgRequestTimeout {c : CoreId} (h : Stays s t) : StaysNext s (execDrbgRequestTimeout c t) :=
  .done (.ite (.rngEnd (.rngUpd h)) (by
    split
    · exact .when h .onKey
    · exact .when h .endCtl))

theorem Stays.rngAbort {c : CoreId} (h : Stays s t) : Stays s (rngAbort t c) :=
  .ite h (.rngEnd (.rngUpd (.when h .writeStr)))

theorem Stays.reseed (h : Stays s t) : Stays s (reseed t) :=
  .onRng h

theorem Stays.freshReseed (h : Stays s t) : Stays s (freshReseed t) :=
  .reseed (.onRng h)

theorem Stays.rngZero (h : Stays s t) : Stays s (rngZero t) :=
  .rngStep h .onRng

theorem Stays.rngFeed (h : Stays s t) : Stays s (rngFeed t) :=
  .ite h (.ite (.ite h (.rngServeAll (.onRng h))) (.ite (.rngServeAll (.reseed h)) h))

theorem StaysNext.execReseedBufferFull {bits : Bytes} (h : Stays s t) : StaysNext s (execReseedBufferFull bits t) :=
  .done (.when h fun h => .tryOpen (.rngStep h fun h => .rngFeed (.onRng h)))

theorem StaysNext.execDrbgReseedLimit (h : Stays s t) : StaysNext s (execDrbgReseedLimit t) :=
  .done (.when h fun h => .ite (.rngZero h) (.rngStep h fun h => .rngFeed (.onRng h)))

theorem Stays.bankTo {next : Option Nat} (h : Stays s t) : Stays s (bankTo t next) := by
  unfold Machine.bankTo
  extract_lets s1
  have h1 : Stays s s1 := .irqMain (.cause (.onRng h))
  split
  · exact .onRng h1
  · exact .observe (.onRng h1)

theorem Stays.sourceFailed {n : Nat} {f : Bool × Bool} (h : Stays s t) : Stays s (sourceFailed t n f) :=
  .observe (.onRng h)

theorem StaysNext.execNoiseHealthFail {bits : List Bool} (h : Stays s t) : StaysNext s (execNoiseHealthFail bits t) :=
  .done (.when h fun h => by
    extract_lets _ _
    split
    · exact .onRng h
    · exact .rngStep (.sourceFailed h) .bankTo)

theorem Stays.sourceLeft {n : Nat} (h : Stays s t) : Stays s (sourceLeft t n) :=
  .when h fun h => .rngStep h .bankTo

theorem Stays.rngSelect {v : BitVec 32} (h : Stays s t) : Stays s (rngSelect t v) :=
  .when h fun h => .rngStep h .bankTo

theorem Stays.rngTest {v : BitVec 32} (h : Stays s t) : Stays s (rngTest t v) :=
  .when h .onRng

theorem StaysNext.execNoiseStartupTestDone {source : Nat} {bits : List Bool} (h : Stays s t) :
    StaysNext s (execNoiseStartupTestDone source bits t) :=
  .done (by
    split
    · exact h
    · refine .ite ?_ (.when h fun h => by
        split
        · exact .irqMain (.onRng h)
        · exact .rngStep (.sourceFailed h) .bankTo)
      extract_lets s5 s6
      have h5 : Stays s s5 := .onRng h
      have h6 : Stays s s6 := .irqMain h5
      split
      · exact .observe (.onRng h6)
      · exact .sourceFailed h6)

/-! ### Meeting point M1 -/

theorem Stays.startFailover (h : Stays s t) : Stays s (startFailover t) :=
  .ite h (.closeGroup (.closeGroup (.when (.onUnit h) .closePlane)))

theorem Stays.failoverEnd (h : Stays s t) : Stays s (failoverEnd t) :=
  .when h .withdraw

theorem Stays.trySettle (h : Stays s t) : Stays s (trySettle t) :=
  .when h fun h => .ite (.tryOpen (.onLed h)) h

theorem Stays.afterGain (h : Stays s t) : Stays s (afterGain t) :=
  .serveHeld (.tryLease (.settle h))

theorem Stays.tryWithdrawn (h : Stays s t) : Stays s (tryWithdrawn t) := by
  unfold Machine.tryWithdrawn
  split
  · exact .ite (.afterGain (.takeAuthority h)) h
  · exact h

theorem Stays.mirrorWritten {own : Bool} (h : Stays s t) : Stays s (mirrorWritten t own) := by
  unfold Machine.mirrorWritten
  extract_lets _ _ _
  split
  · exact h
  · exact .trySettle (.tryWithdrawn (.settle (.sendTo (.onLed h))))

theorem Stays.dropDrive {d : Nat} {writable : Bool} (h : Stays s t) : Stays s (dropDrive t d writable) :=
  .ite h (.ite (.startFailover (.irqMain (.cause (.when (.onDrive h) .writeLabel)))) (.mirrorWritten (.mirrorWritten (.settle (.irqMain (.cause (.when
      (.onDrive h) .writeLabel)))))))

theorem Stays.coresGone (h : Stays s t) : Stays s (coresGone t) :=
  .when h .startFailover

theorem Stays.coreStopped {c : CoreId} (h : Stays s t) : Stays s (coreStopped t c) :=
  .coresGone (.mgtAlert (.dbAlert (by
    split
    · exact .irqMain (.observe h)
    · exact .irq (.observe h))))

theorem Stays.stopLane {l : Nat} (h : Stays s t) : Stays s (stopLane t l) :=
  .foldl h fun _ h => by
    split
    · exact .endReq h
    · exact h

theorem Stays.sendBlock {p : Port} {b : LinkBlock} (h : Stays s t) : Stays s (sendBlock t p b) :=
  .onOut h

theorem Stays.retireLanes {p : Port} {lanes : BitVec 2} (h : Stays s t) : Stays s (retireLanes t p lanes) :=
  .ite (.linkDown (.onPort h)) (.ite (.sendBlock (.onPort (.onPort h))) (.onPort h))

theorem Stays.fitCache (h : Stays s t) : Stays s (fitCache t) :=
  .foldl (.onHbm h) fun _ h => .evict h

theorem Stays.pcEffects {u : Nat} {new : UState} (h : Stays s t) : Stays s (pcEffects t u new) :=
  .when (.fitCache (.onHbm h)) .startFailover

theorem Stays.unitEffects {u : Nat} {new : UState} (h : Stays s t) : Stays s (unitEffects t u new) := by
  unfold Machine.unitEffects
  exact .ite (.ite h (.ite (.stopLane (.purgeLane h)) (.purgeLane h))) (.ite (.pcEffects h) (.ite (.ite (.linkDown (.sendBlock h)) (.ite
      (.onPort h) h)) (.ite (.ite (.dropDrive (.ite (.onPow h) h)) (.ite (.onPow h) h)) (.ite (.ite (.coresGone (.coreUpd h)) h) (.ite (.ite h
          (.digEnd h)) (.ite (.irqMain (.ite h (.endJobs h))) (.ite (.ite h (.sourceLeft h)) (.ite (.startFailover h) h))))))))

theorem Stays.publishEntry {u : Nat} {e : UnitEnt} {version : Nat} (h : Stays s t) : Stays s (publishEntry t u e version) :=
  .cause (.ring (.onUnit h))

theorem Stays.outcomeAt {u : Nat} {how : Nat} {version : Nat} (h : Stays s t) : Stays s (outcomeAt t u how version) :=
  .mgtAlert (.append h)

theorem Stays.finishChange {v : Nat} {st : UState} {lanes : BitVec 2} {reason : Byte} {version : Nat} (h : Stays s t) :
    Stays s (finishChange t v st lanes reason version) := by
  unfold Machine.finishChange
  extract_lets _ s1 s2 s3 s4 s5 s6
  have h1 : Stays s s1 := .setUnit h
  have h2 : Stays s s2 := .onEntry h1
  have h4 : Stays s s4 := .when (.publishEntry h2) .mgtAlert
  have h5 : Stays s s5 := .ite (.retireLanes h4) (.unitEffects h4)
  have h6 : Stays s s6 := .ite (.onUnit h5) h5
  exact .ite (.outcomeAt h6) h6

theorem Stays.changeUnit {u : Nat} {st : UState} {lanes : BitVec 2} {reason : Byte} (h : Stays s t) : Stays s (changeUnit t u st lanes reason) :=
  .ite (.finishChange (.append (.onUnit h))) (.append (.onUnit h))

theorem Stays.entryCommitted {u : Nat} {payload : Bytes} (h : Stays s t) : Stays s (entryCommitted t u payload) := by
  unfold Machine.entryCommitted
  extract_lets _ _
  split
  · exact .ite (.publishEntry h) (.finishChange h)
  · exact h

theorem Stays.mbxApply {w : BitVec 32} (h : Stays s t) : Stays s (mbxApply t w) := by
  unfold Machine.mbxApply
  extract_lets _ _ _ _ s1
  have h1 : Stays s s1 := .onUnit h
  split
  · exact h1
  · exact .ite h1 (.changeUnit (.onUnit h))

theorem Stays.decideUnit {u : Nat} {st : UState} {reason : Byte} (h : Stays s t) : Stays s (decideUnit t u st reason) :=
  .onUnit h

theorem Stays.outcome {u : Nat} {how : Nat} (h : Stays s t) : Stays s (outcome t u how) :=
  .outcomeAt h

theorem Stays.decideObservation {p : Post} (h : Stays s t) : Stays s (decideObservation t p) :=
  .ite (.ite h (.decideUnit h)) (.ite (.ite (.ite (.decideUnit h) (.dbAlert h)) h) (.ite (.ite (.decideUnit h) (.ite (.decideUnit h) (.ite
      (.dbAlert h) h))) h))

theorem Stays.decideProposal {p : Post} (h : Stays s t) : Stays s (decideProposal t p) :=
  .ite (.decideUnit h) (.ite (.decideUnit h) (.ite (.decideUnit h) (.ite (.decideUnit (.onUnit h)) (.outcome h))))

theorem Stays.decideDispute {u : Nat} {data : Post} {mgmt : Post} (h : Stays s t) : Stays s (decideDispute t u data mgmt) :=
  .ite (.decideUnit (.outcome (.decideUnit h))) (.ite (.decideUnit (.outcome (.decideUnit h))) (.ite (.outcome (.decideUnit (.outcome
      (.decideUnit h)))) (.decideUnit (.outcome (.decideUnit h)))))

theorem Stays.processPost {p : Post} (h : Stays s t) : Stays s (processPost t p) := by
  unfold Machine.processPost
  extract_lets _ s1
  have h1 : Stays s s1 := .ite (.onUnit h) (.ite (.onUnit h) h)
  refine .ite (.onUnit h) ?_
  split
  · exact .ite (.decideDispute (.onUnit h1)) (.ite (.decideProposal h1) (.decideObservation h1))
  · exact .ite (.decideProposal h1) (.decideObservation h1)

theorem Stays.rereadUnits (h : Stays s t) : Stays s (rereadUnits t) :=
  .foldl h fun _ h => .processPost h

theorem Stays.nextPost {hook : Bool} (h : Stays s t) : Stays s (nextPost t hook) := by
  unfold Machine.nextPost
  split
  · exact h
  · exact .when (.processPost (.when (.onUnit h) .hookPost)) .rereadUnits

theorem StaysNext.execObservationPost {unit : Nat} {st : BitVec 3} {source : BitVec 2} {reason : BitVec 8} (h : Stays s t) :
    StaysNext s (execObservationPost unit st source reason t) :=
  .done (.when h .post)

end Sys2Proof.Machine
end

section
/-! SUPPORT. What no operation undoes, for each operation of traps, the KEY window, the ledger engine's events, the membership view and the
links. -/

namespace Sys2Proof.Machine

-- One theorem at a time: the check's memory limit leaves no room for a thread for each.
set_option Elab.async false

variable {s t : State}

/-! ### Traps and interrupts -/

theorem Stays.enter {c : CoreId} {intr : Bool} {cause : Nat} {fault : W36} {resume : Nat} {base : Nat} {offset : Nat} (h : Stays s t) :
    Stays s (enter t c intr cause fault resume base offset) := by
  unfold Machine.enter
  exact .coreUpd (.ramPuts h)

theorem Stays.haltCore {c : CoreId} (h : Stays s t) : Stays s (haltCore t c) :=
  .ite h (.coreStopped (.coreUpd h))

theorem Stays.romHandler {c : CoreId} (h : Stays s t) : Stays s (romHandler t c) :=
  .haltCore (.ite h (.observe h))

theorem Stays.trap {c : CoreId} {x2 : TrapInfo} {resume : Nat} (h : Stays s t) : Stays s (trap t c x2 resume) :=
  .ite (.haltCore h) (.ite (.romHandler (.enter (.coreUpd h))) (.enter (.coreUpd h)))

theorem Stays.takeIrq {c : CoreId} {src : Nat} {resume : Nat} (h : Stays s t) : Stays s (takeIrq t c src resume) :=
  .enter h

theorem StaysNext.execInterruptEntry {c : CoreId} (h : Stays s t) : StaysNext s (execInterruptEntry c t) :=
  .done (by
    extract_lets _
    split
    · refine .ite h ?_
      split
      · exact .takeIrq h
      · exact .ite (.takeIrq (.coreUpd h)) h
    · exact h)

theorem Stays.cdcStall {unit : Nat} (h : Stays s t) : Stays s (cdcStall t unit) :=
  .observe (.irqMain (.cause h))

theorem Stays.winStall {c : CoreId} {a : Nat} (h : Stays s t) : Stays s (winStall t c a) :=
  .when h .cdcStall

theorem Stays.winCmd {c : CoreId} {a : Nat} {aOnly : Bool} {f : State → State} (h : Stays s t) (hf : ∀ {u}, Stays s u → Stays s (f u)) :
    Stays s (winCmd t c a aOnly f) :=
  .ite h (.ite (.trap (.winStall h)) (hf h))

/-! ### The KEY window -/

theorem Stays.keyRun {r : KeyRun} (h : Stays s t) : Stays s (keyRun t r) :=
  .onKey h

theorem Stays.keyFail {c : CoreId} {e : Status} (h : Stays s t) : Stays s (keyFail t c e) :=
  .keyRun h

theorem Stays.keyHold {c : CoreId} {v : Nat} (h : Stays s t) : Stays s (keyHold t c v) :=
  .onKey h

theorem Stays.onHandles {c : CoreId} {f : List Handle → List Handle} (h : Stays s t) : Stays s (onHandles t c f) := by
  refine .onKey h ?_
  split
  · exact ⟨rfl, rfl⟩
  · split <;> exact ⟨rfl, rfl⟩

theorem Stays.giveHandle {c : CoreId} {slot : Nat} {gen : Nat} {kind : BitVec 8} (h : Stays s t) : Stays s (giveHandle t c slot gen kind) :=
  .keyRun (.onHandles h)

theorem Stays.dropHandle {r : KeyRun} (h : Stays s t) : Stays s (dropHandle t r) := by
  unfold Machine.dropHandle
  split
  · exact .onHandles h
  · exact h

theorem Stays.keyOpen {c : CoreId} (h : Stays s t) : Stays s (keyOpen t c) := by
  unfold Machine.keyOpen
  split
  · exact .keyFail h
  · exact .ite (.keyFail h) (.giveHandle h)

theorem Stays.keyClose {c : CoreId} (h : Stays s t) : Stays s (keyClose t c) :=
  .ite (.keyRun (.onHandles h)) (.keyFail h)

theorem Stays.keyActive {c : CoreId} {t1 : State} (h : Stays s t) (h1 : Stays s t1) : Stays s (keyActive t c t1) :=
  .ite h1 (.keyFail h)

theorem Stays.storeGive {c : CoreId} {v : Nat} {k : NewKey} {gen : Nat} {origin : Nat} (h : Stays s t) : Stays s (storeGive t c v k gen origin) :=
  .ite (.keyFail h) (.ite (.keyHold h) (.giveHandle (.storeSlot h)))

theorem Stays.keyImport {c : CoreId} (h : Stays s t) : Stays s (keyImport t c) :=
  .keyActive h (by
    split
    · exact .keyFail h
    · split
      · exact .keyFail h
      · exact .storeGive h)

theorem Stays.keyDerive {c : CoreId} (h : Stays s t) : Stays s (keyDerive t c) :=
  .keyActive h (by
    split
    · exact .keyFail h
    · exact .keyFail h
    · split
      · exact .keyFail h
      · exact .storeGive h)

theorem Stays.keyRetire {c : CoreId} (h : Stays s t) : Stays s (keyRetire t c) :=
  .keyActive h (by
    split
    · exact .keyFail h
    · exact .ite (.keyFail h) (.keyRun (.retireSlot h)))

theorem Stays.keyVerify {c : CoreId} (h : Stays s t) : Stays s (keyVerify t c) := by
  unfold Machine.keyVerify
  split
  · exact .keyFail h
  · exact .keyFail h
  · exact .ite (.keyFail h) (.keyRun h)

theorem Stays.keyOut {c : CoreId} {b : Bytes} (h : Stays s t) : Stays s (keyOut t c b) :=
  .keyRun h

theorem Stays.keyMac {c : CoreId} (h : Stays s t) : Stays s (keyMac t c) := by
  unfold Machine.keyMac
  split
  · exact .keyFail h
  · exact .keyFail h
  · exact .keyOut h

theorem Stays.keyWrap {c : CoreId} (h : Stays s t) : Stays s (keyWrap t c) :=
  .keyActive h (by
    split
    · exact .keyFail h
    · exact .keyFail h
    · exact .ite (.keyFail h) (.ite (.keyHold h) (.keyOut (.drew h))))

theorem Stays.keyUnwrap {c : CoreId} (h : Stays s t) : Stays s (keyUnwrap t c) :=
  .keyActive h (by
    split
    · exact .keyFail h
    · exact .keyFail h
    · split
      · exact .ite (.keyFail h) (.storeGive h)
      · exact .keyFail h)

theorem Stays.keyAttest {c : CoreId} (h : Stays s t) : Stays s (keyAttest t c) := by
  unfold Machine.keyAttest
  refine .ite (.keyFail h) ?_
  split
  · exact .keyFail h
  · exact .keyFail h
  · exact .keyOut h

theorem Stays.keyCmd {c : CoreId} {v : Nat} (h : Stays s t) : Stays s (keyCmd t c v) := by
  unfold Machine.keyCmd
  refine .ite h ?_
  refine .ite (.keyFail h) ?_
  split
  · exact .keyOpen h
  · exact .keyClose h
  · exact .keyImport h
  · exact .keyDerive h
  · exact .keyRetire h
  · exact .keyVerify h
  · exact .keyMac h
  · exact .keyWrap h
  · exact .keyUnwrap h
  · exact .keyAttest h
  · exact .keyFail h

theorem StaysNext.execKeyCmdOpen {c : CoreId} (h : Stays s t) : StaysNext s (execKeyCmdOpen c t) :=
  .done (.winCmd h .keyCmd)

theorem StaysNext.execKeyCmdClose {c : CoreId} (h : Stays s t) : StaysNext s (execKeyCmdClose c t) :=
  .done (.winCmd h .keyCmd)

theorem StaysNext.execKeyCmdImport {c : CoreId} (h : Stays s t) : StaysNext s (execKeyCmdImport c t) :=
  .done (.winCmd h .keyCmd)

theorem StaysNext.execKeyCmdDerive {c : CoreId} (h : Stays s t) : StaysNext s (execKeyCmdDerive c t) :=
  .done (.winCmd h .keyCmd)

theorem StaysNext.execKeyCmdRetire {c : CoreId} (h : Stays s t) : StaysNext s (execKeyCmdRetire c t) :=
  .done (.winCmd h .keyCmd)

theorem StaysNext.execKeyCmdVerify {c : CoreId} (h : Stays s t) : StaysNext s (execKeyCmdVerify c t) :=
  .done (.winCmd h .keyCmd)

theorem StaysNext.execKeyCmdMac {c : CoreId} (h : Stays s t) : StaysNext s (execKeyCmdMac c t) :=
  .done (.winCmd h .keyCmd)

theorem StaysNext.execKeyCmdTransportWrap {c : CoreId} (h : Stays s t) : StaysNext s (execKeyCmdTransportWrap c t) :=
  .done (.winCmd h .keyCmd)

theorem StaysNext.execKeyCmdTransportUnwrap {c : CoreId} (h : Stays s t) : StaysNext s (execKeyCmdTransportUnwrap c t) :=
  .done (.winCmd h .keyCmd)

theorem StaysNext.execKeyCmdAttest {c : CoreId} (h : Stays s t) : StaysNext s (execKeyCmdAttest c t) :=
  .done (.winCmd h .keyCmd)

theorem Stays.keyEnd (h : Stays s t) : Stays s (keyEnd t) := by
  unfold Machine.keyEnd
  split
  · exact .ite h (.irqMain (.onKey (.writeStr h)))
  · exact h

theorem StaysNext.execKeyCommandEnd (h : Stays s t) : StaysNext s (execKeyCommandEnd t) :=
  .done (by
    split
    · exact .when h fun h => .keyEnd (.keyCmd (.onKey h))
    · exact .keyEnd h)

theorem Stays.askKey {slot : Nat} {tries : Nat} (h : Stays s t) : Stays s (askKey t slot tries) :=
  .sendTo (.onFab h)

theorem Stays.fabCode {e : Status} (h : Stays s t) : Stays s (fabCode t e) :=
  .onFab h

theorem Stays.unveil (h : Stays s t) : Stays s (unveil t) := by
  unfold Machine.unveil
  exact .onTmp (.onKey (.append (.when h .append)))

theorem Stays.keyAskEnd {slot : Nat} {e : Status} (h : Stays s t) : Stays s (keyAskEnd t slot e) :=
  .ite (.fabCode (.onFab h)) (.ite (.askKey (.fabCode (.onFab h))) (.tryOpen (.unveil (.onFab (.fabCode (.onFab h))))))

theorem Stays.keyAskFail (h : Stays s t) : Stays s (keyAskFail t) := by
  unfold Machine.keyAskFail
  split
  · exact .ite (.askKey h) (.keyAskEnd (.when h .append))
  · exact h

theorem Stays.fromTwin {src : Nat} {f : State → State} (h : Stays s t) (hf : ∀ {u}, Stays s u → Stays s (f u)) : Stays s (fromTwin t src f) :=
  .ite (hf h) (.discardFrame h)

theorem StaysNext.execKeyTransportRequestRx {src : Nat} {slot : Nat} {xfer : BitVec 32} (h : Stays s t) :
    StaysNext s (execKeyTransportRequestRx src slot xfer t) :=
  .done (.fromTwin h fun h => by
    extract_lets _ _ _ s1
    have h1 : Stays s s1 := .onFab (.drew h)
    split
    · exact .ite (.sendTo h1) (.sendTo h)
    · exact .sendTo h)

theorem Stays.keyReceipt {slot : Nat} (h : Stays s t) : Stays s (keyReceipt t slot) := by
  unfold Machine.keyReceipt
  split
  · exact .ite (.keyAskEnd (.sendTo h)) h
  · exact h

theorem Stays.takeDelivery {d : KeyDelivery} (h : Stays s t) : Stays s (takeDelivery t d) := by
  unfold Machine.takeDelivery
  split
  · refine .ite h ?_
    refine .ite (.onFab h) ?_
    split
    · exact .ite (.ite (.keyReceipt (.storeSlot h)) (.storeSlot h)) (.keyAskFail h)
    · exact .keyAskFail h
  · exact h

theorem StaysNext.execKeyTransportDeliverRx {src : Nat} {slot : Nat} {xfer : BitVec 32} {blob : Bytes} (h : Stays s t) :
    StaysNext s (execKeyTransportDeliverRx src slot xfer blob t) :=
  .done (.fromTwin h .takeDelivery)

theorem Stays.keyRecorded (h : Stays s t) : Stays s (keyRecorded t) := by
  unfold Machine.keyRecorded
  extract_lets s1
  have h1 : Stays s s1 := .settleKeys h
  split
  · exact .ite h1 (.takeDelivery (.onFab h1))
  · exact h1

theorem StaysNext.execKeyTransportRefuseRx {src : Nat} {slot : Nat} {xfer : BitVec 32} (h : Stays s t) :
    StaysNext s (execKeyTransportRefuseRx src slot xfer t) :=
  .done (.fromTwin h fun h => by
    split
    · exact .ite (.keyAskEnd h) h
    · exact h)

theorem StaysNext.execKeyTransportReceiptRx {src : Nat} {slot : Nat} {xfer : BitVec 32} (h : Stays s t) :
    StaysNext s (execKeyTransportReceiptRx src slot xfer t) :=
  .done (.fromTwin h fun h => .ite (.onFab h) h)

theorem StaysNext.execKeyTransportTimeout (h : Stays s t) : StaysNext s (execKeyTransportTimeout t) :=
  .done (.ite (.onFab h) (.ite h (.keyAskFail h)))

/-! ### The ledger engine's events -/

theorem Stays.applyRecs {own : Bool} {home : Nat} {first : Option Nat} {rs : List JRec} (h : Stays s t) : Stays s
    (applyRecs t own home first rs) := by
  induction rs generalizing t first with
  | nil => exact h
  | cons r rs ih =>
    unfold Machine.applyRecs
    split
    · exact ih h
    · exact ih (.onLed h)
    · split
      · exact ih (.ite (.addExit (.setEntry h)) (.setEntry h))
      · exact ih h

theorem Stays.setPage {own : Bool} {page : Nat} {es : Tbl LState} (h : Stays s t) : Stays s (setPage t own page es) := by
  unfold Machine.setPage
  exact .onLed h

theorem Stays.mergePage {own : Bool} {page : Nat} {es : Tbl LState} (h : Stays s t) : Stays s (mergePage t own page es) :=
  .setPage h

theorem Stays.resendGroup {home : Nat} {g : Nat} (h : Stays s t) : Stays s (resendGroup t home g) := by
  unfold Machine.resendGroup
  split
  · exact .sendTo h
  · exact h

theorem Stays.offerGroups {its : Nat} (h : Stays s t) : Stays s (offerGroups t its) :=
  .foldl (.sendTo h) fun _ h => .resendGroup h

theorem Stays.passOn {r : Req} (h : Stays s t) : Stays s (passOn t r) := by
  unfold Machine.passOn
  split
  · exact .sendTo (.putReq (.count (.onLane h)))
  · exact .ite (.endVerdict h) (.freeReq (.routeFrame h))

theorem Stays.handedBack {term : Nat} (h : Stays s t) : Stays s (handedBack t term) :=
  .foldl (.ite (.endWait (.irqMain (.cause (.onLed (.onFab (.onView (.recordTerm h))))))) (.irqMain (.cause (.onLed (.onFab (.onView
      (.recordTerm h))))))) fun _ h => by
    split
    · exact .passOn h
    · exact h

theorem Stays.askPages {n : Nat} (h : Stays s t) : Stays s (askPages t n) := by
  induction n generalizing t with
  | zero => exact h
  | succ n ih => exact .ite h (.ite (ih (.sendTo (.onFab h))) (.ite (ih (.sendTo (.onFab h))) h))

theorem Stays.askVoid {own : Bool} {block : Nat} (h : Stays s t) : Stays s (askVoid t own block) :=
  .sendTo (.onFab h)

theorem Stays.tryCopied (h : Stays s t) : Stays s (tryCopied t) :=
  .when h fun h => .startDue (.tryWithdrawn (.irqMain (.flood (.onFab (.onLed h)))))

theorem Stays.discardLedgers {own : Bool} (h : Stays s t) : Stays s (discardLedgers t own) := by
  unfold Machine.discardLedgers
  exact .onLed (.killGroups (.when h .closeLease))

theorem Stays.startCopy {ownToo : Bool} (h : Stays s t) : Stays s (startCopy t ownToo) :=
  .ite h (.tryCopied (.askVoid (.askPages (.when (.flood (.onFab (.discardLedgers h))) .sendTo))))

theorem StaysNext.execGroupTick (h : Stays s t) : StaysNext s (execGroupTick t) :=
  .done (.startDue (.closeGroup (.closeGroup h)))

theorem StaysNext.execJournalBlockWriteDone {d : Nat} {block : Nat} (h : Stays s t) : StaysNext s (execJournalBlockWriteDone d block t) :=
  .done (by
    split
    · exact .ite (.ite (.mirrorWritten (.onLed (.putBlock h))) (.settle (.onLed (.putBlock h)))) h
    · exact h)

theorem StaysNext.execDriveWriteError {d : Nat} (h : Stays s t) : StaysNext s (execDriveWriteError d t) :=
  .done (.when h fun h => .dropDrive (.observe h))

theorem StaysNext.execDriveLost {d : Nat} (h : Stays s t) : StaysNext s (execDriveLost d t) :=
  .done (.when h fun h => .dropDrive (.onDrive (.when h .observe)))

theorem Stays.shadowWork {seq : Nat} (h : Stays s t) : Stays s (shadowWork t seq) := by
  unfold Machine.shadowWork
  extract_lets _
  split
  · exact .ungate h
  · exact h

theorem Stays.takeGroup {own : Bool} {g : Group} (h : Stays s t) : Stays s (takeGroup t own g) := by
  unfold Machine.takeGroup
  extract_lets _ s1 s2
  have h1 : Stays s s1 := .ite h (.shadowWork h)
  have h2 : Stays s s2 := .sealBlock h1
  split
  · exact .ite (.startDue (.rollOwn h2)) (.ite (.startRoll (.onFab (.rollShadow h2))) (.rollShadow h2))
  · exact .applyRecs h2

theorem Stays.drainMirror {own : Bool} {n : Nat} (h : Stays s t) : Stays s (drainMirror t own n) := by
  induction n generalizing t with
  | zero => exact h
  | succ n ih =>
    unfold Machine.drainMirror
    extract_lets home
    split
    · exact ih (.takeGroup (.onLed h))
    · exact h

theorem Stays.firstOfStream {own : Bool} {group : Nat} {tFirst : Nat} (h : Stays s t) : Stays s (firstOfStream t own group tFirst) :=
  .ite (.onLed h) (.ite (.onLed h) h)

theorem StaysNext.execMirrorJournalRx {src : Nat} {epoch : BitVec 4} {group : Nat} {tFirst : Nat} {recs : List JRec} (h : Stays s t) :
    StaysNext s (execMirrorJournalRx src epoch group tFirst recs t) :=
  .done (.when h fun h => .ite (.when (.firstOfStream (by
    split
    · exact .ite (.handedBack h) h
    · exact h)) .sendTo) (.ite (.drainMirror (.takeGroup (.firstOfStream (by
    split
    · exact .ite (.handedBack h) h
    · exact h)))) (.ite (.firstOfStream (by
    split
    · exact .ite (.handedBack h) h
    · exact h)) (.onLed (.firstOfStream (by
    split
    · exact .ite (.handedBack h) h
    · exact h))))))

theorem StaysNext.execGroupAckRx {src : Nat} {epoch : BitVec 4} {group : Nat} (h : Stays s t) : StaysNext s (execGroupAckRx src epoch group t) :=
  .done (.when h fun h => .ite (.trySettle (.settle (.when (.onFab (.onLed (.count h))) fun h => .foldl h fun _ h => .resendGroup h))) (.settle
      (.onLed (.count h))))

theorem StaysNext.execMirrorResendTimeout {group : Nat} (h : Stays s t) : StaysNext s (execMirrorResendTimeout group t) :=
  .done (.when h fun h => by
    split
    · exact .sendTo h
    · exact .ite (.resendGroup h) (.ite (.resendGroup h) h))

theorem StaysNext.execLeaseMirrorRx {src : Nat} {epoch : BitVec 4} {ceiling : Nat} (h : Stays s t) :
    StaysNext s (execLeaseMirrorRx src epoch ceiling t) :=
  .done (.when h fun h => .when (.onLed h) .enqueue)

theorem Stays.leaseMirrorCommitted {payload : Bytes} (h : Stays s t) : Stays s (leaseMirrorCommitted t payload) :=
  .ite h (.when (.sendTo (.onLed h)) fun h => .askPages (.onFab h))

theorem Stays.leaseCommitted {payload : Bytes} (h : Stays s t) : Stays s (leaseCommitted t payload) :=
  .ite h (.tryLease (.when (.onLed h) fun h => .askPages (.onFab h)))

theorem StaysNext.execLeaseAckRx {src : Nat} {epoch : BitVec 4} {ceiling : Nat} (h : Stays s t) : StaysNext s (execLeaseAckRx src epoch ceiling t) :=
  .done (.when h fun h => by
    extract_lets s1
    have h1 : Stays s s1 := .onLed h
    split
    · exact .ite (.tryLease (.onLed h1)) (.ite (.openLease (.onLed h1)) h1)
    · exact .when h1 .enqueue)

theorem StaysNext.execPageRequestRx {src : Nat} {epoch : BitVec 4} {subject : Nat} {page : Nat} (h : Stays s t) :
    StaysNext s (execPageRequestRx src epoch subject page t) :=
  .done (.when h fun h => .ite (.sendTo h) (.sendTo h))

theorem Stays.resumePages (h : Stays s t) : Stays s (resumePages t) :=
  .foldl (.resumeQuery h) fun _ h => by
    split
    · exact .ite (.mintAtLedger h) (.verdictAtLedger h)
    · exact h

theorem StaysNext.execPageRx {src : Nat} {epoch : BitVec 4} {subject : Nat} {page : Nat} {groupEnd : Nat} {entries : Tbl LState} (h : Stays s t) :
    StaysNext s (execPageRx src epoch subject page groupEnd entries t) :=
  .done (.when h fun h => .resumePages (.tryCopied (.askPages (.onFab (.onPage (.cachePage (.applyRecs (.setPage h))))))))

theorem StaysNext.execPageAbsentRx {src : Nat} {epoch : BitVec 4} {subject : Nat} {page : Nat} (h : Stays s t) :
    StaysNext s (execPageAbsentRx src epoch subject page t) :=
  .done (.when h fun h => .ite (.sendTo h) (.onPage h))

theorem StaysNext.execVoidRequestRx {src : Nat} {epoch : BitVec 4} {subject : Nat} {block : Nat} (h : Stays s t) :
    StaysNext s (execVoidRequestRx src epoch subject block t) :=
  .done (.when h .sendTo)

theorem StaysNext.execVoidBlockRx {src : Nat} {epoch : BitVec 4} {subject : Nat} {block : Nat} {ranges : List (Nat × Nat)} (h : Stays s t) :
    StaysNext s (execVoidBlockRx src epoch subject block ranges t) :=
  .done (.when h fun h => .ite (.askVoid (.onLed h)) (.ite (.askVoid (.onLed h)) (.tryCopied (.onFab (.onLed h)))))

theorem StaysNext.execDurabilityTimeout {lane : Nat} {ctx : Nat} (h : Stays s t) : StaysNext s (execDurabilityTimeout lane ctx t) :=
  .done (.ite (.ite (.endWait (.onLed h)) h) (by
    split
    · exact .ite (.endReq h) h
    · exact h))

theorem Stays.askTwin {slot : Nat} (h : Stays s t) : Stays s (askTwin t slot) :=
  .when (.onPage (.foldl h fun _ h => .observe h)) .sendTo

theorem Stays.countRead {d : Nat} {bad : Bool} (h : Stays s t) : Stays s (countRead t d bad) :=
  .when (.onDrive h) fun h => .dropDrive (.observe h)

theorem Stays.putPage {d : Nat} {slot : Nat} {es : Tbl LState} (h : Stays s t) : Stays s (putPage t d slot es) :=
  .nvme (.onDrive h)

theorem Stays.readEnded {slot : Nat} (h : Stays s t) : Stays s (readEnded t slot) :=
  .onPage h

theorem Stays.secondRead {slot : Nat} {d : Nat} (h : Stays s t) : Stays s (execPageReadDone.secondRead t slot d) :=
  .onPage (.when h .nvme)

theorem StaysNext.execPageReadDone {slot : Nat} {d : Nat} {data : Option (Tbl LState)} (h : Stays s t) :
    StaysNext s (execPageReadDone slot d data t) :=
  .done (.when h fun h => by
    extract_lets _ _ s1 _ _ s2 s3
    have h1 : Stays s s1 := .readEnded (.countRead h)
    have h2 : Stays s s2 := .countRead h
    have h3 : Stays s s3 := .countRead h
    split
    · exact .ite (.ite h1 (.resumePages (.ite (.foldl (.onPage (.cachePage (.ite (.mergePage h1) (.setPage h1)))) fun _ h => .putPage h) (.onPage
          (.cachePage (.ite (.mergePage h1) (.setPage h1))))))) (.ite (.foldl (.readEnded h2) fun _ h => .ite (.putPage h) h) (.ite (.secondRead h2)
              (.askTwin h2)))
    · exact .ite (.readEnded h3) (.ite (.secondRead h3) (.askTwin h3)))

theorem StaysNext.execPageMissSecondRead {slot : Nat} (h : Stays s t) : StaysNext s (execPageMissSecondRead slot t) :=
  .done (.when h fun h => .onPage (.nvme h))

theorem StaysNext.execPageMissTimeout {lane : Nat} {ctx : Nat} (h : Stays s t) : StaysNext s (execPageMissTimeout lane ctx t) :=
  .done (.ite (.ite (.endWait h) h) (.inStage h fun _ => .endReq h))

theorem StaysNext.execCheckpointStart (h : Stays s t) : StaysNext s (execCheckpointStart t) :=
  .done (.when h fun h => .ite (.onLed h) (.when h .startCheckpoint))

theorem Stays.writeMeta {d : Nat} {c : Nat} (h : Stays s t) : Stays s (writeMeta t d c) :=
  .onDrive (.foldl (.foldl h fun _ h => .nvme h) fun _ h => .nvme h)

theorem Stays.writeCkpt {d : Nat} {c : Ckpt} (h : Stays s t) : Stays s (writeCkpt t d c) :=
  .nvme (.onDrive h)

theorem Stays.writePages {d : Nat} (h : Stays s t) : Stays s (writePages t d) :=
  .foldl h fun _ h => .putPage h

theorem StaysNext.execCheckpointWritesDone (h : Stays s t) : StaysNext s (execCheckpointWritesDone t) :=
  .done (by
    split
    · exact .ite h (.enqueue (.onLed (.foldl h fun _ h => .writeCkpt (.writeMeta (.writePages h)))))
    · exact h)

theorem Stays.checkpointCommitted (h : Stays s t) : Stays s (checkpointCommitted t) := by
  unfold Machine.checkpointCommitted
  split
  · exact .startDue (.ite (.irqMain (.onLed (.resumeRoll (.foldl (.onLed h) fun _ h => .irqMain (.cause (.writeLabel (.onDrive h))))))) (.resumeRoll
        (.foldl (.onLed h) fun _ h => .irqMain (.cause (.writeLabel (.onDrive h))))))
  · exact h

theorem StaysNext.execVoidRewritePage (h : Stays s t) : StaysNext s (execVoidRewritePage t) :=
  .done (.foldl (.onLed h) fun _ h => .setEntry h)

theorem StaysNext.execResilverCopyDone {d : Nat} (h : Stays s t) : StaysNext s (execResilverCopyDone d t) :=
  .done (by
    split
    · exact .ite (.irqMain (.onDrive h)) h
    · exact h)

theorem Stays.makeQueues {d : Nat} (h : Stays s t) : Stays s (makeQueues t d) :=
  .nvme (.nvme (.onDrive h))

theorem Stays.driveAttach {d : Nat} {id : DriveId} (h : Stays s t) : Stays s (driveAttach t d id) := by
  unfold Machine.driveAttach
  exact .when h fun h => .ite (.when (.irqMain (.onDrive (.nvme (.onDrive h)))) .changeUnit) (.irqMain (.cause (.writeLabel (.onDrive (.nvme
      (.makeQueues (.nvme (.onDrive h))))))))

theorem StaysNext.execDriveAttach {d : Nat} {id : DriveId} (h : Stays s t) : StaysNext s (execDriveAttach d id t) := by
  unfold Machine.execDriveAttach
  exact .done (.driveAttach h)

theorem StaysNext.execDriveLogPoll {d : Nat} {log : SmartLog} (h : Stays s t) : StaysNext s (execDriveLogPoll d log t) :=
  .done (.when h fun h => .onDrive (.nvme h))

theorem StaysNext.execPcRebuildDone {pc : Nat} (h : Stays s t) : StaysNext s (execPcRebuildDone pc t) :=
  .done (.when h fun h => .resumePages (.when (.onHbm (.onLed h)) .changeUnit))

theorem StaysNext.execRollConfirmTimeout (h : Stays s t) : StaysNext s (execRollConfirmTimeout t) :=
  .done (.when h fun h => .ite (.endWait (.onFab h)) (.irqMain (.onFab (.onFab h))))

theorem Stays.rebuildRec {b : JBlock} {a : State × Bool} {r : JRec} (h : Stays s a.1) : Stays s (rebuildRec b a r).1 := by
  unfold Machine.rebuildRec
  extract_lets s1 _
  have h1 : Stays s s1 := h
  split
  · exact h
  · split
    · split
      · exact h
      · exact .addExit h1
    · split
      · exact h1
      · exact .addExit h1

theorem Stays.rebuildOld (h : Stays s t) : Stays s (rebuildOld t) :=
  .onLed (.foldl h fun _ h => .onLed h)

theorem Stays.rebuildBlock {q : Nat} {b : JBlock} (h : Stays s t) : Stays s (rebuildBlock t q b) := by
  unfold Machine.rebuildBlock
  extract_lets a
  have ha : Stays s a.1 := .foldlFst h fun _ h => .rebuildRec h
  exact .ite (.onLed ha) (.onLed ha)

theorem StaysNext.execPassbackRebuildBlock (h : Stays s t) : StaysNext s (execPassbackRebuildBlock t) :=
  .done (by
    split
    · exact .ite (.onLed h) (.ite (.rebuildOld h) (.rebuildBlock h))
    · exact .onLed h)

/-! ### The membership view -/

theorem Stays.askView {p : Port} (h : Stays s t) : Stays s (askView t p) :=
  .sendTo (.onFab h)

theorem Stays.beginJoin {p : Port} (h : Stays s t) : Stays s (beginJoin t p) :=
  .ite h (.askView (.flood h))

theorem Stays.knowAuthority (h : Stays s t) : Stays s (knowAuthority t) :=
  .ite (.startCopy (.onFab h)) (.afterGain (.trySettle (.when (.when (.onFab h) .onLed) .startCopy)))

theorem StaysNext.execPergolaJoinEnd (h : Stays s t) : StaysNext s (execPergolaJoinEnd t) :=
  .done (.when h fun h => .ite (.knowAuthority (.when (.irqMain (.onPow (.onFab h))) .askKey)) (.tryOpen (.onLed (.onView (.when (.irqMain (.onPow
      (.onFab h))) .askKey)))))

theorem StaysNext.execAbstainPeriodEnd (h : Stays s t) : StaysNext s (execAbstainPeriodEnd t) :=
  .done (.when h .onFab)

theorem StaysNext.execViewRequestRx {f : MFrame} (h : Stays s t) : StaysNext s (execViewRequestRx f t) :=
  .done (.when h fun h => .ite (.sendTo h) (.foldl h fun _ h => .sendTo h))

theorem StaysNext.execViewRx {f : MFrame} (h : Stays s t) : StaysNext s (execViewRx f t) :=
  .done (.when h fun h => .ite (.when (.onFab (.foldl (.when h fun h => .ite (.onFab h) (.recordTerm (.onView (.onFab (.onFab h)))))
      fun _ h => .onView h)) .knowAuthority) (.when h fun h => .ite (.onFab h) (.recordTerm (.onView (.onFab (.onFab h))))))

theorem StaysNext.execViewRequestTimeout (h : Stays s t) : StaysNext s (execViewRequestTimeout t) :=
  .done (.when h fun h => by
    split
    · exact .askView h
    · exact h)

theorem Stays.yieldAuthority (h : Stays s t) : Stays s (yieldAuthority t) :=
  .ite h (.startCopy (.onLed (.killGroups (.closeLease (.ite (.endWait (.foldl (.dropTwin (.irqMain (.cause (.onFab h)))) fun _ h => by
    split
    · exact .endReq h
    · exact h)) (.foldl (.dropTwin (.irqMain (.cause (.onFab h)))) fun _ h => by
    split
    · exact .endReq h
    · exact h))))))

theorem StaysNext.execHeartbeatTimer (h : Stays s t) : StaysNext s (execHeartbeatTimer t) :=
  .done (.when h fun h => .foldl h fun _ h => by
    split
    · exact .sendOn h
    · exact .sendTo h)

theorem Stays.resumeHolder (h : Stays s t) : Stays s (resumeHolder t) :=
  .ite (.endWait (.onLed (.onFab h))) (.onLed (.onFab h))

theorem Stays.missedChange {old : Nat} {term : Nat} (h : Stays s t) : Stays s (missedChange t old term) :=
  .ite h (.ite (.handedBack h) (.startCopy (.onFab h)))

theorem StaysNext.execHeartbeatRx {src : Nat} {ownAuth : Bool} {_twinAuth : Bool} {_shadow : Bool} {_dataOpen : Bool} {epoch : BitVec 4} {term : Nat}
    {groupEnd : Nat} (h : Stays s t) :
    StaysNext s (execHeartbeatRx src ownAuth _twinAuth _shadow _dataOpen epoch term groupEnd t) :=
  .done (.when h fun h => by
    extract_lets s1 _ s2 _ s3
    have h1 : Stays s s1 := .onFab h
    have h2 : Stays s s2 := .when h1 .onFab
    have h3 : Stays s s3 := .adopt h2
    split
    · exact .ite (.handedBack h2) (.ite (.resumeHolder h2) h2)
    · exact .when h3 .missedChange)

theorem Stays.startCollect {exclude : Bool} {forOffer : Bool} (h : Stays s t) : Stays s (startCollect t exclude forOffer) := by
  unfold Machine.startCollect
  extract_lets _ _ _ s1
  have h1 : Stays s s1 := .onFab h
  split
  · exact h
  · exact .foldl h1 fun _ h => .sendTo h

theorem StaysNext.execHeartbeatSilence {src : Nat} (h : Stays s t) : StaysNext s (execHeartbeatSilence src t) :=
  .done (.ite (.onFab h) (.when (.when (.when (.onFab h) .startCollect) .startCollect) .startCollect))

theorem StaysNext.execWitnessQueryRx {src : Nat} {excl : Bool} {home : Nat} {term : Nat} (h : Stays s t) :
    StaysNext s (execWitnessQueryRx src excl home term t) :=
  .done (.when h fun h => .sendTo (.onFab h))

theorem StaysNext.execGrantLapse {home : Nat} (h : Stays s t) : StaysNext s (execGrantLapse home t) :=
  .done (.onFab h)

theorem Stays.setCollect {excl : Bool} {c : Option Collect} (h : Stays s t) : Stays s (setCollect t excl c) :=
  .onFab h

theorem StaysNext.execWitnessReplyRx {src : Nat} {excl : Bool} {answer : WAnswer} {home : Nat} {term : Nat} (h : Stays s t) :
    StaysNext s (execWitnessReplyRx src excl answer home term t) :=
  .done (by
    split
    · exact h
    · refine .ite h ?_
      refine .ite (.handedBack h) ?_
      refine .ite h ?_
      extract_lets _ _ s3 s4 _ s5
      have h3 : Stays s s3 := .recordTerm h
      have h4 : Stays s s4 := .onView h3
      have h5 : Stays s s5 := .recordTerm (.setCollect h)
      split
      · exact h
      · exact .ite (.setCollect h) (.ite (.resumeHolder (.flood (.setCollect h4))) (.foldl h5 fun _ h => .sendTo h)))

theorem StaysNext.execDecisionAckRx {f : MFrame} (h : Stays s t) : StaysNext s (execDecisionAckRx f t) :=
  .done (by
    extract_lets _
    split
    · exact h
    · refine .ite h ?_
      extract_lets _
      split
      · exact h
      · exact .ite (.setCollect h) (.ite (.ite (.trySettle (.tryLease (.settle (.excludeTwin h)))) (.setCollect h)) (.ite (.afterGain
            (.takeAuthority h)) (.setCollect h))))

theorem StaysNext.execCollectionTimeout (h : Stays s t) : StaysNext s (execCollectionTimeout t) :=
  .done (.onFab h)

theorem StaysNext.execCollectionRetry (h : Stays s t) : StaysNext s (execCollectionRetry t) :=
  .done (.when (.when (.when h .startCollect) .startCollect) .startCollect)

theorem StaysNext.execJoinRx {f : MFrame} (h : Stays s t) : StaysNext s (execJoinRx f t) :=
  .done (.when h fun h => .when (.when (.floodAgain (.onView (.adopt h))) .missedChange) fun h => .offerGroups (.irqMain (.sendTo (.mirrorOpening
      (.onFab h)))))

theorem StaysNext.execWithdrawRx {f : MFrame} (h : Stays s t) : StaysNext s (execWithdrawRx f t) :=
  .done (.when h fun h => .when (.irqMain (.floodAgain (.onView (.when (.adopt h) .missedChange)))) fun h => .ite (.tryWithdrawn (.onFab h))
      (.trySettle (.tryWithdrawn (.onFab h))))

theorem Stays.ackDecision {k : MKind} {f : MFrame} (h : Stays s t) : Stays s (ackDecision t k f) := by
  unfold Machine.ackDecision
  split
  · exact .ite (.sendTo (.onFab h)) h
  · exact h

theorem Stays.takeoverRx {f : MFrame} (h : Stays s t) : Stays s (takeoverRx f t) :=
  .when h fun h => .ite (.ackDecision h) (.ite h (.ite (.yieldAuthority (.onFab (.floodAgain (.when (.adopt h) .onView)))) (.floodAgain (.when
      (.adopt h) .onView))))

theorem StaysNext.execExcludeRx {f : MFrame} (h : Stays s t) : StaysNext s (execExcludeRx f t) :=
  .done (.when h fun h => .ite (.ackDecision h) (.ite h (.ite (.startCopy (.onFab (.ite (.handedBack (.floodAgain (.when (.adopt h) .onView)))
      (.floodAgain (.when (.adopt h) .onView))))) (.floodAgain (.when (.adopt h) .onView)))))

theorem StaysNext.execShadowCompleteRx {f : MFrame} (h : Stays s t) : StaysNext s (execShadowCompleteRx f t) :=
  .done (.when h fun h => .when (.floodAgain (.onView (.onView (.adopt h)))) fun h => .irqMain (.onLed (.mirrorOpening (.onFab h))))

theorem StaysNext.execHandbackOfferRx {f : MFrame} (h : Stays s t) : StaysNext s (execHandbackOfferRx f t) :=
  .done (.when h fun h => .afterGain (.trySettle (.flood (.sendTo (.irqMain (.cause (.onLed (.closeLease (.onFab (.onView (.recordTerm h)))))))))))

theorem StaysNext.execHandbackAcceptRx {f : MFrame} (h : Stays s t) : StaysNext s (execHandbackAcceptRx f t) :=
  .done (.when h fun h => by
    extract_lets _ s1 s2
    have h1 : Stays s s1 := .ite h (.adopt h)
    have h2 : Stays s s2 := .floodAgain h1
    split
    · exact .ite (.handedBack h2) h2
    · exact .ite (.adopt h2) h2)

theorem StaysNext.execHandbackOfferTimeout (h : Stays s t) : StaysNext s (execHandbackOfferTimeout t) :=
  .done (by
    split
    · exact h
    · exact .ite h (.ite (.resumeHolder h) (.when (.onFab h) .startCollect)))

theorem StaysNext.execRollQueryRx {f : MFrame} (h : Stays s t) : StaysNext s (execRollQueryRx f t) :=
  .done (.when h fun h => .sendTo (.when h .onFab))

theorem Stays.endFab {st : Status} (h : Stays s t) : Stays s (endFab t st) :=
  .irqMain (.onFab h)

theorem StaysNext.execRollConfirmRx {f : MFrame} (h : Stays s t) : StaysNext s (execRollConfirmRx f t) :=
  .done (.when h fun h => .ite (.ite (.startRoll (.onFab h)) (.onFab h)) (.endFab (.onFab h)))

theorem StaysNext.execRollRefuseRx {f : MFrame} (h : Stays s t) : StaysNext s (execRollRefuseRx f t) :=
  .done (.when h fun h => .ite (.endWait (.onFab h)) (.endFab (.onFab h)))

theorem StaysNext.execRollConfirmLapse (h : Stays s t) : StaysNext s (execRollConfirmLapse t) :=
  .done (.onFab h)

theorem StaysNext.execTimePulseTimer (h : Stays s t) : StaysNext s (execTimePulseTimer t) :=
  .done (.foldl h fun _ h => .sendOn h)

theorem StaysNext.execTimePulseRx {p : Port} {_src : Nat} {time : Nat} {unc : Nat} {anchored : Bool} (h : Stays s t) :
    StaysNext s (execTimePulseRx p _src time unc anchored t) :=
  .done (.when h fun h => .when h fun h => .observe (.onFab h))

/-! ### Links -/

theorem Stays.startTraining {p : Port} {echo : Option Nat} (h : Stays s t) : Stays s (startTraining t p echo) :=
  .ite h (.when (.sendBlock (.onPort h)) fun h => .sendBlock (.sendBlock (.drew (.onPort h))))

theorem StaysNext.execLinkTrainStart {p : Port} {echo : Option Nat} (h : Stays s t) : StaysNext s (execLinkTrainStart p echo t) :=
  .done (.startTraining h)

theorem StaysNext.execTrainingPatternDetect {p : Port} {echo : Option Nat} (h : Stays s t) : StaysNext s (execTrainingPatternDetect p echo t) :=
  .done (.when h .startTraining)

theorem StaysNext.execLinkRetryTimer {p : Port} {echo : Option Nat} (h : Stays s t) : StaysNext s (execLinkRetryTimer p echo t) :=
  .done (.startTraining h)

theorem StaysNext.execHelloRx {p : Port} {x1 : Hello} (h : Stays s t) : StaysNext s (execHelloRx p x1 t) :=
  .done (.when h fun h => .ite (.observe (.linkDown h)) (by
    extract_lets s1
    have h1 : Stays s s1 := .onPort h
    split
    · exact h1
    · exact .sendBlock (.onPort h1)))

theorem Stays.rxFail {p : Port} {what : RxFault} (h : Stays s t) : Stays s (rxFail t p what) := by
  unfold Machine.rxFail
  extract_lets s1 s2
  have h1 : Stays s s1 := .sendBlock h
  have h2 : Stays s s2 := .onPort h1
  split
  · exact .when h2 .linkDown
  · exact h1

theorem Stays.rxTurn {p : Port} (h : Stays s t) : Stays s (rxTurn t p) := by
  unfold Machine.rxTurn
  split
  · exact h
  · exact .when h .onPort

theorem Stays.tookFrame {p : Port} {seq : Nat} (h : Stays s t) : Stays s (tookFrame t p seq) :=
  .rxTurn (.onPort h)

theorem Stays.finishRekey {p : Port} {nonce : Bytes} {switchAt : Nat} (h : Stays s t) : Stays s (finishRekey t p nonce switchAt) := by
  unfold Machine.finishRekey
  extract_lets s1
  have h1 : Stays s s1 := .onPort h
  split
  · exact .linkDown h1
  · exact .flushPort (.rxTurn (.onPort h1))

theorem Stays.sendRekey {p : Port} (h : Stays s t) : Stays s (sendRekey t p) :=
  .onPort (.sendBlock (.drew h))

theorem StaysNext.execKeyxRx {p : Port} {mac : Bytes} {nonce : Bytes} {switchAt : Nat} (h : Stays s t) :
    StaysNext s (execKeyxRx p mac nonce switchAt t) :=
  .done (.ite h (.ite (.ite (.linkDown (.onPort h)) (.onPort h)) (.ite (.beginJoin (.sendOn (.when (.irqMain (.onPort h)) .sendOn))) (.ite (.ite
      (.finishRekey h) (.ite (.finishRekey (.sendRekey h)) (.linkDown h))) h))))

theorem StaysNext.execLinkRekey {p : Port} (h : Stays s t) : StaysNext s (execLinkRekey p t) :=
  .done (.when h .sendRekey)

theorem StaysNext.execLinkTrainTimeout {p : Port} (h : Stays s t) : StaysNext s (execLinkTrainTimeout p t) :=
  .done (.when h .linkDown)

theorem StaysNext.execAckTimer {p : Port} (h : Stays s t) : StaysNext s (execAckTimer p t) :=
  .done (.ite (by
    split
    · exact h
    · exact .sendBlock h) h)

theorem StaysNext.execAckRx {p : Port} {linkSeq : Nat} (h : Stays s t) : StaysNext s (execAckRx p linkSeq t) :=
  .done (.when h fun h => .flushPort (.onPort h))

theorem StaysNext.execNakRx {p : Port} {linkSeq : Nat} (h : Stays s t) : StaysNext s (execNakRx p linkSeq t) :=
  .done (.when h fun h => .when (.when (.onPort (.sendAgain h)) .observe) .linkDown)

theorem StaysNext.execLinkAckTimeout {p : Port} (h : Stays s t) : StaysNext s (execLinkAckTimeout p t) :=
  .done (.when h .linkDown)

theorem StaysNext.execFrameCrcGcmFailure {p : Port} {what : RxFault} (h : Stays s t) : StaysNext s (execFrameCrcGcmFailure p what t) :=
  .done (.when h .rxFail)

theorem StaysNext.execDegradeRx {p : Port} {lane : BitVec 1} (h : Stays s t) : StaysNext s (execDegradeRx p lane t) :=
  .done (.when h .onPort)

theorem StaysNext.execLaneRetrainDone {p : Port} (h : Stays s t) : StaysNext s (execLaneRetrainDone p t) :=
  .done (.when h fun h => .flushPort (.sendAgain (.onPort h)))

theorem StaysNext.execLaneRetrainTimeout {p : Port} (h : Stays s t) : StaysNext s (execLaneRetrainTimeout p t) :=
  .done (.when h .linkDown)

theorem StaysNext.execDownRx {p : Port} (h : Stays s t) : StaysNext s (execDownRx p t) :=
  .done (.when h .linkDown)

end Sys2Proof.Machine
end

section
/-! SUPPORT. What no operation undoes, for each operation of the REC and TIME windows, the engine windows, resets, power and tamper responses. -/

namespace Sys2Proof.Machine

-- One theorem at a time: the check's memory limit leaves no room for a thread for each.
set_option Elab.async false

variable {s t : State}

/-! ### The REC and TIME windows -/

theorem Stays.recEnd {st : Status} (h : Stays s t) : Stays s (recEnd t st) :=
  .irqAll (.onStore h)

theorem Stays.recBusy {c : CoreId} {cmd : Nat} (h : Stays s t) : Stays s (recBusy t c cmd) :=
  .onStore h

theorem Stays.recQueue {c : CoreId} {r : Record} (h : Stays s t) : Stays s (recQueue t c r) :=
  .ite (.enqueue h) (.irqAll (.onStore (.enqueue h)))

theorem Stays.recAppend {c : CoreId} (h : Stays s t) : Stays s (recAppend t c) := by
  unfold Machine.recAppend
  extract_lets _ s1
  have h1 : Stays s s1 := .recBusy h
  refine .ite (.recEnd h1) ?_
  refine .ite (.recEnd h1) ?_
  refine .ite (.recEnd h1) ?_
  split
  · exact .recEnd h1
  · refine .ite (.recEnd h1) ?_
    extract_lets _
    split
    · exact .recQueue (.onStore h1)
    · exact .recQueue h1

theorem Stays.recRead {c : CoreId} (h : Stays s t) : Stays s (recRead t c) :=
  .ite (.recEnd (.recBusy h)) (.ite (.recEnd (.recBusy h)) (.recBusy h))

theorem StaysNext.execRecReadDone (h : Stays s t) : StaysNext s (execRecReadDone t) :=
  .done (.when h fun h => by
    extract_lets _
    split
    · exact .recEnd (.onStore h)
    · exact .ite (.recEnd (.writeStr (.onStore h))) (.recEnd (.writeStr (.writeStr (.onStore h)))))

theorem Stays.recBegin {c : CoreId} {parts : Nat} (h : Stays s t) : Stays s (recBegin t c parts) :=
  .ite (.recEnd (.recBusy h)) (.ite (.recEnd (.recBusy h)) (.ite (.recEnd (.recBusy h)) (.recQueue (.openTx (.recBusy h)))))

theorem Stays.rollBack {key : Nat} (h : Stays s t) : Stays s (rollBack t key) := by
  unfold Machine.rollBack
  split
  · exact .onStore (.killRecs h)
  · exact h

theorem Stays.recAbort {c : CoreId} (h : Stays s t) : Stays s (recAbort t c) :=
  .ite (.recEnd (.recBusy h)) (.ite (.recEnd (.recBusy h)) (.recEnd (.rollBack (.recBusy h))))

theorem Stays.recHotWrite {c : CoreId} (h : Stays s t) : Stays s (recHotWrite t c) := by
  unfold Machine.recHotWrite
  extract_lets _ s1 _ _ _
  have h1 : Stays s s1 := .recBusy h
  refine .ite (.recEnd h1) ?_
  split
  · exact .recEnd h1
  · refine .ite (.recEnd h1) ?_
    refine .ite (.recEnd h1) ?_
    refine .ite (.recEnd h1) ?_
    split
    · exact .recEnd h1
    · exact .recEnd (.foldl h1 fun _ h => .hotPut h)

theorem Stays.recHotRead {c : CoreId} (h : Stays s t) : Stays s (recHotRead t c) := by
  unfold Machine.recHotRead
  extract_lets _ s1 _
  have h1 : Stays s s1 := .recBusy h
  refine .ite (.recEnd h1) ?_
  split
  · exact .recEnd h1
  · exact .recEnd (.writeStr h1)

theorem Stays.recCmd {c : CoreId} {v : BitVec 32} (h : Stays s t) : Stays s (recCmd t c v) := by
  unfold Machine.recCmd
  extract_lets _ x1
  refine .ite h ?_
  refine .ite (.recEnd (.recBusy h)) ?_
  clear_value x1
  split
  · exact .recAppend h
  · exact .recRead h
  · exact .recBegin h
  · exact .recAbort h
  · exact .recHotWrite h
  · exact .recHotRead h
  · exact .recEnd (.recBusy h)

theorem StaysNext.execRecAppend {c : CoreId} (h : Stays s t) : StaysNext s (execRecAppend c t) :=
  .done (.winCmd h .recCmd)

theorem StaysNext.execRecRead {c : CoreId} (h : Stays s t) : StaysNext s (execRecRead c t) :=
  .done (.winCmd h .recCmd)

theorem StaysNext.execRecBeginTx {c : CoreId} {parts : BitVec 4} (h : Stays s t) : StaysNext s (execRecBeginTx c parts t) :=
  .done (.winCmd h .recCmd)

theorem StaysNext.execRecAbortTx {c : CoreId} (h : Stays s t) : StaysNext s (execRecAbortTx c t) :=
  .done (.winCmd h .recCmd)

theorem StaysNext.execRecHotWrite {c : CoreId} (h : Stays s t) : StaysNext s (execRecHotWrite c t) :=
  .done (.winCmd h .recCmd)

theorem StaysNext.execRecHotRead {c : CoreId} (h : Stays s t) : StaysNext s (execRecHotRead c t) :=
  .done (.winCmd h .recCmd)

theorem StaysNext.execSectorEraseDone {sector : Nat} (h : Stays s t) : StaysNext s (execSectorEraseDone sector t) :=
  .done (.when h .eraseSector)

theorem StaysNext.execSectorRefresh {sector : Nat} (h : Stays s t) : StaysNext s (execSectorRefresh sector t) :=
  .done (.when h .releaseSector)

theorem Stays.timeCmd {c : CoreId} {v : Nat} (h : Stays s t) : Stays s (timeCmd t c v) := by
  unfold Machine.timeCmd
  refine .ite h ?_
  extract_lets _ _
  refine .ite (.onTime h) ?_
  refine .ite (.onTime h) ?_
  split
  · exact .onTime h
  · split
    · exact .onTime h
    · exact .onTime (.acceptVoucher h)

theorem StaysNext.execTimeVoucherSubmit {c : CoreId} (h : Stays s t) : StaysNext s (execTimeVoucherSubmit c t) :=
  .done (.winCmd h .timeCmd)

theorem StaysNext.execTimeCommandEnd (h : Stays s t) : StaysNext s (execTimeCommandEnd t) :=
  .done (.when h fun h => .irqAll (.onTime h))

theorem StaysNext.execTimeMirrorUpdate (h : Stays s t) : StaysNext s (execTimeMirrorUpdate t) :=
  .done (.onPow (.when h .mirrorTime))

theorem Stays.timeNowLow {c : CoreId} (h : Stays s t) : Stays s (timeNowLow t c).2 := by
  unfold Machine.timeNowLow
  with_reducible exact .onTime h

/-! ### The engine windows -/

theorem StaysNext.execDigStart {c : CoreId} {value : BitVec 32} (h : Stays s t) : StaysNext s (execDigStart c value t) :=
  .done (.winCmd h .digBegin)

theorem StaysNext.execDigUpdate {c : CoreId} (h : Stays s t) : StaysNext s (execDigUpdate c t) :=
  .done (.winCmd h .digAbsorb)

theorem StaysNext.execDigFinish {c : CoreId} {value : BitVec 32} (h : Stays s t) : StaysNext s (execDigFinish c value t) :=
  .done (.winCmd h .digClose)

theorem StaysNext.execDigAbort {c : CoreId} (h : Stays s t) : StaysNext s (execDigAbort c t) :=
  .done (.winCmd h .digAbandon)

theorem StaysNext.execRngGenerate {c : CoreId} (h : Stays s t) : StaysNext s (execRngGenerate c t) :=
  .done (.winCmd h .rngCmd)

theorem StaysNext.execRngGenerateFresh {c : CoreId} (h : Stays s t) : StaysNext s (execRngGenerateFresh c t) :=
  .done (.winCmd h .rngCmd)

theorem StaysNext.execRngSelect {c : CoreId} {value : BitVec 32} (h : Stays s t) : StaysNext s (execRngSelect c value t) :=
  .done (.winCmd h .rngSelect)

theorem StaysNext.execRngTest {c : CoreId} {value : BitVec 32} (h : Stays s t) : StaysNext s (execRngTest c value t) :=
  .done (.winCmd h .rngTest)

theorem StaysNext.execNoiseRetestTimer {source : Nat} (h : Stays s t) : StaysNext s (execNoiseRetestTimer source t) :=
  .done (.when h fun h => .rngTest (.changeUnit h))

theorem Stays.ledStart (h : Stays s t) : Stays s (ledStart t) :=
  .onLed h

theorem Stays.ledFail {e : Status} (h : Stays s t) : Stays s (ledFail t e) :=
  .onLed h

theorem Stays.ledRoll (h : Stays s t) : Stays s (ledRoll t) :=
  .ite (.ledFail h) (.startRoll (.setWait h))

theorem Stays.ledCmd {v : Nat} (h : Stays s t) : Stays s (ledCmd t v) := by
  unfold Machine.ledCmd
  refine .ite h ?_
  extract_lets s1
  have h1 : Stays s s1 := .ledStart h
  split
  · split
    · exact .ledFail h1
    · exact .startQuery h1
  · split
    · exact .ledFail h1
    next u7 e7 =>
      exact (StaysOk.startVoid h1).get e7
  · exact .ledRoll h1
  · exact .startCheckpoint (.onLed h1)
  · exact .ledFail h1

theorem StaysNext.execLedQuery {c : CoreId} (h : Stays s t) : StaysNext s (execLedQuery c t) :=
  .done (.winCmd h .ledCmd)

theorem StaysNext.execLedVoid {c : CoreId} (h : Stays s t) : StaysNext s (execLedVoid c t) :=
  .done (.winCmd h .ledCmd)

theorem StaysNext.execLedRoll {c : CoreId} (h : Stays s t) : StaysNext s (execLedRoll c t) :=
  .done (.winCmd h .ledCmd)

theorem StaysNext.execLedCheckpoint {c : CoreId} (h : Stays s t) : StaysNext s (execLedCheckpoint c t) :=
  .done (.winCmd h .ledCmd)

theorem StaysNext.execLedCommandEnd (h : Stays s t) : StaysNext s (execLedCommandEnd t) :=
  .done (.ite h (.ite (.ite h (.irqMain (.onLed h))) (.ite (.applyVoid h) (.ite (.resumeRoll (.releaseCtl h)) h))))

theorem Stays.onLaneSt {l : Nat} {f : LaneSt → LaneSt} (h : Stays s t) : Stays s (onLaneSt t l f) :=
  .onLane h

theorem Stays.laneTest {l : Nat} (h : Stays s t) : Stays s (laneTest t l) :=
  .when h .onLaneSt

theorem StaysNext.execLaneSelftest {c : CoreId} {lane : Nat} (h : Stays s t) : StaysNext s (execLaneSelftest c lane t) :=
  .done (.winCmd h .laneTest)

theorem StaysNext.execLaneSelftestDone {lane : Nat} {pass : Bool} {syndrome : BitVec 32} (h : Stays s t) :
    StaysNext s (execLaneSelftestDone lane pass syndrome t) :=
  .done (.when h fun h => .ite (.observe (.onLaneSt h)) (.observe (.onLaneSt h)))

theorem StaysNext.execLanePurge {c : CoreId} {lane : Nat} (h : Stays s t) : StaysNext s (execLanePurge c lane t) :=
  .done (.winCmd h .purgeLane)

theorem Stays.ctlFetch {c : CoreId} {entry : Bytes} (h : Stays s t) : Stays s (ctlFetch t c entry) :=
  .ite h (.writeStr (.fetchCtl h))

theorem StaysNext.execHqCtlFetch {c : CoreId} {entry : Bytes} (h : Stays s t) : StaysNext s (execHqCtlFetch c entry t) :=
  .done (.winCmd h .ctlFetch)

theorem Stays.ctlComplete {c : CoreId} {hook : Bool} (h : Stays s t) : Stays s (ctlComplete t c hook) := by
  unfold Machine.ctlComplete
  split
  · exact .when (.complete (.onHq h)) .hookAfter
  · exact h

theorem StaysNext.execHqCtlComplete {c : CoreId} (h : Stays s t) : StaysNext s (execHqCtlComplete c t) :=
  .done (.winCmd h .ctlComplete)

theorem Stays.dmaStart {toHost : Bool} (h : Stays s t) : Stays s (dmaStart t toHost) :=
  .onHq h

theorem Stays.dmaIn {c : CoreId} {b : Bytes} (h : Stays s t) : Stays s (dmaIn t c b) :=
  .ite h (.ite (.dmaStart h) (.writeStr (.dmaStart h)))

theorem Stays.dmaOut {c : CoreId} (h : Stays s t) : Stays s (dmaOut t c) := by
  unfold Machine.dmaOut
  refine .ite h ?_
  extract_lets s1
  have h1 : Stays s s1 := .dmaStart h
  refine .ite h1 ?_
  split
  · exact .onOut h1
  · exact .onHq h1

theorem StaysNext.execHqDmaHostToLocal {c : CoreId} {bytes : Bytes} (h : Stays s t) : StaysNext s (execHqDmaHostToLocal c bytes t) :=
  .done (.winCmd h .dmaIn)

theorem StaysNext.execHqDmaLocalToHost {c : CoreId} (h : Stays s t) : StaysNext s (execHqDmaLocalToHost c t) :=
  .done (.winCmd h .dmaOut)

theorem StaysNext.execHqDmaDone {ok : Bool} (h : Stays s t) : StaysNext s (execHqDmaDone ok t) :=
  .done (.when h .onHq)

theorem Stays.planePause (h : Stays s t) : Stays s (planePause t) :=
  .when h .pausePlane

theorem StaysNext.execHqPlanePause {c : CoreId} (h : Stays s t) : StaysNext s (execHqPlanePause c t) :=
  .done (.winCmd h .planePause)

theorem Stays.hqBind {v : BitVec 32} (h : Stays s t) : Stays s (hqBind t v) :=
  .when h .bindRing

theorem StaysNext.execHqBind {c : CoreId} {value : BitVec 32} (h : Stays s t) : StaysNext s (execHqBind c value t) :=
  .done (.winCmd h .hqBind)

theorem Stays.hbmPublish (h : Stays s t) : Stays s (hbmPublish t) :=
  .when h .onHbm

theorem StaysNext.execHbmPublish {c : CoreId} (h : Stays s t) : StaysNext s (execHbmPublish c t) :=
  .done (.winCmd h .hbmPublish)

theorem Stays.pubEnd (h : Stays s t) : Stays s (pubEnd t) := by
  unfold Machine.pubEnd
  split
  · exact .ite h (.irqMain (.onHbm h))
  · exact h

theorem StaysNext.execHbmPublishEnd (h : Stays s t) : StaysNext s (execHbmPublishEnd t) :=
  .done (.endPublishes (.pubEnd h))

theorem Stays.fabStart (h : Stays s t) : Stays s (fabStart t) :=
  .onFab h

theorem Stays.fabKeyRequest (h : Stays s t) : Stays s (fabKeyRequest t) :=
  .ite (.fabCode h) (.ite (.askKey h) (.fabCode h))

theorem Stays.fabRollQuery (h : Stays s t) : Stays s (fabRollQuery t) :=
  .ite (.fabCode h) (.sendTo (.onFab h))

theorem Stays.fabCmd {v : Nat} (h : Stays s t) : Stays s (fabCmd t v) := by
  unfold Machine.fabCmd
  refine .ite h ?_
  extract_lets s1
  have h1 : Stays s s1 := .fabStart h
  split
  · split
    · exact .fabCode h1
    · exact .startHandBack h1
  · exact .withdraw h1
  · exact .fabKeyRequest h1
  · exact .fabRollQuery h1
  · exact .fabCode h1

theorem StaysNext.execFabCmdHandBack {c : CoreId} (h : Stays s t) : StaysNext s (execFabCmdHandBack c t) :=
  .done (.winCmd h .fabCmd)

theorem StaysNext.execFabCmdWithdraw {c : CoreId} (h : Stays s t) : StaysNext s (execFabCmdWithdraw c t) :=
  .done (.winCmd h .fabCmd)

theorem StaysNext.execFabCmdKeyRequest {c : CoreId} (h : Stays s t) : StaysNext s (execFabCmdKeyRequest c t) :=
  .done (.winCmd h .fabCmd)

theorem StaysNext.execFabCmdRollQuery {c : CoreId} (h : Stays s t) : StaysNext s (execFabCmdRollQuery c t) :=
  .done (.winCmd h .fabCmd)

theorem StaysNext.execFabCommandEnd (h : Stays s t) : StaysNext s (execFabCommandEnd t) :=
  .done (.when h .endFab)

theorem Stays.nvmeAttach {d : Nat} (h : Stays s t) : Stays s (nvmeAttach t d) :=
  .when h .onDrive

theorem Stays.nvmeCmd {v : BitVec 32} (h : Stays s t) : Stays s (nvmeCmd t v) := by
  unfold Machine.nvmeCmd
  extract_lets _
  refine .ite h ?_
  split
  · exact .nvmeAttach h
  · exact .dropDrive h
  · exact h

theorem StaysNext.execNvmeAttachResilver {c : CoreId} {d : Nat} (h : Stays s t) : StaysNext s (execNvmeAttachResilver c d t) :=
  .done (.when h fun h => .winCmd h .nvmeCmd)

theorem StaysNext.execNvmeRetire {c : CoreId} {d : Nat} (h : Stays s t) : StaysNext s (execNvmeRetire c d t) :=
  .done (.when h fun h => .winCmd h .nvmeCmd)

theorem StaysNext.execMbxPostNext {c : CoreId} (h : Stays s t) : StaysNext s (execMbxPostNext c t) :=
  .done (.winCmd h .nextPost)

theorem Stays.postSelf {w : BitVec 32} (h : Stays s t) : Stays s (postSelf t w) :=
  .post h

theorem StaysNext.execMbxPostSelf {c : CoreId} {word : BitVec 32} (h : Stays s t) : StaysNext s (execMbxPostSelf c word t) :=
  .done (.winCmd h .postSelf)

theorem Stays.mbxApplyCmd {w : BitVec 32} (h : Stays s t) : Stays s (mbxApplyCmd t w) :=
  .when h .mbxApply

theorem StaysNext.execMbxApply {c : CoreId} {word : BitVec 32} (h : Stays s t) : StaysNext s (execMbxApply c word t) :=
  .done (.winCmd h .mbxApplyCmd)

theorem Stays.doorbell {v : BitVec 32} (h : Stays s t) : Stays s (doorbell t v) :=
  .when (.when h fun h => .cause (.ring h)) .dbAlert

theorem StaysNext.execMbxDoorbellTable {c : CoreId} (h : Stays s t) : StaysNext s (execMbxDoorbellTable c t) :=
  .done (.winCmd h .doorbell)

theorem StaysNext.execMbxDoorbellAlert {c : CoreId} (h : Stays s t) : StaysNext s (execMbxDoorbellAlert c t) :=
  .done (.winCmd h .doorbell)

theorem Stays.irqClear {c : CoreId} {mask : BitVec 32} {setNow : BitVec 32} (h : Stays s t) : Stays s (irqClear t c mask setNow) :=
  .onUnit h

theorem StaysNext.execMbxIrqPendingClear {c : CoreId} {mask : BitVec 32} {setNow : BitVec 32} (h : Stays s t) :
    StaysNext s (execMbxIrqPendingClear c mask setNow t) :=
  .done (.winCmd h .irqClear)

theorem StaysNext.execTimerMatch {c : CoreId} (h : Stays s t) : StaysNext s (execTimerMatch c t) :=
  .done (.when h fun h => .irq (.hookPeriodic h))

theorem Stays.onPeerMail {c : CoreId} {f : Mail → Mail} (h : Stays s t) : Stays s (onPeerMail t c f) :=
  .onUnit h (by cases c <;> rfl)

theorem Stays.onGateMail {c : CoreId} {f : Mail → Mail} (h : Stays s t) : Stays s (onGateMail t c f) :=
  .onUnit h (by cases c <;> rfl)

theorem Stays.peerSend {c : CoreId} {count : Nat} (h : Stays s t) : Stays s (peerSend t c count) :=
  .when h fun h => .irq (.onPeerMail (.onPeerMail h))

theorem StaysNext.execMbxPeerSend {c : CoreId} {count : Nat} (h : Stays s t) : StaysNext s (execMbxPeerSend c count t) :=
  .done (.winCmd h .peerSend)

theorem Stays.peerAck {c : CoreId} (h : Stays s t) : Stays s (peerAck t c) :=
  .when (.onPeerMail h) fun h => .irq (.onPeerMail h)

theorem StaysNext.execMbxPeerAck {c : CoreId} (h : Stays s t) : StaysNext s (execMbxPeerAck c t) :=
  .done (.winCmd h .peerAck)

theorem Stays.gateIrq {c : CoreId} (h : Stays s t) : Stays s (gateIrq t c) :=
  .ite (.irq h) (.irqMain h)

theorem Stays.gateSend {c : CoreId} {count : Nat} (h : Stays s t) : Stays s (gateSend t c count) :=
  .when h fun h => .gateIrq (.onGateMail (.onGateMail h))

theorem StaysNext.execMbxGSend {c : CoreId} {count : Nat} (h : Stays s t) : StaysNext s (execMbxGSend c count t) :=
  .done (.winCmd h .gateSend)

theorem Stays.gateAck {c : CoreId} (h : Stays s t) : Stays s (gateAck t c) := by
  unfold Machine.gateAck
  exact .when (.onGateMail h) fun h => .gateIrq (.onGateMail h)

theorem StaysNext.execMbxGAck {c : CoreId} (h : Stays s t) : StaysNext s (execMbxGAck c t) := by
  unfold Machine.execMbxGAck
  exact .done (.winCmd h .gateAck)

theorem Stays.gotWord {p : W36 × State} (h : Stays s p.2) : Stays s (gotWord p) :=
  .onCore h

theorem StaysNext.execMeasWord0Read {c : CoreId} {n : Nat} (h : Stays s t) : StaysNext s (execMeasWord0Read c n t) :=
  .done (.winCmd h fun h => .gotWord (.measWord h))

theorem StaysNext.execTimeNowLowRead {c : CoreId} (h : Stays s t) : StaysNext s (execTimeNowLowRead c t) :=
  .done (.winCmd h fun h => .gotWord (.timeNowLow h))

theorem Stays.earlyRead {c : CoreId} {a : ResultWin} (h : Stays s t) : Stays s (earlyRead t c a) := by
  unfold Machine.earlyRead
  split
  · exact .onKey h
  · exact .digUpd h
  · exact .onLed h
  · exact h
  · exact .onRng h

theorem StaysNext.execResultEarlyRead {c : CoreId} {w : ResultWin} (h : Stays s t) : StaysNext s (execResultEarlyRead c w t) :=
  .done (.winCmd h fun h => .when h fun h => .gotWord (.earlyRead h))

/-! ### Roles, resets and power states -/

theorem Stays.coreReset {c : CoreId} (h : Stays s t) : Stays s (coreReset t c) :=
  .ite (.onGateMail (.onGateMail (.onUnit (.coreUpd (.rollBack (.onHandles (.rngUpd (.when h .digEnd)))))))) (.when (.onPeerMail (.onPeerMail (.onUnit
      (.coreUpd (.rollBack (.onHandles (.rngUpd (.when h .digEnd)))))))) fun h => .onUnit (.onDig h))

theorem Stays.adoptAbandon (h : Stays s t) : Stays s (adoptAbandon t) :=
  .ite h (.mgtAlert (.onMgt (.onUnit (.append h))))

theorem Stays.mainReset (h : Stays s t) : Stays s (mainReset t) := by
  unfold Machine.mainReset
  exact .onPow (.onUnit (.onKey (.onTime (.onCore (.onTele (.onRng (.onDig (.onFab (.onDrives (.onLed (.onHbm (.onLane (.onHq (.rollBack (.rollBack
      (.rollBack (.rollBack (.adoptAbandon (.when h .onMgt)))))))))))))))))))

theorem Stays.standbyReset (h : Stays s t) : Stays s (standbyReset t) := by
  unfold Machine.standbyReset
  exact .onMgt (.onKey (.onTime (.onStore (.coreReset h))))

theorem Stays.moveRole {c : CoreId} (h : Stays s t) : Stays s (moveRole t c) :=
  .ite (.onUnit (.onDig (.foldl (.onUnit h) fun _ h => by
    split
    · exact .extend h
    · exact h))) (.onUnit h)

theorem Stays.roleRefuse {c : CoreId} (h : Stays s t) : Stays s (roleRefuse t c) :=
  .onUnit h (by cases c <;> rfl)

theorem Stays.roleOk {c : CoreId} (h : Stays s t) : Stays s (roleOk t c) :=
  .onUnit h (by cases c <;> rfl)

theorem Stays.handedOver (h : Stays s t) : Stays s (handedOver t) :=
  .cause (.ring h)

theorem Stays.applyRecords (h : Stays s t) : Stays s (applyRecords t) :=
  .foldl h fun _ h => by
    split
    · extract_lets _ _ _
      split
      · exact .when h .finishChange
      · exact h
    · exact h

theorem Stays.roleGive {c : CoreId} (h : Stays s t) : Stays s (roleGive t c) :=
  .ite h (.ite (.roleRefuse h) (.ite (.handedOver (.moveRole (.roleOk h))) (.roleRefuse (.onUnit h))))

theorem Stays.roleTake {c : CoreId} (h : Stays s t) : Stays s (roleTake t c) :=
  .ite h (.ite (.roleRefuse h) (.ite (.handedOver (.moveRole (.roleOk h))) (.endCtl (.applyRecords (.moveRole (.roleOk h))))))

theorem Stays.pwrRole {c : CoreId} {v : BitVec 32} (h : Stays s t) : Stays s (pwrRole t c v) := by
  unfold Machine.pwrRole
  split
  · exact .roleGive h
  · exact .roleTake h
  · exact h

theorem StaysNext.execPwrRoleGive {c : CoreId} (h : Stays s t) : StaysNext s (execPwrRoleGive c t) :=
  .done (.winCmd h .pwrRole)

theorem StaysNext.execPwrRoleTake {c : CoreId} (h : Stays s t) : StaysNext s (execPwrRoleTake c t) :=
  .done (.winCmd h .pwrRole)

theorem Stays.wdogWrite {c : CoreId} (h : Stays s t) : Stays s (wdogWrite t c) :=
  .coreUpd h

theorem StaysNext.execPwrWdog {c : CoreId} (h : Stays s t) : StaysNext s (execPwrWdog c t) :=
  .done (.winCmd h .wdogWrite)

theorem StaysNext.execWatchdogExpire {c : CoreId} (h : Stays s t) : StaysNext s (execWatchdogExpire c t) :=
  .done (.when h fun h => .ite (.coreUpd h) (.coreStopped (.coreUpd (.coreReset h))))

theorem Stays.peerReset {c : CoreId} {v : BitVec 32} (h : Stays s t) : Stays s (peerReset t c v) :=
  .ite h (.ite (.onUnit (.coreUpd (.coreReset h))) (.coreUpd (.coreReset h)))

theorem StaysNext.execPwrPeerReset {c : CoreId} {value : BitVec 32} (h : Stays s t) : StaysNext s (execPwrPeerReset c value t) :=
  .done (.winCmd h .peerReset)

theorem StaysNext.execCoreReset {c : CoreId} (h : Stays s t) : StaysNext s (execCoreReset c t) :=
  .done (.when h .coreReset)

theorem Stays.idLoad {c : CoreId} {w : BitVec 14} (h : Stays s t) : Stays s (idLoad t c w) :=
  .coreUpd h

theorem StaysNext.execIdLoad {c : CoreId} {word : BitVec 14} (h : Stays s t) : StaysNext s (execIdLoad c word t) :=
  .done (.winCmd h .idLoad)

theorem Stays.mainStart (h : Stays s t) : Stays s (mainStart t) :=
  .when h .onPow

theorem StaysNext.execMainPgoodFall (h : Stays s t) : StaysNext s (execMainPgoodFall t) := by
  unfold Machine.execMainPgoodFall
  exact .done (.when h fun h => .onPow (.mainReset h))

theorem StaysNext.execMainPgoodLowTimeout (h : Stays s t) : StaysNext s (execMainPgoodLowTimeout t) :=
  .done (.when h .onPow)

theorem Stays.tearAt {r : Record} {n : Nat} (h : Stays s t) : Stays s (tearAt t r n) := by
  unfold Machine.tearAt
  exact .onStore (.progPage (.progPages h))

theorem Stays.tearHead (h : Stays s t) : Stays s (tearHead t) := by
  unfold Machine.tearHead
  split
  · refine .ite ?_ h
    split
    next u2 _ e2 =>
      exact .onStore (.ite (.onStore (.progPages ((StaysPlace.placeIn h).get e2))) (.tearAt ((StaysPlace.placeIn h).get e2)))
    · exact h
  · exact h

theorem Stays.killStopped (h : Stays s t) : Stays s (killStopped t) := by
  unfold Machine.killStopped
  split
  · refine .ite ?_ h
    split
    next u2 _ e2 =>
      exact .onStore (.progMark (.progPages ((StaysPlace.placeIn h).get e2)))
    · exact h
  · exact h

theorem StaysNext.execSysReset (h : Stays s t) : StaysNext s (execSysReset t) := by
  unfold Machine.execSysReset
  exact .done (.when h fun h => .onPow (.standbyReset (.mainReset (.tearHead h))))

theorem StaysNext.execPciePerst {rising : Bool} (h : Stays s t) : StaysNext s (execPciePerst rising t) :=
  .done (.ite (.when (.when h .ring) .onHq) (.when h fun h => .irqMain (.onHq (.resetFunction h))))

theorem Stays.resumeAppends (h : Stays s t) : Stays s (resumeAppends t) :=
  .ctlGo (.beginHead (.onStore (.killStopped (.finishSave h))))

theorem Stays.disarmRails (h : Stays s t) : Stays s (disarmRails t) :=
  .onTmp h

theorem StaysNext.execPwrfailAssert (h : Stays s t) : StaysNext s (execPwrfailAssert t) :=
  .done (.when h fun h => .irqAll (.startSave (.disarmRails (.onPow h))))

theorem StaysNext.execVstbyWarning (h : Stays s t) : StaysNext s (execVstbyWarning t) :=
  .done (.when h fun h => .irqAll (.startSave (.onStore (.onPow h))))

theorem StaysNext.execPwrfailPause (h : Stays s t) : StaysNext s (execPwrfailPause t) :=
  .done (.when h fun h => .closeGroup (.closeGroup (.pausePlane (.onLed (.onHq h)))))

theorem Stays.resumePlane (h : Stays s t) : Stays s (resumePlane t) :=
  .cause (.onLed (.onHq h))

theorem StaysNext.execPwrfailReopen (h : Stays s t) : StaysNext s (execPwrfailReopen t) :=
  .done (.when h .resumePlane)

theorem StaysNext.execPwrfailDeassert (h : Stays s t) : StaysNext s (execPwrfailDeassert t) :=
  .done (.when h fun h => .when (.onPow h) .resumeAppends)

theorem StaysNext.execVstbyEnterWindow (h : Stays s t) : StaysNext s (execVstbyEnterWindow t) :=
  .done (.when h fun h => .ite (.when (.onPow h) .resumeAppends) (.onPow (.onPow h)))

theorem Stays.tornHead (h : Stays s t) : Stays s (tornHead t) := by
  unfold Machine.tornHead
  split
  · exact .ite (.getD (StaysSome.commitRec h) h) (.tearHead h)
  · exact h

theorem Stays.standbyStop (h : Stays s t) : Stays s (standbyStop t) := by
  unfold Machine.standbyStop
  exact .onPow (.onTmp (.onMgt (.onDig (.onUnit (.onKey (.onStore (.standbyReset (.mainReset (.when (.tornHead h) .finishSave)))))))))

theorem StaysNext.execStandbyDomainStop (h : Stays s t) : StaysNext s (execStandbyDomainStop t) := by
  unfold Machine.execStandbyDomainStop
  exact .done (.when h .standbyStop)

theorem StaysNext.execVaultEnter (h : Stays s t) : StaysNext s (execVaultEnter t) := by
  unfold Machine.execVaultEnter
  exact .done (.when h fun h => .onPow (.when h .standbyStop))

theorem StaysNext.execVstbyReturn {elapsed : Nat} (h : Stays s t) : StaysNext s (execVstbyReturn elapsed t) :=
  .done (.when h fun h => .onStore (.onTime h))

theorem StaysNext.execTotalPowerLoss (h : Stays s t) : StaysNext s (execTotalPowerLoss t) := by
  unfold Machine.execTotalPowerLoss
  exact .done (.when (.onPow (.onTmp (.onTime (.onKey (.when h .standbyStop))))) .mgtAlert)

theorem StaysNext.execVbatLow (h : Stays s t) : StaysNext s (execVbatLow t) :=
  .done (.mgtAlert (.onPow h))

theorem StaysNext.execVbatReturn (h : Stays s t) : StaysNext s (execVbatReturn t) :=
  .done (.mgtAlert (.onPow h))

theorem StaysNext.execHoldcapMeasured {tenths : Nat} (h : Stays s t) : StaysNext s (execHoldcapMeasured tenths t) :=
  .done (.when h fun h => .when (.onStore h) .append)

theorem StaysNext.execLaneClockGate {lane : Nat} (h : Stays s t) : StaysNext s (execLaneClockGate lane t) :=
  .done (.when h fun h => .when (.onLaneSt h) fun h => .irqAll (.onPow h))

theorem Stays.pwrNap (h : Stays s t) : Stays s (pwrNap t) := by
  unfold Machine.pwrNap
  split
  · exact .onPow h
  · exact .irqAll (.onRng (.onPow h))

theorem Stays.keepOff (h : Stays s t) : Stays s (keepOff t) := by
  unfold Machine.keepOff
  exact .onPow (.irqAll (.mainReset (.disarmRails h)))

theorem Stays.keepAdvance (h : Stays s t) : Stays s (keepAdvance t) := by
  unfold Machine.keepAdvance
  split
  · with_reducible exact .ite (.startCheckpoint (.onPow h)) h
  · with_reducible exact .ite h (.ite (.onPow (.ite (.foldl (.nvme h) fun _ h => .onDrive h) (.withdraw (.foldl (.nvme h) fun _ h => .onDrive h))))
        (.keepOff (.foldl (.nvme h) fun _ h => .onDrive h)))
  · with_reducible exact h

theorem Stays.pwrKeep (h : Stays s t) : Stays s (pwrKeep t) :=
  .ite (.onPow h) (.ite h (.keepAdvance (.closeGroup (.closeGroup (.when (.onPow h) .closePlane)))))

theorem Stays.napWake (h : Stays s t) : Stays s (napWake t) :=
  .when h .onPow

theorem Stays.pwrReq {c : CoreId} {v : BitVec 32} (h : Stays s t) : Stays s (pwrReq t c v) := by
  unfold Machine.pwrReq
  split
  · exact .ite h (.pwrNap h)
  · exact .ite h (.pwrKeep h)
  · exact .ite (.napWake h) h
  · exact h

theorem StaysNext.execPwrReqNap {c : CoreId} (h : Stays s t) : StaysNext s (execPwrReqNap c t) :=
  .done (.winCmd h .pwrReq)

theorem StaysNext.execPwrReqKeep {c : CoreId} (h : Stays s t) : StaysNext s (execPwrReqKeep c t) :=
  .done (.winCmd h .pwrReq)

theorem StaysNext.execPwrReqWake {c : CoreId} (h : Stays s t) : StaysNext s (execPwrReqWake c t) :=
  .done (.winCmd h .pwrReq)

theorem StaysNext.execKeepWithdrawWaitTimeout (h : Stays s t) : StaysNext s (execKeepWithdrawWaitTimeout t) := by
  unfold Machine.execKeepWithdrawWaitTimeout
  exact .done (.when h .keepOff)

theorem StaysNext.execFailoverSettled (h : Stays s t) : StaysNext s (execFailoverSettled t) :=
  .done (.keepAdvance (.failoverEnd h))

theorem StaysNext.execTakeoverRx {f : MFrame} (h : Stays s t) : StaysNext s (execTakeoverRx f t) := by
  unfold Machine.execTakeoverRx
  exact .done (.when (.takeoverRx h) .keepOff)

theorem Stays.dozeWake (h : Stays s t) : Stays s (dozeWake t) :=
  .when h fun h => .foldl h fun _ h => .ungate h

theorem StaysNext.execNapWakeEvent {w : WakeCause} (h : Stays s t) : StaysNext s (execNapWakeEvent w t) :=
  .done (.ite (.dozeWake h) (.napWake h))

theorem StaysNext.execNapWakeDone (h : Stays s t) : StaysNext s (execNapWakeDone t) :=
  .done (.when h fun h => .when (.irqAll (.onRng (.when (.onPow h) .mirrorTime))) .startCheckpoint)

theorem StaysNext.execKeepWake (h : Stays s t) : StaysNext s (execKeepWake t) :=
  .done (.when h fun h => by
    extract_lets s1
    have h1 : Stays s s1 := .onUnit h
    split
    · exact .when h1 .onPow
    · exact .napWake h1
    · exact .dozeWake h1
    · exact h1
    · exact h1)

theorem StaysNext.execGpioWakeInput {n : Nat} (h : Stays s t) : StaysNext s (execGpioWakeInput n t) :=
  .done (.when h fun h => .ring (.onPow h))

/-! ### Tamper responses -/

theorem Stays.logEvent {sensor : Nat} {level : Nat} {own : Nat} {measured : BitVec 32} (h : Stays s t) :
    Stays s (logEvent t sensor level own measured) :=
  .ite (.onTmp h) (.onTmp (.append h))

theorem Stays.latchEvent {sensor : Nat} (h : Stays s t) : Stays s (latchEvent t sensor) :=
  .onTmp h

theorem Stays.flushLatch (h : Stays s t) : Stays s (flushLatch t) := by
  unfold Machine.flushLatch
  exact .onTmp (.foldl h fun _ h => .append h)

theorem Stays.wipeVoile (h : Stays s t) : Stays s (wipeVoile t) :=
  .onTmp (.onKey h)

theorem Stays.abortKey (h : Stays s t) : Stays s (abortKey t) :=
  .when h fun h => .irqMain (.onKey (by
    split
    · exact .dropHandle h
    · exact h))

theorem Stays.abortCtlKey (h : Stays s t) : Stays s (abortCtlKey t) := by
  unfold Machine.abortCtlKey
  split
  · exact .when h .endCtl
  · exact h

theorem Stays.abortLinks (h : Stays s t) : Stays s (abortLinks t) :=
  .foldl h fun _ h => .ite (.linkDown h) h

theorem Stays.abortKeyOps (h : Stays s t) : Stays s (abortKeyOps t) :=
  .abortLinks (.rngAbort (.rngAbort (.when (.abortCtlKey (.abortKey h)) .digEnd)))

theorem Stays.settleReqs (h : Stays s t) : Stays s (settleReqs t) :=
  .foldl h fun _ h => by
    split
    · exact .ite (.endReq h) (.ite (.endMint h) h)
    · exact h

theorem Stays.stepsHalt (h : Stays s t) : Stays s (stepsHalt t) :=
  .dbAlert (.cause (.closeGroup (.closeGroup (.settleReqs (.abortKeyOps (.pausePlane (.onLed h)))))))

theorem Stays.zeroKeys (h : Stays s t) : Stays s (zeroKeys t) :=
  .rngZero (.digEnd (.onLane (.onKey h)))

theorem Stays.loadTerms (h : Stays s t) : Stays s (loadTerms t) :=
  .ite (.onFab h) (.ite (.onView (.onFab (.onView (.onFab (.onFab h))))) (.onView (.onFab (.onFab h))))

theorem Stays.loseHbm (h : Stays s t) : Stays s (loseHbm t) :=
  .loadTerms (.onFab (.onLed (.onHbm (.when (.foldl h fun _ h => by
    split
    · exact .endReq h
    · exact h) .endWait))))

theorem Stays.flushDone (h : Stays s t) : Stays s (flushDone t) :=
  .when h fun h => .loseHbm (.foldl (.onTmp (.when h .withdraw)) fun _ h => .ite h (.linkDown h))

theorem Stays.respondWipe (h : Stays s t) : Stays s (respondWipe t) := by
  unfold Machine.respondWipe
  exact .onPow (.mainReset (.zeroKeys (.wipeVoile (.dbAlert h))))

theorem Stays.respond {old : Nat} {own : Nat} (h : Stays s t) : Stays s (respond t old own) :=
  .ite (.ite (.respondWipe h) h) (.when (.when h .stepsHalt) fun h => .onTmp (.zeroKeys h))

theorem Stays.tamperAlarm {sensor : Nat} {measured : BitVec 32} (h : Stays s t) : Stays s (tamperAlarm t sensor measured) :=
  .ite h (.ite (.ite (.wipeVoile (.onTmp (.onTmp h))) (.latchEvent (.onTmp h))) (.ite (.logEvent (.onTmp h)) (.ite (.respond (.mgtAlert (.onTmp
      (.logEvent (.onTmp h))))) (.ite (.wipeVoile (.when (.mgtAlert (.onTmp (.logEvent (.onTmp h)))) .zeroKeys)) (.onTmp (.when (.mgtAlert (.onTmp
          (.logEvent (.onTmp h)))) .zeroKeys))))))

theorem StaysNext.execTamperAlarm {sensor : Nat} {measured : BitVec 32} (h : Stays s t) : StaysNext s (execTamperAlarm sensor measured t) :=
  .done (.tamperAlarm h)

theorem StaysNext.execTamperFlushDone (h : Stays s t) : StaysNext s (execTamperFlushDone t) :=
  .done (.flushDone h)

theorem Stays.startRestart (h : Stays s t) : Stays s (startRestart t) :=
  .onRng (.onTmp h)

theorem StaysNext.execTamperClear (h : Stays s t) : StaysNext s (execTamperClear t) :=
  .done (.ite (.onTmp h) (.ite (.when (.onTmp (.onTmp h)) .mainStart) (.ite (.startRestart (.flushDone (.onTmp (.onTmp h)))) (.onTmp (.onTmp h)))))

theorem StaysNext.execTamperWithdrawTimer (h : Stays s t) : StaysNext s (execTamperWithdrawTimer t) :=
  .done (.when h fun h => .withdraw (.onTmp h))

theorem Stays.endResponse (h : Stays s t) : Stays s (endResponse t) :=
  .onTmp h

theorem Stays.rejoin (h : Stays s t) : Stays s (rejoin t) :=
  .ite h (.flood (.onView (.onFab h)))

theorem Stays.planeOpenCmd (h : Stays s t) : Stays s (planeOpenCmd t) :=
  .ite (.ite h (.ite (.ite (.when (.endResponse (.rejoin h)) .resumePlane) (.ite (.openData (.endResponse (.rejoin h))) (.onLed (.onHq (.endResponse
      (.rejoin h)))))) (.ite (.openData (.endResponse h)) h))) (.ite (.when h .resumePlane) (.when h .openData))

theorem StaysNext.execHqPlaneOpen {c : CoreId} (h : Stays s t) : StaysNext s (execHqPlaneOpen c t) :=
  .done (.winCmd h .planeOpenCmd)

theorem StaysNext.execTamperLoopTick {n : Nat} {next : Bool} {sampled : Bool} (h : Stays s t) : StaysNext s (execTamperLoopTick n next sampled t) :=
  .done (.when h fun h => .when (.onTmp h) .tamperAlarm)

theorem StaysNext.execJtagUpdateIr {ir : BitVec 8} {extest : Bool} (h : Stays s t) : StaysNext s (execJtagUpdateIr ir extest t) :=
  .done (.when h fun h => .when (.onPow h) .tamperAlarm)

theorem StaysNext.execGatehouseLinkFrameRx {body : Bytes} {tag : BitVec 128} (h : Stays s t) : StaysNext s (execGatehouseLinkFrameRx body tag t) :=
  .done (.when h fun h => .when (.onPow h) fun h => .tamperAlarm (.onPow h))

end Sys2Proof.Machine
end

section
/-! SUPPORT. What no operation undoes, for each operation of recovery, the start of the main die, the key store and the clock crossings. -/

namespace Sys2Proof.Machine

-- One theorem at a time: the check's memory limit leaves no room for a thread for each.
set_option Elab.async false

variable {s t : State}

/-! ### Recovery and the ends of appends -/

theorem Stays.recoverMarks {rs : List Record} (h : Stays s t) : Stays s (recoverMarks t rs).1 := by
  unfold Machine.recoverMarks
  refine .foldlFst h fun p hx => ?_
  split
  · exact .when hx .progMark
  · exact .progMark hx
  · exact hx

theorem Stays.recoverRun {rd : Nat → Bytes} {run : BitVec 2 × List Nat} (h : Stays s t) : Stays s (recoverRun rd t run) :=
  .foldl (.onStore (.recoverMarks h)) fun _ h => .eraseSector h

theorem Stays.settleIntent {i : Record} (h : Stays s t) : Stays s (settleIntent t i) :=
  .ite (.txnDone h) (.killRecs h)

theorem Stays.recoverArray {flips : List (Nat × Nat)} (h : Stays s t) : Stays s (recoverArray t flips).1 := by
  unfold Machine.recoverArray
  with_reducible exact .onStore (.foldl (.onStore (.foldl (.onStore h) fun _ h => .recoverRun h)) fun _ h => .settleIntent h)

theorem Stays.logConflicts (h : Stays s t) : Stays s (logConflicts t) :=
  .foldl h fun _ h => .foldl h fun _ h => .append h

theorem Stays.recoverHot {prev : Nat} (h : Stays s t) : Stays s (recoverHot t prev) := by
  unfold Machine.recoverHot
  exact .onStore (.hotPut (.hotPut (.ite (.onStore h) (by
    split <;> exact .onStore h))))

theorem Stays.clearSaveArea (h : Stays s t) : Stays s (clearSaveArea t) :=
  .foldl h fun _ h => .eraseSector h

theorem Stays.rebuildGate (h : Stays s t) : Stays s (rebuildGate t) :=
  .ite h (.onUnit h)

theorem StaysNext.execRecordStoreRecoveryDone {f : RecoveryFind} (h : Stays s t) : StaysNext s (execRecordStoreRecoveryDone f t) :=
  .done (.when h fun h => .mainStart (.foldl (.flushLatch (.logConflicts (.clearSaveArea (.append (.onStore (.rebuildGate (.recoverHot (.onStore
      (.recoverArray h))))))))) fun _ h => .evacuate h))

theorem Stays.sendMsg {m : MgtMsg} {b : Bytes} (h : Stays s t) : Stays s (sendMsg t m b) :=
  .onOut h

theorem Stays.gReply {m : MgtMsg} {st : Nat} {detail : BitVec 16} {body : Bytes} (h : Stays s t) : Stays s (gReply t m st detail body) :=
  .sendMsg h

theorem Stays.proposed {ok : Bool} (h : Stays s t) : Stays s (proposed t ok) := by
  unfold Machine.proposed
  split
  · exact .ite (.gReply (.post (.onMgt h))) (.gReply (.onMgt h))
  · exact h

theorem StaysNext.execAppendPreconditionsMet (h : Stays s t) : StaysNext s (execAppendPreconditionsMet t) :=
  .done (.when h fun h => .mainStart (.ctlGo (.beginHead (.onStore h))))

theorem Stays.afterAppend {a : Append} (h : Stays s t) : Stays s (afterAppend t a) := by
  unfold Machine.afterAppend
  extract_lets s1
  have h1 : Stays s s1 := .when (.when h .recEnd) .keyRecorded
  split
  · exact .ite (.leaseCommitted h1) h1
  · exact .ite (.leaseMirrorCommitted h1) h1
  · exact .ite (.keepAdvance (.checkpointCommitted h1)) h1
  · exact .entryCommitted h1
  · split
    · exact .ite (.writeRoll h1) h1
    · exact h1
  · exact .ite (.keyReceipt h1) h1
  · exact .when h1 fun h => .unveil (.onKey h)
  · exact .proposed h1
  · exact h1

theorem Stays.failAppend {a : Append} (h : Stays s t) : Stays s (failAppend t a) := by
  unfold Machine.failAppend
  extract_lets s1 s2 s3 s4
  have h1 : Stays s s1 := .when (.when h .recEnd) .keyRecorded
  have h2 : Stays s s2 := .onLed h1
  have h3 : Stays s s3 := by
    unfold s3
    split
    · exact .dropHandle h1
    · exact h1
  have h4 : Stays s s4 := by
    unfold s4
    split
    · exact .dropHandle h1
    · exact h1
  split
  · exact .ite (.irqMain (.onLed h2)) h2
  · exact .entryCommitted h1
  · exact .ite (.endCtl h1) h1
  · exact .ite (.failRoll h1) h1
  · exact .proposed h1
  · exact .onStore h1
  · exact .onKey h3
  · exact .onKey h4
  · exact h1

theorem StaysNext.execRecAppendCommit {verify : Bool} (h : Stays s t) : StaysNext s (execRecAppendCommit verify t) :=
  .done (by
    split
    · refine .ite h ?_
      extract_lets s2 s3
      have h2 : Stays s s2 := .onStore h
      have h3 : Stays s s3 := .ite (.compact h) (.ctlGo (.beginHead (.failAppend (.storeFault h2))))
      refine .ite ?_ ?_
      · split
        next u4 e4 =>
          exact .ctlGo (.beginHead (.afterAppend ((StaysSome.commitRec h2).get e4)))
        · exact h3
      · split
        next u6 e6 =>
          exact .ite (.onStore ((StaysSome.writeDead h).get e6)) (.ctlGo (.beginHead (.failAppend (.observe (.onStore
              ((StaysSome.writeDead h).get e6))))))
        · exact h3
    · exact h)

/-! ### The start of the main die -/

theorem Stays.recordUnit {u : Nat} (h : Stays s t) : Stays s (recordUnit t u) :=
  .ite (.publishEntry (.append (.onUnit h))) (.append (.onUnit h))

theorem Stays.bootUnit {u : Nat} {st : UState} {reason : Byte} (h : Stays s t) : Stays s (bootUnit t u st reason) :=
  .ite h (.recordUnit (.setUnit h))

theorem Stays.restoreUnits (h : Stays s t) : Stays s (restoreUnits t) := by
  unfold Machine.restoreUnits
  with_reducible exact .onUnit (.foldl (.foldl h fun _ h => .onEntry (.setUnit h)) fun _ h => .onPort h)

theorem Stays.recordRestored (h : Stays s t) : Stays s (recordRestored t) :=
  .foldl h fun _ h => .ite h (.recordUnit h)

theorem Stays.enterRam {c : CoreId} {kind : BitVec 2} (h : Stays s t) : Stays s (enterRam t c kind) := by
  unfold Machine.enterRam
  exact .onUnit (.coreUpd h)

theorem Stays.loadProg {c : CoreId} {p : Tbl (BitVec 14)} {owner : Bool} (h : Stays s t) : Stays s (loadProg t c p owner) :=
  .coreUpd h

theorem Stays.startNoise (h : Stays s t) : Stays s (startNoise t) := by
  unfold Machine.startNoise
  split
  · exact .onRng h
  · exact .observe (.onRng h)

theorem Stays.startCores (h : Stays s t) : Stays s (startCores t) := by
  unfold Machine.startCores
  exact .coreUpd (.coreUpd (.onUnit h))

theorem StaysNext.execMainPgoodHigh {straps : BitVec 12} {safeLow : Bool} (h : Stays s t) : StaysNext s (execMainPgoodHigh straps safeLow t) :=
  .done (.when h fun h => .when (.startNoise (.extend (.onUnit (.startCores (.restoreUnits (.when (.onTmp (.onPow h)) .withPar)))))) .irq)

theorem StaysNext.execGatehouseLinkAgreed (h : Stays s t) : StaysNext s (execGatehouseLinkAgreed t) :=
  .done (.when h fun h => .mirrorTime (.onDig (.onPow h)))

theorem Stays.enterSafe (h : Stays s t) : Stays s (enterSafe t) := by
  unfold Machine.enterSafe
  exact .onUnit (.withPar (.onDig (.onPow h)))

theorem Stays.measureBank {b : Bank} (h : Stays s t) : Stays s (measureBank t b) :=
  .foldl (.extend (.foldl h fun _ h => .ite (.extend h) h)) fun _ h => .ite (.extend h) h

theorem Stays.acceptBank {n : BitVec 1} {b : Bank} (h : Stays s t) : Stays s (acceptBank t n b) :=
  .ite (.enterRam (.loadProg (.loadProg (.loadProg (.measureBank (.onDig (.onRng (.onMgt (.withPar (.onPow h)))))))))) (.loadProg (.loadProg
      (.measureBank (.onDig (.onRng (.onMgt (.withPar (.onPow h))))))))

theorem Stays.rejectBank {n : BitVec 1} {k : Nat} (h : Stays s t) : Stays s (rejectBank t n k) := by
  unfold Machine.rejectBank
  extract_lets s1
  have h1 : Stays s s1 := .onPow h (by split <;> rfl)
  exact .ite (.enterSafe h1) h1

theorem Stays.readHeaders {h0 : Bytes} {h1 : Bytes} (h : Stays s t) : Stays s (readHeaders t h0 h1) := by
  unfold Machine.readHeaders
  exact .onPow h

theorem Stays.bootBank {n : BitVec 1} {b : Bank} (h : Stays s t) : Stays s (bootBank t n b) := by
  unfold Machine.bootBank
  extract_lets _ _ s1
  have h1 : Stays s s1 := .readHeaders h
  split
  · exact .enterSafe h1
  · refine .ite h1 ?_
    split
    · exact .rejectBank h1
    · exact .acceptBank h1

theorem Stays.reloadCores {b : Bank} (h : Stays s t) : Stays s (reloadCores t b) :=
  .foldl h fun _ h => .ite (.ite (.enterRam (.loadProg h)) (.loadProg h)) h

theorem Stays.adoptEnd {outcome : Nat} {step : Nat} {seq : Nat} (h : Stays s t) : Stays s (adoptEnd t outcome step seq) :=
  .mgtAlert (.onMgt (.onUnit (.append h)))

theorem Stays.liveTamper (h : Stays s t) : Stays s (liveTamper t) :=
  .withPar h

theorem Stays.liveOther (h : Stays s t) : Stays s (liveOther t) :=
  .withPar h

theorem Stays.adoptNext (h : Stays s t) : Stays s (adoptNext t) := by
  unfold Machine.adoptNext
  split
  · exact .changeUnit (.onUnit h)
  · exact .cause (.adoptEnd (.onMgt (.onPow (.onLane h))))

theorem Stays.loadPeer {b : Bank} (h : Stays s t) : Stays s (loadPeer t b) :=
  .enterRam (.loadProg h)

theorem Stays.adoptBank {b : Bank} (h : Stays s t) : Stays s (adoptBank t b) := by
  unfold Machine.adoptBank
  split
  · exact .ite (.loadPeer (.onUnit (.onPow (.onDig h)))) (.adoptEnd h)
  · exact .onMgt (.onUnit (.ite (.loadPeer h) (.coreUpd h)))
  · exact .adoptNext (.liveOther (.onUnit (.onMgt (.onDig (by
      split
      · exact .extend (.liveTamper (.enterRam (.loadProg (.coreReset h))))
      · exact (.liveTamper (.enterRam (.loadProg (.coreReset h)))))))))
  · exact h

theorem Stays.openFlash {m : FlashModes} (h : Stays s t) : Stays s (openFlash t m) :=
  .when h fun h => .onOut (.onPow h)

theorem StaysNext.execImageBankStreamed {bank : BitVec 1} {img : Bank} {adoption : Bool} (h : Stays s t) :
    StaysNext s (execImageBankStreamed bank img adoption t) :=
  .done (.when h fun h => .ite (.when h .adoptBank) (.ite (.when h fun h => .bootBank (.openFlash h)) (.when h .reloadCores)))

theorem Stays.unitDrained {v : Nat} (h : Stays s t) : Stays s (unitDrained t v) := by
  unfold Machine.unitDrained
  extract_lets _ s1
  have h1 : Stays s s1 := .onEntry h
  exact .ite (.adoptNext (.changeUnit (.onUnit (.onLane h1)))) (.when h1 .decideUnit)

theorem StaysNext.execUnitDrained {unit : Nat} (h : Stays s t) : StaysNext s (execUnitDrained unit t) :=
  .done (.when h .unitDrained)

/-! ### Boot step 6 -/

theorem Stays.retireDevice (h : Stays s t) : Stays s (retireDevice t) := by
  unfold Machine.retireDevice
  with_reducible exact .onFuse (.onLane (.foldl (.onStore (.killRecs h)) fun _ h => .evacuate h)) (fun _ => rfl) (fun _ => rfl)

theorem Stays.openRoot (h : Stays s t) : Stays s (openRoot t) := by
  unfold Machine.openRoot
  refine .ite h (.ite (.ite h (.retireDevice h)) ?_)
  extract_lets s1
  have h1 : Stays s s1 := .freshReseed h
  exact .onKey (.drew h1) (by split <;> exact ⟨rfl, rfl⟩)

theorem Stays.openVoile (h : Stays s t) : Stays s (openVoile t) :=
  .ite h (.ite (.append (.onKey (.onKey (.drew (.freshReseed h))))) (.onKey (.drew (.freshReseed h))))

theorem Stays.loadCounts (h : Stays s t) : Stays s (loadCounts t) := by
  unfold Machine.loadCounts
  exact .onKey h

theorem Stays.loadSlots {n : Nat} {badSlots : List Nat} (h : Stays s t) : Stays s (loadSlots t n badSlots) :=
  .foldl (.onKey h) fun _ h => .append h

theorem Stays.storePack {p : Bytes} (h : Stays s t) : Stays s (storePack t p) :=
  .appendRecord (.foldl (.appendRecord (.openTx h)) fun _ h => .storePart h)

theorem Stays.actOnPackage {p : Bytes} (h : Stays s t) : Stays s (actOnPackage t p) := by
  unfold Machine.actOnPackage
  split
  · exact .append h
  · split
    · exact .storePack (.onKey h)
    · exact .ite (.unveil (.storePack h)) (.onKey (.storePack h))
    · exact .storePack h
    · exact .retireDevice h

/-- A device whose life-cycle state is FRESH has not reached RETIRED: its fuse may advance to ENROLLED. -/
theorem fuse_ne_retired_of_fresh (h : lifecycle t = 1) : t.key.fuse ≠ 3 := by
  intro e
  simp [lifecycle, e] at h

theorem Stays.enrolStep (h : Stays s t) : Stays s (enrolStep t) := by
  unfold Machine.enrolStep
  extract_lets s1
  have h1 : Stays s s1 := by
    unfold s1
    split
    next hc => exact .onFuse h (fun e => absurd e (fuse_ne_retired_of_fresh hc.1)) id
    · exact h
  split
  · exact .actOnPackage h1
  · exact h1

theorem Stays.hbmKey (h : Stays s t) : Stays s (hbmKey t) := by
  unfold Machine.hbmKey
  exact .onHbm (.drew h)

theorem Stays.hbmStep (h : Stays s t) : Stays s (hbmStep t) :=
  .when h fun h => .onPow (.hbmKey h)

theorem Stays.attachEnd (h : Stays s t) : Stays s (attachEnd t) := by
  unfold Machine.attachEnd
  exact .onPow (.onDrive (.onDrive h))

theorem Stays.tryAttachEnd (h : Stays s t) : Stays s (tryAttachEnd t) :=
  .when h .attachEnd

theorem Stays.unwrapStore {n : Nat} {badSlots : List Nat} (h : Stays s t) : Stays s (unwrapStore t n badSlots) :=
  .loadHolder (.loadSlots (.onKey h))

theorem Stays.openStore {badSlots : List Nat} {keyEngineOk : Bool} (h : Stays s t) : Stays s (openStore t badSlots keyEngineOk) := by
  unfold Machine.openStore
  exact .ite (.onPow (.when (.openRoot (.loadCounts h)) .observe)) (.ite (.when (.openRoot (.loadCounts h)) fun h => .onPow (.unwrapStore h))
      (.tryAttachEnd (.hbmStep (.foldl (.recordRestored (.onPow (.onFab (.loadTerms (.when (.openVoile (.openRoot (.loadCounts h)))
          fun h => .enrolStep (.unwrapStore h)))))) fun _ h => .ite (.enterRam h) h))))

theorem StaysNext.execBootKeyStoreOpen {badSlots : List Nat} {keyEngineOk : Bool} (h : Stays s t) :
    StaysNext s (execBootKeyStoreOpen badSlots keyEngineOk t) :=
  .done (.ite (.openStore h) (.ite (.ite (.hbmKey (.unwrapStore h)) (.when h .observe)) h))

/-! ### Boot steps 7 to 9 -/

theorem StaysNext.execHbmTrainingDone {failed : List Nat} {serial : Bytes} (h : Stays s t) : StaysNext s (execHbmTrainingDone failed serial t) :=
  .done (.when h fun h => .tryAttachEnd (.hbmStep (.foldl (.onPow (.onHbm h)) fun _ h => .bootUnit h)))

theorem StaysNext.execDriveReady {d : Nat} {labelA : Bytes} {labelB : Bytes} {id : DriveId} (h : Stays s t) :
    StaysNext s (execDriveReady d labelA labelB id t) := by
  unfold Machine.execDriveReady
  exact .done (.when h fun h => .ite (.driveAttach h) (.ite (.tryAttachEnd (.onPow (.bootUnit (.onDrive (.nvme (.onDrive h)))))) (.tryAttachEnd
      (.onDrive (.nvme (.nvme (.makeQueues (.nvme (.onDrive h)))))))))

theorem StaysNext.execDriveAttachTimeout (h : Stays s t) : StaysNext s (execDriveAttachTimeout t) :=
  .done (.when h fun h => .tryAttachEnd (.onPow h))

theorem Stays.replayBlock {b : JBlock} (h : Stays s t) : Stays s (replayBlock t b) := by
  unfold Machine.replayBlock
  exact .onLed (by
    split
    · exact .ite (.rollOwn h) (.rollShadow h)
    · exact .applyRecs h)

theorem Stays.replayFrom {n q : Nat} {prev : BitVec 128} (h : Stays s t) : Stays s (replayFrom t n q prev) := by
  induction n generalizing t q prev with
  | zero => exact .onLed h
  | succ n ih =>
    unfold Machine.replayFrom
    split
    · exact .onLed h
    · exact ih (.replayBlock h)

theorem Stays.loadPage {b : Base} {slot : Nat} (h : Stays s t) : Stays s (loadPage t b slot) := by
  unfold Machine.loadPage
  extract_lets _ _ _
  split
  · exact .setPage h
  · refine .ite h ?_
    split
    · exact .onLed (.setPage h)
    · exact h

theorem Stays.baseState {b : Base} (h : Stays s t) : Stays s (baseState t b) :=
  .rebuildTree (.onFab (.onLed (.onKey h)))

theorem Stays.freeJournal {d : Nat} {q : Nat} (h : Stays s t) : Stays s (freeJournal t d q) :=
  .when (.nvme (.onDrive h)) .nvme

theorem Stays.replay {b : Base} (h : Stays s t) : Stays s (replay t b) := by
  unfold Machine.replay
  exact .onLed (.foldl (.replayFrom (.retree (.foldl (.baseState h) fun _ h => .loadPage h))) fun _ h => .freeJournal h)

theorem StaysNext.execJournalReplayDone (h : Stays s t) : StaysNext s (execJournalReplayDone t) :=
  .done (.when h fun h => by
    split
    · exact .onPow h
    · exact .trySettle (.onPow (.onLed (.replay h))))

/-! ### Clock crossings -/

theorem StaysNext.execCdcStall {unit : Nat} (h : Stays s t) : StaysNext s (execCdcStall unit t) :=
  .done (.when h .cdcStall)

theorem Stays.onPulse {x : Nat} {f : PulseX → PulseX} (h : Stays s t) : Stays s (onPulse t x f) :=
  .onTele h

theorem Stays.dropItem {p : Nat × Nat} (h : Stays s t) : Stays s (dropItem t p) := by
  unfold Machine.dropItem
  split
  · exact .endReq h
  · exact h

theorem StaysNext.execCrossingResync {x : Nat} {dropped : List (Nat × Nat)} (h : Stays s t) : StaysNext s (execCrossingResync x dropped t) :=
  .done (.onTele (.onPulse (.foldl h fun _ h => .dropItem h)))

theorem StaysNext.execPulseDeliver {x : Nat} (h : Stays s t) : StaysNext s (execPulseDeliver x t) :=
  .done (.onPulse h)

theorem StaysNext.execPulsePhaseEnd {x : Nat} (h : Stays s t) : StaysNext s (execPulsePhaseEnd x t) :=
  .done (.onPulse h)

end Sys2Proof.Machine
end

section
/-! SUPPORT. What no operation undoes, for each operation of the management plane, the registers of the windows and the frames. -/

namespace Sys2Proof.Machine

-- One theorem at a time: the check's memory limit leaves no room for a thread for each.
set_option Elab.async false

variable {s t : State}

/-! ### The management plane -/

theorem StaysNext.execMctpMessageRx {bytes : Bytes} {eid : BitVec 8} {tag : BitVec 3} {pecOk : Bool} {ic : Bool} (h : Stays s t) :
    StaysNext s (execMctpMessageRx bytes eid tag pecOk ic t) :=
  .done (.when h fun h => .ite (.onMgt h) (.ite (.onMgt h) (.irq (.onMgt h))))

theorem Stays.takeMsg {m : MgtMsg} (h : Stays s t) : Stays s (takeMsg t m) :=
  .onMgt h

theorem Stays.mctpAnswer {p : Nat → Bool} {code : Byte} {data : Bytes} {f : State → State} (h : Stays s t)
    (hf : ∀ {u}, Stays s u → Stays s (f u)) : Stays s (mctpAnswer t p code data f) := by
  unfold Machine.mctpAnswer
  split
  · exact .ite (.sendMsg (hf (.takeMsg h))) h
  · exact h

theorem StaysNext.execSetEndpointId {eid : BitVec 8} (h : Stays s t) : StaysNext s (execSetEndpointId eid t) :=
  .done (.when h fun h => .mctpAnswer h .onMgt)

theorem StaysNext.execGetEndpointId (h : Stays s t) : StaysNext s (execGetEndpointId t) :=
  .done (.mctpAnswer h fun h => h)

theorem StaysNext.execGetMctpVersionSupport (h : Stays s t) : StaysNext s (execGetMctpVersionSupport t) :=
  .done (.mctpAnswer h fun h => h)

theorem StaysNext.execGetMessageTypeSupport (h : Stays s t) : StaysNext s (execGetMessageTypeSupport t) :=
  .done (.mctpAnswer h fun h => h)

theorem StaysNext.execGetVendorDefinedMessageSupport (h : Stays s t) : StaysNext s (execGetVendorDefinedMessageSupport t) :=
  .done (.mctpAnswer h fun h => h)

theorem StaysNext.execMctpUnsupportedCommand {cmd : Byte} (h : Stays s t) : StaysNext s (execMctpUnsupportedCommand cmd t) :=
  .done (.when h fun h => .mctpAnswer h fun h => h)

theorem Stays.authFailed {cmd : Nat} {nonce : Nat} (h : Stays s t) : Stays s (authFailed t cmd nonce) :=
  .when (.onMgt (.append h)) .mgtAlert

theorem Stays.graward {cmd : Nat} {f : GEffect} {msg : Bytes} (hf : ∀ {u} u1, Stays s u → StaysBody s (f u u1)) (h : Stays s t) :
    Stays s (graward cmd f msg t) := by
  unfold Machine.graward
  split
  · extract_lets _ x2 _ s3 s4
    have h3 : Stays s s3 := .when h .ring
    have h4 : Stays s s4 := .when (.takeMsg h3) .onMgt
    refine .ite h ?_
    clear_value x2
    split
    · exact .gReply (.when h4 .authFailed)
    · split
      · exact .gReply h4
      next u8 _ e8 =>
        exact .ite ((hf _ h4).get e8) (.gReply ((hf _ h4).get e8))
  · exact h

theorem StaysNext.execGetIdentity {msg : Bytes} (h : Stays s t) : StaysNext s (execGetIdentity msg t) :=
  .done (.graward (fun _ h => .ok h) h)

theorem StaysNext.execGetHealth {msg : Bytes} (h : Stays s t) : StaysNext s (execGetHealth msg t) :=
  .done (.graward (fun _ h => .ok h) h)

theorem StaysBody.telemetry {b : Bytes} (h : Stays s t) : StaysBody s (telemetry t b) :=
  .ite .error (.ite .error (.ite .error (.ite .error (.ite (.ite .error (.ok h)) (.ite .error (.ok h))))))

theorem StaysNext.execGetTelemetry {msg : Bytes} (h : Stays s t) : StaysNext s (execGetTelemetry msg t) :=
  .done (.graward (fun _ h => .telemetry h) h)

theorem StaysNext.execGetUnitTable {msg : Bytes} (h : Stays s t) : StaysNext s (execGetUnitTable msg t) :=
  .done (.graward (fun _ h => .ok h) h)

theorem StaysNext.execTwinStatus {msg : Bytes} (h : Stays s t) : StaysNext s (execTwinStatus msg t) :=
  .done (.graward (fun _ h => .ok h) h)

theorem StaysBody.propose {b : Bytes} (h : Stays s t) : StaysBody s (propose t b) := by
  unfold Machine.propose
  split
  · exact .error
  · exact .ite (.ok (.onMgt (.append h))) (.ok (.post (.append h)))

theorem StaysNext.execProposeUnitState {msg : Bytes} (h : Stays s t) : StaysNext s (execProposeUnitState msg t) :=
  .done (.graward (fun _ h => .propose h) h)

theorem Stays.recordSession {next : Nat} (h : Stays s t) : Stays s (recordSession t next) :=
  .append h

theorem StaysBody.stageBlock {readBack : Bool} {b : Bytes} (h : Stays s t) : StaysBody s (stageBlock readBack t b) :=
  .ite .error (.ite .error (.ite .error (.ite .error (.ite .error (.ok (.when (.onMgt h) .recordSession))))))

theorem StaysNext.execStageImageBlock {msg : Bytes} {readBackOk : Bool} (h : Stays s t) : StaysNext s (execStageImageBlock msg readBackOk t) :=
  .done (.graward (fun _ h => .stageBlock h) h)

theorem StaysBody.commitImage {b : Bytes} (h : Stays s t) : StaysBody s (commitImage t b) :=
  .ite .error (.ite .error (.ite .error (.ite .error (.ok (.when (.onMgt (.append (.recordSession h))) fun h => .irqMain (.ring (.onUnit h)))))))

theorem StaysNext.execCommitStagedImage {msg : Bytes} (h : Stays s t) : StaysNext s (execCommitStagedImage msg t) :=
  .done (.graward (fun _ h => .commitImage h) h)

theorem StaysBody.attestG {b : Bytes} (h : Stays s t) : StaysBody s (attestG t b) := by
  unfold Machine.attestG
  refine .ite .error ?_
  split
  · exact .error
  · exact .ok h

theorem StaysNext.execAttest {msg : Bytes} (h : Stays s t) : StaysNext s (execAttest msg t) :=
  .done (.graward (fun _ h => .attestG h) h)

theorem StaysBody.voucherG {b : Bytes} (h : Stays s t) : StaysBody s (voucherG t b) := by
  unfold Machine.voucherG
  refine .ite .error ?_
  split
  · exact .error
  · exact .ok (.acceptVoucher h)

theorem StaysNext.execMgtSetTimeVoucher {msg : Bytes} (h : Stays s t) : StaysNext s (execMgtSetTimeVoucher msg t) :=
  .done (.graward (fun _ h => .voucherG h) h)

theorem StaysBody.clearAlertG {b : Bytes} (h : Stays s t) : StaysBody s (clearAlertG t b) :=
  .ok (.onMgt h)

theorem StaysNext.execClearAlert {msg : Bytes} (h : Stays s t) : StaysNext s (execClearAlert msg t) :=
  .done (.graward (fun _ h => .clearAlertG h) h)

theorem StaysBody.getLogG {b : Bytes} (h : Stays s t) : StaysBody s (getLogG t b) :=
  .ite .error (.ite .error (.ite .error (.ite .error (.ite .error (.ite (.ok h) (.ok h))))))

theorem StaysNext.execGetLog {msg : Bytes} (h : Stays s t) : StaysNext s (execGetLog msg t) :=
  .done (.graward (fun _ h => .getLogG h) h)

theorem Stays.mgtTake (h : Stays s t) : Stays s (mgtTake t) := by
  unfold Machine.mgtTake
  split
  · exact .writeStr (.takeMsg h)
  · exact h

theorem Stays.mgtSend (h : Stays s t) : Stays s (mgtSend t) := by
  unfold Machine.mgtSend
  split
  · exact .when h .sendMsg
  · exact h

theorem Stays.mgtSet {mask : BitVec 32} (h : Stays s t) : Stays s (mgtSet t mask) :=
  .onMgt h

theorem Stays.mgtClear {mask : BitVec 32} {setNow : BitVec 32} (h : Stays s t) : Stays s (mgtClear t mask setNow) :=
  .onMgt h

theorem Stays.mgtCmd {c : CoreId} {a : Nat} {f : State → State} (h : Stays s t) (hf : ∀ {u}, Stays s u → Stays s (f u)) : Stays s (mgtCmd t c a f) :=
  .when h fun h => .winCmd h fun h => hf h

theorem StaysNext.execMgtRxTake {c : CoreId} (h : Stays s t) : StaysNext s (execMgtRxTake c t) :=
  .done (.mgtCmd h .mgtTake)

theorem StaysNext.execMgtTxSend {c : CoreId} (h : Stays s t) : StaysNext s (execMgtTxSend c t) :=
  .done (.mgtCmd h .mgtSend)

theorem StaysNext.execMgtAlertSet {c : CoreId} {mask : BitVec 32} (h : Stays s t) : StaysNext s (execMgtAlertSet c mask t) :=
  .done (.mgtCmd h .mgtSet)

theorem StaysNext.execMgtAlertClear {c : CoreId} {mask : BitVec 32} {setNow : BitVec 32} (h : Stays s t) :
    StaysNext s (execMgtAlertClear c mask setNow t) :=
  .done (.mgtCmd h .mgtClear)

/-! ### Window registers and the data bus -/

theorem StaysReg.regRo {f : State → CoreId → W36} : StaysReg (regRo f) :=
  ⟨id, id⟩

theorem StaysReg.regRoI {f : State → CoreId → BitVec 32} : StaysReg (regRoI f) :=
  .regRo

theorem StaysReg.regRes {w : ResultWin} {f : State → CoreId → W36} : StaysReg (regRes w f) where
  rd {s t c} h := by
    show Stays s (if resultBusy t c w then (_, earlyRead t c w) else _).2
    split
    · exact .earlyRead h
    · exact h
  wr := id

theorem StaysReg.regWo {tags : List (BitVec 4)} {aOnly : Bool} {f : State → CoreId → W36 → State}
    (hf : ∀ {s} {u} c w, Stays s u → Stays s (f u c w)) :
    StaysReg (regWo tags aOnly f) :=
  ⟨id, fun h => hf _ _ h⟩

theorem StaysReg.regRw {tags : List (BitVec 4)} {aOnly : Bool} {g : State → CoreId → W36} {f : State → CoreId → W36 → State}
    (hf : ∀ {s} {u} c w, Stays s u → Stays s (f u c w)) :
    StaysReg (regRw tags aOnly g f) :=
  ⟨id, fun h => hf _ _ h⟩

theorem StaysWin.keyReg {a : Nat} : StaysWin (keyReg a) := by
  unfold Machine.keyReg
  split
  · exact .some (.regWo fun _ _ h => .keyCmd h)
  · exact .some .regRoI
  · exact .some (.regRw fun _ _ h => .onKey h)
  · exact .some (.regWo fun _ _ h => .onKey h)
  · exact .some (.regWo fun _ _ h => .onKey h)
  · exact .some (.regRw fun _ _ h => .onKey h)
  · exact .some (.regRw fun _ _ h => .onKey h)
  · exact .some (.regRw fun _ _ h => .onKey h)
  · exact .some (.regRw fun _ _ h => .onKey h)
  · exact .some .regRes
  · exact .some .regRes
  · exact .none

theorem StaysWin.digReg {o : Nat} : StaysWin (digReg o) := by
  unfold Machine.digReg
  with_reducible refine .ite (.some .regRes) ?_
  with_reducible refine .ite (.some ⟨.measWord, StaysReg.regRo.wr⟩) ?_
  split
  · with_reducible exact .some (.regWo fun _ _ h => .digBegin h)
  · with_reducible exact .some .regRoI
  · with_reducible exact .some (.regWo fun _ _ h => .digUpd h)
  · with_reducible exact .some (.regRw fun _ _ h => .digUpd h)
  · with_reducible exact .some (.regRw fun _ _ h => .digUpd h)
  · with_reducible exact .some (.regWo fun _ _ h => .digAbsorb h)
  · with_reducible exact .some (.regWo fun _ _ h => .digClose h)
  · with_reducible exact .some (.regWo fun _ _ h => .digAbandon h)
  · with_reducible exact .some .regRoI
  · with_reducible exact .some .regRoI
  · with_reducible exact .some .regRoI
  · with_reducible exact .none

theorem StaysWin.rngReg {o : Nat} : StaysWin (rngReg o) := by
  unfold Machine.rngReg
  refine .ite (.some .regRoI) ?_
  split
  · exact .some (.regWo fun _ _ h => .rngCmd h)
  · exact .some .regRoI
  · exact .some (.regRw fun _ _ h => .rngUpd h)
  · exact .some (.regRw fun _ _ h => .rngUpd h)
  · exact .some (.regWo fun _ _ h => .rngSelect h)
  · exact .some (.regWo fun _ _ h => .rngTest h)
  · exact .some .regRes
  · exact .some .regRoI
  · exact .some .regRoI
  · exact .some .regRoI
  · exact .none

theorem StaysWin.ledReg {o : Nat} : StaysWin (ledReg o) := by
  unfold Machine.ledReg
  refine .ite (.some (.regWo fun _ _ h => .onLed h)) ?_
  split
  · exact .some (.regWo fun _ _ h => .ledCmd h)
  · exact .some .regRoI
  · exact .some .regRes
  · exact .some .regRoI
  · exact .some .regRoI
  · exact .some .regRoI
  · exact .some .regRoI
  · exact .none

theorem StaysWin.laneReg {l : Nat} {a : Nat} : StaysWin (laneReg l a) := by
  unfold Machine.laneReg
  split
  · exact .some .regRoI
  · exact .some .regRoI
  · exact .some (.regWo fun _ _ h => .laneTest h)
  · exact .some .regRes
  · exact .some (.regWo fun _ _ h => .purgeLane h)
  · exact .some .regRo
  · exact .none

theorem StaysWin.fabReg {o : Nat} : StaysWin (fabReg o) := by
  unfold Machine.fabReg
  refine .ite (.some .regRoI) ?_
  split
  · exact .some (.regWo fun _ _ h => .fabCmd h)
  · exact .some .regRoI
  · exact .some (.regWo fun _ _ h => .onFab h)
  · exact .some (.regWo fun _ _ h => .onFab h)
  · exact .some .regRoI
  · exact .some .regRoI
  · exact .some (.regWo fun _ _ h => .onFab h)
  · exact .some .regRoI
  · exact .none

theorem Stays.dmaCmd {c : CoreId} {v : Nat} (h : Stays s t) : Stays s (dmaCmd t c v) := by
  unfold Machine.dmaCmd
  split
  · exact .dmaIn h
  · exact .dmaOut h
  · exact h

theorem Stays.planeCmd {v : Nat} (h : Stays s t) : Stays s (planeCmd t v) := by
  unfold Machine.planeCmd
  split
  · exact .planeOpenCmd h
  · exact .planePause h
  · exact h

theorem StaysWin.hqReg {a : Nat} : StaysWin (hqReg a) := by
  unfold Machine.hqReg
  split
  · exact .some .regRoI
  · exact .some (.regRw fun _ _ h => .onHq h)
  · exact .some (.regWo fun _ _ h => .ctlFetch h)
  · exact .some (.regRw fun _ _ h => .onHq h)
  · exact .some (.regWo fun _ _ h => .ctlComplete h)
  · exact .some (.regWo fun _ _ h => .onHq h)
  · exact .some (.regWo fun _ _ h => .onHq h)
  · exact .some (.regWo fun _ _ h => .onHq h)
  · exact .some (.regWo fun _ _ h => .onHq h)
  · exact .some (.regWo fun _ _ h => .dmaCmd h)
  · exact .some .regRoI
  · exact .some (.regWo fun _ _ h => .planeCmd h)
  · exact .some (.regWo fun _ _ h => .hqBind h)
  · exact .none

theorem StaysWin.mailReg {o : Nat} {aOnly : Bool} {get : State → CoreId → Mail} {upd : State → CoreId → (Mail → Mail) → State}
    {send : State → CoreId → Nat → State} {ack : State → CoreId → State} (hupd : ∀ {s} {u} c f, Stays s u → Stays s (upd u c f))
    (hsend : ∀ {s} {u} c n, Stays s u → Stays s (send u c n)) (hack : ∀ {s} {u} c, Stays s u → Stays s (ack u c)) :
    StaysWin (mailReg o aOnly get upd send ack) :=
  .ite (.some (.regWo fun _ _ h => hupd _ _ h)) (.ite (.some (.regWo fun _ _ h => hsend _ _ h)) (.ite (.some .regRo) (.ite (.some (.regWo
      fun _ _ h => hack _ h)) .none)))

theorem StaysWin.mbxReg {o : Nat} : StaysWin (mbxReg o) := by
  unfold Machine.mbxReg
  with_reducible refine .ite (.some .regRoI) ?_
  with_reducible refine .ite (.mailReg (fun _ _ h => .onPeerMail h) (fun _ _ h => .peerSend h) fun _ h => .peerAck h) ?_
  with_reducible refine .ite (.mailReg (fun _ _ h => .onGateMail h) (fun _ _ h => .gateSend h) fun _ h => .gateAck h) ?_
  split
  · with_reducible exact .some .regRoI
  · with_reducible exact .some .regRo
  · with_reducible exact .some .regRoI
  · with_reducible exact .some (.regWo fun _ _ h => .nextPost h)
  · with_reducible exact .some (.regWo fun _ _ h => .postSelf h)
  · with_reducible exact .some (.regWo fun _ _ h => .mbxApplyCmd h)
  · with_reducible exact .some .regRoI
  · with_reducible exact .some (.regWo fun _ _ h => .doorbell h)
  · with_reducible exact .some (.regRw fun _ _ h => .onUnit h)
  · with_reducible exact .some (.regRw fun _ _ h => .irqClear h)
  · with_reducible exact .some (.regRw fun _ _ h => .onUnit h)
  · with_reducible exact .none

theorem StaysWin.timeReg {a : Nat} : StaysWin (timeReg a) := by
  unfold Machine.timeReg
  split
  · with_reducible exact .some ⟨.timeNowLow, StaysReg.regRo.wr⟩
  · with_reducible exact .some .regRoI
  · with_reducible exact .some .regRoI
  · with_reducible exact .some .regRoI
  · with_reducible exact .some (.regWo fun _ _ h => .onTime h)
  · with_reducible exact .some (.regWo fun _ _ h => .onTime h)
  · with_reducible exact .some (.regWo fun _ _ h => .timeCmd h)
  · with_reducible exact .some .regRoI
  · with_reducible exact .none

theorem StaysWin.recReg {a : Nat} : StaysWin (recReg a) := by
  unfold Machine.recReg
  split
  · exact .some (.regWo fun _ _ h => .recCmd h)
  · exact .some (.regRw fun _ _ h => .onStore h)
  · exact .some (.regRw fun _ _ h => .onStore h)
  · exact .some (.regRw fun _ _ h => .onStore h)
  · exact .some (.regRw fun _ _ h => .onStore h)
  · exact .some (.regRw fun _ _ h => .onStore h)
  · exact .some .regRoI
  · exact .none

theorem StaysWin.tmpReg {o : Nat} : StaysWin (tmpReg o) := by
  unfold Machine.tmpReg
  refine .ite (.some .regRoI) ?_
  split
  · exact .some .regRoI
  · exact .some .regRoI
  · exact .some .regRoI
  · exact .some .regRoI
  · exact .some .regRoI
  · exact .none

theorem Stays.rcClear {f : RcField} {setNow : Bool} (h : Stays s t) : Stays s (rcClear t f setNow) := by
  unfold Machine.rcClear
  split
  · exact .onUnit h
  · exact .onUnit h
  · exact h
  · exact .onPow h
  · exact .onPulse h

theorem StaysWin.pwrReg {a : Nat} : StaysWin (pwrReg a) := by
  unfold Machine.pwrReg
  split
  · with_reducible exact .some ⟨.rcClear, .pwrRole⟩
  · with_reducible exact .some (.regWo fun _ _ h => .wdogWrite h)
  · with_reducible exact .some (.regWo fun _ _ h => .peerReset h)
  · with_reducible exact .some (.regWo fun _ _ h => .pwrReq h)
  · with_reducible exact .some ⟨.rcClear, StaysReg.regRo.wr⟩
  · with_reducible exact .none

theorem StaysWin.nvmeReg {a : Nat} : StaysWin (nvmeReg a) := by
  unfold Machine.nvmeReg
  split
  · exact .some (.regWo fun _ _ h => .nvmeCmd h)
  · exact .some .regRoI
  · exact .some .regRoI
  · exact .none

theorem StaysWin.mgtReg {a : Nat} : StaysWin (mgtReg a) := by
  unfold Machine.mgtReg
  split
  · exact .some .regRoI
  · exact .some (.regRw fun _ _ h => .onMgt h)
  · exact .some .regRoI
  · exact .some (.regWo fun _ _ h => .mgtTake h)
  · exact .some (.regRw fun _ _ h => .onMgt h)
  · exact .some (.regRw fun _ _ h => .onMgt h)
  · exact .some (.regWo fun _ _ h => .mgtSend h)
  · exact .some .regRoI
  · exact .some (.regWo fun _ _ h => .mgtSet h)
  · exact .some (.regWo fun _ _ h => .mgtClear h)
  · exact .some .regRoI
  · exact .some .regRoI
  · exact .none

theorem StaysWin.hbmReg {o : Nat} : StaysWin (hbmReg o) := by
  unfold Machine.hbmReg
  refine .ite (.some .regRoI) ?_
  split
  · exact .some (.regRw fun _ _ h => .onHbm h)
  · exact .some (.regWo fun _ _ h => .onHbm h)
  · exact .some (.regWo fun _ _ h => .onHbm h)
  · exact .some (.regWo fun _ _ h => .hbmPublish h)
  · exact .some .regRoI
  · exact .none

theorem StaysWin.idReg {a : Nat} : StaysWin (idReg a) := by
  unfold Machine.idReg
  split
  · exact .some .regRoI
  · exact .some .regRoI
  · exact .some .regRoI
  · exact .some .regRoI
  · exact .some .regRoI
  · exact .some .regRoI
  · exact .some (.regWo fun _ _ h => .idLoad h)
  · exact .some .regRoI
  · exact .some .regRoI
  · exact .none

theorem StaysWin.pqReg {o : Nat} : StaysWin (pqReg o) :=
  .ite (.some .regRoI) (.ite (.some .regRoI) .none)

theorem StaysWin.regAt {c : CoreId} {a : Nat} : StaysWin (regAt c a) := by
  unfold Machine.regAt
  extract_lets _
  split
  · exact .keyReg
  · exact .digReg
  · exact .rngReg
  · exact .ledReg
  · exact .laneReg
  · exact .fabReg
  · exact .hqReg
  · exact .mbxReg
  · exact .timeReg
  · exact .recReg
  · exact .tmpReg
  · exact .pwrReg
  · exact .ite .mgtReg .nvmeReg
  · exact .hbmReg
  · exact .idReg
  · exact .pqReg

theorem StaysBus.busNone {c : CoreId} {a : Nat} : StaysBus s (busNone t c a) :=
  .bad

theorem StaysBus.busRead {c : CoreId} {a : Nat} (h : Stays s t) : StaysBus s (busRead t c a) := by
  unfold Machine.busRead
  refine .ite (.ite .bad (.ok h)) ?_
  refine .ite ?_ (.ite .busNone (.ite .bad (.ok h)))
  split
  next u1 e1 =>
    exact .ok (StaysReg.rd ((StaysWin.ite .none .regAt).get e1) h)
  · exact .busNone

theorem StaysBus.busWrite {c : CoreId} {a : Nat} {w : W36} (h : Stays s t) : StaysBus s (busWrite t c a w) := by
  unfold Machine.busWrite
  refine .ite (.ok (.ramPut h)) ?_
  refine .ite ?_ (.ite .busNone (.ite .bad (.ok (.onHbm h))))
  split
  next u1 e1 =>
    exact .ite .bad (.ite .busNone (.ok (StaysReg.wr ((StaysWin.ite .none .regAt).get e1) h)))
  · exact .busNone

theorem Stays.busTrap {c : CoreId} {x2 : TrapInfo} {stall : Bool} {resume : Nat} (h : Stays s t) : Stays s (busTrap t c x2 stall resume) :=
  .trap (.when h .cdcStall)

theorem Stays.sqCfgWrite {n : Nat} {v : BitVec 32} (h : Stays s t) : Stays s (sqCfgWrite t n v) :=
  .ite (.ite (.sqEnable h) (.onSq h)) (.when h .sqDisable)

theorem Stays.cqCfgWrite {n : Nat} {v : BitVec 32} (h : Stays s t) : Stays s (cqCfgWrite t n v) :=
  .ite (.ite (.cqEnable h) (.onCq h)) (.when h .cqDisable)

theorem Stays.causes {set : BitVec 32} (h : Stays s t) : Stays s (causes t set) :=
  .foldl h fun _ h => .when h .cause

theorem Stays.bar0Write {a : Nat} {size : Nat} {v : BitVec 64} {setNow : BitVec 32} (h : Stays s t) : Stays s (bar0Write t a size v setNow) :=
  .ite h (.ite (.onSq h) (.ite (.onCq h) (.ite h (.ite (.causes (.onHq h)) (.ite (.devAlert h) (.ite (.sqCfgWrite h) (.ite (.onSq h) (.ite
      (.cqCfgWrite h) (.ite (.onCq h) (.ite (.onCq h) (.ite (.sqTail h) (.ite (.cqHead h) h))))))))))))

theorem Stays.bar2Write32 {a : Nat} {v : BitVec 32} (h : Stays s t) : Stays s (bar2Write32 t a v) := by
  unfold Machine.bar2Write32
  extract_lets _ _
  refine .ite h ?_
  split
  · exact .onHq h
  · exact .onHq h
  · exact .onHq h
  · exact .ite (.onHq h) (.unmaskVec h)

theorem Stays.bar2Write {a : Nat} {size : Nat} {v : BitVec 64} (h : Stays s t) : Stays s (bar2Write t a size v) :=
  .ite h (.ite (.bar2Write32 (.bar2Write32 h)) (.bar2Write32 h))

theorem Stays.windowWrite {c : CoreId} {a : Nat} {w : W36} (h : Stays s t) : Stays s (windowWrite t c a w) := by
  unfold Machine.windowWrite
  refine .ite h ?_
  split
  next _ u1 e1 =>
    exact (StaysBus.busWrite h).get e1
  · exact .busTrap h

theorem StaysNext.execRegisterWrite {x0 : RegTarget} (h : Stays s t) : StaysNext s (execRegisterWrite x0 t) :=
  .done (by
    split
    · exact .when h .bar0Write
    · exact .when h .bar2Write
    · exact .when h .onHq
    · exact .windowWrite h)

theorem StaysNext.execReadToClear {f : RcField} {setNow : Bool} (h : Stays s t) : StaysNext s (execReadToClear f setNow t) :=
  .done (.rcClear (.gotWord h))

/-! ### Frames -/

theorem Stays.after {r : Result} (h : Stays s t) (hr : StaysNext s r) : Stays s (after t r) := by
  cases r with
  | next u => exact hr.get rfl
  | fault _ => exact h
  | refused _ => exact h

theorem Stays.deliverMember {k : MKind} {m : MFrame} (h : Stays s t) : Stays s (deliverMember t k m) :=
  .after h (by
    split
    · exact .execJoinRx h
    · exact .execWithdrawRx h
    · exact .execTakeoverRx h
    · exact .execExcludeRx h
    · exact .execShadowCompleteRx h
    · exact .execHandbackOfferRx h
    · exact .execHandbackAcceptRx h
    · exact .execRollQueryRx h
    · exact .execRollConfirmRx h
    · exact .execRollRefuseRx h
    · exact .execViewRx h
    · exact .execViewRequestRx h
    · exact .execDecisionAckRx h)

theorem Stays.deliver {p : Port} {f : Frame} (h : Stays s t) : Stays s (deliver t p f) := by
  unfold Machine.deliver
  split
  · exact .after h (.execVerdictFwdRx h)
  · exact .after h (.execVerdictReplyRx h)
  · exact .after h (.execMirrorJournalRx h)
  · exact .after h (.execPageRequestRx h)
  · exact .after h (.execVoidRequestRx h)
  · exact .after h (.execGroupAckRx h)
  · exact .after h (.execLeaseAckRx h)
  · exact .after h (.execPageRx h)
  · exact .after h (.execPageAbsentRx h)
  · exact .after h (.execVoidBlockRx h)
  · exact .after h (.execLeaseMirrorRx h)
  · exact .after h (.execHeartbeatRx h)
  · exact .after h (.execWitnessQueryRx h)
  · exact .after h (.execWitnessReplyRx h)
  · exact .after h (.execTimePulseRx h)
  · exact .after h (by
      split
      · exact .execKeyTransportRequestRx h
      · exact .execKeyTransportDeliverRx h
      · exact .execKeyTransportRefuseRx h
      · exact .execKeyTransportReceiptRx h)
  · exact .deliverMember h

theorem Stays.acceptFrame {p : Port} {x2 : Header} {payload : Bytes} (h : Stays s t) : Stays s (acceptFrame t p x2 payload) := by
  unfold Machine.acceptFrame
  extract_lets _ _
  split
  · exact .ite (.after h (.execVerdictFwdRx h)) (.discardFrame h)
  · extract_lets _ _
    refine .ite (.discardFrame h) ?_
    refine .ite (.discardFrame h) ?_
    refine .ite (.deliver h) ?_
    refine .ite (.discardFrame h) ?_
    split
    · exact .ite (.deliver h) (.routeFrame h)
    · exact .routeFrame h

theorem StaysNext.execFrameRoute {p : Port} {wire : Bytes} (h : Stays s t) : StaysNext s (execFrameRoute p wire t) :=
  .done (by
    extract_lets _ _ _
    refine .ite h ?_
    refine .ite (.rxFail h) ?_
    refine .ite (.ite (.rxFail h) h) ?_
    split
    · exact .rxFail h
    · exact .acceptFrame (.tookFrame h))

end Sys2Proof.Machine
end

section
/-! SUPPORT. What no operation undoes, for each operation of the Serge instructions. -/

namespace Sys2Proof.Machine

-- One theorem at a time: the check's memory limit leaves no room for a thread for each.
set_option Elab.async false

variable {s t : State}

/-! ### The instructions -/

theorem StaysIter.jumpTo {c : CoreId} {link : Bool} {next : Nat} {x3 : Int} (h : Stays s t) : StaysIter s (jumpTo c link next x3 t) :=
  .ite .bad (.ok (.when h .coreUpd))

theorem StaysIter.useOperand {c : CoreId} {op : MOp} {w : W36} {fault : W36} {next : Nat} (h : Stays s t) :
    StaysIter s (useOperand c op w fault next t) := by
  unfold Machine.useOperand
  split
  · exact .ite (.jumpTo h) .bad
  · exact .ite (.jumpTo h) .bad
  · split
    · exact .bad
    · exact .ite .bad (.ok (.coreUpd h))

theorem StaysIter.memIter {c : CoreId} {exts : List (BitVec 9)} {op : MOp} {mode : SMode} {field : BitVec 5} {a : Nat} (h : Stays s t) :
    StaysIter s (memIter c exts op mode field a t) := by
  unfold Machine.memIter
  extract_lets _ _
  split
  · split
    next _ u2 e2 =>
      exact .ok ((StaysBus.busWrite h).get e2)
    · exact .bad
  · exact .ok (.coreUpd h)
  · exact .ok (.coreUpd h)
  · split
    · exact .ok (.coreUpd h)
    · exact .bad
  · split
    · exact .ok (.coreUpd h)
    · exact .bad
  · exact .jumpTo h
  · exact .jumpTo h
  · exact .useOperand h
  · split
    · exact .bad
    next _ u17 e17 =>
      split
      · exact .bad
      · exact .useOperand ((StaysBus.busRead h).get e17)

theorem StaysIter.xmovIter {c : CoreId} {exts : List (BitVec 9)} {field : BitVec 5} (h : Stays s t) : StaysIter s (xmovIter c exts field t) := by
  unfold Machine.xmovIter
  extract_lets _ _
  split
  · exact .bad
  next _ u2 e2 =>
    split
    · exact .bad
    · split
      · exact .bad
      next _ u6 e6 =>
        exact .ok (.coreUpd ((StaysBus.busWrite ((StaysBus.busRead h).get e2)).get e6))

theorem StaysIter.iter {x : SCtx} {op : SOp} (h : Stays s t) : StaysIter s (iter x op t) := by
  unfold Machine.iter
  extract_lets _ _
  split
  · exact .memIter h
  · exact .xmovIter h
  · exact .jumpTo h
  · exact .jumpTo h
  · exact .ok (.coreUpd h)
  · exact .ok (.coreUpd h)

theorem Stays.finish {c : CoreId} {pc : Nat} {ei : Bool} (h : Stays s t) : Stays s (finish t c pc ei) :=
  .when h .coreUpd

theorem Stays.waitEnd {c : CoreId} {next : Nat} (h : Stays s t) : Stays s (waitEnd t c next) := by
  unfold Machine.waitEnd
  extract_lets s1
  have h1 : Stays s s1 := .finish (.coreUpd h)
  split
  · exact .takeIrq h1
  · exact h1

theorem Stays.iret {c : CoreId} {w : BitVec 14} (h : Stays s t) : Stays s (iret t c w) := by
  unfold Machine.iret
  extract_lets _ _ _ _ _ _ _ _
  split
  · exact .trap h
  · exact .ite (.trap h) (.ite (.trap h) (.ite (.trap h) (.ite (.trap h) (.coreUpd h))))

theorem Stays.svcPost {y : W36} (h : Stays s t) : Stays s (svcPost t y).2 := by
  unfold Machine.svcPost
  split
  · exact .postSelf h
  · exact h

theorem Stays.svcRecord {c : CoreId} {y : W36} (h : Stays s t) : Stays s (svcRecord t c y).2 := by
  unfold Machine.svcRecord
  split
  · exact h
  · split
    · exact h
    · split
      · exact h
      · split
        · exact h
        · exact .append h

theorem Stays.svcExtend {c : CoreId} {y : W36} (h : Stays s t) : Stays s (svcExtend t c y).2 := by
  unfold Machine.svcExtend
  split
  · exact h
  · split
    · exact h
    · split
      · exact h
      · split
        · exact h
        · exact .extend (.digUpd (.digFree (.digBegin h)))

theorem Stays.svcAlert {c : CoreId} {y : W36} (h : Stays s t) : Stays s (svcAlert t c y).2 := by
  unfold Machine.svcAlert
  split
  · exact .dbAlert (.append h)
  · exact h

theorem Stays.service {c : CoreId} (h : Stays s t) : Stays s (service t c).2 := by
  unfold Machine.service
  extract_lets _
  split
  · exact .svcPost h
  · exact .svcRecord h
  · exact .svcExtend h
  · exact .svcAlert h
  · exact h

theorem Stays.svcOwner {c : CoreId} {next : Nat} (h : Stays s t) : Stays s (svcOwner t c next) := by
  unfold Machine.svcOwner
  exact .onCore (.coreUpd (.service (.enter h)))

theorem Stays.runControl {c : CoreId} {g : GOp} {w : BitVec 14} {next : Nat} (h : Stays s t) : Stays s (runControl t c g w next) := by
  unfold Machine.runControl
  split
  · exact .haltCore h
  · exact .ite (.waitEnd h) (.coreUpd h)
  · exact .ite (.svcOwner h) (.trap h)
  · exact .finish h
  · exact .iret h
  · exact h

theorem Stays.instr {x : SCtx} {op : SOp} (h : Stays s t) : Stays s (instr x op t) := by
  unfold Machine.instr
  extract_lets _ _ _ _ _ _ _
  refine .ite h ?_
  split
  · exact .trap h
  · refine .ite (.finish h) ?_
    refine .ite (.trap h) ?_
    split
    · exact .trap (.coreUpd h)
    · refine .ite ?_ ?_
      · split
        · exact .runControl h
        · split
          · exact .busTrap h
          next u8 _ e8 =>
            exact .finish ((StaysIter.iter h).get e8)
      · split
        · exact .trap h
        · exact .ite (.finish h) (.coreUpd h)

theorem StaysNext.execRepeatIteration {c : CoreId} (h : Stays s t) : StaysNext s (execRepeatIteration c t) :=
  .done (by
    extract_lets _ _
    split
    · exact h
    · extract_lets _ x3
      refine .ite h ?_
      clear_value x3
      split
      · exact .takeIrq (.coreUpd h)
      · exact .trap h
      · split
        · exact .busTrap h
        next u8 _ e8 =>
          exact .ite (.finish (.when ((StaysIter.iter h).get e8) .coreUpd)) (.when ((StaysIter.iter h).get e8) .coreUpd))

theorem StaysNext.execUndefinedInstruction {c : CoreId} {words : List (BitVec 14)} (h : Stays s t) :
    StaysNext s (execUndefinedInstruction c words t) :=
  .done (by
    extract_lets _
    refine .ite h ?_
    split
    · exact .trap h
    · exact h)

theorem StaysNext.execWaitComplete {c : CoreId} (h : Stays s t) : StaysNext s (execWaitComplete c t) :=
  .done (.when h .waitEnd)

theorem StaysNext.execLd {x : SCtx} {mode : SMode} {field : BitVec 5} (h : Stays s t) : StaysNext s (execLd x mode field t) :=
  .done (.instr h)

theorem StaysNext.execSt {x : SCtx} {mode : SMode} {field : BitVec 5} (h : Stays s t) : StaysNext s (execSt x mode field t) :=
  .done (.instr h)

theorem StaysNext.execAdd {x : SCtx} {mode : SMode} {field : BitVec 5} (h : Stays s t) : StaysNext s (execAdd x mode field t) :=
  .done (.instr h)

theorem StaysNext.execSub {x : SCtx} {mode : SMode} {field : BitVec 5} (h : Stays s t) : StaysNext s (execSub x mode field t) :=
  .done (.instr h)

theorem StaysNext.execAndOp {x : SCtx} {mode : SMode} {field : BitVec 5} (h : Stays s t) : StaysNext s (execAndOp x mode field t) :=
  .done (.instr h)

theorem StaysNext.execOrOp {x : SCtx} {mode : SMode} {field : BitVec 5} (h : Stays s t) : StaysNext s (execOrOp x mode field t) :=
  .done (.instr h)

theorem StaysNext.execXor {x : SCtx} {mode : SMode} {field : BitVec 5} (h : Stays s t) : StaysNext s (execXor x mode field t) :=
  .done (.instr h)

theorem StaysNext.execCmp {x : SCtx} {mode : SMode} {field : BitVec 5} (h : Stays s t) : StaysNext s (execCmp x mode field t) :=
  .done (.instr h)

theorem StaysNext.execMul {x : SCtx} {mode : SMode} {field : BitVec 5} (h : Stays s t) : StaysNext s (execMul x mode field t) :=
  .done (.instr h)

theorem StaysNext.execDiv {x : SCtx} {mode : SMode} {field : BitVec 5} (h : Stays s t) : StaysNext s (execDiv x mode field t) :=
  .done (.instr h)

theorem StaysNext.execLdx {x : SCtx} {mode : SMode} {field : BitVec 5} (h : Stays s t) : StaysNext s (execLdx x mode field t) :=
  .done (.instr h)

theorem StaysNext.execLdy {x : SCtx} {mode : SMode} {field : BitVec 5} (h : Stays s t) : StaysNext s (execLdy x mode field t) :=
  .done (.instr h)

theorem StaysNext.execJmp {x : SCtx} {mode : SMode} {field : BitVec 5} (h : Stays s t) : StaysNext s (execJmp x mode field t) :=
  .done (.instr h)

theorem StaysNext.execCall {x : SCtx} {mode : SMode} {field : BitVec 5} (h : Stays s t) : StaysNext s (execCall x mode field t) :=
  .done (.instr h)

theorem StaysNext.execXmov {x : SCtx} {field : BitVec 5} (h : Stays s t) : StaysNext s (execXmov x field t) :=
  .done (.instr h)

theorem StaysNext.execNop {x : SCtx} (h : Stays s t) : StaysNext s (execNop x t) :=
  .done (.instr h)

theorem StaysNext.execHalt {x : SCtx} (h : Stays s t) : StaysNext s (execHalt x t) :=
  .done (.instr h)

theorem StaysNext.execWait {x : SCtx} (h : Stays s t) : StaysNext s (execWait x t) :=
  .done (.instr h)

theorem StaysNext.execSvc {x : SCtx} (h : Stays s t) : StaysNext s (execSvc x t) :=
  .done (.instr h)

theorem StaysNext.execEi {x : SCtx} (h : Stays s t) : StaysNext s (execEi x t) :=
  .done (.instr h)

theorem StaysNext.execDi {x : SCtx} (h : Stays s t) : StaysNext s (execDi x t) :=
  .done (.instr h)

theorem StaysNext.execIret {x : SCtx} (h : Stays s t) : StaysNext s (execIret x t) :=
  .done (.instr h)

theorem StaysNext.execRet {x : SCtx} (h : Stays s t) : StaysNext s (execRet x t) :=
  .done (.instr h)

theorem StaysNext.execJmpa {x : SCtx} (h : Stays s t) : StaysNext s (execJmpa x t) :=
  .done (.instr h)

theorem StaysNext.execNeg {x : SCtx} (h : Stays s t) : StaysNext s (execNeg x t) :=
  .done (.instr h)

theorem StaysNext.execNotOp {x : SCtx} (h : Stays s t) : StaysNext s (execNotOp x t) :=
  .done (.instr h)

theorem StaysNext.execStx {x : SCtx} (h : Stays s t) : StaysNext s (execStx x t) :=
  .done (.instr h)

theorem StaysNext.execSty {x : SCtx} (h : Stays s t) : StaysNext s (execSty x t) :=
  .done (.instr h)

theorem StaysNext.execXa {x : SCtx} (h : Stays s t) : StaysNext s (execXa x t) :=
  .done (.instr h)

theorem StaysNext.execYa {x : SCtx} (h : Stays s t) : StaysNext s (execYa x t) :=
  .done (.instr h)

theorem StaysNext.execLra {x : SCtx} (h : Stays s t) : StaysNext s (execLra x t) :=
  .done (.instr h)

theorem StaysNext.execAlr {x : SCtx} (h : Stays s t) : StaysNext s (execAlr x t) :=
  .done (.instr h)

theorem StaysNext.execAsi {x : SCtx} (h : Stays s t) : StaysNext s (execAsi x t) :=
  .done (.instr h)

theorem StaysNext.execAsb {x : SCtx} (h : Stays s t) : StaysNext s (execAsb x t) :=
  .done (.instr h)

theorem StaysNext.execLslx {x : SCtx} (h : Stays s t) : StaysNext s (execLslx x t) :=
  .done (.instr h)

theorem StaysNext.execLsrx {x : SCtx} (h : Stays s t) : StaysNext s (execLsrx x t) :=
  .done (.instr h)

theorem StaysNext.execAsrx {x : SCtx} (h : Stays s t) : StaysNext s (execAsrx x t) :=
  .done (.instr h)

theorem StaysNext.execRorx {x : SCtx} (h : Stays s t) : StaysNext s (execRorx x t) :=
  .done (.instr h)

theorem StaysNext.execAdp {x : SCtx} (h : Stays s t) : StaysNext s (execAdp x t) :=
  .done (.instr h)

theorem StaysNext.execTq {x : SCtx} {x1 : BitVec 3} (h : Stays s t) : StaysNext s (execTq x x1 t) :=
  .done (.instr h)

theorem StaysNext.execDpa {x : SCtx} (h : Stays s t) : StaysNext s (execDpa x t) :=
  .done (.instr h)

theorem StaysNext.execLsl {x : SCtx} {field : BitVec 5} (h : Stays s t) : StaysNext s (execLsl x field t) :=
  .done (.instr h)

theorem StaysNext.execLsr {x : SCtx} {field : BitVec 5} (h : Stays s t) : StaysNext s (execLsr x field t) :=
  .done (.instr h)

theorem StaysNext.execAsr {x : SCtx} {field : BitVec 5} (h : Stays s t) : StaysNext s (execAsr x field t) :=
  .done (.instr h)

/-! ### Every command -/

theorem StaysNext.exec {i : Instr} (h : Stays s t) : StaysNext s (exec i t) := by
  unfold Machine.exec
  cases i with
  | vstbyEnterWindow => exact .execVstbyEnterWindow h
  | recordStoreRecoveryDone => exact .execRecordStoreRecoveryDone h
  | mainPgoodHigh => exact .execMainPgoodHigh h
  | mainPgoodFall => exact .execMainPgoodFall h
  | mainPgoodLowTimeout => exact .execMainPgoodLowTimeout h
  | sysReset => exact .execSysReset h
  | pciePerst => exact .execPciePerst h
  | functionLevelReset => exact .execFunctionLevelReset h
  | pwrfailAssert => exact .execPwrfailAssert h
  | vstbyWarning => exact .execVstbyWarning h
  | pwrfailPause => exact .execPwrfailPause h
  | pwrfailReopen => exact .execPwrfailReopen h
  | pwrfailDeassert => exact .execPwrfailDeassert h
  | standbyDomainStop => exact .execStandbyDomainStop h
  | vaultEnter => exact .execVaultEnter h
  | vstbyReturn => exact .execVstbyReturn h
  | totalPowerLoss => exact .execTotalPowerLoss h
  | vbatLow => exact .execVbatLow h
  | vbatReturn => exact .execVbatReturn h
  | holdcapMeasured => exact .execHoldcapMeasured h
  | gatehouseLinkAgreed => exact .execGatehouseLinkAgreed h
  | gatehouseLinkFrameRx => exact .execGatehouseLinkFrameRx h
  | imageBankStreamed => exact .execImageBankStreamed h
  | bootKeyStoreOpen => exact .execBootKeyStoreOpen h
  | hbmTrainingDone => exact .execHbmTrainingDone h
  | driveReady => exact .execDriveReady h
  | driveAttachTimeout => exact .execDriveAttachTimeout h
  | journalReplayDone => exact .execJournalReplayDone h
  | pergolaJoinEnd => exact .execPergolaJoinEnd h
  | sqEnable => exact .execSqEnable h
  | sqDisable => exact .execSqDisable h
  | sqDrainDone => exact .execSqDrainDone h
  | cqEnable => exact .execCqEnable h
  | cqDisable => exact .execCqDisable h
  | sqTailDoorbell => exact .execSqTailDoorbell h
  | cqHeadDoorbell => exact .execCqHeadDoorbell h
  | devAlertWrite => exact .execDevAlertWrite h
  | devTimeLowRead => exact .execDevTimeLowRead h
  | timeNowLowRead => exact .execTimeNowLowRead h
  | measWord0Read => exact .execMeasWord0Read h
  | resultEarlyRead => exact .execResultEarlyRead h
  | readToClear => exact .execReadToClear h
  | registerWrite => exact .execRegisterWrite h
  | msixUnmask => exact .execMsixUnmask h
  | entryFetch => exact .execEntryFetch h
  | entryReadFail => exact .execEntryReadFail h
  | completionWriteFail => exact .execCompletionWriteFail h
  | irqModerationTick => exact .execIrqModerationTick h
  | telemetryRefresh => exact .execTelemetryRefresh h
  | gatehouseTelemetryRefresh => exact .execGatehouseTelemetryRefresh h
  | driveLogPoll => exact .execDriveLogPoll h
  | defineEvent => exact .execDefineEvent h
  | closeEvent => exact .execCloseEvent h
  | voidSerials => exact .execVoidSerials h
  | importKey => exact .execImportKey h
  | deriveKey => exact .execDeriveKey h
  | retireKey => exact .execRetireKey h
  | setTimeVoucher => exact .execSetTimeVoucher h
  | queryLedger => exact .execQueryLedger h
  | epochRoll => exact .execEpochRoll h
  | bindRing => exact .execBindRing h
  | getStats => exact .execGetStats h
  | handBack => exact .execHandBack h
  | controlBlockReadFail => exact .execControlBlockReadFail h
  | mintIntake => exact .execMintIntake h
  | mintWrapperReadDone => exact .execMintWrapperReadDone h
  | mintWrapperReadTimeout => exact .execMintWrapperReadTimeout h
  | mintClock => exact .execMintClock h
  | mintRule => exact .execMintRule h
  | keyCacheFill => exact .execKeyCacheFill h
  | mintDrbgTimeout => exact .execMintDrbgTimeout h
  | mintLedgerAssign => exact .execMintLedgerAssign h
  | leaseOpenTimeout => exact .execLeaseOpenTimeout h
  | mintSealDone => exact .execMintSealDone h
  | mldsaJobDone => exact .execMldsaJobDone h
  | mintOutputWriteFail => exact .execMintOutputWriteFail h
  | verdictIntake => exact .execVerdictIntake h
  | verdictFwdRx => exact .execVerdictFwdRx h
  | heldForwardTimeout => exact .execHeldForwardTimeout h
  | forwardContextTimeout => exact .execForwardContextTimeout h
  | verdictCheck => exact .execVerdictCheck h
  | verdictClock => exact .execVerdictClock h
  | verdictRule => exact .execVerdictRule h
  | verdictLedgerApply => exact .execVerdictLedgerApply h
  | verdictReplyRx => exact .execVerdictReplyRx h
  | forwardReplyTimeout => exact .execForwardReplyTimeout h
  | passbackRebuildBlock => exact .execPassbackRebuildBlock h
  | groupTick => exact .execGroupTick h
  | journalBlockWriteDone => exact .execJournalBlockWriteDone h
  | driveWriteError => exact .execDriveWriteError h
  | driveLost => exact .execDriveLost h
  | mirrorJournalRx => exact .execMirrorJournalRx h
  | groupAckRx => exact .execGroupAckRx h
  | leaseMirrorRx => exact .execLeaseMirrorRx h
  | leaseAckRx => exact .execLeaseAckRx h
  | pageRequestRx => exact .execPageRequestRx h
  | pageRx => exact .execPageRx h
  | pageAbsentRx => exact .execPageAbsentRx h
  | voidRequestRx => exact .execVoidRequestRx h
  | voidBlockRx => exact .execVoidBlockRx h
  | mirrorResendTimeout => exact .execMirrorResendTimeout h
  | durabilityTimeout => exact .execDurabilityTimeout h
  | pageReadDone => exact .execPageReadDone h
  | pageMissSecondRead => exact .execPageMissSecondRead h
  | pageMissTimeout => exact .execPageMissTimeout h
  | checkpointStart => exact .execCheckpointStart h
  | checkpointWritesDone => exact .execCheckpointWritesDone h
  | voidRewritePage => exact .execVoidRewritePage h
  | resilverCopyDone => exact .execResilverCopyDone h
  | pcRebuildDone => exact .execPcRebuildDone h
  | rollConfirmTimeout => exact .execRollConfirmTimeout h
  | linkTrainStart => exact .execLinkTrainStart h
  | trainingPatternDetect => exact .execTrainingPatternDetect h
  | helloRx => exact .execHelloRx h
  | keyxRx => exact .execKeyxRx h
  | linkTrainTimeout => exact .execLinkTrainTimeout h
  | linkRetryTimer => exact .execLinkRetryTimer h
  | linkRekey => exact .execLinkRekey h
  | ackTimer => exact .execAckTimer h
  | ackRx => exact .execAckRx h
  | nakRx => exact .execNakRx h
  | linkAckTimeout => exact .execLinkAckTimeout h
  | degradeRx => exact .execDegradeRx h
  | laneRetrainDone => exact .execLaneRetrainDone h
  | laneRetrainTimeout => exact .execLaneRetrainTimeout h
  | downRx => exact .execDownRx h
  | frameRoute => exact .execFrameRoute h
  | heartbeatTimer => exact .execHeartbeatTimer h
  | heartbeatRx => exact .execHeartbeatRx h
  | heartbeatSilence => exact .execHeartbeatSilence h
  | witnessQueryRx => exact .execWitnessQueryRx h
  | witnessReplyRx => exact .execWitnessReplyRx h
  | decisionAckRx => exact .execDecisionAckRx h
  | grantLapse => exact .execGrantLapse h
  | collectionTimeout => exact .execCollectionTimeout h
  | collectionRetry => exact .execCollectionRetry h
  | abstainPeriodEnd => exact .execAbstainPeriodEnd h
  | joinRx => exact .execJoinRx h
  | withdrawRx => exact .execWithdrawRx h
  | takeoverRx => exact .execTakeoverRx h
  | excludeRx => exact .execExcludeRx h
  | shadowCompleteRx => exact .execShadowCompleteRx h
  | handbackOfferRx => exact .execHandbackOfferRx h
  | handbackAcceptRx => exact .execHandbackAcceptRx h
  | handbackOfferTimeout => exact .execHandbackOfferTimeout h
  | rollQueryRx => exact .execRollQueryRx h
  | rollConfirmRx => exact .execRollConfirmRx h
  | rollRefuseRx => exact .execRollRefuseRx h
  | rollConfirmLapse => exact .execRollConfirmLapse h
  | viewRequestRx => exact .execViewRequestRx h
  | viewRx => exact .execViewRx h
  | viewRequestTimeout => exact .execViewRequestTimeout h
  | timePulseTimer => exact .execTimePulseTimer h
  | timePulseRx => exact .execTimePulseRx h
  | keyTransportRequestRx => exact .execKeyTransportRequestRx h
  | keyTransportDeliverRx => exact .execKeyTransportDeliverRx h
  | keyTransportRefuseRx => exact .execKeyTransportRefuseRx h
  | keyTransportReceiptRx => exact .execKeyTransportReceiptRx h
  | keyTransportTimeout => exact .execKeyTransportTimeout h
  | coreReset => exact .execCoreReset h
  | ld => exact .execLd h
  | st => exact .execSt h
  | add => exact .execAdd h
  | sub => exact .execSub h
  | andOp => exact .execAndOp h
  | orOp => exact .execOrOp h
  | xor => exact .execXor h
  | cmp => exact .execCmp h
  | mul => exact .execMul h
  | div => exact .execDiv h
  | ldx => exact .execLdx h
  | ldy => exact .execLdy h
  | jmp => exact .execJmp h
  | call => exact .execCall h
  | xmov => exact .execXmov h
  | nop => exact .execNop h
  | halt => exact .execHalt h
  | wait => exact .execWait h
  | waitComplete => exact .execWaitComplete h
  | svc => exact .execSvc h
  | ei => exact .execEi h
  | di => exact .execDi h
  | iret => exact .execIret h
  | ret => exact .execRet h
  | jmpa => exact .execJmpa h
  | neg => exact .execNeg h
  | notOp => exact .execNotOp h
  | stx => exact .execStx h
  | sty => exact .execSty h
  | xa => exact .execXa h
  | ya => exact .execYa h
  | lra => exact .execLra h
  | alr => exact .execAlr h
  | asi => exact .execAsi h
  | asb => exact .execAsb h
  | lslx => exact .execLslx h
  | lsrx => exact .execLsrx h
  | asrx => exact .execAsrx h
  | rorx => exact .execRorx h
  | adp => exact .execAdp h
  | tq => exact .execTq h
  | dpa => exact .execDpa h
  | lsl => exact .execLsl h
  | lsr => exact .execLsr h
  | asr => exact .execAsr h
  | undefinedInstruction => exact .execUndefinedInstruction h
  | repeatIteration => exact .execRepeatIteration h
  | interruptEntry => exact .execInterruptEntry h
  | keyCmdOpen => exact .execKeyCmdOpen h
  | keyCmdClose => exact .execKeyCmdClose h
  | keyCmdImport => exact .execKeyCmdImport h
  | keyCmdDerive => exact .execKeyCmdDerive h
  | keyCmdRetire => exact .execKeyCmdRetire h
  | keyCmdVerify => exact .execKeyCmdVerify h
  | keyCmdMac => exact .execKeyCmdMac h
  | keyCmdTransportWrap => exact .execKeyCmdTransportWrap h
  | keyCmdTransportUnwrap => exact .execKeyCmdTransportUnwrap h
  | keyCmdAttest => exact .execKeyCmdAttest h
  | keyCommandEnd => exact .execKeyCommandEnd h
  | digStart => exact .execDigStart h
  | digUpdate => exact .execDigUpdate h
  | digFinish => exact .execDigFinish h
  | digAbort => exact .execDigAbort h
  | digCommandEnd => exact .execDigCommandEnd h
  | rngGenerate => exact .execRngGenerate h
  | rngGenerateFresh => exact .execRngGenerateFresh h
  | rngSelect => exact .execRngSelect h
  | rngTest => exact .execRngTest h
  | rngCommandEnd => exact .execRngCommandEnd h
  | noiseHealthFail => exact .execNoiseHealthFail h
  | noiseStartupTestDone => exact .execNoiseStartupTestDone h
  | reseedBufferFull => exact .execReseedBufferFull h
  | drbgReseedLimit => exact .execDrbgReseedLimit h
  | drbgRequestTimeout => exact .execDrbgRequestTimeout h
  | noiseRetestTimer => exact .execNoiseRetestTimer h
  | ledQuery => exact .execLedQuery h
  | ledVoid => exact .execLedVoid h
  | ledRoll => exact .execLedRoll h
  | ledCheckpoint => exact .execLedCheckpoint h
  | ledCommandEnd => exact .execLedCommandEnd h
  | laneSelftest => exact .execLaneSelftest h
  | laneSelftestDone => exact .execLaneSelftestDone h
  | lanePurge => exact .execLanePurge h
  | laneClockGate => exact .execLaneClockGate h
  | hqCtlFetch => exact .execHqCtlFetch h
  | hqCtlComplete => exact .execHqCtlComplete h
  | hqDmaHostToLocal => exact .execHqDmaHostToLocal h
  | hqDmaLocalToHost => exact .execHqDmaLocalToHost h
  | hqDmaDone => exact .execHqDmaDone h
  | hqPlaneOpen => exact .execHqPlaneOpen h
  | hqPlanePause => exact .execHqPlanePause h
  | hqBind => exact .execHqBind h
  | hbmPublish => exact .execHbmPublish h
  | hbmPublishEnd => exact .execHbmPublishEnd h
  | fabCmdHandBack => exact .execFabCmdHandBack h
  | fabCmdWithdraw => exact .execFabCmdWithdraw h
  | fabCmdKeyRequest => exact .execFabCmdKeyRequest h
  | fabCmdRollQuery => exact .execFabCmdRollQuery h
  | fabCommandEnd => exact .execFabCommandEnd h
  | nvmeAttachResilver => exact .execNvmeAttachResilver h
  | driveAttach => exact .execDriveAttach h
  | nvmeRetire => exact .execNvmeRetire h
  | timeVoucherSubmit => exact .execTimeVoucherSubmit h
  | timeCommandEnd => exact .execTimeCommandEnd h
  | timeMirrorUpdate => exact .execTimeMirrorUpdate h
  | recAppend => exact .execRecAppend h
  | recRead => exact .execRecRead h
  | recReadDone => exact .execRecReadDone h
  | recBeginTx => exact .execRecBeginTx h
  | recAbortTx => exact .execRecAbortTx h
  | recHotWrite => exact .execRecHotWrite h
  | recHotRead => exact .execRecHotRead h
  | recAppendCommit => exact .execRecAppendCommit h
  | appendPreconditionsMet => exact .execAppendPreconditionsMet h
  | sectorEraseDone => exact .execSectorEraseDone h
  | sectorRefresh => exact .execSectorRefresh h
  | pwrRoleGive => exact .execPwrRoleGive h
  | pwrRoleTake => exact .execPwrRoleTake h
  | pwrWdog => exact .execPwrWdog h
  | watchdogExpire => exact .execWatchdogExpire h
  | pwrPeerReset => exact .execPwrPeerReset h
  | pwrReqNap => exact .execPwrReqNap h
  | pwrReqKeep => exact .execPwrReqKeep h
  | pwrReqWake => exact .execPwrReqWake h
  | keepWithdrawWaitTimeout => exact .execKeepWithdrawWaitTimeout h
  | napWakeEvent => exact .execNapWakeEvent h
  | napWakeDone => exact .execNapWakeDone h
  | keepWake => exact .execKeepWake h
  | gpioWakeInput => exact .execGpioWakeInput h
  | idLoad => exact .execIdLoad h
  | mbxPostNext => exact .execMbxPostNext h
  | mbxPostSelf => exact .execMbxPostSelf h
  | observationPost => exact .execObservationPost h
  | mbxApply => exact .execMbxApply h
  | failoverSettled => exact .execFailoverSettled h
  | unitDrained => exact .execUnitDrained h
  | mbxDoorbellTable => exact .execMbxDoorbellTable h
  | mbxDoorbellAlert => exact .execMbxDoorbellAlert h
  | mbxIrqPendingClear => exact .execMbxIrqPendingClear h
  | timerMatch => exact .execTimerMatch h
  | mbxPeerSend => exact .execMbxPeerSend h
  | mbxPeerAck => exact .execMbxPeerAck h
  | mbxGSend => exact .execMbxGSend h
  | mbxGAck => exact .execMbxGAck h
  | tamperAlarm => exact .execTamperAlarm h
  | tamperFlushDone => exact .execTamperFlushDone h
  | tamperClear => exact .execTamperClear h
  | tamperWithdrawTimer => exact .execTamperWithdrawTimer h
  | tamperLoopTick => exact .execTamperLoopTick h
  | jtagUpdateIr => exact .execJtagUpdateIr h
  | cdcStall => exact .execCdcStall h
  | crossingResync => exact .execCrossingResync h
  | pulseDeliver => exact .execPulseDeliver h
  | pulsePhaseEnd => exact .execPulsePhaseEnd h
  | mctpMessageRx => exact .execMctpMessageRx h
  | setEndpointId => exact .execSetEndpointId h
  | getEndpointId => exact .execGetEndpointId h
  | getMctpVersionSupport => exact .execGetMctpVersionSupport h
  | getMessageTypeSupport => exact .execGetMessageTypeSupport h
  | getVendorDefinedMessageSupport => exact .execGetVendorDefinedMessageSupport h
  | mctpUnsupportedCommand => exact .execMctpUnsupportedCommand h
  | getIdentity => exact .execGetIdentity h
  | getHealth => exact .execGetHealth h
  | getTelemetry => exact .execGetTelemetry h
  | getUnitTable => exact .execGetUnitTable h
  | proposeUnitState => exact .execProposeUnitState h
  | stageImageBlock => exact .execStageImageBlock h
  | commitStagedImage => exact .execCommitStagedImage h
  | attest => exact .execAttest h
  | mgtSetTimeVoucher => exact .execMgtSetTimeVoucher h
  | getLog => exact .execGetLog h
  | clearAlert => exact .execClearAlert h
  | twinStatus => exact .execTwinStatus h
  | mgtRxTake => exact .execMgtRxTake h
  | mgtTxSend => exact .execMgtTxSend h
  | mgtAlertSet => exact .execMgtAlertSet h
  | mgtAlertClear => exact .execMgtAlertClear h
  | frameCrcGcmFailure => exact .execFrameCrcGcmFailure h

end Sys2Proof.Machine
end

section
/-! OBLIGATIONS. The statements of chapter 00 and of the reset state. -/

namespace Sys2Proof.Machine

-- One theorem at a time: the check's memory limit leaves no room for a thread for each.
set_option Elab.async false

/-- A step leaves standing what its command leaves standing. -/
theorem Stays.of_step {s t : State} (h : step s = .next t) : Stays s t := by
  unfold Machine.step at h
  split at h
  · cases h
    exact .refl s
  · exact (StaysNext.exec (.withPending (.refl s))).get h

/-- Every unit that the variant lacks stays ABSENT, in a table that keeps its form (00 R3). -/
theorem Stays.unitsInv {s t : State} (h : Stays s t) (hs : UnitsInv s) : UnitsInv t := by
  obtain ⟨hform, hlack⟩ := hs
  exact ⟨h.form hform, fun u hu => h.absent hform u (hlack u (h.variant ▸ hu))⟩

/-- A table reads the default at a key that it does not list. -/
theorem tget_unlisted {α : Type} {d : α} {k : Nat} : ∀ {t : Tbl α}, (∀ p ∈ t, p.1 ≠ k) → tget d t k = d
  | [], _ => rfl
  | p :: t, h => by rw [tget, if_neg (h p (by simp)), tget_unlisted fun q hq => h q (by simp [hq])]

/-- The table of a device that has had no unit change lists the fitted units only. -/
theorem freshUnits_absent {v : Variant} {u : Nat} (h : unitFitted v u = false) : (tget {} (freshUnits v) u).st = .absent := by
  rw [tget_unlisted]
  intro p hp e
  simp only [freshUnits, List.mem_map, List.mem_filter] at hp
  obtain ⟨w, ⟨_, hw⟩, rfl⟩ := hp
  rw [show w = u from e, h] at hw
  exact absurd hw (by decide)

/-- Settles O46: whatever the command, `Stays` relates the state after a step to the state before it. -/
theorem absentUnitsStayAbsent : Obligations.AbsentUnitsStayAbsent := by
  refine ⟨fun s t hs hstep => ?_, fun v u hu => freshUnits_absent hu⟩
  have h : Stays s t := .of_step hstep
  exact ⟨h.unitsInv hs, h.variant, h.absent hs.1⟩

/-- A device with its host link up whose MSI-X table lists vector 0 twice, unmasked both times. -/
def twiceListed : State :=
  { hq := { linkUp := true, vecs := [(0, { masked := false }), (0, { masked := false })] }, pow := { mainUp := true } }

/-- The same device after a write of 1 to the mask bit of vector 0: the first entry, now the default one, has been dropped. -/
def onceListed : State := twiceListed.onHq fun x => { x with vecs := [(0, { masked := false })] }

theorem maskWrite_twiceListed : exec (.registerWrite (.bar2 (16 * 0 + 12) 4 ((1 : BitVec 32).zeroExtend 64))) twiceListed = .next onceListed := rfl

/-- Refutes O37: its clause on the mask bit admits an MSI-X table that lists a vector twice (its clause on the message data does not). Masking the
vector drops the first entry, and the vector then reads as the second, which is not masked. -/
theorem not_registersReadAndWrite : ¬ Obligations.RegistersReadAndWrite := by
  intro h
  obtain ⟨_, _, _, _, hmsix, _⟩ := h
  obtain ⟨_, hmask⟩ := hmsix twiceListed 0 1 rfl rfl (by decide)
  obtain ⟨t, ht, hmasked⟩ := hmask rfl
  obtain rfl : onceListed = t := Host.Outcome.next.inj (maskWrite_twiceListed.symm.trans ht)
  exact absurd hmasked (by decide)

/-- Settles O44, by the definition of a step for each shape of the queue. -/
theorem stepRunsTheFrontCommand : Obligations.StepRunsTheFrontCommand :=
  ⟨fun s c rest h => by rw [step, h], fun s h => by rw [step, h]⟩

theorem coreGet_reset (c : CoreId) : coreGet State.reset c = {} := by cases c <;> rfl

theorem unitsInv_reset : UnitsInv State.reset := ⟨by decide +kernel, fun _ hu => freshUnits_absent hu⟩

/-- Settles O45, from the reset value of a core and of the unit table. -/
theorem resetStateIsSound : Obligations.ResetStateIsSound := by
  refine ⟨fun c => ?_, unitsInv_reset, fun v u hu => freshUnits_absent hu, rfl, rfl, rfl, rfl, rfl, rfl⟩
  have hcore := coreGet_reset c
  exact ⟨hcore, by rw [hcore]; rfl, by rw [hcore], by rw [hcore], fun a => by rw [ramGet, hcore]; rfl⟩

end Sys2Proof.Machine
end

section
/-! OBLIGATIONS. Meeting point M1 and the mailboxes. -/

namespace Sys2Proof.Machine

/-- Core A runs, the post queue has overflowed, and the last post that it kept, about unit 2, is in it. The unit has stopped taking work. -/
def overflowSt : State :=
  { pow := { mainUp := true }
    unit := { tbl := [(2, { st := .active, stopped := true })], posts := [{ unit := 2, st := 6, source := 2 }], overflow := true } }

/-- Core A may write MBX_POST_NEXT there. -/
theorem reaches_overflowSt : Reaches overflowSt .a 0x9C03 true := ⟨by decide, by decide⟩

/-- The head post taken off the queue and processed by itself, as the statement has it. -/
def headPostAlone (s : State) (p : Post) (rest : List Post) : State :=
  processPost (hookPost (s.onUnit fun m => { m with posts := rest, overflow := m.overflow && !rest.isEmpty }) p) p

theorem decided_headPostAlone : (headPostAlone overflowSt { unit := 2, st := 6, source := 2 } []).unit.decided = [(2, .failed, 0)] := by decide

/-- The reread of the units that follows decides on unit 2 once more. -/
theorem decided_postNext_overflowSt :
    ∃ t, exec (.mbxPostNext .a) overflowSt = .next t ∧ t.unit.decided = [(2, .failed, 0), (2, .failed, 1)] := ⟨_, rfl, by decide⟩

/-- Refutes O13: its clause on MBX_POST_NEXT leaves out what firmware does after an overflow (09 R499). When the post taken off is the last of a queue that
had overflowed, the units are read again, and one that has stopped taking work is decided on as well. -/
theorem not_meetingPointAndMailAct : ¬ Obligations.MeetingPointAndMailAct := by
  rintro ⟨hnext, -⟩
  have claimed : exec (.mbxPostNext .a) overflowSt = .next (headPostAlone overflowSt { unit := 2, st := 6, source := 2 } []) :=
    hnext overflowSt .a _ _ reaches_overflowSt rfl
  obtain ⟨t, ht, hdecided⟩ := decided_postNext_overflowSt
  obtain rfl : t = _ := Host.Outcome.next.inj (ht.symm.trans claimed)
  rw [decided_headPostAlone] at hdecided
  exact absurd hdecided (by decide)

end Sys2Proof.Machine
end

section
/-! SUPPORT. Frames of folds, of the fabric's sending and of a flood; window commands that are carried out. -/

namespace Sys2Proof.Machine

/-- A command written to a window that it reaches has its effect. -/
theorem winCmd_of_reaches {s : State} {c : CoreId} {a : Nat} {aOnly : Bool} (h : Reaches s c a aOnly) (f : State → State) :
    winCmd s c a aOnly f = f s := by
  obtain ⟨hlive, hrefused⟩ := h
  simp [winCmd, hlive, hrefused]

@[simp] theorem State.when_true (s : State) (f : State → State) : s.when true f = f s := rfl
@[simp] theorem State.when_false (s : State) (f : State → State) : s.when false f = s := rfl

theorem Keeps.foldl {α : Type} {l : List Part} {f : State → α → State} (h : ∀ s x, Keeps l s (f s x)) :
    ∀ (xs : List α) (s : State), Keeps l s (xs.foldl f s)
  | [], s => .refl l s
  | x :: xs, s => (h s x).trans (Keeps.foldl h xs (f s x))

/-- What each step of a fold leaves alone, the fold leaves alone. -/
theorem foldl_same {α β : Type} {f : State → α → State} (g : State → β) (h : ∀ s x, g (f s x) = g s) :
    ∀ (xs : List α) (s : State), g (xs.foldl f s) = g s
  | [], _ => rfl
  | x :: xs, s => (foldl_same g h xs (f s x)).trans (h s x)

/-! ### Sending on a port, flooding, the view -/

theorem keeps_onPort (s : State) (p : Port) (f : PortSt → PortSt) : Keeps [.fab] s (onPort s p f) := keeps_onFab s _

theorem keeps_putFrame (s : State) (p : Port) (f : Frame) : Keeps [.fab, .out] s (putFrame s p f) :=
  ((keeps_onPort s p _).mono (by simp)).trans ((keeps_onOut _ _).mono (by simp))

theorem keeps_sendOn (s : State) (p : Port) (f : Frame) : Keeps [.fab, .out] s (sendOn s p f) := by
  unfold sendOn
  split
  · exact keeps_putFrame s p f
  · exact (keeps_onPort s p _).mono (by simp)

theorem sendOn_view (s : State) (p : Port) (f : Frame) : (sendOn s p f).fab.view = s.fab.view := by
  unfold sendOn
  split <;> rfl

theorem keeps_floodOn (s : State) (k : MKind) (subject term value : Nat) (f : Frame) (except : Option Port) :
    Keeps [.fab, .out] s (floodOn s k subject term value f except) :=
  ((keeps_onFab s _).mono (by simp)).trans (.foldl (fun s p => keeps_sendOn s p f) _ _)

theorem floodOn_view (s : State) (k : MKind) (subject term value : Nat) (f : Frame) (except : Option Port) :
    (floodOn s k subject term value f except).fab.view = s.fab.view :=
  foldl_same (·.fab.view) (fun s p => sendOn_view s p f) _ _

theorem keeps_floodAgain (s : State) (k : MKind) (f : MFrame) : Keeps [.fab, .out] s (floodAgain s k f) := by
  unfold floodAgain
  split
  · exact keeps_floodOn s _ _ _ _ _ _
  · exact .refl _ s

theorem floodAgain_view (s : State) (k : MKind) (f : MFrame) : (floodAgain s k f).fab.view = s.fab.view := by
  unfold floodAgain
  split
  · exact floodOn_view s _ _ _ _ _ _
  · rfl

theorem keeps_onView (s : State) (n : Nat) (f : HomeView → HomeView) : Keeps [.fab] s (onView s n f) := keeps_onFab s _

theorem viewOf_congr {s t : State} (h : t.fab.view = s.fab.view) (n : Nat) : viewOf t n = viewOf s n := by rw [viewOf, h, viewOf]

theorem viewOf_onView_self {s : State} {n : Nat} {f : HomeView → HomeView} (h : f (viewOf s n) ≠ {}) : viewOf (onView s n f) n = f (viewOf s n) :=
  tget_tupd_self h

theorem viewOf_onView_ne {s : State} {m n : Nat} {f : HomeView → HomeView} (h : m ≠ n) : viewOf (onView s n f) m = viewOf s m := tget_tupd_ne h

theorem keeps_withdraw (s : State) : Keeps [.fab, .out] s (withdraw s) :=
  (((keeps_onFab s _).trans (keeps_onView _ _ _)).mono (by simp)).trans (keeps_floodOn _ _ _ _ _ _ _)

theorem keeps_recordTerm (s : State) (home term : Nat) : Keeps [.fab, .store] s (recordTerm s home term) := by
  unfold recordTerm hotPut
  split
  · exact ((keeps_onFab s _).mono (by simp)).trans ((keeps_onStore _ _).mono (by simp))
  · split
    · exact ((keeps_onFab s _).mono (by simp)).trans ((keeps_onStore _ _).mono (by simp))
    · exact .refl _ s

theorem recordTerm_view (s : State) (home term : Nat) : (recordTerm s home term).fab.view = s.fab.view := by
  unfold recordTerm
  split
  · rfl
  · split <;> rfl

end Sys2Proof.Machine
end

section
/-! SUPPORT. What the requests and events of the power states do. -/

namespace Sys2Proof.Machine

/-! ### PWR_REQ -/

theorem exec_pwrReqNap {s : State} {c : CoreId} (hc : c ≠ .g) (h : Reaches s c 0xAC03 true) : exec (.pwrReqNap c) s = .next (pwrNap s) := by
  simp [exec, execPwrReqNap, winCmd_of_reaches h, done, pwrReq, hc]

theorem exec_pwrReqKeep {s : State} {c : CoreId} (hc : c ≠ .g) (h : Reaches s c 0xAC03 true) : exec (.pwrReqKeep c) s = .next (pwrKeep s) := by
  simp [exec, execPwrReqKeep, winCmd_of_reaches h, done, pwrReq, hc]

theorem exec_pwrReqWake {s : State} (h : Reaches s .g 0xAC03 true) : exec (.pwrReqWake .g) s = .next (napWake s) := by
  simp [exec, execPwrReqWake, winCmd_of_reaches h, done, pwrReq]

theorem pwrNap_refused {s : State} {n : Nat} (h : napRefusal s = some n) :
    pwrNap s = s.onPow fun p => { p with reqRefused := true, reqReason := BitVec.ofNat 4 n } := by
  simp [pwrNap, h]

theorem pwrNap_enters {s : State} (h : napRefusal s = none) (hbank : s.rng.bank ≠ .failed) :
    pwrNap s = irqAll ((s.onPow fun p => { p with state := .nap, reqRefused := false, reqReason := 0, waking := false }).onRng
      fun r => { r with bank := .stopped }) 20 := by
  simp [pwrNap, h, State.onRng, hbank]

/-- A group with no records is not sealed. -/
theorem closeGroup_empty {s : State} {own : Bool} (h : (if own then s.led.openGroup else s.led.openAuth) = []) : closeGroup s own = s := by
  simp [closeGroup, h]

theorem keepAdvance_idle {s : State} (h : s.pow.keepStep = 0) : keepAdvance s = s := by simp [keepAdvance, h]

theorem keepAdvance_unsettled {s : State} (hstep : s.pow.keepStep = 1) (h : allSettled s = false) : keepAdvance s = s := by
  simp [keepAdvance, hstep, h]

theorem pwrKeep_twinHeld {s : State} (h : s.fab.twinAuth = true) : pwrKeep s = s.onPow fun p => { p with reqRefused := true, reqReason := 8 } := by
  simp [pwrKeep, h]

/-- The entry into KEEP begins; with requests unsettled it waits for them. -/
theorem pwrKeep_begins {s : State} (htwin : s.fab.twinAuth = false) (hstep : s.pow.keepStep = 0) (hplane : s.hq.open_ = false)
    (hown : s.led.openGroup = []) (hauth : s.led.openAuth = []) (h : allSettled s = false) :
    pwrKeep s = s.onPow fun p => { p with keepStep := 1, reqRefused := false, reqReason := 0 } := by
  have hadvance : ∀ u : State, u.pow.keepStep = 1 → u.led = s.led → allSettled u = false → keepAdvance (closeGroup (closeGroup u true) false) = u := by
    intro u hu hled hset
    rw [closeGroup_empty (s := u) (own := true) (by simpa [hled] using hown), closeGroup_empty (by simpa [hled] using hauth)]
    exact keepAdvance_unsettled hu hset
  simp only [pwrKeep, htwin, hstep, State.onPow_hq, hplane, State.when_false, Bool.false_eq_true, ne_eq, not_true_eq_false, ↓reduceIte]
  exact hadvance _ rfl rfl h

/-! ### Waking -/

theorem napWake_of_nap {s : State} (h : s.pow.state = .nap) (hup : s.pow.mainUp = true) : napWake s = s.onPow fun p => { p with waking := true } := by
  simp [napWake, State.when, h, hup]

theorem keeps_ungate (s : State) (l : Nat) : Keeps [.lane, .pow, .unit] s (ungate s l) :=
  ((keeps_onLane s _).mono (by simp)).trans
    (.when _ _ (((keeps_onPow _ _).mono (by simp)).trans ((keeps_irqAll _ 20).mono (by simp))))

theorem ungate_active {s : State} (l : Nat) (h : s.pow.state = .active) : (ungate s l).pow.state = .active := by
  simp [ungate, State.when, h]

theorem ungate_doze {s : State} (l : Nat) (h : s.pow.state = .doze) : (ungate s l).pow.state = .active := by
  simp only [ungate, State.onLane_pow, h, beq_self_eq_true, State.when_true]
  rfl

theorem ungate_lanes (s : State) (l : Nat) : (ungate s l).lane.lanes = tupd {} s.lane.lanes l fun x => { x with gated := false } := by
  simp only [ungate, State.when]
  split <;> rfl

theorem foldl_ungate_active : ∀ (ls : List Nat) {s : State}, s.pow.state = .active → (ls.foldl ungate s).pow.state = .active
  | [], _, h => h
  | l :: ls, _, h => foldl_ungate_active ls (ungate_active l h)

theorem foldl_ungate_doze {ls : List Nat} {s : State} {l : Nat} (hl : l ∈ ls) (h : s.pow.state = .doze) : (ls.foldl ungate s).pow.state = .active := by
  cases ls with
  | nil => simp at hl
  | cons m ms => exact foldl_ungate_active ms (ungate_doze m h)

/-- A lane that is ungated, or was never gated, is not gated at the end. -/
theorem foldl_ungate_gated {l : Nat} : ∀ (ls : List Nat) {s : State}, twf {} s.lane.lanes = true →
    l ∈ ls ∨ (tget {} s.lane.lanes l).gated = false → (tget {} (ls.foldl ungate s).lane.lanes l).gated = false
  | [], _, _, h => h.resolve_left (by simp)
  | m :: ms, s, hwf, h => by
    refine foldl_ungate_gated ms (s := ungate s m) (by rw [ungate_lanes]; exact twf_tupd hwf) ?_
    rw [ungate_lanes]
    by_cases e : l = m
    · subst e
      exact .inr (by rw [tget_tupd hwf])
    · rw [tget_tupd_ne e]
      simpa [e] using h

theorem dozeWake_eq {s : State} (h : s.pow.state = .doze) : dozeWake s = ((List.range 16).filter (unitActive s)).foldl ungate s := by
  simp [dozeWake, State.when, h]

theorem keeps_dozeWake (s : State) : Keeps [.lane, .pow, .unit] s (dozeWake s) := .when _ _ (.foldl keeps_ungate _ s)

/-- With a lane to ungate the device is ACTIVE again. -/
theorem dozeWake_active {s : State} {l : Nat} (h : s.pow.state = .doze) (hl : l < 16) (hact : unitActive s l = true) :
    (dozeWake s).pow.state = .active := by
  rw [dozeWake_eq h]
  exact foldl_ungate_doze (l := l) (by simp [hl, hact]) h

theorem dozeWake_gated {s : State} {l : Nat} (h : s.pow.state = .doze) (hl : l < 16) (hact : unitActive s l = true) (hwf : twf {} s.lane.lanes = true) :
    (tget {} (dozeWake s).lane.lanes l).gated = false := by
  rw [dozeWake_eq h]
  exact foldl_ungate_gated _ hwf (.inl (by simp [hl, hact]))

/-- DB_WAKE is answered: it rings no more. -/
def bellTaken (s : State) : State := s.onUnit fun m => { m with bells := m.bells.filter (· != .wake) }

theorem keeps_bellTaken (s : State) : Keeps [.unit] s (bellTaken s) := keeps_onUnit s _

theorem notMem_bellTaken (s : State) : .wake ∉ (bellTaken s).unit.bells := by simp [bellTaken]

/-- KEEP_WAKE takes the bell; what follows depends on the power state. -/
theorem exec_keepWake {s : State} (hst : s.pow.standby = true) (hbell : .wake ∈ s.unit.bells) :
    exec .keepWake s = .next (match s.pow.state with
      | .keep => (bellTaken s).when (!respInForce s) fun s => s.onPow fun p => { p with pwrEn := true }
      | .nap => napWake (bellTaken s)
      | .doze => dozeWake (bellTaken s)
      | .active | .vault => bellTaken s) := by
  simp only [exec, execKeepWake, done, hst, Bool.true_and, List.contains_iff_mem.mpr hbell, State.when_true]
  rfl

theorem setBit_false_getLsbD {w : Nat} (v : BitVec w) (n : Nat) : (setBit v n false).getLsbD n = false := by
  simp only [setBit, Bool.false_eq_true, ↓reduceIte, BitVec.getLsbD_and, BitVec.getLsbD_not, BitVec.getLsbD_ofNat, Nat.testBit_two_pow_self]
  by_cases h : n < w <;> simp [h]

/-! ### The main die powered off -/

/-- An entry of a mapped table is the image of one. -/
theorem mem_tmap {α : Type} [DecidableEq α] {d : α} {t : Tbl α} {f : Nat → α → α} {p : Nat × α} (h : p ∈ tmap d t f) :
    ∃ q ∈ t, (q.1, f q.1 q.2) = p := by
  simp only [tmap, List.mem_filter, List.mem_map] at h
  exact h.1

theorem mainReset_slots (s : State) : ∃ t : Tbl Slot, (mainReset s).key.slots = tmap {} t fun _ x => { x with material := [], retiring := false } :=
  ⟨_, rfl⟩

theorem mainReset_mainDown (s : State) : MainDown (mainReset s) := by
  refine ⟨rfl, rfl, rfl, rfl, rfl, rfl, rfl, rfl, rfl, rfl, rfl, rfl, rfl, rfl, fun p hp => ?_, rfl, rfl, rfl⟩
  obtain ⟨slots, hslots⟩ := mainReset_slots s
  rw [hslots] at hp
  obtain ⟨_, _, rfl⟩ := mem_tmap hp
  rfl

/-- Of the power controller and the unit table, `MainDown` reads no more than these. -/
theorem MainDown.of_keeps {s t : State} (h : MainDown s) (hk : Keeps [.pow, .unit] s t) (hup : t.pow.mainUp = s.pow.mainUp)
    (hready : t.pow.readyPin = s.pow.readyPin) (hlink : t.pow.linkUp = s.pow.linkUp) (hposts : t.unit.posts = s.unit.posts) : MainDown t := by
  have hhq : t.hq = s.hq := hk .hq (by simp)
  have hlane : t.lane = s.lane := hk .lane (by simp)
  have hled : t.led = s.led := hk .led (by simp)
  have hfab : t.fab = s.fab := hk .fab (by simp)
  have hcore : t.core = s.core := hk .core (by simp)
  have hkey : t.key = s.key := hk .key (by simp)
  have hrng : t.rng = s.rng := hk .rng (by simp)
  have htime : t.time = s.time := hk .time (by simp)
  unfold MainDown at h ⊢
  rw [hup, hready, hlink, hposts, hhq, hlane, hled, hfab, hcore, hkey, hrng, htime]
  exact h

theorem keepOff_mainDown (s : State) : MainDown (keepOff s) :=
  (mainReset_mainDown (disarmRails s)).of_keeps (((keeps_irqAll _ 20).mono (by simp)).trans ((keeps_onPow _ _).mono (by simp))) rfl rfl rfl rfl

/-! ### TAKEOVER -/

theorem adopt_of_lt {s : State} {home term : Nat} (f : HomeView → HomeView) (h : (viewOf s home).term < term) :
    adopt s home term f = irqMain (recordTerm (onView (s.onFab fun b => { b with fromRecord := b.fromRecord.filter (· != home) }) home
      fun v => { f v with term := term }) home term) 14 := by
  simp [adopt, isNews, h]

/-- The view after a higher term is adopted. -/
theorem viewOf_adopt {s : State} {home term : Nat} {f : HomeView → HomeView} (h : (viewOf s home).term < term)
    (hf : { f (viewOf s home) with term := term } ≠ ({} : HomeView)) : viewOf (adopt s home term f) home = { f (viewOf s home) with term := term } := by
  rw [adopt_of_lt f h]
  exact (viewOf_congr (recordTerm_view _ home term) home).trans (viewOf_onView_self hf)

theorem adopt_pow (s : State) (home term : Nat) (f : HomeView → HomeView) : (adopt s home term f).pow = s.pow := by
  unfold adopt
  split
  · exact keeps_recordTerm _ _ _ .pow (by simp)
  · rfl

/-- A flooded TAKEOVER of another home, at a higher term, is adopted and flooded on. -/
theorem takeoverRx_other {f : MFrame} {s : State} (hup : s.pow.mainUp = true) (hsrc : f.src ≠ nodeAddr s) (hflood : f.flood = true)
    (hrep : isRepeat s .takeover f.subject f.term f.value = false) (hterm : (viewOf s f.subject).term < f.term) (hsub : f.subject ≠ nodeAddr s) :
    takeoverRx f s = floodAgain (onView (adopt s f.subject f.term fun v => { v with byTwin := true, member := false, twinMember := true }) f.src
      fun v => { v with twinMember := false }) .takeover f := by
  simp [takeoverRx, State.when, hup, hsrc, hflood, hrep, isNews, hterm, beq_false_of_ne hsub]

/-- The source loses its twin in the view; its own term and holder, if it is the subject, stay. -/
theorem viewOf_dropTwinMember {s : State} {m n : Nat} (h : (viewOf s n).byTwin = true) :
    (viewOf (onView s m fun v => { v with twinMember := false }) n).term = (viewOf s n).term ∧
      (viewOf (onView s m fun v => { v with twinMember := false }) n).byTwin = true := by
  by_cases e : n = m
  · subst e
    rw [viewOf_onView_self fun q => by simpa [h] using congrArg HomeView.byTwin q]
    exact ⟨rfl, h⟩
  · rw [viewOf_onView_ne e]
    exact ⟨rfl, h⟩

end Sys2Proof.Machine
end

section
/-! OBLIGATIONS. The power states. -/

namespace Sys2Proof.Machine

theorem completes_pwrReqNap {s : State} {c : CoreId} (hc : c ≠ .g) (h : Reaches s c 0xAC03 true) (hfine : napRefusal s = none) (hbank : s.rng.bank ≠ .failed) :
    Completes (.pwrReqNap c) s [.pow, .rng, .unit] fun t => t.pow.state = .nap ∧ t.rng.bank = .stopped ∧ t.pow.reqRefused = false := by
  refine ⟨_, (exec_pwrReqNap hc h).trans (congrArg _ (pwrNap_enters hfine hbank)), ⟨rfl, rfl, rfl⟩, ?_⟩
  exact (((keeps_onPow s _).mono (by simp)).trans ((keeps_onRng _ _).mono (by simp))).trans ((keeps_irqAll _ 20).mono (by simp))

theorem completes_napWakeEvent_of_doze {s : State} {l : Nat} (h : s.pow.state = .doze) (hl : l < 16) (hact : unitActive s l = true) (hwf : twf {} s.lane.lanes = true) :
    Completes (.napWakeEvent .dbWake) s [.lane, .pow, .unit] fun t => t.pow.state = .active ∧ (tget {} t.lane.lanes l).gated = false := by
  refine ⟨dozeWake s, ?_, ⟨dozeWake_active h hl hact, dozeWake_gated h hl hact hwf⟩, keeps_dozeWake s⟩
  simp [exec, execNapWakeEvent, done, h]

theorem exec_napWakeEvent_of_nap {s : State} (w : WakeCause) (h : s.pow.state = .nap) (hup : s.pow.mainUp = true) :
    exec (.napWakeEvent w) s = .next (s.onPow fun p => { p with waking := true }) := by
  simp [exec, execNapWakeEvent, done, h, napWake_of_nap h hup]

/-- A wake from NAP ends, with no checkpoint overdue. -/
theorem exec_napWakeDone {s : State} (h : s.pow.state = .nap) (hwaking : s.pow.waking = true) (hckpt : s.led.ckptDue = false)
    (hbank : s.rng.bank = .stopped) :
    exec .napWakeDone s = .next (irqAll
      (((s.onPow fun p => { p with state := if allGated s then .doze else .active, waking := false }).when s.pow.linkUp mirrorTime).onRng
        fun r => { r with bank := .starting }) 20) := by
  have hmirror : ∀ u : State, Keeps [.time] u (u.when s.pow.linkUp mirrorTime) := fun u => .when _ _ (keeps_mirrorTime u)
  have hrng : ∀ u : State, (u.when s.pow.linkUp mirrorTime).rng = u.rng := fun u => hmirror u .rng (by simp)
  have hled : ∀ u : State, (u.when s.pow.linkUp mirrorTime).led = u.led := fun u => hmirror u .led (by simp)
  have hirq : ∀ u : State, (irqAll u 20).led = u.led := fun u => keeps_irqAll u 20 .led (by simp)
  simp [exec, execNapWakeDone, done, h, hwaking, hirq, hled, hckpt, State.onRng, hrng, hbank]

theorem completes_napWakeDone {s : State} (h : s.pow.state = .nap) (hwaking : s.pow.waking = true) (hckpt : s.led.ckptDue = false) (hbank : s.rng.bank = .stopped) :
    Completes .napWakeDone s [.pow, .time, .rng, .unit] fun t =>
      t.pow.state = (if allGated s then .doze else .active) ∧ t.pow.waking = false ∧ t.rng.bank = .starting := by
  have hmirror : ∀ u : State, Keeps [.time] u (u.when s.pow.linkUp mirrorTime) := fun u => .when _ _ (keeps_mirrorTime u)
  have hpow : ∀ u : State, (u.when s.pow.linkUp mirrorTime).pow = u.pow := fun u => hmirror u .pow (by simp)
  refine ⟨_, exec_napWakeDone h hwaking hckpt hbank, ⟨congrArg PowerSt.state (hpow _), congrArg PowerSt.waking (hpow _), rfl⟩, ?_⟩
  exact ((((keeps_onPow s _).mono (by simp)).trans ((hmirror _).mono (by simp))).trans ((keeps_onRng _ _).mono (by simp))).trans
    ((keeps_irqAll _ 20).mono (by simp))

/-- The wait for TAKEOVER ends with the main die off. -/
theorem keepWithdrawWaitTimeout_mainDown {s : State} (h : s.pow.keepStep = 3) :
    ∃ t, exec .keepWithdrawWaitTimeout s = .next t ∧ MainDown t ∧ t.pow.state = .keep ∧ t.pow.pwrEn = false :=
  ⟨keepOff s, by simp [exec, execKeepWithdrawWaitTimeout, done, State.when, h], keepOff_mainDown s, rfl, rfl⟩

theorem exec_failoverSettled {s : State} (hfail : s.unit.failover = true) (hsettled : allSettled s = true) (hstays : s.fab.withdrawn = false)
    (hstep : s.pow.keepStep = 0) : exec .failoverSettled s = .next (withdraw s) := by
  have hpow : (withdraw s).pow = s.pow := keeps_withdraw s .pow (by simp)
  simp only [exec, execFailoverSettled, failoverEnd, hfail, hsettled, hstays, done, Bool.not_false, Bool.and_self, State.when_true]
  rw [keepAdvance_idle (by rw [hpow]; exact hstep)]

theorem takeoverRx_adopts {s : State} {f : MFrame} (hup : s.pow.mainUp = true) (hsrc : f.src ≠ nodeAddr s) (hflood : f.flood = true)
    (hrep : isRepeat s .takeover f.subject f.term f.value = false) (hterm : (viewOf s f.subject).term < f.term) (hsub : f.subject ≠ nodeAddr s)
    (hstep : s.pow.keepStep ≠ 3) :
    ∃ t, exec (.takeoverRx f) s = .next t ∧ (viewOf t f.subject).term = f.term ∧ (viewOf t f.subject).byTwin = true := by
  have hrx := takeoverRx_other hup hsrc hflood hrep hterm hsub
  have hpow : (takeoverRx f s).pow = s.pow := by
    rw [hrx]
    exact (keeps_floodAgain _ _ f .pow (by simp)).trans (adopt_pow s _ _ _)
  have hview := viewOf_adopt (f := fun v => { v with byTwin := true, member := false, twinMember := true }) hterm
    fun q => by simpa using congrArg HomeView.byTwin q
  have hkept := viewOf_dropTwinMember (m := f.src) (congrArg HomeView.byTwin hview)
  refine ⟨takeoverRx f s, by simp [exec, execTakeoverRx, done, State.when, hpow, hstep], ?_⟩
  rw [hrx, viewOf_congr (floodAgain_view _ .takeover f)]
  exact ⟨hkept.1.trans (congrArg HomeView.term hview), hkept.2⟩

/-! ### DB_WAKE -/

theorem completes_keepWake_of_keep {s : State} (h : s.pow.state = .keep) (hst : s.pow.standby = true) (hbell : .wake ∈ s.unit.bells) (hresp : respInForce s = false) :
    Completes .keepWake s [.pow, .unit] fun t => t.pow.pwrEn = true ∧ .wake ∉ t.unit.bells := by
  refine ⟨(bellTaken s).onPow fun p => { p with pwrEn := true }, ?_, ⟨rfl, notMem_bellTaken s⟩, ?_⟩
  · simp [exec_keepWake hst hbell, h, hresp, State.when]
  · exact ((keeps_bellTaken s).mono (by simp)).trans ((keeps_onPow _ _).mono (by simp))

theorem completes_keepWake_of_nap {s : State} (h : s.pow.state = .nap) (hst : s.pow.standby = true) (hup : s.pow.mainUp = true) (hbell : .wake ∈ s.unit.bells) :
    Completes .keepWake s [.pow, .unit] fun t => t.pow.waking = true ∧ .wake ∉ t.unit.bells := by
  refine ⟨(bellTaken s).onPow fun p => { p with waking := true }, ?_, ⟨rfl, notMem_bellTaken s⟩, ?_⟩
  · simp only [exec_keepWake hst hbell, h, napWake_of_nap (s := bellTaken s) h hup]
  · exact ((keeps_bellTaken s).mono (by simp)).trans ((keeps_onPow _ _).mono (by simp))

theorem completes_keepWake_of_doze {s : State} {l : Nat} (h : s.pow.state = .doze) (hst : s.pow.standby = true) (hbell : .wake ∈ s.unit.bells) (hl : l < 16)
    (hact : unitActive s l = true) : Completes .keepWake s [.lane, .pow, .unit] fun t => t.pow.state = .active := by
  refine ⟨dozeWake (bellTaken s), ?_, dozeWake_active (l := l) h hl hact, ?_⟩
  · simp only [exec_keepWake hst hbell, h]
  · exact ((keeps_bellTaken s).mono (by simp)).trans (keeps_dozeWake _)

theorem completes_gpioWakeInput {s : State} {n : Nat} (h : s.pow.state = .keep) (hst : s.pow.standby = true) (hn : n < 8) (hpin : s.par.wakeGpio.getLsbD n = true) :
    Completes (.gpioWakeInput n) s [.pow, .unit] fun t => t.unit.bells = s.unit.bells ++ [.wake] ∧ t.pow.gpio.getLsbD n = false := by
  refine ⟨ring (s.onPow fun p => { p with gpio := setBit p.gpio n false }) .wake, ?_, ⟨rfl, setBit_false_getLsbD _ n⟩, ?_⟩
  · simp [exec, execGpioWakeInput, done, State.when, h, hst, hn, hpin]
  · exact ((keeps_onPow s _).mono (by simp)).trans ((keeps_ring _ _).mono (by simp))

/-- Settles O24, clause by clause from the lemma on what each power command does in the state that the clause names. -/
theorem powerStatesChange : Obligations.PowerStatesChange := by
  refine ⟨fun s c => completes_pwrReqNap, fun s c n hc h hno => ?_, fun s c hc h htwin => ?_, fun s c hc h htwin hstep hplane hown hauth hset => ?_,
    fun s h hnap hup => ?_, fun s w => exec_napWakeEvent_of_nap w, fun s l => completes_napWakeEvent_of_doze, fun s => completes_napWakeDone, fun s => keepWithdrawWaitTimeout_mainDown,
    fun s => exec_failoverSettled, fun s f => takeoverRx_adopts, fun s => completes_keepWake_of_keep, fun s => completes_keepWake_of_nap, fun s l => completes_keepWake_of_doze, fun s n => completes_gpioWakeInput⟩
  · rw [exec_pwrReqNap hc h, pwrNap_refused hno]
  · rw [exec_pwrReqKeep hc h, pwrKeep_twinHeld htwin]
  · rw [exec_pwrReqKeep hc h, pwrKeep_begins htwin hstep hplane hown hauth hset]
  · rw [exec_pwrReqWake h, napWake_of_nap hnap hup]

end Sys2Proof.Machine
end

section
/-! SUPPORT. What an append to the record store can do to the rest of the state. -/

namespace Sys2Proof.Machine

/-! ### Places and sectors -/

theorem keeps_useSector (s : State) (part : BitVec 2) (n : Nat) : Keeps [.store] s (useSector s part n) :=
  (keeps_progPage s _ _).trans (keeps_onStore _ _)

theorem keeps_openSector {s t : State} {part : BitVec 2} (h : openSector s part = some t) : Keeps [.store] s t := by
  simp only [openSector, Option.map_eq_some_iff] at h
  obtain ⟨n, -, rfl⟩ := h
  exact (keeps_useSector s part n).trans (keeps_onStore _ _)

theorem keeps_placeIn {s t : State} {part : BitVec 2} {pages : Nat} {x : Nat × Nat} (h : placeIn s part pages = some (t, x)) : Keeps [.store] s t := by
  unfold placeIn at h
  extract_lets here at h
  clear_value here
  split at h
  · cases h
    exact keeps_onStore s _
  · split at h
    · cases h
    next u hu =>
      split at h
      · cases h
        exact (keeps_openSector hu).trans (keeps_onStore u _)
      · cases h

theorem keeps_copyForward : ∀ {rs : List Record} {s t : State}, copyForward s rs = some t → Keeps [.store] s t
  | [], s, _, h => by cases h; exact .refl _ s
  | r :: rs, s, t, h => by
    unfold copyForward at h
    split at h
    next u m p hu => exact ((keeps_placeIn hu).trans (keeps_writeRec u _ _)).trans (keeps_copyForward h)
    · cases h

theorem keeps_releaseSector (s : State) (n : Nat) : Keeps [.store] s (releaseSector s n) := by
  unfold releaseSector
  split
  next t ht => exact (((keeps_onStore s _).trans (keeps_copyForward ht)).trans (keeps_progPage t _ _)).trans (keeps_onStore _ _)
  · exact .refl _ s

theorem keeps_compact (s : State) (part : BitVec 2) : Keeps [.store] s (compact s part) := by
  unfold compact
  split
  · split
    · exact keeps_releaseSector s _
    · exact .refl _ s
  · exact .refl _ s

/-! ### Commits -/

theorem keeps_applyRecord (s : State) (r : Record) : Keeps [.key] s (applyRecord s r) := by
  unfold applyRecord
  split
  case h_5 => exact .refl _ s
  all_goals exact keeps_onKey s _

theorem keeps_txnDone (s : State) (part : BitVec 2) (txn : Nat) : Keeps [.store] s (txnDone s part txn) := by
  unfold txnDone
  extract_lets u
  have hu : Keeps [.store] s u := keeps_onStore s _
  split
  next t p ht => exact (hu.trans (keeps_placeIn ht)).trans (keeps_writeRec t _ _)
  · exact hu

theorem keeps_afterCommit (s : State) (r : Record) (key : Nat) : Keeps [.key, .mgt, .store] s (afterCommit s r key) := by
  unfold afterCommit
  extract_lets u
  have hu : Keeps [.key, .mgt, .store] s u := .when (f := (mgtAlert · 2)) _ ((keeps_mgtAlert s 2).mono (by simp))
  split
  · exact hu.trans ((keeps_applyRecord u r).mono (by simp))
  · split
    next t _ =>
      split
      · split
        · have happly : ∀ (v : State) (x : Record), Keeps [.key, .mgt, .store] v (applyRecord v x) := fun v x => (keeps_applyRecord v x).mono (by simp)
          exact ((hu.trans ((keeps_onStore u _).mono (by simp))).trans ((keeps_txnDone _ _ _).mono (by simp))).trans (.foldl happly _ _)
        · exact hu.trans ((keeps_onStore u _).mono (by simp))
      · exact hu
    · exact hu

theorem keeps_commitRec {s t : State} {src : AppendSrc} {r : Record} (h : commitRec s src r = some t) : Keeps [.key, .mgt, .store] s t := by
  unfold commitRec at h
  extract_lets r' at h
  split at h
  · cases h
  next u p hu =>
    cases h
    exact (((((keeps_placeIn hu).trans (keeps_writeRec u _ _)).trans (keeps_onStore _ _)).mono (by simp)).trans (keeps_afterCommit _ _ _)).trans
      ((keeps_compact _ _).mono (by simp))

theorem keeps_beginHead (s : State) : Keeps [.store] s (beginHead s) := .when _ _ (keeps_onStore s _)

theorem keeps_enqueue (s : State) (a : Append) : Keeps [.store] s (enqueue s a) := (keeps_onStore s _).trans (keeps_beginHead _)

/-- An append commits or joins the queue, or finds no room and reports the record store. -/
theorem append_cases (s : State) (src : AppendSrc) (part : BitVec 2) (typ : BitVec 16) (id : Nat) (payload : Bytes) :
    Keeps [.key, .mgt, .store] s (append s src part typ id payload) ∨ append s src part typ id payload = storeFault s := by
  unfold append appendRecord
  split
  · split
    next t ht => exact .inl (keeps_commitRec ht)
    · split
      · exact .inl (((keeps_compact s _).trans (keeps_enqueue _ _)).mono (by simp))
      · exact .inr rfl
  · exact .inl ((keeps_enqueue s _).mono (by simp))

theorem keeps_append (s : State) (src : AppendSrc) (part : BitVec 2) (typ : BitVec 16) (id : Nat) (payload : Bytes) :
    Keeps [.key, .mgt, .store, .unit] s (append s src part typ id payload) := by
  rcases append_cases s src part typ id payload with h | h
  · exact h.mono (by simp)
  · rw [h]
    exact (keeps_observe s _ _ _ _).mono (by simp)

/-! ### Unit states -/

theorem unitSt_congr {s t : State} (h : t.unit.tbl = s.unit.tbl) (u : Nat) : unitSt t u = unitSt s u := by rw [unitSt, unitEnt, h, unitSt, unitEnt]

/-- A change of one entry that leaves its state alone leaves every state alone: here of a unit that is not ABSENT. -/
theorem tget_tupd_st {t : Tbl UnitEnt} {u v : Nat} {f : UnitEnt → UnitEnt} (hf : ∀ e, (f e).st = e.st) (hu : (tget {} t u).st ≠ .absent) :
    (tget {} (tupd {} t v f) u).st = (tget {} t u).st := by
  by_cases e : u = v
  · subst e
    rw [tget_tupd_self fun q => hu (by rw [← hf, q]), hf]
  · rw [tget_tupd_ne e]

theorem unitSt_post {s : State} {u : Nat} (p : Post) (hu : unitSt s u ≠ .absent) : unitSt (post s p) u = unitSt s u := by
  have hstop : ∀ (b : Bool) (v : Nat), unitSt (s.when b fun s => s.onUnit fun m => { m with
      tbl := tupd {} m.tbl v fun e => if e.st = .absent then e else { e with stopped := true } }) u = unitSt s u := by
    intro b v
    cases b
    · rfl
    · exact tget_tupd_st (f := fun e => if e.st = .absent then e else { e with stopped := true }) (fun e => by split <;> rfl) hu
  unfold post
  extract_lets p' s'
  have hs' : unitSt s' u = unitSt s u := hstop _ _
  clear_value s'
  split
  · exact hs'
  · split <;> exact (unitSt_congr rfl u).trans hs'

theorem unitSt_append {s : State} {u : Nat} {src : AppendSrc} {part : BitVec 2} {typ : BitVec 16} {id : Nat} {payload : Bytes}
    (hu : unitSt s u ≠ .absent) : unitSt (append s src part typ id payload) u = unitSt s u := by
  rcases append_cases s src part typ id payload with h | h
  · exact unitSt_congr (congrArg UnitSt.tbl (h .unit (by simp))) u
  · rw [h]
    exact unitSt_post _ hu

theorem keeps_publishEntry (s : State) (u : Nat) (e : UnitEnt) (version : Nat) : Keeps [.hq, .out, .unit] s (publishEntry s u e version) :=
  (((keeps_onUnit s _).trans (keeps_ring _ _)).mono (by simp)).trans ((keeps_cause _ 1).mono (by simp))

theorem unitSt_publishEntry (s : State) (v : Nat) (e : UnitEnt) (version u : Nat) : unitSt (publishEntry s v e version) u = unitSt s u :=
  unitSt_congr (congrArg UnitSt.tbl (keeps_cause (ring (s.onUnit fun m => { m with gate := tput {} m.gate v e, gateVersion := version }) .table) 1
    .unit (by simp))) u

theorem keeps_recordUnit (s : State) (v : Nat) : Keeps [.hq, .key, .mgt, .out, .store, .unit] s (recordUnit s v) := by
  unfold recordUnit
  extract_lets e n u now t
  have ht : Keeps [.hq, .key, .mgt, .out, .store, .unit] s t := ((keeps_onUnit s _).mono (by simp)).trans ((keeps_append u _ _ _ _ _).mono (by simp))
  split
  · exact ht.trans ((keeps_publishEntry t _ _ _).mono (by simp))
  · exact ht

theorem unitSt_recordUnit {s : State} {u : Nat} (v : Nat) (hu : unitSt s u ≠ .absent) : unitSt (recordUnit s v) u = unitSt s u := by
  unfold recordUnit
  extract_lets e n s1 now t
  have ht : unitSt t u = unitSt s u := unitSt_append (s := s1) hu
  split
  · exact (unitSt_publishEntry t _ _ _ u).trans ht
  · exact ht

theorem keeps_bootUnit (s : State) (v : Nat) (st : UState) (r : Byte) : Keeps [.hq, .key, .mgt, .out, .store, .unit] s (bootUnit s v st r) := by
  unfold bootUnit
  split
  · exact .refl _ s
  · exact ((keeps_setUnit s _ _ _).mono (by simp)).trans (keeps_recordUnit _ _)

/-- A unit that is not ABSENT takes the state that a test of the start gives it, whatever the form of the table. -/
theorem unitSt_setUnit_self {s : State} {v : Nat} {st : UState} (r : Byte) (hv : unitSt s v ≠ .absent) (hst : st ≠ .absent) :
    unitSt (setUnit s v st r) v = st := by
  have hv' : ¬ ((tget {} s.unit.tbl v).st = .absent ∨ st = .absent) := by
    rintro (h | h)
    · exact hv h
    · exact hst h
  unfold unitSt unitEnt setUnit State.onUnit
  rw [tget_tupd_self, if_neg hv']
  rw [if_neg hv']
  exact fun q => hst (congrArg UnitEnt.st q)

theorem unitSt_bootUnit_self {s : State} {v : Nat} {st : UState} (r : Byte) (hv : unitSt s v ≠ .absent) (hst : st ≠ .absent) :
    unitSt (bootUnit s v st r) v = st := by
  have hset := unitSt_setUnit_self r hv hst
  rw [bootUnit, if_neg hv, unitSt_recordUnit v (by rw [hset]; exact hst), hset]

theorem unitSt_bootUnit_ne {s : State} {u v : Nat} (st : UState) (r : Byte) (h : u ≠ v) (hu : unitSt s u ≠ .absent) :
    unitSt (bootUnit s v st r) u = unitSt s u := by
  have hset := setUnit_ne s st r h
  unfold bootUnit
  split
  · rfl
  · rw [unitSt_recordUnit v (by rw [hset]; exact hu), hset]

/-- Of the units that tests of the start find FAILED, each that is not ABSENT is FAILED at the end. -/
theorem unitSt_foldl_bootUnit {u : Nat} (r : Byte) : ∀ (ns : List Nat) {s : State}, unitSt s u ≠ .absent → (∃ n ∈ ns, 0x10 + n = u) ∨ unitSt s u = .failed →
    unitSt (ns.foldl (fun s n => bootUnit s (0x10 + n) .failed r) s) u = .failed
  | [], _, _, h => h.resolve_left (by simp)
  | n :: ns, s, hu, h => by
    by_cases e : u = 0x10 + n
    · have hself : unitSt (bootUnit s (0x10 + n) .failed r) u = .failed := by
        rw [e] at hu ⊢
        exact unitSt_bootUnit_self r hu (by decide)
      exact unitSt_foldl_bootUnit r ns (by rw [hself]; decide) (.inr hself)
    · have hother := unitSt_bootUnit_ne .failed r e hu
      refine unitSt_foldl_bootUnit r ns (by rw [hother]; exact hu) ?_
      rw [hother]
      refine h.imp_left fun ⟨m, hm, hmu⟩ => ⟨m, ?_, hmu⟩
      exact (List.mem_cons.mp hm).resolve_left fun q => e (by rw [← hmu, q])

end Sys2Proof.Machine
end

section
/-! SUPPORT. Boot steps 2 to 4: the release of the main die, the Gatehouse link and the image bank. -/

namespace Sys2Proof.Machine

/-! ### Step 2 -/

theorem keeps_extend (s : State) (n : Nat) (v : Bytes) : Keeps [.dig] s (extend s n v) := keeps_onDig s _

theorem keeps_restoreUnits (s : State) : Keeps [.fab, .unit] s (restoreUnits s) := by
  unfold restoreUnits
  extract_lets one t1 t2
  have hone : ∀ (s : State) (u : Nat), Keeps [.fab, .unit] s (one s u) := fun s u => ((keeps_setUnit s _ _ _).trans (keeps_onUnit _ _)).mono (by simp)
  have h1 : Keeps [.fab, .unit] s t1 := .foldl hone _ s
  have h2 : Keeps [.fab, .unit] t1 t2 := .foldl (fun s p => (keeps_onPort s p _).mono (by simp)) _ _
  exact (h1.trans h2).trans ((keeps_onUnit t2 _).mono (by simp))

/-- The table version is that of the Gatehouse copy (09 R859). -/
theorem restoreUnits_version (s : State) : (restoreUnits s).unit.version = s.unit.gateVersion := by
  unfold restoreUnits
  extract_lets one t1 t2
  have h1 : t1.unit.gateVersion = s.unit.gateVersion := foldl_same (f := one) (·.unit.gateVersion) (fun _ _ => rfl) _ s
  have h2 : Keeps [.fab] t1 t2 := .foldl (fun s p => keeps_onPort s p _) _ _
  exact (congrArg UnitSt.gateVersion (h2 .unit (by simp))).trans h1

theorem keeps_startCores (s : State) : Keeps [.core, .unit] s (startCores s) :=
  ((keeps_onUnit s _).mono (by simp)).trans (((keeps_coreUpd _ .a _).trans (keeps_coreUpd _ .b _)).mono (by simp))

theorem post_version (s : State) (p : Post) : (post s p).unit.version = s.unit.version := by
  unfold post
  extract_lets p' s'
  have hs' : s'.unit.version = s.unit.version := by
    simp only [s', State.when]
    split <;> rfl
  clear_value s'
  rw [← hs']
  split
  · rfl
  · split <;> rfl

theorem keeps_startNoise (s : State) : Keeps [.rng, .unit] s (startNoise s) := by
  unfold startNoise
  split
  · exact (keeps_onRng s _).mono (by simp)
  · exact ((keeps_onRng s _).mono (by simp)).trans ((keeps_observe _ _ _ _ _).mono (by simp))

theorem startNoise_version (s : State) : (startNoise s).unit.version = s.unit.version := by
  unfold startNoise
  split
  · rfl
  · exact post_version _ _

/-- The main die is supplied, its straps and safe input are sampled, its rail sensors are armed, and in safe mode the factory defaults are in force. -/
def dieSampled (s : State) (straps : BitVec 12) (safeLow : Bool) : State :=
  ((s.onPow fun p => { p with
    mainUp := true, pgood := true, node := if p.variant = .slx4806 then straps &&& 0xF00 else straps, safe := safeLow, safeStrap := safeLow, state := .active
    readyPin := false, mainRuns := p.mainRuns + 1, bootStep := 2, pgoodWait := false, perst := if safeLow then 3 else 0 }).onTmp
      fun t => { t with armed := t.armed ||| 0x1FF }).when safeLow fun s => { s with par := {} }

/-- The units are restored and the cores and the noise bank started. -/
def dieStarted (s : State) (safeLow : Bool) : State :=
  startNoise (extend ((startCores (restoreUnits s)).onUnit fun m => { m with safeLoop := safeLow }) 0 (romDigest Config.romWord))

theorem exec_mainPgoodHigh {s : State} (straps : BitVec 12) (safeLow : Bool) (hen : s.pow.pwrEn = true) (hdown : s.pow.mainUp = false)
    (hst : s.pow.standby = true) (hready : s.store.ready = true) (hlevel : s.tmp.level ≠ 3) :
    exec (.mainPgoodHigh straps safeLow) s = .next ((dieStarted (dieSampled s straps safeLow) safeLow).when (s.pow.state == .keep) (irq · .g 20)) := by
  simp only [exec, execMainPgoodHigh, done, hen, hdown, hst, hready, bne_iff_ne.mpr hlevel, Bool.not_false, Bool.and_self, State.when_true]
  rfl

theorem keeps_dieStarted (s : State) (safeLow : Bool) : Keeps [.core, .dig, .fab, .rng, .unit] s (dieStarted s safeLow) :=
  ((((keeps_restoreUnits s).mono (by simp)).trans ((keeps_startCores _).mono (by simp))).trans ((keeps_onUnit _ _).mono (by simp))).trans
    (((keeps_extend _ _ _).mono (by simp)).trans ((keeps_startNoise _).mono (by simp)))

theorem dieStarted_version (s : State) (safeLow : Bool) : (dieStarted s safeLow).unit.version = s.unit.gateVersion :=
  (startNoise_version _).trans (restoreUnits_version s)

/-! ### Step 3: the link -/

theorem exec_gatehouseLinkAgreed {s : State} (hup : s.pow.mainUp = true) (hst : s.pow.standby = true) (hdown : s.pow.linkUp = false) :
    exec .gatehouseLinkAgreed s = .next (mirrorTime
      ((s.onPow fun p => { p with linkUp := true, linkSession := bvBytes (Config.linkSession p.pairSecret p.mainRuns) }).onDig
        fun d => { d with gateMeas := d.meas, snooping := !s.pow.safe })) := by
  simp [exec, execGatehouseLinkAgreed, done, State.when, hup, hst, hdown]

/-! ### Steps 3 and 4: the image bank -/

/-- The HEADERs of banks 0 and 1, where bank `n` has streamed with the HEADER of the other. -/
def header0 (n : BitVec 1) (b : Bank) : Bytes := if n = 0 then b.header else b.other
def header1 (n : BitVec 1) (b : Bank) : Bytes := if n = 0 then b.other else b.header

/-- Boot step 3 has read both HEADERs. -/
def headersRead (s : State) (n : BitVec 1) (b : Bank) : State := readHeaders s (header0 n b) (header1 n b)

/-- The bank that boot step 3 then streams. -/
def turnOf (s : State) (n : BitVec 1) (b : Bank) : Option (BitVec 1) := bankInTurn (headersRead s n b) (header0 n b) (header1 n b)

theorem bootBank_noTurn {s : State} {n : BitVec 1} {b : Bank} (h : turnOf s n b = none) : bootBank s n b = enterSafe (headersRead s n b) := by
  unfold turnOf headersRead header0 header1 at *
  simp only [bootBank, h]

theorem bootBank_otherTurn {s : State} {m n : BitVec 1} {b : Bank} (h : turnOf s n b = some m) (hm : m ≠ n) : bootBank s n b = headersRead s n b := by
  unfold turnOf headersRead header0 header1 at *
  simp only [bootBank, h, ne_eq, hm, not_false_eq_true, ↓reduceIte]

theorem bootBank_fails {s : State} {n : BitVec 1} {b : Bank} {k : Nat} (h : turnOf s n b = some n) (hk : bankFail (headersRead s n b) b = some k) :
    bootBank s n b = rejectBank (headersRead s n b) n k := by
  unfold turnOf headersRead header0 header1 at *
  simp only [bootBank, h, hk, ne_eq, not_true_eq_false, ↓reduceIte]

theorem bootBank_passes {s : State} {n : BitVec 1} {b : Bank} (h : turnOf s n b = some n) (hk : bankFail (headersRead s n b) b = none) :
    bootBank s n b = acceptBank (headersRead s n b) n b := by
  unfold turnOf headersRead header0 header1 at *
  simp only [bootBank, h, hk, ne_eq, not_true_eq_false, ↓reduceIte]

/-- What boot step 3 does with a bank, case by case. -/
theorem bootBank_cases (s : State) (n : BitVec 1) (b : Bank) :
    bootBank s n b = enterSafe (headersRead s n b) ∨ bootBank s n b = headersRead s n b ∨
      (∃ k, bootBank s n b = rejectBank (headersRead s n b) n k) ∨ bootBank s n b = acceptBank (headersRead s n b) n b := by
  cases h : turnOf s n b with
  | none => exact .inl (bootBank_noTurn h)
  | some m =>
    by_cases hm : m = n
    · subst hm
      cases hk : bankFail (headersRead s m b) b with
      | none => exact .inr (.inr (.inr (bootBank_passes h hk)))
      | some k => exact .inr (.inr (.inl ⟨k, bootBank_fails h hk⟩))
    · exact .inr (.inl (bootBank_otherTurn h hm))

theorem keeps_measureBank (s : State) (b : Bank) : Keeps [.dig] s (measureBank s b) := by
  unfold measureBank
  extract_lets ext s1 s2
  have hext : ∀ (s : State) (p : Nat × Nat), Keeps [.dig] s (ext s p) := by
    intro s p
    simp only [ext]
    split
    · exact keeps_extend s _ _
    · exact .refl _ s
  exact ((Keeps.foldl hext _ s).trans (keeps_extend _ _ _)).trans (.foldl hext _ _)

theorem keeps_loadProg (s : State) (c : CoreId) (p : Tbl (BitVec 14)) (owner : Bool) : Keeps [.core] s (loadProg s c p owner) := keeps_coreUpd s c _

theorem keeps_enterRam (s : State) (c : CoreId) (kind : BitVec 2) : Keeps [.core, .unit] s (enterRam s c kind) :=
  ((keeps_coreUpd s c _).mono (by simp)).trans ((keeps_onUnit _ _).mono (by simp))

/-- A bank has passed its checks and its parameters are in effect; it is still to be measured and loaded. -/
def bankTaken (s : State) (n : BitVec 1) (b : Bank) : State :=
  let s := s.onPow fun p => { p with bank := n.zeroExtend 2, imageSeq := bankSeq b.header, packages := secBytes b 5, bootStep := 4 }
  let s := ({ s with par := imageParams b }).onMgt fun m => { m with runBank := n.zeroExtend 2, committed := false }
  (s.onRng fun r => { r with mode := s.par.rngMode }).onDig fun d => { d with snooping := false }

theorem keeps_acceptBank (s : State) (n : BitVec 1) (b : Bank) : Keeps [.core, .dig, .unit] (bankTaken s n b) (acceptBank s n b) := by
  unfold acceptBank bankTaken
  extract_lets s1 s2 s3 s4 s5
  have h5 : Keeps [.core, .dig, .unit] s3 s5 :=
    (((keeps_measureBank s3 b).mono (by simp)).trans ((keeps_loadProg s4 _ _ _).mono (by simp))).trans ((keeps_loadProg _ _ _ _).mono (by simp))
  split
  · exact (h5.trans ((keeps_loadProg s5 _ _ _).mono (by simp))).trans ((keeps_enterRam _ _ _).mono (by simp))
  · exact h5

theorem acceptBank_pow (s : State) (n : BitVec 1) (b : Bank) : (acceptBank s n b).pow = (bankTaken s n b).pow := keeps_acceptBank s n b .pow (by simp)

/-- The flash controller stands as it did, and has driven nothing more. -/
def SameFlash (s t : State) : Prop := t.pow.sfdpRead = s.pow.sfdpRead ∧ t.pow.readMode = s.pow.readMode ∧ t.out.spi = s.out.spi

theorem SameFlash.trans {s t u : State} (h : SameFlash s t) (k : SameFlash t u) : SameFlash s u :=
  ⟨k.1.trans h.1, k.2.1.trans h.2.1, k.2.2.trans h.2.2⟩

theorem sameFlash_rejectBank (s : State) (n : BitVec 1) (k : Nat) : SameFlash s (rejectBank s n k) := by
  unfold rejectBank
  extract_lets u
  have hu : SameFlash s u := by
    simp only [u]
    refine ⟨?_, ?_, rfl⟩
    · rw [State.onPow_pow]
      split <;> rfl
    · rw [State.onPow_pow]
      split <;> rfl
  clear_value u
  obtain ⟨hread, hmode, hspi⟩ := hu
  split <;> exact ⟨hread, hmode, hspi⟩

theorem sameFlash_acceptBank (s : State) (n : BitVec 1) (b : Bank) : SameFlash s (acceptBank s n b) := by
  have hpow := acceptBank_pow s n b
  exact ⟨by rw [hpow]; rfl, by rw [hpow]; rfl, congrArg OutSt.spi (keeps_acceptBank s n b .out (by simp))⟩

theorem sameFlash_bootBank (s : State) (n : BitVec 1) (b : Bank) : SameFlash s (bootBank s n b) := by
  have hread : SameFlash s (headersRead s n b) := ⟨rfl, rfl, rfl⟩
  rcases bootBank_cases s n b with h | h | ⟨k, h⟩ | h <;> rw [h]
  · exact hread.trans ⟨rfl, rfl, rfl⟩
  · exact hread
  · exact hread.trans (sameFlash_rejectBank _ n k)
  · exact hread.trans (sameFlash_acceptBank _ n b)

theorem rejectBank_first (s : State) {k : Nat} (h : s.pow.fail1 = 0) :
    (rejectBank s 0 k).pow.safe = s.pow.safe ∧ (rejectBank s 0 k).pow.fail0 = BitVec.ofNat 4 k := by
  simp [rejectBank, h]

theorem rejectBank_second {s : State} {k : Nat} (h0 : 0 < k) (h16 : k < 16) (h : s.pow.fail1 ≠ 0) :
    (rejectBank s 0 k).pow.safe = true ∧ (rejectBank s 0 k).pow.safeNone = true ∧ (rejectBank s 0 k).par = {} := by
  have hk : BitVec.ofNat 4 k ≠ 0 := by
    intro q
    have hval := congrArg BitVec.toNat q
    rw [BitVec.toNat_ofNat, Nat.mod_eq_of_lt h16] at hval
    exact h0.ne' hval
  have hsafe : rejectBank s 0 k = enterSafe (s.onPow fun p => { p with fail0 := BitVec.ofNat 4 k }) := by
    simp only [rejectBank, ↓reduceIte]
    exact if_pos ⟨hk, h⟩
  rw [hsafe]
  exact ⟨rfl, rfl, rfl⟩

section
variable {s : State} (hup : s.pow.mainUp = true) (hlink : s.pow.linkUp = true) (hfree : s.tmp.bootHeld = false)
include hup hlink hfree

theorem exec_imageBankStreamed_boot (n : BitVec 1) (b : Bank) (hbank : s.pow.bank = 3) (hsafe : s.pow.safe = false) (hstep : s.pow.bootStep < 4) :
    exec (.imageBankStreamed n b false) s = .next (bootBank (openFlash s b.modes) n b) := by
  simp [exec, execImageBankStreamed, done, State.when, hup, hlink, hfree, hbank, hsafe, hstep]

theorem exec_imageBankStreamed_reload {n : BitVec 1} {b : Bank} (hbank : s.pow.bank = n.zeroExtend 2) (hidle : s.unit.adopting = 0)
    (hpass : bankFail s b = none) : exec (.imageBankStreamed n b false) s = .next (reloadCores s b) := by
  have hn : ∀ n : BitVec 1, n.zeroExtend 2 ≠ 3 := by decide
  simp only [exec, execImageBankStreamed, done, hup, hlink, hfree, hbank, hn, hidle, hpass, Bool.not_false, Bool.and_self, State.when_true, ↓reduceIte,
    Bool.false_eq_true, beq_self_eq_true, Option.isNone_none]

theorem exec_imageBankStreamed_adopt (b : Bank) : exec (.imageBankStreamed s.unit.adoptBank b true) s = .next (adoptBank s b) := by
  simp [exec, execImageBankStreamed, done, State.when, hup, hlink, hfree]

end

/-- The first image read of a start opens the flash in the fastest mode that its tables declare (15 R772). -/
theorem openFlash_first {s : State} (m : FlashModes) (h : s.pow.sfdpRead = false) :
    (openFlash s m).pow.sfdpRead = true ∧
      (openFlash s m).pow.readMode = (if m.octal then .octal else if m.quad then .quad else if m.quadOut then .quadOut else .single) ∧
      (openFlash s m).out.spi = s.out.spi ++ [.reset 10, .sfdp .single 25, .select (openFlash s m).pow.readMode
        (if m.octal then 100 else if m.quad then 133 else if m.quadOut then 133 else 25)] := by
  simp only [openFlash, h, Bool.not_false, State.when_true, State.onOut_pow, State.onPow_pow, State.onOut_out, State.onPow_out, apply_ite Prod.fst,
    apply_ite Prod.snd, and_self]

end Sys2Proof.Machine
end

section
/-! SUPPORT. Boot steps 6 to 9: the key store, HBM training, the drives, the replay of the journal. -/

namespace Sys2Proof.Machine

/-! ### Step 6 -/

/-- The search for a root touches no unwrapped key, unless it retires the device. -/
theorem openRoot_unwrapped {s : State} (h : (openRoot s).key.fuse ≠ 3) : (openRoot s).key.unwrapped = s.key.unwrapped := by
  have hroot : (openRoot s).key.fuse = 3 ∨ (openRoot s).key.unwrapped = s.key.unwrapped := by
    unfold openRoot
    split
    · exact .inr rfl
    · split
      · split
        next hfuse => exact .inl hfuse
        · exact .inl rfl
      · refine .inr ?_
        simp only [State.onKey_key]
        split <;> rfl
  exact hroot.resolve_left h

theorem exec_bootKeyStoreOpen_start {s : State} (bad : List Nat) (ok : Bool) (hup : s.pow.mainUp = true) (hlink : s.pow.linkUp = true) (hbank : s.pow.bank ≠ 3)
    (hfree : s.tmp.bootHeld = false) (hinst : s.rng.inst = true) (hstep : s.pow.bootStep < 6) :
    exec (.bootKeyStoreOpen bad ok) s = .next (openStore s bad ok) := by
  simp only [exec, execBootKeyStoreOpen, done, hup, hlink, bne_iff_ne.mpr hbank, hfree, hinst, hstep, Bool.true_or, Bool.not_false, Bool.and_self,
    decide_true, ↓reduceIte]

/-- A key engine that fails its own check stops the boot: its unit is reported, and nothing is unwrapped. -/
theorem openStore_noEngine {s : State} (bad : List Nat) (h : (openRoot (loadCounts s)).key.fuse ≠ 3) :
    openStore s bad false = ((openRoot (loadCounts s)).when (unitActive (openRoot (loadCounts s)) 0x3B) fun s => observe s 0x3B .failed 2 0x01).onPow
      fun p => { p with bootFault := true, bootStep := 6 } := by
  simp only [openStore, ne_eq, h, not_false_eq_true, Bool.not_false, true_or, and_self, ↓reduceIte]

theorem openStore_noEngine_unwrapped {s : State} (bad : List Nat) (h : (openRoot (loadCounts s)).key.fuse ≠ 3) :
    (openStore s bad false).key.unwrapped = s.key.unwrapped := by
  have hobserve : Keeps [.unit] (openRoot (loadCounts s)) ((openRoot (loadCounts s)).when (unitActive (openRoot (loadCounts s)) 0x3B)
      fun s => observe s 0x3B .failed 2 0x01) := .when _ _ (keeps_observe _ _ _ _ _)
  rw [openStore_noEngine bad h]
  exact (congrArg KeySt.unwrapped (hobserve .key (by simp))).trans (openRoot_unwrapped h)

/-- The key store opens again once a level-2 alarm is cleared (10 R532, 13 R712). -/
theorem exec_bootKeyStoreOpen_reopen {s : State} (bad : List Nat) (hstep : 6 ≤ s.pow.bootStep) (hrestart : s.tmp.restarting = true)
    (hcleared : s.tmp.cleared = true) (hwrapped : s.key.unwrapped = false) (hinst : s.rng.inst = true) (hup : s.pow.mainUp = true)
    (hlink : s.pow.linkUp = true) (hroot : rootIntact s = true) (hunit : unitActive s 0x3B = true) :
    exec (.bootKeyStoreOpen bad true) s = .next (hbmKey (unwrapStore s 1024 bad)) := by
  simp [exec, execBootKeyStoreOpen, done, Nat.not_lt.mpr hstep, hrestart, hcleared, hwrapped, hinst, hup, hlink, hroot, hunit]

/-! ### Steps 7 and 8 -/

theorem keeps_hbmStep (s : State) : Keeps [.hbm, .pow, .rng] s (hbmStep s) :=
  .when _ _ ((((keeps_drew s 32).mono (by simp)).trans ((keeps_onHbm _ _).mono (by simp))).trans ((keeps_onPow _ _).mono (by simp)))

theorem hbmStep_trained (s : State) : (hbmStep s).hbm.trained = s.hbm.trained := by
  simp only [hbmStep, State.when]
  split <;> rfl

theorem hbmStep_hbmSerial (s : State) : (hbmStep s).pow.hbmSerial = s.pow.hbmSerial := by
  simp only [hbmStep, State.when]
  split <;> rfl

theorem keeps_tryAttachEnd (s : State) : Keeps [.drives, .pow] s (tryAttachEnd s) :=
  .when _ _ (((keeps_onDrives s _).mono (by simp)).trans (((keeps_onDrives _ _).mono (by simp)).trans ((keeps_onPow _ _).mono (by simp))))

theorem tryAttachEnd_hbmSerial (s : State) : (tryAttachEnd s).pow.hbmSerial = s.pow.hbmSerial := by
  simp only [tryAttachEnd, State.when]
  split <;> rfl

/-- Training has ended and the channels that failed are recorded. -/
def trainingRecorded (s : State) (failed : List Nat) (serial : Bytes) : State :=
  ((List.range 16).filter failed.contains).foldl (fun s n => bootUnit s (0x10 + n) .failed 0x01)
    ((s.onHbm fun h => { h with trained := true }).onPow fun p => { p with hbmSerial := fit 12 serial })

theorem exec_hbmTrainingDone {s : State} (failed : List Nat) (serial : Bytes) (hup : s.pow.mainUp = true) (h : s.hbm.trained = false) :
    exec (.hbmTrainingDone failed serial) s = .next (tryAttachEnd (hbmStep (trainingRecorded s failed serial))) := by
  simp only [exec, execHbmTrainingDone, done, hup, h, Bool.not_false, Bool.and_self, State.when_true]
  rfl

theorem keeps_trainingRecorded (s : State) (failed : List Nat) (serial : Bytes) :
    Keeps [.hq, .key, .mgt, .out, .store, .unit] ((s.onHbm fun h => { h with trained := true }).onPow fun p => { p with hbmSerial := fit 12 serial })
      (trainingRecorded s failed serial) := .foldl (fun s _ => keeps_bootUnit s _ _ _) _ _

theorem hbmTrainingDone_records {s : State} (failed : List Nat) (serial : Bytes) (hup : s.pow.mainUp = true) (h : s.hbm.trained = false) :
    ∃ t, exec (.hbmTrainingDone failed serial) s = .next t ∧ t.hbm.trained = true ∧ t.pow.hbmSerial = fit 12 serial ∧
      ∀ n, n < 16 → n ∈ failed → unitSt s (0x10 + n) ≠ .absent → unitSt t (0x10 + n) = .failed := by
  have hkeep := keeps_trainingRecorded s failed serial
  refine ⟨_, exec_hbmTrainingDone failed serial hup h, ?_, ?_, fun n hn hf hu => ?_⟩
  · rw [keeps_tryAttachEnd _ .hbm (by simp), hbmStep_trained, hkeep .hbm (by simp)]
    rfl
  · rw [tryAttachEnd_hbmSerial, hbmStep_hbmSerial, hkeep .pow (by simp)]
    rfl
  · have hunit := (keeps_tryAttachEnd (hbmStep (trainingRecorded s failed serial)) .unit (by simp)).trans (keeps_hbmStep _ .unit (by simp))
    rw [unitSt_congr (congrArg UnitSt.tbl hunit)]
    exact unitSt_foldl_bootUnit _ _ hu (.inl ⟨n, by simp [hn, hf], rfl⟩)

section
variable {s : State} {d : Nat} (hd : d < 2) (hup : s.pow.mainUp = true) (hperst : s.pow.perst.getLsbD d = false) (hwait : s.pow.attachDone = false)
include hd hup hperst hwait

theorem exec_driveReady_meets {id : DriveId} (a b : Bytes) (h : meetsDrive id = true) :
    exec (.driveReady d a b id) s = .next (tryAttachEnd (onDrive (nvme (nvme (makeQueues
        (nvme (onDrive s d fun x => { x with ident := id, queue := 0 }) [d] .identify) d) [d] (.read 0 1)) [d] (.read 1 1)) d
      fun x => { x with attached := true, ready := true, dealloc := false, labelA := a, labelB := b })) := by
  simp only [exec, execDriveReady, done, hd, hup, hperst, hwait, h, decide_true, Bool.not_true, Bool.not_false, Bool.and_self, State.when_true,
    Bool.false_eq_true, ↓reduceIte]

theorem exec_driveReady_refused {id : DriveId} (a b : Bytes) (h : meetsDrive id = false) :
    exec (.driveReady d a b id) s = .next (tryAttachEnd ((bootUnit (onDrive
        (nvme (onDrive s d fun x => { x with ident := id, queue := 0 }) [d] .identify) d fun x => { x with attached := true, ready := false })
      (0x28 + d) .retired 0x01).onPow fun p => { p with perst := setBit p.perst d true })) := by
  simp only [exec, execDriveReady, done, hd, hup, hperst, hwait, h, decide_true, Bool.not_false, Bool.and_self, State.when_true, Bool.false_eq_true,
    ↓reduceIte]

end

theorem exec_driveAttachTimeout {s : State} (hup : s.pow.mainUp = true) (hsafe : s.pow.safe = false) (hwait : s.pow.attachDone = false) :
    exec .driveAttachTimeout s = .next (tryAttachEnd (s.onPow fun p => { p with attachOver := true })) := by
  simp [exec, execDriveAttachTimeout, done, State.when, hup, hsafe, hwait]

/-! ### Step 9 -/

theorem tryOpen_led (s : State) : (tryOpen s).led = s.led := by
  simp only [tryOpen, State.when]
  split
  · split <;> rfl
  · rfl

theorem bootStep_le_tryOpen (s : State) : s.pow.bootStep ≤ (tryOpen s).pow.bootStep := by
  simp only [tryOpen, State.when]
  split
  next h =>
    simp only [Bool.and_eq_true, decide_eq_true_eq] at h
    exact le_of_lt h.2
  · rfl

/-- R317 settled or not, the ledger stays replayed and the boot goes no step back. -/
theorem trySettle_keeps_boot (s : State) : (trySettle s).led.replayed = s.led.replayed ∧ s.pow.bootStep ≤ (trySettle s).pow.bootStep := by
  unfold trySettle State.when
  split
  · beta_reduce
    extract_lets longer
    split
    · exact ⟨by rw [tryOpen_led, State.onLed_led], bootStep_le_tryOpen (s.onLed _)⟩
    · exact ⟨rfl, le_rfl⟩
  · exact ⟨rfl, le_rfl⟩

/-- No serving drive holds the checkpoint that is recorded. -/
theorem replayBase_none {s : State} {r : Record} (h : latest s 3 0x0303 0 = some r)
    (hk : ∀ d ∈ servingDrives s, (tget {} (tget {} s.drives d).ckpts (leAt r.payload 0 8 % 2)).k ≠ leAt r.payload 0 8) : replayBase s = none := by
  simp only [replayBase, h, List.findSome?_eq_none_iff]
  intro d hd
  exact if_neg fun hbase => hk d hd hbase.1

section
variable {s : State} (hup : s.pow.mainUp = true) (hattach : s.pow.attachDone = true) (hfault : s.pow.bootFault = false) (hkey : s.hbm.keyLoaded = true)
  (hnew : s.led.replayed = false) (hopen : s.key.unwrapped = true) (hserving : servingDrives s ≠ [])
include hup hattach hfault hkey hnew hopen hserving

theorem exec_journalReplayDone_noBase (h : replayBase s = none) :
    exec .journalReplayDone s = .next (s.onPow fun p => { p with bootFault := true }) := by
  simp [exec, execJournalReplayDone, done, State.when, hup, hattach, hfault, hkey, hnew, hopen, hserving, h]

theorem exec_journalReplayDone_base {b : Base} (h : replayBase s = some b) :
    exec .journalReplayDone s = .next (trySettle (((replay s b).onLed fun l => { l with replayed := true }).onPow
      fun p => { p with bootStep := max p.bootStep 9 })) := by
  simp [exec, execJournalReplayDone, done, State.when, hup, hattach, hfault, hkey, hnew, hopen, hserving, h]

theorem journalReplayDone_replays {b : Base} (h : replayBase s = some b) : ∃ t, exec .journalReplayDone s = .next t ∧ t.led.replayed = true ∧ 9 ≤ t.pow.bootStep := by
  obtain ⟨hreplayed, hstep⟩ := trySettle_keeps_boot (((replay s b).onLed fun l => { l with replayed := true }).onPow
      fun p => { p with bootStep := max p.bootStep 9 })
  exact ⟨_, exec_journalReplayDone_base hup hattach hfault hkey hnew hopen hserving h, hreplayed, (le_max_right _ 9).trans hstep⟩

end

end Sys2Proof.Machine
end

section
/-! OBLIGATIONS. The start of the main die. -/

namespace Sys2Proof.Machine

theorem mainPgoodHigh_starts {s : State} (p : BitVec 12) (safe : Bool) (hen : s.pow.pwrEn = true) (hdown : s.pow.mainUp = false) (hst : s.pow.standby = true)
    (hready : s.store.ready = true) (hlevel : s.tmp.level ≠ 3) :
    ∃ t, exec (.mainPgoodHigh p safe) s = .next t ∧ t.pow.mainUp = true ∧ t.pow.pgood = true ∧ t.pow.bootStep = 2 ∧
      t.pow.node = (if s.pow.variant = .slx4806 then p &&& 0xF00 else p) ∧ t.pow.safe = safe ∧ t.pow.mainRuns = s.pow.mainRuns + 1 ∧
      t.unit.version = s.unit.gateVersion := by
  have hwoke : ∀ (u : State) (b : Bool), (u.when b (irq · .g 20)).pow = u.pow ∧ (u.when b (irq · .g 20)).unit.version = u.unit.version := by
    rintro u (_ | _) <;> exact ⟨rfl, rfl⟩
  obtain ⟨hpow, hversion⟩ := hwoke (dieStarted (dieSampled s p safe) safe) (s.pow.state == .keep)
  refine ⟨_, exec_mainPgoodHigh p safe hen hdown hst hready hlevel, ?_⟩
  rw [hpow, hversion, keeps_dieStarted _ _ .pow (by simp), dieStarted_version]
  cases safe <;> exact ⟨rfl, rfl, rfl, rfl, rfl, rfl, rfl⟩

theorem completes_gatehouseLinkAgreed {s : State} (hup : s.pow.mainUp = true) (hst : s.pow.standby = true) (hdown : s.pow.linkUp = false) :
    Completes .gatehouseLinkAgreed s [.pow, .dig, .time] fun t =>
      t.pow.linkUp = true ∧ t.pow.linkSession = bvBytes (Config.linkSession s.pow.pairSecret s.pow.mainRuns) ∧ t.dig.gateMeas = s.dig.meas ∧
        t.time.mUs = s.time.us ∧ t.time.mAnch = s.time.anchored ∧ t.dig.snooping = !s.pow.safe :=
  ⟨_, exec_gatehouseLinkAgreed hup hst hdown, ⟨rfl, rfl, rfl, rfl, rfl, rfl⟩,
    (((keeps_onPow s _).mono (by simp)).trans ((keeps_onDig _ _).mono (by simp))).trans ((keeps_mirrorTime _).mono (by simp))⟩

/-- The first image read of a start: the flash is opened, whatever the bank then turns out to be. -/
theorem imageBankStreamed_opensFlash {s : State} {n : BitVec 1} {b : Bank} (hexec : exec (.imageBankStreamed n b false) s = .next (bootBank (openFlash s b.modes) n b))
    (h : s.pow.sfdpRead = false) : ∃ t, exec (.imageBankStreamed n b false) s = .next t ∧ t.pow.sfdpRead = true ∧
      t.pow.readMode = (if b.modes.octal then .octal else if b.modes.quad then .quad else if b.modes.quadOut then .quadOut else .single) ∧
      t.out.spi = s.out.spi ++ [.reset 10, .sfdp .single 25, .select t.pow.readMode
        (if b.modes.octal then 100 else if b.modes.quad then 133 else if b.modes.quadOut then 133 else 25)] := by
  obtain ⟨hread, hmode, hspi⟩ := sameFlash_bootBank (openFlash s b.modes) n b
  obtain ⟨hread', hmode', hspi'⟩ := openFlash_first b.modes h
  exact ⟨_, hexec, hread.trans hread', hmode.trans hmode', by rw [hspi, hspi', hmode]⟩

theorem acceptBank_takes (s : State) (n : BitVec 1) (b : Bank) : (acceptBank s n b).pow.bank = n.zeroExtend 2 ∧
    (acceptBank s n b).pow.imageSeq = bankSeq b.header ∧ (acceptBank s n b).pow.bootStep = 4 ∧ (acceptBank s n b).par = imageParams b := by
  rw [acceptBank_pow, keeps_acceptBank s n b .par (by simp)]
  exact ⟨rfl, rfl, rfl, rfl⟩

/-- Settles O39, step by step: the release of the die (2), the link (3), the image bank (4), the key store (6), HBM (7), the drives (8) and the journal (9). -/
theorem theMainDieStarts : Obligations.TheMainDieStarts := by
  refine ⟨fun s => mainPgoodHigh_starts, fun s => completes_gatehouseLinkAgreed, fun s n b hup hlink hfree hbank hsafe hstep => ?_,
    fun s k h0 h16 => ⟨rejectBank_first s, rejectBank_second h0 h16⟩, fun s n b hup hlink hfree => exec_imageBankStreamed_reload hup hlink hfree,
    fun s b hup hlink hfree => exec_imageBankStreamed_adopt hup hlink hfree b,
    fun s bad hup hlink hbank hfree hinst hstep => ?_, fun s => exec_bootKeyStoreOpen_reopen, fun s => hbmTrainingDone_records,
    fun s d a b id hd hup hperst hwait => ⟨exec_driveReady_meets hd hup hperst hwait a b, exec_driveReady_refused hd hup hperst hwait a b⟩,
    fun s => exec_driveAttachTimeout, fun s hup hattach hfault hkey hnew hopen hserving => ?_⟩
  case refine_1 =>
    have hexec := exec_imageBankStreamed_boot hup hlink hfree n b hbank hsafe hstep
    refine ⟨fun h => ?_, fun m h hm => ?_, fun k h hk => ?_, imageBankStreamed_opensFlash hexec, fun h hk => ⟨?_, acceptBank_takes s n b⟩⟩
    · exact hexec.trans (congrArg _ (bootBank_noTurn h))
    · exact hexec.trans (congrArg _ (bootBank_otherTurn h hm))
    · exact hexec.trans (congrArg _ (bootBank_fails h hk))
    · exact hexec.trans (congrArg _ (bootBank_passes h hk))
  case refine_2 =>
    have hexec := fun ok => exec_bootKeyStoreOpen_start bad ok hup hlink hbank hfree hinst hstep
    refine ⟨hexec, fun h => ⟨_, hexec false, ?_, ?_, openStore_noEngine_unwrapped bad h⟩⟩
    · rw [openStore_noEngine bad h, State.onPow_pow]
    · rw [openStore_noEngine bad h, State.onPow_pow]
  case refine_3 =>
    have hno := exec_journalReplayDone_noBase hup hattach hfault hkey hnew hopen hserving
    exact ⟨hno, fun b => journalReplayDone_replays hup hattach hfault hkey hnew hopen hserving, fun r hr hk => hno (replayBase_none hr hk)⟩

end Sys2Proof.Machine
end

section
/-! OBLIGATIONS. The fields of a global serial (R46, R47). -/

namespace Sys2Proof.Machine

/-- The node address and the local serial fill bits 51 to 0 at most, so the epoch stands alone above them. -/
theorem serialOf_div_epoch (e : BitVec 4) (h l : Nat) : serialOf e h l / 2 ^ 52 = e.toNat := by
  have hlow : h % 4096 * 2 ^ 40 + l % 2 ^ 40 < 2 ^ 52 := by omega
  unfold serialOf
  omega

theorem serialOf_lt (e : BitVec 4) (h l : Nat) : serialOf e h l < 2 ^ 56 := by
  have hepoch : serialOf e h l / 2 ^ 52 < 2 ^ 4 := (serialOf_div_epoch e h l).trans_lt e.isLt
  omega

theorem serialEpoch_serialOf (e : BitVec 4) (h l : Nat) : serialEpoch (serialOf e h l) = e := by
  rw [serialEpoch, bitsOf, serialOf_div_epoch, Nat.mod_eq_of_lt e.isLt, BitVec.ofNat_toNat, BitVec.setWidth_eq]

theorem serialHome_serialOf (e : BitVec 4) (h l : Nat) : serialHome (serialOf e h l) = h % 4096 := by
  unfold serialHome bitsOf serialOf
  omega

theorem serialLocal_serialOf (e : BitVec 4) (h l : Nat) : serialLocal (serialOf e h l) = l % 2 ^ 40 := by
  unfold serialLocal serialOf
  omega

/-- Cutting a serial at bits 52 and 40 and putting the pieces together again loses nothing but the bits above 55. -/
theorem serialOf_fields (g : Nat) : serialOf (serialEpoch g) (serialHome g) (serialLocal g) = g % 2 ^ 56 := by
  simp only [serialOf, serialEpoch, serialHome, serialLocal, bitsOf, BitVec.toNat_ofNat]
  omega

/-- Settles O58: each field of a serial made of fields is the field put in, and a serial made of the fields of `g` is `g`. -/
theorem serialsReadBack : Obligations.SerialsReadBack := by
  refine ⟨fun e h l hh hl => ⟨serialOf_lt e h l, serialEpoch_serialOf e h l, ?_, ?_⟩, fun g hg => ?_⟩
  · rw [serialHome_serialOf, Nat.mod_eq_of_lt hh]
  · rw [serialLocal_serialOf, Nat.mod_eq_of_lt hl]
  · rw [serialOf_fields, Nat.mod_eq_of_lt hg]

end Sys2Proof.Machine
end

section
/-! SUPPORT. What a ring reads as after a change, and what the host's writes to the ring registers do. -/

namespace Sys2Proof.Machine

variable {s : State} {m n : Nat}

/-! ### Reading rings -/

theorem sqOf_onSq_self {f : SqRing → SqRing} (h : f (sqOf s n) ≠ {}) : sqOf (onSq s n f) n = f (sqOf s n) := tget_tupd_self h

theorem sqOf_onSq_ne {f : SqRing → SqRing} (h : m ≠ n) : sqOf (onSq s n f) m = sqOf s m := tget_tupd_ne h

theorem cqOf_onCq_self {f : CqRing → CqRing} (h : f (cqOf s n) ≠ {}) : cqOf (onCq s n f) n = f (cqOf s n) := tget_tupd_self h

/-- A submission ring out of its reset state is not the default one. -/
theorem SqRing.ne_default {r : SqRing} (h : r.st ≠ .idle) : r ≠ {} := by rintro rfl; exact h rfl

/-! ### Submission rings -/

theorem exec_sqEnable (cfg : BitVec 32) : exec (.sqEnable n cfg) s = .next (s.when (hostReach s) (sqEnable n cfg)) := rfl

theorem exec_sqDisable : exec (.sqDisable n) s = .next (s.when (hostReach s) (sqDisable n)) := rfl

theorem exec_sqTailDoorbell (v : BitVec 32) : exec (.sqTailDoorbell n v) s = .next (s.when (hostReach s) (sqTail n v)) := rfl

/-- The type that an enable gives ring `n`: ring 0 is the CONTROL ring (03 R101). -/
def enableKind (n : Nat) (cfg : BitVec 32) : BitVec 2 := if n = 0 then 0 else cfg.extractLsb' 1 2

/-- Is an enable of an IDLE submission ring refused (03 R104)? -/
def enableBad (s : State) (n : Nat) (cfg : BitVec 32) : Bool :=
  (decide (n ≠ 0) && (enableKind n cfg == 0 || enableKind n cfg == 3)) || decide ((cfg.extractLsb' 8 4).toNat < 4)
    || decide ((cfg.extractLsb' 8 4).toNat > 12) || (cqOf s (cfg.extractLsb' 16 5).toNat).st != .running

theorem sqEnable_idle (cfg : BitVec 32) (hn : n < 32) (hidle : (sqOf s n).st = .idle) :
    sqEnable n cfg s = onSq s n fun r => { r with
      kind := enableKind n cfg, depthLog2 := cfg.extractLsb' 8 4, cq := cfg.extractLsb' 16 5, enable := !enableBad s n cfg
      cfgError := r.cfgError || enableBad s n cfg, st := if enableBad s n cfg then .idle else .running, head := 0, tail := 0 } := by
  simp only [sqEnable, hn, hidle, decide_true, beq_self_eq_true, Bool.and_self, State.when_true]
  rfl

theorem sqEnable_accepted (cfg : BitVec 32) (hn : n < 32) (hidle : (sqOf s n).st = .idle) (hkind : n = 0 ∨ enableKind n cfg = 1 ∨ enableKind n cfg = 2)
    (hmin : 4 ≤ (cfg.extractLsb' 8 4).toNat) (hmax : (cfg.extractLsb' 8 4).toNat ≤ 12) (hcq : (cqOf s (cfg.extractLsb' 16 5).toNat).st = .running) :
    sqEnable n cfg s = onSq s n fun r => { r with
      kind := enableKind n cfg, depthLog2 := cfg.extractLsb' 8 4, cq := cfg.extractLsb' 16 5, enable := true, st := .running, head := 0, tail := 0 } := by
  have htype : (decide (n ≠ 0) && (enableKind n cfg == 0 || enableKind n cfg == 3)) = false := by
    rcases hkind with rfl | h | h
    · rfl
    · simp [h]
    · simp [h]
  have hgood : enableBad s n cfg = false := by
    simp only [enableBad, htype, hcq, gt_iff_lt, Nat.not_lt.mpr hmin, Nat.not_lt.mpr hmax, decide_false, bne_self_eq_false, Bool.or_self]
  simp only [sqEnable_idle cfg hn hidle, hgood, Bool.or_false, Bool.not_false, Bool.false_eq_true, ↓reduceIte]

theorem enableBad_of {cfg : BitVec 32} (h : (n ≠ 0 ∧ (enableKind n cfg = 0 ∨ enableKind n cfg = 3)) ∨ (cfg.extractLsb' 8 4).toNat < 4 ∨
    12 < (cfg.extractLsb' 8 4).toNat ∨ (cqOf s (cfg.extractLsb' 16 5).toNat).st ≠ .running) : enableBad s n cfg = true := by
  simp only [enableBad, Bool.or_eq_true, Bool.and_eq_true, decide_eq_true_eq, beq_iff_eq, bne_iff_ne]
  tauto

/-- A refused enable leaves its ring IDLE with cfg_error, and every other ring as it was. -/
theorem completes_sqEnable_refused (cfg : BitVec 32) (hreach : hostReach s = true) (hn : n < 32) (hidle : (sqOf s n).st = .idle) (hbad : enableBad s n cfg = true) :
    Completes (.sqEnable n cfg) s [.hq] fun t => (sqOf t n).st = .idle ∧ (sqOf t n).cfgError = true ∧ (sqOf t n).enable = false ∧
      ∀ m, m ≠ n → sqOf t m = sqOf s m := by
  have hring := sqEnable_idle cfg hn hidle
  simp only [hbad, Bool.or_true, Bool.not_true, ↓reduceIte] at hring
  refine ⟨_, by rw [exec_sqEnable, hreach, State.when_true, hring], ⟨?_, ?_, ?_, fun m hm => sqOf_onSq_ne hm⟩, keeps_onSq s n _⟩ <;>
    rw [sqOf_onSq_self fun q => absurd (congrArg SqRing.cfgError q) (by simp)]

theorem sqDisable_working (hst : (sqOf s n).st ≠ .idle) : sqDisable n s = onSq s n fun r => { r with enable := false, st := .draining } := by
  rw [sqDisable, bne_iff_ne.mpr hst, State.when_true]

/-- The test on a doorbell's ring passes: it is one of the 32 and not IDLE (03 R115). -/
theorem guard_working {st : RingState} (hn : n < 32) (hst : st ≠ .idle) : (decide (n < 32) && st != .idle) = true := by simp [hn, hst]

theorem sqTail_below {v : BitVec 32} (hn : n < 32) (hst : (sqOf s n).st ≠ .idle) (h : (v.extractLsb' 0 12).toNat < depthOf (sqOf s n).depthLog2) :
    sqTail n v s = onSq s n fun r => { r with tail := (v.extractLsb' 0 12).toNat } := by
  rw [sqTail, guard_working hn hst, State.when_true]
  exact if_pos h

theorem sqTail_beyond {v : BitVec 32} (hn : n < 32) (hst : (sqOf s n).st ≠ .idle) (h : depthOf (sqOf s n).depthLog2 ≤ (v.extractLsb' 0 12).toNat) :
    sqTail n v s = doorbellErr (onSq s n fun r => { r with doorbellError := true, st := .error }) (sqOf s n).st := by
  rw [sqTail, guard_working hn hst, State.when_true]
  exact if_neg (Nat.not_lt.mpr h)

theorem exec_sqDrainDone (hst : (sqOf s n).st = .draining) (hnone : (sqOf s n).inFlight = 0) :
    exec (.sqDrainDone n) s = .next (onSq s n fun r => { r with st := .idle, head := 0, tail := 0 }) := by
  show execSqDrainDone n s = _
  simp [execSqDrainDone, done, hst, hnone]

/-! ### Completion rings -/

theorem exec_cqEnable (cfg : BitVec 32) : exec (.cqEnable n cfg) s = .next (s.when (hostReach s) (cqEnable n cfg)) := rfl

theorem exec_cqDisable : exec (.cqDisable n) s = .next (s.when (hostReach s) (cqDisable n)) := rfl

theorem exec_cqHeadDoorbell (v : BitVec 32) : exec (.cqHeadDoorbell n v) s = .next (s.when (hostReach s) (cqHead n v)) := rfl

theorem cqEnable_accepted (cfg : BitVec 32) (hn : n < 32) (hidle : (cqOf s n).st = .idle) (hmin : 4 ≤ (cfg.extractLsb' 8 4).toNat)
    (hmax : (cfg.extractLsb' 8 4).toNat ≤ 14) (hmod : (cqOf s n).modCount = 0 ∨ (cqOf s n).modTimer ≠ 0) :
    cqEnable n cfg s = onCq s n fun q => { q with
      irqEnable := cfg.getLsbD 1, depthLog2 := cfg.extractLsb' 8 4, vector := cfg.extractLsb' 16 6, enable := true, st := .running, tail := 0, phase := true
      head := 0, reserved := 0 } := by
  have hmoderation : ((cqOf s n).modCount != 0 && (cqOf s n).modTimer == 0) = false := by
    rcases hmod with h | h
    · rw [h]
      rfl
    · rw [beq_false_of_ne h, Bool.and_false]
  simp only [cqEnable, hn, hidle, hmoderation, Nat.not_lt.mpr hmin, Nat.not_lt.mpr hmax, decide_true, decide_false, beq_self_eq_true,
    Bool.and_self, Bool.or_false, Bool.not_false, State.when_true, Bool.false_eq_true, ↓reduceIte]

theorem cqDisable_free (hst : (cqOf s n).st ≠ .idle) (h : cqNamed s n = false) :
    cqDisable n s = onCq s n fun q => { q with enable := false, st := .idle, tail := 0, phase := true, head := 0, reserved := 0 } := by
  rw [cqDisable, bne_iff_ne.mpr hst, State.when_true, h]
  rfl

theorem cqDisable_named (hst : (cqOf s n).st ≠ .idle) (h : cqNamed s n = true) : cqDisable n s = onCq s n fun q => { q with cfgError := true } := by
  rw [cqDisable, bne_iff_ne.mpr hst, State.when_true, h]
  rfl

/-- The head in a doorbell, and how many entries it would release (03 R111). -/
def headOf (v : BitVec 32) : Nat := (v.extractLsb' 0 14).toNat
def released (q : CqRing) (v : BitVec 32) : Nat := (headOf v + depthOf q.depthLog2 - q.head) % depthOf q.depthLog2

theorem cqHead_releases {v : BitVec 32} (hn : n < 32) (hst : (cqOf s n).st ≠ .idle) (hlt : headOf v < depthOf (cqOf s n).depthLog2)
    (hheld : released (cqOf s n) v ≤ cqHeld (cqOf s n)) : cqHead n v s = onCq s n fun q => { q with head := headOf v } := by
  rw [cqHead, guard_working hn hst, State.when_true]
  exact if_pos ⟨hlt, hheld⟩

theorem cqHead_beyond {v : BitVec 32} (hn : n < 32) (hst : (cqOf s n).st ≠ .idle)
    (h : depthOf (cqOf s n).depthLog2 ≤ headOf v ∨ cqHeld (cqOf s n) < released (cqOf s n) v) :
    cqHead n v s = doorbellErr (onCq s n fun q => { q with doorbellError := true, st := .error }) (cqOf s n).st := by
  have hno : ¬ (headOf v < depthOf (cqOf s n).depthLog2 ∧ released (cqOf s n) v ≤ cqHeld (cqOf s n)) := by omega
  rw [cqHead, guard_working hn hst, State.when_true]
  exact if_neg hno

theorem exec_completionWriteFail (hst : (cqOf s n).st = .running) :
    exec (.completionWriteFail n) s = .next (ringError (onCq s n fun q => { q with st := .error, writeError := true })) := by
  show execCompletionWriteFail n s = _
  simp [execCompletionWriteFail, done, hst]

/-! ### Device time -/

theorem exec_devTimeLowRead : exec .devTimeLowRead s = .next (s.when (hostReach s) devTimeLow) := rfl

/-- The low half of DEV_TIME read as 32 bits. -/
theorem bar0Read32_timeLow (s : State) : bar0Read32 s 0x108 = (BitVec.ofNat 32 s.time.mUs, devTimeLow s) := by
  have hlow : (BitVec.ofNat 64 s.time.mUs).extractLsb' 0 32 = BitVec.ofNat 32 s.time.mUs := by
    apply BitVec.eq_of_toNat_eq
    simp only [BitVec.extractLsb'_toNat, BitVec.toNat_ofNat, Nat.shiftRight_zero]
    omega
  rw [← hlow]
  rfl

theorem bar0Read32_timeHigh (s : State) : bar0Read32 s 0x10C = (s.hq.timeLatch, s) := rfl

/-- The latch takes bits 63..32 (03 R99). -/
theorem devTimeLow_latch (s : State) : (devTimeLow s).hq.timeLatch = (BitVec.ofNat 64 s.time.mUs).extractLsb' 32 32 := by
  apply BitVec.eq_of_toNat_eq
  simp only [devTimeLow, State.onHq_hq, BitVec.extractLsb'_toNat, BitVec.toNat_ofNat, Nat.shiftRight_eq_div_pow]
  omega

end Sys2Proof.Machine
end

section
/-! OBLIGATIONS. The rings' registers and DEV_TIME. -/

namespace Sys2Proof.Machine

/-- Settles O1, from what each write to an IDLE or a working submission ring does. -/
theorem submissionRingsAreConfigured : Obligations.SubmissionRingsAreConfigured := by
  refine ⟨fun s n cfg hreach hn hidle hkind hmin hmax hcq => ?_, fun s n cfg hreach hn hidle hbad => ?_, fun s n hreach hst => ?_,
    fun s n => exec_sqDrainDone, fun s n v hreach hn hst hlt => ?_, fun s n v hreach hn hst hge => ?_, fun s n v hreach => ?_⟩
  · rw [exec_sqEnable, hreach, State.when_true, sqEnable_accepted cfg hn hidle hkind hmin hmax hcq]
    rfl
  · obtain ⟨t, hexec, ⟨hst, herr, hen, hother⟩, hkeep⟩ := completes_sqEnable_refused cfg hreach hn hidle (enableBad_of hbad)
    exact ⟨t, hexec, hst, herr, hen, hother, hkeep⟩
  · rw [exec_sqDisable, hreach, State.when_true, sqDisable_working hst]
  · rw [exec_sqTailDoorbell, hreach, State.when_true, sqTail_below hn hst hlt]
  · rw [exec_sqTailDoorbell, hreach, State.when_true, sqTail_beyond hn hst hge]
    rfl
  · simp [exec_sqEnable, exec_sqDisable, exec_sqTailDoorbell, hreach]

/-- Settles O2, from what each write to an IDLE or a working completion ring does. -/
theorem completionRingsAreConfigured : Obligations.CompletionRingsAreConfigured := by
  refine ⟨fun s n cfg hreach hn hidle hmin hmax hmod => ?_, fun s n hreach hst hfree => ?_, fun s n hreach hst hnamed => ?_,
    fun s n v hreach hn hst hlt hheld => ?_, fun s n v hreach hn hst hbad => ?_, fun s n v hreach => ?_, fun s n => exec_completionWriteFail⟩
  · rw [exec_cqEnable, hreach, State.when_true, cqEnable_accepted cfg hn hidle hmin hmax hmod]
  · rw [exec_cqDisable, hreach, State.when_true, cqDisable_free hst hfree]
  · rw [exec_cqDisable, hreach, State.when_true, cqDisable_named hst hnamed]
  · rw [exec_cqHeadDoorbell, hreach, State.when_true, cqHead_releases hn hst hlt hheld]
    rfl
  · rw [exec_cqHeadDoorbell, hreach, State.when_true, cqHead_beyond hn hst hbad]
    rfl
  · simp [exec_cqEnable, exec_cqDisable, exec_cqHeadDoorbell, hreach]

/-- Settles O57, from what the two 32-bit reads of DEV_TIME give and do. -/
theorem deviceTimeIsLatched : Obligations.DeviceTimeIsLatched := by
  refine ⟨fun s => ?_, rfl, fun s => ⟨irqMain (resetFunction s) 3, rfl, rfl, rfl⟩⟩
  rw [bar0Read32_timeLow]
  refine ⟨rfl, devTimeLow_latch s, fun hreach => ?_, fun hreach => ?_, bar0Read32_timeHigh s, rfl⟩
  · have hexec : exec .devTimeLowRead s = .next (devTimeLow s) := by rw [exec_devTimeLowRead, hreach, State.when_true]
    exact ⟨hexec, devTimeLow s, hexec, by rw [bar0Read32_timeHigh, devTimeLow_latch]⟩
  · rw [exec_devTimeLowRead, hreach, State.when_false]

end Sys2Proof.Machine
end

section
/-! SUPPORT. What a signed CONTROL request in flight does, check by check (03 R130). -/

namespace Sys2Proof.Machine

variable {s : State} {op : Nat} {e : CtlEntry}

/-- The opcode's effect, once the sequence is recorded and checks 9 and 10 have passed. -/
def ctlEffect (op : Nat) (s : State) (b : Bytes) : State :=
  match op with
  | 0x01 => doDefineEvent s b
  | 0x02 => doCloseEvent s b
  | 0x03 => doVoidSerials s b
  | 0x04 => doImportKey s b
  | 0x05 => doDeriveKey s b
  | 0x06 => keyTurn s (leAt b 0 2) (doRetireKey · b)
  | 0x07 => doVoucher s b
  | 0x08 => doQueryLedger s b
  | 0x09 => doEpochRoll s b
  | 0x0A => doBindRing s b
  | 0x0B => doGetStats s
  | _ => doHandBack s b

theorem ctlBody_shortBuffer {e blk : Bytes} (h : leAt e 16 4 < respLen (leAt e 2 1)) : ctlBody s e blk = endCtl s .badLength (detSub 16) := if_pos h

theorem ctlBody_passes {e blk : Bytes} (hresp : respLen (leAt e 2 1) ≤ leAt e 16 4)
    (hlen : ∀ n, fixedBody (leAt e 2 1) = some n → n = (cut blk 32 (leAt blk 24 4)).length) :
    ctlBody s e blk = ctlEffect (leAt e 2 1) s (cut blk 32 (leAt blk 24 4)) := by
  have hfixed : (fixedBody (leAt e 2 1)).any (· ≠ (cut blk 32 (leAt blk 24 4)).length) = false := by
    cases h : fixedBody (leAt e 2 1) with
    | none => rfl
    | some n => simp [hlen n h]
  rw [ctlBody, if_neg (Nat.not_lt.mpr hresp), hfixed]
  rfl

/-- A request that waits for nothing is processed with its block as read. -/
theorem ctlRequest_ready (block : Bytes) (h : CtlReady s op e) : ctlRequest op block s = ctlRun s e block := by
  obtain ⟨hfetched, hop, hcore, hsafe, hheld, hwait⟩ := h
  simp only [ctlRequest, hfetched, hop, hcore, hheld, hwait, beq_self_eq_true, Bool.true_or, Bool.not_true, Bool.or_false, Bool.false_eq_true, ↓reduceIte]

theorem ctlRun_refused {block : Bytes} {x : Bad} (hsafe : s.pow.safe = false) (h : ctlChecks s e.bytes (fit (leAt e.bytes 4 4) block) = some x) :
    ctlRun s e block = endCtl s x.1 x.2 := by
  simp only [ctlRun, hsafe, h, Bool.false_eq_true, ↓reduceIte]

theorem ctlRun_recorded {block : Bytes} (hsafe : s.pow.safe = false) (h : ctlChecks s e.bytes (fit (leAt e.bytes 4 4) block) = none)
    (hnow : appendsNow s = true) :
    ctlRun s e block = ctlBody (ctlRecorded s e (fit (leAt e.bytes 4 4) block)) e.bytes (fit (leAt e.bytes 4 4) block) := by
  simp only [ctlRun, hsafe, h, hnow, Bool.false_eq_true, ↓reduceIte]

/-- A command is a signed request of opcode `op` when it runs the CONTROL entry of that opcode; what it does past its checks is the opcode's effect. -/
theorem signedRequest_of {c : Bytes → Instr} {effect : State → Bytes → State} (hexec : ∀ block s, exec (c block) s = .next (ctlRequest op block s))
    (heffect : ∀ s b, ctlEffect op s b = effect s b) : SignedRequest c op effect := by
  intro s e block hready blk body
  have hsafe : s.pow.safe = false := hready.2.2.2.1
  obtain rfl : leAt e.bytes 2 1 = op := hready.2.1
  refine ⟨ctlRun s e block, by rw [hexec, ctlRequest_ready block hready], fun x hx => ctlRun_refused hsafe hx, fun hpass hnow => ?_⟩
  rw [ctlRun_recorded hsafe hpass hnow]
  exact ⟨ctlBody_shortBuffer, fun hresp hlen => (ctlBody_passes hresp hlen).trans (heffect _ _)⟩

theorem exec_controlBlockReadFail (h : CtlReady s op e) (hrsv : ctlRsv e.bytes = none) (hmin : 96 ≤ leAt e.bytes 4 4) (hmax : leAt e.bytes 4 4 ≤ 8192) :
    exec .controlBlockReadFail s = .next (endCtl s .internalFault detDmaRead) := by
  obtain ⟨hfetched, -, hcore, hsafe, hheld, hwait⟩ := h
  have hlen : ¬ (leAt e.bytes 4 4 < 96 ∨ leAt e.bytes 4 4 > 8192) := by omega
  show execControlBlockReadFail s = _
  simp only [execControlBlockReadFail, done, hfetched, hcore, hsafe, hheld, hwait, hrsv, hlen, bne_self_eq_false, Bool.not_true, Bool.or_self,
    Bool.false_eq_true, ↓reduceIte]

/-! ### The opcodes -/

/-- A change of this epoch takes effect when its publish ends. -/
theorem applyPublish_sameEpoch {p : Publish} (h : p.epoch = s.led.epoch) :
    applyPublish s p = s.onHbm fun h => { h with
      events := match p.event with
        | some r => h.events ++ [(p.num, r)]
        | none => h.events.map fun q => if q.1 = p.num then (q.1, { q.2 with closed := true }) else q } :=
  if_pos (beq_iff_eq.mpr h)

/-- With no request that reads events, and no publish under way, a publish ends at once; else the request waits for its end (09 R488). -/
theorem publishEvent_eq (s : State) (num : Nat) (event : Option EventRec) :
    publishEvent s num event =
      if eventReaders s = [] ∧ s.hbm.publishing = [] then endCtl (applyPublish s { num := num, event := event, epoch := s.led.epoch, waits := eventReaders s }) .done
      else (s.onHbm fun h => { h with publishing := h.publishing ++ [{ num := num, event := event, epoch := s.led.epoch, waits := eventReaders s }] }).onHq
        fun h => { h with ctlHeld := true, ctlFor := .publish } := by
  simp only [publishEvent, Bool.and_eq_true, List.isEmpty_iff]

theorem doCloseEvent_eq (s : State) (b : Bytes) :
    doCloseEvent s b = if zeroAt b 4 4 = false then endCtl s .reservedField (detBlock 36)
      else if eventOf s (leAt b 0 4) = none then endCtl s .eventUnknown else publishEvent s (leAt b 0 4) none := by
  unfold doCloseEvent
  cases zeroAt b 4 4
  · rfl
  · cases eventOf s (leAt b 0 4) <;> rfl

theorem doVoidSerials_eq (s : State) (b : Bytes) :
    doVoidSerials s b = if zeroAt b 7 1 = false then endCtl s .reservedField (detBlock 39)
      else if zeroAt b 15 1 = false then endCtl s .reservedField (detBlock 47)
      else match startVoid s (leAt b 0 7) (leAt b 8 7) false with
        | .error e => endCtl s e.1 e.2
        | .ok s' => s' := by
  unfold doVoidSerials
  cases zeroAt b 7 1
  · rfl
  · cases zeroAt b 15 1 <;> rfl

theorem doQueryLedger_eq (s : State) (b : Bytes) :
    doQueryLedger s b = if zeroAt b 7 1 = false then endCtl s .reservedField (detBlock 39)
      else match checkQuery s (leAt b 0 7) with
        | some e => endCtl s e.1 e.2
        | none => startQuery s (leAt b 0 7) false := by
  unfold doQueryLedger
  cases zeroAt b 7 1 <;> rfl

/-- The home named by HAND_BACK is below 4,096 where it is used. -/
theorem doHandBack_eq (s : State) (b : Bytes) :
    doHandBack s b = if leAt b 0 2 ≥ 4096 then endCtl s .reservedField (detBlock 33)
      else if zeroAt b 2 2 = false then endCtl s .reservedField (detBlock (if zeroAt b 2 1 then 35 else 34))
      else match checkHandBack s (leAt b 0 2) (leAt b 4 4) with
        | some e => endCtl s e.1 e.2
        | none => startHandBack s (leAt b 0 2) false := by
  unfold doHandBack
  by_cases h : leAt b 0 2 ≥ 4096
  · simp only [h, ↓reduceIte]
  · simp only [h, ↓reduceIte, Nat.mod_eq_of_lt (Nat.not_le.mp h)]
    cases zeroAt b 2 2 <;> rfl

end Sys2Proof.Machine
end

section
/-! OBLIGATIONS. The signed CONTROL requests. -/

namespace Sys2Proof.Machine

/-- Settles O5: each command runs the CONTROL entry of its opcode, and past the shared checks the opcode's effect is the one stated. -/
theorem signedRequestsOnEventsAndLedger : Obligations.SignedRequestsOnEventsAndLedger := by
  refine ⟨signedRequest_of (fun _ _ => rfl) fun s b => ?_, signedRequest_of (fun _ _ => rfl) fun s b => ?_,
    signedRequest_of (fun _ _ => rfl) doVoidSerials_eq, signedRequest_of (fun _ _ => rfl) doQueryLedger_eq,
    signedRequest_of (fun _ _ => rfl) fun _ _ => rfl, signedRequest_of (fun _ _ => rfl) doHandBack_eq⟩
  · show doDefineEvent s b = _
    unfold doDefineEvent
    cases checkEvent s b with
    | some x => rfl
    | none => simp only [publishEvent_eq, applyPublish_sameEpoch]
  · show doCloseEvent s b = _
    simp only [doCloseEvent_eq, publishEvent_eq, applyPublish_sameEpoch]

/-- Settles O6: each command runs the CONTROL entry of its opcode, and past the shared checks the opcode's effect is the one stated. -/
theorem signedRequestsOnKeysAndTheDevice : Obligations.SignedRequestsOnKeysAndTheDevice :=
  ⟨signedRequest_of (fun _ _ => rfl) fun _ _ => rfl, signedRequest_of (fun _ _ => rfl) fun _ _ => rfl,
    signedRequest_of (fun _ _ => rfl) fun _ _ => rfl, signedRequest_of (fun _ _ => rfl) fun _ _ => rfl,
    signedRequest_of (fun _ _ => rfl) fun _ _ => rfl, signedRequest_of (fun _ _ => rfl) fun _ _ => rfl⟩

end Sys2Proof.Machine
end

section
/-! SUPPORT. What a host cause and a completion do to the host queue engine and to the outputs. -/

namespace Sys2Proof.Machine

variable {s : State} {n : Nat}

/-! ### Signals and causes -/

theorem signal_hq (s : State) (v : Nat) : ∃ vecs, (signal s v).hq = { s.hq with vecs := vecs } := by
  unfold signal
  split
  · exact ⟨_, rfl⟩
  · exact ⟨s.hq.vecs, rfl⟩

theorem signal_out (s : State) (v : Nat) : ∃ msix msgs, (signal s v).out = { s.out with msix := msix, msgs := msgs } := by
  unfold signal
  split
  · exact ⟨s.out.msix, s.out.msgs, rfl⟩
  · exact ⟨_, _, rfl⟩

/-- A cause changes the cause register and, through its signal, the vectors. -/
theorem cause_hq (s : State) (n : Nat) : ∃ vecs, (cause s n).hq = { s.hq with cause := setBit s.hq.cause n true, vecs := vecs } := by
  unfold cause State.when
  extract_lets fire u
  split
  · exact signal_hq u 0
  · exact ⟨s.hq.vecs, rfl⟩

theorem cause_out (s : State) (n : Nat) : ∃ msix msgs, (cause s n).out = { s.out with msix := msix, msgs := msgs } := by
  unfold cause State.when
  extract_lets fire u
  split
  · exact signal_out u 0
  · exact ⟨s.out.msix, s.out.msgs, rfl⟩

theorem cause_sqs (s : State) (n : Nat) : (cause s n).hq.sqs = s.hq.sqs := by
  obtain ⟨_, h⟩ := cause_hq s n
  rw [h]

theorem cause_cqs (s : State) (n : Nat) : (cause s n).hq.cqs = s.hq.cqs := by
  obtain ⟨_, h⟩ := cause_hq s n
  rw [h]

theorem setBit_true_getLsbD {w : Nat} (v : BitVec w) {i : Nat} (h : i < w) : (setBit v i true).getLsbD i = true := by
  simp only [setBit, ↓reduceIte, BitVec.getLsbD_or, BitVec.getLsbD_ofNat, Nat.testBit_two_pow_self, h, decide_true, Bool.and_self, Bool.or_true]

theorem cause_getLsbD (s : State) {n : Nat} (h : n < 12) : (cause s n).hq.cause.getLsbD n = true := by
  obtain ⟨_, e⟩ := cause_hq s n
  rw [e]
  exact setBit_true_getLsbD _ h

theorem sqOf_congr {s t : State} (h : t.hq.sqs = s.hq.sqs) (n : Nat) : sqOf t n = sqOf s n := by rw [sqOf, h, sqOf]

theorem cqOf_congr {s t : State} (h : t.hq.cqs = s.hq.cqs) (n : Nat) : cqOf t n = cqOf s n := by rw [cqOf, h, cqOf]

/-! ### Completions -/

theorem moderate_out (s : State) (n : Nat) : ∃ msix msgs, (moderate s n).out = { s.out with msix := msix, msgs := msgs } := by
  unfold moderate State.when
  extract_lets q due
  split
  · exact signal_out _ _
  · exact ⟨s.out.msix, s.out.msgs, rfl⟩

/-- The outputs are written and INTERNAL_FAULT has set its cause (03 R149): what a completion does before its entry is looked at. -/
def outsWritten (s : State) (c : Comp) (outs : List HostWrite) : State :=
  (s.onOut fun o => { o with writes := o.writes ++ outs }).when (c.status == .internalFault) (cause · 9)

theorem outsWritten_rings (s : State) (c : Comp) (outs : List HostWrite) :
    (outsWritten s c outs).hq.sqs = s.hq.sqs ∧ (outsWritten s c outs).hq.cqs = s.hq.cqs := by
  unfold outsWritten State.when
  split
  · exact ⟨cause_sqs _ 9, cause_cqs _ 9⟩
  · exact ⟨rfl, rfl⟩

theorem outsWritten_out (s : State) (c : Comp) (outs : List HostWrite) :
    ∃ msix msgs, (outsWritten s c outs).out = { s.out with writes := s.out.writes ++ outs, msix := msix, msgs := msgs } := by
  unfold outsWritten State.when
  split
  · exact cause_out _ 9
  · exact ⟨_, _, rfl⟩

/-- The completion entry `c'` goes to a slot of a completion ring that is RUNNING (03 R150); an entry that is dropped, or whose ring is not RUNNING,
has no effect on the outputs beyond the output bytes (R155, R854). -/
theorem complete_out (s : State) (sq : Nat) (dropped : Bool) (fetched : Nat) (c : Comp) (outs : List HostWrite) :
    ∃ cs es msix msgs, (complete s sq dropped fetched c outs).out =
        { s.out with writes := s.out.writes ++ outs, comps := s.out.comps ++ cs, entries := s.out.entries ++ es, msix := msix, msgs := msgs } ∧
      (dropped = false → (cqOf s (sqOf s sq).cq.toNat).st = .running →
        ∃ c', cs = [c'] ∧ c'.sq = sq ∧ c'.status = c.status ∧ c'.detail = c.detail) := by
  obtain ⟨msix, msgs, hout⟩ := outsWritten_out s c outs
  obtain ⟨hsqs, hcqs⟩ := outsWritten_rings s c outs
  unfold complete
  extract_lets s1 s2 r k s3 q s4 us c' s5 last s6 s7 s8
  have hq : q = cqOf s (sqOf s sq).cq.toNat := by
    show cqOf (outsWritten s c outs) (sqOf (outsWritten s c outs) sq).cq.toNat = _
    rw [sqOf_congr hsqs]
    exact cqOf_congr hcqs _
  have h4 : s4.out = { s.out with writes := s.out.writes ++ outs, msix := msix, msgs := msgs } := hout
  split
  next hdropped =>
    exact ⟨[], [], msix, msgs, by simp only [List.append_nil]; exact hout, fun h => absurd hdropped (by simp [h])⟩
  · split
    next hrun =>
      obtain ⟨msix', msgs', hmod⟩ := moderate_out s8 k
      have h7 : s7.out = s5.out := by
        show (s6.when _ _).out = _
        unfold State.when
        split <;> rfl
      have h8 : s8.out = s5.out := (keeps_countComp s7 _ _ _ .out (by simp)).trans h7
      have h5 : s5.out = { s4.out with comps := s4.out.comps ++ [c'], entries := s4.out.entries ++ [{ addr := c'.addr, bytes := compBytes c' }] } := rfl
      refine ⟨[c'], [{ addr := c'.addr, bytes := compBytes c' }], msix', msgs', ?_, fun _ _ => ⟨c', rfl, rfl, rfl, rfl⟩⟩
      rw [hmod, h8, h5, h4]
    next hstop =>
      refine ⟨[], [], msix, msgs, ?_, fun _ h => absurd (by rw [hq]; exact h) hstop⟩
      simp only [List.append_nil]
      exact h4

theorem complete_writes (s : State) (sq : Nat) (dropped : Bool) (fetched : Nat) (c : Comp) (outs : List HostWrite) :
    (complete s sq dropped fetched c outs).out.writes = s.out.writes ++ outs := by
  obtain ⟨_, _, _, _, h, -⟩ := complete_out s sq dropped fetched c outs
  rw [h]

end Sys2Proof.Machine
end

section
/-! SUPPORT. What the fetch of a submission entry does: the index taken, the place in a lane (03 R114, R116, R117, 04 R210, R211). -/

namespace Sys2Proof.Machine

variable {s : State} {n lane ctx : Nat}

/-! ### The index -/

/-- What a ring that can be fetched from is like (03 R109, R111, R114). -/
theorem canFetch_spec (h : canFetch s n = true) :
    (sqOf s n).st = .running ∧ (sqOf s n).held = none ∧ (cqOf s (sqOf s n).cq.toNat).st = .running := by
  simp only [canFetch, Bool.and_eq_true, beq_iff_eq, Option.isNone_iff_eq_none] at h
  obtain ⟨⟨⟨⟨⟨-, hst⟩, hheld⟩, -⟩, hcq⟩, -⟩ := h
  exact ⟨hst, hheld, hcq⟩

/-- A ring that holds an entry is not fetched from. -/
theorem canFetch_held {h : HeldEntry} (e : (sqOf s n).held = some h) : canFetch s n = false := by simp [canFetch, e]

theorem keeps_takeIndex (s : State) (n : Nat) : Keeps [.hq] s (takeIndex s n) := ((keeps_onSq s n _).trans (keeps_onHq _ _)).trans (keeps_onCq _ _ _)

/-- A submission ring whose next entry has been taken, and a completion ring with one slot more reserved. -/
def indexTaken (r : SqRing) : SqRing := { r with head := (r.head + 1) % depthOf r.depthLog2, inFlight := r.inFlight + 1 }
def slotReserved (q : CqRing) : CqRing := { q with reserved := q.reserved + 1 }

theorem indexTaken_ne_default (r : SqRing) : indexTaken r ≠ {} := fun q => Nat.succ_ne_zero r.inFlight (congrArg SqRing.inFlight q)
theorem slotReserved_ne_default (q : CqRing) : slotReserved q ≠ {} := fun e => Nat.succ_ne_zero q.reserved (congrArg CqRing.reserved e)

theorem sqOf_takeIndex (s : State) (n m : Nat) : sqOf (takeIndex s n) m = sqOf (onSq s n indexTaken) m := rfl

theorem sqOf_takeIndex_self (s : State) (n : Nat) : sqOf (takeIndex s n) n = indexTaken (sqOf s n) :=
  (sqOf_takeIndex s n n).trans (sqOf_onSq_self (indexTaken_ne_default _))

theorem sqOf_takeIndex_ne {m : Nat} (h : m ≠ n) : sqOf (takeIndex s n) m = sqOf s m := (sqOf_takeIndex s n m).trans (sqOf_onSq_ne h)

theorem cqOf_takeIndex (s : State) (n : Nat) : cqOf (takeIndex s n) (sqOf s n).cq.toNat = slotReserved (cqOf s (sqOf s n).cq.toNat) := by
  have hcq : (sqOf (onSq s n indexTaken) n).cq = (sqOf s n).cq := by rw [sqOf_onSq_self (indexTaken_ne_default _), indexTaken]
  have htake : ∀ k, cqOf (takeIndex s n) k = cqOf (onCq s (sqOf (onSq s n indexTaken) n).cq.toNat slotReserved) k := fun _ => rfl
  rw [htake, hcq]
  exact cqOf_onCq_self (slotReserved_ne_default _)

/-! ### CONTROL entries -/

theorem keeps_callHook (s : State) (c : CoreId) (addr : Nat) (ie : Bool) (y : Option W36) : Keeps [.core] s (callHook s c addr ie y) :=
  .when _ _ ((keeps_coreUpd s c _).trans (keeps_onCore _ _))

theorem keeps_hookInit (s : State) (c : CoreId) : Keeps [.core] s (hookInit s c) :=
  .when _ _ ((keeps_coreUpd s c _).trans (keeps_callHook _ _ _ _ _))

/-- The CONTROL entry `entry` has been fetched; owner code was initialised before, if it had not been (09 R520). -/
def ctlTaken (s : State) (entry : Bytes) : State :=
  (takeIndex (hookInit s s.unit.active) 0).onHq fun h => { h with
    ctlFetched := some { bytes := fit 128 entry, head := (sqOf (takeIndex (hookInit s s.unit.active) 0) 0).head, fetched := s.time.clk } }

theorem fetchCtl_takes (entry : Bytes) (hcan : canFetch s 0 = true) (hnone : s.hq.ctlFetched = none) (hfuse : s.key.fuse ≠ 3) :
    fetchCtl s entry = ctlTaken s entry := by
  have hinit := keeps_hookInit s s.unit.active
  have htime : (takeIndex (hookInit s s.unit.active) 0).time = s.time := (keeps_takeIndex _ 0 .time (by simp)).trans (hinit .time (by simp))
  rw [fetchCtl, hcan, hnone, bne_iff_ne.mpr hfuse]
  simp only [Option.isNone_none, Bool.and_self, State.when_true, htime, ctlTaken]

theorem keeps_ctlTaken (s : State) (entry : Bytes) : Keeps [.hq, .core] s (ctlTaken s entry) :=
  (((keeps_hookInit s _).mono (by simp)).trans ((keeps_takeIndex _ 0).mono (by simp))).trans ((keeps_onHq _ _).mono (by simp))

theorem sqOf_ctlTaken_self (s : State) (entry : Bytes) : (sqOf (ctlTaken s entry) 0).head = ((sqOf s 0).head + 1) % depthOf (sqOf s 0).depthLog2 := by
  have hhq : (hookInit s s.unit.active).hq = s.hq := keeps_hookInit s _ .hq (by simp)
  show (sqOf (takeIndex (hookInit s s.unit.active) 0) 0).head = _
  rw [sqOf_takeIndex_self, sqOf_congr (congrArg HqSt.sqs hhq), indexTaken]

theorem sqOf_ctlTaken_ne {m : Nat} (entry : Bytes) (h : m ≠ 0) : sqOf (ctlTaken s entry) m = sqOf s m := by
  have hhq : (hookInit s s.unit.active).hq = s.hq := keeps_hookInit s _ .hq (by simp)
  show sqOf (takeIndex (hookInit s s.unit.active) 0) m = _
  rw [sqOf_takeIndex_ne h, sqOf_congr (congrArg HqSt.sqs hhq)]

/-! ### A context of a lane -/

/-- The entry of a key of a table that is written with a value other than the default. -/
theorem assoc_tput_self {α : Type} [DecidableEq α] {d : α} {v : α} (hv : v ≠ d) (k : Nat) : ∀ t : Tbl α, assoc k (tput d t k v) = some v
  | [] => by simp [tput, hv, assoc]
  | (j, w) :: t => by
    unfold tput
    by_cases hlt : k < j
    · simp [hlt, hv, assoc]
    · by_cases heq : k = j
      · simp [heq, hv, assoc]
      · simp [hlt, heq, assoc, Ne.symm heq, assoc_tput_self hv k t]

/-- The request that an entry of ring `r`, number `n`, becomes in a context. -/
def placedReq (r : SqRing) (n : Nat) (h : HeldEntry) (lane ctx : Nat) : Req :=
  { lane := lane, ctx := ctx, sq := n, head := h.head, tag := BitVec.ofNat 16 (leAt h.bytes 0 2), order := h.order, fetched := h.fetched, entry := h.bytes
    isMint := r.kind == 1, m := if r.kind = 1 then mintOf h.bytes else {}, v := if r.kind = 2 then verdictOf h.bytes else {} }

theorem dispatchEntry_lane (s : State) (n : Nat) (h : HeldEntry) (lane ctx : Nat) :
    (dispatchEntry s n h lane ctx).lane.reqs = tput {} (ungate s lane).lane.reqs (reqKey lane ctx) (placedReq (sqOf s n) n h lane ctx) ∧
      (dispatchEntry s n h lane ctx).lane.lanes = if needsPlace (sqOf s n) h.bytes
        then tupd {} (ungate s lane).lane.lanes lane fun x => { x with pqReserved := x.pqReserved + 1 } else (ungate s lane).lane.lanes := by
  have hsq : sqOf (ungate s lane) n = sqOf s n := sqOf_congr (congrArg HqSt.sqs (keeps_ungate s lane .hq (by simp))) n
  rw [← hsq]
  exact ⟨rfl, rfl⟩

theorem getReq_dispatchEntry (h : HeldEntry) (hn : n ≠ 0) :
    getReq (dispatchEntry s n h lane ctx) (reqKey lane ctx) = some (placedReq (sqOf s n) n h lane ctx) := by
  rw [getReq, (dispatchEntry_lane s n h lane ctx).1]
  exact assoc_tput_self (fun q => hn (congrArg Req.sq q)) _ _

/-- An entry that needs a job place reserves one (04 R210). -/
theorem dispatchEntry_reserves {h : HeldEntry} (hwf : twf {} s.lane.lanes = true) (hpq : needsPlace (sqOf s n) h.bytes = true) :
    (tget {} (dispatchEntry s n h lane ctx).lane.lanes lane).pqReserved = (tget {} s.lane.lanes lane).pqReserved + 1 := by
  rw [(dispatchEntry_lane s n h lane ctx).2, if_pos hpq, ungate_lanes, tget_tupd (twf_tupd hwf), tget_tupd hwf]

theorem keeps_dispatchEntry (s : State) (n : Nat) (h : HeldEntry) (lane ctx : Nat) : Keeps [.lane, .pow, .unit] s (dispatchEntry s n h lane ctx) :=
  (keeps_ungate s lane).trans ((keeps_onLane _ _).mono (by simp))

/-! ### MINT and VERDICT entries -/

/-- An entry just fetched from ring `n`. -/
def justFetched (s : State) (n : Nat) (entry : Bytes) : HeldEntry :=
  { bytes := fit 128 entry, head := (sqOf (takeIndex s n) n).head, order := (takeIndex s n).hq.fetches, fetched := s.time.clk }

theorem exec_entryFetch (b : Bytes) (hn : n ≠ 0) : exec (.entryFetch n b lane ctx) s = .next (fetchEntry s n b lane ctx) :=
  congrArg Host.Outcome.next (if_neg hn)

/-- Where an entry can be placed with its job place, a lane of its ring has one. -/
theorem canPlace_pqPlace {pq : Bool} (h : canPlace s n lane ctx pq = true) : (pq && !(ringLanes s n).any (pqPlace s)) = false := by
  simp only [canPlace, Bool.and_eq_true, Bool.or_eq_true, Bool.not_eq_true', List.contains_iff_mem] at h
  obtain ⟨⟨⟨hlane, -⟩, -⟩, hplace⟩ := h
  rcases hplace with hpq | hplace
  · rw [hpq, Bool.false_and]
  · rw [List.any_eq_true.mpr ⟨lane, hlane, hplace⟩, Bool.not_true, Bool.and_false]

section
variable {b : Bytes} (hcan : canFetch s n = true)
include hcan

theorem fetchEntry_places (h : canPlace s n lane ctx (needsPlace (sqOf s n) (fit 128 b)) = true) :
    fetchEntry s n b lane ctx = dispatchEntry (takeIndex s n) n (justFetched s n b) lane ctx := by
  simp only [fetchEntry, (canFetch_spec hcan).2.1, hcan, h, canPlace_pqPlace h, Bool.not_true, Bool.false_eq_true, ↓reduceIte]
  rfl

theorem fetchEntry_holds (hpq : needsPlace (sqOf s n) (fit 128 b) = true) (hfull : ∀ l ∈ ringLanes s n, pqPlace s l = false) :
    fetchEntry s n b lane ctx = onSq (takeIndex s n) n fun r => { r with held := some (justFetched s n b) } := by
  have hnone : (ringLanes s n).any (pqPlace s) = false := List.any_eq_false.mpr fun l hl => by simp [hfull l hl]
  simp only [fetchEntry, (canFetch_spec hcan).2.1, hcan, hpq, hnone, Bool.not_true, Bool.not_false, Bool.and_self, Bool.false_eq_true, ↓reduceIte]
  rfl

/-- An entry placed where it can be occupies the context as a request in its first stage. -/
theorem completes_entryFetch_placed (hn : n ≠ 0) (h : canPlace s n lane ctx (needsPlace (sqOf s n) (fit 128 b)) = true) :
    Completes (.entryFetch n b lane ctx) s [.hq, .lane, .pow, .unit] fun t =>
      getReq t (reqKey lane ctx) = some (placedReq (sqOf (takeIndex s n) n) n (justFetched s n b) lane ctx) ∧
      (twf {} s.lane.lanes = true → needsPlace (sqOf s n) (fit 128 b) = true →
        (tget {} t.lane.lanes lane).pqReserved = (tget {} s.lane.lanes lane).pqReserved + 1) := by
  refine ⟨_, (exec_entryFetch b hn).trans (congrArg _ (fetchEntry_places hcan h)), ⟨getReq_dispatchEntry _ hn, fun hwf hpq => ?_⟩, ?_⟩
  · exact dispatchEntry_reserves (s := takeIndex s n) hwf (by rw [sqOf_takeIndex_self]; exact hpq)
  · exact ((keeps_takeIndex s n).mono (by simp)).trans ((keeps_dispatchEntry _ n _ lane ctx).mono (by simp))

/-- An entry that finds no job place is held, and nothing more is fetched from its ring (04 R211). -/
theorem completes_entryFetch_held (hn : n ≠ 0) (hpq : needsPlace (sqOf s n) (fit 128 b) = true) (hfull : ∀ l ∈ ringLanes s n, pqPlace s l = false) :
    Completes (.entryFetch n b lane ctx) s [.hq] fun t => (∃ h, (sqOf t n).held = some h ∧ h.bytes = fit 128 b) ∧ canFetch t n = false := by
  have hheld : (sqOf (onSq (takeIndex s n) n fun r => { r with held := some (justFetched s n b) }) n).held = some (justFetched s n b) := by
    rw [sqOf_onSq_self fun q => Option.some_ne_none _ (congrArg SqRing.held q)]
  refine ⟨_, (exec_entryFetch b hn).trans (congrArg _ (fetchEntry_holds hcan hpq hfull)), ⟨⟨_, hheld, rfl⟩, canFetch_held hheld⟩, ?_⟩
  exact (keeps_takeIndex s n).trans (keeps_onSq _ n _)

end

/-- The entry that a ring holds goes to a context once it can be placed with its job place. -/
theorem exec_entryFetch_held {h : HeldEntry} (b : Bytes) (hn : n ≠ 0) (hheld : (sqOf s n).held = some h) :
    exec (.entryFetch n b lane ctx) s = .next (if canPlace s n lane ctx true = true then
      dispatchEntry (onSq s n fun r => { r with held := none }) n h lane ctx else s) := by
  rw [exec_entryFetch b hn]
  simp only [fetchEntry, hheld]

/-! ### An entry that cannot be read -/

theorem exec_entryReadFail_held {h : HeldEntry} (hheld : (sqOf s n).held = some h) : exec (.entryReadFail n) s = .next s := by
  show execEntryReadFail n s = _
  rw [execEntryReadFail, canFetch_held hheld, Bool.false_and, State.when_false, done]

/-- The completion of an entry that ring `n` could not read (03 R853). -/
def readFailComp (s : State) (n : Nat) : Comp :=
  { sq := n, head := (sqOf (takeIndex s n) n).head, status := .internalFault, detail := detDmaRead
    verdict := if (sqOf (takeIndex s n) n).kind = 2 then 0x3F else 0 }

/-- The entry of ring `n` is completed as one that could not be read. -/
def readFailed (s : State) (n : Nat) : State := complete (takeIndex s n) n false s.time.clk (readFailComp s n) []

theorem exec_entryReadFail (hcan : canFetch s n = true) (hfree : n ≠ 0 ∨ s.hq.ctlFetched = none) :
    exec (.entryReadFail n) s = .next (ringError (onSq (readFailed s n) n fun r => { r with st := .error })) := by
  have hguard : (canFetch s n && !(n == 0 && s.hq.ctlFetched.isSome)) = true := by
    rw [hcan, Bool.true_and, Bool.not_eq_true']
    rcases hfree with h | h
    · rw [beq_false_of_ne h, Bool.false_and]
    · rw [h, Option.isSome_none, Bool.and_false]
  show execEntryReadFail n s = _
  rw [execEntryReadFail, hguard, State.when_true]
  rfl

theorem completes_entryReadFail (hcan : canFetch s n = true) (hfree : n ≠ 0 ∨ s.hq.ctlFetched = none) :
    Completes (.entryReadFail n) s [.hq, .out, .tele, .unit] fun t => (sqOf t n).st = .error ∧ t.hq.cause.getLsbD 0 = true ∧
      ∃ c, t.out.comps = s.out.comps ++ [c] ∧ c.sq = n ∧ c.status = .internalFault ∧ c.detail = detDmaRead := by
  have hring : ∀ u : State, (ringError u).hq = (cause u 0).hq := fun u => keeps_irqMain (cause u 0) 3 .hq (by simp)
  refine ⟨_, exec_entryReadFail hcan hfree, ⟨?_, ?_, ?_⟩, ?_⟩
  · rw [sqOf_congr ((congrArg HqSt.sqs (hring _)).trans (cause_sqs _ 0)), sqOf_onSq_self (SqRing.ne_default (by simp))]
  · rw [hring]
    exact cause_getLsbD _ (by decide)
  · obtain ⟨cs, _, _, _, hout, hcomp⟩ := complete_out (takeIndex s n) n false s.time.clk (readFailComp s n) []
    have hcq : (cqOf (takeIndex s n) (sqOf (takeIndex s n) n).cq.toNat).st = .running := by
      rw [sqOf_takeIndex_self]
      show (cqOf (takeIndex s n) (sqOf s n).cq.toNat).st = _
      rw [cqOf_takeIndex]
      exact (canFetch_spec hcan).2.2
    obtain ⟨c, rfl, hsq, hst, hdet⟩ := hcomp rfl hcq
    refine ⟨c, ?_, hsq, hst, hdet⟩
    obtain ⟨_, _, hcause⟩ := cause_out (onSq (readFailed s n) n fun r => { r with st := .error }) 0
    show (cause _ 0).out.comps = _
    rw [hcause]
    exact congrArg OutSt.comps hout
  · exact ((keeps_takeIndex s n).mono (by simp)).trans (((keeps_complete _ _ _ _ _ _).mono (by simp)).trans
      (((keeps_onSq _ n _).mono (by simp)).trans (((keeps_cause _ 0).mono (by simp)).trans ((keeps_irqMain _ 3).mono (by simp)))))

end Sys2Proof.Machine
end

section
/-! OBLIGATIONS. The fetch of submission entries. -/

namespace Sys2Proof.Machine

/-- Settles O4: the CONTROL entry taken, the entry placed in a context or held for a job place, the entry or block that cannot be read. -/
theorem entriesAreFetched : Obligations.EntriesAreFetched := by
  refine ⟨fun s b lane ctx hcan hnone hfuse => ?_, fun s n b lane ctx hn hcan hkind hflag hlane hctx hreq => ?_,
    fun s n b lane ctx hn hcan hpq => ⟨fun hplace hwf => ?_, completes_entryFetch_held hcan hn hpq⟩,
    fun s n b lane ctx h hn hheld => ⟨exec_entryFetch_held b hn hheld, exec_entryReadFail_held hheld⟩, fun s n => completes_entryReadFail,
    fun s op e => exec_controlBlockReadFail⟩
  · exact ⟨_, congrArg Host.Outcome.next (fetchCtl_takes b hcan hnone hfuse),
      ⟨⟨_, rfl, rfl, rfl⟩, sqOf_ctlTaken_self s b, fun m hm => sqOf_ctlTaken_ne b hm⟩, keeps_ctlTaken s b⟩
  · have hplace : canPlace s n lane ctx (needsPlace (sqOf s n) (fit 128 b)) = true := by
      have hno : needsPlace (sqOf s n) (fit 128 b) = false := by
        rcases hflag with h | h
        · rw [needsPlace, h, Bool.and_false]
        · rw [needsPlace, h]
          rfl
      have hfree : (assoc (lane * 64 + ctx) s.lane.reqs).isNone = true := Option.isNone_iff_eq_none.mpr hreq
      rw [hno, canPlace, hlane, decide_eq_true hctx, hfree]
      rfl
    obtain ⟨t, hexec, ⟨hgot, -⟩, hkeep⟩ := completes_entryFetch_placed hcan hn hplace
    exact ⟨t, hexec, ⟨_, hgot, rfl, rfl, rfl, rfl, by rw [sqOf_takeIndex_self]; rfl⟩, hkeep⟩
  · obtain ⟨t, hexec, ⟨hgot, hreserved⟩, hkeep⟩ := completes_entryFetch_placed (b := b) hcan hn (by rw [hpq]; exact hplace)
    exact ⟨t, hexec, ⟨⟨_, hgot, rfl⟩, hreserved hwf hpq⟩, hkeep⟩

end Sys2Proof.Machine
end

section
/-! SUPPORT. What the commands of the lane and host queue windows do once their write reaches the window (09 R487). -/

namespace Sys2Proof.Machine

variable {s t : State} {c : CoreId} {l : Nat}

/-! ### Strings in data RAM -/

theorem coreGet_congr (h : t.core = s.core) (c : CoreId) : coreGet t c = coreGet s c := by cases c <;> simp only [coreGet, h]

theorem coreUpd_core_congr (h : t.core = s.core) (c : CoreId) (f : Core → Core) : (coreUpd t c f).core = (coreUpd s c f).core := by
  cases c <;> simp only [coreUpd, State.onCore_core, h]

theorem ramPut_core_congr (h : t.core = s.core) (c : CoreId) (a : Nat) (w : W36) : (ramPut t c a w).core = (ramPut s c a w).core := by
  unfold ramPut
  split
  · exact coreUpd_core_congr h c _
  · exact h

theorem ramPuts_core_congr (c : CoreId) : ∀ (ws : List W36) {s t : State} (a : Nat), t.core = s.core → (ramPuts t c a ws).core = (ramPuts s c a ws).core
  | [], _, _, _, h => h
  | w :: ws, _, _, a, h => ramPuts_core_congr c ws (a + 1) (ramPut_core_congr h c a w)

/-- A string written and a string read depend on the cores alone. -/
theorem writeStr_core_congr (h : t.core = s.core) (c : CoreId) (a : Nat) (b : Bytes) : (writeStr t c a b).core = (writeStr s c a b).core :=
  ramPuts_core_congr c _ a h

theorem readStr_congr (h : t.core = s.core) (c : CoreId) (a n : Nat) : readStr t c a n = readStr s c a n := by
  have hram : ramGet t c = ramGet s c := funext fun i => by rw [ramGet, coreGet_congr h, ramGet]
  unfold readStr
  rw [hram]

/-- Changes that agree on the host queue engine as it stands are the same change. -/
theorem onHq_congr {f g : HqSt → HqSt} (h : f s.hq = g s.hq) : s.onHq f = s.onHq g := by simp only [State.onHq, h]

/-! ### Lanes -/

theorem exec_laneSelftest (hl : l < 16) (h : Reaches s c (laneBase l + 2) true) (htesting : unitSt s l = .testing) :
    exec (.laneSelftest c l) s = .next (onLaneSt s l fun x => { x with testing := true, result := 0 }) := by
  show execLaneSelftest c l s = _
  simp only [execLaneSelftest, done, winCmd_of_reaches h, Nat.mod_eq_of_lt hl, laneTest, hl, htesting, decide_true, beq_self_eq_true, Bool.and_self,
    State.when_true]

theorem exec_laneSelftestDone (pass : Bool) (y : BitVec 32) (hl : l < 16) (h : (tget {} s.lane.lanes l).testing = true) :
    exec (.laneSelftestDone l pass y) s = .next (if pass
      then observe (onLaneSt s l fun x => { x with testing := false, result := 1 }) l .active 0 0x11
      else observe (onLaneSt s l fun x => { x with testing := false, result := 2, fault := y }) l .failed 0 0x01) := by
  show execLaneSelftestDone l pass y s = _
  simp only [execLaneSelftestDone, done, hl, h, decide_true, Bool.and_self, State.when_true]
  cases pass <;> rfl

theorem exec_lanePurge (hl : l < 16) (h : Reaches s c (laneBase l + 4) true) :
    exec (.lanePurge c l) s = .next (onLaneSt s l fun x => { x with cache := [] }) := by
  show execLanePurge c l s = _
  rw [execLanePurge, winCmd_of_reaches h, Nat.mod_eq_of_lt hl]
  rfl

/-- An idle ACTIVE lane is gated; where that leaves every ACTIVE lane gated, an ACTIVE device dozes (15 R803). -/
theorem exec_laneClockGate (hl : l < 16) (hact : unitActive s l = true) (hup : s.pow.mainUp = true) (hnap : s.pow.state ≠ .nap) (hidle : laneBusy s l = 0) :
    exec (.laneClockGate l) s = .next ((onLaneSt s l fun x => { x with gated := true }).when
      (allGated (onLaneSt s l fun x => { x with gated := true }) && s.pow.state == .active) fun s => irqAll (s.onPow fun p => { p with state := .doze }) 20) := by
  show execLaneClockGate l s = _
  simp only [execLaneClockGate, done, hl, hact, hup, bne_iff_ne.mpr hnap, hidle, decide_true, Bool.and_self, State.when_true]
  rfl

theorem completes_laneClockGate_dozes (hl : l < 16) (hact : unitActive s l = true) (hup : s.pow.mainUp = true) (hstate : s.pow.state = .active)
    (hidle : laneBusy s l = 0) (hall : allGated (onLaneSt s l fun x => { x with gated := true }) = true) :
    Completes (.laneClockGate l) s [.lane, .pow, .unit] fun t => t.pow.state = .doze ∧ (tget {} t.lane.lanes l).gated = true := by
  have hexec := exec_laneClockGate hl hact hup (by rw [hstate]; decide) hidle
  rw [hall, hstate, beq_self_eq_true, Bool.and_self, State.when_true] at hexec
  refine ⟨_, hexec, ⟨rfl, ?_⟩, ?_⟩
  · show (tget {} (tupd {} s.lane.lanes l fun x => { x with gated := true }) l).gated = true
    rw [tget_tupd_self fun q => absurd (congrArg LaneSt.gated q) (by simp)]
  · exact ((keeps_onLane s _).mono (by simp)).trans (((keeps_onPow _ _).mono (by simp)).trans ((keeps_irqAll _ 20).mono (by simp)))

/-! ### CONTROL entries through the window -/

theorem ctlTaken_core (s : State) (b : Bytes) : (ctlTaken s b).core = (hookInit s s.unit.active).core := rfl

theorem ctlFetch_takes (b : Bytes) (hcan : canFetch s 0 = true) (hnone : s.hq.ctlFetched = none) (hfuse : s.key.fuse ≠ 3) :
    ctlFetch s c b = writeStr (ctlTaken s b) c s.hq.ctlAddr.toNat (fit 128 b) := by
  have hhq : (hookInit s s.unit.active).hq = s.hq := keeps_hookInit s _ .hq (by simp)
  have haddr : (ctlTaken s b).hq.ctlAddr = s.hq.ctlAddr := by
    show (hookInit s s.unit.active).hq.ctlAddr = _
    rw [hhq]
  have hnew : (ctlTaken s b).hq.ctlFetched ≠ s.hq.ctlFetched := by
    rw [hnone]
    exact Option.some_ne_none _
  simp only [ctlFetch, fetchCtl_takes b hcan hnone hfuse, hnew, haddr, ↓reduceIte]

theorem completes_hqCtlFetch (b : Bytes) (h : Reaches s c 0x9802 true) (hcan : canFetch s 0 = true) (hnone : s.hq.ctlFetched = none) (hfuse : s.key.fuse ≠ 3) :
    Completes (.hqCtlFetch c b) s [.hq, .core] fun t => (∃ e, t.hq.ctlFetched = some e ∧ e.bytes = fit 128 b) ∧
      t.core = (writeStr (hookInit s s.unit.active) c s.hq.ctlAddr.toNat (fit 128 b)).core := by
  have hexec : exec (.hqCtlFetch c b) s = .next (writeStr (ctlTaken s b) c s.hq.ctlAddr.toNat (fit 128 b)) := by
    show execHqCtlFetch c b s = _
    rw [execHqCtlFetch, winCmd_of_reaches h, ctlFetch_takes b hcan hnone hfuse, done]
  have hwrite := keeps_writeStr (ctlTaken s b) c s.hq.ctlAddr.toNat (fit 128 b)
  refine ⟨_, hexec, ⟨⟨_, congrArg HqSt.ctlFetched (hwrite .hq (by simp)), rfl⟩, writeStr_core_congr (ctlTaken_core s b) c _ _⟩, ?_⟩
  exact (keeps_ctlTaken s b).trans (hwrite.mono (by simp))

/-- The completion that the 32 bytes at HQ_COMP_ADDR make (03 R147). -/
def windowComp (b : Bytes) : Comp :=
  { tag := BitVec.ofNat 16 (leAt b 0 2), head := leAt b 2 2, status := statusOf (leAt b 5 1), verdict := BitVec.ofNat 8 (leAt b 6 1)
    info := BitVec.ofNat 8 (leAt b 7 1), serial := BitVec.ofNat 64 (leAt b 8 8), detail := BitVec.ofNat 16 (leAt b 16 2)
    decider := BitVec.ofNat 16 (leAt b 18 2), length := BitVec.ofNat 32 (leAt b 24 4) }

theorem exec_hqCtlComplete {e : CtlEntry} {b : Bytes} (h : Reaches s c 0x9804 true) (hfetched : s.hq.ctlFetched = some e)
    (hread : readStr s c s.hq.compAddr.toNat 32 = some b) (hvia : s.hq.ctlWait.viaLed = false) :
    exec (.hqCtlComplete c) s = .next (hookAfter (complete (s.onHq fun h => { h with ctlFetched := none, ctlHeld := false, ctlWait := {} }) 0 e.dropped
      e.fetched (windowComp b) []) (leAt e.bytes 2 1) (statusOf (leAt b 5 1))) := by
  have hfree : (s.onHq fun h => { h with ctlFetched := none, ctlHeld := false, ctlWait := if h.ctlWait.viaLed then h.ctlWait else {} })
      = s.onHq fun h => { h with ctlFetched := none, ctlHeld := false, ctlWait := {} } := onHq_congr (by simp only [hvia, Bool.false_eq_true, ↓reduceIte])
  show execHqCtlComplete c s = _
  simp only [execHqCtlComplete, done, winCmd_of_reaches h, ctlComplete, hfetched, hread, hfree, State.when_true]
  rfl

/-! ### DMA -/

/-- A DMA of the control core runs, its length within bounds. -/
def dmaRuns (s : State) (toHost : Bool) : State := s.onHq fun h => { h with dmaBusy := true, dmaDone := false, dmaError := false, dmaToHost := toHost }

theorem dmaRuns_core (s : State) (toHost : Bool) : (dmaRuns s toHost).core = s.core := rfl

theorem dmaStart_within (toHost : Bool) (h : s.hq.dmaLen.toNat ≤ 8192) : dmaStart s toHost = dmaRuns s toHost :=
  onHq_congr (by simp only [gt_iff_lt, Nat.not_lt.mpr h, decide_false])

theorem dmaIn_within (b : Bytes) (hfree : s.hq.dmaBusy = false) (h : s.hq.dmaLen.toNat ≤ 8192) :
    dmaIn s c b = writeStr (dmaRuns s false) c s.hq.dmaLocal.toNat (fit s.hq.dmaLen.toNat b) := by
  rw [dmaIn, hfree, dmaStart_within false h]
  rfl

theorem dmaOut_within {b : Bytes} (hfree : s.hq.dmaBusy = false) (h : s.hq.dmaLen.toNat ≤ 8192)
    (hread : readStr s c s.hq.dmaLocal.toNat s.hq.dmaLen.toNat = some b) :
    dmaOut s c = (dmaRuns s true).onOut fun o => { o with writes := o.writes ++ [{ addr := s.hq.dmaHost.toNat, bytes := b }] } := by
  have hread' : readStr (dmaRuns s true) c (dmaRuns s true).hq.dmaLocal.toNat (dmaRuns s true).hq.dmaLen.toNat = some b := hread
  have herror : (dmaRuns s true).hq.dmaError = false := rfl
  simp only [dmaOut, hfree, dmaStart_within true h, herror, hread', Bool.false_eq_true, ↓reduceIte]
  rfl

theorem completes_hqDmaHostToLocal (b : Bytes) (h : Reaches s c 0x9809 true) (hfree : s.hq.dmaBusy = false) (hlen : s.hq.dmaLen.toNat ≤ 8192) :
    Completes (.hqDmaHostToLocal c b) s [.hq, .core] fun t => t.hq.dmaBusy = true ∧ t.hq.dmaError = false ∧
      t.core = (writeStr s c s.hq.dmaLocal.toNat (fit s.hq.dmaLen.toNat b)).core := by
  have hexec : exec (.hqDmaHostToLocal c b) s = .next (writeStr (dmaRuns s false) c s.hq.dmaLocal.toNat (fit s.hq.dmaLen.toNat b)) := by
    show execHqDmaHostToLocal c b s = _
    rw [execHqDmaHostToLocal, winCmd_of_reaches h, dmaIn_within b hfree hlen, done]
  have hwrite := keeps_writeStr (dmaRuns s false) c s.hq.dmaLocal.toNat (fit s.hq.dmaLen.toNat b)
  have hhq := hwrite .hq (by simp)
  refine ⟨_, hexec, ⟨congrArg HqSt.dmaBusy hhq, congrArg HqSt.dmaError hhq, writeStr_core_congr (dmaRuns_core s false) c _ _⟩, ?_⟩
  exact ((keeps_onHq s _).mono (by simp)).trans (hwrite.mono (by simp))

theorem completes_hqDmaLocalToHost {b : Bytes} (h : Reaches s c 0x9809 true) (hfree : s.hq.dmaBusy = false) (hlen : s.hq.dmaLen.toNat ≤ 8192)
    (hread : readStr s c s.hq.dmaLocal.toNat s.hq.dmaLen.toNat = some b) :
    Completes (.hqDmaLocalToHost c) s [.hq, .out] fun t => t.hq.dmaBusy = true ∧ t.hq.dmaError = false ∧
      t.out.writes = s.out.writes ++ [{ addr := s.hq.dmaHost.toNat, bytes := b }] := by
  have hexec : exec (.hqDmaLocalToHost c) s = .next (dmaOut s c) := by
    show execHqDmaLocalToHost c s = _
    rw [execHqDmaLocalToHost, winCmd_of_reaches h, done]
  refine ⟨_, hexec.trans (congrArg _ (dmaOut_within hfree hlen hread)), ⟨rfl, rfl, rfl⟩, ?_⟩
  exact ((keeps_onHq s _).mono (by simp)).trans ((keeps_onOut _ _).mono (by simp))

theorem exec_hqDmaDone (hbusy : s.hq.dmaBusy = true) (herror : s.hq.dmaError = false) :
    exec (.hqDmaDone true) s = .next (s.onHq fun h => { h with dmaBusy := false, dmaDone := true, dmaError := false }) := by
  show execHqDmaDone true s = _
  rw [execHqDmaDone, hbusy, State.when_true, done]
  exact congrArg _ (onHq_congr (by rw [herror]; rfl))

/-! ### Plane and rings -/

theorem exec_hqPlanePause (h : Reaches s c 0x9810 true) (hopen : planeOpen s = true) : exec (.hqPlanePause c) s = .next (pausePlane s) := by
  show execHqPlanePause c s = _
  rw [execHqPlanePause, winCmd_of_reaches h, planePause, hopen, State.when_true, done]

theorem exec_hqBind {v : BitVec 32} (h : Reaches s c 0x9811 true) (hn : (v.extractLsb' 0 5).toNat ≠ 0) :
    exec (.hqBind c v) s = .next (bindRing s (v.extractLsb' 0 5).toNat (v.extractLsb' 16 16)) := by
  show execHqBind c v s = _
  rw [execHqBind, winCmd_of_reaches h, hqBind, decide_eq_true hn, State.when_true, done]

end Sys2Proof.Machine
end

section
/-! OBLIGATIONS. The lane and host queue windows. -/

namespace Sys2Proof.Machine

/-- Settles O11, window by window: the lanes' self-test, purge and gating; the host queue's CONTROL entries, DMA, plane and rings. -/
theorem laneAndHostQueueWindowsAct : Obligations.LaneAndHostQueueWindowsAct := by
  refine ⟨fun s c l => exec_laneSelftest, fun s l y hl htest => ⟨exec_laneSelftestDone true y hl htest, exec_laneSelftestDone false y hl htest⟩,
    fun s c l => exec_lanePurge, fun s l hl hact hup hstate hidle => ?_, fun s l => completes_laneClockGate_dozes, fun s c b => completes_hqCtlFetch b,
    fun s c e b hreach hfetched hread hvia => ⟨_, _, exec_hqCtlComplete hreach hfetched hread hvia, rfl, rfl⟩,
    fun s c b => completes_hqDmaHostToLocal b, fun s c b => completes_hqDmaLocalToHost, fun s => exec_hqDmaDone, fun s c => exec_hqPlanePause,
    fun s c v => exec_hqBind⟩
  rw [exec_laneClockGate hl hact hup (by rw [hstate]; decide) hidle, hstate, show (PowerState.doze == .active) = false from rfl, Bool.and_false, State.when_false]

end Sys2Proof.Machine
end

section
/-! SUPPORT. What the end of a request, the sending of a frame and the journal's groups leave unchanged. -/

namespace Sys2Proof.Machine

variable {s : State}

/-! ### Requests -/

theorem getReq_putReq {r : Req} (hr : r ≠ {}) : getReq (putReq s r) (keyOf r) = some r := assoc_tput_self hr _ _

/-- A request out of its first stage is not the default one. -/
theorem Req.ne_default {r : Req} (h : r.stage ≠ .intake) : r ≠ {} := by rintro rfl; exact h rfl

theorem keeps_putReq (s : State) (r : Req) : Keeps [.lane] s (putReq s r) := keeps_onLane s _

theorem inStage_of_stands {l c : Nat} {st : Stage} {r : Req} (h : Stands s l c st r) (f : Req → State) : inStage s l c st f = f r := by
  obtain ⟨hreq, hst⟩ := h
  simp only [inStage, hreq, hst, ↓reduceIte]

theorem keeps_startFwd (s : State) (f : FwdFrame) (lane ctx since : Nat) : Keeps [.lane, .pow, .unit] s (startFwd s f lane ctx since) :=
  (keeps_ungate s lane).trans ((keeps_putReq _ _).mono (by simp))

theorem keeps_freeReq (s : State) (r : Req) : Keeps [.lane, .pow, .unit] s (freeReq s r) := by
  unfold freeReq
  extract_lets u
  have hu : Keeps [.lane, .pow, .unit] s u := (keeps_onLane s _).mono (by simp)
  split
  · split
    · exact (hu.trans ((keeps_onLane u _).mono (by simp))).trans (keeps_startFwd _ _ _ _ _)
    · exact hu
  · exact hu

theorem keeps_endMint (s : State) (r : Req) (st : Status) (detail : BitVec 16) (length : Nat) (outs : List HostWrite) :
    Keeps [.hq, .lane, .out, .pow, .tele, .unit] s (endMint s r st detail length outs) :=
  ((keeps_complete s _ _ _ _ _).mono (by simp)).trans ((keeps_freeReq _ r).mono (by simp))

/-- The output bytes of a mint are written whatever becomes of its completion (04 R173). -/
theorem endMint_writes (s : State) (r : Req) (st : Status) (detail : BitVec 16) (length : Nat) (outs : List HostWrite) :
    (endMint s r st detail length outs).out.writes = s.out.writes ++ outs := by
  have hout : (endMint s r st detail length outs).out = (complete s r.sq r.dropped r.fetched
      { compOf r st detail with serial := serialField r, decider := decider s r.lane, length := BitVec.ofNat 32 length } outs).out :=
    keeps_freeReq _ r .out (by simp)
  rw [hout, complete_writes]

/-! ### Frames -/

theorem keeps_routeFrame (s : State) (arrived : Option Nat) (n : Nat) (f : Frame) : Keeps [.fab, .out] s (routeFrame s arrived n f) := by
  have hdiscard : Keeps [.fab, .out] s (discardFrame s) := (keeps_onFab s _).mono (by simp)
  induction n generalizing f with
  | zero => exact hdiscard
  | succ n ih =>
    unfold routeFrame
    split
    · exact .refl _ s
    · split
      · exact keeps_sendOn s _ _
      · split
        · exact keeps_sendOn s _ _
        · split
          · split
            · exact hdiscard
            · exact ih _
          · exact hdiscard

theorem keeps_sendTo (s : State) (dest : Nat) (body : FrameBody) (relayed : Bool) : Keeps [.fab, .out] s (sendTo s dest body relayed) :=
  keeps_routeFrame s _ _ _

/-! ### Entries and groups -/

/-- The own ledger and the next serial stand as they did. -/
def SameSerials (s t : State) : Prop := t.led.own = s.led.own ∧ t.led.next = s.led.next

theorem SameSerials.trans {s t u : State} (h : SameSerials s t) (k : SameSerials t u) : SameSerials s u := ⟨k.1.trans h.1, k.2.trans h.2⟩

theorem SameSerials.of_led {s t : State} (h : t.led = s.led) : SameSerials s t := ⟨by rw [h], by rw [h]⟩

theorem keeps_sealBlock (s : State) (g : Group) : Keeps [.led, .out, .tele] s (sealBlock s g) :=
  ((keeps_onOut s _).mono (by simp)).trans (((keeps_onLed _ _).mono (by simp)).trans ((keeps_count _ _ _).mono (by simp)))

/-- What closing a group does: nothing, or its records leave the open group, its block is sealed, and the twin is told while it is a member. -/
theorem closeGroup_frame (s : State) (own : Bool) : Keeps [.fab, .led, .out, .tele] s (closeGroup s own) ∧ SameSerials s (closeGroup s own) := by
  unfold closeGroup
  extract_lets recs home seq g u v
  have hu : Keeps [.fab, .led, .out, .tele] s u := (keeps_onLed s _).mono (by simp)
  have hserials : SameSerials s u := by
    show SameSerials s (s.onLed _)
    cases own <;> exact ⟨rfl, rfl⟩
  have hv : Keeps [.fab, .led, .out, .tele] s v := hu.trans ((keeps_sealBlock u g).mono (by simp))
  have hserials' : SameSerials s v := hserials.trans ⟨rfl, rfl⟩
  split
  · exact ⟨.refl _ s, rfl, rfl⟩
  · have hsend : Keeps [.fab, .out] v (v.when (mirrors v) fun s => sendTo s (twinAddr s) (.mirrorGroup s.led.epoch seq (firstT recs) recs)) :=
      .when _ _ (keeps_sendTo _ _ _ _)
    exact ⟨hv.trans (hsend.mono (by simp)), hserials'.trans (.of_led (hsend .led (by simp)))⟩

theorem joinGroup_frame (s : State) (own : Bool) (rs : List JRec) :
    Keeps [.fab, .led, .out, .tele] s (joinGroup s own rs).1 ∧ SameSerials s (joinGroup s own rs).1 := by
  unfold joinGroup
  extract_lets u seq v
  have hu : Keeps [.fab, .led, .out, .tele] s u ∧ SameSerials s u := by
    show Keeps _ s (ite _ _ _) ∧ SameSerials s (ite _ _ _)
    split
    · exact closeGroup_frame s own
    · exact ⟨.refl _ s, rfl, rfl⟩
  have hv : Keeps [.fab, .led, .out, .tele] s v ∧ SameSerials s v := by
    refine ⟨hu.1.trans ((keeps_onLed u _).mono (by simp)), hu.2.trans ?_⟩
    show SameSerials u (u.onLed _)
    cases own <;> exact ⟨rfl, rfl⟩
  split
  · exact ⟨hv.1.trans (closeGroup_frame v own).1, hv.2.trans (closeGroup_frame v own).2⟩
  · exact hv

theorem keeps_setEntry (s : State) (own : Bool) (x : Nat) (e : LState) : Keeps [.led] s (setEntry s own x e) := (keeps_onLed s _).trans (keeps_onLed _ _)

end Sys2Proof.Machine
end

section
/-! SUPPORT. What a mint does at LEDGER, when SEAL ends and when its outputs are written (04 R193-R217). -/

namespace Sys2Proof.Machine

variable {s : State} {r : Req} {l c n : Nat}

/-! ### LEDGER -/

theorem exec_mintLedgerAssign (h : Stands s l c .ledger r) (hmint : r.isMint = true) : exec (.mintLedgerAssign l c) s = .next (mintAtLedger s r) := by
  show execMintLedgerAssign l c s = _
  rw [execMintLedgerAssign, inStage_of_stands h, if_pos hmint, done]

theorem mintAtLedger_notHere (h : s.fab.ownAuth = false) : mintAtLedger s r = putReq s { r with stage := .ledger } := by
  simp only [mintAtLedger, h, Bool.not_false, Bool.or_true, ↓reduceIte]

section
variable (happly : mayApply s = true) (hown : s.fab.ownAuth = true)
include happly hown

theorem mintAtLedger_assigns (hlease : s.led.lease = some n) (hlow : n * 65536 ≤ s.led.next) (hhigh : s.led.next < (n + 1) * 65536)
    (hfirst : s.lane.leaseWait = []) (hpage : beingRebuilt s (slotFor true s.led.next) = false) : mintAtLedger s r = assignSerial s r := by
  simp only [mintAtLedger, happly, hown, hlease, hlow, hhigh, hfirst, hpage, Bool.not_true, Bool.or_self, decide_true, Bool.and_self, List.isEmpty_nil,
    Bool.false_eq_true, ↓reduceIte]

theorem mintAtLedger_behindOpening (hlease : s.led.lease = none) (hopening : s.led.opening.isSome = true) :
    mintAtLedger s r = (putReq s { r with stage := .leaseWait }).onLane fun b => { b with leaseWait := b.leaseWait ++ [keyOf r] } := by
  have hnone : ((putReq s { r with stage := .leaseWait }).onLane fun b => { b with leaseWait := b.leaseWait ++ [keyOf r] }).led.opening.isNone = false := by
    show s.led.opening.isNone = false
    rw [Option.isNone_eq_false_iff]
    exact hopening
  simp only [mintAtLedger, happly, hown, hlease, Bool.not_true, Bool.or_self, Bool.false_and, Bool.false_eq_true, ↓reduceIte]
  exact if_neg (by rw [hnone]; exact Bool.false_ne_true)

end

/-- The mint has its serial, and the entry is LIVE. -/
def serialTaken (s : State) : State := setEntry (s.onLed fun l => { l with next := l.next + 1 }) true s.led.next .live

/-- The group that the assignment of a serial to `r` joins, and the state with it. -/
def mintJoined (s : State) (r : Req) : State × Nat :=
  joinGroup (serialTaken s) true [{ kind := .mint, lane := r.lane, serial := s.led.next, t := r.m.issueUs }]

/-- The mint with its serial, waiting for its group. -/
def serialled (s : State) (r : Req) : Req :=
  { r with
    serial := BitVec.ofNat 56 (serialOf s.led.epoch (nodeAddr s) s.led.next), hasSerial := true, stage := .durable, group := (mintJoined s r).2
    groupHome := nodeAddr s, applied := true }

theorem assignSerial_unissued (h : entry s true s.led.next = .unissued) : assignSerial s r = putReq (mintJoined s r).1 (serialled s r) := by
  have hentry : entry (s.onLed fun l => { l with next := l.next + 1 }) true s.led.next = .unissued := h
  simp only [assignSerial, hentry, ne_eq, not_true_eq_false, ↓reduceIte]
  rfl

theorem rawEntry_serialTaken (s : State) : rawEntry (serialTaken s) true s.led.next = .live := tget_tput_self (by decide) _ _

/-- A mint that takes its serial: the counter advances, the entry is LIVE, the mint waits for its group (04 R167, R193). -/
theorem assignSerial_takes (s : State) (r : Req) :
    let t := putReq (mintJoined s r).1 (serialled s r)
    (t.led.next = s.led.next + 1 ∧ rawEntry t true s.led.next = .live ∧ getReq t (keyOf r) = some (serialled s r)) ∧
      Keeps [.lane, .led, .fab, .out, .tele] s t := by
  obtain ⟨hjoin, hown, hnext⟩ := joinGroup_frame (serialTaken s) true [{ kind := .mint, lane := r.lane, serial := s.led.next, t := r.m.issueUs }]
  have hkeep : Keeps [.led] s (serialTaken s) := (keeps_onLed s _).trans (keeps_setEntry _ true s.led.next .live)
  refine ⟨⟨hnext, ?_, getReq_putReq (Req.ne_default (r := serialled s r) (by simp [serialled]))⟩, ?_⟩
  · rw [← rawEntry_serialTaken s]
    exact congrArg (tget .unissued · s.led.next) hown
  · exact ((hkeep.mono (by simp)).trans (hjoin.mono (by simp))).trans ((keeps_putReq _ _).mono (by simp))

/-! ### Leases -/

theorem endLeaseWaiters_led (s : State) (st : Status) : (endLeaseWaiters s st).led = { s.led with opening := none } := by
  unfold endLeaseWaiters
  extract_lets ks u
  refine foldl_same (·.led) (fun t k => ?_) ks _
  cases getReq t k with
  | none => rfl
  | some r => exact keeps_endMint t r st 0 0 [] .led (by simp)

/-- The lease whose opening was given up is opened next, unless a higher ceiling is known (04 R196). -/
theorem nextLease_reopen (hreopen : s.led.reopen = some n) (hceil : s.led.ceil ≤ (n + 1) * 65536) (htwin : s.led.ceilAtTwin ≤ (n + 1) * 65536) :
    nextLease s = n := by
  simp only [nextLease, hreopen, max_le hceil htwin, ↓reduceIte]

theorem exec_leaseOpenTimeout {o : LeaseSt} (h : s.led.opening = some o) :
    exec .leaseOpenTimeout s = .next (endLeaseWaiters (s.onLed fun l => { l with reopen := some o.n })
      (if 2 ^ 26 < pagesOf ((o.n + 1) * 65536) + pagesOf (max s.led.twinCeil s.led.twinAsked) ∧ o.acked = false ∧ mirrors s = true
        then .serialsExhausted else .durabilityTimeout)) := by
  show execLeaseOpenTimeout s = _
  simp only [execLeaseOpenTimeout, done, h, Bool.and_eq_true, decide_eq_true_eq, Bool.not_eq_true', gt_iff_lt, and_assoc]

/-! ### SEAL and EMIT -/

/-- The parts of a mint that has just been sealed. -/
theorem mintParts_sealed (r : Req) :
    mintParts (sealedMint r) = [credential r] ++ (if mForeign r.m then [foreignResult r] else []) ++ (if mNfc r.m then [nfcRecord r] else []) ++
      (if mPq r.m then [cosignRecord (sealedMint r)] else []) := by
  have hforeign : (if mForeign r.m then [(sealedMint r).foreignOut] else []) = if mForeign r.m then [foreignResult r] else [] :=
    ite_congr rfl (fun h => congrArg ([·]) (if_pos h)) fun _ => rfl
  have hnfc : (if mNfc r.m then [(sealedMint r).nfcOut] else []) = if mNfc r.m then [nfcRecord r] else [] :=
    ite_congr rfl (fun h => congrArg ([·]) (if_pos h)) fun _ => rfl
  rw [← hforeign, ← hnfc]
  rfl

theorem emitMint_writes (s : State) (r : Req) : (emitMint s r).out.writes = s.out.writes ++ placeParts r.m.outAddr.toNat (mintParts r.m) :=
  endMint_writes s r _ _ _ _

theorem exec_mintSealDone (h : Stands s l c .seal r) : exec (.mintSealDone l c) s = .next (mintSeal s r) := by
  show execMintSealDone l c s = _
  rw [execMintSealDone, inStage_of_stands h, done]

theorem mintSeal_emits (hpq : mPq r.m = false) :
    mintSeal s r = emitMint (count s (0x4680 + 8 * r.lane) (mintBusy r.m)) { r with m := sealedMint r } := by
  simp only [mintSeal, hpq, Bool.false_eq_true, ↓reduceIte]

/-- A mint with no co-signature writes its parts from the buffer's address on. -/
theorem mintSeal_writes (hpq : mPq r.m = false) :
    (mintSeal s r).out.writes = s.out.writes ++ placeParts r.m.outAddr.toNat
      ([credential r] ++ (if mForeign r.m then [foreignResult r] else []) ++ (if mNfc r.m then [nfcRecord r] else [])) := by
  rw [mintSeal_emits hpq, emitMint_writes]
  show s.out.writes ++ placeParts r.m.outAddr.toNat (mintParts (sealedMint r)) = _
  rw [mintParts_sealed, hpq, if_neg Bool.false_ne_true, List.append_nil]

/-- A mint with a co-signature joins the ML-DSA queue (04 R212). -/
theorem completes_mintSealDone_queued (h : Stands s l c .seal r) (hpq : mPq r.m = true) (hunit : unitActive s 0x3A = true) :
    Completes (.mintSealDone l c) s [.lane, .tele] fun t => t.lane.pqQueue = s.lane.pqQueue ++ [(r.lane, r.ctx)] ∧
      getReq t (keyOf r) = some { r with m := sealedMint r, stage := .mldsa } := by
  have hunit' : unitActive (count s (0x4680 + 8 * r.lane) (mintBusy r.m)) 0x3A = true := hunit
  have hseal : mintSeal s r = (putReq (count s (0x4680 + 8 * r.lane) (mintBusy r.m)) { r with m := sealedMint r, stage := .mldsa }).onLane
      fun b => { b with pqQueue := b.pqQueue ++ [(r.lane, r.ctx)] } := by
    simp only [mintSeal, hpq, hunit', ↓reduceIte]
  refine ⟨_, (exec_mintSealDone h).trans (congrArg _ hseal), ⟨rfl, ?_⟩, ?_⟩
  · exact getReq_putReq (s := count s _ _) (Req.ne_default (r := { r with m := sealedMint r, stage := .mldsa }) (by simp))
  · exact (((keeps_count s _ _).mono (by simp)).trans ((keeps_putReq _ _).mono (by simp))).trans ((keeps_onLane _ _).mono (by simp))

theorem exec_mldsaJobDone {rest : List (Nat × Nat)} (hqueue : s.lane.pqQueue = (l, c) :: rest) (hreq : getReq s (reqKey l c) = some r) :
    exec .mldsaJobDone s = .next (emitMint s r) := by
  show execMldsaJobDone s = _
  simp only [execMldsaJobDone, hqueue, hreq, done]

theorem exec_mintOutputWriteFail_seal (h : Stands s l c .seal r) (hpq : mPq r.m = false) :
    exec (.mintOutputWriteFail l c) s = .next (endMint (count s (0x4680 + 8 * r.lane) (mintBusy r.m)) r .internalFault detDmaWrite 0
      (partly { r with m := sealedMint r })) := by
  obtain ⟨hreq, hst⟩ := h
  show execMintOutputWriteFail l c s = _
  simp only [execMintOutputWriteFail, done, hreq, hst, hpq, Bool.not_false, and_self, ↓reduceIte]

theorem exec_mintOutputWriteFail_mldsa (h : Stands s l c .mldsa r) (hhead : s.lane.pqQueue.head? = some (l, c)) :
    exec (.mintOutputWriteFail l c) s = .next (endMint s r .internalFault detDmaWrite 0 (partly r)) := by
  obtain ⟨hreq, hst⟩ := h
  show execMintOutputWriteFail l c s = _
  simp only [execMintOutputWriteFail, done, hreq, hst, hhead, and_self, ↓reduceIte, reduceCtorEq, false_and]

end Sys2Proof.Machine
end

section
/-! OBLIGATIONS. Mints from LEDGER to their outputs. -/

namespace Sys2Proof.Machine

/-- Settles O26, stage by stage: the serial and the lease at LEDGER, the end of SEAL, the co-signature's end, a failed output write. -/
theorem mintsAreAssignedSealedAndEmitted : Obligations.MintsAreAssignedSealedAndEmitted := by
  refine ⟨fun s l c r hstands hmint hauth => ?_, fun s l c n r hstands hmint happly hown hlease hlow hhigh hfirst hpage hentry => ?_,
    fun s l c r hstands hmint happly hown hlease hopening => ?_, fun s o hopening => ?_,
    fun s l c r hstands hpq => ⟨_, exec_mintSealDone hstands, mintSeal_writes hpq⟩, fun s l c r hstands hpq hunit => ?_,
    fun s l c r rest hqueue hreq hpq => ⟨_, exec_mldsaJobDone hqueue hreq, ?_⟩, fun s l c r => exec_mintOutputWriteFail_seal,
    fun s l c r => exec_mintOutputWriteFail_mldsa⟩
  · simp only [Bool.and_eq_true, decide_eq_true_eq] at hauth
    rw [exec_mintLedgerAssign hstands hmint, mintAtLedger_notHere hauth.2]
  · have hexec : exec (.mintLedgerAssign l c) s = .next (putReq (mintJoined s r).1 (serialled s r)) := by
      rw [exec_mintLedgerAssign hstands hmint, mintAtLedger_assigns happly hown hlease hlow hhigh hfirst hpage, assignSerial_unissued hentry]
    obtain ⟨⟨hnext, hlive, hgot⟩, hkeep⟩ := assignSerial_takes s r
    exact ⟨_, hexec, ⟨hnext, hlive, _, hgot, rfl, rfl, rfl, rfl⟩, hkeep⟩
  · have hexec := exec_mintLedgerAssign hstands hmint
    rw [mintAtLedger_behindOpening happly hown hlease hopening] at hexec
    refine ⟨_, hexec, ⟨rfl, getReq_putReq (s := s) (Req.ne_default (r := { r with stage := .leaseWait }) (by simp))⟩, ?_⟩
    exact (keeps_putReq s _).trans (keeps_onLane _ _)
  · have hled := endLeaseWaiters_led (s.onLed fun l => { l with reopen := some o.n })
    refine ⟨_, exec_leaseOpenTimeout hopening, rfl, by rw [hled], fun hceil htwin => ?_⟩
    exact nextLease_reopen (by rw [hled]; rfl) (by rw [hled]; exact hceil) (by rw [hled]; exact htwin)
  · obtain ⟨t, hexec, ⟨hqueue, hgot⟩, hkeep⟩ := completes_mintSealDone_queued hstands hpq hunit
    exact ⟨t, hexec, ⟨hqueue, _, hgot, rfl, rfl, rfl, rfl⟩, hkeep⟩
  · rw [emitMint_writes, mintParts, if_pos hpq]

end Sys2Proof.Machine
end

section
/-! SUPPORT. What a mint does from INTAKE to the draw of its random bytes (04 R172-R185). -/

namespace Sys2Proof.Machine

variable {s : State} {r : Req} {l c n : Nat} {e : EventRec} {k : ClassRec}

/-- A check that refuses only where `a` holds refuses nothing where `a` brings what it asks for. -/
theorem and_not_eq_false {a b : Bool} (h : a = true → b = true) : (a && !b) = false :=
  Bool.and_eq_false_imp.mpr fun ha => by rw [h ha, Bool.not_true]

/-! ### INTAKE -/

theorem exec_mintIntake (h : Stands s l c .intake r) (hmint : r.isMint = true) : exec (.mintIntake l c) s = .next (mintIntake s r) := by
  show execMintIntake l c s = _
  rw [execMintIntake, inStage_of_stands h, if_pos hmint, done]

theorem mintIntake_notHere (h : s.fab.ownAuth = false) : mintIntake s r = endMint s r .paused := by
  simp only [mintIntake, h, Bool.not_false, Bool.or_true, ↓reduceIte]

/-- Check 13, the last of INTAKE, of a mint whose wrapper holds `payload` payload bytes. -/
def lengthChecked (s : State) (r : Req) (e : EventRec) (k : ClassRec) (payload : Nat) (w : Option Bytes) : State :=
  if r.m.outLen.toNat < lengthNeeded s r.m e k payload then endMint s r .badLength (detSub 48)
  else putReq s { r with stage := .clock, seen := none, m := { r.m with lenNeeded := lengthNeeded s r.m e k payload, wrapper := w } }

theorem lengthChecked_fits {payload : Nat} (w : Option Bytes) (h : lengthNeeded s r.m e k payload ≤ r.m.outLen.toNat) :
    lengthChecked s r e k payload w
      = putReq s { r with stage := .clock, seen := none, m := { r.m with lenNeeded := lengthNeeded s r.m e k payload, wrapper := w } } :=
  if_neg (Nat.not_lt.mpr h)

theorem lengthChecked_short {payload : Nat} (w : Option Bytes) (h : r.m.outLen.toNat < lengthNeeded s r.m e k payload) :
    lengthChecked s r e k payload w = endMint s r .badLength (detSub 48) := if_pos h

theorem intakeEnd_noWrapper : intakeEnd s r e k none = lengthChecked s r e k 0 none := rfl

theorem intakeEnd_wrapperBad {w : Bytes} {st : Status} (h : checkWrapper w r.m.foreignLen.toNat k.format = .error (n, st)) :
    intakeEnd s r e k (some w) = endMint s r st (detWrap n) := by simp only [intakeEnd, h]

theorem intakeEnd_wrapperOk {w : Bytes} {f : Foreign} (h : checkWrapper w r.m.foreignLen.toNat k.format = .ok f) :
    intakeEnd s r e k (some w) = lengthChecked s r e k f.payload.length (some w) := by simp only [intakeEnd, h, lengthChecked]

/-- A mint that passes checks 1 to 9 (04 R172)
has its wrapper's length checked, if it brings one, and else its output length. -/
theorem mintIntake_checked (hopen : planeOpen s = true) (hown : s.fab.ownAuth = true) (hrsv : mintRsv r.entry = none)
    (hpq : mPq r.m = true → unitActive s 0x3A = true ∧ k.pqAllowed = true) (halign : r.m.outAddr.toNat % 8 = 0)
    (hevent : eventOf s r.m.event.toNat = some e) (hclass : classOf e r.m.cls.toNat = some k)
    (hnfc : mNfc r.m = true → k.nfcAllowed = true ∧ r.m.tslot.toNat ≤ 1023) :
    mintIntake s r = if mForeign r.m && (decide (r.m.foreignLen.toNat < 8) || decide (r.m.foreignLen.toNat > 1052)) then
        endMint s r .badLength (detSub 52)
      else if mForeign r.m then putReq s { r with stage := .wrapperRead, seen := some e } else lengthChecked s r e k 0 none := by
  have hunit : (mPq r.m && !unitActive s 0x3A) = false := and_not_eq_false fun h => (hpq h).1
  have hcosign : (mPq r.m && !k.pqAllowed) = false := and_not_eq_false fun h => (hpq h).2
  have htag : (mNfc r.m && !k.nfcAllowed) = false := and_not_eq_false fun h => (hnfc h).1
  have hslot : (mNfc r.m && decide (r.m.tslot.toNat > 1023)) = false :=
    Bool.and_eq_false_imp.mpr fun h => decide_eq_false (Nat.not_lt.mpr (hnfc h).2)
  simp only [mintIntake, hopen, hown, hrsv, hunit, halign, hevent, hclass, htag, hslot, hcosign, Bool.not_true, Bool.or_self, Bool.false_eq_true,
    ne_eq, not_true_eq_false, ↓reduceIte, intakeEnd_noWrapper]

/-! ### The wrapper read -/

theorem exec_mintWrapperReadDone_unitAbsent (b : Option Bytes) (h : Stands s l c .wrapperRead r) (hpq : mPq r.m = true) (hunit : unitActive s 0x3A = false) :
    exec (.mintWrapperReadDone l c b) s = .next (endMint s r .unitAbsent) := by
  show execMintWrapperReadDone l c b s = _
  rw [execMintWrapperReadDone, inStage_of_stands h, hpq, hunit, Bool.not_false, Bool.and_self, if_pos rfl, done]

theorem exec_mintWrapperReadDone_failed (h : Stands s l c .wrapperRead r) (hunit : mPq r.m = false ∨ unitActive s 0x3A = true) :
    exec (.mintWrapperReadDone l c none) s = .next (endMint s r .internalFault detDmaRead) := by
  have hcosign : (mPq r.m && !unitActive s 0x3A) = false :=
    and_not_eq_false fun hpq => hunit.resolve_left (ne_false_of_eq_true hpq)
  show execMintWrapperReadDone l c none s = _
  rw [execMintWrapperReadDone, inStage_of_stands h, hcosign, if_neg Bool.false_ne_true, done]

/-- The wrapper read is checked under the event that INTAKE read on entry. -/
theorem exec_mintWrapperReadDone_read (b : Bytes) (h : Stands s l c .wrapperRead r) (hseen : r.seen = some e) (hclass : classOf e r.m.cls.toNat = some k)
    (hpq : mPq r.m = true → unitActive s 0x3A = true) :
    exec (.mintWrapperReadDone l c (some b)) s = .next (intakeEnd s r e k (some (fit r.m.foreignLen.toNat b))) := by
  have hcosign : (mPq r.m && !unitActive s 0x3A) = false := and_not_eq_false hpq
  show execMintWrapperReadDone l c (some b) s = _
  simp only [execMintWrapperReadDone, inStage_of_stands h, hcosign, hseen, hclass, Bool.false_eq_true, ↓reduceIte, done]

theorem exec_mintWrapperReadTimeout (h : Stands s l c .wrapperRead r) :
    exec (.mintWrapperReadTimeout l c) s = .next (endMint s r .internalFault detDmaRead) := by
  show execMintWrapperReadTimeout l c s = _
  rw [execMintWrapperReadTimeout, inStage_of_stands h, done]

/-! ### CLOCK -/

theorem exec_mintClock (h : Stands s l c .clock r) (hmint : r.isMint = true) : exec (.mintClock l c) s = .next (mintClock s r) := by
  show execMintClock l c s = _
  rw [execMintClock, inStage_of_stands h, if_pos hmint, done]

/-- CLOCK fixes the issue time and a validity in minutes; the mint goes to RULE. -/
def clockFixed (s : State) (r : Req) (vfrom vuntil : Nat) : State :=
  putReq s { r with stage := .rule, m := { r.m with issueUs := s.time.mUs, vfrom := BitVec.ofNat 32 vfrom, vuntil := BitVec.ofNat 32 vuntil } }

section
variable (hevent : eventOf s r.m.event.toNat = some e)
include hevent

theorem mintClock_unfit (h : timeUnfit s e = true) : mintClock s r = endMint s r .timeUnanchored := by simp only [mintClock, hevent, h, ↓reduceIte]

theorem mintClock_event (h : timeUnfit s e = false) (hover : mOverride r.m = false) (hend : minuteOf s.time.mUs < e.windowEnd)
    (hstart : e.windowStart < minuteOf s.time.mUs + maxValidity e) :
    mintClock s r = clockFixed s r e.windowStart (min e.windowEnd (minuteOf s.time.mUs + maxValidity e)) := by
  have hin : ¬(e.windowEnd ≤ minuteOf s.time.mUs ∨ minuteOf s.time.mUs + maxValidity e ≤ e.windowStart) := by omega
  simp only [mintClock, hevent, h, hover, hin, Bool.false_eq_true, ↓reduceIte, clockFixed]

theorem mintClock_override (h : timeUnfit s e = false) (hover : mOverride r.m = true) (hstart : e.windowStart ≤ r.m.vfrom.toNat)
    (horder : r.m.vfrom.toNat < r.m.vuntil.toNat) (hend : r.m.vuntil.toNat ≤ e.windowEnd)
    (hlimit : r.m.vuntil.toNat ≤ minuteOf s.time.mUs + maxValidity e) (hnow : minuteOf s.time.mUs < r.m.vuntil.toNat) :
    mintClock s r = clockFixed s r r.m.vfrom.toNat r.m.vuntil.toNat := by
  have hfrom : ¬r.m.vfrom.toNat < e.windowStart := Nat.not_lt.mpr hstart
  have huntil : ¬(r.m.vuntil.toNat ≤ r.m.vfrom.toNat ∨ e.windowEnd < r.m.vuntil.toNat ∨ minuteOf s.time.mUs + maxValidity e < r.m.vuntil.toNat ∨
      r.m.vuntil.toNat ≤ minuteOf s.time.mUs) := by omega
  simp only [mintClock, hevent, h, hover, hfrom, huntil, Bool.false_eq_true, ↓reduceIte, clockFixed]

end

/-! ### The lane key cache -/

theorem keeps_cacheFront (s : State) (lane : Nat) (x : CacheEnt) : Keeps [.lane] s (cacheFront s lane x) := keeps_onLane s _

/-- A key's use moves it to the front of its lane's cache, and changes no queue of the lanes. -/
theorem touchKey_frame (s : State) (lane : Nat) (key : KeyRef) :
    Keeps [.lane] s (touchKey s lane key) ∧ (touchKey s lane key).lane.drawWait = s.lane.drawWait := by
  unfold touchKey
  split
  · exact ⟨keeps_cacheFront s lane _, rfl⟩
  · exact ⟨.refl _ s, rfl⟩

theorem touchKeys_frame (lane : Nat) : ∀ (ks : List KeyRef) (s : State),
    Keeps [.lane] s (touchKeys s lane ks) ∧ (touchKeys s lane ks).lane.drawWait = s.lane.drawWait
  | [], s => ⟨.refl _ s, rfl⟩
  | key :: ks, s => by
    obtain ⟨hkeep, hwait⟩ := touchKey_frame s lane key
    obtain ⟨hkeeps, hwaits⟩ := touchKeys_frame lane ks (touchKey s lane key)
    exact ⟨hkeep.trans hkeeps, hwaits.trans hwait⟩

/-! ### The draw -/

theorem rngServes_congr {t : State} (h : Keeps [.lane] s t) : rngServes t = rngServes s := by
  have hrng : t.rng = s.rng := h .rng (by simp)
  have hunit : t.unit = s.unit := h .unit (by simp)
  rw [rngServes, rngServes, hrng, unitSt, unitSt, unitEnt, unitEnt, hunit]

theorem randBytes_congr {t : State} (h : Keeps [.lane] s t) (n : Nat) : randBytes t n = randBytes s n := by
  have hrng : t.rng = s.rng := h .rng (by simp)
  rw [randBytes, randBytes, hrng]

/-- A mint with random bytes `b`, in stage `st`. -/
def withRand (r : Req) (st : Stage) (b : Bytes) : Req := { r with stage := st, m := { r.m with rand := b } }

theorem getReq_withRand (s : State) (r : Req) {st : Stage} (b : Bytes) (h : st ≠ .intake) :
    getReq (putReq s (withRand r st b)) (keyOf r) = some (withRand r st b) :=
  getReq_putReq (Req.ne_default h)

theorem mintDraw_nothing (s : State) (r : Req) : mintDraw s r 0 = putReq s (withRand r .ledger r.m.rand) := if_pos rfl

theorem mintDraw_serves (hn : 0 < n) (h : rngServes s = true) :
    mintDraw s r n = drew (putReq s (withRand r .ledger (randBytes s n))) n := by
  simp only [mintDraw, Nat.pos_iff_ne_zero.mp hn, h, ↓reduceIte, withRand]

theorem mintDraw_holds (hn : 0 < n) (h : rngServes s = false) :
    mintDraw s r n = (putReq s (withRand r .drawHold (zeros n))).onLane fun b => { b with drawWait := b.drawWait ++ [keyOf r] } := by
  simp only [mintDraw, Nat.pos_iff_ne_zero.mp hn, h, Bool.false_eq_true, ↓reduceIte, withRand]

theorem exec_mintDrbgTimeout (h : Stands s l c .drawHold r) : exec (.mintDrbgTimeout l c) s = .next (endMint s r .randomNotReady) := by
  show execMintDrbgTimeout l c s = _
  rw [execMintDrbgTimeout, inStage_of_stands h, done]

/-! ### RULE -/

/-- A request as it enters a stage: it holds neither an event nor a key yet (01 R24). -/
def entering (r : Req) : Req := { r with seen := none, got := [] }

theorem exec_mintRule (h : Stands s l c .rule r) (hmint : r.isMint = true) (hevent : eventOf s r.m.event.toNat = some e) :
    exec (.mintRule l c) s = .next (mintRuleOn s (entering r) e) := by
  show execMintRule l c s = _
  rw [execMintRule, inStage_of_stands h, if_pos hmint, mintRule, hevent, done]
  rfl

/-- A request that has just entered its stage has the keys that stand in its lane's cache. -/
theorem haveKey_entering (x : Need) : haveKey s (entering r) x = cached s r.lane x.key := rfl

theorem needs_entering (ns : List Need) : (ns.filter fun x => !(entering r).got.any (·.key == x.key)) = ns := List.filter_eq_self.mpr fun _ _ => rfl

/-- What a mint takes along from RULE: the class's values and the material of the keys it needs (04 R181). -/
def ruledMint (s : State) (r : Req) (e : EventRec) (k : ClassRec) : MintSt :=
  { r.m with
    zoneMask := k.zoneMask, format := k.format, sigAlg := k.sigAlg
    macKey := needMaterial s r (needMac e)
    signKey := if k.format = 1 then needMaterial s r (needSign e k) else []
    pqKey := if mPq r.m then needMaterial s r (needPq e) else []
    pqKind := if mPq r.m then ((haveKey s r (needPq e)).map (·.slot.kind)).getD 0 else 0
    nfcKey := if mNfc r.m then needMaterial s r (needNfc e) else []
    transKey := if mNfc r.m then needMaterial s r (needTransport r.m) else [] }

/-- A mint that leaves RULE with every key it needs. -/
def ruled (s : State) (r : Req) (e : EventRec) (k : ClassRec) : Req := { entering r with m := ruledMint s (entering r) e k }

section
variable (hclass : classOf e r.m.cls.toNat = some k) (hclosed : e.closed = false)
include hclass hclosed

theorem mintRuleOn_denied {st : Status} (h : firstDenied s .mint (mintNeeds r.m e k) = some st) :
    mintRuleOn s (entering r) e = endMint s (entering r) st := by
  have hclass' : classOf e (entering r).m.cls.toNat = some k := hclass
  have hdenied : firstDenied s .mint (mintNeeds (entering r).m e k) = some st := h
  simp only [mintRuleOn, hclass', hclosed, needs_entering, hdenied, Bool.false_eq_true, ↓reduceIte]

variable (hallowed : firstDenied s .mint (mintNeeds r.m e k) = none)
include hallowed

theorem mintRuleOn_waits (h : ∃ x ∈ mintNeeds r.m e k, inCache s r.lane x.key = false) :
    mintRuleOn s (entering r) e
      = putReq s { entering r with stage := .ruleHold, seen := some e, got := gotKeys s (entering r) (mintNeeds r.m e k) } := by
  have hclass' : classOf e (entering r).m.cls.toNat = some k := hclass
  have hallowed' : firstDenied s .mint (mintNeeds (entering r).m e k) = none := hallowed
  have hmissing : ((mintNeeds (entering r).m e k).all fun x => (haveKey s (entering r) x).isSome) = false := by
    obtain ⟨x, hx, hcold⟩ := h
    exact List.all_eq_false.mpr ⟨x, hx, by rw [haveKey_entering]; exact (Bool.not_eq_true _).mpr hcold⟩
  simp only [mintRuleOn, hclass', hclosed, needs_entering, hallowed', hmissing, Bool.not_false, Bool.false_eq_true, ↓reduceIte]
  rfl

theorem mintRuleOn_draws (h : ∀ x ∈ mintNeeds r.m e k, inCache s r.lane x.key = true) :
    mintRuleOn s (entering r) e = mintDraw (touchKeys s r.lane ((mintNeeds r.m e k).map (·.key))) (ruled s r e k) (randNeed r.m k) := by
  have hclass' : classOf e (entering r).m.cls.toNat = some k := hclass
  have hallowed' : firstDenied s .mint (mintNeeds (entering r).m e k) = none := hallowed
  have hcached : ((mintNeeds (entering r).m e k).all fun x => (haveKey s (entering r) x).isSome) = true :=
    List.all_eq_true.mpr fun x hx => by rw [haveKey_entering]; exact h x hx
  simp only [mintRuleOn, hclass', hclosed, needs_entering, hallowed', hcached, Bool.not_true, Bool.false_eq_true, ↓reduceIte]
  rfl

end

/-- RULE with every key at hand draws the random bytes the mint needs, and goes on as the DRBG serves (04 R184, R185). -/
theorem completes_mintRule (hstands : Stands s l c .rule r) (hmint : r.isMint = true) (hevent : eventOf s r.m.event.toNat = some e)
    (hclass : classOf e r.m.cls.toNat = some k) (hclosed : e.closed = false) (hallowed : firstDenied s .mint (mintNeeds r.m e k) = none)
    (hcached : ∀ x ∈ mintNeeds r.m e k, inCache s r.lane x.key = true) :
    (randNeed r.m k = 0 → Completes (.mintRule l c) s [.lane] fun t =>
      getReq t (keyOf r) = some (withRand (ruled s r e k) .ledger r.m.rand)) ∧
    (0 < randNeed r.m k → rngServes s = true → Completes (.mintRule l c) s [.lane, .rng] fun t =>
      getReq t (keyOf r) = some (withRand (ruled s r e k) .ledger (randBytes s (randNeed r.m k))) ∧ t.rng.drawn = s.rng.drawn + randNeed r.m k) ∧
    (0 < randNeed r.m k → rngServes s = false → Completes (.mintRule l c) s [.lane] fun t =>
      getReq t (keyOf r) = some (withRand (ruled s r e k) .drawHold (zeros (randNeed r.m k))) ∧ t.lane.drawWait = s.lane.drawWait ++ [keyOf r]) := by
  have hexec := (exec_mintRule hstands hmint hevent).trans (congrArg _ (mintRuleOn_draws hclass hclosed hallowed hcached))
  obtain ⟨htouch, hwait⟩ := touchKeys_frame r.lane ((mintNeeds r.m e k).map (·.key)) s
  generalize touchKeys s r.lane ((mintNeeds r.m e k).map (·.key)) = u at hexec htouch hwait
  refine ⟨fun hneed => ?_, fun hneed hserves => ?_, fun hneed hserves => ?_⟩
  · rw [hneed, mintDraw_nothing] at hexec
    exact ⟨_, hexec, getReq_withRand u (ruled s r e k) (st := .ledger) r.m.rand (by decide), htouch.trans (keeps_putReq u _)⟩
  · rw [mintDraw_serves hneed ((rngServes_congr htouch).trans hserves), randBytes_congr htouch] at hexec
    have hdrawn : u.rng.drawn = s.rng.drawn := congrArg RngSt.drawn (htouch .rng (by simp))
    exact ⟨_, hexec, ⟨getReq_withRand u (ruled s r e k) (st := .ledger) _ (by decide), congrArg (· + randNeed r.m k) hdrawn⟩,
      ((htouch.trans (keeps_putReq u _)).mono (by simp)).trans ((keeps_drew _ _).mono (by simp))⟩
  · rw [mintDraw_holds hneed ((rngServes_congr htouch).trans hserves)] at hexec
    exact ⟨_, hexec, ⟨getReq_withRand u (ruled s r e k) (st := .drawHold) _ (by decide), congrArg (· ++ [keyOf r]) hwait⟩,
      (htouch.trans (keeps_putReq u _)).trans (keeps_onLane _ _)⟩

end Sys2Proof.Machine
end

section
/-! OBLIGATIONS. Mints from INTAKE to LEDGER. -/

namespace Sys2Proof.Machine

/-- Settles O25, stage by stage: the checks of INTAKE, the wrapper read, CLOCK, RULE with its keys and its draw. -/
theorem mintsReachTheLedger : Obligations.MintsReachTheLedger := by
  refine ⟨fun s l c r hstands hmint hauth => ?_,
    fun s l c r e k hstands hmint hopen hown hrsv hpq halign hevent hclass hnfc => ?_,
    fun s l c r b e k hstands hseen hclass hpq => ?_, fun s l c r b => exec_mintWrapperReadDone_unitAbsent b,
    fun s l c r hstands => ⟨exec_mintWrapperReadDone_failed hstands, exec_mintWrapperReadTimeout hstands⟩,
    fun s l c r e hstands hmint hevent => ?_, fun s l c r e k hstands hmint hevent hclass hclosed => ?_, fun s l c r => exec_mintDrbgTimeout⟩
  · simp only [Bool.and_eq_true, decide_eq_true_eq] at hauth
    rw [exec_mintIntake hstands hmint, mintIntake_notHere hauth.2]
  · rw [exec_mintIntake hstands hmint, mintIntake_checked hopen hown hrsv hpq halign hevent hclass hnfc]
    refine ⟨fun hforeign hmin hmax => ?_, fun hforeign hfits => ?_, fun hforeign hshort => ?_⟩
    · have hlen : (decide (r.m.foreignLen.toNat < 8) || decide (r.m.foreignLen.toNat > 1052)) = false := by
        rw [decide_eq_false (Nat.not_lt.mpr hmin), decide_eq_false (Nat.not_lt.mpr hmax), Bool.or_self]
      rw [hlen, Bool.and_false, if_neg Bool.false_ne_true, if_pos hforeign]
    · rw [hforeign, Bool.false_and, if_neg Bool.false_ne_true, if_neg Bool.false_ne_true, lengthChecked_fits none hfits]
    · rw [hforeign, Bool.false_and, if_neg Bool.false_ne_true, if_neg Bool.false_ne_true, lengthChecked_short none hshort]
  · have hexec := exec_mintWrapperReadDone_read b hstands hseen hclass hpq
    exact ⟨fun n st hbad => hexec.trans (congrArg _ (intakeEnd_wrapperBad hbad)),
      fun f hok hfits => hexec.trans (congrArg _ ((intakeEnd_wrapperOk hok).trans (lengthChecked_fits _ hfits)))⟩
  · rw [exec_mintClock hstands hmint]
    exact ⟨fun hunfit => congrArg _ (mintClock_unfit hevent hunfit),
      fun hfit hover hend hstart => congrArg _ (mintClock_event hevent hfit hover hend hstart),
      fun hfit hover hstart horder hend hlimit hnow => congrArg _ (mintClock_override hevent hfit hover hstart horder hend hlimit hnow)⟩
  · have hexec := exec_mintRule hstands hmint hevent
    refine ⟨fun st hdenied => hexec.trans (congrArg _ (mintRuleOn_denied hclass hclosed hdenied)),
      fun hallowed hcold => hexec.trans (congrArg _ (mintRuleOn_waits hclass hclosed hallowed hcold)), fun hallowed hcached => ?_⟩
    obtain ⟨hnothing, hserves, hholds⟩ := completes_mintRule hstands hmint hevent hclass hclosed hallowed hcached
    refine ⟨fun hneed => ?_, fun hneed hrng => ?_, fun hneed hrng => ?_⟩
    · obtain ⟨t, hstep, hgot, hkeep⟩ := hnothing hneed
      exact ⟨t, hstep, ⟨_, hgot, rfl, rfl, rfl, rfl⟩, hkeep⟩
    · obtain ⟨t, hstep, ⟨hgot, hdrawn⟩, hkeep⟩ := hserves hneed hrng
      exact ⟨t, hstep, ⟨_, hgot, rfl, rfl, hdrawn⟩, hkeep⟩
    · obtain ⟨t, hstep, ⟨hgot, hwait⟩, hkeep⟩ := hholds hneed hrng
      exact ⟨t, hstep, ⟨_, hgot, rfl, hwait⟩, hkeep⟩

end Sys2Proof.Machine
end

section
/-! SUPPORT. What a verdict does from INTAKE to LEDGER on the node that decides it (05 R224-R253). -/

namespace Sys2Proof.Machine

variable {s : State} {r : Req} {l c : Nat} {e : EventRec} {k : ClassRec}

/-! ### INTAKE at the origin -/

/-- The skew gauge is telemetry alone. -/
theorem skew_onTele (s : State) (hint : BitVec 32) : ∃ f, skew s hint = s.onTele f := by
  unfold skew State.when
  split
  · exact ⟨_, rfl⟩
  · exact ⟨id, rfl⟩

@[simp] theorem planeOpen_skew (s : State) (hint : BitVec 32) : planeOpen (skew s hint) = planeOpen s := by
  obtain ⟨f, hf⟩ := skew_onTele s hint
  rw [hf]
  rfl

@[simp] theorem decidesFor_skew (s : State) (hint : BitVec 32) (home : Nat) : decidesFor (skew s hint) home = decidesFor s home := by
  obtain ⟨f, hf⟩ := skew_onTele s hint
  rw [hf]
  rfl

@[simp] theorem fwdTarget_skew (s : State) (hint : BitVec 32) (home : Nat) : fwdTarget (skew s hint) home = fwdTarget s home := by
  obtain ⟨f, hf⟩ := skew_onTele s hint
  rw [hf]
  rfl

theorem exec_verdictIntake_own (h : Stands s l c .intake r) (hverdict : r.isMint = false) (hown : r.v.fwdIn = none) :
    exec (.verdictIntake l c) s = .next (verdictIntake s r) := by
  show execVerdictIntake l c s = _
  rw [execVerdictIntake, inStage_of_stands h, hverdict, hown, if_neg Bool.false_ne_true, Option.isSome_none, if_neg Bool.false_ne_true, done]

theorem exec_verdictIntake_forwarded {f : FwdId} (h : Stands s l c .intake r) (hverdict : r.isMint = false) (hfwd : r.v.fwdIn = some f) :
    exec (.verdictIntake l c) s = .next (verdictDecide s r) := by
  show execVerdictIntake l c s = _
  rw [execVerdictIntake, inStage_of_stands h, hverdict, hfwd, if_neg Bool.false_ne_true, Option.isSome_some, if_pos rfl, done]

theorem verdictIntake_closed (h : planeOpen s = false) : verdictIntake s r = endVerdict (skew s r.v.scanHint) r .paused := by
  simp only [verdictIntake, planeOpen_skew, h, Bool.not_false, ↓reduceIte]

/-- The global serial that a credential names (02 R57). -/
def credSerial (r : Req) : BitVec 56 := BitVec.ofNat 56 (beAt r.v.cred 2 7)

/-- A verdict whose credential's serial has been read (05 R226). -/
def serialRead (r : Req) : Req := { r with serial := credSerial r, hasSerial := decide (9 ≤ r.v.credLen) }

section
variable (hopen : planeOpen s = true) (hrsv : (leAt r.entry 3 1).testBit 7 = false) (hsome : r.v.credLen ≠ 0) (hmax : r.v.credLen ≤ 120)
  (hbeyond : beyondCred r = none) (hdir : vDir r ≠ 3)
include hopen hrsv hsome hmax hbeyond hdir

theorem verdictIntake_forged (h : credShape r.v.cred = false) :
    verdictIntake s r = endVerdict (skew s r.v.scanHint) (serialRead r) .done .refuseForged := by
  simp only [verdictIntake, planeOpen_skew, hopen, hrsv, hsome, gt_iff_lt, Nat.not_lt.mpr hmax, or_self, hbeyond, hdir, h,
    Bool.not_true, Bool.not_false, Bool.false_eq_true, ↓reduceIte]
  rfl

variable (hshape : credShape r.v.cred = true)
include hshape

theorem verdictIntake_decides (h : decidesFor s (serialHome (credSerial r).toNat) = true) :
    verdictIntake s r = verdictDecide (skew s r.v.scanHint) (serialRead r) := by
  unfold credSerial at h
  simp only [verdictIntake, planeOpen_skew, hopen, hrsv, hsome, gt_iff_lt, Nat.not_lt.mpr hmax, or_self, hbeyond, hdir,
    hshape, decidesFor_skew, h, Bool.not_true, Bool.false_eq_true, ↓reduceIte]
  rfl

theorem verdictIntake_unreachable (h : decidesFor s (serialHome (credSerial r).toNat) = false) (hroute : fwdTarget s (serialHome (credSerial r).toNat) = none) :
    verdictIntake s r = endVerdict (skew s r.v.scanHint) (serialRead r) .homeUnreachable .undecided detRouteNone := by
  unfold credSerial at h hroute
  simp only [verdictIntake, planeOpen_skew, hopen, hrsv, hsome, gt_iff_lt, Nat.not_lt.mpr hmax, or_self, hbeyond, hdir,
    hshape, decidesFor_skew, h, fwdTarget_skew, hroute, Bool.not_true, Bool.false_eq_true, ↓reduceIte]
  rfl

end

/-- A verdict that has passed the checks of the deciding node (05 R224 checks 8 to 10). -/
def toCheck (s : State) (r : Req) : Req :=
  { r with
    stage := .check, serial := credSerial r, hasSerial := decide (9 ≤ r.v.cred.length)
    v := { r.v with twinAuth := serialHome (credSerial r).toNat != nodeAddr s, cls := BitVec.ofNat 8 (vClass r) } }

theorem verdictDecide_accepts (hepoch : serialEpoch (credSerial r).toNat = s.led.epoch) (hevent : eventOf s (vEvent r) = some e)
    (hclass : classOf e (vClass r) = some k) (hformat : vFormat r = k.format.toNat) (halg : (leAt r.v.cred 1 1).testBit 0 = k.sigAlg) :
    verdictDecide s r = putReq s (toCheck s r) := by
  unfold credSerial at hepoch
  unfold vEvent vClass at *
  unfold vFormat at hformat
  simp only [verdictDecide, vEvent, vClass, vFormat, hepoch, hevent, hclass, hformat, halg, ne_eq, not_true_eq_false, or_self, ↓reduceIte]
  rfl

/-! ### CHECK -/

theorem exec_verdictCheck (h : Stands s l c .check r) (hverdict : r.isMint = false) (hevent : eventOf s (vEvent r) = some e) :
    exec (.verdictCheck l c) s = .next (verdictCheckOn s (entering r) e) := by
  show execVerdictCheck l c s = _
  rw [execVerdictCheck, inStage_of_stands h, hverdict, if_neg Bool.false_ne_true, verdictCheck, hevent, done]
  rfl

/-- A verdict that is decided by the signature of its credential, its gate tag having no usable key (05 R240). -/
def onSigPath (r : Req) : Req := { r with v := { r.v with sigPath := true } }

section
variable (hclass : classOf e (vClass r) = some k)
include hclass

section
variable {x : Slot} (hmac : resolveNeed s .verdict (needMac e) = .ok x)
include hmac

theorem verdictCheckOn_waits (h : inCache s r.lane e.macKey = false) :
    verdictCheckOn s r e = putReq s { r with stage := .checkHold, seen := some e } := by
  simp only [verdictCheckOn, hclass, hmac, h, Bool.not_false, ↓reduceIte]

/-- The gate tag under the cached mac_key decides (05 R239). -/
theorem verdictCheckOn_tag (h : inCache s r.lane e.macKey = true) :
    verdictCheckOn s r e =
      if tagMatches (needMaterial s r (needMac e)) r.v.cred then
        putReq (count (touchKey s r.lane e.macKey) (0x4680 + 8 * r.lane) 2500) { r with stage := .clock, seen := none }
      else endVerdict (count (touchKey s r.lane e.macKey) (0x4680 + 8 * r.lane) 2500) r .done .refuseForged := by
  simp only [verdictCheckOn, hclass, hmac, h, Bool.not_true, Bool.false_eq_true, ↓reduceIte]

end

variable {st : Status} (hmac : resolveNeed s .verdict (needMac e) = .error st)
include hmac

theorem verdictCheckOn_noPath (h : vFormat r ≠ 1) : verdictCheckOn s r e = endVerdict s r st := by
  simp only [verdictCheckOn, hclass, hmac, h, ne_eq, not_false_eq_true, ↓reduceIte]

/-- With no usable mac_key the signature of a format 0x01 credential decides (05 R240). -/
theorem verdictCheckOn_signature {x : Slot} (hformat : vFormat r = 1) (hsign : resolveNeed s .verdict (needSign e k) = .ok x)
    (h : inCache s r.lane (needSign e k).key = true) :
    verdictCheckOn s r e =
      if sigVerifies k.sigAlg (needMaterial s (onSigPath r) (needSign e k)) r.v.cred then
        putReq (count (touchKey s r.lane (needSign e k).key) (0x4680 + 8 * r.lane) 25000) { onSigPath r with stage := .clock, seen := none }
      else endVerdict (count (touchKey s r.lane (needSign e k).key) (0x4680 + 8 * r.lane) 25000) (onSigPath r) .done .refuseForged := by
  simp only [verdictCheckOn, hclass, hmac, hformat, hsign, h, ne_eq, not_true_eq_false, Bool.not_true, Bool.false_eq_true, ↓reduceIte]
  rfl

end

/-- A fill puts the key into the lane's cache, and the requests that wait for a key try their stages again in turn (04 R188, 05 R243). -/
theorem exec_keyCacheFill {slot gen : Nat} (hwaits : keyWaiters s l ≠ []) (hfill : fillOk s l slot gen = true) :
    exec (.keyCacheFill l slot gen) s = .next ((keyWaiters s l).foldl retryKey (fillKey s l { slot := slot, gen := gen })) := by
  have hsome : (keyWaiters s l).isEmpty = false := by rwa [List.isEmpty_eq_false_iff]
  show execKeyCacheFill l slot gen s = _
  simp only [execKeyCacheFill, hfill, hsome, Bool.not_false, Bool.and_self, State.when_true, done]

/-! ### CLOCK and RULE -/

theorem exec_verdictClock (h : Stands s l c .clock r) (hverdict : r.isMint = false) : exec (.verdictClock l c) s = .next (verdictClock s r) := by
  show execVerdictClock l c s = _
  rw [execVerdictClock, inStage_of_stands h, hverdict, if_neg Bool.false_ne_true, done]

theorem verdictClock_event (hevent : eventOf s (vEvent r) = some e) :
    verdictClock s r =
      if timeUnfit s e then endVerdict s r .timeUnanchored
      else if vDir r ≠ 1 ∧ s.time.mUs < beAt r.v.cred 22 4 * 60000000 then endVerdict s r .done .refuseEarly
      else if vDir r ≠ 1 ∧ beAt r.v.cred 26 4 * 60000000 ≤ s.time.mUs then endVerdict s r .done .refuseExpired
      else putReq s { r with stage := .rule, v := { r.v with t := s.time.mUs } } := by
  simp only [verdictClock, hevent, ge_iff_le]

theorem exec_verdictRule (h : Stands s l c .rule r) (hverdict : r.isMint = false) : exec (.verdictRule l c) s = .next (verdictRule s r) := by
  show execVerdictRule l c s = _
  rw [execVerdictRule, inStage_of_stands h, hverdict, if_neg Bool.false_ne_true, done]

theorem verdictRule_event (hevent : eventOf s (vEvent r) = some e) (hclass : classOf e (vClass r) = some k) :
    verdictRule s r =
      if e.closed then endVerdict s r .done .refuseEventClosed
      else if vDir r = 1 ∧ k.reentry = false then endVerdict s r .done .refuseNotExit
      else if vDir r ≠ 1 ∧ (BitVec.ofNat 64 (beAt r.v.cred 14 8) &&& k.zoneMask).getLsbD (vZone r) = false then endVerdict s r .done .refuseZone
      else putReq s { r with stage := .ledger, v := { r.v with
        zoneMask := k.zoneMask, reentry := k.reentry, hold := k.holdS * 1000000, coldRefuse := k.coldRefuse } } := by
  simp only [verdictRule, hevent, hclass, Bool.not_eq_true']

/-! ### LEDGER -/

theorem exec_verdictLedgerApply (h : Stands s l c .ledger r) (hverdict : r.isMint = false) :
    exec (.verdictLedgerApply l c) s = .next (verdictAtLedger s r) := by
  show execVerdictLedgerApply l c s = _
  rw [execVerdictLedgerApply, inStage_of_stands h, hverdict, if_neg Bool.false_ne_true, done]

section
variable (hepoch : serialEpoch r.serial.toNat = s.led.epoch)
include hepoch

theorem verdictAtLedger_waits (h : mayApply s = false ∨ behind s r = true) : verdictAtLedger s r = putReq s { r with stage := .ledger } := by
  have hwait : (!mayApply s || !decidesFor s (serialHome r.serial.toNat) || (!(serialHome r.serial.toNat == nodeAddr s) && !s.led.deciding) ||
      behind s r) = true := by
    rcases h with h | h
    · rw [h, Bool.not_false, Bool.true_or, Bool.true_or, Bool.true_or]
    · rw [h, Bool.or_true]
  simp only [verdictAtLedger, hepoch, hwait, ne_eq, not_true_eq_false, ↓reduceIte]

/-- A verdict that may be applied is decided with its page at hand, and otherwise waits for the read of its page (05 R253, 06 R287). -/
theorem verdictAtLedger_applies (happly : mayApply s = true) (hdecides : decidesFor s (serialHome r.serial.toNat) = true)
    (hledger : serialHome r.serial.toNat = nodeAddr s ∨ s.led.deciding = true) (hfirst : behind s r = false)
    (hpage : beingRebuilt s (slotFor (serialHome r.serial.toNat == nodeAddr s) (serialLocal r.serial.toNat)) = false) :
    verdictAtLedger s r =
      if pageAtHand s (serialHome r.serial.toNat == nodeAddr s) (serialLocal r.serial.toNat) then
        applyVerdict (count (onPage s (slotFor (serialHome r.serial.toNat == nodeAddr s) (serialLocal r.serial.toNat))
          fun p => { p with used := s.time.clk }) 0x4600) r
      else startRead (putReq s { r with stage := .pageWait }) (slotFor (serialHome r.serial.toNat == nodeAddr s) (serialLocal r.serial.toNat)) := by
  have hgo : (!mayApply s || !decidesFor s (serialHome r.serial.toNat) || (!(serialHome r.serial.toNat == nodeAddr s) && !s.led.deciding) ||
      behind s r) = false := by
    have hshadow : (!(serialHome r.serial.toNat == nodeAddr s) && !s.led.deciding) = false :=
      and_not_eq_false fun hother => hledger.resolve_left (by simpa using hother)
    rw [happly, hdecides, hshadow, hfirst, Bool.not_true, Bool.or_self, Bool.or_self, Bool.or_self]
  simp only [verdictAtLedger, hepoch, hgo, hpage, ne_eq, not_true_eq_false, Bool.false_eq_true, Bool.not_eq_true', ↓reduceIte]
  cases pageAtHand s (serialHome r.serial.toNat == nodeAddr s) (serialLocal r.serial.toNat) <;> rfl

end

end Sys2Proof.Machine
end

section
/-! OBLIGATIONS. Verdicts from INTAKE to LEDGER. -/

namespace Sys2Proof.Machine

/-- Settles O27, stage by stage: INTAKE here and of a forward, CHECK and the fill of the key cache, CLOCK, RULE, LEDGER. -/
theorem verdictsAreDecided : Obligations.VerdictsAreDecided := by
  refine ⟨fun s l c r hstands hverdict hown => ?_, fun s l c r f e k hstands hverdict hfwd hepoch hevent hclass hformat halg => ?_,
    fun s l c r e k x hstands hverdict hevent hclass => ?_, fun s l slot gen => exec_keyCacheFill, fun s l c r e hstands hverdict hevent => ?_,
    fun s l c r e k hstands hverdict hevent hclass => ?_, fun s l c r hstands hverdict hepoch => ?_⟩
  · have hexec := exec_verdictIntake_own hstands hverdict hown
    refine ⟨fun hclosed => hexec.trans (congrArg _ (verdictIntake_closed hclosed)), fun hopen hrsv hsome hmax hbeyond hdir => ⟨fun hshape => ?_,
      fun hshape hdecides => ?_, fun hshape hother hroute => ?_⟩⟩
    · exact hexec.trans (congrArg _ (verdictIntake_forged hopen hrsv hsome hmax hbeyond hdir hshape))
    · exact hexec.trans (congrArg _ (verdictIntake_decides hopen hrsv hsome hmax hbeyond hdir hshape hdecides))
    · exact hexec.trans (congrArg _ (verdictIntake_unreachable hopen hrsv hsome hmax hbeyond hdir hshape hother hroute))
  · exact (exec_verdictIntake_forwarded hstands hverdict hfwd).trans (congrArg _ (verdictDecide_accepts hepoch hevent hclass hformat halg))
  · have hexec := exec_verdictCheck hstands hverdict hevent
    have hclass' : classOf e (vClass (entering r)) = some k := hclass
    exact ⟨fun hmac hcold => hexec.trans (congrArg _ (verdictCheckOn_waits hclass' hmac hcold)),
      fun hmac hcached => hexec.trans (congrArg _ (verdictCheckOn_tag hclass' hmac hcached)),
      fun st hmac hformat => hexec.trans (congrArg _ (verdictCheckOn_noPath hclass' hmac hformat)),
      fun st hmac hformat hsign hcached => hexec.trans (congrArg _ (verdictCheckOn_signature hclass' hmac hformat hsign hcached))⟩
  · rw [exec_verdictClock hstands hverdict, verdictClock_event hevent]
  · rw [exec_verdictRule hstands hverdict, verdictRule_event hevent hclass]
  · have hexec := exec_verdictLedgerApply hstands hverdict
    exact ⟨fun hwait => hexec.trans (congrArg _ (verdictAtLedger_waits hepoch hwait)),
      fun happly hdecides hledger hfirst hpage => hexec.trans (congrArg _ (verdictAtLedger_applies hepoch happly hdecides hledger hfirst hpage))⟩

end Sys2Proof.Machine
end

section
/-! SUPPORT. What a forwarded verdict does where it arrives, while it waits, and when its origin has the answer (05 R231-R237, R863). -/

namespace Sys2Proof.Machine

variable {s : State} {f : FwdFrame} {l c : Nat}

/-! ### VERDICT_FWD -/

/-- Has a forward with this one's source and sequence arrived within its reply time (05 R231)? -/
def fwdRepeated (s : State) (f : FwdFrame) : Bool :=
  (s.lane.fwdSeen.filter fun p => decide (s.time.clk - p.2.2 < replyTimeout)).any fun p => p.1 == f.src && p.2.1 == f.seq.toNat

theorem fwdRepeated_of_seen {a : Nat} (hseen : (f.src, f.seq.toNat, a) ∈ s.lane.fwdSeen) (hfresh : s.time.clk - a < 1250) : fwdRepeated s f = true := by
  rw [fwdRepeated, List.any_eq_true]
  exact ⟨_, List.mem_filter.mpr ⟨hseen, decide_eq_true hfresh⟩, by simp only [beq_self_eq_true, Bool.and_self]⟩

theorem fwdRepeated_of_past (h : ∀ p ∈ s.lane.fwdSeen, p.1 = f.src → p.2.1 = f.seq.toNat → 1250 ≤ s.time.clk - p.2.2) : fwdRepeated s f = false := by
  rw [fwdRepeated, List.any_eq_false]
  intro p hp hsame
  obtain ⟨hseen, hfresh⟩ := List.mem_filter.mp hp
  obtain ⟨hsrc, hseq⟩ := Bool.and_eq_true_iff.mp hsame
  exact absurd (of_decide_eq_true hfresh) (Nat.not_lt.mpr (h p hseen (eq_of_beq hsrc) (eq_of_beq hseq)))

/-- The forward is remembered for its reply time (05 R231). -/
def fwdNoted (s : State) (f : FwdFrame) : State :=
  s.onLane fun b => { b with
    fwdSeen := (b.fwdSeen.filter fun p => decide (s.time.clk - p.2.2 < replyTimeout)) ++ [(f.src, f.seq.toNat, s.time.clk)] }

theorem exec_verdictFwdRx_repeated (h : fwdRepeated s f = true) : exec (.verdictFwdRx f l c) s = .next s := by
  show execVerdictFwdRx f l c s = _
  unfold fwdRepeated at h
  simp only [execVerdictFwdRx, h, ↓reduceIte, done]

section
variable (hfirst : fwdRepeated s f = false)
include hfirst

theorem exec_verdictFwdRx_bad {st : Status} (hbad : f.bad = some st) : exec (.verdictFwdRx f l c) s = .next (replyFwd (fwdNoted s f) f st) := by
  show execVerdictFwdRx f l c s = _
  unfold fwdRepeated at hfirst
  simp only [execVerdictFwdRx, hfirst, hbad, Bool.false_eq_true, ↓reduceIte, done]
  rfl

variable (hok : f.bad = none)
include hok

theorem exec_verdictFwdRx_decided (hdecides : decidesFor s (fwdHome f) = true) :
    exec (.verdictFwdRx f l c) s = .next (
      if planeOpen s then giveFwd (fwdNoted s f) { f := f, since := s.time.clk } l c else replyFwd (fwdNoted s f) f .paused) := by
  show execVerdictFwdRx f l c s = _
  unfold fwdRepeated at hfirst
  simp only [execVerdictFwdRx, hfirst, hok, Bool.false_eq_true, ↓reduceIte, done]
  exact congrArg _ (if_pos hdecides)

/-- A forward decided elsewhere is relayed to the holder once, and otherwise held (05 R233). -/
theorem exec_verdictFwdRx_elsewhere (hother : decidesFor s (fwdHome f) = false) :
    exec (.verdictFwdRx f l c) s = .next (
      if !f.relayed && holderOf s (fwdHome f) != nodeAddr s && routeExists s (holderOf s (fwdHome f)) then
        routeFrame (fwdNoted s f) f.carry.dim 2
          { src := f.src, dest := holderOf s (fwdHome f), relayed := true, hops := f.carry.hops + 1, detour := f.carry.detour, vc := f.carry.vc
            body := .verdictFwd f.lane f.ctx f.gate f.cred f.seq }
      else (fwdNoted s f).onLane fun b => { b with held := b.held ++ [{ f := f, since := s.time.clk }] }) := by
  show execVerdictFwdRx f l c s = _
  unfold fwdRepeated at hfirst
  simp only [execVerdictFwdRx, hfirst, hok, Bool.false_eq_true, ↓reduceIte, done]
  exact congrArg _ (if_neg (Bool.eq_false_iff.mp hother))

end

/-! ### Timeouts of a forward that waits -/

theorem takeFirst_head {α : Type} {p : α → Bool} {x : α} {xs : List α} (h : p x = true) : takeFirst p (x :: xs) = (some x, xs) := if_pos h

section
variable {h : HeldFwd} {rest : List HeldFwd}

/-- The forward that a timeout names is the first of its source and sequence. -/
theorem takeFwd_head : takeFirst (fun x : HeldFwd => x.f.src == h.f.src && x.f.seq == h.f.seq) (h :: rest) = (some h, rest) :=
  takeFirst_head (by simp only [beq_self_eq_true, Bool.and_self])

theorem exec_heldForwardTimeout (hheld : s.lane.held = h :: rest) :
    exec (.heldForwardTimeout h.f.src h.f.seq) s = .next (replyFwd (s.onLane fun b => { b with held := rest }) h.f .durabilityTimeout) := by
  show execHeldForwardTimeout _ _ s = _
  simp only [execHeldForwardTimeout, hheld, takeFwd_head, done]

theorem exec_forwardContextTimeout (hwait : s.lane.ctxWait = h :: rest) :
    exec (.forwardContextTimeout h.f.src h.f.seq) s = .next (replyFwd (s.onLane fun b => { b with ctxWait := rest }) h.f .durabilityTimeout) := by
  show execForwardContextTimeout _ _ s = _
  simp only [execForwardContextTimeout, hwait, takeFwd_head, done]

end

/-! ### The answer at the origin -/

section
variable {r : Req} (hstands : Stands s l c .fwdWait r)
include hstands

theorem exec_verdictReplyRx_matches {st v i : Byte} {d w : BitVec 16} {g : BitVec 56} (hown : r.v.fwdIn = none) :
    exec (.verdictReplyRx l c st v r.v.fwdSeq i d w g) s = .next (endForwarded s r
      { status := statusOf st.toNat, verdict := v, info := i &&& 0x0E, detail := d, decider := w, serial := g.zeroExtend 64 }) := by
  obtain ⟨hreq, hst⟩ := hstands
  show execVerdictReplyRx l c st v _ i d w g s = _
  simp only [execVerdictReplyRx, hreq, hst, hown, Option.isNone_none, and_self, ↓reduceIte, done]

theorem exec_verdictReplyRx_late {st v i : Byte} {q : BitVec 32} {d w : BitVec 16} {g : BitVec 56} (hlate : r.v.fwdSeq ≠ q) :
    exec (.verdictReplyRx l c st v q i d w g) s = .next (s.onLane fun b => { b with fwdLate := b.fwdLate + 1 }) := by
  show execVerdictReplyRx l c st v q i d w g s = _
  simp only [execVerdictReplyRx, hstands.1, hlate, false_and, and_false, ↓reduceIte, done]

theorem exec_forwardReplyTimeout :
    exec (.forwardReplyTimeout l c) s = .next (endForwarded s r { status := .durabilityTimeout, verdict := 0x3F, serial := serialField r }) := by
  show execForwardReplyTimeout l c s = _
  rw [execForwardReplyTimeout, inStage_of_stands hstands, done]

end

end Sys2Proof.Machine
end

section
/-! OBLIGATIONS. Forwarded verdicts and their replies. -/

namespace Sys2Proof.Machine

/-- Settles O28, step by step: a forward that arrives again or first, its two waits, the reply and the timeout at its origin. -/
theorem forwardsAndRepliesAct : Obligations.ForwardsAndRepliesAct := by
  refine ⟨fun s f l c a hseen hfresh => exec_verdictFwdRx_repeated (fwdRepeated_of_seen hseen hfresh), fun s f l c hpast => ?_,
    fun s h rest => exec_heldForwardTimeout, fun s h rest => exec_forwardContextTimeout, fun s l c r st v i q d w g hstands hown => ?_⟩
  · have hfirst := fwdRepeated_of_past hpast
    refine ⟨fun st => exec_verdictFwdRx_bad hfirst, fun hok hdecides hopen => ?_, fun hok hdecides hclosed => ?_, fun hok hother hrelayed => ?_,
      fun hok hother hfresh hholder hroute => ?_⟩
    · exact (exec_verdictFwdRx_decided hfirst hok hdecides).trans (congrArg _ (if_pos hopen))
    · exact (exec_verdictFwdRx_decided hfirst hok hdecides).trans (congrArg _ (if_neg (Bool.eq_false_iff.mp hclosed)))
    · exact (exec_verdictFwdRx_elsewhere hfirst hok hother).trans (congrArg _ (if_neg (by simp [hrelayed])))
    · exact (exec_verdictFwdRx_elsewhere hfirst hok hother).trans (congrArg _ (if_pos (by simp [hfresh, hholder, hroute])))
  · exact ⟨fun hseq => hseq ▸ exec_verdictReplyRx_matches hstands hown, fun hlate => exec_verdictReplyRx_late hstands hlate,
      exec_forwardReplyTimeout hstands⟩

end Sys2Proof.Machine
end

section
/-! SUPPORT. What closing the open groups and starting a checkpoint leave of the ledger (06 R305, R308, R324). -/

namespace Sys2Proof.Machine

variable {s : State} {own : Bool}

/-! ### Closing a group -/

/-- The open group as the group that it is sealed as, before it has its block (06 R305). -/
def openGroupOf (s : State) (own : Bool) : Group :=
  { seq := openSeq s own, home := if own then nodeAddr s else twinAddr s, source := if own then 0 else 2, epoch := s.led.epoch, recs := openRecs s own }

/-- The open group has left, and its number is taken. -/
def groupTaken (s : State) (own : Bool) : State :=
  s.onLed fun l => if own then { l with openGroup := [], nextGroup := l.nextGroup + 1 } else { l with openAuth := [], nextAuth := l.nextAuth + 1 }

/-- The twin's copy of the group is a frame, so the ledger is what the seal leaves. -/
theorem closeGroup_led (h : openRecs s own ≠ []) : (closeGroup s own).led = (sealBlock (groupTaken s own) (openGroupOf s own)).led := by
  unfold closeGroup
  extract_lets recs home seq g u v
  rw [if_neg (show ¬recs.isEmpty = true from fun hnone => h (List.isEmpty_iff.mp hnone))]
  exact (Keeps.when _ _ (keeps_sendTo v _ _ _)) .led (by simp)

theorem closeGroup_none (h : openRecs s own = []) : closeGroup s own = s := closeGroup_empty h

theorem closeGroup_openRecs_self (s : State) (own : Bool) : openRecs (closeGroup s own) own = [] := by
  by_cases h : openRecs s own = []
  · rw [closeGroup_none h, h]
  · rw [openRecs, closeGroup_led h]
    cases own <;> rfl

/-- Closing one group leaves the other open, with its number. -/
theorem closeGroup_other (s : State) (own : Bool) :
    openRecs (closeGroup s own) (!own) = openRecs s (!own) ∧ openSeq (closeGroup s own) (!own) = openSeq s (!own) := by
  by_cases h : openRecs s own = []
  · rw [closeGroup_none h]
    exact ⟨rfl, rfl⟩
  · rw [openRecs, openSeq, closeGroup_led h]
    cases own <;> exact ⟨rfl, rfl⟩

/-- A group with records takes the next number and is kept as sealed (06 R305, R307). -/
theorem closeGroup_seals (h : openRecs s own ≠ []) :
    openSeq (closeGroup s own) own = openSeq s own + 1 ∧
      ∃ g ∈ (closeGroup s own).led.groups, g.seq = openSeq s own ∧ g.home = (openGroupOf s own).home ∧ g.source = (openGroupOf s own).source ∧
        g.recs = openRecs s own := by
  rw [openSeq, closeGroup_led h]
  refine ⟨by cases own <;> rfl, _, List.mem_append_right _ (List.mem_singleton.mpr rfl), rfl, rfl, rfl, rfl⟩

theorem closeGroup_groups_subset (s : State) (own : Bool) : s.led.groups ⊆ (closeGroup s own).led.groups := by
  by_cases h : openRecs s own = []
  · rw [closeGroup_none h]
    exact List.Subset.refl _
  · rw [closeGroup_led h]
    cases own <;> exact List.subset_append_left _ _

/-- A group that is closed takes one block. -/
theorem closeGroup_blockSeq (s : State) (own : Bool) : (closeGroup s own).led.blockSeq = s.led.blockSeq + if openRecs s own = [] then 0 else 1 := by
  by_cases h : openRecs s own = []
  · rw [closeGroup_none h, if_pos h, Nat.add_zero]
  · rw [closeGroup_led h, if_neg h]
    cases own <;> rfl

/-- Closing a group completes no checkpoint and voids nothing. -/
theorem closeGroup_ckptLast_voidOwn (s : State) (own : Bool) :
    (closeGroup s own).led.ckptLast = s.led.ckptLast ∧ (closeGroup s own).led.voidOwn = s.led.voidOwn := by
  by_cases h : openRecs s own = []
  · rw [closeGroup_none h]
    exact ⟨rfl, rfl⟩
  · rw [closeGroup_led h]
    cases own <;> exact ⟨rfl, rfl⟩

/-- Both open groups are closed, the own one first. -/
def closeOpen (s : State) : State := closeGroup (closeGroup s true) false

theorem keeps_closeOpen (s : State) : Keeps [.fab, .led, .out, .tele] s (closeOpen s) := (closeGroup_frame s true).1.trans (closeGroup_frame _ false).1

theorem closeOpen_open (s : State) : (closeOpen s).led.openGroup = [] ∧ (closeOpen s).led.openAuth = [] :=
  ⟨(closeGroup_other (closeGroup s true) false).1.trans (closeGroup_openRecs_self s true), closeGroup_openRecs_self _ false⟩

theorem closeOpen_none (h : s.led.openGroup = []) (h' : s.led.openAuth = []) : closeOpen s = s := by
  rw [closeOpen, closeGroup_none (s := s) (own := true) h]
  exact closeGroup_none (own := false) h'

theorem closeOpen_sealsOwn (h : s.led.openGroup ≠ []) : (closeOpen s).led.nextGroup = s.led.nextGroup + 1 ∧
    ∃ g ∈ (closeOpen s).led.groups, g.seq = s.led.nextGroup ∧ g.home = nodeAddr s ∧ g.source = 0 ∧ g.recs = s.led.openGroup := by
  obtain ⟨hnext, g, hg, hgroup⟩ := closeGroup_seals (s := s) (own := true) h
  exact ⟨(closeGroup_other (closeGroup s true) false).2.trans hnext, g, closeGroup_groups_subset _ false hg, hgroup⟩

theorem closeOpen_sealsAuth (h : s.led.openAuth ≠ []) : (closeOpen s).led.nextAuth = s.led.nextAuth + 1 ∧
    ∃ g ∈ (closeOpen s).led.groups, g.seq = s.led.nextAuth ∧ g.home = twinAddr s ∧ g.source = 2 ∧ g.recs = s.led.openAuth := by
  obtain ⟨hrecs, hseq⟩ := closeGroup_other s true
  have htwin : twinAddr (closeGroup s true) = twinAddr s := by
    rw [twinAddr, nodeAddr, show (closeGroup s true).pow = s.pow from (closeGroup_frame s true).1 .pow (by simp), ← nodeAddr, ← twinAddr]
  have hopen : openRecs (closeGroup s true) false ≠ [] := fun hnone => h (hrecs.symm.trans hnone)
  obtain ⟨hnext, g, hg, hno, hhome, hsource, hkept⟩ := closeGroup_seals hopen
  exact ⟨hnext.trans (congrArg (· + 1) hseq), g, hg, hno.trans hseq, hhome.trans htwin, hsource, hkept.trans hrecs⟩

theorem closeOpen_blockSeq (s : State) : (closeOpen s).led.blockSeq =
    s.led.blockSeq + (if s.led.openGroup = [] then 0 else 1) + (if s.led.openAuth = [] then 0 else 1) := by
  rw [closeOpen, closeGroup_blockSeq, closeGroup_blockSeq, show openRecs (closeGroup s true) false = openRecs s false from (closeGroup_other s true).1]
  rfl

theorem closeOpen_ckptLast_voidOwn (s : State) :
    (closeOpen s).led.ckptLast = s.led.ckptLast ∧ (closeOpen s).led.voidOwn = s.led.voidOwn := by
  obtain ⟨hlast, hvoid⟩ := closeGroup_ckptLast_voidOwn s true
  obtain ⟨hlast', hvoid'⟩ := closeGroup_ckptLast_voidOwn (closeGroup s true) false
  exact ⟨hlast'.trans hlast, hvoid'.trans hvoid⟩

/-! ### The start of a checkpoint -/

/-- The ledger but for its pages: their state, versions, tags, content at p and the integrity tree (06 R283-R291). -/
def offPages (l : LedgerSt) : LedgerSt := { l with pages := [], versions := [], tags := [], tree := [], root := 0, snap := [] }

/-- The held nodes above one slot, computed anew from level 3 up (06 R291). -/
def holdAbove (s : State) (slot : Nat) : State := [3, 4, 5, 6, 7, 8].foldl (fun s n => holdNode s n (slot / 8 ^ n)) s

theorem retree_eq (s : State) (slots : List Nat) :
    retree s slots = (slots.foldl holdAbove s).onLed fun l => { l with root := treeRoot (slots.foldl holdAbove s) } := rfl

theorem keeps_holdAbove (s : State) (slot : Nat) : Keeps [.led] s (holdAbove s slot) :=
  .foldl (f := fun s n => holdNode s n (slot / 8 ^ n)) (fun u _ => keeps_onLed u _) _ s

theorem offPages_holdAbove (s : State) (slot : Nat) : offPages (holdAbove s slot).led = offPages s.led :=
  foldl_same (f := fun s n => holdNode s n (slot / 8 ^ n)) (fun u => offPages u.led) (fun _ _ => rfl) _ s

theorem keeps_retree (s : State) (slots : List Nat) : Keeps [.led] s (retree s slots) := by
  rw [retree_eq]
  exact (Keeps.foldl keeps_holdAbove slots s).trans (keeps_onLed _ _)

theorem offPages_retree (s : State) (slots : List Nat) : offPages (retree s slots).led = offPages s.led := by
  rw [retree_eq]
  exact foldl_same (fun u => offPages u.led) offPages_holdAbove slots s

theorem offPages_markDirty (s : State) : offPages (markDirty s).led = offPages s.led := offPages_retree _ _

theorem keeps_markDirty (s : State) : Keeps [.led] s (markDirty s) :=
  ((keeps_onLed s _).trans (keeps_onLed _ _)).trans (keeps_retree _ _)

/-- The header that a checkpoint has at its start (06 R329), the open groups being closed. -/
def ckptAtStart (s : State) : Ckpt :=
  { magic := ascii "SXCK", k := s.led.ckptLast.k + 1, p := s.led.blockSeq, chain := s.led.chain, voidOwn := s.led.voidOwn, voidShadow := s.led.voidShadow
    ownCeil := s.led.ceil, twinCeil := s.led.twinCeil, ownEnd := s.led.nextGroup - 1, mirEnd := lastMirrored s false, time := s.time.mUs
    epoch := s.led.epoch, twinEpoch := s.fab.twinEpoch }

/-- The ledger with a checkpoint started. -/
def ckptBegun (s : State) : LedgerSt :=
  { s.led with ckptRun := some (ckptAtStart s), ckptWritten := false, ckptDue := false, sinceCkpt := 0, ckptAt := s.time.clk }

theorem startCheckpoint_begins (hrun : s.led.ckptRun = none) (hreplayed : s.led.replayed = true) :
    offPages (startCheckpoint s).led = offPages (ckptBegun (closeOpen s)) := by
  have hgo : (s.led.ckptRun.isSome || !s.led.replayed) = false := by rw [hrun, hreplayed]; rfl
  unfold startCheckpoint
  rw [if_neg (Bool.eq_false_iff.mp hgo)]
  exact offPages_markDirty _

theorem keeps_startCheckpoint (s : State) : Keeps [.led, .drives, .tele, .fab, .out] s (startCheckpoint s) := by
  unfold startCheckpoint
  split
  · exact .refl _ s
  · have hclosed : Keeps [.led, .drives, .tele, .fab, .out] s (closeOpen s) := (keeps_closeOpen s).mono (by simp)
    exact ((hclosed.trans ((keeps_onLed _ _).mono (by simp))).trans ((keeps_onDrives _ _).mono (by simp))).trans ((keeps_markDirty _).mono (by simp))

/-- The ledger but for its pages and for the checkpoint under way. -/
def offCkpt (l : LedgerSt) : LedgerSt := { offPages l with ckptRun := none, ckptWritten := false, ckptDue := false, sinceCkpt := 0, ckptAt := 0 }

/-- With no group open, the start of a checkpoint changes nothing else in the ledger. -/
theorem offCkpt_startDue (h : s.led.openGroup = []) (h' : s.led.openAuth = []) : offCkpt (startDue s).led = offCkpt s.led := by
  unfold startDue
  split
  · by_cases hgo : s.led.ckptRun = none ∧ s.led.replayed = true
    · have hbegins := startCheckpoint_begins hgo.1 hgo.2
      rw [closeOpen_none h h'] at hbegins
      exact congrArg (fun l : LedgerSt => { l with ckptRun := none, ckptWritten := false, ckptDue := false, sinceCkpt := 0, ckptAt := 0 }) hbegins
    · unfold startCheckpoint
      rw [if_pos (by simpa [imp_iff_not_or, Option.isSome_iff_ne_none] using hgo)]
  · rfl

theorem keeps_startDue (s : State) : Keeps [.led, .drives, .tele, .fab, .out] s (startDue s) := by
  unfold startDue
  split
  · exact keeps_startCheckpoint s
  · exact .refl _ s

theorem completes_groupTick (s : State) : Completes .groupTick s [.led, .drives, .tele, .fab, .out] fun t =>
    t.led.openGroup = [] ∧ t.led.openAuth = [] ∧ t.led.nextGroup = (closeOpen s).led.nextGroup ∧ t.led.nextAuth = (closeOpen s).led.nextAuth ∧
      t.led.groups = (closeOpen s).led.groups := by
  obtain ⟨hown, hauth⟩ := closeOpen_open s
  have hsame := offCkpt_startDue hown hauth
  exact ⟨startDue (closeOpen s), rfl,
    ⟨(congrArg LedgerSt.openGroup hsame).trans hown, (congrArg LedgerSt.openAuth hsame).trans hauth, (congrArg LedgerSt.nextGroup hsame :),
      (congrArg LedgerSt.nextAuth hsame :), (congrArg LedgerSt.groups hsame :)⟩,
    ((keeps_closeOpen s).mono (by simp)).trans (keeps_startDue _)⟩

end Sys2Proof.Machine
end

section
/-! SUPPORT. What block writes, drive faults, mirrored groups, leases and timeouts do (06 R281, R306-R313, R335, 07 R380-R382). -/

namespace Sys2Proof.Machine

variable {s : State} {n : Nat}

/-! ### Writes of blocks and drives -/

/-- The group whose block is `block` stands on drive `d` too (06 R308). -/
def blockWritten (s : State) (d : Nat) (g : Group) : State :=
  (putBlock s d (blockOf g)).onLed fun l => { l with
    groups := l.groups.map fun x => if x.block = g.block then { x with onDrives := x.onDrives ++ [d] } else x }

theorem exec_journalBlockWriteDone {d : Nat} {g : Group} (hgroup : (s.led.groups.find? fun x => x.block == g.block) = some g) (hdrive : d ∈ writeDrives s)
    (hnew : d ∉ g.onDrives) : exec (.journalBlockWriteDone d g.block) s = .next (
      if g.source = 1 then mirrorWritten (blockWritten s d g) (g.home == nodeAddr s) else settle (blockWritten s d g)) := by
  have hgo : ((writeDrives s).contains d && !g.onDrives.contains d) = true := by
    simp only [List.contains_iff_mem.mpr hdrive, List.contains_eq_mem, hnew, decide_false, Bool.not_false, Bool.and_self]
  show execJournalBlockWriteDone d g.block s = _
  simp only [execJournalBlockWriteDone, hgroup, hgo, ↓reduceIte, done]
  rfl

theorem exec_driveWriteError {d : Nat} (h : (tget {} s.drives d).serving = true) :
    exec (.driveWriteError d) s = .next (dropDrive (observe s (0x28 + d) .retired 2 0x06) d true) := by
  show execDriveWriteError d s = _
  simp only [execDriveWriteError, h, Bool.true_or, State.when_true, done]

theorem exec_driveLost {d : Nat} (hd : d < 2) (h : (tget {} s.drives d).attached = true) (hunit : unitSt s (0x28 + d) ≠ .retired) :
    exec (.driveLost d) s = .next (dropDrive (onDrive (observe s (0x28 + d) .failed 2 0x0C) d fun x => { x with
      attached := false, ready := false, smart := [] }) d false) := by
  show execDriveLost d s = _
  simp only [execDriveLost, hd, h, bne_iff_ne.mpr hunit, decide_true, Bool.and_self, State.when_true, done]

/-! ### Mirrored groups -/

/-- A home with its authority and its stream settled takes every arriving group as its twin's (log entry 11). -/
theorem isOwnStream_settled (hauth : s.fab.ownAuth = true) (hsettled : s.led.settled = true) : isOwnStream s n = false := by
  simp only [isOwnStream, hauth, hsettled, Bool.and_self, ↓reduceIte]

theorem firstOfStream_ofTwin {a : Nat} (hcopy : s.fab.copying = false) : firstOfStream s false n a = s := by
  simp only [firstOfStream, hcopy, Bool.false_and, Bool.and_false, Bool.false_eq_true, ↓reduceIte]

/-- A group as its twin mirrors it. -/
def mirroredGroup (s : State) (e : BitVec 4) (n : Nat) (rs : List JRec) : Group := { seq := n, home := twinAddr s, source := 1, epoch := e, recs := rs }

/-- What the twin's group does by its place in the sequence: acknowledged again, taken with those that were early, or kept (06 R306). -/
theorem exec_mirrorJournalRx {e : BitVec 4} {a : Nat} {rs : List JRec} (htwin : hasTwin s = true) (hup : s.pow.mainUp = true) (hreplayed : s.led.replayed = true)
    (hlen : rs.length ≤ 252) (hoffer : s.fab.offer = none) (hauth : s.fab.ownAuth = true) (hsettled : s.led.settled = true) (hcopy : s.fab.copying = false) :
    exec (.mirrorJournalRx (twinAddr s) e n a rs) s = .next (
      if n ≤ lastMirrored s false then
        s.when (decide (n ≤ s.led.mirEnd)) fun s => sendTo s (twinAddr s) (.groupAck s.led.epoch s.led.mirEnd)
      else if n = lastMirrored s false + 1 then drainMirror (takeGroup s false (mirroredGroup s e n rs)) false (s.led.mirWrite.length + 1)
      else if s.led.mirWrite.any (fun x => x.home == twinAddr s && x.seq == n) then s
      else s.onLed fun l => { l with mirWrite := l.mirWrite ++ [mirroredGroup s e n rs] }) := by
  show execMirrorJournalRx (twinAddr s) e n a rs s = _
  simp only [execMirrorJournalRx, htwin, hup, hreplayed, hlen, hoffer, isOwnStream_settled hauth hsettled, firstOfStream_ofTwin hcopy, beq_self_eq_true,
    decide_true, Bool.and_self, State.when_true, Bool.false_eq_true, ↓reduceIte, done]
  rfl

theorem exec_groupAckRx (htwin : hasTwin s = true) (hauth : s.fab.twinAuth = false) (hsettled : s.led.settled = true) :
    exec (.groupAckRx (twinAddr s) s.led.epoch n) s = .next (trySettle (settle (((count s 0x4620).onLed fun l => { l with
      groups := l.groups.map fun g => if g.source == 0 && decide (g.seq ≤ n) then { g with acked := true } else g }).onFab
        fun b => { b with twinHas := n, twinKnown := true }))) := by
  have hsettled' : (count s 0x4620).led.settled = true := hsettled
  show execGroupAckRx (twinAddr s) s.led.epoch n s = _
  simp only [execGroupAckRx, htwin, hauth, hsettled', State.onFab_led, State.onLed_led, beq_self_eq_true, Bool.not_true, Bool.not_false, Bool.or_true, Bool.true_or,
    Bool.false_and, Bool.and_self, State.when_true, State.when_false, ↓reduceIte, done]

theorem exec_mirrorResendTimeout {g : Group} (hmirrors : mirrors s = true)
    (hgroup : (s.led.groups.find? fun x => x.seq == n && x.source != 1 && !x.acked && !x.dead) = some g) :
    exec (.mirrorResendTimeout n) s = .next (sendTo s (twinAddr s) (.mirrorGroup g.epoch g.seq (firstT g.recs) g.recs)) := by
  show execMirrorResendTimeout n s = _
  simp only [execMirrorResendTimeout, hmirrors, hgroup, State.when_true, done]

/-! ### Leases -/

/-- A ceiling goes to the record store only while the pages of both ledgers fit the slots (06 R279, R281). -/
theorem exec_leaseMirrorRx (htwin : hasTwin s = true) (hopening : s.led.opening = none) :
    exec (.leaseMirrorRx (twinAddr s) s.led.epoch n) s = .next (
      (s.onLed fun l => { l with twinAsked := max l.twinAsked n }).when (decide (pagesOf n + pagesOf s.led.ceil ≤ 2 ^ 26)) fun u =>
        enqueue u { src := .ledger, record :=
          { part := 1, typ := 0x0105, id := twinAddr s, payload := ceilPayload s.led.epoch (max n s.led.twinCeil) } }) := by
  show execLeaseMirrorRx (twinAddr s) s.led.epoch n s = _
  simp only [execLeaseMirrorRx, htwin, hopening, State.onLed_led, beq_self_eq_true, Bool.and_self, State.when_true, done]
  rfl

/-- The acknowledgement of the ceiling that is being opened ends the wait for it, a higher one begins the opening again (02 R53, R55; log entry 117). -/
theorem exec_leaseAckRx {o : LeaseSt} (htwin : hasTwin s = true) (hopening : s.led.opening = some o) :
    exec (.leaseAckRx (twinAddr s) s.led.epoch n) s = .next (
      let u := s.onLed fun l => { l with ceilAtTwin := max l.ceilAtTwin n }
      if (o.n + 1) * 65536 = n then tryLease (u.onLed fun l => { l with opening := some { o with acked := true } })
      else if (o.n + 1) * 65536 < n then openLease (u.onLed fun l => { l with opening := none, reopen := none })
      else u) := by
  show execLeaseAckRx (twinAddr s) s.led.epoch n s = _
  simp only [execLeaseAckRx, htwin, hopening, State.onLed_led, beq_self_eq_true, Bool.and_self, State.when_true, done]

/-! ### Timeouts -/

theorem exec_durabilityTimeout_request {l c : Nat} {r : Req} (hl : l < 16) (h : Stands s l c .durable r ∨ Stands s l c .ledger r) :
    exec (.durabilityTimeout l c) s = .next (endReq s r .durabilityTimeout) := by
  have hreq : getReq s (reqKey l c) = some r := h.elim And.left And.left
  have hstage : r.stage = .durable ∨ r.stage = .ledger := h.imp And.right And.right
  show execDurabilityTimeout l c s = _
  simp only [execDurabilityTimeout, ge_iff_le, Nat.not_le.mpr hl, hreq, hstage, ↓reduceIte, done]

theorem exec_durabilityTimeout_command {l c : Nat} (hl : 16 ≤ l)
    (h : s.hq.ctlWait.kind = .void ∨ s.hq.ctlWait.kind = .query ∨ (s.hq.ctlWait.kind = .roll ∧ s.led.rollHeld.isSome = true)) :
    exec (.durabilityTimeout l c) s = .next (endWait (s.onLed fun l => { l with rollHeld := none }) .durabilityTimeout) := by
  show execDurabilityTimeout l c s = _
  rw [execDurabilityTimeout, if_pos hl, if_pos h, done]

theorem exec_rollConfirmTimeout (h : s.fab.rollAsk = true) : exec .rollConfirmTimeout s = .next (
    if s.hq.ctlWait.kind = .roll then endWait (s.onFab fun b => { b with rollAsk := false }) .durabilityTimeout
    else irqMain (s.onFab fun b => { b with rollAsk := false, busy := false, done := true, code := .durabilityTimeout }) 14) := by
  show execRollConfirmTimeout s = _
  simp only [execRollConfirmTimeout, h, State.when_true, done]
  rfl

end Sys2Proof.Machine
end

section
/-! SUPPORT. What a checkpoint's rows, the rewriting of void entries and the passback rebuild do (05 R264, 06 R321-R329). -/

namespace Sys2Proof.Machine

variable {s : State} {n : Nat}

/-! ### Checkpoints -/

/-- A checkpoint is owed: due, or after 2^20 records, or after 60 s (06 R324). -/
def ckptOwed (s : State) : Prop := s.led.ckptDue = true ∨ 2 ^ 20 ≤ s.led.sinceCkpt ∨ 60000000 ≤ s.time.clk - s.led.ckptAt

theorem ckptOwed_iff : ckptOwed s ↔ (decide (s.time.clk - s.led.ckptAt ≥ 60000000 ∨ s.led.sinceCkpt ≥ 2 ^ 20) || s.led.ckptDue) = true := by
  simp only [ckptOwed, Bool.or_eq_true, decide_eq_true_eq, ge_iff_le]
  tauto

theorem exec_checkpointStart_owed (h : ckptOwed s) : exec .checkpointStart s = .next (
    if s.pow.state = .nap then s.onLed fun l => { l with ckptDue := true } else s.when s.pow.mainUp startCheckpoint) := by
  show execCheckpointStart s = _
  rw [execCheckpointStart, ckptOwed_iff.mp h, State.when_true, done]

theorem exec_checkpointStart_notOwed (h : ¬ckptOwed s) : exec .checkpointStart s = .next s := by
  show execCheckpointStart s = _
  rw [execCheckpointStart, Bool.eq_false_iff.mpr (mt ckptOwed_iff.mpr h), State.when_false, done]

/-- A checkpoint that is owed takes the next number, with p after the groups that were open (06 R324; log entry 115). -/
theorem completes_checkpointStart (h : ckptOwed s) (hstate : s.pow.state ≠ .nap) (hup : s.pow.mainUp = true) (hrun : s.led.ckptRun = none)
    (hreplayed : s.led.replayed = true) : Completes .checkpointStart s [.led, .drives, .tele, .fab, .out] fun t =>
      offPages t.led = offPages (ckptBegun (closeOpen s)) := by
  have hexec := exec_checkpointStart_owed h
  rw [if_neg hstate, hup, State.when_true] at hexec
  exact ⟨_, hexec, startCheckpoint_begins hrun hreplayed, keeps_startCheckpoint s⟩

theorem keeps_writeCkpt (s : State) (d : Nat) (c : Ckpt) : Keeps [.drives, .out] s (writeCkpt s d c) :=
  ((keeps_onDrives s _).mono (by simp)).trans ((keeps_onOut _ _).mono (by simp))

theorem keeps_writeMeta (s : State) (d c : Nat) : Keeps [.drives, .out] s (writeMeta s d c) := by
  have hput : ∀ (f : Nat → NvmeCmd) (ns : List Nat) (u : State), Keeps [.out] u (ns.foldl (fun u n => nvme u [d] (f n)) u) :=
    fun f ns u => .foldl (fun v _ => keeps_onOut v _) ns u
  exact (((hput _ _ s).trans (hput _ _ _)).mono (by simp)).trans ((keeps_onDrives _ _).mono (by simp))

theorem keeps_putPage (s : State) (d slot : Nat) (es : Tbl LState) : Keeps [.drives, .out] s (putPage s d slot es) :=
  ((keeps_onDrives s _).mono (by simp)).trans ((keeps_onOut _ _).mono (by simp))

theorem keeps_writePages (s : State) (d : Nat) : Keeps [.drives, .out] s (writePages s d) := .foldl (fun u slot => keeps_putPage u d slot _) _ s

/-- What a checkpoint writes to its drives leaves everything else alone. -/
theorem keeps_ckptWrites (s : State) (c : Ckpt) :
    Keeps [.drives, .out] s ((writeDrives s).foldl (fun u d => writeCkpt (writeMeta (writePages u d) d (c.k % 2)) d c) s) :=
  .foldl (fun u d => ((keeps_writePages u d).trans (keeps_writeMeta _ d _)).trans (keeps_writeCkpt _ d c)) _ s

/-- With every block before p in place, the checkpoint has its root and its tag, and is written (06 R327). -/
theorem exec_checkpointWritesDone {c : Ckpt} (hrun : s.led.ckptRun = some c) (hwritten : s.led.ckptWritten = false)
    (hblocks : ∀ g ∈ s.led.groups, g.block < c.p → if g.source = 1 ∨ g.dead = true then onServing s g = true else g.durable = true) :
    let d := { c with root := s.led.root }
    ∃ t, exec .checkpointWritesDone s = .next t ∧ t.led.ckptWritten = true ∧ t.led.ckptRun = some { d with tag := ckptTag s d } := by
  intro d
  have hgo : (s.led.ckptWritten || s.led.groups.any fun g =>
      decide (g.block < c.p) && (if g.source = 1 ∨ g.dead then !onServing s g else !g.durable)) = false := by
    rw [hwritten, Bool.false_or, List.any_eq_false]
    intro g hg hlacks
    obtain ⟨hbefore, hopen⟩ := Bool.and_eq_true_iff.mp hlacks
    have hblock := hblocks g hg (of_decide_eq_true hbefore)
    by_cases hmirror : g.source = 1 ∨ g.dead = true
    · rw [if_pos hmirror] at hopen hblock
      simp [hblock] at hopen
    · rw [if_neg hmirror] at hopen hblock
      simp [hblock] at hopen
  have hexec : exec .checkpointWritesDone s = execCheckpointWritesDone s := rfl
  simp only [execCheckpointWritesDone, hrun, hgo, Bool.false_eq_true, ↓reduceIte, done] at hexec
  refine ⟨_, hexec, ?_, ?_⟩ <;> rw [show (enqueue _ _).led = _ from keeps_enqueue _ _ .led (by simp)] <;> rfl

/-! ### Void rewriting -/

/-- In a canonical table, reading a value other than the default is having it listed. -/
theorem mem_iff_tget {α : Type} [DecidableEq α] {d : α} {k : Nat} {v : α} (hv : v ≠ d) : ∀ {t : Tbl α}, twf d t = true → ((k, v) ∈ t ↔ tget d t k = v)
  | [], _ => by simpa [tget] using hv.symm
  | (j, w) :: t, h => by
    have ih := mem_iff_tget (k := k) hv (twf_tail h)
    by_cases hj : j = k
    · subst hj
      have hgone : (j, v) ∉ t := fun hin => hv ((ih.mp hin).symm.trans (tget_below (twf_tail h) (twf_lt h)))
      simp [tget, hgone, eq_comm]
    · simp [tget, hj, Ne.symm hj, ih]

/-- The own serials of a page whose entries VOID_REWRITE_PAGE closes (06 R321). -/
def voidCovered (s : State) (page : Nat) : List Nat :=
  (s.led.own.filter fun p => decide (p.1 / 16384 = page) && (p.2 == .live || p.2 == .inside) && inRanges (voidIdx s true) p.1).map Prod.fst

theorem mem_voidCovered (hform : twf .unissued s.led.own = true) (x : Nat) : x ∈ voidCovered s n ↔
    x / 16384 = n ∧ (rawEntry s true x = .live ∨ rawEntry s true x = .inside) ∧ inRanges (voidIdx s true) x = true := by
  have hlive : (x, .live) ∈ s.led.own ↔ rawEntry s true x = .live := mem_iff_tget (by decide) hform
  have hinside : (x, .inside) ∈ s.led.own ↔ rawEntry s true x = .inside := mem_iff_tget (by decide) hform
  rw [← hlive, ← hinside]
  simp only [voidCovered, List.mem_map, List.mem_filter, Bool.and_eq_true, Bool.or_eq_true, decide_eq_true_eq, beq_iff_eq, Prod.exists, exists_and_right,
    exists_eq_right]
  constructor
  · rintro ⟨e, hmem, ⟨hpage, rfl | rfl⟩, hrange⟩
    · exact ⟨hpage, .inl hmem, hrange⟩
    · exact ⟨hpage, .inr hmem, hrange⟩
  · rintro ⟨hpage, hmem | hmem, hrange⟩
    · exact ⟨.live, hmem, ⟨hpage, .inl rfl⟩, hrange⟩
    · exact ⟨.inside, hmem, ⟨hpage, .inr rfl⟩, hrange⟩

/-- A page's entries as everyone sees them: CLOSED where a void range covers a LIVE or INSIDE entry (06 R319). -/
theorem entry_of_voidCovered (hform : twf .unissued s.led.own = true) {x : Nat} (hpage : x / 16384 = n) :
    entry s true x = if x ∈ voidCovered s n then .closed else rawEntry s true x := by
  simp only [mem_voidCovered hform, hpage, true_and, entry]
  cases rawEntry s true x <;> simp

/-- The entries of a list of own serials are closed. -/
def closeEntries (s : State) (xs : List Nat) : State := xs.foldl (fun s x => setEntry s true x .closed) s

theorem keeps_closeEntries (s : State) (xs : List Nat) : Keeps [.led] s (closeEntries s xs) := .foldl (fun u x => keeps_setEntry u true x _) xs s

theorem closeEntries_rest (s : State) (xs : List Nat) :
    (closeEntries s xs).led.rewritePage = s.led.rewritePage ∧ ∀ x, rawEntry (closeEntries s xs) false x = rawEntry s false x :=
  ⟨foldl_same (f := fun s x => setEntry s true x .closed) (·.led.rewritePage) (fun _ _ => rfl) xs s,
    fun x => foldl_same (f := fun s x => setEntry s true x .closed) (rawEntry · false x) (fun _ _ => rfl) xs s⟩

theorem rawEntry_setEntry_closed (s : State) (x y : Nat) : rawEntry (setEntry s true x .closed) true y = if y = x then .closed else rawEntry s true y := by
  split
  · next hy => exact hy ▸ tget_tput_self (by decide) y _
  · next hy => exact tget_tput_ne hy _

theorem rawEntry_closeEntries (y : Nat) : ∀ (xs : List Nat) (s : State),
    rawEntry (closeEntries s xs) true y = if y ∈ xs then .closed else rawEntry s true y
  | [], s => by simp [closeEntries]
  | x :: xs, s => by
    rw [show closeEntries s (x :: xs) = closeEntries (setEntry s true x .closed) xs from rfl, rawEntry_closeEntries y xs, rawEntry_setEntry_closed]
    by_cases hxs : y ∈ xs <;> simp [hxs]

theorem exec_voidRewritePage (hpage : s.led.rewritePage = n) (hown : n < pagesOf s.led.ceil) :
    exec .voidRewritePage s = .next (closeEntries (s.onLed fun l => { l with rewritePage := n + 1 }) (voidCovered s n)) := by
  show execVoidRewritePage s = _
  simp only [execVoidRewritePage, hpage, hown, Nat.lt_add_right _ hown, decide_true, ↓reduceIte, done]
  rfl

/-! ### The passback rebuild -/

theorem exec_passbackRebuildBlock_none {q : Nat} (hq : s.led.rebuildQ = some q) (h : blockHeld s q = none) :
    exec .passbackRebuildBlock s = .next (s.onLed fun l => { l with rebuildQ := none }) := by
  show execPassbackRebuildBlock s = _
  simp only [execPassbackRebuildBlock, hq, h, Option.bind_some, Option.map_none, done]

theorem exec_passbackRebuildBlock {q : Nat} {b : JBlock} (hq : s.led.rebuildQ = some q) (h : blockHeld s q = some b) :
    exec .passbackRebuildBlock s = .next (if exitsFull s then s.onLed fun l => { l with rebuildQ := none }
      else if oldBlock s b then rebuildOld s else rebuildBlock s q b) := by
  show execPassbackRebuildBlock s = _
  simp only [execPassbackRebuildBlock, hq, h, Option.bind_some, Option.map_some, done]

end Sys2Proof.Machine
end

section
/-! OBLIGATIONS. Groups, mirrors, leases and checkpoints. -/

namespace Sys2Proof.Machine

/-- Settles O29, row by row: the tick and the block writes, drive faults, mirrored groups, leases, timeouts, checkpoints, the rewriting of void entries, the
rebuild. -/
theorem groupsAndMirrorsAct : Obligations.GroupsAndMirrorsAct := by
  refine ⟨fun s => ?_, fun s d g => exec_journalBlockWriteDone, fun s d => exec_driveWriteError, fun s d => exec_driveLost,
    fun s e n a rs htwin hup hreplayed hlen hoffer hauth hsettled hcopy => ?_, fun s n => exec_groupAckRx, fun s n g => exec_mirrorResendTimeout,
    fun s n htwin hopening hfits => ?_, fun s n htwin hopening hover => ?_, fun s n o htwin hopening => ?_, fun s l c r => exec_durabilityTimeout_request,
    fun s l c => exec_durabilityTimeout_command, fun s => exec_rollConfirmTimeout, fun s => ⟨fun howed hnap => ?_, exec_checkpointStart_notOwed,
      fun howed hstate hup hrun hreplayed => ?_⟩, fun s c => exec_checkpointWritesDone, fun s n hpage hown hform => ?_, fun s q hq => ?_⟩
  · obtain ⟨t, hexec, ⟨hown, hauth, hnext, hnextAuth, hgroups⟩, hkeep⟩ := completes_groupTick s
    refine ⟨t, hexec, ⟨hown, hauth, fun h => ?_, fun h => ?_⟩, hkeep⟩
    · rw [hnext, hgroups]
      exact closeOpen_sealsOwn h
    · rw [hnextAuth, hgroups]
      exact closeOpen_sealsAuth h
  · have hexec := exec_mirrorJournalRx (n := n) (e := e) (a := a) htwin hup hreplayed hlen hoffer hauth hsettled hcopy
    refine ⟨fun hnext => ?_, fun hearlier hheld => ?_, fun hlater hnew => ?_⟩
    · rw [hexec, if_neg (by omega), if_pos hnext]
      rfl
    · rw [hexec, if_pos hearlier, decide_eq_true hheld, State.when_true]
    · have hfresh : ¬(s.led.mirWrite.any fun x => x.home == twinAddr s && x.seq == n) = true := by simpa using hnew
      rw [hexec, if_neg (by omega), if_neg (by omega), if_neg hfresh]
      rfl
  · rw [exec_leaseMirrorRx htwin hopening, decide_eq_true hfits, State.when_true]
  · rw [exec_leaseMirrorRx htwin hopening, decide_eq_false (Nat.not_le.mpr hover), State.when_false]
  · have hexec := exec_leaseAckRx (n := n) htwin hopening
    exact ⟨fun hsame => hexec.trans (congrArg _ (if_pos hsame)),
      fun hhigher => hexec.trans (congrArg _ ((if_neg hhigher.ne).trans (if_pos hhigher))),
      fun hlower => hexec.trans (congrArg _ ((if_neg hlower.ne').trans (if_neg hlower.not_gt)))⟩
  · rw [exec_checkpointStart_owed howed, if_pos hnap]
  · obtain ⟨t, hexec, hled, hkeep⟩ := completes_checkpointStart howed hstate hup hrun hreplayed
    obtain ⟨hown, hauth⟩ := closeOpen_open s
    obtain ⟨hlast, hvoid⟩ := closeOpen_ckptLast_voidOwn s
    have hseq : t.led.blockSeq = (closeOpen s).led.blockSeq := (congrArg LedgerSt.blockSeq hled :)
    have hchain : t.led.chain = (closeOpen s).led.chain := (congrArg LedgerSt.chain hled :)
    exact ⟨t, hexec, ⟨(congrArg LedgerSt.ckptDue hled :), (congrArg LedgerSt.sinceCkpt hled :), (congrArg LedgerSt.openGroup hled :).trans hown,
      (congrArg LedgerSt.openAuth hled :).trans hauth, ckptAtStart (closeOpen s), (congrArg LedgerSt.ckptRun hled :), congrArg (· + 1) (congrArg Ckpt.k hlast),
      closeOpen_blockSeq s, hseq.symm, hchain.symm, hvoid⟩, hkeep⟩
  · refine ⟨_, exec_voidRewritePage hpage hown, ⟨(closeEntries_rest _ _).1, fun x hx => ?_, fun x hx => ?_, fun x => (closeEntries_rest _ _).2 x⟩,
      (keeps_onLed s _).trans (keeps_closeEntries _ _)⟩
    · rw [rawEntry_closeEntries, entry_of_voidCovered hform hx]
      rfl
    · rw [rawEntry_closeEntries, if_neg fun hmem => hx ((mem_voidCovered hform x).mp hmem).1]
      rfl
  · refine ⟨fun hstops => ?_, fun b hblock hroom => ?_⟩
    · cases hblock : blockHeld s q with
      | none => exact exec_passbackRebuildBlock_none hq hblock
      | some b =>
        have hfull : exitsFull s = true := decide_eq_true (hstops.resolve_left (by simp [hblock]))
        rw [exec_passbackRebuildBlock hq hblock, if_pos hfull]
    · have hfits : ¬exitsFull s = true := by simpa [exitsFull] using hroom
      rw [exec_passbackRebuildBlock hq hblock, if_neg hfits]

end Sys2Proof.Machine
end

section
/-! SUPPORT. What the commands of the ledger window do once their write reaches the window (06 R318-R324, R341, R342, 09 R487, R489). -/

namespace Sys2Proof.Machine

variable {s : State} {c : CoreId}

/-! ### A command starts -/

theorem ledSerial_ledStart (s : State) (i : Nat) : ledSerial (ledStart s) i = ledSerial s i := by simp only [ledSerial, ledStart, State.onLed_led]

theorem checkQuery_ledStart (s : State) (g : Nat) : checkQuery (ledStart s) g = checkQuery s g := by
  rw [checkQuery, checkQuery, show decidesFor (ledStart s) = decidesFor s from rfl, show (ledStart s).led.epoch = s.led.epoch from rfl]

theorem exec_ledQuery (h : Reaches s c 0x8C00 true) (hfree : ledTaken s = false) :
    exec (.ledQuery c) s = .next (match checkQuery s (ledSerial s 0) with
      | some e => ledFail (ledStart s) e.1
      | none => startQuery (ledStart s) (ledSerial s 0) true) := by
  show execLedQuery c s = _
  simp only [execLedQuery, winCmd_of_reaches h, ledCmd, hfree, Bool.false_eq_true, ↓reduceIte, checkQuery_ledStart, ledSerial_ledStart, done] <;> rfl

theorem exec_ledVoid (h : Reaches s c 0x8C00 true) (hfree : ledTaken s = false) :
    exec (.ledVoid c) s = .next (match startVoid (ledStart s) (ledSerial s 0) (ledSerial s 1) true with
      | .error e => ledFail (ledStart s) e.1
      | .ok t => t) := by
  show execLedVoid c s = _
  simp only [execLedVoid, winCmd_of_reaches h, ledCmd, hfree, Bool.false_eq_true, ↓reduceIte, ledSerial_ledStart, done] <;> rfl

/-- A roll that passes the two checks the window makes starts (06 R341 check 1). -/
theorem ledRoll_starts (hnext : (tget 0 s.led.ledArgs 0).toNat = (s.led.epoch.toNat + 1) % 16) (htwin : s.fab.twinAuth = false) (hown : s.fab.ownAuth = true) :
    let e := BitVec.ofNat 4 (tget 0 s.led.ledArgs 0).toNat
    ledRoll s = startRoll (setWait s { kind := .roll, home := nodeAddr s, epoch := e, viaLed := true }) e := by
  have hpasses : ¬((tget 0 s.led.ledArgs 0).toNat ≠ (s.led.epoch.toNat + 1) % 16 ∨ s.fab.twinAuth = true ∨ (!s.fab.ownAuth) = true) := by
    rw [not_or, not_or, htwin, hown]
    exact ⟨not_not_intro hnext, Bool.false_ne_true, Bool.false_ne_true⟩
  exact if_neg hpasses

theorem exec_ledRoll (h : Reaches s c 0x8C00 true) (hfree : ledTaken s = false) : exec (.ledRoll c) s = .next (ledRoll (ledStart s)) := by
  show execLedRoll c s = _
  rw [execLedRoll, winCmd_of_reaches h, ledCmd, hfree, if_neg Bool.false_ne_true]
  rfl

/-! ### LED_CHECKPOINT -/

/-- Closing a group leaves the window's command as it is. -/
theorem closeGroup_ledBusy (s : State) (own : Bool) : (closeGroup s own).led.ledBusy = s.led.ledBusy := by
  by_cases h : openRecs s own = []
  · rw [closeGroup_none h]
  · rw [closeGroup_led h]
    cases own <;> rfl

theorem closeOpen_ledBusy (s : State) : (closeOpen s).led.ledBusy = s.led.ledBusy := (closeGroup_ledBusy _ false).trans (closeGroup_ledBusy s true)

/-- LED_CHECKPOINT runs, and its end waits for the checkpoint's. -/
def ledCkptRuns (s : State) : State := (ledStart s).onLed fun l => { l with ledCkpt := true }

theorem keeps_ledCkptRuns (s : State) : Keeps [.led] s (ledCkptRuns s) := (keeps_onLed s _).trans (keeps_onLed _ _)

theorem exec_ledCheckpoint (h : Reaches s c 0x8C00 true) (hfree : ledTaken s = false) :
    exec (.ledCheckpoint c) s = .next (startCheckpoint (ledCkptRuns s)) := by
  show execLedCheckpoint c s = _
  rw [execLedCheckpoint, winCmd_of_reaches h, ledCmd, hfree, if_neg Bool.false_ne_true]
  rfl

/-- A checkpoint by the window takes the next number, with p after the groups that were open (06 R324; log entry 115). -/
theorem completes_ledCheckpoint (h : Reaches s c 0x8C00 true) (hfree : ledTaken s = false) (hrun : s.led.ckptRun = none) (hreplayed : s.led.replayed = true) :
    Completes (.ledCheckpoint c) s [.led, .drives, .tele, .fab, .out] fun t =>
      t.led.ledBusy = true ∧ t.led.ckptDue = false ∧ ∃ k, t.led.ckptRun = some k ∧ k.k = s.led.ckptLast.k + 1 ∧
        k.p = s.led.blockSeq + (if s.led.openGroup = [] then 0 else 1) + (if s.led.openAuth = [] then 0 else 1) := by
  have hbegins : offPages (startCheckpoint (ledCkptRuns s)).led = offPages (ckptBegun (closeOpen (ledCkptRuns s))) := startCheckpoint_begins hrun hreplayed
  have hlast := (closeOpen_ckptLast_voidOwn (ledCkptRuns s)).1
  refine ⟨_, exec_ledCheckpoint h hfree, ⟨(congrArg LedgerSt.ledBusy hbegins).trans (closeOpen_ledBusy _), (congrArg LedgerSt.ckptDue hbegins :),
    ckptAtStart (closeOpen (ledCkptRuns s)), (congrArg LedgerSt.ckptRun hbegins :), congrArg (· + 1) (congrArg Ckpt.k hlast), closeOpen_blockSeq _⟩, ?_⟩
  exact ((keeps_ledCkptRuns s).mono (by simp)).trans (keeps_startCheckpoint _)

/-! ### LED_COMMAND_END -/

theorem exec_ledCommandEnd (hbusy : s.led.ledBusy = true) (hwait : s.hq.ctlWait.kind = .none) (hckpt : s.led.ledCkpt = false) :
    exec .ledCommandEnd s = .next (irqMain (s.onLed fun l => { l with ledBusy := false, ledDone := true }) 13) := by
  show execLedCommandEnd s = _
  simp only [execLedCommandEnd, hbusy, hwait, hckpt, Bool.not_true, Bool.false_eq_true, ↓reduceIte, done]

end Sys2Proof.Machine
end

section
/-! OBLIGATIONS. The ledger window. -/

namespace Sys2Proof.Machine

/-- Settles O10, command by command: what each starts from a free window, and the end of one that waits for nothing. -/
theorem ledgerWindowCommandsAct : Obligations.LedgerWindowCommandsAct := by
  refine ⟨fun s c => exec_ledQuery, fun s c => exec_ledVoid, fun s c => ?_, fun s c => completes_ledCheckpoint,
    fun s => exec_ledCommandEnd⟩
  intro e hreach hfree hnext htwin hown
  exact (exec_ledRoll hreach hfree).trans (congrArg _ (ledRoll_starts (s := ledStart s) hnext htwin hown))

end Sys2Proof.Machine
end

section
/-! SUPPORT. What the publishing, fabric and drive windows do (06 R335, R336, R341, 07 R397, R402, R412, 09 R487-R490). -/

namespace Sys2Proof.Machine

variable {s : State} {c : CoreId}

/-! ### Publishing -/

theorem exec_hbmPublish (h : Reaches s c 0xB403 true) (hfree : s.hbm.pubBusy = false) :
    exec (.hbmPublish c) s = .next (s.onHbm fun h => { h with
      pubBusy := true, pubDone := false, pubWait := eventReaders s, pubRun := some (h.pubEvent.toNat, h.pubPtr.toNat) }) := by
  show execHbmPublish c s = _
  rw [execHbmPublish, winCmd_of_reaches h, hbmPublish, hfree, Bool.not_false, State.when_true, done]

theorem exec_hbmPublishEnd (s : State) : exec .hbmPublishEnd s = .next (endPublishes (pubEnd s)) := rfl

/-- None of the requests that a publish remembers stands where it stood. -/
theorem any_readers_eq_false {ws : List (Nat × Nat × Nat)} (h : ∀ x ∈ ws, x ∉ eventReaders s) : ws.any (eventReaders s).contains = false := by
  rw [List.any_eq_false]
  exact fun x hx hin => h x hx (List.contains_iff_mem.mp hin)

theorem pubEnd_none (h : s.hbm.pubRun = none) : pubEnd s = s := by rw [pubEnd, h]

/-- The directory entry named is written (09 R488). -/
theorem pubEnd_ends {i p : Nat} (hrun : s.hbm.pubRun = some (i, p)) (hgone : ∀ x ∈ s.hbm.pubWait, x ∉ eventReaders s) :
    pubEnd s = irqMain (s.onHbm fun h => { h with
      pubBusy := false, pubDone := true, pubWait := [], pubRun := none, dir := tput 0 h.dir i (if p = 0xFFFFFFFF then 0 else p + 1) }) 16 := by
  simp only [pubEnd, hrun, any_readers_eq_false hgone, Bool.false_eq_true, ↓reduceIte]

/-- The publishes at the head of the queue that may end: every request that stood in an event-reading stage has left it. -/
def endingPublishes (s : State) : List Publish := s.hbm.publishing.takeWhile fun p => !p.waits.any (eventReaders s).contains

theorem endPublishes_eq {gone : List Publish} (h : endingPublishes s = gone) :
    endPublishes s =
      let t := gone.foldl applyPublish (s.onHbm fun h => { h with publishing := h.publishing.drop gone.length })
      t.when (!gone.isEmpty && t.hbm.publishing.isEmpty && t.hq.ctlHeld && t.hq.ctlFor == .publish) fun s => endCtl s .done := by
  subst h
  rfl

/-- While a request stands where the publish at the head of the queue found it, no publish ends. -/
theorem endPublishes_none (h : ∀ p, s.hbm.publishing.head? = some p → ∃ x ∈ p.waits, x ∈ eventReaders s) : endPublishes s = s := by
  have hnone : endingPublishes s = [] := by
    unfold endingPublishes
    cases hqueue : s.hbm.publishing with
    | nil => rfl
    | cons p ps =>
      obtain ⟨x, hx, hstands⟩ := h p (by rw [hqueue, List.head?_cons])
      have hany : p.waits.any (eventReaders s).contains = true := List.any_eq_true.mpr ⟨x, hx, List.contains_iff_mem.mpr hstands⟩
      exact List.takeWhile_cons_of_neg (by rw [hany]; exact Bool.false_ne_true)
  rw [endPublishes_eq hnone]
  rfl

/-- Only the event table changes when a publish takes effect. -/
theorem applyPublish_rest (s : State) (p : Publish) : (applyPublish s p).hq = s.hq ∧ (applyPublish s p).hbm.publishing = s.hbm.publishing := by
  unfold applyPublish
  cases (p.epoch == s.led.epoch) <;> exact ⟨rfl, rfl⟩

/-- The last publish ends: its change is made, and the request that waits for it completes DONE. -/
theorem endPublishes_last {p : Publish} (hqueue : s.hbm.publishing = [p]) (hgone : ∀ x ∈ p.waits, x ∉ eventReaders s) (hheld : s.hq.ctlHeld = true)
    (hfor : s.hq.ctlFor = .publish) : endPublishes s = endCtl (applyPublish (s.onHbm fun h => { h with publishing := [] }) p) .done := by
  have hends : endingPublishes s = [p] := by
    rw [endingPublishes, hqueue]
    exact List.takeWhile_cons_of_pos (by rw [any_readers_eq_false hgone]; rfl)
  have htaken : (s.onHbm fun h => { h with publishing := h.publishing.drop [p].length }) = s.onHbm fun h => { h with publishing := [] } := by
    simp only [State.onHbm, hqueue, List.length_singleton, List.drop_one, List.tail_cons]
  obtain ⟨hhq, hempty⟩ := applyPublish_rest (s.onHbm fun h => { h with publishing := [] }) p
  rw [State.onHbm_hq] at hhq
  rw [State.onHbm_hbm] at hempty
  rw [endPublishes_eq hends, htaken]
  simp only [List.foldl_cons, List.foldl_nil, hempty, hhq, hheld, hfor, List.isEmpty_cons, List.isEmpty_nil, Bool.not_false, beq_self_eq_true, Bool.and_self,
    State.when_true]

/-! ### The fabric window -/

theorem fabStart_arg0 (s : State) : (fabStart s).fab.arg0 = s.fab.arg0 := rfl

theorem checkHandBack_fabStart (s : State) (home term : Nat) : checkHandBack (fabStart s) home term = checkHandBack s home term := by
  rw [checkHandBack, checkHandBack, show decidesFor (fabStart s) = decidesFor s from rfl, show viewOf (fabStart s) = viewOf s from rfl,
    show nodeAddr (fabStart s) = nodeAddr s from rfl, show isMember (fabStart s) = isMember s from rfl,
    show (fabStart s).fab.twinShadowOk = s.fab.twinShadowOk from rfl]

section
variable (hreach : Reaches s c 0x9400 true) (hfree : fabTaken s = false)
include hreach hfree

theorem exec_fabCmdHandBack :
    exec (.fabCmdHandBack c) s = .next (match checkHandBack s (s.fab.arg0.toNat % 4096) s.fab.arg1.toNat with
      | some e => fabCode (fabStart s) e.1
      | none => startHandBack (fabStart s) (s.fab.arg0.toNat % 4096) true) := by
  have harg1 : (fabStart s).fab.arg1 = s.fab.arg1 := rfl
  show execFabCmdHandBack c s = _
  simp only [execFabCmdHandBack, winCmd_of_reaches hreach, fabCmd, hfree, Bool.false_eq_true, ↓reduceIte, checkHandBack_fabStart, fabStart_arg0, harg1, done]
    <;> rfl

theorem exec_fabCmdWithdraw : exec (.fabCmdWithdraw c) s = .next (withdraw (fabStart s)) := by
  show execFabCmdWithdraw c s = _
  simp only [execFabCmdWithdraw, winCmd_of_reaches hreach, fabCmd, hfree, Bool.false_eq_true, ↓reduceIte, done]

theorem exec_fabCmdKeyRequest : exec (.fabCmdKeyRequest c) s = .next (fabKeyRequest (fabStart s)) := by
  show execFabCmdKeyRequest c s = _
  simp only [execFabCmdKeyRequest, winCmd_of_reaches hreach, fabCmd, hfree, Bool.false_eq_true, ↓reduceIte, done]

theorem exec_fabCmdRollQuery : exec (.fabCmdRollQuery c) s = .next (fabRollQuery (fabStart s)) := by
  show execFabCmdRollQuery c s = _
  simp only [execFabCmdRollQuery, winCmd_of_reaches hreach, fabCmd, hfree, Bool.false_eq_true, ↓reduceIte, done]

end

/-- A key is asked for in ENROLLED, OPERATIONAL and VEILED (10 R587). -/
theorem fabKeyRequest_asks (htwin : hasTwin s = true) (hnone : s.fab.keyReq = none) (hcycle : lifecycle s = 2 ∨ lifecycle s = 3 ∨ lifecycle s = 4) :
    fabKeyRequest s = askKey s (s.fab.arg0.toNat % 1024) 0 := by
  simp only [fabKeyRequest, htwin, hnone, hcycle, Option.isSome_none, Bool.not_true, Bool.or_self, Bool.false_eq_true, ↓reduceIte]

/-- The twin is asked while it is a member (06 R341 check 7). -/
theorem fabRollQuery_asks (htwin : hasTwin s = true) (hmember : s.fab.twinMember = true) :
    fabRollQuery s = sendTo (s.onFab fun b => { b with rollAsk := true }) (twinAddr s)
      (member s .rollQuery (nodeAddr s) (viewOf s (nodeAddr s)).term ((s.led.epoch.toNat + 1) % 16)) := by
  simp only [fabRollQuery, htwin, hmember, Bool.not_true, Bool.or_self, Bool.false_eq_true, ↓reduceIte]

theorem exec_fabCommandEnd (hbusy : s.fab.busy = true) (hwait : s.hq.ctlWait.kind ≠ .handBack) (hroll : s.fab.rollAsk = false) (hkey : s.fab.keyReq = none) :
    exec .fabCommandEnd s = .next (irqMain (s.onFab fun b => { b with busy := false, done := true }) 14) := by
  show execFabCommandEnd s = _
  simp only [execFabCommandEnd, hbusy, bne_iff_ne.mpr hwait, hroll, hkey, Option.isNone_none, Bool.not_false, Bool.and_self, State.when_true, done]
  rfl

/-! ### Drives -/

/-- The two commands of NVME_CMD as words: [0] the drive, [7:4] the command (09 R490). -/
theorem nvmeCmd_attach {d : Nat} (hd : d < 2) : nvmeCmd s (BitVec.ofNat 32 (d % 2 + 16)) = nvmeAttach s d := by
  obtain rfl | rfl : d = 0 ∨ d = 1 := by omega
  · rfl
  · rfl

theorem nvmeCmd_retire {d : Nat} (hd : d < 2) : nvmeCmd s (BitVec.ofNat 32 (d % 2 + 32)) = dropDrive s d true := by
  obtain rfl | rfl : d = 0 ∨ d = 1 := by omega
  · rfl
  · rfl

theorem exec_nvmeAttachResilver {d : Nat} (hc : c ≠ .g) (hd : d < 2) (h : Reaches s c 0xB000 true) (hserving : (tget {} s.drives d).serving = false)
    (hidle : (tget {} s.drives d).resilver = 0) : exec (.nvmeAttachResilver c d) s = .next (onDrive s d fun x => { x with resilver := 1 }) := by
  show execNvmeAttachResilver c d s = _
  rw [execNvmeAttachResilver, bne_iff_ne.mpr hc, State.when_true, winCmd_of_reaches h, nvmeCmd_attach hd, nvmeAttach, hserving, hidle, done]
  rfl

theorem exec_nvmeRetire {d : Nat} (hc : c ≠ .g) (hd : d < 2) (h : Reaches s c 0xB000 true) :
    exec (.nvmeRetire c d) s = .next (dropDrive s d true) := by
  show execNvmeRetire c d s = _
  rw [execNvmeRetire, bne_iff_ne.mpr hc, State.when_true, winCmd_of_reaches h, nvmeCmd_retire hd, done]

end Sys2Proof.Machine
end

section
/-! OBLIGATIONS. The publishing, fabric and drive windows. -/

namespace Sys2Proof.Machine

/-- Settles O12, window by window: publishes begin, wait and end; the fabric window's commands start and end; drives attach and retire. -/
theorem publishingFabricAndDriveWindowsAct : Obligations.PublishingFabricAndDriveWindowsAct := by
  refine ⟨fun s c => exec_hbmPublish, fun s p hrun hqueue hgone hheld hfor => ?_, fun s p x hrun hhead hx hstands => ?_, fun s i p hrun hqueue hgone => ?_,
    fun s c => exec_fabCmdHandBack, fun s c => exec_fabCmdWithdraw, fun s c hreach hfree htwin hnone hcycle => ?_,
    fun s c hreach hfree htwin hmember => ?_, fun s => exec_fabCommandEnd, fun s c d => exec_nvmeAttachResilver, fun s c d => exec_nvmeRetire⟩
  · rw [exec_hbmPublishEnd, pubEnd_none hrun, endPublishes_last hqueue hgone hheld hfor]
  · rw [exec_hbmPublishEnd, pubEnd_none hrun, endPublishes_none fun q hq => ⟨x, by rwa [Option.some.inj (hq.symm.trans hhead)], hstands⟩]
  · have hqueue' : (pubEnd s).hbm.publishing = [] := by
      rw [pubEnd_ends hrun hgone]
      exact hqueue
    rw [exec_hbmPublishEnd, endPublishes_none fun q hq => by simp [hqueue'] at hq, pubEnd_ends hrun hgone]
  · exact (exec_fabCmdKeyRequest hreach hfree).trans (congrArg _ (fabKeyRequest_asks (s := fabStart s) htwin hnone hcycle))
  · exact (exec_fabCmdRollQuery hreach hfree).trans (congrArg _ (fabRollQuery_asks (s := fabStart s) htwin hmember))

end Sys2Proof.Machine
end

section
/-! SUPPORT. The pseudo-channels under rebuild and the table of applied unit states, which the work of the ledger, the fabric and the drives leaves alone
(06 R338, 09 R503): only a change of a unit's state touches them. -/

namespace Sys2Proof.Machine

-- One theorem at a time: the check's memory limit leaves no room for a thread for each.
set_option Elab.async false

/-- The same pseudo-channels are under rebuild, and the unit table stands as it did. -/
structure UnitsStand (s t : State) : Prop where
  rebuilding : t.hbm.rebuilding = s.hbm.rebuilding
  tbl : t.unit.tbl = s.unit.tbl

variable {s t u : State}

theorem UnitsStand.refl (s : State) : UnitsStand s s := ⟨rfl, rfl⟩

theorem UnitsStand.of_eq (h : UnitsStand s t) (hr : u.hbm.rebuilding = t.hbm.rebuilding := by rfl) (ht : u.unit.tbl = t.unit.tbl := by rfl) :
    UnitsStand s u := ⟨hr.trans h.rebuilding, ht.trans h.tbl⟩

/-- A change of other parts. -/
theorem UnitsStand.of_keeps {l : List Part} (h : UnitsStand s t) (hk : Keeps l t u) (hl : ∀ p ∈ [Part.hbm, .unit], p ∉ l := by decide) :
    UnitsStand s u := by
  have hhbm : u.hbm = t.hbm := hk .hbm (hl _ (by decide))
  have hunit : u.unit = t.unit := hk .unit (hl _ (by decide))
  exact h.of_eq (by rw [hhbm]) (by rw [hunit])

/-! ### Branches and folds -/

theorem UnitsStand.ite {c : Prop} [Decidable c] (ht : UnitsStand s t) (hu : UnitsStand s u) : UnitsStand s (if c then t else u) := by
  split
  · exact ht
  · exact hu

theorem UnitsStand.when {b : Bool} {f : State → State} (h : UnitsStand s t) (hf : ∀ {u}, UnitsStand s u → UnitsStand s (f u)) :
    UnitsStand s (t.when b f) := by
  cases b
  · exact h
  · exact hf h

theorem UnitsStand.foldl {α : Type} {f : State → α → State} {l : List α} (h : UnitsStand s t) (hf : ∀ {u} x, UnitsStand s u → UnitsStand s (f u x)) :
    UnitsStand s (l.foldl f t) := by
  induction l generalizing t with
  | nil => exact h
  | cons x l ih => exact ih (hf x h)

/-! ### Shared operations -/

theorem UnitsStand.onHq {f : HqSt → HqSt} (h : UnitsStand s t) : UnitsStand s (t.onHq f) := h.of_eq
theorem UnitsStand.onLane {f : LaneBank → LaneBank} (h : UnitsStand s t) : UnitsStand s (t.onLane f) := h.of_eq
theorem UnitsStand.onLed {f : LedgerSt → LedgerSt} (h : UnitsStand s t) : UnitsStand s (t.onLed f) := h.of_eq
theorem UnitsStand.onDrives {f : Tbl Drive → Tbl Drive} (h : UnitsStand s t) : UnitsStand s (t.onDrives f) := h.of_eq
theorem UnitsStand.onFab {f : FabSt → FabSt} (h : UnitsStand s t) : UnitsStand s (t.onFab f) := h.of_eq
theorem UnitsStand.onKey {f : KeySt → KeySt} (h : UnitsStand s t) : UnitsStand s (t.onKey f) := h.of_eq
theorem UnitsStand.onRng {f : RngSt → RngSt} (h : UnitsStand s t) : UnitsStand s (t.onRng f) := h.of_eq
theorem UnitsStand.onPow {f : PowerSt → PowerSt} (h : UnitsStand s t) : UnitsStand s (t.onPow f) := h.of_eq
theorem UnitsStand.onUnit {f : UnitSt → UnitSt} (h : UnitsStand s t) (hf : (f t.unit).tbl = t.unit.tbl := by with_reducible rfl) :
    UnitsStand s (t.onUnit f) := h.of_eq rfl hf
theorem UnitsStand.onHbm {f : HbmSt → HbmSt} (h : UnitsStand s t) (hf : (f t.hbm).rebuilding = t.hbm.rebuilding := by with_reducible rfl) :
    UnitsStand s (t.onHbm f) := h.of_eq hf

theorem UnitsStand.irqMain {n : Nat} (h : UnitsStand s t) : UnitsStand s (irqMain t n) := h.of_eq
theorem UnitsStand.irqAll {n : Nat} (h : UnitsStand s t) : UnitsStand s (irqAll t n) := h.of_eq
theorem UnitsStand.count {off n : Nat} (h : UnitsStand s t) : UnitsStand s (count t off n) := h.of_eq
theorem UnitsStand.cause {n : Nat} (h : UnitsStand s t) : UnitsStand s (cause t n) := h.of_keeps (keeps_cause t n)

/-- Only SELF_CHECK stops the unit it is posted about (09 R500). -/
theorem UnitsStand.observe {v : Nat} {st : UState} {src : BitVec 2} {reason : Byte} (h : UnitsStand s t) (hreason : (reason == 0x01) = false := by decide) :
    UnitsStand s (observe t v st src reason) := by
  unfold Machine.observe Machine.post
  simp only [hreason, Bool.false_and, State.when_false]
  exact .ite (.onUnit h) (.ite (.of_eq h) (.of_eq h))

theorem UnitsStand.sendTo {dest : Nat} {body : FrameBody} {relayed : Bool} (h : UnitsStand s t) : UnitsStand s (sendTo t dest body relayed) :=
  h.of_keeps (keeps_sendTo t dest body relayed)

/-! ### Requests -/

theorem UnitsStand.putReq {r : Req} (h : UnitsStand s t) : UnitsStand s (putReq t r) := .onLane h

theorem UnitsStand.startFwd {f : FwdFrame} {lane ctx since : Nat} (h : UnitsStand s t) : UnitsStand s (startFwd t f lane ctx since) :=
  .putReq (.when (.onLane h) fun h => .irqAll (.onPow h))

theorem UnitsStand.freeReq {r : Req} (h : UnitsStand s t) : UnitsStand s (freeReq t r) := by
  unfold Machine.freeReq
  extract_lets u
  have hu : UnitsStand s u := .onLane h
  split
  · exact .ite (.startFwd (.onLane hu)) hu
  · exact hu

theorem UnitsStand.complete {sq : Nat} {d : Bool} {q : Nat} {c : Comp} {o : List HostWrite} (h : UnitsStand s t) : UnitsStand s (complete t sq d q c o) :=
  h.of_keeps (keeps_complete t sq d q c o)

theorem UnitsStand.endMint {r : Req} {st : Status} {detail : BitVec 16} {length : Nat} {outs : List HostWrite} (h : UnitsStand s t) :
    UnitsStand s (endMint t r st detail length outs) := .freeReq (.complete h)

theorem UnitsStand.endVerdict {r : Req} {st : Status} {v : VCode} {detail : BitVec 16} (h : UnitsStand s t) : UnitsStand s (endVerdict t r st v detail) := by
  unfold Machine.endVerdict
  extract_lets _ _ _
  split
  · exact .freeReq (.sendTo h)
  · exact .freeReq (.complete h)

theorem UnitsStand.endCtl {st : Status} {detail : BitVec 16} {resp : Bytes} (h : UnitsStand s t) : UnitsStand s (endCtl t st detail resp) := by
  unfold Machine.endCtl
  split
  · exact h
  · exact .of_keeps (.complete (.onHq h)) (keeps_callHook _ _ _ _ _)

theorem UnitsStand.endWait {st : Status} {detail : BitVec 16} {resp : Bytes} (h : UnitsStand s t) : UnitsStand s (endWait t st detail resp) :=
  .ite (.ite (.irqMain (.onFab (.onHq h))) (.irqMain (.onLed (.onHq h)))) (.endCtl h)

theorem UnitsStand.releaseCtl (h : UnitsStand s t) : UnitsStand s (releaseCtl t) := by
  unfold Machine.releaseCtl
  extract_lets _ _ _
  refine .ite h ?_
  split
  · exact .endWait h
  · exact .endWait h
  · exact .ite h (.sendTo (.onFab h))
  · exact h
  · exact h

/-! ### State operations and leases -/

theorem UnitsStand.closeGroup {own : Bool} (h : UnitsStand s t) : UnitsStand s (closeGroup t own) := h.of_keeps (closeGroup_frame t own).1

theorem UnitsStand.joinGroup {own : Bool} {rs : List JRec} (h : UnitsStand s t) : UnitsStand s (joinGroup t own rs).1 := h.of_keeps (joinGroup_frame t own rs).1

theorem UnitsStand.setEntry {own : Bool} {x : Nat} {e : LState} (h : UnitsStand s t) : UnitsStand s (setEntry t own x e) := h.of_eq

theorem UnitsStand.addExit {serial e : Nat} (h : UnitsStand s t) : UnitsStand s (addExit t serial e) := by
  unfold Machine.addExit
  refine .onLed (.ite ?_ h)
  split
  · exact .onLed h
  · exact h

theorem UnitsStand.applyVerdict {r : Req} (h : UnitsStand s t) : UnitsStand s (applyVerdict t r) := by
  unfold Machine.applyVerdict
  extract_lets _ _ _ _ _ _ _ _
  split
  · exact .observe (.endVerdict h)
  · extract_lets _
    split
    · exact .putReq (.joinGroup (.ite (.addExit (.setEntry h)) (.setEntry h)))
    · split
      · exact .putReq h
      · exact .endVerdict h

theorem UnitsStand.startRead {slot : Nat} (h : UnitsStand s t) : UnitsStand s (startRead t slot) := .ite h h.of_eq

theorem UnitsStand.verdictAtLedger {r : Req} (h : UnitsStand s t) : UnitsStand s (verdictAtLedger t r) :=
  .ite (.endVerdict h) (.ite (.putReq h) (.ite (.putReq h) (.ite (.startRead (.putReq h)) (.applyVerdict h.of_eq))))

theorem UnitsStand.endLeaseWaiters {st : Status} (h : UnitsStand s t) : UnitsStand s (endLeaseWaiters t st) :=
  .foldl (.onLed (.onLane h)) fun _ h => by
    split
    · exact .endMint h
    · exact h

theorem UnitsStand.mirrorOpening (h : UnitsStand s t) : UnitsStand s (mirrorOpening t) := by
  unfold Machine.mirrorOpening
  split
  · exact .when h fun h => .sendTo (.onLed h)
  · exact h

theorem UnitsStand.openLease (h : UnitsStand s t) : UnitsStand s (openLease t) :=
  .ite (.endLeaseWaiters h) (.mirrorOpening (.of_keeps (.onLed h) (keeps_enqueue _ _)))

theorem UnitsStand.assignSerial {r : Req} (h : UnitsStand s t) : UnitsStand s (assignSerial t r) :=
  .ite (.observe (.endMint (.onLed h))) (.putReq (.joinGroup (.setEntry (.onLed h))))

theorem UnitsStand.mintAtLedger {r : Req} (h : UnitsStand s t) : UnitsStand s (mintAtLedger t r) :=
  .ite (.putReq h) (.ite (.ite (.putReq h) (.assignSerial h)) (.ite (.openLease (.onLane (.putReq h))) (.onLane (.putReq h))))

theorem UnitsStand.pinLease {n : Nat} {on : Bool} (h : UnitsStand s t) : UnitsStand s (pinLease t n on) := .foldl h fun _ h => .onLed h

theorem UnitsStand.closeLease (h : UnitsStand s t) : UnitsStand s (closeLease t) := by
  unfold Machine.closeLease
  split
  · exact .onLed (.pinLease h)
  · exact h

theorem UnitsStand.tryLease (h : UnitsStand s t) : UnitsStand s (tryLease t) := by
  unfold Machine.tryLease
  split
  · refine .ite (.foldl (.onLane (.pinLease (.onLed (.closeLease h)))) fun _ h => ?_) h
    split
    · exact .mintAtLedger h
    · exact h
  · exact h

/-! ### What waits for a page -/

theorem UnitsStand.resumeQuery (h : UnitsStand s t) : UnitsStand s (resumeQuery t) := .when h fun h => .releaseCtl (.onHq h)

theorem UnitsStand.resumePages (h : UnitsStand s t) : UnitsStand s (resumePages t) :=
  .foldl (.resumeQuery h) fun _ h => by
    split
    · exact .ite (.mintAtLedger h) (.verdictAtLedger h)
    · exact h

/-! ### Durable groups and rolls -/

theorem UnitsStand.startDue (h : UnitsStand s t) : UnitsStand s (startDue t) := h.of_keeps (keeps_startDue t)

theorem keeps_writeLabel (s : State) (d st seq : Nat) : Keeps [.drives, .out] s (writeLabel s d st seq) :=
  ((keeps_onDrives s _).mono (by simp)).trans ((keeps_onOut _ _).mono (by simp))

theorem UnitsStand.writeLabel {d st seq : Nat} (h : UnitsStand s t) : UnitsStand s (writeLabel t d st seq) := h.of_keeps (keeps_writeLabel t d st seq)

theorem UnitsStand.rebuildTree (h : UnitsStand s t) : UnitsStand s (rebuildTree t) := .of_keeps (.onLed h) (keeps_retree _ _)

theorem UnitsStand.nvme {ds : List Nat} {c : NvmeCmd} (h : UnitsStand s t) : UnitsStand s (nvme t ds c) := h.of_eq

theorem UnitsStand.clearPages {gone : Nat → Bool} (h : UnitsStand s t) : UnitsStand s (clearPages t gone) := .onLed h

theorem UnitsStand.rollOwn {e : BitVec 4} (h : UnitsStand s t) : UnitsStand s (rollOwn t e) :=
  .nvme (.onDrives (.foldl (.rebuildTree (.onHbm (.onKey (.onLed (.when (.clearPages h) .onLed))))) fun _ h => .writeLabel h))

theorem UnitsStand.settleRoll (h : UnitsStand s t) : UnitsStand s (settleRoll t) := by
  unfold Machine.settleRoll
  split
  · exact .ite (.ite (.endWait (.startDue (.rollOwn h))) (.startDue (.rollOwn h))) h
  · exact h

theorem UnitsStand.releaseReq {k : Nat} (h : UnitsStand s t) : UnitsStand s (releaseReq t k) := by
  unfold Machine.releaseReq
  split
  · exact .ite (.ite (.putReq h) (.endVerdict h)) h
  · exact h

theorem UnitsStand.settle (h : UnitsStand s t) : UnitsStand s (settle t) := by
  unfold Machine.settle
  exact .onLed (.startDue (.releaseCtl (.settleRoll (.foldl (.onLed (.count (.onLed h))) fun _ h => .releaseReq h))))

/-! ### Authority, links, drives -/

theorem UnitsStand.startFailover (h : UnitsStand s t) : UnitsStand s (startFailover t) :=
  .ite h (.closeGroup (.closeGroup (.when (.onUnit h) fun h => h.of_keeps (keeps_closePlane _))))

theorem UnitsStand.trySettle (h : UnitsStand s t) : UnitsStand s (trySettle t) :=
  .when h fun h => .ite (.when (.onLed h) fun h => .onPow (.ite h (.onFab h))) h

theorem UnitsStand.giveFwd {x : HeldFwd} {lane ctx : Nat} (h : UnitsStand s t) : UnitsStand s (giveFwd t x lane ctx) := by
  unfold Machine.giveFwd
  refine .ite (.startFwd h) ?_
  split
  · exact .startFwd h
  · exact .onLane h

theorem UnitsStand.afterGain (h : UnitsStand s t) : UnitsStand s (afterGain t) :=
  .foldl (.onLane (.tryLease (.settle h))) fun _ h => .ite (.giveFwd h) (.sendTo h)

theorem UnitsStand.takeAuthority {term : Nat} (h : UnitsStand s t) : UnitsStand s (takeAuthority t term) := by
  have hdrop : ∀ {u}, UnitsStand s u → UnitsStand s (dropTwin u) := fun hu => .when hu fun h => .irqMain (.onLed (.onFab h))
  exact .of_keeps (.irqMain (.cause (.onLed (.onFab (hdrop (.onFab (.onFab (h.of_keeps (keeps_recordTerm t _ term))))))))) (keeps_floodOn _ _ _ _ _ _ _)

theorem UnitsStand.tryWithdrawn (h : UnitsStand s t) : UnitsStand s (tryWithdrawn t) := by
  unfold Machine.tryWithdrawn
  split
  · exact .ite (.afterGain (.takeAuthority h)) h
  · exact h

theorem UnitsStand.mirrorWritten {own : Bool} (h : UnitsStand s t) : UnitsStand s (mirrorWritten t own) := by
  unfold Machine.mirrorWritten
  extract_lets _ _ _
  split
  · exact h
  · exact .trySettle (.tryWithdrawn (.settle (.sendTo (.onLed h))))

theorem UnitsStand.dropDrive {d : Nat} {writable : Bool} (h : UnitsStand s t) : UnitsStand s (dropDrive t d writable) := by
  unfold Machine.dropDrive
  extract_lets _ s1 s2 s3
  have h3 : UnitsStand s s3 := .irqMain (.cause (.when (.onDrives h) .writeLabel))
  exact .ite h (.ite (.startFailover h3) (.mirrorWritten (.mirrorWritten (.settle h3))))

theorem UnitsStand.coresGone (h : UnitsStand s t) : UnitsStand s (coresGone t) := .when h .startFailover

theorem UnitsStand.linkDown {p : Port} (h : UnitsStand s t) : UnitsStand s (linkDown t p) :=
  .when (.when (.onFab h) .irqMain) fun h => .observe h

/-! ### Units of other kinds -/

theorem UnitsStand.digEnd (h : UnitsStand s t) : UnitsStand s (digEnd t) := by
  unfold Machine.digEnd
  split
  · exact h.of_eq
  · exact h

theorem UnitsStand.endJobs (h : UnitsStand s t) : UnitsStand s (endJobs t) :=
  .foldl (.onLane h) fun _ h => by
    split
    · exact .endMint h
    · exact h

theorem UnitsStand.bankTo {next : Option Nat} (h : UnitsStand s t) : UnitsStand s (bankTo t next) := by
  unfold Machine.bankTo
  extract_lets s1
  have h1 : UnitsStand s s1 := .irqMain (.cause (.onRng h))
  split
  · exact .onRng h1
  · exact .observe (.onRng h1)

theorem UnitsStand.sourceLeft {n : Nat} (h : UnitsStand s t) : UnitsStand s (sourceLeft t n) :=
  .when h fun h => .ite (.bankTo h) (.cause (.bankTo h))

theorem UnitsStand.coreUpd {c : CoreId} {f : Core → Core} (h : UnitsStand s t) : UnitsStand s (coreUpd t c f) := h.of_keeps (keeps_coreUpd t c f)

/-! ### A unit becomes RETIRED -/

theorem UnitsStand.fitCache (h : UnitsStand s t) : UnitsStand s (fitCache t) :=
  .foldl (.onHbm h) fun _ h => by
    unfold evict
    refine .ite h ?_
    split
    · exact .onLed h
    · exact h

/-- A pseudo-channel that is RETIRED is no longer under rebuild (06 R338). -/
theorem pcEffects_retired (s : State) (u : Nat) : u ∉ (pcEffects s u .retired).hbm.rebuilding := by
  have hstand : UnitsStand (s.onHbm fun h => { h with
      rebuilding := h.rebuilding.filter (· != u) ++ if UState.retired = .draining ∨ UState.retired = .disputed ∨ UState.retired = .failed then [u] else [] })
      (pcEffects s u .retired) := .when (.fitCache (.refl _)) .startFailover
  rw [hstand.rebuilding]
  simp

/-- What RETIRED does to any unit but a lane puts nothing under rebuild. -/
theorem unitEffects_retired {v : Nat} (hv : 16 ≤ v) (h : v ∉ s.hbm.rebuilding) : v ∉ (unitEffects s v .retired).hbm.rebuilding := by
  by_cases hpc : v < 32
  · rw [unitEffects, if_neg (Nat.not_lt.mpr hv), if_pos hpc]
    exact pcEffects_retired s v
  · have hstand : UnitsStand s (unitEffects s v .retired) := by
      rw [unitEffects, if_neg (Nat.not_lt.mpr hv), if_neg hpc]
      have h := UnitsStand.refl s
      exact .ite (.ite (.linkDown h.of_eq) (.ite (.onFab h) h)) (.ite (.ite (.dropDrive (.ite (.onPow h) h)) (.ite (.onPow h) h)) (.ite
        (.ite (.coresGone (.coreUpd h)) h) (.ite (.ite h (.digEnd h)) (.ite (.irqMain (.ite h (.endJobs h))) (.ite (.ite h (.sourceLeft h)) (.ite
          (.startFailover h) h))))))
    rwa [hstand.rebuilding]

theorem finishChange_retired {v : Nat} {lanes : BitVec 2} {reason : Byte} {version : Nat} (hv : 16 ≤ v) (h : v ∉ s.hbm.rebuilding) :
    v ∉ (finishChange s v .retired lanes reason version).hbm.rebuilding := by
  unfold finishChange
  extract_lets _ s1 s2 s3 s4 s5 s6
  have h4 : s4.hbm = s.hbm := keeps_publishEntry s2 v (unitEnt s2 v) version .hbm (by simp)
  have h5 : v ∉ s5.hbm.rebuilding := by
    rw [show s5 = unitEffects s4 v .retired from if_neg (by simp)]
    exact unitEffects_retired hv (by rwa [h4])
  have h6 : s6.hbm = s5.hbm := by
    show (ite _ _ _ : State).hbm = _
    split <;> rfl
  have hlast : ((if reason = 0x10 ∧ UState.retired ≠ .draining ∧ UState.retired ≠ .disputed then outcomeAt s6 v 0 version else s6).hbm) = s6.hbm := by
    split
    · exact keeps_append s6 _ _ _ _ _ .hbm (by simp)
    · rfl
  rwa [hlast, h6]

theorem changeUnit_retired {v : Nat} {lanes : BitVec 2} {reason : Byte} (hv : 16 ≤ v) (h : v ∉ s.hbm.rebuilding) :
    v ∉ (changeUnit s v .retired lanes reason).hbm.rebuilding := by
  unfold changeUnit
  extract_lets n s1 now s2
  have h2 : s2.hbm = s.hbm := keeps_append s1 _ _ _ _ _ .hbm (by simp)
  have hrecorded : v ∉ s2.hbm.rebuilding := by rwa [h2]
  split
  · exact finishChange_retired hv hrecorded
  · exact hrecorded

end Sys2Proof.Machine
end

section
/-! SUPPORT. What the rows of pages and of the void index do (06 R287, R292, R293, 07 R383, R400). -/

namespace Sys2Proof.Machine

variable {s : State} {slot d : Nat}

/-! ### Copies between twins -/

theorem exec_pageRequestRx_absent {subject page : Nat} (htwin : hasTwin s = true) (hreplayed : s.led.replayed = true) (h : canSupply s subject = false) :
    exec (.pageRequestRx (twinAddr s) s.led.epoch subject page) s = .next (sendTo s (twinAddr s) (.pageAbsent s.led.epoch subject page)) := by
  show execPageRequestRx _ _ subject page s = _
  simp only [execPageRequestRx, htwin, hreplayed, h, beq_self_eq_true, Bool.and_self, State.when_true, Bool.false_eq_true, ↓reduceIte, done]

theorem exec_pageRequestRx_own {page : Nat} (htwin : hasTwin s = true) (hreplayed : s.led.replayed = true) (h : canSupply s (nodeAddr s) = true) :
    exec (.pageRequestRx (twinAddr s) s.led.epoch (nodeAddr s) page) s = .next (sendTo s (twinAddr s)
      (.page s.led.epoch (nodeAddr s) page (s.led.nextGroup - 1) (pageEntries s true page))) := by
  show execPageRequestRx _ _ _ page s = _
  simp only [execPageRequestRx, htwin, hreplayed, h, beq_self_eq_true, Bool.and_self, State.when_true, ↓reduceIte, done]

/-- The shadow with a page of it written, and every record held of later groups applied to that page (07 R383). -/
def shadowPaged (s : State) (page g : Nat) (es : Tbl LState) : State :=
  applyRecs (setPage s false page es) false (twinAddr s) none
    ((laterRecs (setPage s false page es) (twinAddr s) g).filter fun r => stateAfter r.kind != none && r.serial / 16384 == page)

theorem exec_pageRx_shadow {page g : Nat} {es : Tbl LState} (hslot : slotFor false (page * 16384) = slot) (htwin : hasTwin s = true)
    (hother : twinAddr s ≠ nodeAddr s) (hasked : (s.fab.pageAsk.contains slot || (pageSt s slot).fromTwin) = true) :
    exec (.pageRx (twinAddr s) s.led.epoch (twinAddr s) page g es) s = .next (resumePages (tryCopied (askPages
      ((onPage (cachePage (shadowPaged s page g es) slot) slot fun p => { p with dirty := true }).onFab fun b => { b with
        pageAsk := b.pageAsk.filter (· != slot), copyEnd := some (min g (b.copyEnd.getD g)) }) 64))) := by
  show execPageRx _ _ _ page g es s = _
  simp only [execPageRx, htwin, beq_false_of_ne hother, hslot, hasked, beq_self_eq_true, Bool.or_true, Bool.and_self, State.when_true, Bool.false_eq_true,
    ↓reduceIte, done]
  rfl

theorem exec_pageAbsentRx_own {page : Nat} (hslot : slotFor true (page * 16384) = slot) (htwin : hasTwin s = true) :
    exec (.pageAbsentRx (twinAddr s) s.led.epoch (nodeAddr s) page) s = .next (
      if s.fab.pageAsk.contains slot then sendTo s (twinAddr s) (.pageRequest s.led.epoch (nodeAddr s) page)
      else onPage s slot fun p => { p with fromTwin := false }) := by
  show execPageAbsentRx _ _ _ page s = _
  simp only [execPageAbsentRx, htwin, hslot, beq_self_eq_true, Bool.and_self, State.when_true, done]

theorem exec_voidRequestRx {subject block : Nat} (htwin : hasTwin s = true) (h : canSupply s subject = true) (hblock : block < 1024) :
    exec (.voidRequestRx (twinAddr s) s.led.epoch subject block) s = .next (sendTo s (twinAddr s) (.voidBlock s.led.epoch subject block
      (((voidIdx s (subject == nodeAddr s)).drop (256 * block)).take 256))) := by
  show execVoidRequestRx _ _ subject block s = _
  simp only [execVoidRequestRx, htwin, h, hblock, beq_self_eq_true, decide_true, Bool.and_self, State.when_true, done]

/-- The ranges of a block join the shadow's void index. -/
def shadowVoided (s : State) (rs : List (Nat × Nat)) : State :=
  s.onLed fun l => { l with voidShadow := rs.foldl (fun v r => insertRange v r.1 r.2) l.voidShadow }

theorem exec_voidBlockRx_shadow {block : Nat} {rs : List (Nat × Nat)} (htwin : hasTwin s = true) (hother : twinAddr s ≠ nodeAddr s)
    (hcopying : s.fab.copying = true) (hasked : s.fab.voidAsk = 1 + 2 * block) (hstays : s.fab.rejoining = false) :
    exec (.voidBlockRx (twinAddr s) s.led.epoch (twinAddr s) block rs) s = .next (
      if rs.length = 256 ∧ block < 1023 then askVoid (shadowVoided s rs) false (block + 1)
      else tryCopied ((shadowVoided s rs).onFab fun b => { b with voidAsk := 0 })) := by
  show execVoidBlockRx _ _ _ block rs s = _
  simp only [execVoidBlockRx, htwin, beq_false_of_ne hother, hcopying, hasked, hstays, beq_self_eq_true, decide_true, Bool.or_true, Bool.and_self, Bool.and_false,
    Nat.add_zero, State.when_true, State.onLed_fab, Bool.false_eq_true, ↓reduceIte, done]
  rfl

/-! ### Page reads -/

/-- A page's content from a drive verifies under the slot's version and tag (06 R292). -/
def pageGood (s : State) (slot : Nat) (es : Tbl LState) : Prop := pageTag s slot (tget 0 s.led.versions slot) es = tget 0 s.led.tags slot

section
variable (hcached : (pageSt s slot).cached = false) (hserves : d ∈ servingDrives s)
include hcached hserves

section
variable (hreading : (pageSt s slot).reading = true) (hfirst : (pageSt s slot).second = false) {es : Tbl LState}
include hreading hfirst

/-- The first read of a page gives what verifies: it enters the cache, and what waits for it goes on. -/
theorem exec_pageReadDone_good (hclean : (pageSt s slot).dirty = false) (hgood : pageGood s slot es) :
    exec (.pageReadDone slot d (some es)) s = .next (resumePages (onPage (cachePage (setPage (readEnded (countRead s d false) slot)
      (slotOwner s slot).1 (slotOwner s slot).2 es) slot) slot fun q => { q with second := false })) := by
  unfold pageGood at hgood
  show execPageReadDone slot d (some es) s = _
  simp only [execPageReadDone, List.contains_iff_mem.mpr hserves, hreading, Bool.true_or, Bool.and_self, State.when_true, done]
  rw [if_pos hgood]
  simp only [hfirst, hcached, hclean, Bool.not_true, Bool.and_false, Bool.false_eq_true, ↓reduceIte]

/-- It gives what does not verify: the read goes on at the other drive, or the page is asked of the twin (06 R293). -/
theorem exec_pageReadDone_bad (hbad : ¬pageGood s slot es) : exec (.pageReadDone slot d (some es)) s = .next (
    if otherServes (countRead s d true) d = true then execPageReadDone.secondRead (countRead s d true) slot d else askTwin (countRead s d true) slot) := by
  unfold pageGood at hbad
  show execPageReadDone slot d (some es) s = _
  simp only [execPageReadDone, List.contains_iff_mem.mpr hserves, hreading, Bool.true_or, Bool.and_self, State.when_true, done]
  rw [if_neg hbad]
  simp only [hfirst, hcached, Bool.false_or, Bool.true_and, Bool.false_eq_true, ↓reduceIte]

end

/-- A read error at the second drive. -/
theorem exec_pageReadDone_failed (hreading : (pageSt s slot).reading = false) (hsecond : (pageSt s slot).second = true) :
    exec (.pageReadDone slot d none) s = .next (askTwin (countRead s d false) slot) := by
  show execPageReadDone slot d none s = _
  simp only [execPageReadDone, hreading, hsecond, hcached, List.contains_iff_mem.mpr hserves, Bool.false_or, Bool.false_and, Bool.and_self, State.when_true,
    Bool.false_eq_true, ↓reduceIte, done]

end

theorem exec_pageMissSecondRead (hreading : (pageSt s slot).reading = true) (hfirst : (pageSt s slot).second = false) (htwo : 2 ≤ (servingDrives s).length) :
    exec (.pageMissSecondRead slot) s = .next (onPage (nvme s (turnDrive s) (.read (pageLba slot) 1)) slot fun p => { p with second := true }) := by
  show execPageMissSecondRead slot s = _
  simp only [execPageMissSecondRead, hreading, hfirst, ge_iff_le, htwo, Bool.not_false, decide_true, Bool.and_self, State.when_true, done]

theorem exec_pageMissTimeout_request {l c : Nat} {r : Req} (hl : l < 16) (h : Stands s l c .pageWait r) :
    exec (.pageMissTimeout l c) s = .next (endReq s r .ledgerMissTimeout) := by
  show execPageMissTimeout l c s = _
  rw [execPageMissTimeout, if_neg (Nat.not_le.mpr hl), inStage_of_stands h, done]

theorem exec_pageMissTimeout_query {l c : Nat} (hl : 16 ≤ l) (hquery : s.hq.ctlWait.kind = .query) (hwaits : s.hq.ctlWait.unapplied = true) :
    exec (.pageMissTimeout l c) s = .next (endWait s .ledgerMissTimeout) := by
  show execPageMissTimeout l c s = _
  rw [execPageMissTimeout, if_pos hl, if_pos ⟨hquery, hwaits⟩, done]

end Sys2Proof.Machine
end

section
/-! SUPPORT. What the rows of the drives in service and of the pseudo-channels do (06 R289, R295, R336, R338). -/

namespace Sys2Proof.Machine

variable {s : State} {d : Nat}

/-! ### Drives -/

theorem exec_resilverCopyDone {e : Nat} {rest : List Nat} (hserves : servingDrives s = e :: rest) (hcopies : (tget {} s.drives d).resilver = 2) (hother : e ≠ d) :
    let x := tget {} s.drives e
    exec (.resilverCopyDone d) s = .next (irqMain (onDrive s d fun y => { y with
      ckpts := x.ckpts, metaV := x.metaV, metaT := x.metaT, pages := x.pages, resilver := 6, progress := 0xFFFF
      journal := x.journal.foldl (fun t p => if p.2.seq ≥ s.led.ckptLast.p then tput {} t p.1 p.2 else t) y.journal }) 15) := by
  intro x
  show execResilverCopyDone d s = _
  simp only [execResilverCopyDone, hserves, hcopies, hother, ne_eq, not_false_eq_true, and_self, ↓reduceIte, done]
  rfl

/-- A drive answers Identify (06 R295). -/
def identified (s : State) (d : Nat) (id : DriveId) : State := nvme (onDrive s d fun x => { x with ident := id, queue := 0 }) [d] .identify

/-- Its queue pair is made and every LBA deallocated (06 R295, R336 step 1). -/
def deallocated (s : State) (d : Nat) (id : DriveId) : State := nvme (makeQueues (identified s d id) d) [d] (.dealloc 0 id.lbas)

/-- A drive as it stands attached: empty, and to be re-silvered where another serves. -/
def attachedDrive (s : State) (x : Drive) : Drive :=
  { x with
    attached := true, ready := true, dealloc := true, journal := [], pages := [], ckpts := [], metaV := [], metaT := [], progress := 0
    labelA := [], labelB := [], resilver := if (servingDrives s).isEmpty then 0 else 2 }

theorem exec_driveAttach {id : DriveId} (hd : d < 2) (hup : s.pow.mainUp = true) (hserving : (tget {} s.drives d).serving = false)
    (hidle : (tget {} s.drives d).resilver ≤ 1) : exec (.driveAttach d id) s = .next (
      if meetsDrive id = true then
        irqMain (cause (writeLabel (onDrive (deallocated s d id) d (attachedDrive (deallocated s d id))) d 1 (nextLabel
          (onDrive (deallocated s d id) d (attachedDrive (deallocated s d id))) (tget {} s.drives d))) 5) 15
      else
        (irqMain (onDrive (identified s d id) d fun x => { x with attached := true, ready := false, resilver := 0 }) 15).when (unitActive s (0x28 + d))
          fun s => changeUnit s (0x28 + d) .retired 0 0x01) := by
  show execDriveAttach d id s = _
  simp only [execDriveAttach, driveAttach, hd, hup, hserving, hidle, decide_true, Bool.not_false, Bool.and_self, State.when_true, done]
  cases meetsDrive id <;> rfl

/-! ### Attach, with the table of drives in canonical form -/

section
variable (hform : twf {} s.drives = true)
include hform

theorem drive_onDrive (f : Drive → Drive) : tget {} (onDrive s d f).drives d = f (tget {} s.drives d) := tget_tupd hform

theorem onDrive_form (f : Drive → Drive) : twf {} (onDrive s d f).drives = true := twf_tupd hform

/-- A change that leaves a drive in or out of service leaves the serving set. -/
theorem servingDrives_onDrive {f : Drive → Drive} (hserving : (f (tget {} s.drives d)).serving = (tget {} s.drives d).serving) :
    servingDrives (onDrive s d f) = servingDrives s := by
  have hsame : ∀ e, (tget {} (onDrive s d f).drives e).serving = (tget {} s.drives e).serving := by
    intro e
    by_cases he : e = d
    · rw [he, drive_onDrive hform, hserving]
    · exact congrArg Drive.serving (tget_tupd_ne he)
  simp only [servingDrives, hsame]

theorem identified_form (id : DriveId) : twf {} (identified s d id).drives = true := onDrive_form (d := d) hform fun x => { x with ident := id, queue := 0 }

theorem deallocated_form (id : DriveId) : twf {} (deallocated s d id).drives = true :=
  onDrive_form (d := d) (identified_form (d := d) hform id) fun x => { x with queue := 1024 }

theorem drive_deallocated (id : DriveId) : tget {} (deallocated s d id).drives d = { tget {} s.drives d with ident := id, queue := 1024 } :=
  (drive_onDrive (identified_form hform id) fun x => { x with queue := 1024 }).trans
    (congrArg (fun x : Drive => { x with queue := 1024 }) (drive_onDrive hform fun x => { x with ident := id, queue := 0 }))

theorem servingDrives_deallocated (id : DriveId) : servingDrives (deallocated s d id) = servingDrives s :=
  (servingDrives_onDrive (d := d) (identified_form hform id) (f := fun x => { x with queue := 1024 }) rfl).trans
    (servingDrives_onDrive hform (f := fun x => { x with ident := id, queue := 0 }) rfl)

/-- Writing a label changes a drive's label copies alone. -/
theorem drive_writeLabel (st seq : Nat) : ∃ a b, tget {} (writeLabel s d st seq).drives d = { tget {} s.drives d with labelA := a, labelB := b } := by
  unfold writeLabel
  extract_lets x head b overA s'
  have hwritten : tget {} s'.drives d = if overA then { tget {} s.drives d with labelA := b } else { tget {} s.drives d with labelB := b } :=
    tget_tupd (k := d) (f := fun x : Drive => if overA then { x with labelA := b } else { x with labelB := b }) hform
  have hput : ∃ a b', tget {} s'.drives d = { tget {} s.drives d with labelA := a, labelB := b' } := by
    rw [hwritten]
    split
    · exact ⟨_, _, rfl⟩
    · exact ⟨_, _, rfl⟩
  exact hput

end

/-- A drive that meets the requirements is attached empty, and re-silvered where another serves (06 R336 steps 1 and 2). -/
theorem completes_driveAttach {id : DriveId} (hform : twf {} s.drives = true) (hd : d < 2) (hup : s.pow.mainUp = true) (hserving : (tget {} s.drives d).serving = false)
    (hidle : (tget {} s.drives d).resilver ≤ 1) (hid : meetsDrive id = true) :
    Completes (.driveAttach d id) s [.drives, .hq, .unit, .out] fun t => let x := tget {} t.drives d
      x.attached = true ∧ x.ready = true ∧ x.dealloc = true ∧ x.journal = [] ∧ x.pages = [] ∧ x.queue = 1024 ∧ x.ident = id ∧
        x.resilver = (if servingDrives s = [] then 0 else 2) := by
  have hexec := exec_driveAttach (id := id) hd hup hserving hidle
  rw [if_pos hid] at hexec
  refine ⟨_, hexec, ?_, ?_⟩
  · have hattached := drive_onDrive (d := d) (deallocated_form (d := d) hform id) (attachedDrive (deallocated s d id))
    obtain ⟨a, b, hlabel⟩ := drive_writeLabel (d := d) (onDrive_form (d := d) (deallocated_form (d := d) hform id) (attachedDrive (deallocated s d id))) 1
      (nextLabel (onDrive (deallocated s d id) d (attachedDrive (deallocated s d id))) (tget {} s.drives d))
    rw [hattached, drive_deallocated hform] at hlabel
    beta_reduce
    intro x
    have hx : x = _ := (congrArg (tget {} · d) (keeps_cause _ 5 .drives (by simp))).trans hlabel
    rw [hx]
    refine ⟨rfl, rfl, rfl, rfl, rfl, rfl, rfl, ?_⟩
    simp only [attachedDrive, servingDrives_deallocated hform, List.isEmpty_iff]
  · have hmade : Keeps [.drives, .out] s (deallocated s d id) :=
      ((((((keeps_onDrives s _).mono (by simp)).trans ((keeps_onOut _ _).mono (by simp))).trans ((keeps_onDrives _ _).mono (by simp))).trans
        ((keeps_onOut _ _).mono (by simp))).trans ((keeps_onOut _ _).mono (by simp))).trans ((keeps_onOut _ _).mono (by simp))
    exact (((hmade.trans ((keeps_onDrives _ _).mono (by simp))).trans (keeps_writeLabel _ d 1 _)).mono (by simp)).trans
      (((keeps_cause _ 5).mono (by simp)).trans ((keeps_irqMain _ 15).mono (by simp)))

theorem exec_driveLogPoll {g : SmartLog} (hd : d < 2) (hattached : (tget {} s.drives d).attached = true) (hup : s.pow.mainUp = true) :
    exec (.driveLogPoll d g) s = .next (onDrive (nvme s [d] .logPage) d fun x => { x with smart := tputs 0 [] 0 [g.written, g.read, g.used, g.temp] }) := by
  show execDriveLogPoll d g s = _
  simp only [execDriveLogPoll, hd, hattached, hup, decide_true, Bool.and_self, State.when_true, done]

/-! ### Pseudo-channels -/

/-- The clean cached pages of a pseudo-channel are forgotten, and it is no longer under rebuild (06 R338). -/
def channelRebuilt (s : State) (pc : Nat) : State :=
  (s.onLed fun l => { l with
    pages := tmap {} l.pages fun slot p => if slot % 16 = pc ∧ !p.dirty ∧ !p.unwritten ∧ !p.pinned then { p with cached := false } else p }).onHbm
      fun h => { h with rebuilding := h.rebuilding.filter (· != 0x10 + pc) }

theorem notMem_channelRebuilt (s : State) (pc : Nat) : (0x10 + pc) ∉ (channelRebuilt s pc).hbm.rebuilding := by simp [channelRebuilt]

theorem exec_pcRebuildDone {pc : Nat} (h : (0x10 + pc) ∈ s.hbm.rebuilding) : exec (.pcRebuildDone pc) s = .next (resumePages
    ((channelRebuilt s pc).when (unitSt s (0x10 + pc) == .draining) fun u => changeUnit u (0x10 + pc) .retired 0 (unitEnt u (0x10 + pc)).reason)) := by
  show execPcRebuildDone pc s = _
  rw [execPcRebuildDone, List.contains_iff_mem.mpr h, State.when_true]
  rfl

/-- A rebuild ends: of a DRAINING unit with its retirement, of any other with the rest of the rebuilds and the unit table as they were. -/
theorem pcRebuildDone_ends {pc : Nat} (h : (0x10 + pc) ∈ s.hbm.rebuilding) :
    ∃ t, exec (.pcRebuildDone pc) s = .next t ∧ (0x10 + pc) ∉ t.hbm.rebuilding ∧
      (unitSt s (0x10 + pc) ≠ .draining → t.hbm.rebuilding = s.hbm.rebuilding.filter (· != 0x10 + pc) ∧ t.unit.tbl = s.unit.tbl) := by
  refine ⟨_, exec_pcRebuildDone h, ?_, fun hstays => ?_⟩
  · rw [(UnitsStand.resumePages (.refl _)).rebuilding]
    cases unitSt s (0x10 + pc) == .draining
    · exact notMem_channelRebuilt s pc
    · exact changeUnit_retired (Nat.le_add_right _ _) (notMem_channelRebuilt s pc)
  · have hstand : UnitsStand (channelRebuilt s pc) (resumePages (channelRebuilt s pc)) := .resumePages (.refl _)
    rw [beq_false_of_ne hstays, State.when_false]
    exact ⟨hstand.rebuilding, hstand.tbl⟩

end Sys2Proof.Machine
end


section
/-! OBLIGATIONS. O30 fails, in the attach of a drive; with the table of drives in canonical form every clause of it holds. -/

namespace Sys2Proof.Machine

/-- A state no step leads to: its table of drives lists drive 0 twice, first as it stands by default, then serving. Reading the table gives the first
listing, so no drive serves; writing the default over it, as the answer to Identify does here, removes that listing and uncovers the other. -/
def uncoveringSt : State := { ({} : State) with drives := [(0, {}), (0, { serving := true })], pow := { ({} : State).pow with mainUp := true } }

theorem servingDrives_uncoveringSt : servingDrives uncoveringSt = [] := by decide

theorem resilver_driveAttach_uncoveringSt : (tget {} (after uncoveringSt (exec (.driveAttach 0 {}) uncoveringSt)).drives 0).resilver = 2 := by
  decide +kernel

/-- Refutes O30: in `uncoveringSt` no drive serves, yet the attach of drive 0 finds the uncovered listing and leaves the drive to be re-silvered. -/
theorem not_pagesAndDrivesInServiceAct : ¬ Obligations.PagesAndDrivesInServiceAct := by
  unfold Obligations.PagesAndDrivesInServiceAct
  rintro ⟨-, -, -, -, -, -, -, -, -, -, -, -, hattach, -⟩
  obtain ⟨t, hexec, hdrive, -⟩ := (hattach uncoveringSt 0 {} (by decide) rfl (by decide) (by decide)).1 (by decide)
  obtain ⟨-, -, -, -, -, -, -, hidle⟩ := hdrive
  rw [if_pos servingDrives_uncoveringSt] at hidle
  have hcopies := resilver_driveAttach_uncoveringSt
  rw [hexec, after, hidle] at hcopies
  exact absurd hcopies (by decide)

/-- O30's clauses, with the drive that attaches in a table in canonical form. -/
theorem pagesAndDrivesInService_of_canonicalDrives :
    (∀ (s : State) (subject page : Nat), hasTwin s = true → s.led.replayed = true → canSupply s subject = false →
      exec (.pageRequestRx (twinAddr s) s.led.epoch subject page) s = .next (sendTo s (twinAddr s) (.pageAbsent s.led.epoch subject page))) ∧
    (∀ (s : State) (page : Nat), hasTwin s = true → s.led.replayed = true → canSupply s (nodeAddr s) = true →
      exec (.pageRequestRx (twinAddr s) s.led.epoch (nodeAddr s) page) s = .next (sendTo s (twinAddr s)
        (.page s.led.epoch (nodeAddr s) page (s.led.nextGroup - 1) (pageEntries s true page)))) ∧
    (∀ (s : State) (page g : Nat) (es : Tbl LState), hasTwin s = true → twinAddr s ≠ nodeAddr s →
      let slot := slotFor false (page * 16384)
      s.fab.pageAsk.contains slot || (pageSt s slot).fromTwin = true →
      let u := applyRecs (setPage s false page es) false (twinAddr s) none
        ((laterRecs (setPage s false page es) (twinAddr s) g).filter fun r => stateAfter r.kind != none && r.serial / 16384 == page)
      exec (.pageRx (twinAddr s) s.led.epoch (twinAddr s) page g es) s = .next (resumePages (tryCopied (askPages
        ((onPage (cachePage u slot) slot fun p => { p with dirty := true }).onFab fun b => { b with
          pageAsk := b.pageAsk.filter (· != slot), copyEnd := some (min g (b.copyEnd.getD g)) }) 64)))) ∧
    (∀ (s : State) (page : Nat), hasTwin s = true →
      let slot := slotFor true (page * 16384)
      exec (.pageAbsentRx (twinAddr s) s.led.epoch (nodeAddr s) page) s = .next (
        if s.fab.pageAsk.contains slot then sendTo s (twinAddr s) (.pageRequest s.led.epoch (nodeAddr s) page)
        else onPage s slot fun p => { p with fromTwin := false })) ∧
    (∀ (s : State) (subject block : Nat), hasTwin s = true → canSupply s subject = true → block < 1024 →
      exec (.voidRequestRx (twinAddr s) s.led.epoch subject block) s = .next (sendTo s (twinAddr s) (.voidBlock s.led.epoch subject block
        (((voidIdx s (subject == nodeAddr s)).drop (256 * block)).take 256)))) ∧
    (∀ (s : State) (block : Nat) (rs : List (Nat × Nat)), hasTwin s = true → twinAddr s ≠ nodeAddr s → s.fab.copying = true →
      s.fab.voidAsk = 1 + 2 * block → s.fab.rejoining = false →
      let u := s.onLed fun l => { l with voidShadow := rs.foldl (fun v r => insertRange v r.1 r.2) l.voidShadow }
      exec (.voidBlockRx (twinAddr s) s.led.epoch (twinAddr s) block rs) s = .next (
        if rs.length = 256 ∧ block < 1023 then askVoid u false (block + 1) else tryCopied (u.onFab fun b => { b with voidAsk := 0 }))) ∧
    (∀ (s : State) (slot d : Nat) (es : Tbl LState), (pageSt s slot).reading = true → (pageSt s slot).second = false → (pageSt s slot).cached = false →
      (pageSt s slot).dirty = false → d ∈ servingDrives s →
      (pageTag s slot (tget 0 s.led.versions slot) es = tget 0 s.led.tags slot →
        exec (.pageReadDone slot d (some es)) s = .next (resumePages (onPage (cachePage (setPage (readEnded (countRead s d false) slot)
          (slotOwner s slot).1 (slotOwner s slot).2 es) slot) slot fun q => { q with second := false }))) ∧
      (pageTag s slot (tget 0 s.led.versions slot) es ≠ tget 0 s.led.tags slot → otherServes (countRead s d true) d = true →
        exec (.pageReadDone slot d (some es)) s = .next (execPageReadDone.secondRead (countRead s d true) slot d)) ∧
      (pageTag s slot (tget 0 s.led.versions slot) es ≠ tget 0 s.led.tags slot → otherServes (countRead s d true) d = false →
        exec (.pageReadDone slot d (some es)) s = .next (askTwin (countRead s d true) slot))) ∧
    (∀ (s : State) (slot d : Nat), (pageSt s slot).reading = false → (pageSt s slot).second = true → (pageSt s slot).cached = false → d ∈ servingDrives s →
      exec (.pageReadDone slot d none) s = .next (askTwin (countRead s d false) slot)) ∧
    (∀ (s : State) (slot : Nat), (pageSt s slot).reading = true → (pageSt s slot).second = false → 2 ≤ (servingDrives s).length →
      exec (.pageMissSecondRead slot) s = .next (onPage (nvme s (turnDrive s) (.read (pageLba slot) 1)) slot fun p => { p with second := true })) ∧
    (∀ (s : State) (l c : Nat) (r : Req), l < 16 → Stands s l c .pageWait r → exec (.pageMissTimeout l c) s = .next (endReq s r .ledgerMissTimeout)) ∧
    (∀ (s : State) (l c : Nat), 16 ≤ l → s.hq.ctlWait.kind = .query → s.hq.ctlWait.unapplied = true →
      exec (.pageMissTimeout l c) s = .next (endWait s .ledgerMissTimeout)) ∧
    (∀ (s : State) (d e : Nat) (rest : List Nat), servingDrives s = e :: rest → (tget {} s.drives d).resilver = 2 → e ≠ d →
      let x := tget {} s.drives e
      exec (.resilverCopyDone d) s = .next (irqMain (onDrive s d fun y => { y with
        ckpts := x.ckpts, metaV := x.metaV, metaT := x.metaT, pages := x.pages, resilver := 6, progress := 0xFFFF
        journal := x.journal.foldl (fun t p => if p.2.seq ≥ s.led.ckptLast.p then tput {} t p.1 p.2 else t) y.journal }) 15)) ∧
    (∀ (s : State) (d : Nat) (id : DriveId), d < 2 → s.pow.mainUp = true → (tget {} s.drives d).serving = false → (tget {} s.drives d).resilver ≤ 1 →
      (twf {} s.drives = true → meetsDrive id = true → Completes (.driveAttach d id) s [.drives, .hq, .unit, .out] fun t => let x := tget {} t.drives d
        x.attached = true ∧ x.ready = true ∧ x.dealloc = true ∧ x.journal = [] ∧ x.pages = [] ∧ x.queue = 1024 ∧ x.ident = id ∧
          x.resilver = (if servingDrives s = [] then 0 else 2)) ∧
      (meetsDrive id = false → unitActive s (0x28 + d) = false →
        exec (.driveAttach d id) s = .next (irqMain (onDrive (nvme (onDrive s d fun x => { x with ident := id, queue := 0 }) [d] .identify) d fun x =>
          { x with attached := true, ready := false, resilver := 0 }) 15))) ∧
    (∀ (s : State) (d : Nat) (g : SmartLog), d < 2 → (tget {} s.drives d).attached = true → s.pow.mainUp = true →
      exec (.driveLogPoll d g) s = .next (onDrive (nvme s [d] .logPage) d fun x => { x with smart := tputs 0 [] 0 [g.written, g.read, g.used, g.temp] })) ∧
    (∀ (s : State) (pc : Nat), (0x10 + pc) ∈ s.hbm.rebuilding → ∃ t, exec (.pcRebuildDone pc) s = .next t ∧ (0x10 + pc) ∉ t.hbm.rebuilding ∧
      (unitSt s (0x10 + pc) ≠ .draining → t.hbm.rebuilding = s.hbm.rebuilding.filter (· != 0x10 + pc) ∧ t.unit.tbl = s.unit.tbl)) := by
  refine ⟨fun _ _ _ => exec_pageRequestRx_absent, fun _ _ => exec_pageRequestRx_own, ?pageRx, fun _ _ htwin => exec_pageAbsentRx_own rfl htwin,
    fun _ _ _ => exec_voidRequestRx, fun _ _ _ => exec_voidBlockRx_shadow, ?pageReadDone, fun _ _ _ hreading hsecond hcached hserves =>
      exec_pageReadDone_failed hcached hserves hreading hsecond, fun _ _ => exec_pageMissSecondRead, fun _ _ _ _ => exec_pageMissTimeout_request,
    fun _ _ _ => exec_pageMissTimeout_query, fun _ _ _ _ => exec_resilverCopyDone, ?driveAttach, fun _ _ _ => exec_driveLogPoll,
    fun _ _ => pcRebuildDone_ends⟩
  case pageRx =>
    intro s page g es htwin hother slot hasked u
    exact exec_pageRx_shadow rfl htwin hother (by simpa using hasked)
  case pageReadDone =>
    intro s slot d es hreading hfirst hcached hclean hserves
    have hbad := exec_pageReadDone_bad hcached hserves hreading hfirst (es := es)
    exact ⟨exec_pageReadDone_good hcached hserves hreading hfirst hclean,
      fun htag hother => (hbad htag).trans (congrArg _ (if_pos hother)),
      fun htag hnone => (hbad htag).trans (congrArg _ (if_neg (Bool.eq_false_iff.mp hnone)))⟩
  case driveAttach =>
    intro s d id hd hup hserving hidle
    refine ⟨fun hform hid => completes_driveAttach hform hd hup hserving hidle hid, fun hid hport => ?_⟩
    rw [exec_driveAttach hd hup hserving hidle, if_neg (Bool.eq_false_iff.mp hid), hport, State.when_false]
    rfl

end Sys2Proof.Machine
end

section
/-! SUPPORT. What a port reads as after a change, and what sending frames leaves as it was (07 R356-R361, R369-R378). -/

namespace Sys2Proof.Machine

-- One theorem at a time: the check's memory limit leaves no room for a thread for each.
set_option Elab.async false

variable {s t u : State} {p q : Port}

/-! ### Reading ports -/

theorem portIdx_inj (h : portIdx q = portIdx p) : q = p := by
  revert h
  cases p <;> cases q <;> decide

theorem portSt_onPort_self {f : PortSt → PortSt} (h : f (portSt s p) ≠ {}) : portSt (onPort s p f) p = f (portSt s p) := tget_tupd_self h

theorem portSt_onPort_ne {f : PortSt → PortSt} (h : q ≠ p) : portSt (onPort s p f) q = portSt s q := tget_tupd_ne fun e => h (portIdx_inj e)

theorem portSt_congr (h : t.fab.ports = s.fab.ports) (q : Port) : portSt t q = portSt s q := by rw [portSt, h, portSt]

theorem linkUp_iff : linkUp s p = true ↔ (portSt s p).link = .up := by simp [linkUp]

/-- A port whose link is not DOWN, that keeps frames or has some waiting does not read as an unlisted one. -/
theorem PortSt.ne_default_of_link {l : PortSt} (h : l.link ≠ .down) : l ≠ {} := by rintro rfl; exact h rfl
theorem PortSt.ne_default_of_replay {l : PortSt} (h : l.replay ≠ []) : l ≠ {} := by rintro rfl; exact h rfl
theorem PortSt.ne_default_of_waiting {l : PortSt} (h : l.waiting ≠ []) : l ≠ {} := by rintro rfl; exact h rfl

/-- A change that leaves the link in a state other than DOWN is read back. -/
theorem portSt_onPort {f : PortSt → PortSt} (h : (f (portSt s p)).link ≠ .down) : portSt (onPort s p f) p = f (portSt s p) :=
  portSt_onPort_self (PortSt.ne_default_of_link h)

/-- A change of an UP port that says nothing of its link. -/
theorem portSt_onPort_up {f : PortSt → PortSt} (hup : linkUp s p = true) (h : (f (portSt s p)).link = (portSt s p).link := by rfl) :
    portSt (onPort s p f) p = f (portSt s p) :=
  portSt_onPort (by rw [h, linkUp_iff.mp hup]; decide)

/-! ### Sending on a port -/

theorem portSt_putFrame_self (s : State) (p : Port) (f : Frame) : portSt (putFrame s p f) p =
    { freshPort s.time.clk (portSt s p) with
      txSeq := (portSt s p).txSeq + 1, replay := (portSt s p).replay ++ [sentOn (portSt s p) f]
      traffic := (freshPort s.time.clk (portSt s p)).traffic ++ [(s.time.clk, 1, 0)] } :=
  portSt_onPort_self (PortSt.ne_default_of_replay (by simp [freshPort]))

theorem putFrame_outputs (s : State) (p : Port) (f : Frame) : (putFrame s p f).out.frames = s.out.frames ++ [(p, f)] ∧
    (putFrame s p f).out.wire = s.out.wire ++ [(p, (sentOn (portSt s p) f).wire)] := ⟨rfl, rfl⟩

theorem sendOn_of_free {f : Frame} (h : PortFree s p (wireSize f)) : sendOn s p f = putFrame s p f := by
  obtain ⟨hwaiting, hretrain, hrekey, hroom⟩ := h
  simp [sendOn, canPut, hwaiting, hretrain, hrekey, hroom]

/-- A frame that may not go out waits behind those that wait already. -/
theorem sendOn_of_held {f : Frame} (h : canPut (portSt s p) f = false) : sendOn s p f = onPort s p fun l => { l with waiting := l.waiting ++ [f] } := by
  simp [sendOn, h]

theorem portSt_sendOn_ne {f : Frame} (h : q ≠ p) : portSt (sendOn s p f) q = portSt s q := by
  unfold sendOn
  split
  · exact portSt_onPort_ne h
  · exact portSt_onPort_ne h

theorem portSt_sendOn_link (s : State) (p : Port) (f : Frame) (q : Port) : (portSt (sendOn s p f) q).link = (portSt s q).link := by
  by_cases h : q = p
  · subst h
    unfold sendOn
    split
    · rw [portSt_putFrame_self]
      rfl
    · rw [portSt_onPort_self (PortSt.ne_default_of_waiting (by simp))]
  · rw [portSt_sendOn_ne h]

/-- A port free for a frame and for `n` bytes more is free for those after that frame. -/
theorem PortFree.sendOn {f : Frame} {n : Nat} (h : PortFree s q (wireSize f + n)) : PortFree (sendOn s p f) q n := by
  obtain ⟨hwaiting, hretrain, hrekey, hroom⟩ := h
  by_cases hq : q = p
  · subst hq
    rw [sendOn_of_free ⟨hwaiting, hretrain, hrekey, by omega⟩]
    have hused : replayUsed (portSt (putFrame s q f) q) = replayUsed (portSt s q) + wireSize f := by
      rw [portSt_putFrame_self]
      simp [replayUsed, sentOn]
    refine ⟨?_, ?_, ?_, by omega⟩ <;> rw [portSt_putFrame_self] <;> assumption
  · rw [PortFree, portSt_sendOn_ne hq]
    exact ⟨hwaiting, hretrain, hrekey, by omega⟩

/-! ### What sending frames leaves -/

/-- The state with the ports' buffers, the counts of frames discarded and flooded and the outputs replaced. -/
def State.withTraffic (s : State) (ports : Tbl PortSt) (discarded : Nat) (flooded : List (Nat × Nat × Nat × Nat × Nat)) (out : OutSt) : State :=
  (s.onFab fun b => { b with ports := ports, discarded := discarded, flooded := flooded }).onOut fun _ => out

/-- `t` comes of `s` by sending, flooding and discarding frames: no link changes its state, and what was sent before stays sent. -/
structure Sends (s t : State) : Prop where
  traffic : t = s.withTraffic t.fab.ports t.fab.discarded t.fab.flooded t.out
  links : ∀ q, (portSt t q).link = (portSt s q).link
  frames : s.out.frames <+: t.out.frames

theorem Sends.refl (s : State) : Sends s s := ⟨rfl, fun _ => rfl, List.prefix_rfl⟩

theorem Sends.trans (h : Sends s t) (k : Sends t u) : Sends s u := by
  refine ⟨k.traffic.trans ?_, fun q => (k.links q).trans (h.links q), h.frames.trans k.frames⟩
  rw [h.traffic]
  rfl

theorem Sends.foldl {α : Type} {f : State → α → State} (h : ∀ s x, Sends s (f s x)) : ∀ (xs : List α) (s : State), Sends s (xs.foldl f s)
  | [], s => .refl s
  | x :: xs, s => (h s x).trans (Sends.foldl h xs (f s x))

/-- What does not look at the traffic reads the same. -/
theorem Sends.same {β : Type} (h : Sends s t) (g : State → β) (hg : ∀ ports d fl out, g (s.withTraffic ports d fl out) = g s := by intros; rfl) : g t = g s := by
  rw [h.traffic]
  exact hg _ _ _ _

theorem Sends.keeps (h : Sends s t) : Keeps [.fab, .out] s t := by
  rw [h.traffic]
  exact ((keeps_onFab s _).mono (by simp)).trans ((keeps_onOut _ _).mono (by simp))

theorem Sends.linkUp (h : Sends s t) (q : Port) : linkUp t q = linkUp s q := by rw [Machine.linkUp, h.links, Machine.linkUp]

theorem sends_sendOn (s : State) (p : Port) (f : Frame) : Sends s (sendOn s p f) := by
  refine ⟨?_, portSt_sendOn_link s p f, ?_⟩
  · unfold sendOn
    split <;> rfl
  · unfold sendOn
    split
    · exact List.prefix_append _ _
    · exact List.prefix_rfl

theorem sends_discardFrame (s : State) : Sends s (discardFrame s) := ⟨rfl, fun _ => rfl, List.prefix_rfl⟩

theorem sends_routeFrame (s : State) (arrived : Option Nat) (n : Nat) (f : Frame) : Sends s (routeFrame s arrived n f) := by
  induction n generalizing f with
  | zero => exact sends_discardFrame s
  | succ n ih =>
    unfold routeFrame
    split
    · exact .refl s
    · split
      · exact sends_sendOn s _ _
      · split
        · exact sends_sendOn s _ _
        · split
          · split
            · exact sends_discardFrame s
            · exact ih _
          · exact sends_discardFrame s

theorem sends_sendTo (s : State) (dest : Nat) (body : FrameBody) (relayed : Bool) : Sends s (sendTo s dest body relayed) := sends_routeFrame s _ _ _

theorem sends_floodOn (s : State) (k : MKind) (subject term value : Nat) (f : Frame) (except : Option Port) :
    Sends s (floodOn s k subject term value f except) := by
  unfold floodOn
  extract_lets v
  have hv : Sends s v := ⟨rfl, fun _ => rfl, List.prefix_rfl⟩
  exact hv.trans (.foldl (fun s p => sends_sendOn s p f) _ _)

end Sys2Proof.Machine
end

section
/-! OBLIGATIONS. Keys carried between twins: O16. -/

namespace Sys2Proof.Machine

set_option Elab.async false

variable {s : State} {slot n tries : Nat} {x : BitVec 32}

/-! ### Frames from the twin and from others (07 R411) -/

theorem fromTwin_twin (htwin : hasTwin s = true) (f : State → State) : fromTwin s (twinAddr s) f = f s := by simp [fromTwin, htwin]

theorem fromTwin_other {src : Nat} (h : hasTwin s = false ∨ src ≠ twinAddr s) (f : State → State) : fromTwin s src f = discardFrame s := by
  simp only [fromTwin]
  obtain h | h := h <;> simp [h]

/-! ### The requests (10 R586) -/

theorem exec_keyTransportRequestRx_deliver {key : Bytes} (htwin : hasTwin s = true) (hpair : pairKey s = some key)
    (hstate : slotState s (slot % 1024) = .loaded) (hretiring : (slotOf s (slot % 1024)).retiring = false) (hunwrapped : s.key.unwrapped = true)
    (hcarriable : carriable s { slot := slot % 1024, gen := (slotOf s (slot % 1024)).gen } (slotOf s (slot % 1024)) = true) (hrng : rngServes s = true) :
    exec (.keyTransportRequestRx (twinAddr s) slot x) s = .next (sendTo ((drew s 12).onFab fun b => { b with keySent := some (slot % 1024, x.toNat) }) (twinAddr s)
      (.keyTransport 1 (slot % 1024) x (makeBlob key (slotOf s (slot % 1024)) (slot % 1024) x (nodeAddr s) (randBytes s 12)))) := by
  show execKeyTransportRequestRx (twinAddr s) slot x s = _
  simp only [execKeyTransportRequestRx, fromTwin_twin htwin, hpair, hstate, hretiring, hunwrapped, hcarriable, hrng, Bool.not_false, and_self, ↓reduceIte, done]
  rfl

/-- A key that may not be carried is refused: without a pair key, out of state LOADED, or with no random bytes. -/
theorem exec_keyTransportRequestRx_refuse (htwin : hasTwin s = true) (h : pairKey s = none ∨ slotState s (slot % 1024) ≠ .loaded ∨ rngServes s = false) :
    exec (.keyTransportRequestRx (twinAddr s) slot x) s = .next (sendTo s (twinAddr s) (.keyTransport 2 (slot % 1024) x [])) := by
  show execKeyTransportRequestRx (twinAddr s) slot x s = _
  simp only [execKeyTransportRequestRx, fromTwin_twin htwin, done]
  cases hpair : pairKey s with
  | none => rfl
  | some key =>
    obtain h | h | h := h
    · simp [h] at hpair
    · simp [h]
    · simp [h]

/-! ### Deliveries (10 R587) and the ends of transfers (07 R412) -/

theorem exec_keyTransportDeliverRx {blob key : Bytes} (hn : n < 1024) (htwin : hasTwin s = true) (hreq : s.fab.keyReq = some (n, x.toNat, tries))
    (hpair : pairKey s = some key) : exec (.keyTransportDeliverRx (twinAddr s) n x blob) s = .next (
      if slotBusy s n then s.onFab fun b => { b with keyDelivery := some { src := twinAddr s, slot := n, xfer := x, blob := blob } }
      else match openBlob key blob n x (twinAddr s) with
      | some (k, g) =>
        if deliverable s n g = true ∧ rngServes s = true then
          (if appendsNow s = true then keyReceipt (storeSlot s n g k.kind 4 k.parent k.attrs k.material) n
           else storeSlot s n g k.kind 4 k.parent k.attrs k.material)
        else keyAskFail s
      | none => keyAskFail s) := by
  show execKeyTransportDeliverRx (twinAddr s) n x blob s = _
  simp only [execKeyTransportDeliverRx, fromTwin_twin htwin, takeDelivery, hreq, hpair, Nat.mod_eq_of_lt hn, ne_eq, not_true_eq_false, or_self, ↓reduceIte,
    Bool.and_eq_true, done] <;> rfl

theorem exec_keyTransportRefuseRx (hn : n < 1024) (htwin : hasTwin s = true) (hreq : s.fab.keyReq = some (n, x.toNat, tries)) (hroute : s.fab.twinRoute = false) :
    exec (.keyTransportRefuseRx (twinAddr s) n x) s = .next (s.onFab fun b => { b with keyReq := none, code := .keyDenied }) := by
  show execKeyTransportRefuseRx (twinAddr s) n x s = _
  simp only [execKeyTransportRefuseRx, fromTwin_twin htwin, hreq, Nat.mod_eq_of_lt hn, and_self, ↓reduceIte, keyAskEnd, fabCode, State.onFab_fab, hroute,
    Bool.not_false, done]
  rfl

theorem exec_keyTransportReceiptRx (hn : n < 1024) (htwin : hasTwin s = true) (hsent : s.fab.keySent = some (n, x.toNat)) :
    exec (.keyTransportReceiptRx (twinAddr s) n x) s = .next (s.onFab fun b => { b with keySent := none }) := by
  show execKeyTransportReceiptRx (twinAddr s) n x s = _
  simp only [execKeyTransportReceiptRx, fromTwin_twin htwin, hsent, Nat.mod_eq_of_lt hn, ↓reduceIte, done]

theorem exec_keyTransportTimeout_sent (hsent : s.fab.keySent ≠ none) : exec .keyTransportTimeout s = .next (s.onFab fun b => { b with keySent := none }) := by
  show execKeyTransportTimeout s = _
  simp only [execKeyTransportTimeout, Option.isSome_iff_ne_none.mpr hsent, ↓reduceIte, done]

theorem exec_keyTransportTimeout_again {xfer : Nat} (hsent : s.fab.keySent = none) (happends : keyAppends s = false) (hreq : s.fab.keyReq = some (n, xfer, tries))
    (hroute : s.fab.twinRoute = true) (htries : tries < 3) : exec .keyTransportTimeout s = .next (askKey s n (tries + 1)) := by
  show execKeyTransportTimeout s = _
  simp [execKeyTransportTimeout, keyAskFail, hsent, happends, hreq, hroute, htries, done]

/-- Settles O16: each row of a transfer goes by the twin check, then by the state of the transfer that it names. -/
theorem keysAreCarriedBetweenTwins : Obligations.KeysAreCarriedBetweenTwins := by
  unfold Obligations.KeysAreCarriedBetweenTwins
  refine ⟨fun _ _ _ _ => exec_keyTransportRequestRx_deliver, fun _ _ _ => exec_keyTransportRequestRx_refuse, fun _ _ _ _ _ _ => exec_keyTransportDeliverRx,
    fun _ _ _ _ => exec_keyTransportRefuseRx, fun _ _ _ => exec_keyTransportReceiptRx, fun _ => exec_keyTransportTimeout_sent,
    fun _ _ _ _ => exec_keyTransportTimeout_again, fun s src slot x blob hother => ?_⟩
  exact ⟨congrArg _ (fromTwin_other hother _), congrArg _ (fromTwin_other hother _), congrArg _ (fromTwin_other hother _), congrArg _ (fromTwin_other hother _)⟩

end Sys2Proof.Machine
end

section
/-! SUPPORT. What a frame that arrives does, check by check (07 R356-R370). -/

namespace Sys2Proof.Machine

set_option Elab.async false

variable {s : State} {p : Port} {w b : Bytes} {h : Header} {body : FrameBody}

/-! ### The body of a frame and its type (07 R366) -/

theorem body_of_formed {len ok : Bool} {c : FrameBody} (h : formed len ok c = .ok body) : body = c := by
  unfold formed at h
  split at h
  · cases h
  · split at h
    · cases h
    · cases h
      rfl

theorem frameType_mirrorBody (h : mirrorBody b = .ok body) : frameType body = 0x03 := by
  unfold mirrorBody at h
  split at h
  · rw [body_of_formed h, frameType]
  · rw [body_of_formed h, frameType]
  · rw [body_of_formed h, frameType]
  · cases h

theorem frameType_mirrorAckBody (h : mirrorAckBody b = .ok body) : frameType body = 0x04 := by
  unfold mirrorAckBody at h
  split at h
  · rw [body_of_formed h, frameType]
  · rw [body_of_formed h, frameType]
  · rw [body_of_formed h, frameType]
  · rw [body_of_formed h, frameType]
  · rw [body_of_formed h, frameType]
  · cases h

/-- A body that parses is one of the type it was parsed as. -/
theorem frameType_bodyOf {typ : Nat} (h : bodyOf typ b = .ok body) : frameType body = typ := by
  unfold bodyOf at h
  split at h
  case h_3 => exact frameType_mirrorBody h
  case h_4 => exact frameType_mirrorAckBody h
  case h_12 => cases h
  all_goals rw [body_of_formed h, frameType]

theorem frameType_frameOf (hbody : frameOf h b = .ok body) : frameType body = h.typ := by
  unfold frameOf at hbody
  split at hbody
  · cases hbody
  · split at hbody
    · cases hbody
    · split at hbody
      · cases hbody
      · exact frameType_bodyOf hbody

/-! ### A frame in order is accepted (07 R365-R370, R378) -/

theorem keeps_rxTurn (s : State) (p : Port) : Keeps [.fab] s (rxTurn s p) := by
  unfold rxTurn
  split
  · exact .refl _ s
  · exact .when _ _ (keeps_onPort s p _)

theorem keeps_tookFrame (s : State) (p : Port) (seq : Nat) : Keeps [.fab] s (tookFrame s p seq) := (keeps_onPort s p _).trans (keeps_rxTurn _ p)

theorem nodeAddr_tookFrame (s : State) (p : Port) (seq : Nat) : nodeAddr (tookFrame s p seq) = nodeAddr s :=
  congrArg (·.node.toNat) (keeps_tookFrame s p seq .pow (by simp))

theorem acceptFrame_error {x : Status} (hbody : frameOf h b = .error x) (htyp : h.typ ≠ 1) : acceptFrame s p h b = discardFrame s := by
  simp only [acceptFrame, hbody, htyp, false_and, ↓reduceIte]

/-- A flooded frame of class Link, and one from this node to itself. -/
theorem acceptFrame_refused (hbody : frameOf h b = .ok body)
    (hrefused : (isLinkClass h.typ = true ∧ h.flags.testBit 2 = true) ∨ (h.dest = nodeAddr s ∧ h.src = nodeAddr s)) :
    acceptFrame s p h b = discardFrame s := by
  simp only [acceptFrame, hbody]
  obtain ⟨hlink, hflood⟩ | ⟨hdest, hsrc⟩ := hrefused
  · simp only [hlink, hflood, Bool.and_self, ↓reduceIte]
  · simp only [hdest, hsrc, beq_self_eq_true, Bool.and_self, ↓reduceIte, ite_self]

/-- A frame as it goes on, with one more hop. -/
def onward (h : Header) (body : FrameBody) : Frame where
  src := h.src
  dest := h.dest
  vc := h.flags.testBit 0
  detour := h.flags.testBit 1
  flood := false
  relayed := h.flags.testBit 3
  hops := h.hops + 1
  body := body

section
variable (hbody : frameOf h b = .ok body) (hdest : h.dest ≠ nodeAddr s) (hflood : h.flags.testBit 2 = false)
include hbody hdest hflood

/-- A well-formed frame for another node, but no TIME_PULSE: a forward that no link takes, redirected to this very node, is delivered; any other frame
is routed on. -/
theorem acceptFrame_onward (hpulse : h.typ ≠ 9) : acceptFrame s p h b =
    if h.typ = 1 ∧ stuck s (onward h body) = true ∧ h.flags.testBit 3 = false ∧ pairOther h.dest = nodeAddr s then
      deliver s p { onward h body with relayed := true, dest := nodeAddr s }
    else routeFrame s (some (portDim p)) 2 (onward h body) := by
  have htype := frameType_frameOf hbody
  simp only [acceptFrame, hbody, beq_false_of_ne hdest, hflood, hpulse, Bool.and_false, Bool.false_and, Bool.or_self, Bool.false_eq_true, ↓reduceIte]
  cases body
  case verdictFwd =>
    rw [← htype]
    simp only [frameType, true_and, Bool.and_eq_true, Bool.not_eq_true', beq_iff_eq, and_assoc]
    rfl
  all_goals
    have hother : h.typ ≠ 1 := by simp [← htype, frameType]
    simp only [hother, false_and, ↓reduceIte]
    rfl

end

theorem acceptFrame_heartbeat {a t c q : Bool} {r : BitVec 4} {term g : Nat} (hbody : frameOf h b = .ok (.heartbeat a t c q r term g))
    (hdest : h.dest = nodeAddr s) (hsrc : h.src ≠ nodeAddr s) (hflood : h.flags.testBit 2 = false) :
    exec (.heartbeatRx h.src a t c q r term g) s = .next (acceptFrame s p h b) := by
  simp only [acceptFrame, hbody, hdest, hflood, beq_self_eq_true, beq_false_of_ne hsrc, Bool.and_false, Bool.true_or, Bool.false_eq_true, ↓reduceIte, deliver]
  rfl

/-! ### FRAME_ROUTE (07 R356, R358, R361) -/

section
variable (hup : linkUp s p = true) (hmain : s.pow.mainUp = true)
include hup hmain

theorem exec_frameRoute_crc (hcrc : crcGood w = false) : exec (.frameRoute p w) s = .next (rxFail s p .crc) := by
  show execFrameRoute p w s = _
  simp [execFrameRoute, hup, hmain, hcrc, done]

/-- A frame whose link_seq is not the expected one: later, it shows a gap; earlier, it was taken already. -/
theorem exec_frameRoute_unexpected (hcrc : crcGood w = true) (hseq : (headerOf w).seq ≠ (portSt s p).rxSeq % 2 ^ 32) : exec (.frameRoute p w) s = .next (
    if ((headerOf w).seq + 2 ^ 32 - (portSt s p).rxSeq % 2 ^ 32) % 2 ^ 32 < 2 ^ 31 then rxFail s p .gap else s) := by
  show execFrameRoute p w s = _
  simp only [execFrameRoute, hup, hmain, hcrc, hseq, Bool.not_true, Bool.or_self, Bool.false_eq_true, ne_eq, not_false_eq_true, ↓reduceIte, done]

section
variable (hcrc : crcGood w = true) (hseq : (headerOf w).seq = (portSt s p).rxSeq % 2 ^ 32)
include hcrc hseq

theorem exec_frameRoute_badTag (hopen : openFrame (portSt s p).rxKey (portSt s p).rxSeq w = none) : exec (.frameRoute p w) s = .next (rxFail s p .gcm) := by
  show execFrameRoute p w s = _
  simp only [execFrameRoute, hup, hmain, hcrc, hseq, hopen, Bool.not_true, Bool.or_self, Bool.false_eq_true, ne_eq, not_true_eq_false, ↓reduceIte, done]

theorem exec_frameRoute_taken (hopen : openFrame (portSt s p).rxKey (portSt s p).rxSeq w = some b) :
    exec (.frameRoute p w) s = .next (acceptFrame (tookFrame s p (headerOf w).seq) p (headerOf w) b) := by
  show execFrameRoute p w s = _
  simp only [execFrameRoute, hup, hmain, hcrc, hseq, hopen, Bool.not_true, Bool.or_self, Bool.false_eq_true, ne_eq, not_true_eq_false, ↓reduceIte, done]

end

end

end Sys2Proof.Machine
end

section
/-! OBLIGATIONS. Frames that arrive and frames that are sent: O34. -/

namespace Sys2Proof.Machine

set_option Elab.async false

/-- Settles O34: a frame goes through CRC, link_seq and tag, then through the checks of its header and body; a sent one is the next under its key. -/
theorem framesAreTakenRoutedOrDiscarded : Obligations.FramesAreTakenRoutedOrDiscarded := by
  unfold Obligations.FramesAreTakenRoutedOrDiscarded
  refine ⟨fun s p w hup hmain => ?arrives, ?sent, ?held⟩
  case arrives =>
    intro h e u
    have haddr : nodeAddr u = nodeAddr s := nodeAddr_tookFrame s p h.seq
    refine ⟨exec_frameRoute_crc hup hmain, fun hcrc hseq hlater => ?_, fun hcrc hseq hearlier => ?_, fun hcrc hseq htag => ?_, fun b hcrc hseq hopen => ?_⟩
    · exact (exec_frameRoute_unexpected hup hmain hcrc hseq).trans (congrArg _ (if_pos hlater))
    · exact (exec_frameRoute_unexpected hup hmain hcrc hseq).trans (congrArg _ (if_neg (Nat.not_lt.mpr hearlier)))
    · exact exec_frameRoute_badTag hup hmain hcrc hseq htag
    · have hexec : exec (.frameRoute p w) s = .next (acceptFrame u p h b) := exec_frameRoute_taken hup hmain hcrc hseq hopen
      refine ⟨hexec, fun x hbody htyp => ?_, fun body hbody hrefused => ?_, fun body hbody hdest hflood hpulse => ?_, ?_⟩
      · rw [hexec, acceptFrame_error hbody htyp]
      · rw [hexec, acceptFrame_refused hbody (haddr ▸ hrefused)]
      · have honward : acceptFrame u p h b = _ := acceptFrame_onward hbody (haddr ▸ hdest) hflood hpulse
        refine ⟨fun hroutes => ?_, fun hfwd hstuck hfirst hpair => ?_⟩
        · rw [hexec, honward, if_neg]
          · rfl
          · rintro ⟨hfwd, hstuck, -⟩
            obtain hother | hfree := hroutes
            · exact hother hfwd
            · exact absurd (hstuck.symm.trans hfree) (by decide)
        · rw [hexec, honward, if_pos ⟨hfwd, hstuck, hfirst, hpair.trans haddr.symm⟩, haddr]
          rfl
      · intro a t c q r term g x hbody hdest hsrc _ hflood hbeat
        have haccepted := acceptFrame_heartbeat (p := p) hbody (hdest.trans haddr.symm) (haddr ▸ hsrc) hflood
        rw [hexec, ← haccepted, hbeat]
  case sent =>
    intro s p f _ hfree n x
    rw [sendOn_of_free hfree]
    exact ⟨(putFrame_outputs s p f).2, congrArg PortSt.txSeq (portSt_putFrame_self s p f), congrArg PortSt.replay (portSt_putFrame_self s p f)⟩
  case held =>
    intro s p f hheld
    refine sendOn_of_held ?_
    obtain h | h := hheld <;> simp [canPut, h]

end Sys2Proof.Machine
end

section
/-! SUPPORT. What the rows of a link do to its port: training, keys, acknowledgement and resending, lanes, going DOWN (07 R350-R361, R413-R415). -/

namespace Sys2Proof.Machine

set_option Elab.async false

variable {s : State} {p : Port}

/-! ### Going DOWN (07 R360) -/

/-- A port after its link has gone DOWN. -/
def wentDown (s : State) (p : Port) (l : PortSt) : PortSt :=
  { freshPort s.time.clk l with
    link := .down, rekeying := false, dropped := l.dropped + l.replay.length + l.waiting.length, replay := [], waiting := [], linkKeys := [], txKey := []
    rxKey := [], nextNonce := [], rxSwitch := none, lastRx := none, locked := false, gcmFails := [], helloOk := false, retraining := false, txSeq := 0
    rxSeq := 0, downAt := if linkUp s p then (freshPort s.time.clk l).downAt ++ [s.time.clk] else (freshPort s.time.clk l).downAt }

theorem keeps_linkDown_port (s : State) (p : Port) : Keeps [.unit] (onPort s p (wentDown s p)) (linkDown s p) :=
  .trans (.when _ _ (keeps_irqMain _ _)) (.when _ _ (keeps_observe _ _ _ _ _))

theorem keeps_linkDown (s : State) (p : Port) : Keeps [.fab, .unit] s (linkDown s p) :=
  ((keeps_onPort s p _).mono (by simp)).trans ((keeps_linkDown_port s p).mono (by simp))

theorem portSt_linkDown_eq (s : State) (p : Port) : portSt (linkDown s p) p = portSt (onPort s p (wentDown s p)) p :=
  portSt_congr (congrArg FabSt.ports (keeps_linkDown_port s p .fab (by simp))) p

/-- The end of an UP link is recorded, so that its port does not read as an unlisted one. -/
theorem portSt_linkDown (hup : linkUp s p = true) : portSt (linkDown s p) p = wentDown s p (portSt s p) := by
  rw [portSt_linkDown_eq]
  refine portSt_onPort_self fun hdefault => ?_
  have hdown : (wentDown s p (portSt s p)).downAt = [] := congrArg PortSt.downAt hdefault
  simp [wentDown, hup] at hdown

theorem portSt_linkDown_canonical (hform : twf {} s.fab.ports = true) : portSt (linkDown s p) p = wentDown s p (portSt s p) := by
  rw [portSt_linkDown_eq]
  exact tget_tupd hform

/-! ### Training (07 R351-R353) -/

/-- The training pattern goes out. -/
def trainingBegun (s : State) (p : Port) (echo : Option Nat) : State :=
  sendBlock (onPort s p fun l => { l with
    link := .training, helloOk := false, nonce := [], linkKeys := [], txKey := [], rxKey := [], rxSwitch := none, lastRx := none
    rekeying := false, locked := echo.isSome, delay := echo.getD 0, txSeq := 0, rxSeq := 0, replay := [], waiting := [] }) p .training

/-- The nonce of this end's HELLO is drawn. -/
def nonceDrawn (s : State) (p : Port) : State := drew (onPort s p fun l => { l with nonce := randBytes s 32 }) 32

/-- ALIGN and HELLO follow on locked lanes. -/
def helloSent (s : State) (p : Port) : State := sendBlock (sendBlock (nonceDrawn s p) p .align) p (.hello (ownHello (nonceDrawn s p) p))

section
variable {echo : Option Nat} (husable : portUsable s p = true) (hmain : s.pow.mainUp = true) (hreplayed : s.led.replayed = true) (hsafe : s.pow.safe = false)
  (hdown : (portSt s p).link = .down)
include husable hmain hreplayed hsafe hdown

theorem startTraining_eq : startTraining s p echo = (trainingBegun s p echo).when (echo.isSome && rngServes s) (helloSent · p) := by
  simp only [startTraining, husable, hmain, hreplayed, hsafe, hdown, Bool.not_true, bne_self_eq_false, Bool.or_self, Bool.false_eq_true, ↓reduceIte]
  rfl

end

theorem portSt_trainingBegun (s : State) (p : Port) (echo : Option Nat) : portSt (trainingBegun s p echo) p =
    { portSt s p with
      link := .training, helloOk := false, nonce := [], linkKeys := [], txKey := [], rxKey := [], rxSwitch := none, lastRx := none
      rekeying := false, locked := echo.isSome, delay := echo.getD 0, txSeq := 0, rxSeq := 0, replay := [], waiting := [] } :=
  portSt_onPort (by simp)

theorem keeps_trainingBegun (s : State) (p : Port) (echo : Option Nat) : Keeps [.fab, .out] s (trainingBegun s p echo) :=
  ((keeps_onPort s p _).mono (by simp)).trans ((keeps_onOut _ _).mono (by simp))

theorem portSt_helloSent (h : (portSt s p).link ≠ .down) : portSt (helloSent s p) p = { portSt s p with nonce := randBytes s 32 } :=
  portSt_onPort (f := fun l => { l with nonce := randBytes s 32 }) h

theorem keeps_helloSent (s : State) (p : Port) : Keeps [.fab, .rng, .out] s (helloSent s p) :=
  ((((keeps_onPort s p _).mono (by simp)).trans ((keeps_drew _ _).mono (by simp))).trans ((keeps_onOut _ _).mono (by simp))).trans
    ((keeps_onOut _ _).mono (by simp))

theorem helloSent_blocks (s : State) (p : Port) :
    (helloSent s p).out.blocks = s.out.blocks ++ [(p, .align), (p, .hello (ownHello (helloSent s p) p))] :=
  List.append_assoc s.out.blocks _ _

/-! ### HELLO (07 R352) -/

section
variable {h : Hello} (htraining : (portSt s p).link = .training) (hlocked : (portSt s p).locked = true) (hnonce : (portSt s p).nonce ≠ [])
  (hfirst : (portSt s p).helloOk = false)
include htraining hlocked hnonce hfirst

theorem exec_helloRx_refused (hfine : helloFine s p h = false) : exec (.helloRx p h) s = .next (observe (linkDown s p) (portUnit p) .active 0 0x04) := by
  show execHelloRx p h s = _
  simp only [execHelloRx, htraining, hlocked, List.isEmpty_eq_false_iff.mpr hnonce, hfirst, hfine, beq_self_eq_true, Bool.not_false, Bool.and_self,
    State.when_true, ↓reduceIte, done]

theorem exec_helloRx_noKey (hfine : helloFine s p h = true) (hkey : linkKeysOf (onPort s p fun l => { l with peer := h, helloOk := true }) p = none) :
    exec (.helloRx p h) s = .next (onPort s p fun l => { l with peer := h, helloOk := true }) := by
  show execHelloRx p h s = _
  simp only [execHelloRx, htraining, hlocked, List.isEmpty_eq_false_iff.mpr hnonce, hfirst, hfine, hkey, beq_self_eq_true, Bool.not_false, Bool.not_true, Bool.and_self,
    State.when_true, Bool.false_eq_true, ↓reduceIte, done]

theorem exec_helloRx_keyed {k : Bytes} (hfine : helloFine s p h = true) (hkey : linkKeysOf (onPort s p fun l => { l with peer := h, helloOk := true }) p = some k) :
    let u := onPort s p fun l => { l with peer := h, helloOk := true }
    let v := onPort u p fun l => { l with linkKeys := k, txKey := directionKey u p k true, rxKey := directionKey u p k false }
    exec (.helloRx p h) s = .next (sendBlock v p (.keyx (keyxMac v p) [] 0)) := by
  intro u v
  show execHelloRx p h s = _
  simp only [execHelloRx, htraining, hlocked, List.isEmpty_eq_false_iff.mpr hnonce, hfirst, hfine, hkey, beq_self_eq_true, Bool.not_false, Bool.not_true, Bool.and_self,
    State.when_true, Bool.false_eq_true, ↓reduceIte, done]
  rfl

end

/-! ### KEYX (07 R355, R357) -/

/-- The link is UP, and says so. -/
def cameUp (s : State) (p : Port) : State := irqMain (onPort s p fun l => { l with link := .up }) 14

/-- The first HEARTBEAT of a member goes to the neighbour. -/
def greeted (s : State) (p : Port) : State :=
  s.when (isMember s (nodeAddr s) && !s.fab.withdrawn) fun s => sendOn s p { src := nodeAddr s, dest := neighbour s p, body := heartbeat s }

/-- The first TIME_PULSE of node `me` follows. -/
def timed (s : State) (me : Nat) (p : Port) : State :=
  sendOn s p { src := me, dest := neighbour s p, body := .timePulse s.time.mUs s.time.mUnc s.time.mAnch }

theorem linkUp_cameUp (s : State) (p : Port) : linkUp (cameUp s p) p = true :=
  linkUp_iff.mpr (congrArg PortSt.link (portSt_onPort (s := s) (f := fun l => { l with link := .up }) (by simp)))

theorem linkUp_askView (s : State) (p q : Port) : linkUp (askView s p) q = linkUp s q := (sends_sendTo _ _ _ _).linkUp q

theorem linkUp_beginJoin (s : State) (p q : Port) : linkUp (beginJoin s p) q = linkUp s q := by
  unfold beginJoin
  split
  · rfl
  · exact (linkUp_askView _ p q).trans ((sends_floodOn s _ _ _ _ _ _).linkUp q)

theorem sends_greeted (s : State) (p : Port) : Sends s (greeted s p) := by
  unfold greeted
  cases isMember s (nodeAddr s) && !s.fab.withdrawn
  · exact .refl s
  · exact sends_sendOn s p _

section
variable {nonce : Bytes} {switchAt : Nat} (hkeys : (portSt s p).linkKeys ≠ []) (hhello : (portSt s p).helloOk = true)
include hkeys hhello

theorem exec_keyxRx_training (htraining : (portSt s p).link = .training) :
    exec (.keyxRx p (keyxMac s p) nonce switchAt) s = .next (beginJoin (timed (greeted (cameUp s p) p) (nodeAddr s) p) p) := by
  show execKeyxRx p _ nonce switchAt s = _
  simp only [execKeyxRx, List.isEmpty_eq_false_iff.mpr hkeys, hhello, htraining, Bool.not_true, Bool.or_self, Bool.false_eq_true, ne_eq,
    not_true_eq_false, ↓reduceIte, done]
  rfl

theorem exec_keyxRx_bad {mac : Bytes} (hmac : mac ≠ keyxMac s p) (htraining : (portSt s p).link = .training) :
    exec (.keyxRx p mac nonce switchAt) s = .next (linkDown (onPort s p fun l => { l with keyxFails := l.keyxFails + 1 }) p) := by
  show execKeyxRx p mac nonce switchAt s = _
  simp only [execKeyxRx, List.isEmpty_eq_false_iff.mpr hkeys, hhello, htraining, hmac, Bool.not_true, Bool.or_self, Bool.false_eq_true, ne_eq,
    not_false_eq_true, ↓reduceIte, done]

theorem exec_keyxRx_rekey (hup : linkUp s p = true) (hnonce : nonce ≠ []) : exec (.keyxRx p (keyxMac s p) nonce switchAt) s = .next (
    if (portSt s p).rekeying then finishRekey s p nonce switchAt
    else if rngServes s then finishRekey (sendRekey s p) p nonce switchAt
    else linkDown s p) := by
  show execKeyxRx p _ nonce switchAt s = _
  simp [execKeyxRx, hkeys, hhello, linkUp_iff.mp hup, hnonce, done]

end

/-- A KEYX that fails is counted, so that the port of the link it takes DOWN does not read as an unlisted one. -/
theorem portSt_linkDown_keyxFails (h : (portSt s p).keyxFails ≠ 0) : (portSt (linkDown s p) p).link = .down := by
  rw [portSt_linkDown_eq, portSt_onPort_self fun hdefault => h (congrArg PortSt.keyxFails hdefault)]
  rfl

theorem portSt_sendRekey (hup : linkUp s p = true) : portSt (sendRekey s p) p = { portSt s p with nextNonce := randBytes s 32, rekeying := true } :=
  portSt_onPort_up (s := sendBlock (drew s 32) p _) hup

theorem keeps_sendRekey (s : State) (p : Port) : Keeps [.fab, .rng, .out] s (sendRekey s p) :=
  (((keeps_drew s _).mono (by simp)).trans ((keeps_onOut _ _).mono (by simp))).trans ((keeps_onPort _ p _).mono (by simp))

theorem exec_linkRekey (hup : linkUp s p = true) (hidle : (portSt s p).rekeying = false) (hrng : rngServes s = true) :
    exec (.linkRekey p) s = .next (sendRekey s p) := by
  show execLinkRekey p s = _
  simp [execLinkRekey, hup, hidle, hrng, done]

theorem flushPort_of_none (h : (portSt s p).waiting = []) : flushPort s p = onPort s p fun l => { l with waiting := [] } := by rw [flushPort, h, putFrames]

theorem rxTurn_of_later {n : Nat} {k : Bytes} (hswitch : (portSt s p).rxSwitch = some (n, k)) (hlater : (portSt s p).rxSeq < n) : rxTurn s p = s := by
  simp [rxTurn, hswitch, Nat.not_le.mpr hlater]

/-- Both nonces of a re-key are known. -/
def noncesKnown (s : State) (p : Port) (nonce : Bytes) : State :=
  onPort s p fun l => { l with nonce := l.nextNonce, nextNonce := [], peer := { l.peer with nonce := fit 32 nonce } }

/-- A finished re-key: the new key of this direction from frame 0 on, that of the other from the count its end named. -/
theorem portSt_finishRekey {nonce k : Bytes} {n : Nat} (hup : linkUp s p = true) (hwaiting : (portSt s p).waiting = []) (hlater : (portSt s p).rxSeq < n)
    (hkeys : linkKeysOf (noncesKnown s p nonce) p = some k) : portSt (finishRekey s p nonce n) p =
    { portSt s p with
      nonce := (portSt s p).nextNonce, nextNonce := [], peer := { (portSt s p).peer with nonce := fit 32 nonce }, linkKeys := k
      txKey := directionKey s p k true, txSeq := 0, rxSwitch := some (n, directionKey s p k false), rekeying := false
      rekeys := (portSt s p).rekeys + 1, waiting := [] } := by
  have hu : portSt (noncesKnown s p nonce) p = _ := portSt_onPort_up hup
  have hupU : linkUp (noncesKnown s p nonce) p = true := by rw [linkUp, hu]; exact hup
  have hdir : ∀ out, directionKey (noncesKnown s p nonce) p k out = directionKey s p k out := by
    intro out
    rw [directionKey, hu]
    rfl
  have hfinish : finishRekey s p nonce n = flushPort (rxTurn (onPort (noncesKnown s p nonce) p fun l => { l with
      linkKeys := k, txKey := directionKey s p k true, txSeq := 0, rxSwitch := some (n, directionKey s p k false), rekeying := false
      rekeys := l.rekeys + 1 }) p) p := by
    rw [← hdir, ← hdir]
    show (match linkKeysOf (noncesKnown s p nonce) p with | none => _ | some k => _) = _
    rw [hkeys]
    rfl
  have hv := portSt_onPort_up (f := fun l => { l with
      linkKeys := k, txKey := directionKey s p k true, txSeq := 0, rxSwitch := some (n, directionKey s p k false), rekeying := false, rekeys := l.rekeys + 1 }) hupU
  rw [hu] at hv
  rw [hfinish, rxTurn_of_later (congrArg PortSt.rxSwitch hv) (by rw [hv]; exact hlater), flushPort_of_none ((congrArg PortSt.waiting hv).trans hwaiting),
    portSt_onPort_up (by rw [linkUp, hv]; exact hup), hv]

/-! ### Acknowledgement and resending (07 R358-R360) -/

theorem exec_ackTimer {n : Nat} (hup : linkUp s p = true) (hlast : (portSt s p).lastRx = some n) : exec (.ackTimer p) s = .next (sendBlock s p (.ack n)) := by
  show execAckTimer p s = _
  simp only [execAckTimer, hup, hlast, ↓reduceIte, done]

theorem exec_ackRx_unknown {n : Nat} (hrest : fromSeq n (portSt s p).replay = []) : exec (.ackRx p n) s = .next s := by
  show execAckRx p n s = _
  simp [execAckRx, hrest, done]

theorem exec_ackRx {n : Nat} (hup : linkUp s p = true) (hrest : fromSeq n (portSt s p).replay ≠ []) : exec (.ackRx p n) s = .next (
    flushPort (onPort s p fun l => { l with replay := (fromSeq n (portSt s p).replay).drop 1 }) p) := by
  show execAckRx p n s = _
  simp only [execAckRx, hup, List.isEmpty_eq_false_iff.mpr hrest, Bool.not_false, Bool.and_self, State.when_true, done]
  rfl

theorem mem_of_fromSeq {n : Nat} {x : Sent} : ∀ {xs : List Sent}, x ∈ fromSeq n xs → x ∈ xs
  | [], h => h
  | y :: ys, h => by
    unfold fromSeq at h
    split at h
    · exact h
    · exact List.mem_cons_of_mem _ (mem_of_fromSeq h)

/-- The frames from a number on are sent again, and counted as resent. -/
def resent (s : State) (p : Port) (n : Nat) : State :=
  onPort (sendAgain s p (fromSeq n (portSt s p).replay)) p fun l => { freshPort s.time.clk l with
    replay := l.replay.take (l.replay.length - (fromSeq n (portSt s p).replay).length) ++
      (fromSeq n (portSt s p).replay).map fun x => { x with resends := x.resends + 1 }
    traffic := (freshPort s.time.clk l).traffic ++ [(s.time.clk, 0, (fromSeq n (portSt s p).replay).length)] }

/-- Too much resending is posted against the port (07 R415). -/
def resendsPosted (s : State) (p : Port) : State :=
  s.when (resendsTooOften s.time.clk (portSt s p)) fun s => observe s (portUnit p) .retired 0 0x03

theorem keeps_resendsPosted (s : State) (p : Port) : Keeps [.unit] s (resendsPosted s p) := .when _ _ (keeps_observe _ _ _ _ _)

theorem portSt_resendsPosted (s : State) (p : Port) : portSt (resendsPosted s p) p = portSt s p :=
  portSt_congr (congrArg FabSt.ports (keeps_resendsPosted s p .fab (by simp))) p

theorem exec_nakRx {n : Nat} (hup : linkUp s p = true) (hagain : fromSeq n (portSt s p).replay ≠ []) : exec (.nakRx p n) s = .next (
    (resendsPosted (resent s p n) p).when ((portSt (resent s p n) p).replay.any fun x => decide (x.resends ≥ 8)) (linkDown · p)) := by
  show execNakRx p n s = _
  simp only [execNakRx, hup, List.isEmpty_eq_false_iff.mpr hagain, Bool.not_false, Bool.and_self, State.when_true, done]
  rfl

theorem linkUp_resent {n : Nat} (hup : linkUp s p = true) : linkUp (resent s p n) p = true := by
  rw [linkUp, resent, portSt_onPort_up (s := sendAgain s p _) hup]
  exact hup

theorem replay_resent {n : Nat} (hup : linkUp s p = true) : (portSt (resent s p n) p).replay =
    (portSt s p).replay.take ((portSt s p).replay.length - (fromSeq n (portSt s p).replay).length) ++
      (fromSeq n (portSt s p).replay).map fun x => { x with resends := x.resends + 1 } := by
  rw [resent, portSt_onPort_up (s := sendAgain s p _) hup]
  rfl

/-- The state after a NAK: the frames went out as they were; one resent for the eighth time takes the link DOWN, else the buffer keeps them all. -/
theorem nakRx_resends {n : Nat} (hup : linkUp s p = true) (hagain : fromSeq n (portSt s p).replay ≠ []) : ∃ t, exec (.nakRx p n) s = .next t ∧
    t.out = (sendAgain s p (fromSeq n (portSt s p).replay)).out ∧
    ((∀ x ∈ (portSt s p).replay, x.resends < 7) → linkUp t p = true ∧ (portSt t p).replay = (portSt (resent s p n) p).replay) ∧
    ((∃ x ∈ fromSeq n (portSt s p).replay, 7 ≤ x.resends) → (portSt t p).link = .down ∧ (portSt t p).replay = []) := by
  have hposted := portSt_resendsPosted (resent s p n) p
  have hupPosted : linkUp (resendsPosted (resent s p n) p) p = true := by rw [linkUp, hposted]; exact linkUp_resent hup
  refine ⟨_, exec_nakRx hup hagain, ?_, fun hfew => ?_, fun ⟨x, hx, hmany⟩ => ?_⟩
  · have hposts : Keeps [.unit] (resent s p n) (resendsPosted (resent s p n) p) := keeps_resendsPosted _ p
    have hdown : Keeps [.fab, .unit] (resendsPosted (resent s p n) p) _ :=
      .when ((portSt (resent s p n) p).replay.any fun x => decide (x.resends ≥ 8)) (linkDown · p) (keeps_linkDown _ p)
    exact (hdown .out (by simp)).trans (hposts .out (by simp))
  · have hnone : ((portSt (resent s p n) p).replay.any fun x => decide (x.resends ≥ 8)) = false := by
      rw [List.any_eq_false, replay_resent hup]
      intro y hy
      rw [decide_eq_true_eq, ge_iff_le, Nat.not_le]
      obtain hy | hy := List.mem_append.mp hy
      · have := hfew y (List.mem_of_mem_take hy)
        omega
      · obtain ⟨x, hx, rfl⟩ := List.mem_map.mp hy
        have := hfew x (mem_of_fromSeq hx)
        exact Nat.succ_lt_succ this
    rw [hnone, State.when_false]
    exact ⟨hupPosted, congrArg PortSt.replay hposted⟩
  · have hany : ((portSt (resent s p n) p).replay.any fun x => decide (x.resends ≥ 8)) = true := by
      rw [List.any_eq_true, replay_resent hup]
      exact ⟨_, List.mem_append_right _ (List.mem_map_of_mem hx), decide_eq_true (Nat.succ_le_succ hmany)⟩
    rw [hany, State.when_true, portSt_linkDown hupPosted]
    exact ⟨rfl, rfl⟩

/-! ### Failures of reception (07 R358, R360) -/

/-- A GCM failure is answered by NAK and counted. -/
def gcmCounted (s : State) (p : Port) : State :=
  onPort (sendBlock s p (.nak ((portSt s p).rxSeq % 2 ^ 32))) p fun l => { freshPort s.time.clk l with gcmFails := (freshPort s.time.clk l).gcmFails ++ [s.time.clk] }

theorem exec_frameCrcGcmFailure (hup : linkUp s p = true) (what : RxFault) : exec (.frameCrcGcmFailure p what) s = .next (rxFail s p what) := by
  show execFrameCrcGcmFailure p what s = _
  rw [execFrameCrcGcmFailure, hup, State.when_true, done]

theorem portSt_gcmCounted (hup : linkUp s p = true) : portSt (gcmCounted s p) p =
    { freshPort s.time.clk (portSt s p) with gcmFails := (freshPort s.time.clk (portSt s p)).gcmFails ++ [s.time.clk] } :=
  portSt_onPort_up (s := sendBlock s p _) hup

theorem linkUp_gcmCounted (hup : linkUp s p = true) : linkUp (gcmCounted s p) p = true := by
  rw [linkUp, portSt_gcmCounted hup]
  exact hup

/-- The third failure within one second takes the link DOWN, one before it does not. -/
theorem rxFail_gcm (hup : linkUp s p = true) : rxFail s p .gcm =
    if 2 ≤ (freshPort s.time.clk (portSt s p)).gcmFails.length then linkDown (gcmCounted s p) p else gcmCounted s p := by
  have hcount : (portSt (gcmCounted s p) p).gcmFails.length = (freshPort s.time.clk (portSt s p)).gcmFails.length + 1 := by
    rw [portSt_gcmCounted hup]
    exact List.length_append
  show (gcmCounted s p).when (decide ((portSt (gcmCounted s p) p).gcmFails.length ≥ 3)) (linkDown · p) = _
  rw [hcount, State.when]
  simp only [decide_eq_true_eq, ge_iff_le, Nat.reduceLeDiff]

/-! ### Lanes (07 R414) and timeouts -/

theorem exec_degradeRx {l : BitVec 1} (hup : linkUp s p = true) : exec (.degradeRx p l) s = .next (
    onPort s p fun x => { x with retraining := true, lanesRetired := x.lanesRetired ||| (if l = 0 then 1 else 2) }) := by
  show execDegradeRx p l s = _
  rw [execDegradeRx, hup, State.when_true, done]

theorem portSt_retrained (hup : linkUp s p = true) :
    portSt (onPort s p fun l => { l with retraining := false }) p = { portSt s p with retraining := false } := portSt_onPort_up hup

theorem exec_laneRetrainDone (hup : linkUp s p = true) (hretrain : (portSt s p).retraining = true) : exec (.laneRetrainDone p) s = .next (
    flushPort (sendAgain (onPort s p fun l => { l with retraining := false }) p (portSt s p).replay) p) := by
  show execLaneRetrainDone p s = _
  simp only [execLaneRetrainDone, hup, hretrain, portSt_retrained hup, Bool.and_self, State.when_true, done]

theorem exec_laneRetrainTimeout (hup : linkUp s p = true) (hretrain : (portSt s p).retraining = true) : exec (.laneRetrainTimeout p) s = .next (linkDown s p) := by
  show execLaneRetrainTimeout p s = _
  simp only [execLaneRetrainTimeout, hup, hretrain, Bool.and_self, State.when_true, done]

theorem exec_linkAckTimeout (hup : linkUp s p = true) (hretrain : (portSt s p).retraining = false) : exec (.linkAckTimeout p) s = .next (linkDown s p) := by
  show execLinkAckTimeout p s = _
  simp only [execLinkAckTimeout, hup, hretrain, Bool.not_false, Bool.and_self, State.when_true, done]

theorem exec_linkTrainTimeout (htraining : (portSt s p).link = .training) : exec (.linkTrainTimeout p) s = .next (linkDown s p) := by
  show execLinkTrainTimeout p s = _
  simp only [execLinkTrainTimeout, htraining, beq_self_eq_true, State.when_true, done]

theorem exec_downRx (h : (portSt s p).link ≠ .down) : exec (.downRx p) s = .next (linkDown s p) := by
  show execDownRx p s = _
  simp only [execDownRx, bne_iff_ne.mpr h, State.when_true, done]

end Sys2Proof.Machine
end

section
/-! OBLIGATIONS. Links train, re-key, acknowledge, resend and go DOWN: O33. -/

namespace Sys2Proof.Machine

set_option Elab.async false

variable {s : State} {p : Port}

section
variable {echo : Option Nat} (husable : portUsable s p = true) (hmain : s.pow.mainUp = true) (hreplayed : s.led.replayed = true) (hsafe : s.pow.safe = false)
  (hdown : (portSt s p).link = .down)
include husable hmain hreplayed hsafe hdown

/-- With both lanes locked and the DRBG serving, training goes on to ALIGN and HELLO. -/
theorem completes_linkTrainStart_locked {d : Nat} (hrng : rngServes s = true) : Completes (.linkTrainStart p (some d)) s [.fab, .rng, .out] fun t =>
    (portSt t p).link = .training ∧ (portSt t p).nonce = randBytes s 32 ∧ (portSt t p).delay = d ∧
      t.out.blocks = s.out.blocks ++ [(p, .training), (p, .align), (p, .hello (ownHello t p))] := by
  have hport := portSt_trainingBegun s p (some d)
  have hsent : portSt (helloSent (trainingBegun s p (some d)) p) p = _ := portSt_helloSent (by simp [hport])
  have hexec : exec (.linkTrainStart p (some d)) s = .next (helloSent (trainingBegun s p (some d)) p) := by
    show Host.Outcome.next (startTraining s p (some d)) = _
    rw [startTraining_eq husable hmain hreplayed hsafe hdown, Option.isSome_some, hrng, Bool.and_self, State.when_true]
  rw [hport] at hsent
  refine ⟨_, hexec, ⟨congrArg PortSt.link hsent, congrArg PortSt.nonce hsent, congrArg PortSt.delay hsent, ?_⟩,
    ((keeps_trainingBegun s p _).mono (by simp)).trans (keeps_helloSent _ p)⟩
  rw [helloSent_blocks]
  exact List.append_assoc s.out.blocks [(p, .training)] _

/-- Without them the training pattern alone goes out. -/
theorem completes_linkTrainStart_unlocked : Completes (.linkTrainStart p none) s [.fab, .out] fun t =>
    (portSt t p).link = .training ∧ (portSt t p).nonce = [] ∧ t.out.blocks = s.out.blocks ++ [(p, .training)] := by
  have hport := portSt_trainingBegun s p none
  have hexec : exec (.linkTrainStart p none) s = .next (trainingBegun s p none) :=
    congrArg Host.Outcome.next (startTraining_eq husable hmain hreplayed hsafe hdown)
  exact ⟨_, hexec, ⟨congrArg PortSt.link hport, congrArg PortSt.nonce hport, rfl⟩, keeps_trainingBegun s p none⟩

end

/-- A KEYX that confirms brings a link in training UP, one that does not takes it DOWN. -/
theorem keyxRx_ends_training {nonce : Bytes} {n : Nat} (hkeys : (portSt s p).linkKeys ≠ []) (hhello : (portSt s p).helloOk = true)
    (htraining : (portSt s p).link = .training) : (∃ t, exec (.keyxRx p (keyxMac s p) nonce n) s = .next t ∧ linkUp t p = true) ∧
      ∀ m, m ≠ keyxMac s p → ∃ t, exec (.keyxRx p m nonce n) s = .next t ∧ (portSt t p).link = .down := by
  refine ⟨⟨_, exec_keyxRx_training hkeys hhello htraining, ?_⟩, fun m hmac => ⟨_, exec_keyxRx_bad hkeys hhello hmac htraining, portSt_linkDown_keyxFails ?_⟩⟩
  · rw [linkUp_beginJoin, timed, (sends_sendOn _ p _).linkUp, (sends_greeted _ p).linkUp, linkUp_cameUp]
  · rw [portSt_onPort (by simp [htraining])]
    exact Nat.succ_ne_zero _

theorem completes_linkRekey (hup : linkUp s p = true) (hidle : (portSt s p).rekeying = false) (hrng : rngServes s = true) :
    Completes (.linkRekey p) s [.fab, .rng, .out] fun t => (portSt t p).rekeying = true ∧ (portSt t p).nextNonce = randBytes s 32 ∧
      t.out.blocks = s.out.blocks ++ [(p, .keyx (keyxMac s p) (randBytes s 32) (portSt s p).txSeq)] :=
  have hport := portSt_sendRekey hup
  ⟨_, exec_linkRekey hup hidle hrng, ⟨congrArg PortSt.rekeying hport, congrArg PortSt.nextNonce hport, rfl⟩, keeps_sendRekey s p⟩

/-- An ACK lets go of the frames up to its number. -/
theorem completes_ackRx {n : Nat} (hup : linkUp s p = true) (hrest : fromSeq n (portSt s p).replay ≠ []) (hwaiting : (portSt s p).waiting = []) :
    Completes (.ackRx p n) s [.fab] fun t => linkUp t p = true ∧ (portSt t p).replay = (fromSeq n (portSt s p).replay).drop 1 ∧
      (portSt t p).linkKeys = (portSt s p).linkKeys := by
  have hfreed := portSt_onPort_up (f := fun l => { l with replay := (fromSeq n (portSt s p).replay).drop 1 }) hup
  have hexec := exec_ackRx hup hrest
  rw [flushPort_of_none ((congrArg PortSt.waiting hfreed).trans hwaiting)] at hexec
  have hport := portSt_onPort_up (f := fun l => { l with waiting := [] }) (by rw [linkUp, hfreed]; exact hup)
  rw [hfreed] at hport
  exact ⟨_, hexec, ⟨linkUp_iff.mpr ((congrArg PortSt.link hport).trans (linkUp_iff.mp hup)), congrArg PortSt.replay hport, (congrArg PortSt.linkKeys hport).trans rfl⟩,
    (keeps_onPort s p _).trans (keeps_onPort _ p _)⟩

theorem completes_degradeRx {l : BitVec 1} (hup : linkUp s p = true) : Completes (.degradeRx p l) s [.fab] fun t => (portSt t p).retraining = true ∧
    (portSt t p).lanesRetired = (portSt s p).lanesRetired ||| (if l = 0 then 1 else 2) :=
  have hport := portSt_onPort_up (f := fun x => { x with retraining := true, lanesRetired := x.lanesRetired ||| (if l = 0 then 1 else 2) }) hup
  ⟨_, exec_degradeRx hup, ⟨congrArg PortSt.retraining hport, congrArg PortSt.lanesRetired hport⟩, keeps_onPort s p _⟩

/-- After a retrain what the replay buffer keeps goes out again. -/
theorem completes_laneRetrainDone (hup : linkUp s p = true) (hretrain : (portSt s p).retraining = true) (hwaiting : (portSt s p).waiting = []) :
    Completes (.laneRetrainDone p) s [.fab, .out] fun t => (portSt t p).retraining = false ∧
      t.out.frames = s.out.frames ++ (portSt s p).replay.map fun x => (p, x.frame) := by
  have hexec := exec_laneRetrainDone hup hretrain
  have hu : portSt (sendAgain (onPort s p fun l => { l with retraining := false }) p (portSt s p).replay) p = _ := portSt_retrained hup
  rw [flushPort_of_none ((congrArg PortSt.waiting hu).trans hwaiting)] at hexec
  have hport := portSt_onPort_up (f := fun l => { l with waiting := [] }) (by rw [linkUp, hu]; exact hup)
  rw [hu] at hport
  exact ⟨_, hexec, ⟨congrArg PortSt.retraining hport, rfl⟩,
    (((keeps_onPort s p _).mono (by simp)).trans ((keeps_onOut _ _).mono (by simp))).trans ((keeps_onPort _ p _).mono (by simp))⟩

/-- A GCM failure that is the third within one second takes the link DOWN, an earlier one is counted. -/
theorem gcmFailure_counts (hup : linkUp s p = true) :
    (2 ≤ (freshPort s.time.clk (portSt s p)).gcmFails.length → ∃ t, exec (.frameCrcGcmFailure p .gcm) s = .next t ∧ (portSt t p).link = .down) ∧
    ((freshPort s.time.clk (portSt s p)).gcmFails.length < 2 → ∃ t, exec (.frameCrcGcmFailure p .gcm) s = .next t ∧ linkUp t p = true ∧
      (portSt t p).gcmFails = (freshPort s.time.clk (portSt s p)).gcmFails ++ [s.time.clk]) := by
  have hexec := exec_frameCrcGcmFailure hup .gcm
  rw [rxFail_gcm hup] at hexec
  refine ⟨fun hthird => ?_, fun hfew => ?_⟩
  · rw [if_pos hthird] at hexec
    exact ⟨_, hexec, congrArg PortSt.link (portSt_linkDown (linkUp_gcmCounted hup))⟩
  · rw [if_neg (Nat.not_le.mpr hfew)] at hexec
    exact ⟨_, hexec, linkUp_gcmCounted hup, congrArg PortSt.gcmFails (portSt_gcmCounted hup)⟩

/-- Settles O33, row by row: each goes by the state of the port's link, and what it leaves is read back from that port. -/
theorem linksTrainAndResend : Obligations.LinksTrainAndResend := by
  unfold Obligations.LinksTrainAndResend
  refine ⟨?training, ?hello, ?keyx, fun _ _ => completes_linkRekey, ?rekeyed, ?trainTimeout, fun _ _ _ => exec_ackTimer, ?ack, ?nak,
    fun _ _ => exec_linkAckTimeout, ?failure, fun _ _ _ => completes_degradeRx, ?retrain, fun _ _ => exec_downRx⟩
  case training =>
    intro s p echo husable hmain hreplayed hsafe hdown
    refine ⟨rfl, ?_, rfl, ?_, ?_⟩
    · show execTrainingPatternDetect p echo s = _
      rw [execTrainingPatternDetect, hdown, beq_self_eq_true, State.when_true, done]
    · rintro d rfl
      exact completes_linkTrainStart_locked husable hmain hreplayed hsafe hdown
    · rintro rfl
      exact completes_linkTrainStart_unlocked husable hmain hreplayed hsafe hdown
  case hello =>
    intro s p h htraining hlocked hnonce hfirst u
    exact ⟨exec_helloRx_refused htraining hlocked hnonce hfirst, exec_helloRx_noKey htraining hlocked hnonce hfirst,
      fun k => exec_helloRx_keyed htraining hlocked hnonce hfirst⟩
  case keyx =>
    intro s p nonce n hkeys hhello
    refine ⟨keyxRx_ends_training hkeys hhello, fun hup hnonce => ?_⟩
    have hexec := exec_keyxRx_rekey (switchAt := n) hkeys hhello hup hnonce
    refine ⟨fun hours => ?_, fun hours hrng => ?_⟩
    · rw [hexec, if_pos hours]
    · rw [hexec, if_neg (Bool.eq_false_iff.mp hours), if_pos hrng]
  case rekeyed =>
    intro s p nonce n k hup hwaiting hlater hkeys
    have hport := portSt_finishRekey hup hwaiting hlater hkeys
    exact ⟨congrArg PortSt.txKey hport, congrArg PortSt.txSeq hport, congrArg PortSt.rxSwitch hport, congrArg PortSt.rekeying hport⟩
  case trainTimeout =>
    intro s p htraining hform
    have hport := portSt_linkDown_canonical (p := p) hform
    exact ⟨_, exec_linkTrainTimeout htraining, congrArg PortSt.link hport, congrArg PortSt.linkKeys hport, congrArg PortSt.txKey hport,
      congrArg PortSt.rxKey hport, congrArg PortSt.replay hport⟩
  case ack =>
    intro s p n hup rest
    exact ⟨exec_ackRx_unknown, exec_ackRx hup, completes_ackRx hup⟩
  case nak =>
    intro s p n hup again hagain
    obtain ⟨t, hexec, hout, hkept, hdown⟩ := nakRx_resends hup hagain
    refine ⟨t, hexec, congrArg OutSt.frames hout, congrArg OutSt.wire hout, fun hfew => ?_, hdown⟩
    obtain ⟨hupT, hreplay⟩ := hkept hfew
    exact ⟨hupT, hreplay.trans (replay_resent hup)⟩
  case failure =>
    intro s p hup
    obtain ⟨hthird, hfew⟩ := gcmFailure_counts hup
    exact ⟨exec_frameCrcGcmFailure hup .crc, exec_frameCrcGcmFailure hup .gap, hthird, hfew⟩
  case retrain =>
    intro s p hup hretrain u
    exact ⟨exec_laneRetrainDone hup hretrain, completes_laneRetrainDone hup hretrain, exec_laneRetrainTimeout hup hretrain⟩

end Sys2Proof.Machine
end

section
/-! SUPPORT. Heartbeats on their way out: the ports they find free, and the neighbours they reach (07 R348, R385-R387). -/

namespace Sys2Proof.Machine

set_option Elab.async false

variable {s t : State} {p q : Port}

/-! ### Neighbours (07 R348) -/

theorem portDim_mem (p : Port) : portDim p ∈ [0, 1, 2] := by cases p <;> decide

theorem neighbour_mem_adjacent (hext : 1 < extOf s (portDim p)) : neighbour s p ∈ adjacent s (nodeAddr s) := by
  have hmax : max 1 (extOf s (portDim p)) = extOf s (portDim p) := Nat.max_eq_right (Nat.le_of_lt hext)
  rw [adjacent, List.mem_dedup, List.mem_flatMap]
  refine ⟨portDim p, portDim_mem p, ?_⟩
  rw [if_pos hext, List.mem_cons, List.mem_singleton, neighbour, hmax]
  cases portPlus p
  · right
    rw [if_neg Bool.false_ne_true, Nat.add_sub_assoc (Nat.le_of_lt hext)]
  · exact .inl rfl

/-- A node has at most six adjacent nodes. -/
theorem adjacent_length (s : State) (n : Nat) : (adjacent s n).length ≤ 6 := by
  have hdim : ∀ d, (if extOf s d > 1 then [withCoord n d ((coordOf n d + 1) % extOf s d), withCoord n d ((coordOf n d + extOf s d - 1) % extOf s d)]
      else []).length ≤ 2 := by
    intro d
    split <;> simp
  refine (List.dedup_sublist _).length_le.trans ?_
  have h0 := hdim 0
  have h1 := hdim 1
  have h2 := hdim 2
  simp only [List.flatMap_cons, List.flatMap_nil, List.length_append, List.length_nil]
  omega

/-! ### Room on the ports -/

theorem PortFree.mono {m n : Nat} (h : PortFree s q n) (hm : m ≤ n) : PortFree s q m := by
  obtain ⟨hwaiting, hretrain, hrekey, hroom⟩ := h
  exact ⟨hwaiting, hretrain, hrekey, by omega⟩

theorem PortFree.discardFrame {n : Nat} (h : PortFree s q n) : PortFree (discardFrame s) q n := h

/-- Routing puts a frame on one port at most. -/
theorem PortFree.routeFrame {arrived : Option Nat} {k n : Nat} {f : Frame} (h : PortFree s q (wireSize f + n)) : PortFree (routeFrame s arrived k f) q n := by
  have hrest : PortFree s q n := h.mono (Nat.le_add_left _ _)
  induction k generalizing f with
  | zero => exact hrest.discardFrame
  | succ k ih =>
    unfold Machine.routeFrame
    split
    · exact hrest
    · split
      · exact .sendOn h
      · split
        · exact .sendOn h
        · split
          · split
            · exact hrest.discardFrame
            · exact ih h
          · exact hrest.discardFrame

theorem wireSize_heartbeat (s : State) (f : Frame) (h : f.body = heartbeat s) : wireSize f = 56 := by
  simp [wireSize, h, heartbeat, payloadBytes, zeros]

/-! ### HEARTBEAT_TIMER -/

/-- The heartbeat to an adjacent node goes out on an UP port that leads there, else by a route (07 R387). -/
def beatTo (s : State) (n : Nat) : State :=
  match allPorts.find? fun p => linkUp s p && neighbour s p == n with
  | some p => sendOn s p { src := nodeAddr s, dest := n, body := heartbeat s }
  | none => sendTo s n (heartbeat s)

theorem exec_heartbeatTimer (hmain : s.pow.mainUp = true) (hmember : isMember s (nodeAddr s) = true) (hwithdrawn : s.fab.withdrawn = false)
    (hreplayed : s.led.replayed = true) : exec .heartbeatTimer s = .next ((adjacent s (nodeAddr s)).foldl beatTo s) := by
  show execHeartbeatTimer s = _
  rw [execHeartbeatTimer, hmain, hmember, hwithdrawn, hreplayed]
  rfl

theorem sends_beatTo (s : State) (n : Nat) : Sends s (beatTo s n) := by
  unfold beatTo
  split
  · exact sends_sendOn s _ _
  · exact sends_sendTo s _ _ _

theorem PortFree.beatTo {m n : Nat} (h : PortFree s q (56 + n)) : PortFree (beatTo s m) q n := by
  unfold Machine.beatTo
  split
  · exact .sendOn (by rwa [wireSize_heartbeat s _ rfl])
  · exact .routeFrame (by rwa [wireSize_heartbeat s _ rfl])

/-- With a port that leads to a node UP, and room on every port, the heartbeat to that node goes out at once on such a port. -/
theorem beatTo_sends (hup : linkUp s p = true) (hfree : ∀ q, PortFree s q 56) : ∃ q, linkUp s q = true ∧ neighbour s q = neighbour s p ∧
    (q, { src := nodeAddr s, dest := neighbour s p, body := heartbeat s }) ∈ (beatTo s (neighbour s p)).out.frames := by
  unfold beatTo
  split
  · next q hq =>
    have hleads := List.find?_some hq
    simp only [Bool.and_eq_true, beq_iff_eq] at hleads
    rw [sendOn_of_free (by rw [wireSize_heartbeat s _ rfl]; exact hfree q), (putFrame_outputs s q _).1]
    exact ⟨q, hleads.1, hleads.2, by simp⟩
  · next hnone =>
    have hp : p ∈ allPorts := by cases p <;> decide
    have := List.find?_eq_none.mp hnone p hp
    simp [hup] at this

/-- The heartbeats of a round: each finds the room that those before it left. -/
theorem beats_reach {ns : List Nat} (hfree : ∀ q, PortFree s q (56 * ns.length)) (hup : linkUp s p = true) (hmem : neighbour s p ∈ ns) :
    ∃ q, linkUp s q = true ∧ neighbour s q = neighbour s p ∧
      (q, { src := nodeAddr s, dest := neighbour s p, body := heartbeat s }) ∈ (ns.foldl beatTo s).out.frames := by
  induction ns generalizing s with
  | nil => cases hmem
  | cons n ns ih =>
    have hroom : ∀ q, PortFree s q (56 + 56 * ns.length) := fun q => (hfree q).mono (by rw [List.length_cons]; omega)
    by_cases hn : neighbour s p = n
    · subst hn
      obtain ⟨q, hq, hleads, hsent⟩ := beatTo_sends hup fun q => (hroom q).mono (Nat.le_add_right _ _)
      exact ⟨q, hq, hleads, (Sends.foldl sends_beatTo ns _).frames.subset hsent⟩
    · have hbeat := sends_beatTo s n
      have hnext : ∀ q, neighbour (beatTo s n) q = neighbour s q := fun q => hbeat.same (neighbour · q)
      obtain ⟨q, hq, hleads, hsent⟩ := ih (s := beatTo s n) (fun q => (hroom q).beatTo) ((hbeat.linkUp p).trans hup)
        (by rw [hnext]; exact List.mem_of_ne_of_mem hn hmem)
      rw [hbeat.linkUp] at hq
      rw [hnext, hnext] at hleads
      rw [hnext, hbeat.same nodeAddr, hbeat.same heartbeat] at hsent
      exact ⟨q, hq, hleads, hsent⟩

/-- A round of heartbeats reaches every neighbour whose link is UP. -/
theorem completes_heartbeatTimer (hmain : s.pow.mainUp = true) (hmember : isMember s (nodeAddr s) = true) (hwithdrawn : s.fab.withdrawn = false)
    (hreplayed : s.led.replayed = true) (hfree : ∀ q, PortFree s q 336) (hup : linkUp s p = true) (hext : 1 < extOf s (portDim p)) :
    Completes .heartbeatTimer s [.fab, .out] fun t => ∃ q, linkUp s q = true ∧ neighbour s q = neighbour s p ∧
      (q, { src := nodeAddr s, dest := neighbour s p, body := heartbeat s }) ∈ t.out.frames := by
  have hlength := adjacent_length s (nodeAddr s)
  exact ⟨_, exec_heartbeatTimer hmain hmember hwithdrawn hreplayed,
    beats_reach (fun q => (hfree q).mono (by omega)) hup (neighbour_mem_adjacent hext), (Sends.foldl sends_beatTo _ s).keeps⟩

end Sys2Proof.Machine
end

section
/-! SUPPORT. The adjacent nodes that this node hears, which only heartbeats and their silence change (07 R385, R388). -/

namespace Sys2Proof.Machine

set_option Elab.async false

variable {s t u : State}

/-- The same adjacent nodes are heard. -/
def SameHeard (s t : State) : Prop := t.fab.heard = s.fab.heard

theorem SameHeard.refl (s : State) : SameHeard s s := rfl

theorem SameHeard.trans (h : SameHeard s t) (k : SameHeard t u) : SameHeard s u := Eq.trans k h

/-- A change of other parts. -/
theorem SameHeard.of_keeps {l : List Part} (hk : Keeps l s t) (hl : Part.fab ∉ l := by decide) : SameHeard s t := congrArg FabSt.heard (hk .fab hl)

theorem SameHeard.of_sends (h : Sends s t) : SameHeard s t := h.same (·.fab.heard)

theorem SameHeard.hears (h : SameHeard s t) (n : Nat) : hears t n = hears s n := by rw [Machine.hears, h, Machine.hears]

theorem SameHeard.foldl {α : Type} {f : State → α → State} (h : ∀ s x, SameHeard s (f s x)) (xs : List α) (s : State) : SameHeard s (xs.foldl f s) :=
  foldl_same (·.fab.heard) h xs s

/-! ### Requests and commands that end -/

theorem sameHeard_endVerdict (s : State) (r : Req) (st : Status) (v : VCode) (detail : BitVec 16) : SameHeard s (endVerdict s r st v detail) := by
  unfold endVerdict
  extract_lets code
  split
  · exact .trans (.of_sends (sends_sendTo s _ _ _)) (.of_keeps (keeps_freeReq _ r))
  · exact .trans (.of_keeps (keeps_complete s _ _ _ _ _)) (.of_keeps (keeps_freeReq _ r))

theorem sameHeard_endCtl (s : State) (st : Status) (detail : BitVec 16) (resp : Bytes) : SameHeard s (endCtl s st detail resp) := by
  unfold endCtl
  split
  · exact .refl s
  · exact .trans (.of_keeps (keeps_onHq s _)) (.trans (.of_keeps (keeps_complete _ _ _ _ _ _)) (.of_keeps (keeps_callHook _ _ _ _ _)))

theorem sameHeard_endWait (s : State) (st : Status) (detail : BitVec 16) (resp : Bytes) : SameHeard s (endWait s st detail resp) := by
  unfold endWait
  split
  · split <;> rfl
  · exact sameHeard_endCtl s st detail resp

theorem sameHeard_passOn (s : State) (r : Req) : SameHeard s (passOn s r) := by
  unfold passOn
  split
  · exact .of_sends (s := putReq (count (s.onLane _) _ _) _) (sends_sendTo _ _ _ _)
  · split
    · exact sameHeard_endVerdict s r _ _ _
    · exact .trans (.of_sends (sends_routeFrame s _ _ _)) (.of_keeps (keeps_freeReq _ r))

/-! ### Terms and authority -/

theorem sameHeard_recordTerm (s : State) (home term : Nat) : SameHeard s (recordTerm s home term) := by
  unfold recordTerm
  split
  · rfl
  · split <;> rfl

theorem sameHeard_adopt (s : State) (home term : Nat) (f : HomeView → HomeView) : SameHeard s (adopt s home term f) := by
  unfold adopt
  split
  · exact sameHeard_recordTerm (onView (s.onFab _) home _) home term
  · exact .refl s

theorem sameHeard_resumeHolder (s : State) : SameHeard s (resumeHolder s) := by
  unfold resumeHolder
  extract_lets u v
  split
  · exact sameHeard_endWait v _ _ _
  · rfl

theorem sameHeard_handedBack (s : State) (term : Nat) : SameHeard s (handedBack s term) := by
  unfold handedBack
  extract_lets home s1 s2 s3 s4 s5
  have h1 : SameHeard s s1 := sameHeard_recordTerm s home term
  have h4 : SameHeard s3 s4 := .of_keeps ((((keeps_onLed s3 _).mono (m := [.led, .hq, .out, .unit]) (by simp)).trans
    ((keeps_cause _ 4).mono (by simp))).trans ((keeps_irqMain _ 14).mono (by simp)))
  have h5 : SameHeard s4 s5 := by
    show SameHeard s4 (ite _ _ _)
    split
    · exact sameHeard_endWait s4 _ _ _
    · exact .refl s4
  refine ((SameHeard.trans h1 h4).trans h5).trans (.foldl (fun s k => ?_) _ s5)
  split
  · exact sameHeard_passOn s _
  · exact .refl s

/-! ### Making a shadow complete (07 R399, R400) -/

theorem keeps_pinLease (s : State) (n : Nat) (on : Bool) : Keeps [.led] s (pinLease s n on) := .foldl (fun s _ => keeps_onLed s _) _ s

theorem keeps_closeLease (s : State) : Keeps [.led] s (closeLease s) := by
  unfold closeLease
  split
  · exact (keeps_pinLease s _ _).trans (keeps_onLed _ _)
  · exact .refl _ s

theorem keeps_discardLedgers (s : State) (own : Bool) : Keeps [.led] s (discardLedgers s own) :=
  ((Keeps.when own closeLease (keeps_closeLease s)).trans (keeps_onLed _ _)).trans (keeps_onLed _ _)

theorem sameHeard_ask {f : FabSt → FabSt} (s : State) (dest : Nat) (body : FrameBody) (hf : (f s.fab).heard = s.fab.heard := by rfl) :
    SameHeard s (sendTo (s.onFab f) dest body) := .trans (t := s.onFab f) hf (.of_sends (sends_sendTo _ _ _ _))

theorem sameHeard_askPages (s : State) (n : Nat) : SameHeard s (askPages s n) := by
  induction n generalizing s with
  | zero => exact .refl s
  | succ n ih =>
    unfold askPages
    split
    · exact .refl s
    · split
      · exact .trans (sameHeard_ask s _ _) (ih _)
      · split
        · exact .trans (sameHeard_ask s _ _) (ih _)
        · exact .refl s

theorem sameHeard_askVoid (s : State) (own : Bool) (block : Nat) : SameHeard s (askVoid s own block) :=
  sameHeard_ask s _ _

/-- A void block asked for stays outstanding, so that the copy is not complete. -/
theorem voidAsk_askVoid (s : State) (own : Bool) (block : Nat) : (askVoid s own block).fab.voidAsk = 1 + 2 * block + (if own then 1 else 0) :=
  (sends_sendTo (s.onFab fun b => { b with voidAsk := 1 + 2 * block + (if own then 1 else 0) }) _ _ _).same (·.fab.voidAsk)

theorem tryCopied_askVoid (s : State) (own : Bool) (block : Nat) : tryCopied (askVoid s own block) = askVoid s own block := by
  have hasked : (askVoid s own block).fab.voidAsk ≠ 0 := by rw [voidAsk_askVoid]; omega
  simp only [tryCopied, hasked, and_false, decide_false, Bool.and_false, State.when_false]

theorem sameHeard_startCopy (s : State) (ownToo : Bool) : SameHeard s (startCopy s ownToo) := by
  unfold startCopy
  split
  · exact .refl s
  · extract_lets own s1 s2 s3 s4
    have h2 : SameHeard s s2 := SameHeard.of_keeps (t := s1) (keeps_discardLedgers s own)
    have h3 : SameHeard s2 s3 := .of_sends (sends_floodOn s2 _ _ _ _ _ _)
    have h4 : SameHeard s3 s4 := by
      show SameHeard s3 (ite _ _ _)
      split
      · exact .of_sends (sends_sendTo s3 _ _ _)
      · exact .refl s3
    rw [tryCopied_askVoid]
    exact ((h2.trans h3).trans h4).trans (.trans (sameHeard_askPages s4 64) (sameHeard_askVoid _ false 0))

theorem sameHeard_missedChange (s : State) (old term : Nat) : SameHeard s (missedChange s old term) := by
  unfold missedChange
  split
  · exact .refl s
  · split
    · exact sameHeard_handedBack s term
    · exact sameHeard_startCopy (s.onFab _) false

end Sys2Proof.Machine
end

section
/-! SUPPORT. What heartbeats that arrive, silence, witnesses, grants and decisions do (07 R376, R385-R395, R403, R865). -/

namespace Sys2Proof.Machine

set_option Elab.async false

variable {s : State} {src home term : Nat}

/-! ### Heartbeats that arrive (07 R376, R385, R403, R865) -/

/-- The sender of a heartbeat is heard. -/
def nodeHeard (s : State) (src : Nat) : State := s.onFab fun b => { b with heard := tput false b.heard src true }

/-- What the twin's heartbeat says of its ledger is kept; the twin that speaks ends an exclusion, and a takeover but for a lost offer. -/
def twinHeard (s : State) (epoch : BitVec 4) (groupEnd : Nat) : State :=
  s.onFab fun b => { b with twinEpoch := epoch, twinEnd := groupEnd, collT := if b.collT.any (·.forOffer) then b.collT else none, collE := none }

theorem hears_nodeHeard (s : State) (src : Nat) : hears (nodeHeard s src) src = true := tget_tput_self (by decide) src s.fab.heard

theorem sameHeard_twinHeard (s : State) (epoch : BitVec 4) (groupEnd : Nat) : SameHeard s (twinHeard s epoch groupEnd) := rfl

/-- An adoption changes neither whether this node has joined nor whether it holds its twin's authority. -/
theorem adopt_joined_twinAuth (s : State) (home term : Nat) (f : HomeView → HomeView) :
    (adopt s home term f).fab.joined = s.fab.joined ∧ (adopt s home term f).fab.twinAuth = s.fab.twinAuth := by
  have hrecord : ∀ u : State, (recordTerm u home term).fab.joined = u.fab.joined ∧ (recordTerm u home term).fab.twinAuth = u.fab.twinAuth := by
    intro u
    unfold recordTerm
    split
    · exact ⟨rfl, rfl⟩
    · split <;> exact ⟨rfl, rfl⟩
  unfold adopt
  split
  · exact hrecord (onView (s.onFab _) home _)
  · exact ⟨rfl, rfl⟩

section
variable {own tw sh op : Bool} {e : BitVec 4} {g : Nat} (hmain : s.pow.mainUp = true) (hadjacent : (adjacent s (nodeAddr s)).contains src = true)
include hmain hadjacent

theorem exec_heartbeatRx : exec (.heartbeatRx src own tw sh op e term g) s = .next (
    let twin := hasTwin s && src == twinAddr s
    let u := (nodeHeard s src).when twin (twinHeard · e g)
    match if twin then u.fab.offer else none with
    | some o => if term ≥ o.2.1 then handedBack u term else if u.fab.offerWait then resumeHolder u else u
    | none => (adopt u src term fun v => { v with byTwin := !own, member := true }).when (twin && own) fun s => missedChange s (viewOf u src).term term) := by
  show execHeartbeatRx src own tw sh op e term g s = _
  rw [execHeartbeatRx, hmain, hadjacent]
  rfl

/-- Whatever a heartbeat brings about, its sender is heard. -/
theorem heartbeatRx_hears : ∃ t, exec (.heartbeatRx src own tw sh op e term g) s = .next t ∧ hears t src = true := by
  refine ⟨_, exec_heartbeatRx hmain hadjacent, ?_⟩
  extract_lets twin u
  have hu : SameHeard (nodeHeard s src) u := by
    show SameHeard _ (ite _ _ _)
    split
    · exact sameHeard_twinHeard _ e g
    · exact .refl _
  refine (SameHeard.hears (hu.trans ?_) src).trans (hears_nodeHeard s src)
  split
  · split
    · exact sameHeard_handedBack u term
    · split
      · exact sameHeard_resumeHolder u
      · exact .refl u
  · refine .trans (sameHeard_adopt u src term fun v => { v with byTwin := !own, member := true }) ?_
    cases twin && own
    · exact .refl _
    · exact sameHeard_missedChange _ _ term

theorem exec_heartbeatRx_alone (htwin : hasTwin s = false) : exec (.heartbeatRx src own tw sh op e term g) s =
    .next (adopt (nodeHeard s src) src term fun v => { v with byTwin := !own, member := true }) := by
  rw [exec_heartbeatRx hmain hadjacent, htwin]
  rfl

/-- A twin that holds its own authority at a higher term than this node knew of. -/
theorem exec_heartbeatRx_twin (htwin : hasTwin s = true) (hsrc : src = twinAddr s) (hoffer : s.fab.offer = none) (hjoined : s.fab.joined = true)
    (hterm : (viewOf s src).term < term) :
    let v := adopt (twinHeard (nodeHeard s src) e g) src term fun v => { v with byTwin := false, member := true }
    exec (.heartbeatRx src true tw sh op e term g) s = .next (if s.fab.twinAuth then handedBack v term
      else startCopy (v.onFab fun b => { b with collT := none, withdrawWait := none }) false) := by
  intro v
  have hv : v.fab.joined = s.fab.joined ∧ v.fab.twinAuth = s.fab.twinAuth := adopt_joined_twinAuth _ src term _
  have hmissed : missedChange v (viewOf s src).term term = if s.fab.twinAuth then handedBack v term
      else startCopy (v.onFab fun b => { b with collT := none, withdrawWait := none }) false := by
    simp only [missedChange, hv.1, hv.2, hjoined, Nat.not_le.mpr hterm, decide_false, Bool.not_true, Bool.or_self, Bool.false_eq_true, ↓reduceIte]
  rw [exec_heartbeatRx hmain hadjacent, ← hmissed]
  simp only [htwin, beq_iff_eq.mpr hsrc, Bool.and_self, State.when_true, ↓reduceIte]
  rw [show (twinHeard (nodeHeard s src) e g).fab.offer = none from hoffer]
  rfl

end

/-! ### Silence (07 R388, R393, R395, R403) -/

/-- A node is no longer heard. -/
def nodeSilent (s : State) (src : Nat) : State := s.onFab fun b => { b with heard := tput false b.heard src false }

/-- What looks at neither the traffic nor the attempts is the same after the start of an attempt. -/
theorem startCollect_same {β : Type} (g : State → β) (s : State) (exclude forOffer : Bool)
    (hattempts : ∀ (u : State) t e, g (u.onFab fun b => { b with collT := t, collE := e }) = g u := by intros; rfl)
    (htraffic : ∀ (u : State) ports d fl out, g (u.withTraffic ports d fl out) = g u := by intros; rfl) : g (startCollect s exclude forOffer) = g s := by
  unfold startCollect
  extract_lets home ws
  split
  · rfl
  · next c u _ _ _ =>
    have hu : g u = g s := by
      cases exclude
      · exact hattempts s (some c) s.fab.collE
      · exact hattempts s s.fab.collT (some c)
    exact ((Sends.foldl (fun u w => sends_sendTo u w _ false) ws u).same g (htraffic u)).trans hu

theorem takeoverWanted_startCollect (s : State) (exclude forOffer : Bool) : takeoverWanted (startCollect s exclude forOffer) = takeoverWanted s :=
  startCollect_same takeoverWanted s exclude forOffer

theorem twinAuth_startCollect (s : State) (exclude forOffer : Bool) : (startCollect s exclude forOffer).fab.twinAuth = s.fab.twinAuth :=
  startCollect_same (·.fab.twinAuth) s exclude forOffer

theorem exec_heartbeatSilence_other (h : hasTwin s = false ∨ src ≠ twinAddr s) : exec (.heartbeatSilence src) s = .next (nodeSilent s src) := by
  have hother : (!hasTwin s || src != twinAddr s) = true := by
    obtain h | h := h <;> simp [h]
  exact congrArg Host.Outcome.next (if_pos hother)

/-- Silence of the twin: the attempts that it makes wanted start, unless one of their kind is under way. -/
theorem exec_heartbeatSilence_twin (htwin : hasTwin s = true) : exec (.heartbeatSilence (twinAddr s)) s = .next (
    let u := nodeSilent s (twinAddr s)
    let v := u.when (excludeWanted u && u.fab.collE.isNone) (startCollect · true false)
    let w := v.when (takeoverWanted v && v.fab.collT.isNone) (startCollect · false false)
    w.when (w.fab.twinAuth && w.fab.offerWait && w.fab.collT.isNone) (startCollect · false true)) := by
  have htwin' : (!hasTwin s || twinAddr s != twinAddr s) = false := by simp [htwin]
  exact congrArg Host.Outcome.next (if_neg (Bool.eq_false_iff.mp htwin'))

theorem exec_heartbeatSilence_exclude (hexclude : excludeWanted (nodeSilent s (twinAddr s)) = true) (hnone : s.fab.collE = none)
    (htakeover : takeoverWanted (nodeSilent s (twinAddr s)) = false) (hauth : s.fab.twinAuth = false) :
    exec (.heartbeatSilence (twinAddr s)) s = .next (startCollect (nodeSilent s (twinAddr s)) true false) := by
  have htwin : hasTwin s = true := by
    simp only [excludeWanted, Bool.and_eq_true, and_assoc] at hexclude
    exact hexclude.1
  have hfree : (nodeSilent s (twinAddr s)).fab.collE.isNone = true := by rw [show (nodeSilent s (twinAddr s)).fab.collE = none from hnone]; rfl
  have hauth' : (startCollect (nodeSilent s (twinAddr s)) true false).fab.twinAuth = false := (twinAuth_startCollect _ _ _).trans hauth
  rw [exec_heartbeatSilence_twin htwin]
  simp only [hexclude, hfree, takeoverWanted_startCollect, htakeover, hauth', Bool.and_self, Bool.false_and, State.when_true, State.when_false]

theorem exec_heartbeatSilence_takeover (hexclude : excludeWanted (nodeSilent s (twinAddr s)) = false) (hnone : s.fab.collT = none)
    (htakeover : takeoverWanted (nodeSilent s (twinAddr s)) = true) :
    exec (.heartbeatSilence (twinAddr s)) s = .next (startCollect (nodeSilent s (twinAddr s)) false false) := by
  have hwanted := htakeover
  simp only [takeoverWanted, Bool.and_eq_true, and_assoc] at hwanted
  obtain ⟨htwin, hauth, -⟩ : hasTwin s = true ∧ (!s.fab.twinAuth) = true ∧ _ := hwanted
  have hfree : (nodeSilent s (twinAddr s)).fab.collT.isNone = true := by rw [show (nodeSilent s (twinAddr s)).fab.collT = none from hnone]; rfl
  have hauth' : (startCollect (nodeSilent s (twinAddr s)) false false).fab.twinAuth = false :=
    (twinAuth_startCollect _ _ _).trans (Bool.not_eq_eq_eq_not.mp hauth)
  rw [exec_heartbeatSilence_twin htwin]
  simp only [hexclude, hfree, htakeover, hauth', Bool.and_self, Bool.false_and, State.when_true, State.when_false]

theorem exec_collectionRetry_exclude (hexclude : excludeWanted s = true) (hnone : s.fab.collE = none) (htakeover : takeoverWanted s = false)
    (hauth : s.fab.twinAuth = false) : exec .collectionRetry s = .next (startCollect s true false) := by
  show execCollectionRetry s = _
  have hauth' : (startCollect s true false).fab.twinAuth = false := (twinAuth_startCollect _ _ _).trans hauth
  simp only [execCollectionRetry, hexclude, hnone, Option.isNone_none, takeoverWanted_startCollect, htakeover, hauth', Bool.and_self, Bool.false_and,
    State.when_true, State.when_false, done]

/-! ### Witnesses and grants (07 R389-R392) -/

theorem exec_witnessQueryRx {x : Bool} (hmain : s.pow.mainUp = true) (hjoined : s.fab.joined = true) (hwitness : (adjacent s home).contains (nodeAddr s) = true) :
    exec (.witnessQueryRx src x home term) s = .next (sendTo
      (s.onFab fun b => { b with grants := tput none b.grants home (witnessAnswer s src x home term).2 }) src
      (.witnessReply x (witnessAnswer s src x home term).1 home (viewOf s home).term)) := by
  show execWitnessQueryRx src x home term s = _
  rw [execWitnessQueryRx, hmain, hjoined, hwitness]
  rfl

theorem witnessAnswer_abstain {x : Bool} (h : s.fab.abstain = true) : (witnessAnswer s src x home term).1 = .abstain := by
  rw [witnessAnswer, if_pos h]

theorem witnessAnswer_otherTerm {x : Bool} (h : s.fab.abstain = false) (hterm : term ≠ (viewOf s home).term) :
    (witnessAnswer s src x home term).1 = .refuse := by
  simp only [witnessAnswer, h, hterm, ne_eq, not_false_eq_true, Bool.false_eq_true, ↓reduceIte]

/-- A witness that has given no grant for a home grants a query of the home's term that its own hearing bears out. -/
theorem witnessAnswer_grant {x : Bool} (h : s.fab.abstain = false) (hterm : term = (viewOf s home).term) (hnone : tget none s.fab.grants home = none)
    (htwin : hasTwin s = true) (hheard : if x then hears s home = true ∧ src = home else hears s home = false ∧ src = twinOf home) :
    witnessAnswer s src x home term = (.grant, some { querier := src, exclude := x, term := term, outstanding := true }) := by
  have hheard' : (if x then hears s home && src == home else !hears s home && src == twinOf home) = true := by
    cases x <;> simpa using hheard
  simp only [witnessAnswer, h, ← hterm, hnone, htwin, hheard', ne_eq, not_true_eq_false, Bool.not_false, Bool.and_self, Bool.false_eq_true, ↓reduceIte]

theorem completes_grantLapse {x : Grant} (h : tget none s.fab.grants home = some x) : Completes (.grantLapse home) s [.fab] fun t =>
    tget none t.fab.grants home = some (if x.acked then x else { x with outstanding := false }) := by
  refine ⟨_, rfl, ?_, keeps_onFab s _⟩
  exact (tget_tupd_self (t := s.fab.grants) (k := home) (f := fun g => g.map fun x => if x.acked then x else { x with outstanding := false })
    (by rw [h]; exact Option.some_ne_none _)).trans (by rw [h, Option.map_some])

/-! ### Replies of witnesses (07 R393, R403) -/

/-- Enough grants: the new term is recorded, and the decision goes to the witnesses that granted. -/
def decisionSent (s : State) (x : Bool) (home : Nat) (c : Collect) : State :=
  c.grants.foldl (fun s w => sendTo s w (member s (if x then .exclude else .takeover) home (c.term + 1) (if x then 0 else lastMirrored s false)))
    (recordTerm (setCollect s x (some { c with decided := true })) home (c.term + 1))

section
variable {x : Bool} {c : Collect} (hcollect : collectOf s x = some c) (hhome : c.home = home) (hopen : c.decided = false)
  (hwitness : (adjacent s home).contains src = true) (htwin : src ≠ twinOf home)
include hcollect hhome hopen hwitness htwin

/-- A refusal that gives the offered term shows that the home moved. -/
theorem exec_witnessReplyRx_moved {m : Nat} (hoffer : c.forOffer = true) (hterm : c.term < m) :
    exec (.witnessReplyRx src x .refuse home m) s = .next (handedBack s m) := by
  show execWitnessReplyRx src x .refuse home m s = _
  simp only [execWitnessReplyRx, hcollect, hhome, hopen, hwitness, htwin, hoffer, hterm, ne_eq, not_true_eq_false, Bool.not_true, Bool.false_eq_true, false_and,
    or_self, and_self, ↓reduceIte, done]

section
variable {need : Nat} (hneed : grantsNeeded x (adjacent s home).length = some need) (hnew : src ∉ c.grants)
include hneed hnew

theorem exec_witnessReplyRx_short (hshort : c.grants.length + 1 < need) :
    exec (.witnessReplyRx src x .grant home c.term) s = .next (setCollect s x (some { c with grants := c.grants ++ [src] })) := by
  show execWitnessReplyRx src x .grant home c.term s = _
  simp only [execWitnessReplyRx, hcollect, hhome, hopen, hwitness, htwin, hneed, List.contains_eq_mem, hnew, decide_false, ne_eq, not_true_eq_false, Bool.not_true,
    Bool.false_eq_true, reduceCtorEq, false_and, or_self, List.length_append, List.length_singleton, hshort, ↓reduceIte, done]

theorem exec_witnessReplyRx_enough (henough : need ≤ c.grants.length + 1) (hoffer : c.forOffer = false) :
    exec (.witnessReplyRx src x .grant home c.term) s = .next (decisionSent s x home { c with grants := c.grants ++ [src] }) := by
  show execWitnessReplyRx src x .grant home c.term s = _
  simp only [execWitnessReplyRx, hcollect, hhome, hopen, hwitness, htwin, hneed, hoffer, List.contains_eq_mem, hnew, decide_false, ne_eq, not_true_eq_false,
    Bool.not_true, Bool.false_eq_true, reduceCtorEq, false_and, or_self, List.length_append, List.length_singleton, Nat.not_lt.mpr henough, ↓reduceIte, done]
  rfl

end
end

theorem collectOf_setCollect (s : State) (x : Bool) (c : Option Collect) : collectOf (setCollect s x c) x = c := by cases x <;> rfl

theorem collectOf_recordTerm (s : State) (home term : Nat) (x : Bool) : collectOf (recordTerm s home term) x = collectOf s x := by
  unfold recordTerm
  split
  · rfl
  · split <;> rfl

theorem sends_decisionSent (s : State) (x : Bool) (home : Nat) (c : Collect) :
    Sends (recordTerm (setCollect s x (some { c with decided := true })) home (c.term + 1)) (decisionSent s x home c) :=
  .foldl (fun s _ => sends_sendTo s _ _ _) _ _

theorem collectOf_decisionSent (s : State) (x : Bool) (home : Nat) (c : Collect) : collectOf (decisionSent s x home c) x = some { c with decided := true } := by
  rw [(sends_decisionSent s x home c).same (collectOf · x), collectOf_recordTerm, collectOf_setCollect]

theorem ownTerm_recordTerm (h : home = nodeAddr s) (term : Nat) : (recordTerm s home term).fab.ownTerm = max s.fab.ownTerm term := by
  rw [recordTerm, if_pos h]
  rfl

/-- The own term is recorded before the decision leaves. -/
theorem ownTerm_decisionSent (x : Bool) (c : Collect) (h : home = nodeAddr s) : c.term < (decisionSent s x home c).fab.ownTerm := by
  rw [(sends_decisionSent s x home c).same (·.fab.ownTerm), ownTerm_recordTerm (s := setCollect s x _) h]
  exact Nat.lt_of_lt_of_le (Nat.lt_succ_self _) (Nat.le_max_right _ _)

/-! ### Acknowledgements of a decision (07 R393, R395) -/

section
variable {f : MFrame} {need : Nat} {c : Collect} (hcollect : collectOf s (f.value % 256 == 3) = some c) (hkind : f.value % 256 = 2 ∨ f.value % 256 = 3)
  (hsubject : f.subject = c.home) (hdecided : c.decided = true) (hterm : f.term = c.term + 1) (hgranted : f.src ∈ c.grants) (hnew : f.src ∉ c.acks)
  (hneed : grantsNeeded (f.value % 256 == 3) (adjacent s c.home).length = some need) (hsilent : hears s (twinAddr s) = false)
include hcollect hkind hsubject hdecided hterm hgranted hnew hneed hsilent

/-- An acknowledgement is kept; with enough of them, while the twin stays silent, the decision takes effect where it still can. -/
theorem exec_decisionAckRx : exec (.decisionAckRx f) s = .next (
    if c.acks.length + 1 < need then setCollect s (f.value % 256 == 3) (some { c with acks := c.acks ++ [f.src] })
    else if (f.value % 256 == 3) = true then
      (if s.fab.ownAuth then trySettle (tryLease (settle (excludeTwin s (c.term + 1)))) else setCollect s true none)
    else if s.fab.shadowOk then afterGain (takeAuthority s (c.term + 1))
    else setCollect s false none) := by
  have hkind' : ¬((!(f.value % 256 == 3)) = true ∧ f.value % 256 ≠ 2) := by
    simp only [Bool.not_eq_true', beq_eq_false_iff_ne]
    rintro ⟨h3, h2⟩
    exact hkind.elim h2 h3
  show execDecisionAckRx f s = _
  simp only [execDecisionAckRx, hcollect, hsubject, hdecided, hterm, hneed, hsilent, hkind', List.contains_eq_mem, hgranted, hnew, decide_true, decide_false, ne_eq,
    not_true_eq_false, Bool.not_true, Bool.false_eq_true, or_self, or_false, List.length_append, List.length_singleton, ↓reduceIte, done]

end

/-! ### EXCLUDE (07 R376, R390, R865) -/

theorem exec_excludeRx_decision {f : MFrame} (hmain : s.pow.mainUp = true) (hother : f.src ≠ nodeAddr s) (hflood : f.flood = false) :
    exec (.excludeRx f) s = .next (ackDecision s .exclude f) := by
  show execExcludeRx f s = _
  simp only [execExcludeRx, hmain, hother, hflood, ne_eq, not_false_eq_true, decide_true, Bool.and_self, Bool.not_false, State.when_true, ↓reduceIte, done]

theorem twinOf_ne (n : Nat) : twinOf n ≠ n := by
  unfold twinOf nodeX
  split <;> omega

/-- The home holds its authority at the term of an EXCLUDE. -/
def excludeAdopted (s : State) (f : MFrame) : State := adopt s f.subject f.term fun v => { v with byTwin := false, member := true, twinMember := false }

/-- An EXCLUDE of another pair is taken: besides, the home's twin is no member. -/
def excludeTaken (s : State) (f : MFrame) : State :=
  floodAgain (onView (excludeAdopted s f) (twinOf f.subject)
    fun v => { v with member := false, shadowOk := false }) .exclude f

theorem exec_excludeRx_other {f : MFrame} (hmain : s.pow.mainUp = true) (hother : f.src ≠ nodeAddr s) (hflood : f.flood = true)
    (hfresh : isRepeat s .exclude f.subject f.term f.value = false) (hterm : (viewOf s f.subject).term < f.term) (htwin : f.subject ≠ twinAddr s) :
    exec (.excludeRx f) s = .next (excludeTaken s f) := by
  have hnews : isNews s f.subject f.term = true := by simp [isNews, hterm]
  have hmine : (hasTwin (excludeAdopted s f) && f.subject == twinAddr (excludeAdopted s f)) = false := by
    have hpow : (excludeAdopted s f).pow = s.pow := adopt_pow s _ _ _
    have haddr : twinAddr (excludeAdopted s f) = twinAddr s := congrArg (fun x : PowerSt => twinOf x.node.toNat) hpow
    rw [haddr, beq_false_of_ne htwin, Bool.and_false]
  show execExcludeRx f s = _
  simp only [execExcludeRx, hmain, hother, hflood, hfresh, hnews, ne_eq, not_false_eq_true, decide_true, Bool.and_self, Bool.not_true,
    Bool.false_eq_true, Bool.true_and, State.when_true, ↓reduceIte, done]
  rw [excludeAdopted] at hmine
  simp only [hmine, Bool.false_eq_true, ↓reduceIte]
  rfl

theorem viewOf_excludeTaken {f : MFrame} (hterm : (viewOf s f.subject).term < f.term) : viewOf (excludeTaken s f) f.subject =
    { viewOf s f.subject with term := f.term, byTwin := false, member := true, twinMember := false } := by
  rw [excludeTaken, viewOf_congr (floodAgain_view _ _ _), viewOf_onView_ne (twinOf_ne _).symm, excludeAdopted, viewOf_adopt hterm fun hdefault => ?_]
  have hzero : f.term = 0 := congrArg HomeView.term hdefault
  omega

end Sys2Proof.Machine
end

section
/-! OBLIGATIONS. Authority moves by heartbeats, silence, grants and decisions: O31. -/

namespace Sys2Proof.Machine

set_option Elab.async false

/-- Settles O31, row by row: what a row starts or ends follows from the state it finds; the frames it sends touch neither authority nor attempts. -/
theorem authorityMovesByGrants : Obligations.AuthorityMovesByGrants := by
  unfold Obligations.AuthorityMovesByGrants
  refine ⟨fun _ _ => completes_heartbeatTimer, ?beat, ?silence, ?query, ?reply, ?ack, fun _ _ _ => completes_grantLapse, fun _ => rfl,
    fun _ => exec_collectionRetry_exclude, ?abstain, ?exclude⟩
  case beat =>
    intro s src term g own tw sh op e hmain hadjacent
    exact ⟨heartbeatRx_hears hmain hadjacent, fun htwin _ => exec_heartbeatRx_alone hmain hadjacent htwin, exec_heartbeatRx_twin hmain hadjacent⟩
  case silence =>
    intro s src u
    refine ⟨exec_heartbeatSilence_other, ?_, ?_⟩
    · rintro rfl
      exact exec_heartbeatSilence_exclude
    · rintro rfl hexclude htakeover hnone
      exact exec_heartbeatSilence_takeover hexclude hnone htakeover
  case query =>
    intro s src home term x hmain hjoined hwitness a
    exact ⟨exec_witnessQueryRx hmain hjoined hwitness, witnessAnswer_abstain, witnessAnswer_otherTerm, witnessAnswer_grant⟩
  case reply =>
    intro s src home need x c hcollect hhome hopen hwitness htwin hneed hnew
    refine ⟨exec_witnessReplyRx_short hcollect hhome hopen hwitness htwin hneed hnew, fun henough hoffer => ?_,
      fun hoffer m hterm => exec_witnessReplyRx_moved hcollect hhome hopen hwitness htwin hoffer hterm⟩
    refine ⟨_, _, exec_witnessReplyRx_enough hcollect hhome hopen hwitness htwin hneed hnew henough hoffer, collectOf_decisionSent _ _ _ _, rfl, rfl, ?_⟩
    exact ownTerm_decisionSent x { c with grants := c.grants ++ [src] }
  case ack =>
    intro s f need c hcollect hkind hsubject hdecided hterm hgranted hnew hneed hsilent
    have hexec := exec_decisionAckRx hcollect hkind hsubject hdecided hterm hgranted hnew hneed hsilent
    refine ⟨fun hshort => ?_, fun henough hexclude hauth => ?_, fun henough htakeover hshadow => ?_⟩
    · rw [hexec, if_pos hshort]
    · rw [hexec, if_neg (Nat.not_lt.mpr henough), if_pos (beq_iff_eq.mpr hexclude), if_pos hauth]
    · rw [hexec, if_neg (Nat.not_lt.mpr henough), if_neg (by simp [htakeover]), if_pos hshadow]
  case abstain =>
    intro s hjoined
    show execAbstainPeriodEnd s = _
    rw [execAbstainPeriodEnd, hjoined, State.when_true, done]
  case exclude =>
    intro s f hmain hother
    refine ⟨exec_excludeRx_decision hmain hother, fun hflood hfresh hterm htwin => ?_⟩
    have hview := viewOf_excludeTaken hterm
    exact ⟨_, exec_excludeRx_other hmain hother hflood hfresh hterm htwin, congrArg HomeView.term hview, congrArg HomeView.twinMember hview,
      congrArg HomeView.byTwin hview⟩

end Sys2Proof.Machine
end

section
/-! SUPPORT. The fields of an instruction word, and the operation that they spell (08 R428, R434, R440, R469). -/

namespace Sys2Proof.Machine

set_option Elab.async false

variable {w : BitVec 14} {n : Nat} {op : SOp}

/-! ### Fields -/

theorem cond_toNat (w : BitVec 14) : (w.extractLsb' 11 3).toNat = w.toNat / 2048 := by
  simp only [BitVec.extractLsb'_toNat, Nat.shiftRight_eq_div_pow]
  omega

theorem wOp_eq (w : BitVec 14) : wOp w = w.toNat / 128 % 16 := by
  simp only [wOp, BitVec.extractLsb'_toNat, Nat.shiftRight_eq_div_pow, Nat.reducePow]

theorem wMode_eq (w : BitVec 14) : wMode w = w.toNat / 32 % 4 := by
  simp only [wMode, BitVec.extractLsb'_toNat, Nat.shiftRight_eq_div_pow, Nat.reducePow]

theorem field_toNat (w : BitVec 14) : (w.extractLsb' 0 5).toNat = w.toNat % 32 := by
  simp only [BitVec.extractLsb'_toNat, Nat.shiftRight_zero, Nat.reducePow]

theorem subOp_toNat (w : BitVec 14) : (w.extractLsb' 0 7).toNat = w.toNat % 128 := by
  simp only [BitVec.extractLsb'_toNat, Nat.shiftRight_zero, Nat.reducePow]

theorem isPrefix_eq (w : BitVec 14) : isPrefix w = decide (w.toNat / 2048 = 7) := by
  rw [isPrefix, ← cond_toNat, Bool.eq_iff_iff, beq_iff_eq, decide_eq_true_iff, ← BitVec.toNat_inj]
  rfl

/-- The operation that a word spells, whatever its condition code. -/
def spelled (w : BitVec 14) : SOp :=
  if wOp w = 0xF then groupOf (w.toNat % 128) else if wOp w = 0xE then .xmov (w.extractLsb' 0 5)
  else .mem (mopOf (wOp w)) (modeOf (wMode w)) (w.extractLsb' 0 5)

theorem instrOf_eq (w : BitVec 14) :
    instrOf w = if isPrefix w || !isDefined w then none else some (w.extractLsb' 11 3, spelled w) := by
  rw [instrOf, spelled, subOp_toNat]

theorem instrOf_defined (hprefix : isPrefix w = false) (hdefined : isDefined w = true) : instrOf w = some (w.extractLsb' 11 3, spelled w) := by
  rw [instrOf_eq, hprefix, hdefined]
  rfl

/-- A word with a condition code is defined unless it is ST with an immediate, an XMOV with mode bits, or the unassigned sub-op 0x1F. -/
theorem isDefined_instr (hprefix : isPrefix w = false) : isDefined w = true ↔
    ¬ (wOp w = 1 ∧ wMode w = 3) ∧ ¬ (wOp w = 0xE ∧ wMode w ≠ 0) ∧ ¬ (wOp w = 0xF ∧ w.toNat % 128 = 0x1F) := by
  have hsub : w.extractLsb' 0 7 = 31#7 ↔ w.toNat % 128 = 0x1F := by
    rw [← subOp_toNat, ← BitVec.toNat_inj]
    rfl
  simp only [isDefined, hprefix, Bool.false_eq_true, ↓reduceIte, Bool.and_eq_true, Bool.not_eq_true', Bool.and_eq_false_iff, beq_eq_false_iff_ne,
    bne_eq_false_iff_eq, ← hsub, ne_eq]
  tauto

theorem isDefined_prefix (hprefix : isPrefix w = true) : isDefined w = true ↔
    w.toNat / 512 % 4 < 2 ∨ w.toNat / 512 % 4 = 2 ∧ w.toNat % 256 = 0 := by
  have hkind (k : BitVec 2) : w.extractLsb' 9 2 = k ↔ w.toNat / 512 % 4 = k.toNat := by
    rw [← BitVec.toNat_inj, BitVec.extractLsb'_toNat, Nat.shiftRight_eq_div_pow]
  have hlow : w.extractLsb' 0 8 = 0 ↔ w.toNat % 256 = 0 := by
    rw [← BitVec.toNat_inj, BitVec.extractLsb'_toNat, Nat.shiftRight_zero]
    rfl
  simp only [isDefined, hprefix, ↓reduceIte, Bool.or_eq_true, Bool.and_eq_true, beq_iff_eq, hkind, hlow, BitVec.reduceToNat]
  omega

/-! ### Codes -/

theorem opCode_lt (op : MOp) : opCode op < 14 := by cases op <;> decide

theorem modeCode_lt (m : SMode) : modeCode m < 4 := by cases m <;> decide

theorem mopOf_opCode (op : MOp) : mopOf (opCode op) = op := by cases op <;> rfl

theorem modeOf_modeCode (m : SMode) : modeOf (modeCode m) = m := by cases m <;> rfl

theorem opCode_mopOf (h : n < 14) : opCode (mopOf n) = n := by interval_cases n <;> rfl

theorem modeCode_modeOf (h : n < 4) : modeCode (modeOf n) = n := by interval_cases n <;> rfl

theorem opBits_groupOf (h : n < 128) (hassigned : n ≠ 0x1F) : opBits (groupOf n) = 0x780 + n := by
  revert hassigned
  interval_cases n <;> decide

theorem isInstr_groupOf {c : BitVec 3} (h : n < 128) (hc : c ≠ 7) : isInstr { cond := c } (groupOf n) = true := by
  have hop : isInstr {} (groupOf n) = true := by interval_cases n <;> rfl
  simpa [isInstr] using And.intro hc hop

end Sys2Proof.Machine
end

section
/-! SUPPORT. An instruction's word spells its operation, and a defined word is the word of the operation it spells. -/

namespace Sys2Proof.Machine

set_option Elab.async false

variable {w : BitVec 14} {op : SOp}

theorem groupCode_lt (g : GOp) : groupCode g < 32 := by
  cases g with
  | tq t => simp only [groupCode]; omega
  | _ => decide

theorem shiftCode_le (k : ShiftOp) : shiftCode k ≤ 0x60 := by cases k <;> decide

theorem opBits_lt (op : SOp) : opBits op < 2048 := by
  cases op with
  | mem op mode field =>
    have := opCode_lt op
    have := modeCode_lt mode
    simp only [opBits]; omega
  | xmov field => simp only [opBits]; omega
  | group g => have := groupCode_lt g; simp only [opBits]; omega
  | shift k field => have := shiftCode_le k; simp only [opBits]; omega

theorem toNat_instrWord (c : BitVec 3) (op : SOp) : (instrWord c op).toNat = c.toNat * 2048 + opBits op := by
  have := opBits_lt op
  rw [instrWord, BitVec.toNat_ofNat]
  omega

theorem groupOf_groupCode {g : GOp} (h : ∀ t, g = .tq t → t.toNat ≤ 5) : groupOf (groupCode g) = .group g := by
  cases g with
  | tq t => have := h t rfl; revert this; revert t; decide
  | _ => rfl

theorem groupOf_shiftCode {k : ShiftOp} (field : BitVec 5) (h : k ≠ .ror) : groupOf (shiftCode k + field.toNat) = .shift k field := by
  revert field
  cases k with
  | ror => exact absurd rfl h
  | _ => decide

/-- The word of an instruction spells its operation. -/
theorem spelled_instrWord {x : SCtx} (c : BitVec 3) (h : isInstr x op = true) : spelled (instrWord c op) = op := by
  have hword := toNat_instrWord c op
  have hfield : ∀ f : BitVec 5, opBits op % 32 = f.toNat → (instrWord c op).extractLsb' 0 5 = f := fun f hf => by
    rw [← BitVec.toNat_inj, field_toNat, hword]
    omega
  simp only [spelled, wOp_eq, wMode_eq]
  cases op with
  | mem op mode field =>
    have hop := opCode_lt op
    have hmode := modeCode_lt mode
    have hlt := field.isLt
    simp only [opBits] at hword hfield
    have hcode : (instrWord c (.mem op mode field)).toNat / 128 % 16 = opCode op := by omega
    have hkind : (instrWord c (.mem op mode field)).toNat / 32 % 4 = modeCode mode := by omega
    rw [hcode, hkind, if_neg (by omega), if_neg (by omega), mopOf_opCode, modeOf_modeCode, hfield field (by omega)]
  | xmov field =>
    have hlt := field.isLt
    simp only [opBits] at hword hfield
    rw [if_neg (by omega), if_pos (by omega), hfield field (by omega)]
  | group g =>
    have hcode := groupCode_lt g
    simp only [opBits] at hword
    have hsub : (instrWord c (.group g)).toNat % 128 = groupCode g := by omega
    rw [if_pos (by omega), hsub]
    refine groupOf_groupCode fun t ht => ?_
    subst ht
    simp only [isInstr, Bool.and_eq_true, decide_eq_true_eq] at h
    exact h.2
  | shift k field =>
    have hcode := shiftCode_le k
    have hlt := field.isLt
    simp only [opBits] at hword
    have hsub : (instrWord c (.shift k field)).toNat % 128 = shiftCode k + field.toNat := by omega
    rw [if_pos (by omega), hsub]
    refine groupOf_shiftCode field fun hk => ?_
    subst hk
    simp [isInstr] at h

/-- A defined word holds, in bits [10:0], those of the operation that it spells. -/
theorem opBits_spelled (hprefix : isPrefix w = false) (hdefined : isDefined w = true) : opBits (spelled w) = w.toNat % 2048 := by
  obtain ⟨-, hxmov, hgroup⟩ := (isDefined_instr hprefix).1 hdefined
  rw [wOp_eq, wMode_eq] at hxmov
  rw [wOp_eq] at hgroup
  simp only [spelled, wOp_eq, wMode_eq]
  split
  · rw [opBits_groupOf (by omega) (by omega)]
    omega
  · split
    · simp only [opBits, field_toNat]
      omega
    · simp only [opBits, field_toNat]
      rw [opCode_mopOf (by omega), modeCode_modeOf (by omega)]
      omega

theorem instrWord_spelled (hprefix : isPrefix w = false) (hdefined : isDefined w = true) : instrWord (w.extractLsb' 11 3) (spelled w) = w := by
  rw [← BitVec.toNat_inj, toNat_instrWord, cond_toNat, opBits_spelled hprefix hdefined]
  omega

theorem isInstr_spelled (hprefix : isPrefix w = false) : isInstr { cond := w.extractLsb' 11 3 } (spelled w) = true := by
  have hcond : w.extractLsb' 11 3 ≠ 7 := by simpa [isPrefix] using hprefix
  rw [spelled]
  split
  · exact isInstr_groupOf (by omega) hcond
  · split
    · simpa [isInstr] using hcond
    · simpa [isInstr] using hcond

theorem isPrefix_instrWord {c : BitVec 3} (hc : c ≠ 7) : isPrefix (instrWord c op) = false := by
  have hlt := opBits_lt op
  have hseven : c.toNat ≠ 7 := fun h => hc (BitVec.toNat_inj.1 h)
  rw [isPrefix_eq, decide_eq_false_iff_not, toNat_instrWord]
  omega

theorem cond_instrWord (c : BitVec 3) : (instrWord c op).extractLsb' 11 3 = c := by
  have hlt := opBits_lt op
  rw [← BitVec.toNat_inj, cond_toNat, toNat_instrWord]
  omega

end Sys2Proof.Machine
end

section
/-! OBLIGATIONS. The words of instructions: O49 and O50. -/

namespace Sys2Proof.Machine

set_option Elab.async false

/-- Settles O49: the fields of an instruction's word give back its condition code and operation, and a defined word with a condition code is put together
again from the fields it spells. -/
theorem instructionWordsRoundTrip : Obligations.InstructionWordsRoundTrip := by
  unfold Obligations.InstructionWordsRoundTrip
  refine ⟨fun x op hinstr hdefined => ?decode, fun w c op hspells => ?encode, fun w hprefix hdefined => ?total⟩
  case decode =>
    have hcond : x.cond ≠ 7 := by
      simp only [isInstr, Bool.and_eq_true, bne_iff_ne] at hinstr
      exact hinstr.1.1
    rw [instrOf_defined (isPrefix_instrWord hcond) hdefined, cond_instrWord, spelled_instrWord _ hinstr]
  case encode =>
    rw [instrOf_eq] at hspells
    split at hspells
    · cases hspells
    · next hplain =>
      simp only [Bool.or_eq_true, Bool.not_eq_true', not_or, Bool.not_eq_true, Bool.not_eq_false] at hplain
      obtain ⟨hprefix, hdefined⟩ := hplain
      cases hspells
      exact ⟨instrWord_spelled hprefix hdefined, isInstr_spelled hprefix⟩
  case total =>
    rw [instrOf_defined hprefix hdefined]
    rfl

end Sys2Proof.Machine
end

section
/-! SUPPORT. The words of one condition code, block by block: which are defined, and how many there are (08 R469). -/

namespace Sys2Proof.Machine

set_option Elab.async false

variable {c n : Nat}

/-- The place in its block of 0x800 of a word that the encoding table leaves undefined under each condition code. -/
def unassigned (n : Nat) : Bool := (decide (0xE0 ≤ n) && decide (n ≤ 0xFF)) || (decide (0x720 ≤ n) && decide (n ≤ 0x77F)) || n == 0x79F

/-- The place in the block of prefixes of one that is undefined. -/
def unassignedPrefix (n : Nat) : Bool := !(decide (n < 0x400) || n == 0x400 || n == 0x500)

theorem toNat_blockWord (hc : c < 8) (hn : n < 0x800) : (BitVec.ofNat 14 (c * 0x800 + n)).toNat = c * 0x800 + n := by
  rw [BitVec.toNat_ofNat]
  omega

theorem toNat_prefixWord (hn : n < 0x800) : (BitVec.ofNat 14 (0x3800 + n)).toNat = 0x3800 + n := toNat_blockWord (c := 7) (by decide) hn

theorem isPrefix_blockWord (hc : c < 7) (hn : n < 0x800) : isPrefix (BitVec.ofNat 14 (c * 0x800 + n)) = false := by
  rw [isPrefix_eq, decide_eq_false_iff_not, toNat_blockWord (by omega) hn]
  omega

theorem isDefined_blockWord (hc : c < 7) (hn : n < 0x800) : isDefined (BitVec.ofNat 14 (c * 0x800 + n)) = !unassigned n := by
  rw [Bool.eq_iff_iff, isDefined_instr (isPrefix_blockWord hc hn), wOp_eq, wMode_eq, toNat_blockWord (by omega) hn]
  simp only [unassigned, Bool.not_eq_true', Bool.or_eq_false_iff, Bool.and_eq_false_iff, decide_eq_false_iff_not, beq_eq_false_iff_ne]
  omega

/-- A defined word holds its place in the block as the bits of the operation that it spells. -/
theorem opBits_spelled_blockWord (hc : c < 7) (hn : n < 0x800) (hdefined : isDefined (BitVec.ofNat 14 (c * 0x800 + n)) = true) :
    opBits (spelled (BitVec.ofNat 14 (c * 0x800 + n))) = n := by
  rw [opBits_spelled (isPrefix_blockWord hc hn) hdefined, toNat_blockWord (by omega) hn]
  omega

theorem isPrefix_prefixWord (hn : n < 0x800) : isPrefix (BitVec.ofNat 14 (0x3800 + n)) = true := by
  rw [isPrefix_eq, decide_eq_true_iff, toNat_prefixWord hn]
  omega

theorem isDefined_prefixWord (hn : n < 0x800) : isDefined (BitVec.ofNat 14 (0x3800 + n)) = !unassignedPrefix n := by
  rw [Bool.eq_iff_iff, isDefined_prefix (isPrefix_prefixWord hn), toNat_prefixWord hn]
  simp only [unassignedPrefix, Bool.not_not, Bool.or_eq_true, decide_eq_true_eq, beq_iff_eq]
  omega

/-- The kind of a word among the prefixes: bits [10:9]. -/
theorem prefixWord_kind (hn : n < 0x800) (k : BitVec 2) : ((BitVec.ofNat 14 (0x3800 + n)).extractLsb' 9 2 == k) = decide (n / 0x200 = k.toNat) := by
  rw [Bool.eq_iff_iff, beq_iff_eq, decide_eq_true_iff, ← BitVec.toNat_inj, BitVec.extractLsb'_toNat, toNat_prefixWord hn, Nat.shiftRight_eq_div_pow]
  omega

/-! ### Counts -/

theorem countP_range_eq_card {p : Nat → Bool} {m : Nat} {A : Finset Nat} (h : ∀ n, n ∈ A ↔ n < m ∧ p n = true) : (List.range m).countP p = A.card := by
  have hcount := Nat.count_eq_card_filter_range (fun n => p n = true) m
  simp only [Nat.count, Bool.decide_eq_true] at hcount
  rw [hcount]
  congr 1
  ext n
  rw [h, Finset.mem_filter, Finset.mem_range]

/-- Blocks alike hold alike many. -/
theorem countP_range_blocks {p q : Nat → Bool} {m : Nat} : ∀ {k : Nat}, (∀ c < k, ∀ n < m, p (c * m + n) = q n) →
    (List.range (k * m)).countP p = k * (List.range m).countP q
  | 0, _ => by simp
  | k + 1, h => by
    have hblock : (List.range m).countP (p ∘ (k * m + ·)) = (List.range m).countP q :=
      List.countP_congr fun n hn => by rw [Function.comp, h k (by omega) n (List.mem_range.1 hn)]
    rw [Nat.add_mul, Nat.one_mul, List.range_add, List.countP_append, List.countP_map, hblock,
      countP_range_blocks fun c hc => h c (by omega), Nat.add_mul, Nat.one_mul]

theorem countP_unassigned : (List.range 0x800).countP unassigned = 129 := by
  rw [countP_range_eq_card (A := (Finset.Icc 0xE0 0xFF).disjUnion ((Finset.Icc 0x720 0x77F).disjUnion {0x79F} (by simp)) (by
    rw [Finset.disjoint_left]
    simp only [Finset.mem_disjUnion, Finset.mem_Icc, Finset.mem_singleton]
    omega))]
  · simp only [Finset.card_disjUnion, Nat.card_Icc, Finset.card_singleton]
  · simp only [Finset.mem_disjUnion, Finset.mem_Icc, Finset.mem_singleton, unassigned, Bool.or_eq_true, Bool.and_eq_true, decide_eq_true_eq, beq_iff_eq]
    omega

theorem countP_unassignedPrefix : (List.range 0x800).countP unassignedPrefix = 1022 := by
  rw [countP_range_eq_card (A := (Finset.Icc 0x401 0x4FF).disjUnion (Finset.Icc 0x501 0x7FF) (by
    rw [Finset.disjoint_left]
    simp only [Finset.mem_Icc]
    omega))]
  · simp only [Finset.card_disjUnion, Nat.card_Icc]
  · simp only [Finset.mem_disjUnion, Finset.mem_Icc, unassignedPrefix, Bool.not_eq_true', Bool.or_eq_false_iff, decide_eq_false_iff_not,
      beq_eq_false_iff_ne]
    omega

theorem countP_undefined : (List.range 16384).countP (fun n => !isDefined (BitVec.ofNat 14 n)) = 1925 := by
  have hprefixes : (List.range 0x800).countP ((fun n => !isDefined (BitVec.ofNat 14 n)) ∘ (7 * 0x800 + ·)) = 1022 := by
    rw [← countP_unassignedPrefix]
    refine List.countP_congr fun n hn => ?_
    simp only [Function.comp]
    rw [isDefined_prefixWord (List.mem_range.1 hn), Bool.not_not]
  have hblocks := countP_range_blocks (p := fun n => !isDefined (BitVec.ofNat 14 n)) (q := unassigned) (m := 0x800) (k := 7)
    fun c hc n hn => by rw [isDefined_blockWord hc hn, Bool.not_not]
  rw [show 16384 = 7 * 0x800 + 0x800 from rfl, List.range_add, List.countP_append, List.countP_map, hprefixes, hblocks, countP_unassigned]

theorem countP_add_countP_not (p : Nat → Bool) (l : List Nat) : l.countP p + l.countP (fun n => !p n) = l.length := by
  rw [List.length_eq_countP_add_countP p]
  congr 2
  funext n
  cases p n <;> rfl

/-- Stated for any `p`: with the closed predicate in its place the kernel would count the 16,384 words one by one. -/
theorem countP_range_of_not {p : Nat → Bool} {m k : Nat} (h : (List.range m).countP (fun n => !p n) = k) : (List.range m).countP p = m - k := by
  have htotal := countP_add_countP_not p (List.range m)
  rw [h, List.length_range] at htotal
  omega

theorem countP_defined : (List.range 16384).countP (fun n => isDefined (BitVec.ofNat 14 n)) = 14459 := countP_range_of_not countP_undefined

end Sys2Proof.Machine
end

section
/-! OBLIGATIONS. The assignment of the 16,384 words: O50. -/

namespace Sys2Proof.Machine

set_option Elab.async false

/-- Settles O50: a defined word holds the bits of the operation that it spells, and the undefined words are counted block by block. -/
theorem instructionWordsAreAccountedFor : Obligations.InstructionWordsAreAccountedFor := by
  unfold Obligations.InstructionWordsAreAccountedFor
  refine ⟨fun c n => ⟨isDefined_blockWord c.isLt n.isLt, fun hdefined => ?spells⟩, fun n => ?prefixes, countP_defined, countP_undefined⟩
  case spells =>
    have hprefix := isPrefix_blockWord c.isLt n.isLt
    have hbits := opBits_spelled_blockWord c.isLt n.isLt hdefined
    have hinstr := isInstr_spelled hprefix
    have hassigned : n.val ≠ 0x79F := fun h => by
      rw [isDefined_blockWord c.isLt n.isLt, h] at hdefined
      exact absurd hdefined (by decide)
    have hcond : ((BitVec.ofNat 14 (c.val * 0x800 + n.val)).extractLsb' 11 3).toNat = c.val := by
      rw [cond_toNat, toNat_blockWord (by omega) n.isLt]
      omega
    rw [instrOf_defined hprefix hdefined]
    generalize spelled (BitVec.ofNat 14 (c.val * 0x800 + n.val)) = op at hbits hinstr
    cases op with
    | mem op mode field =>
      have hop := opCode_lt op
      have hmode := modeCode_lt mode
      simp only [opBits] at hbits
      exact ⟨hcond, by omega, by omega⟩
    | xmov field =>
      simp only [opBits] at hbits
      exact ⟨hcond, by omega, by omega⟩
    | group g =>
      have hcode := groupCode_lt g
      simp only [opBits] at hbits
      exact ⟨hcond, by omega, by omega⟩
    | shift k field =>
      simp only [opBits] at hbits
      have hcode : 0x20 ≤ shiftCode k := by
        cases k with
        | ror => simp [isInstr] at hinstr
        | _ => decide
      exact ⟨hcond, by omega⟩
  case prefixes =>
    have hprefix := isPrefix_prefixWord n.isLt
    refine ⟨?_, ?_, ?_, ?_⟩
    · rw [isDefined_prefixWord n.isLt, unassignedPrefix, Bool.not_not]
    · rw [isExt, hprefix, prefixWord_kind n.isLt, Bool.true_and]
      exact decide_eq_decide.2 (by rw [show (0 : BitVec 2).toNat = 0 from rfl]; omega)
    · rw [isRep, hprefix, prefixWord_kind n.isLt, prefixWord_kind n.isLt, Bool.true_and, Bool.eq_iff_iff]
      simp only [Bool.or_eq_true, Bool.and_eq_true, decide_eq_true_eq, BitVec.reduceToNat]
      omega
    · rw [instrOf_eq, hprefix]
      rfl

end Sys2Proof.Machine
end

section
/-! SUPPORT. What entry and the stop of a core leave: the frame, the status word, the registers, the other cores (08 R457, R458, R461). -/

namespace Sys2Proof.Machine

set_option Elab.async false

variable {s t : State} {c d : CoreId}

/-! ### PC -/

@[simp] theorem setPc_acc (c : CoreId) (pc : Nat) (k : Core) : (setPc c pc k).acc = k.acc := rfl

/-! ### Data RAM -/

theorem ramGet_congr (h : t.core = s.core) (c : CoreId) (a : Nat) : ramGet t c a = ramGet s c a := by rw [ramGet, coreGet_congr h, ramGet]

theorem ramGet_coreUpd {f : Core → Core} (hf : (f (coreGet s c)).ram = (coreGet s c).ram) (d : CoreId) (a : Nat) :
    ramGet (coreUpd s c f) d a = ramGet s d a := by
  by_cases h : d = c
  · subst h
    rw [ramGet, coreGet_coreUpd_self, hf, ramGet]
  · rw [ramGet, coreGet_coreUpd_ne _ _ h, ramGet]

/-- A store to data RAM changes nothing else of its core. -/
theorem coreGet_ramPut (s : State) (c : CoreId) (a : Nat) (w : W36) :
    coreGet (ramPut s c a w) c = { coreGet s c with ram := (coreGet (ramPut s c a w) c).ram } := by
  unfold ramPut
  split
  · rw [coreGet_coreUpd_self]
  · rfl

theorem coreGet_ramPut_ne {a : Nat} {w : W36} (h : d ≠ c) : coreGet (ramPut s c a w) d = coreGet s d := by
  unfold ramPut
  split
  · rw [coreGet_coreUpd_ne _ _ h]
  · rfl

theorem coreGet_ramPuts (c : CoreId) : ∀ (ws : List W36) (s : State) (a : Nat),
    coreGet (ramPuts s c a ws) c = { coreGet s c with ram := (coreGet (ramPuts s c a ws) c).ram }
  | [], _, _ => rfl
  | w :: ws, s, a => by rw [ramPuts, coreGet_ramPuts c ws, coreGet_ramPut]

theorem coreGet_ramPuts_ne (h : d ≠ c) : ∀ {ws : List W36} {s : State} {a : Nat}, coreGet (ramPuts s c a ws) d = coreGet s d
  | [], _, _ => rfl
  | _ :: ws, _, _ => by rw [ramPuts, coreGet_ramPuts_ne h (ws := ws), coreGet_ramPut_ne h]

/-! ### Entry -/

section
variable (s : State) (c : CoreId) (intr : Bool) (cause : Nat) (fault : W36) (resume base off : Nat)

/-- The first word of the frame of its kind. -/
def frameBase (intr : Bool) : Nat := if intr then 0x7FE0 else 0x7FE8

/-- The words of the frame (08 R457). -/
def frameWords (k : Core) (cause : Nat) (fault : W36) (resume : Nat) : List W36 :=
  [caddrW (BitVec.ofNat 14 resume), bitsW (statusWord k), intW (BitVec.ofNat 32 k.repc), intW (BitVec.ofNat 32 cause), fault, intW 0, intW 0, intW 0]

/-- The registers of a core after entry, data RAM apart. -/
def entered (c : CoreId) (intr : Bool) (pc : Nat) (k : Core) : Core :=
  setPc c pc { k with
    ie := false, eiNext := false, repc := 0, rep := none, waiting := false, dp := 0x3FF, st := if intr then .interrupt else .trap }

theorem enter_eq : enter s c intr cause fault resume base off =
    coreUpd (ramPuts s c (frameBase intr) (frameWords (coreGet s c) cause fault resume)) c (entered c intr (base + off)) := rfl

theorem coreGet_enter : coreGet (enter s c intr cause fault resume base off) c =
    { entered c intr (base + off) (coreGet s c) with ram := (coreGet (enter s c intr cause fault resume base off) c).ram } := by
  rw [enter_eq, coreGet_coreUpd_self, coreGet_ramPuts]
  rfl

theorem coreGet_enter_ne (h : d ≠ c) : coreGet (enter s c intr cause fault resume base off) d = coreGet s d := by
  rw [enter_eq, coreGet_coreUpd_ne _ _ h, coreGet_ramPuts_ne h]

theorem ramGet_enter (d : CoreId) (a : Nat) : ramGet (enter s c intr cause fault resume base off) d a =
    ramGet (ramPuts s c (frameBase intr) (frameWords (coreGet s c) cause fault resume)) d a := by
  rw [enter_eq]
  exact ramGet_coreUpd rfl d a

theorem ramGet_enter_ne {a : Nat} (h : a < frameBase intr ∨ frameBase intr + 7 < a) :
    ramGet (enter s c intr cause fault resume base off) c a = ramGet s c a := by
  rw [ramGet_enter, ramGet_ramPuts_ne]
  rcases h with h | h
  · exact .inl h
  · exact .inr (.inl (by simp only [frameWords, List.length_cons, List.length_nil]; omega))

theorem ramGet_enter_frame {s : State} {c : CoreId} (hram : RamWf s c) {i : Nat} (hi : i < 8) :
    ramGet (enter s c intr cause fault resume base off) c (frameBase intr + i) = (frameWords (coreGet s c) cause fault resume)[i] := by
  rw [ramGet_enter]
  refine ramGet_ramPuts (frameWords (coreGet s c) cause fault resume) s _ i hram ?_ hi
  show frameBase intr + 8 ≤ 0x8000
  cases intr <;> decide

end

/-! ### The status word -/

/-- The code of the state before entry (08 R458). -/
def modeBits : CoreMode → Nat
  | .normal => 0
  | .interrupt => 1
  | .trap => 2

theorem statusFields_le (k : Core) : k.z.toNat ≤ 1 ∧ k.n.toNat ≤ 1 ∧ k.c.toNat ≤ 1 ∧ k.v.toNat ≤ 1 ∧ k.ie.toNat ≤ 1 ∧ modeBits k.st ≤ 2 :=
  ⟨k.z.toNat_le, k.n.toNat_le, k.c.toNat_le, k.v.toNat_le, k.ie.toNat_le, by cases k.st <;> decide⟩

theorem statusWord_toNat (k : Core) : (statusWord k).toNat =
    k.z.toNat + 2 * k.n.toNat + 4 * k.c.toNat + 8 * k.v.toNat + 16 * k.ie.toNat + 32 * modeBits k.st + 256 * k.dp.toNat := by
  have hflag (b : Bool) (n : Nat) : (if b = true then 2 ^ n else 0) = 2 ^ n * b.toNat := by cases b <;> simp
  obtain ⟨hz, hn, hc, hv, hie, -⟩ := statusFields_le k
  simp only [statusWord, hflag, BitVec.toNat_ofNat]
  cases k.st <;> simp only [modeBits] <;> omega

theorem toNat_eq_testBit {n i : Nat} {b : Bool} (h : n / 2 ^ i % 2 = b.toNat) : n.testBit i = b := by
  rw [Nat.testBit_eq_decide_div_mod_eq, h]
  cases b <;> rfl

theorem statusWord_bits (k : Core) : (statusWord k).getLsbD 0 = k.z ∧ (statusWord k).getLsbD 1 = k.n ∧ (statusWord k).getLsbD 2 = k.c ∧
    (statusWord k).getLsbD 3 = k.v ∧ (statusWord k).getLsbD 4 = k.ie ∧ (statusWord k).getLsbD 7 = false := by
  have hword := statusWord_toNat k
  obtain ⟨hz, hn, hc, hv, hie, hmodes⟩ := statusFields_le k
  refine ⟨?_, ?_, ?_, ?_, ?_, ?_⟩ <;> refine toNat_eq_testBit ?_ <;> rw [hword] <;> simp only [Bool.toNat_false, Nat.reducePow] <;> omega

theorem statusWord_fields (k : Core) : ((statusWord k).extractLsb' 5 2).toNat = modeBits k.st ∧ (statusWord k).extractLsb' 8 11 = k.dp ∧
    (statusWord k).extractLsb' 19 13 = 0 := by
  have hword := statusWord_toNat k
  obtain ⟨hz, hn, hc, hv, hie, hmodes⟩ := statusFields_le k
  have hdp := k.dp.isLt
  refine ⟨?_, BitVec.toNat_inj.1 ?_, BitVec.toNat_inj.1 ?_⟩ <;>
    simp only [BitVec.extractLsb'_toNat, Nat.shiftRight_eq_div_pow, hword, BitVec.ofNat_eq_ofNat, BitVec.toNat_ofNat, Nat.reducePow] <;> omega

/-! ### A core that stops -/

theorem keeps_startFailover (s : State) : Keeps [.unit, .hq, .pow, .out, .fab, .led, .tele] s (startFailover s) := by
  unfold startFailover
  split
  · exact Keeps.refl _ s
  · exact (((keeps_onUnit s _).mono (by simp)).trans (Keeps.when _ closePlane ((keeps_closePlane _).mono (by simp)))).trans
      ((keeps_closeOpen _).mono (by simp))

theorem keeps_coreStopped (s : State) (c : CoreId) : Keeps [.unit, .mgt, .hq, .pow, .out, .fab, .led, .tele] s (coreStopped s c) := by
  have hbell : ∀ t : State, Keeps [.unit, .mgt, .hq, .pow, .out, .fab, .led, .tele] t (coresGone (mgtAlert (dbAlert t) 6)) := fun t =>
    (((keeps_dbAlert t).mono (by simp)).trans ((keeps_mgtAlert _ 6).mono (by simp))).trans (Keeps.when _ startFailover ((keeps_startFailover _).mono (by simp)))
  have hpost := keeps_observe s (coreUnit c) .failed 2 0x08
  cases c with
  | g => exact ((hpost.trans (keeps_irqMain _ 9)).mono (by simp)).trans (hbell _)
  | _ => exact ((hpost.trans (keeps_irq _ _ 1)).mono (by simp)).trans (hbell _)

/-- What HALT changes of the registers of its core (08 R444). -/
def stopped (k : Core) : Core := { k with halted := true, waiting := false, rep := none }

theorem haltCore_core (h : (coreGet s c).halted = false) : (haltCore s c).core = (coreUpd s c stopped).core := by
  rw [haltCore, h, if_neg Bool.false_ne_true]
  exact keeps_coreStopped _ c .core (by simp)

theorem coreGet_haltCore (h : (coreGet s c).halted = false) : coreGet (haltCore s c) c = stopped (coreGet s c) := by
  rw [coreGet_congr (haltCore_core h), coreGet_coreUpd_self]

theorem coreGet_haltCore_ne (h : d ≠ c) : coreGet (haltCore s c) d = coreGet s d := by
  by_cases hhalted : (coreGet s c).halted = true
  · rw [haltCore, if_pos hhalted]
  · rw [coreGet_congr (haltCore_core (Bool.not_eq_true _ ▸ hhalted)), coreGet_coreUpd_ne _ _ h]

theorem ramGet_haltCore (s : State) (c d : CoreId) (a : Nat) : ramGet (haltCore s c) d a = ramGet s d a := by
  by_cases hhalted : (coreGet s c).halted = true
  · rw [haltCore, if_pos hhalted]
  · rw [ramGet_congr (haltCore_core (Bool.not_eq_true _ ▸ hhalted)), ramGet_coreUpd rfl]

/-- A trap in state TRAP is a double trap (08 R461). -/
theorem trap_double (h : (coreGet s c).st = .trap) (i : TrapInfo) (resume : Nat) : trap s c i resume = haltCore s c := by
  rw [trap, if_pos h]

end Sys2Proof.Machine
end

section
/-! OBLIGATIONS. Entry and the double trap: O51 and O52. -/

namespace Sys2Proof.Machine

set_option Elab.async false

/-- Settles O51: entry stores the eight words of its frame and then sets the registers; the status word is the sum of its fields. -/
theorem entryWritesTheFrame : Obligations.EntryWritesTheFrame := by
  unfold Obligations.EntryWritesTheFrame
  refine ⟨fun s c intr cause fault resume base off hram => ?entry, fun k => ?status⟩
  case entry =>
    intro k t f
    have hframe (i : Nat) (hi : i < 8) : ramGet t c (f + i) = (frameWords k cause fault resume)[i] :=
      ramGet_enter_frame intr cause fault resume base off hram hi
    have hregs : coreGet t c = { entered c intr (base + off) k with ram := (coreGet t c).ram } :=
      coreGet_enter s c intr cause fault resume base off
    refine ⟨hframe 0 (by decide), hframe 1 (by decide), hframe 2 (by decide), hframe 3 (by decide), hframe 4 (by decide), hframe 5 (by decide),
      hframe 6 (by decide), hframe 7 (by decide), fun a ha => ramGet_enter_ne s c intr cause fault resume base off ha, ?_⟩
    rw [hregs]
    exact ⟨rfl, rfl, rfl, rfl, rfl, rfl, rfl, rfl, rfl, rfl, rfl, rfl, rfl, fun d hd => coreGet_enter_ne s c intr cause fault resume base off hd⟩
  case status =>
    obtain ⟨hz, hn, hc, hv, hie, hreserved⟩ := statusWord_bits k
    obtain ⟨hmode, hdp, hhigh⟩ := statusWord_fields k
    refine ⟨hz, hn, hc, hv, hie, BitVec.toNat_inj.1 (hmode.trans ?_), hreserved, hdp, hhigh⟩
    cases k.st <;> rfl

/-- Settles O52: in state TRAP a trap is HALT, and HALT changes of the cores only that its own stops. -/
theorem doubleTrapsStopTheCore : Obligations.DoubleTrapsStopTheCore := by
  unfold Obligations.DoubleTrapsStopTheCore
  intro s c i resume htrap
  rw [trap_double htrap]
  exact ⟨rfl, fun hrunning => ⟨coreGet_haltCore hrunning, fun d hd => coreGet_haltCore_ne hd, ramGet_haltCore s c⟩⟩

end Sys2Proof.Machine
end

section
/-! SUPPORT. Values and flags of the arithmetic of the Serge cores, in the words of the statements (08 R434-R437, R452). -/

namespace Sys2Proof.Machine

set_option Elab.async false

variable {a b : BitVec 32} {k : Core} {w : W36}

theorem setFlags_eq (k : Core) (f : Flags) : k.setFlags f = withFlags f.z f.n f.c f.v k := rfl

/-! ### Sums and differences -/

theorem toInt_bounds (a : BitVec 32) : -2147483648 ≤ a.toInt ∧ a.toInt < 2147483648 := ⟨a.le_toInt, a.toInt_lt⟩

/-- A value taken modulo 2^32 differs from it where it lies outside the signed range. -/
theorem bmod_ne_iff {t : Int} (hlow : -(2 ^ 32) ≤ t) (hhigh : t ≤ 2 ^ 32) : t.bmod (2 ^ 32) ≠ t ↔ 2 ^ 31 ≤ t ∨ t < -(2 ^ 31) := by
  rw [Int.bmod_def]
  omega

theorem addVal_overflow (a b : BitVec 32) : decide ((a + b).toInt ≠ a.toInt + b.toInt) = BitVec.saddOverflow a b := by
  have ha := toInt_bounds a
  have hb := toInt_bounds b
  rw [BitVec.saddOverflow, ← Bool.decide_or, decide_eq_decide, BitVec.toInt_add]
  exact bmod_ne_iff (by omega) (by omega)

theorem subVal_overflow (a b : BitVec 32) : decide ((a - b).toInt ≠ a.toInt - b.toInt) = BitVec.ssubOverflow a b := by
  have ha := toInt_bounds a
  have hb := toInt_bounds b
  rw [BitVec.ssubOverflow, ← Bool.decide_or, decide_eq_decide, BitVec.toInt_sub]
  exact bmod_ne_iff (by omega) (by omega)

theorem addVal_eq (a b : BitVec 32) : addVal a b =
    (a + b, { z := a + b == 0, n := (a + b).msb, c := decide (2 ^ 32 ≤ a.toNat + b.toNat), v := BitVec.saddOverflow a b }) := by
  rw [← addVal_overflow]
  rfl

theorem subVal_eq (a b : BitVec 32) : subVal a b =
    (a - b, { z := a == b, n := (a - b).msb, c := decide (b.toNat ≤ a.toNat), v := BitVec.ssubOverflow a b }) := by
  have hzero : decide (a - b = 0) = (a == b) := by
    rw [Bool.eq_iff_iff, decide_eq_true_iff, beq_iff_eq, BitVec.sub_eq_iff_eq_add, BitVec.ofNat_eq_ofNat, BitVec.zero_add]
  rw [← subVal_overflow, ← hzero]
  rfl

/-- A pointer sum is the address modulo 2^16. -/
theorem daddrSum_eq (t : Int) : daddrSum t =
    (daddrW (BitVec.ofInt 32 (t % 65536)), { z := decide (t % 65536 = 0), n := false, c := false, v := decide (t < 0 ∨ 0xFFFF < t) }) := by
  have hval : (BitVec.ofInt 16 t).zeroExtend 32 = BitVec.ofInt 32 (t % 65536) := by
    rw [← BitVec.toNat_inj, BitVec.toNat_setWidth, BitVec.toNat_ofInt, BitVec.toNat_ofInt]
    omega
  have hnat : (BitVec.ofInt 32 (t % 65536)).toNat = (t % 65536).toNat := by
    rw [BitVec.toNat_ofInt]
    omega
  have hzero : decide (BitVec.ofInt 32 (t % 65536) = 0) = decide (t % 65536 = 0) := by
    rw [decide_eq_decide, ← BitVec.toNat_inj, hnat, show (0 : BitVec 32).toNat = 0 from rfl]
    omega
  have hsign : (BitVec.ofInt 32 (t % 65536)).msb = false := by
    rw [BitVec.msb_eq_false_iff_two_mul_lt, hnat]
    omega
  rw [daddrSum, hval, flagsOf, hzero, hsign]

/-! ### Products and quotients -/

theorem toInt_product (a b : BitVec 32) : (a.signExtend 64 * b.signExtend 64).toInt = a.toInt * b.toInt := by
  have hle := BitVec.toInt_mul_toInt_le (x := a) (y := b)
  have hge := BitVec.le_toInt_mul_toInt (x := a) (y := b)
  rw [BitVec.toInt_mul, BitVec.toInt_signExtend_of_le (by decide), BitVec.toInt_signExtend_of_le (by decide), Int.bmod_def]
  generalize a.toInt * b.toInt = t at hle hge ⊢
  omega

/-- The words of a 64-bit value, from its signed value. -/
theorem extract_toInt (p : BitVec 64) : p.extractLsb' 0 32 = BitVec.ofInt 32 p.toInt ∧ p.extractLsb' 32 32 = BitVec.ofInt 32 (p.toInt / 2 ^ 32) := by
  have hlt := p.isLt
  constructor <;>
    · rw [← BitVec.toNat_inj, BitVec.extractLsb'_toNat, BitVec.toNat_ofInt, Nat.shiftRight_eq_div_pow, BitVec.toInt_eq_toNat_cond]
      split <;> omega

theorem mulVal_eq {p : BitVec 64} (hp : p = a.signExtend 64 * b.signExtend 64) : mulVal a b = (p.extractLsb' 0 32, p.extractLsb' 32 32,
    { z := p.extractLsb' 0 32 == 0, n := p.getLsbD 31, c := false, v := decide (p.toInt < -(2 ^ 31) ∨ 2 ^ 31 ≤ p.toInt) }) := by
  have hsign : (p.extractLsb' 0 32).msb = p.getLsbD 31 := by
    rw [BitVec.msb_eq_getLsbD_last, BitVec.getLsbD_extractLsb']
    simp
  have hover : decide (p.toInt < -(2 ^ 31) ∨ 2 ^ 31 - 1 < p.toInt) = decide (p.toInt < -(2 ^ 31) ∨ 2 ^ 31 ≤ p.toInt) :=
    decide_eq_decide.2 (by omega)
  rw [mulVal, ← toInt_product, ← hp, ← (extract_toInt p).1, ← (extract_toInt p).2, flagsOf, hsign, hover]
  rfl

theorem tdiv_overflow (a b : BitVec 32) : decide (a.toInt.tdiv b.toInt = 2 ^ 31) = (a == 0x80000000 && b == 0xFFFFFFFF) := by
  rw [Bool.eq_iff_iff, decide_eq_true_iff, Bool.and_eq_true, beq_iff_eq, beq_iff_eq]
  constructor
  · intro hquot
    by_cases hmin : a = BitVec.intMin 32 ∧ b = -1#32
    · exact hmin
    · have hvalue := BitVec.toInt_sdiv_of_ne_or_ne a b (not_and_or.1 hmin)
      have hlt := toInt_bounds (a.sdiv b)
      rw [hvalue, hquot] at hlt
      omega
  · rintro ⟨rfl, rfl⟩
    rfl

theorem divVal_eq (a b : BitVec 32) : divVal a b = (a.sdiv b, a.srem b,
    { z := a.sdiv b == 0, n := (a.sdiv b).msb, c := false, v := a == 0x80000000 && b == 0xFFFFFFFF }) := by
  have hquot : BitVec.ofInt 32 (a.toInt.tdiv b.toInt) = a.sdiv b := by
    rw [← BitVec.toInt_inj, BitVec.toInt_ofInt, BitVec.toInt_sdiv]
  have hrem : BitVec.ofInt 32 (a.toInt.tmod b.toInt) = a.srem b := by rw [← BitVec.toInt_srem, BitVec.ofInt_toInt]
  rw [divVal, hquot, hrem, tdiv_overflow]
  rfl

/-! ### Operations on ACC and an operand -/

/-- The core after a load of the word `w` (08 R434, R436). -/
def loaded (w : W36) (k : Core) : Core :=
  if w.tag = tHandle ∨ w.tag = tCaddr then withFlags false false k.c k.v { k with acc := w }
  else withFlags (w.val == 0) w.val.msb k.c k.v { k with acc := w }

theorem applyOp_ld (w : W36) (k : Core) : applyOp .ld w k = some (loaded w k) := by
  by_cases h : w.tag = tHandle ∨ w.tag = tCaddr
  · have hplain : ¬ (w.tag ≠ tHandle ∧ w.tag ≠ tCaddr) := by tauto
    rw [loaded, if_pos h]
    simp only [applyOp, loadAcc, hplain, false_and, decide_false, Bool.false_and]
    rfl
  · have hplain : w.tag ≠ tHandle ∧ w.tag ≠ tCaddr := by tauto
    rw [loaded, if_neg h]
    simp only [applyOp, loadAcc, hplain, true_and, ne_eq, not_false_eq_true, and_self, decide_true, Bool.true_and]
    rfl

theorem applyOp_add_int (ha : k.acc.tag = tInt) (hw : w.tag = tInt) : applyOp .add w k = some (
    withFlags (k.acc.val + w.val == 0) (k.acc.val + w.val).msb (decide (2 ^ 32 ≤ k.acc.val.toNat + w.val.toNat)) (BitVec.saddOverflow k.acc.val w.val)
      { k with acc := intW (k.acc.val + w.val) }) := by
  simp only [applyOp, addW, ha, hw, and_self, ↓reduceIte, addVal_eq, Option.map_some, setFlags_eq]

theorem applyOp_add_ptr {t : Int}
    (h : (k.acc.tag = tDaddr ∧ w.tag = tInt ∧ t = k.acc.val.toNat + w.val.toInt) ∨ (k.acc.tag = tInt ∧ w.tag = tDaddr ∧ t = k.acc.val.toInt + w.val.toNat)) :
    applyOp .add w k = some (withFlags (decide (t % 65536 = 0)) false false (decide (t < 0 ∨ 0xFFFF < t)) { k with acc := daddrW (BitVec.ofInt 32 (t % 65536)) }) := by
  have hne : tDaddr ≠ tInt := by decide
  rcases h with ⟨ha, hw, rfl⟩ | ⟨ha, hw, rfl⟩
  · simp only [applyOp, addW, ha, hw, hne, false_and, and_self, ↓reduceIte, daddrSum_eq, Option.map_some, setFlags_eq]
  · simp only [applyOp, addW, ha, hw, hne, and_false, hne.symm, and_self, ↓reduceIte, daddrSum_eq, Option.map_some, setFlags_eq]

theorem applyOp_sub_int (ha : k.acc.tag = tInt) (hw : w.tag = tInt) : applyOp .sub w k = some (
    withFlags (k.acc.val == w.val) (k.acc.val - w.val).msb (decide (w.val.toNat ≤ k.acc.val.toNat)) (BitVec.ssubOverflow k.acc.val w.val)
      { k with acc := intW (k.acc.val - w.val) }) := by
  simp only [applyOp, subW, ha, hw, and_self, ↓reduceIte, subVal_eq, Option.map_some, setFlags_eq]

theorem applyOp_sub_ptr {t : Int} (ha : k.acc.tag = tDaddr) (hw : w.tag = tInt) (ht : t = k.acc.val.toNat - w.val.toInt) : applyOp .sub w k = some (
    withFlags (decide (t % 65536 = 0)) false false (decide (t < 0 ∨ 0xFFFF < t)) { k with acc := daddrW (BitVec.ofInt 32 (t % 65536)) }) := by
  have hne : tDaddr ≠ tInt := by decide
  subst ht
  simp only [applyOp, subW, ha, hw, hne, false_and, and_self, ↓reduceIte, daddrSum_eq, Option.map_some, setFlags_eq]

theorem applyOp_sub_ptrs (ha : k.acc.tag = tDaddr) (hw : w.tag = tDaddr) : applyOp .sub w k = some (
    withFlags (k.acc.val == w.val) (k.acc.val - w.val).msb (decide (w.val.toNat ≤ k.acc.val.toNat)) false { k with acc := intW (k.acc.val - w.val) }) := by
  have hne : tDaddr ≠ tInt := by decide
  simp only [applyOp, subW, ha, hw, hne, and_false, and_self, ↓reduceIte, subVal_eq, Option.map_some, setFlags_eq]

theorem isNum_iff {w : W36} : isNum w = true ↔ w.tag ∈ [tInt, tBits] := by simp [isNum]

theorem logicW_num {f : BitVec 32 → BitVec 32 → BitVec 32} (ha : k.acc.tag ∈ [tInt, tBits]) (hw : w.tag ∈ [tInt, tBits]) :
    logicW f k.acc w = some { tag := k.acc.tag, val := f k.acc.val w.val } := by
  rw [logicW, if_pos ⟨isNum_iff.2 ha, isNum_iff.2 hw⟩]

/-- The bitwise function of an operation. -/
def logicFn : MOp → Option (BitVec 32 → BitVec 32 → BitVec 32)
  | .and => some (· &&& ·)
  | .or => some (· ||| ·)
  | .xor => some (· ^^^ ·)
  | _ => none

theorem applyOp_logic {op : MOp} {f : BitVec 32 → BitVec 32 → BitVec 32} (hop : logicFn op = some f) (ha : k.acc.tag ∈ [tInt, tBits])
    (hw : w.tag ∈ [tInt, tBits]) : applyOp op w k = some (
      withFlags (f k.acc.val w.val == 0) (f k.acc.val w.val).msb k.c k.v { k with acc := { tag := k.acc.tag, val := f k.acc.val w.val } }) := by
  cases op <;> simp only [logicFn, reduceCtorEq, Option.some.injEq] at hop <;> subst hop <;> simp only [applyOp, logicW_num ha hw] <;> rfl

theorem applyOp_cmp_num (ha : k.acc.tag ∈ [tInt, tBits]) (hw : w.tag ∈ [tInt, tBits]) : applyOp .cmp w k = some (
    withFlags (k.acc.val == w.val) (k.acc.val - w.val).msb (decide (w.val.toNat ≤ k.acc.val.toNat)) (BitVec.ssubOverflow k.acc.val w.val) k) := by
  simp only [applyOp, cmpW, isNum_iff.2 ha, isNum_iff.2 hw, and_self, ↓reduceIte, subVal_eq, Option.map_some, setFlags_eq]

theorem isNum_false {w : W36} (h : w.tag ∈ [tDaddr, tHandle, tCaddr]) : isNum w = false := by
  simp only [List.mem_cons, List.not_mem_nil, or_false] at h
  rcases h with h | h | h <;> simp only [isNum, h] <;> rfl

theorem applyOp_cmp_ptrs (ha : k.acc.tag = tDaddr) (hw : w.tag = tDaddr) : applyOp .cmp w k = some (
    withFlags (k.acc.val == w.val) (k.acc.val - w.val).msb (decide (w.val.toNat ≤ k.acc.val.toNat)) false k) := by
  simp only [applyOp, cmpW, isNum_false (w := k.acc) (by simp [ha]), ha, hw, Bool.false_eq_true, false_and, and_self, ↓reduceIte, subVal_eq,
    Option.map_some, setFlags_eq]

theorem applyOp_cmp_same (hw : k.acc.tag = w.tag) (ha : k.acc.tag ∈ [tHandle, tCaddr]) : applyOp .cmp w k = some (
    withFlags (k.acc.val == w.val) false false false k) := by
  have hnum : isNum k.acc = false := isNum_false (List.mem_cons_of_mem _ ha)
  have hptr : k.acc.tag ≠ tDaddr := by intro h; rw [h] at ha; revert ha; decide
  have hsame : (k.acc.tag = tHandle ∧ w.tag = tHandle) ∨ (k.acc.tag = tCaddr ∧ w.tag = tCaddr) := by
    simpa [← hw] using ha
  simp only [applyOp, cmpW, hnum, hptr, hsame, Bool.false_eq_true, false_and, ↓reduceIte, Option.map_some, setFlags_eq]
  rfl

theorem applyOp_mul {p : BitVec 64} (hw : w.tag = tInt) (hp : p = k.acc.val.signExtend 64 * w.val.signExtend 64) : applyOp .mul w k = some (
    withFlags (p.extractLsb' 0 32 == 0) (p.getLsbD 31) false (decide (p.toInt < -(2 ^ 31) ∨ 2 ^ 31 ≤ p.toInt))
      { k with acc := intW (p.extractLsb' 0 32), y := intW (p.extractLsb' 32 32) }) := by
  simp only [applyOp, hw, ↓reduceIte, mulVal_eq hp, setFlags_eq]

theorem applyOp_div (hw : w.tag = tInt) : applyOp .div w k = some (
    withFlags (k.acc.val.sdiv w.val == 0) (k.acc.val.sdiv w.val).msb false (k.acc.val == 0x80000000 && w.val == 0xFFFFFFFF)
      { k with acc := intW (k.acc.val.sdiv w.val), y := intW (k.acc.val.srem w.val) }) := by
  simp only [applyOp, hw, ↓reduceIte, divVal_eq, setFlags_eq]

end Sys2Proof.Machine
end

section
/-! SUPPORT. The Serge instructions: the outcome of an instruction from that of its one iteration; reads, stores and jumps of an iteration
(08 R425-R427, R431-R434, R438, R454). -/

namespace Sys2Proof.Machine

set_option Elab.async false

variable {s t u : State} {x : SCtx} {i : Instr} {op : SOp} {o : MOp} {m : SMode} {f : BitVec 5} {w : W36} {j : TrapInfo}

/-- A command that is a Serge instruction executes it. -/
theorem exec_serge (hi : sergeOp i = some (x, op)) (s : State) : exec i s = done (instr x op s) := by
  cases i <;> simp only [sergeOp, reduceCtorEq, Option.some.injEq, Prod.mk.injEq] at hi
  all_goals
    obtain ⟨rfl, rfl⟩ := hi
    rfl

theorem ne_iret_of_controlOf (hc : controlOf op = none) : op ≠ .group .iret := by
  rintro rfl
  cases hc

/-- The one iteration of an instruction traps. -/
theorem exec_serge_bad (hi : sergeOp i = some (x, op)) (h : SergeReady s x op) (hc : controlOf op = none)
    (hr : regCheck (coreGet s x.core) false op = none) {stall : Bool} (ho : iter x op s = .bad j stall) :
    exec i s = .next (busTrap s x.core j stall (coreGet s x.core).pc.toNat) := by
  rw [exec_serge hi, instr_ready h (fun hiret => absurd hiret (ne_iret_of_controlOf hc)) hr, hc]
  simp only [ho, done]

/-- The one iteration of an instruction completes. -/
theorem exec_serge_ok (hi : sergeOp i = some (x, op)) (h : SergeReady s x op) (hc : controlOf op = none)
    (hr : regCheck (coreGet s x.core) false op = none) {jump : Option Nat} (ho : iter x op s = .ok t jump) :
    exec i s = .next (finish t x.core (jump.getD (sergeNext s x op)) false) := by
  rw [exec_serge hi, instr_ready h (fun hiret => absurd hiret (ne_iret_of_controlOf hc)) hr, hc]
  simp only [ho, done]

theorem sergeEnd_id (s : State) (x : SCtx) (pc : Nat) : sergeEnd s x pc id = finish s x.core pc false := by rw [sergeEnd, coreUpd_id]

/-- The iteration of an operation with an operand, at the address of the instruction word. -/
theorem iter_mem (x : SCtx) (o : MOp) (m : SMode) (f : BitVec 5) (s : State) : iter x (.mem o m f) s =
    memIter x.core x.exts o m f ((coreGet s x.core).pc.toNat + (seqWords x (.mem o m f)).length - 1) s := rfl

/-! ### Registers read -/

section
variable {k : Core}

theorem regCheck_unread (hneeds : [0, 1, 2, 3].map (regNeeds false op) = [0, 1, 2, 3].map fun _ => []) : regCheck k false op = none :=
  regCheck_one fun r hr tags htags => by
    rw [List.map_inj_left.1 hneeds r hr] at htags
    cases htags

/-- An operation that reads one register. -/
theorem regCheck_reads {r₀ : Nat} {tags : List (BitVec 4)}
    (hneeds : [0, 1, 2, 3].map (regNeeds false op) = [0, 1, 2, 3].map fun r => if r = r₀ then [tags] else [])
    (hvoid : tVoid ∉ tags) (h : (regOf k r₀).tag ∈ tags) : regCheck k false op = none :=
  regCheck_one fun r hr tags' htags => by
    rw [List.map_inj_left.1 hneeds r hr] at htags
    split at htags
    · next heq =>
      subst heq
      rw [List.mem_singleton.1 htags]
      exact ⟨fun hv => hvoid (hv ▸ h), h⟩
    · cases htags

theorem void_not_num : tVoid ∉ [tInt, tBits] := by decide

end

/-! ### Reads -/

theorem readCheck_void {a : Nat} (h : w.tag = 0) : readCheck a w = some (trVoid, atData a) := if_pos h

theorem readCheck_reserved {a : Nat} (h : 6 ≤ w.tag.toNat) : readCheck a w = some (trTag, atData a) := by
  have hvoid : w.tag ≠ tVoid := by rintro hv; rw [hv] at h; revert h; decide
  have hany : w.tag ∉ anyTag := by
    intro hmem
    simp only [anyTag, List.mem_cons, List.not_mem_nil, or_false] at hmem
    rcases hmem with hv | hv | hv | hv | hv <;> rw [hv] at h <;> revert h <;> decide
  rw [readCheck, if_neg hvoid, if_neg (by simpa using hany)]

/-- The operation reads the word at its operand's address. -/
def Reads (o : MOp) (m : SMode) : Prop := o ≠ .st ∧ m ≠ .imm ∧ ¬ (o = .ldx ∧ m = .x) ∧ ¬ (o = .ldy ∧ m = .y)

theorem memIter_read_bad (h : Reads o m) {stall : Bool} (hread : busRead s x.core (eaOf (coreGet s x.core) x.exts m f) = .bad j stall) {a : Nat} :
    memIter x.core x.exts o m f a s = .bad j stall := by
  obtain ⟨hst, himm, hx, hy⟩ := h
  unfold memIter
  cases o <;> cases m <;> simp_all

theorem memIter_read_check (h : Reads o m) (hread : busRead s x.core (eaOf (coreGet s x.core) x.exts m f) = .ok w u)
    (hcheck : readCheck (eaOf (coreGet s x.core) x.exts m f) w = some j) {a : Nat} : memIter x.core x.exts o m f a s = .bad j false := by
  obtain ⟨hst, himm, hx, hy⟩ := h
  unfold memIter
  cases o <;> cases m <;> simp_all

theorem busRead_ecc {c : CoreId} {a : Nat} (ha : a < 0x8000) (hbad : a ∈ (coreGet s c).badData) : busRead s c a = .bad (trEcc, atData a) false := by
  rw [busRead, if_pos ha, if_pos (by simpa using hbad)]

/-! ### Stores -/

theorem memIter_st_bad {a : Nat} {stall : Bool}
    (hwrite : busWrite s x.core (eaOf (coreGet s x.core) x.exts m f) (coreGet s x.core).acc = .bad j stall) :
    memIter x.core x.exts .st m f a s = .bad j stall := by
  unfold memIter
  cases m <;> simp_all

theorem memIter_st_ok {a : Nat}
    (hwrite : busWrite s x.core (eaOf (coreGet s x.core) x.exts m f) (coreGet s x.core).acc = .ok w t) :
    memIter x.core x.exts .st m f a s = .ok t none := by
  unfold memIter
  cases m <;> simp_all

theorem busWrite_ram (s : State) (c : CoreId) {a : Nat} (ha : a < 0x8000) (w : W36) : busWrite s c a w = .ok w (ramPut s c a w) := if_pos ha

/-- The paged HBM window takes neither HANDLE nor CADDR (08 R427). -/
theorem busWrite_paged {c : CoreId} {a : Nat} (hw : w.tag = tHandle ∨ w.tag = tCaddr) (hc : c ≠ .g) (ha : 0xC000 ≤ a) :
    busWrite s c a w = .bad (trTag, atData a) false := by
  rw [busWrite, if_neg (by omega), if_neg (by omega), if_neg hc, if_pos hw]

/-! ### XMOV -/

theorem xmovIter_read_check {a : Nat} (ha : a = wrapAddr (coreGet s x.core).x.val (offsetOf x.exts f)) (hread : busRead s x.core a = .ok w u)
    (hcheck : readCheck a w = some j) : xmovIter x.core x.exts f s = .bad j false := by
  subst ha
  simp only [xmovIter, hread, hcheck]

theorem xmovIter_write_bad {a : Nat} (ha : a = wrapAddr (coreGet s x.core).x.val (offsetOf x.exts f)) (hread : busRead s x.core a = .ok w u)
    (hw : w.tag ∈ anyTag) {stall : Bool} (hwrite : busWrite u x.core ((coreGet s x.core).y.val.toNat % 65536) w = .bad j stall) :
    xmovIter x.core x.exts f s = .bad j stall := by
  subst ha
  simp only [xmovIter, hread, readCheck_any hw, hwrite]

theorem xmovIter_ok {a : Nat} {w' : W36} (ha : a = wrapAddr (coreGet s x.core).x.val (offsetOf x.exts f)) (hread : busRead s x.core a = .ok w u)
    (hw : w.tag ∈ anyTag) (hwrite : busWrite u x.core ((coreGet s x.core).y.val.toNat % 65536) w = .ok w' t) :
    xmovIter x.core x.exts f s = .ok (coreUpd t x.core fun k => { k with x := movePtr k.x 1, y := movePtr k.y 1 }) none := by
  subst ha
  simp only [xmovIter, hread, readCheck_any hw, hwrite]

theorem regCheck_xmov {k : Core} (hx : k.x.tag = tDaddr) (hy : k.y.tag = tDaddr) : regCheck k false (.xmov f) = none := by
  have hneeds : [0, 1, 2, 3].map (regNeeds false (.xmov f)) = [0, 1, 2, 3].map fun r => if r = 1 ∨ r = 2 then [[tDaddr]] else [] := rfl
  refine regCheck_one fun r hr tags htags => ?_
  rw [List.map_inj_left.1 hneeds r hr] at htags
  split at htags
  · next hindex =>
    rw [List.mem_singleton.1 htags, List.mem_singleton]
    have htag : (regOf k r).tag = tDaddr := by
      rcases hindex with rfl | rfl
      · exact hx
      · exact hy
    exact ⟨by rw [htag]; decide, htag⟩
  · cases htags

/-! ### Pointers -/

theorem wrapAddr_eq (v : BitVec 32) (o : Int) : wrapAddr v o = ((v.toNat + o) % 65536).toNat := by
  rw [wrapAddr, BitVec.toNat_ofInt]
  rfl

theorem movePtr_daddr {p : W36} {o : Int} (h : p.tag = tDaddr) : movePtr p o = daddrW (BitVec.ofInt 32 ((p.val.toNat + o) % 65536)) := by
  rw [movePtr, if_pos h, wrapAddr_eq, ← BitVec.ofInt_natCast, Int.toNat_of_nonneg (by omega)]

theorem movePtr_int {p : W36} {o : Int} (h : p.tag = tInt) : movePtr p o = intW (p.val + BitVec.ofInt 32 o) := by
  rw [movePtr, if_neg (by rw [h]; decide)]

/-! ### Jumps -/

/-- Mode 01 finds a DADDR in X, mode 10 in Y. -/
theorem Operand.indexX (h : Operand s x m f w u) (hm : m = .x) : (coreGet s x.core).x.tag = tDaddr := by
  obtain ⟨-, -, hx, -⟩ := h
  exact hx hm

theorem Operand.indexY (h : Operand s x m f w u) (hm : m = .y) : (coreGet s x.core).y.tag = tDaddr := by
  obtain ⟨-, -, -, hy⟩ := h
  exact hy hm

theorem jumpTo_out {c : CoreId} {link : Bool} {next : Nat} {p : Int} (hp : p < 0 ∨ (progEnd c : Int) ≤ p) :
    jumpTo c link next p s = .bad (trBus, intW (BitVec.ofInt 32 (0x20000 + p))) false := if_pos hp

theorem jumpTo_in {c : CoreId} {link : Bool} {next p : Nat} (hp : p < progEnd c) :
    jumpTo c link next p s = .ok (s.when link fun s => coreUpd s c fun k => { k with lr := caddrW (BitVec.ofNat 14 next) }) (some p) := by
  rw [jumpTo, if_neg (by omega), Int.toNat_natCast]

/-- The target of a jump (08 R434): an immediate is relative to the instruction word, any other operand the address itself. -/
def jumpTarget (x : SCtx) (m : SMode) (f : BitVec 5) (w : W36) (a : Nat) : Int := if m = .imm then a + immOf x.exts f else w.val.toNat

theorem memIter_jump (h : Operand s x m f w u) (hop : o = .jmp ∨ o = .call) (hw : m ≠ .imm → w.tag = tCaddr) (a : Nat) :
    memIter x.core x.exts o m f a s = jumpTo x.core (o == .call) (a + 1) (jumpTarget x m f w a) u := by
  by_cases himm : m = .imm
  · obtain ⟨-, rfl⟩ := h.1 himm
    subst himm
    rcases hop with rfl | rfl <;> rfl
  · have hplain : ∀ q, q = .ldx ∨ q = .ldy → o ≠ q := by rcases hop with rfl | rfl <;> simp
    rw [memIter_operand h a (by rcases hop with rfl | rfl <;> simp) (fun ho => absurd ho (hplain _ (.inl rfl)))
      (fun ho => absurd ho (hplain _ (.inr rfl))) (fun _ => himm), jumpTarget, if_neg himm]
    rcases hop with rfl | rfl <;> exact if_pos (hw himm)

theorem seqWords_length_pos (x : SCtx) (op : SOp) : 0 < (seqWords x op).length := by
  rw [seqWords, List.length_append]
  exact Nat.lt_add_left _ Nat.one_pos

/-- The address of the instruction word. -/
theorem sergeNext_pred (s : State) (x : SCtx) (op : SOp) :
    (coreGet s x.core).pc.toNat + (seqWords x op).length - 1 + 1 = sergeNext s x op := by
  have hpos := seqWords_length_pos x op
  rw [sergeNext]
  omega

theorem regCheck_jump {k : Core} (hop : o = .jmp ∨ o = .call) (hx : m = .x → k.x.tag = tDaddr) (hy : m = .y → k.y.tag = tDaddr) :
    regCheck k false (.mem o m f) = none := by
  refine regCheck_mem (fun tags htags => ?_) hx hy
  rcases hop with rfl | rfl <;> cases htags

theorem iter_jump (h : Operand s x m f w u) (hop : o = .jmp ∨ o = .call) (hw : m ≠ .imm → w.tag = tCaddr) {p : Int}
    (hp : p = if m = .imm then (sergeNext s x (.mem o m f) : Int) - 1 + immOf x.exts f else w.val.toNat) :
    iter x (.mem o m f) s = jumpTo x.core (o == .call) (sergeNext s x (.mem o m f)) p u := by
  have hnext := sergeNext_pred s x (.mem o m f)
  have htarget : jumpTarget x m f w ((coreGet s x.core).pc.toNat + (seqWords x (.mem o m f)).length - 1) = p := by
    rw [jumpTarget, hp, ← hnext]
    split <;> omega
  rw [iter_mem, memIter_jump h hop hw, hnext, htarget]

/-! ### Operations on ACC and an operand -/

/-- The operation takes the operand's word: no store, no jump, no pointer form. -/
def Takes (o : MOp) (m : SMode) : Prop :=
  o ≠ .st ∧ (o = .ldx → m ≠ .x ∧ m ≠ .imm) ∧ (o = .ldy → m ≠ .y ∧ m ≠ .imm) ∧ o ≠ .jmp ∧ o ≠ .call

theorem Takes.of_plain (h : o ∉ [MOp.st, .ldx, .ldy, .jmp, .call]) : Takes o m := by
  simp only [List.mem_cons, List.not_mem_nil, or_false, not_or] at h
  obtain ⟨hst, hldx, hldy, hjmp, hcall⟩ := h
  exact ⟨hst, fun ho => absurd ho hldx, fun ho => absurd ho hldy, hjmp, hcall⟩

theorem operandPlace_mem (h : m ≠ .imm) : operandPlace s x m f = atData (eaOf (coreGet s x.core) x.exts m f) := if_neg h

theorem exec_operand (hi : sergeOp i = some (x, .mem o m f)) (h : SergeReady s x (.mem o m f)) (hw : Operand s x m f w u) (ho : Takes o m)
    (ha : ∀ tags ∈ accTags o, (coreGet s x.core).acc.tag ∈ tags) (hdiv : ¬ (o = .div ∧ w.val = 0)) {g : Core → Core}
    (hg : applyOp o w (coreGet s x.core) = some (g (coreGet s x.core))) : exec i s = .next (sergeEnd u x (sergeNext s x (.mem o m f)) g) := by
  obtain ⟨hst, hldx, hldy, hjmp, hcall⟩ := ho
  rw [exec_serge hi]
  exact instr_operand g h hw hst hldx hldy hjmp hcall hdiv ha (by rw [hw.core]; exact hg)

theorem exec_badOperand (hi : sergeOp i = some (x, .mem o m f)) (h : SergeReady s x (.mem o m f)) (hw : Operand s x m f w u) (ho : Takes o m)
    (ha : ∀ tags ∈ accTags o, (coreGet s x.core).acc.tag ∈ tags) (hg : applyOp o w (coreGet s x.core) = none) :
    exec i s = .next (trap s x.core (trTag, operandPlace s x m f) (coreGet s x.core).pc.toNat) := by
  obtain ⟨hst, hldx, hldy, hjmp, hcall⟩ := ho
  rw [exec_serge hi]
  exact instr_badOperand h hw hst hldx hldy hjmp hcall ha (by rw [hw.core]; exact hg)

/-- An update of the registers that leaves nothing else of a state to a later one. -/
theorem acc_sergeEnd (s : State) (x : SCtx) (pc : Nat) (f : Core → Core) :
    (coreGet (sergeEnd s x pc f) x.core).acc = (f (coreGet s x.core)).acc := by
  rw [sergeEnd, finish, State.when]
  split
  · rw [coreGet_coreUpd_self, coreGet_coreUpd_self]
    rfl
  · rw [coreGet_coreUpd_self]

/-! ### The tag table -/

section
variable {k : Core} {r q : BitVec 4}

theorem fst_mem_accTags (o : MOp) : ∀ e ∈ tagTable o, ∀ tags ∈ accTags o, e.1 ∈ tags := by
  cases o <;> simp [tagTable, accTags]

/-- A tag that the table lists for ACC is one that the operation allows there. -/
theorem accTags_of_tagTable (h : (k.acc.tag, q, r) ∈ tagTable o) : ∀ tags ∈ accTags o, k.acc.tag ∈ tags := fst_mem_accTags o _ h

theorem applyOp_tag (h : (k.acc.tag, w.tag, r) ∈ tagTable o) : ∃ k', applyOp o w k = some k' ∧ k'.acc.tag = r := by
  have hptr : tDaddr ≠ tInt := by decide
  have hlogic {g : BitVec 32 → BitVec 32 → BitVec 32} (ho : logicFn o = some g) (ht : (k.acc.tag, w.tag, r) ∈ tagTable .and) :
      ∃ k', applyOp o w k = some k' ∧ k'.acc.tag = r := by
    simp only [tagTable, List.mem_cons, Prod.mk.injEq, List.not_mem_nil, or_false] at ht
    rcases ht with ⟨ha, hw, rfl⟩ | ⟨ha, hw, rfl⟩ | ⟨ha, hw, rfl⟩ | ⟨ha, hw, rfl⟩ <;>
      exact ⟨_, applyOp_logic ho (by rw [ha]; decide) (by rw [hw]; decide), ha⟩
  cases o with
  | and => exact hlogic rfl h
  | or => exact hlogic rfl h
  | xor => exact hlogic rfl h
  | add =>
    simp only [tagTable, List.mem_cons, Prod.mk.injEq, List.not_mem_nil, or_false] at h
    rcases h with ⟨ha, hw, rfl⟩ | ⟨ha, hw, rfl⟩ | ⟨ha, hw, rfl⟩
    · exact ⟨_, applyOp_add_int ha hw, rfl⟩
    · exact ⟨_, applyOp_add_ptr (.inl ⟨ha, hw, rfl⟩), rfl⟩
    · exact ⟨_, applyOp_add_ptr (.inr ⟨ha, hw, rfl⟩), rfl⟩
  | sub =>
    simp only [tagTable, List.mem_cons, Prod.mk.injEq, List.not_mem_nil, or_false] at h
    rcases h with ⟨ha, hw, rfl⟩ | ⟨ha, hw, rfl⟩ | ⟨ha, hw, rfl⟩
    · exact ⟨_, applyOp_sub_int ha hw, rfl⟩
    · exact ⟨_, applyOp_sub_ptr ha hw rfl, rfl⟩
    · exact ⟨_, applyOp_sub_ptrs ha hw, rfl⟩
  | mul =>
    simp only [tagTable, List.mem_cons, Prod.mk.injEq, List.not_mem_nil, or_false] at h
    obtain ⟨-, hw, rfl⟩ := h
    exact ⟨_, applyOp_mul hw rfl, rfl⟩
  | div =>
    simp only [tagTable, List.mem_cons, Prod.mk.injEq, List.not_mem_nil, or_false] at h
    obtain ⟨-, hw, rfl⟩ := h
    exact ⟨_, applyOp_div hw, rfl⟩
  | _ => cases h

/-- The operations of the tag table. -/
def tabled : List MOp := [.add, .sub, .and, .or, .xor, .mul, .div]

theorem Takes.of_tabled (h : o ∈ tabled) (m : SMode) : Takes o m := .of_plain (by
  revert h
  cases o <;> decide)

theorem addW_untabled {a b : W36} (h : ∀ r, (a.tag, b.tag, r) ∉ tagTable .add) : addW a b = none := by
  rw [addW, if_neg, if_neg, if_neg]
  · exact fun ⟨ha, hb⟩ => h tDaddr (by rw [ha, hb]; decide)
  · exact fun ⟨ha, hb⟩ => h tDaddr (by rw [ha, hb]; decide)
  · exact fun ⟨ha, hb⟩ => h tInt (by rw [ha, hb]; decide)

theorem addW_refused {a b : W36} (h : b.tag ∉ [tInt, tDaddr] ∨ (a.tag = tDaddr ∧ b.tag = tDaddr)) : addW a b = none := by
  have hne : tDaddr ≠ tInt := by decide
  refine addW_untabled fun r hr => ?_
  simp only [tagTable, List.mem_cons, Prod.mk.injEq, List.not_mem_nil, or_false] at hr
  rcases hr with ⟨ha, hb, -⟩ | ⟨ha, hb, -⟩ | ⟨ha, hb, -⟩ <;> simp [ha, hb, hne, hne.symm] at h

theorem subW_untabled {a b : W36} (h : ∀ r, (a.tag, b.tag, r) ∉ tagTable .sub) : subW a b = none := by
  rw [subW, if_neg, if_neg, if_neg]
  · exact fun ⟨ha, hb⟩ => h tInt (by rw [ha, hb]; decide)
  · exact fun ⟨ha, hb⟩ => h tDaddr (by rw [ha, hb]; decide)
  · exact fun ⟨ha, hb⟩ => h tInt (by rw [ha, hb]; decide)

theorem logicW_untabled {a b : W36} {g : BitVec 32 → BitVec 32 → BitVec 32} (h : ∀ r, (a.tag, b.tag, r) ∉ tagTable .and) : logicW g a b = none := by
  have hnum : ¬ (isNum a = true ∧ isNum b = true) := by
    simp only [isNum_iff, List.mem_cons, List.not_mem_nil, or_false]
    rintro ⟨ha | ha, hb | hb⟩ <;> exact h a.tag (by rw [ha, hb]; decide)
  exact if_neg hnum

theorem applyOp_untabled (ho : o ∈ tabled) (hlisted : (k.acc.tag, q, r) ∈ tagTable o) (hunlisted : ∀ r, (k.acc.tag, w.tag, r) ∉ tagTable o) :
    applyOp o w k = none := by
  have hfactor (htags : [tInt] ∈ accTags o) (hrow : (tInt, tInt, tInt) ∈ tagTable o) : w.tag ≠ tInt := fun hw =>
    hunlisted tInt (by rw [List.mem_singleton.1 (accTags_of_tagTable hlisted [tInt] htags), hw]; exact hrow)
  simp only [tabled, List.mem_cons, List.not_mem_nil, or_false] at ho
  rcases ho with rfl | rfl | rfl | rfl | rfl | rfl | rfl
  · rw [applyOp, addW_untabled hunlisted]; rfl
  · rw [applyOp, subW_untabled hunlisted]; rfl
  · exact congrArg (Option.map _) (logicW_untabled hunlisted)
  · exact congrArg (Option.map _) (logicW_untabled hunlisted)
  · exact congrArg (Option.map _) (logicW_untabled hunlisted)
  · rw [applyOp, if_neg (hfactor (by decide) (by decide))]
  · rw [applyOp, if_neg (hfactor (by decide) (by decide))]

end

end Sys2Proof.Machine
end

section
/-! SUPPORT. What a trap outside state TRAP leaves of its core: LR and the saved PC (08 R455-R457). -/

namespace Sys2Proof.Machine

set_option Elab.async false

variable {s : State} {c : CoreId}

theorem lr_haltCore (s : State) (c : CoreId) : (coreGet (haltCore s c) c).lr = (coreGet s c).lr := by
  by_cases h : (coreGet s c).halted = true
  · rw [haltCore, if_pos h]
  · rw [coreGet_haltCore (Bool.not_eq_true _ ▸ h)]
    rfl

theorem core_romHandler (s : State) (c : CoreId) : (romHandler s c).core = (haltCore s c).core := by
  rw [romHandler]
  split
  · rfl
  · have hpost : (observe s (coreUnit c) .failed 3 0x08).core = s.core := keeps_observe s _ _ _ _ .core (by simp)
    by_cases h : (coreGet s c).halted = true
    · rw [haltCore, if_pos (by rw [coreGet_congr hpost]; exact h), haltCore, if_pos h, hpost]
    · rw [Bool.not_eq_true] at h
      rw [haltCore_core (by rw [coreGet_congr hpost]; exact h), haltCore_core h, coreUpd_core_congr hpost]

theorem lr_romHandler (s : State) (c : CoreId) : (coreGet (romHandler s c) c).lr = (coreGet s c).lr := by
  rw [coreGet_congr (core_romHandler s c), lr_haltCore]

theorem ramGet_romHandler (s : State) (c d : CoreId) (a : Nat) : ramGet (romHandler s c) d a = ramGet s d a := by
  rw [ramGet_congr (core_romHandler s c), ramGet_haltCore]

/-- REPC takes the iterations that a repeat still owes (08 R453). -/
def owing (k : Core) : Core := match k.rep with | some r => { k with repc := r.left } | none => k

theorem owing_none {k : Core} (h : k.rep = none) : owing k = k := by rw [owing, h]

/-- Entry to the handler of a trap: boot ROM's handlers end at once (09 R512). -/
def trapEntered (s : State) (c : CoreId) (i : TrapInfo) (resume : Nat) : State :=
  if (coreGet s c).pc.toNat < 0x800 then romHandler (enter s c false i.1 i.2 resume 0 (4 * i.1)) c
  else enter s c false i.1 i.2 resume 0x800 (4 * i.1)

/-- A trap outside state TRAP of a core that repeats nothing. -/
theorem trap_enters {i : TrapInfo} {resume : Nat} (hst : (coreGet s c).st ≠ .trap) (hrep : (coreGet s c).rep = none) :
    trap s c i resume = trapEntered s c i resume := by
  have howing : coreUpd s c owing = s := (coreUpd_congr (g := id) (owing_none hrep)).trans (coreUpd_id s c)
  have henters : trap s c i resume = if (coreGet s c).pc.toNat < 0x800 then romHandler (enter (coreUpd s c owing) c false i.1 i.2 resume 0 (4 * i.1)) c
      else enter (coreUpd s c owing) c false i.1 i.2 resume 0x800 (4 * i.1) := if_neg hst
  rw [henters, howing, trapEntered]

theorem lr_trapEntered (s : State) (c : CoreId) (i : TrapInfo) (resume : Nat) : (coreGet (trapEntered s c i resume) c).lr = (coreGet s c).lr := by
  rw [trapEntered]
  split
  · rw [lr_romHandler, coreGet_enter]
    rfl
  · rw [coreGet_enter]
    rfl

/-- The first word of the frame is the address to go back to. -/
theorem resume_trapEntered (hram : RamWf s c) (i : TrapInfo) (resume : Nat) :
    ramGet (trapEntered s c i resume) c 0x7FE8 = caddrW (BitVec.ofNat 14 resume) := by
  have hframe (base : Nat) := ramGet_enter_frame false i.1 i.2 resume base (4 * i.1) hram (i := 0) (by decide)
  rw [trapEntered]
  split
  · rw [ramGet_romHandler]
    exact hframe 0
  · exact hframe 0x800

end Sys2Proof.Machine
end

section
/-! OBLIGATIONS. Operands and their tags, jumps out of program memory: O55, O56 and O60. -/

namespace Sys2Proof.Machine

set_option Elab.async false

/-- Settles O55: the read or the write is the iteration's first act, and what it refuses is the instruction's trap. -/
theorem readsAndStoresCheckTags : Obligations.ReadsAndStoresCheckTags := by
  unfold Obligations.ReadsAndStoresCheckTags
  refine ⟨fun i s x op m f w u hi hready hregs hst himm hx hy => ?reads, fun s x f w u hready hregs => ?xmov, fun s x m f hready hregs himm => ?st⟩
  case reads =>
    intro ea hread
    have htrap {j : TrapInfo} (hcheck : readCheck ea w = some j) : exec i s = .next (trap s x.core j (coreGet s x.core).pc.toNat) :=
      exec_serge_bad hi hready rfl hregs (memIter_read_check ⟨hst, himm, hx, hy⟩ hread hcheck)
    exact ⟨fun hvoid => htrap (readCheck_void hvoid), fun hreserved => htrap (readCheck_reserved hreserved)⟩
  case xmov =>
    intro a b hread
    have htrap {j : TrapInfo} (hcheck : readCheck a w = some j) : exec (.xmov x f) s = .next (trap s x.core j (coreGet s x.core).pc.toNat) :=
      exec_serge_bad rfl hready rfl hregs (xmovIter_read_check rfl hread hcheck)
    refine ⟨fun hvoid => htrap (readCheck_void hvoid), fun hreserved => htrap (readCheck_reserved hreserved), fun htag hc hpaged => ?_⟩
    have hany : w.tag ∈ anyTag := by rcases htag with h | h <;> rw [h] <;> decide
    exact exec_serge_bad rfl hready rfl hregs (xmovIter_write_bad rfl hread hany (busWrite_paged htag hc hpaged))
  case st =>
    intro ea htag hc hpaged
    exact exec_serge_bad rfl hready rfl hregs ((iter_mem x .st m f s).trans (memIter_st_bad (busWrite_paged htag hc hpaged)))

/-- Settles O56: the iteration of a jump finds the target outside program memory before it changes anything, and entry leaves LR. -/
theorem jumpsOutsideProgramMemoryTrap : Obligations.JumpsOutsideProgramMemoryTrap := by
  unfold Obligations.JumpsOutsideProgramMemoryTrap
  intro i s x op m f w u t hi hop hready hoperand hcaddr htarget hout
  have hexec : exec i s = .next (trap s x.core (trBus, intW (BitVec.ofInt 32 (0x20000 + t))) (coreGet s x.core).pc.toNat) :=
    exec_serge_bad hi hready rfl (regCheck_jump hop hoperand.indexX hoperand.indexY)
      ((iter_jump hoperand hop hcaddr htarget).trans (jumpTo_out hout))
  refine ⟨hexec, fun hst hram v hv => ?_⟩
  obtain ⟨-, -, hrep, -⟩ := hready
  rw [hexec, trap_enters hst hrep] at hv
  cases hv
  exact ⟨lr_trapEntered s _ _ _, resume_trapEntered hram _ _⟩

/-- Settles O60: for a row of the tag table the operation has a result of the row's tag, and for an operand tag without a row it has none. -/
theorem operandTagsFollowTheTable : Obligations.OperandTagsFollowTheTable := by
  unfold Obligations.OperandTagsFollowTheTable
  intro i s x op m f w u hi hop hready hoperand hon
  have htakes := Takes.of_tabled hop m
  refine ⟨fun r hrow hdiv => ?_, fun ⟨r, q, hlisted⟩ hunlisted => ?_⟩
  · obtain ⟨k, hresult, htag⟩ := applyOp_tag hrow
    refine ⟨_, exec_operand (g := fun _ => k) hi hready hoperand htakes (accTags_of_tagTable hrow) (fun h => hdiv h.1 h.2) hresult, ?_⟩
    rw [acc_sergeEnd]
    exact htag
  · exact exec_badOperand hi hready hoperand htakes (accTags_of_tagTable hlisted) (applyOp_untabled hop hlisted hunlisted)

end Sys2Proof.Machine
end

section
/-! SUPPORT. The pointer forms of LDX and LDY, and the ends of stores and jumps (08 R433, R434). -/

namespace Sys2Proof.Machine

set_option Elab.async false

variable {s t u : State} {x : SCtx} {i : Instr} {o : MOp} {m : SMode} {f : BitVec 5} {w : W36}

/-- LDX and LDY in the mode of their own register take an INT there as well. -/
theorem regCheck_ldx {k : Core} (h : k.x.tag ∈ [tInt, tDaddr]) : regCheck k false (.mem .ldx .x f) = none :=
  regCheck_reads (r₀ := 1) rfl (by decide) h

theorem regCheck_ldy {k : Core} (h : k.y.tag ∈ [tInt, tDaddr]) : regCheck k false (.mem .ldy .y f) = none :=
  regCheck_reads (r₀ := 2) rfl (by decide) h

theorem exec_ldx_self {g : Core → Core} (h : SergeReady s x (.mem .ldx .x f)) (htag : (coreGet s x.core).x.tag ∈ [tInt, tDaddr])
    (hg : { coreGet s x.core with x := movePtr (coreGet s x.core).x (immOf x.exts f) } = g (coreGet s x.core)) :
    exec (.ldx x .x f) s = .next (sergeEnd s x (sergeNext s x (.mem .ldx .x f)) g) :=
  instr_reg (fun k => { k with x := movePtr k.x (immOf x.exts f) }) h rfl nofun (regCheck_ldx htag) rfl hg

theorem exec_ldy_self {g : Core → Core} (h : SergeReady s x (.mem .ldy .y f)) (htag : (coreGet s x.core).y.tag ∈ [tInt, tDaddr])
    (hg : { coreGet s x.core with y := movePtr (coreGet s x.core).y (immOf x.exts f) } = g (coreGet s x.core)) :
    exec (.ldy x .y f) s = .next (sergeEnd s x (sergeNext s x (.mem .ldy .y f)) g) :=
  instr_reg (fun k => { k with y := movePtr k.y (immOf x.exts f) }) h rfl nofun (regCheck_ldy htag) rfl hg

theorem ptrImm_some {n : Int} (hlow : 0 ≤ n) (hhigh : n ≤ 0xFFFF) : ptrImm n = some (daddrW (BitVec.ofInt 32 n)) := if_pos ⟨hlow, hhigh⟩

theorem exec_ldx_imm (h : SergeReady s x (.mem .ldx .imm f)) (hlow : 0 ≤ immOf x.exts f) (hhigh : immOf x.exts f ≤ 0xFFFF) :
    exec (.ldx x .imm f) s = .next (sergeEnd s x (sergeNext s x (.mem .ldx .imm f)) fun k => { k with x := daddrW (BitVec.ofInt 32 (immOf x.exts f)) }) := by
  refine instr_reg (fun k => { k with x := daddrW (BitVec.ofInt 32 (immOf x.exts f)) }) h rfl nofun (regCheck_mem nofun nofun nofun) ?_ rfl
  simp only [iter_mem, memIter, ptrImm_some hlow hhigh]

theorem exec_ldy_imm (h : SergeReady s x (.mem .ldy .imm f)) (hlow : 0 ≤ immOf x.exts f) (hhigh : immOf x.exts f ≤ 0xFFFF) :
    exec (.ldy x .imm f) s = .next (sergeEnd s x (sergeNext s x (.mem .ldy .imm f)) fun k => { k with y := daddrW (BitVec.ofInt 32 (immOf x.exts f)) }) := by
  refine instr_reg (fun k => { k with y := daddrW (BitVec.ofInt 32 (immOf x.exts f)) }) h rfl nofun (regCheck_mem nofun nofun nofun) ?_ rfl
  simp only [iter_mem, memIter, ptrImm_some hlow hhigh]

theorem reads_ld (h : m ≠ .imm) : Reads .ld m := ⟨nofun, h, nofun, nofun⟩

/-- A load whose read traps. -/
theorem exec_ld_bad {j : TrapInfo} (h : SergeReady s x (.mem .ld m f)) (hx : (coreGet s x.core).x.tag = tDaddr) (hy : (coreGet s x.core).y.tag = tDaddr)
    (ho : iter x (.mem .ld m f) s = .bad j false) : exec (.ld x m f) s = .next (trap s x.core j (coreGet s x.core).pc.toNat) :=
  exec_serge_bad rfl h rfl (regCheck_mem nofun (fun _ => hx) fun _ => hy) ho

theorem regCheck_st {k : Core} (ha : k.acc.tag ∈ anyTag) (hx : m = .x → k.x.tag = tDaddr) (hy : m = .y → k.y.tag = tDaddr) :
    regCheck k false (.mem .st m f) = none :=
  regCheck_mem (fun tags htags => by rw [List.mem_singleton.1 htags]; exact ha) hx hy

/-- A zero divisor is found after the tags (08 R454 check 10). -/
theorem exec_div_zero (h : SergeReady s x (.mem .div m f)) (hw : Operand s x m f w u) (ha : (coreGet s x.core).acc.tag = tInt) (htag : w.tag = tInt)
    (hzero : w.val = 0) : exec (.div x m f) s = .next (trap s x.core (trDiv, intW 0) (coreGet s x.core).pc.toNat) := by
  have hregs : regCheck (coreGet s x.core) false (.mem .div m f) = none :=
    regCheck_mem (fun tags htags => by rw [List.mem_singleton.1 htags, ha]; exact List.mem_singleton_self _) hw.indexX hw.indexY
  refine exec_serge_bad (stall := false) rfl h rfl hregs ?_
  rw [iter_mem, memIter_operand (op := .div) hw _ nofun nofun nofun (by simp)]
  simp only [useOperand, applyOp_div htag, hzero, and_self, ↓reduceIte]

theorem movePtr_step {p : W36} (h : p.tag = tDaddr) : movePtr p 1 = daddrW (BitVec.ofNat 32 ((p.val.toNat + 1) % 65536)) := by
  rw [movePtr_daddr h, ← BitVec.ofInt_natCast]
  rfl

theorem regCheck_ret {k : Core} (h : k.lr.tag = tCaddr) : regCheck k false (.group .ret) = none :=
  regCheck_reads (r₀ := 3) rfl (by decide) (List.mem_singleton.2 h)

theorem regCheck_jmpa {k : Core} (h : k.acc.tag = tCaddr) : regCheck k false (.group .jmpa) = none :=
  regCheck_reads (r₀ := 0) rfl (by decide) (List.mem_singleton.2 h)

theorem exec_jump_out (hi : sergeOp i = some (x, .mem o m f)) (h : SergeReady s x (.mem o m f)) (hw : Operand s x m f w u) (ho : o = .jmp ∨ o = .call)
    (himm : m ≠ .imm) (hcaddr : w.tag = tCaddr) (hout : progEnd x.core ≤ w.val.toNat) :
    exec i s = .next (trap s x.core (trBus, intW (BitVec.ofNat 32 (0x20000 + w.val.toNat))) (coreGet s x.core).pc.toNat) := by
  have hp : (w.val.toNat : Int) = if m = .imm then (sergeNext s x (.mem o m f) : Int) - 1 + immOf x.exts f else w.val.toNat := (if_neg himm).symm
  have htrap := exec_serge_bad hi h rfl (regCheck_jump ho hw.indexX hw.indexY)
    ((iter_jump hw ho (fun _ => hcaddr) hp).trans (jumpTo_out (.inr (Int.ofNat_le.2 hout))))
  rw [← BitVec.ofInt_natCast]
  exact htrap

/-- A jump within program memory. -/
theorem exec_jump_in (hi : sergeOp i = some (x, .mem o m f)) (h : SergeReady s x (.mem o m f)) (hw : Operand s x m f w u) (ho : o = .jmp ∨ o = .call)
    (hcaddr : m ≠ .imm → w.tag = tCaddr) {p : Nat}
    (hp : (p : Int) = if m = .imm then (sergeNext s x (.mem o m f) : Int) - 1 + immOf x.exts f else w.val.toNat) (hin : p < progEnd x.core) :
    exec i s = .next (sergeEnd u x p (if o = .call then fun k => { k with lr := caddrW (BitVec.ofNat 14 (sergeNext s x (.mem o m f))) } else id)) := by
  rw [exec_serge_ok hi h rfl (regCheck_jump ho hw.indexX hw.indexY) ((iter_jump hw ho hcaddr hp).trans (jumpTo_in hin))]
  rcases ho with rfl | rfl
  · exact congrArg _ (sergeEnd_id u x p).symm
  · rfl

end Sys2Proof.Machine
end

section
/-! OBLIGATIONS. Loads, arithmetic, stores and jumps: O41 and O42. -/

namespace Sys2Proof.Machine

set_option Elab.async false

/-- Settles O41, operation by operation: the operand's word is the operand of every mode, and the table of each operation says what it leaves. -/
theorem operandInstructionsComplete : Obligations.OperandInstructionsComplete := by
  unfold Obligations.OperandInstructionsComplete
  refine ⟨fun s x m f w u hready hw => ?ld, fun s x m f w u hready hw => ?add, fun s x m f w u hready hw => ?sub, fun s x m f w u ha htag hw => ?logic,
    fun s x m f w u hready hw => ?cmp, fun s x m f w u ha htag hw => ?muldiv, fun s x m f w u hw himm => ?load, fun s x f => ?pointer,
    fun s x m f u hready himm hx hy hread => ?void, fun s x m f hready himm hx hy haddr hbad => ?ecc⟩
  case ld => exact exec_operand rfl hready hw (.of_plain (by decide)) nofun nofun (applyOp_ld w _)
  case add =>
    intro a next
    have hacc (h : a.tag ∈ [tInt, tDaddr]) : ∀ tags ∈ accTags .add, a.tag ∈ tags := fun tags htags => by rw [List.mem_singleton.1 htags]; exact h
    refine ⟨fun ha htag => ?_, fun t ht => ?_, fun ha htag himm => ?_⟩
    · exact exec_operand rfl hready hw (.of_plain (by decide)) (hacc (by simp [ha])) nofun (applyOp_add_int ha htag)
    · refine exec_operand rfl hready hw (.of_plain (by decide)) (hacc ?_) nofun (applyOp_add_ptr ht)
      rcases ht with ⟨ha, -⟩ | ⟨ha, -⟩ <;> simp [ha]
    · rw [← operandPlace_mem himm]
      exact exec_badOperand rfl hready hw (.of_plain (by decide)) (hacc ha) (congrArg (Option.map _) (addW_refused htag))
  case sub =>
    intro a next
    have hacc (h : a.tag ∈ [tInt, tDaddr]) : ∀ tags ∈ accTags .sub, a.tag ∈ tags := fun tags htags => by rw [List.mem_singleton.1 htags]; exact h
    refine ⟨fun ha htag => ?_, fun t ha htag ht => ?_, fun ha htag => ?_⟩
    · exact exec_operand rfl hready hw (.of_plain (by decide)) (hacc (by simp [ha])) nofun (applyOp_sub_int ha htag)
    · exact exec_operand rfl hready hw (.of_plain (by decide)) (hacc (by simp [ha])) nofun (applyOp_sub_ptr ha htag ht)
    · exact exec_operand rfl hready hw (.of_plain (by decide)) (hacc (by simp [ha])) nofun (applyOp_sub_ptrs ha htag)
  case logic =>
    have hacc {o : MOp} (ho : accTags o = [[tInt, tBits]]) : ∀ tags ∈ accTags o, (coreGet s x.core).acc.tag ∈ tags := fun tags htags => by
      rw [ho] at htags
      rw [List.mem_singleton.1 htags]
      exact ha
    refine ⟨fun hready => ?_, fun hready => ?_, fun hready => ?_⟩
    · exact exec_operand rfl hready hw (.of_plain (by decide)) (hacc rfl) nofun (applyOp_logic rfl ha htag)
    · exact exec_operand rfl hready hw (.of_plain (by decide)) (hacc rfl) nofun (applyOp_logic rfl ha htag)
    · exact exec_operand rfl hready hw (.of_plain (by decide)) (hacc rfl) nofun (applyOp_logic rfl ha htag)
  case cmp =>
    intro a next
    have hacc (h : a.tag ∈ anyTag) : ∀ tags ∈ accTags .cmp, a.tag ∈ tags := fun tags htags => by rw [List.mem_singleton.1 htags]; exact h
    refine ⟨fun ha htag => ?_, fun ha htag => ?_, fun htag ha => ?_⟩
    · have hany : a.tag ∈ anyTag := accTags_any (op := .and) (List.mem_singleton_self _) ha
      exact exec_operand rfl hready hw (.of_plain (by decide)) (hacc hany) nofun (applyOp_cmp_num ha htag)
    · exact exec_operand rfl hready hw (.of_plain (by decide)) (hacc (by simp [ha, anyTag])) nofun (applyOp_cmp_ptrs ha htag)
    · have hany : a.tag ∈ anyTag := List.mem_of_mem_drop (i := 3) (by simpa [anyTag, or_comm] using ha)
      exact exec_operand rfl hready hw (.of_plain (by decide)) (hacc hany) nofun (applyOp_cmp_same htag ha)
  case muldiv =>
    have hacc {o : MOp} (ho : accTags o = [[tInt]]) : ∀ tags ∈ accTags o, (coreGet s x.core).acc.tag ∈ tags := fun tags htags => by
      rw [ho] at htags
      rw [List.mem_singleton.1 htags, ha]
      exact List.mem_singleton_self _
    refine ⟨fun hready p hp => ?_, fun hready hdivisor => ?_, fun hready hzero => ?_⟩
    · exact exec_operand rfl hready hw (.of_plain (by decide)) (hacc rfl) nofun (applyOp_mul htag hp)
    · exact exec_operand rfl hready hw (.of_plain (by decide)) (hacc rfl) (fun h => hdivisor h.2) (applyOp_div htag)
    · exact exec_div_zero hready hw ha htag hzero
  case load =>
    refine ⟨fun hready hx => ?_, fun hready hy => ?_⟩
    · exact exec_operand rfl hready hw ⟨nofun, fun _ => ⟨hx, himm⟩, nofun, nofun, nofun⟩ nofun nofun rfl
    · exact exec_operand rfl hready hw ⟨nofun, nofun, fun _ => ⟨hy, himm⟩, nofun, nofun⟩ nofun nofun rfl
  case pointer =>
    intro i
    refine ⟨fun hready hx => ?_, fun hready hy => ?_, fun hready hx => ?_, fun hready hy => ?_, exec_ldx_imm, exec_ldy_imm⟩
    · exact exec_ldx_self hready (by simp [hx]) (by rw [movePtr_daddr hx])
    · exact exec_ldy_self hready (by simp [hy]) (by rw [movePtr_daddr hy])
    · exact exec_ldx_self hready (by simp [hx]) (by rw [movePtr_int hx])
    · exact exec_ldy_self hready (by simp [hy]) (by rw [movePtr_int hy])
  case void =>
    exact exec_ld_bad hready hx hy ((iter_mem x .ld m f s).trans (memIter_read_check (reads_ld himm) hread (readCheck_void rfl)))
  case ecc =>
    exact exec_ld_bad hready hx hy ((iter_mem x .ld m f s).trans (memIter_read_bad (reads_ld himm) (busRead_ecc haddr hbad)))

/-- Settles O42: stores and moves end where the bus ends, jumps go to the target their operand names. -/
theorem storesAndJumpsComplete : Obligations.StoresAndJumpsComplete := by
  unfold Obligations.StoresAndJumpsComplete
  refine ⟨fun s x m f w t hready ha hindex => ?st, fun s x f w w' u t hready hx hy hw => ?xmov, fun s x m f w u hw himm hcaddr => ?jump,
    fun s x f t => ?relative, fun s x hready hlr hin => ?ret, fun s x hready ha hin => ?jmpa⟩
  case st =>
    intro ea
    have hregs : regCheck (coreGet s x.core) false (.mem .st m f) = none := regCheck_st ha hindex.1 hindex.2
    have hdone {w : W36} {t : State} (hwrite : busWrite s x.core ea (coreGet s x.core).acc = .ok w t) :
        exec (.st x m f) s = .next (sergeEnd t x (sergeNext s x (.mem .st m f)) id) := by
      rw [exec_serge_ok rfl hready rfl hregs ((iter_mem x .st m f s).trans (memIter_st_ok hwrite)), sergeEnd_id]
      rfl
    exact ⟨fun haddr => hdone (busWrite_ram s x.core haddr _), hdone,
      fun i hwrite => exec_serge_bad rfl hready rfl hregs ((iter_mem x .st m f s).trans (memIter_st_bad hwrite))⟩
  case xmov =>
    intro k hread hwrite _ htx hty
    rw [exec_serge_ok rfl hready rfl (regCheck_xmov hx hy) (xmovIter_ok rfl hread hw hwrite), sergeEnd]
    refine congrArg (fun v => Host.Outcome.next (finish v x.core _ false)) (coreUpd_congr ?_)
    rw [htx, hty, movePtr_step hx, movePtr_step hy]
  case jump =>
    refine ⟨fun hin => ⟨fun hready => ?_, fun hready => ?_⟩, fun hout => ⟨fun hready => ?_, fun hready => ?_⟩⟩
    · exact exec_jump_in rfl hready hw (.inl rfl) (fun _ => hcaddr) (if_neg himm).symm hin
    · exact exec_jump_in rfl hready hw (.inr rfl) (fun _ => hcaddr) (if_neg himm).symm hin
    · exact exec_jump_out rfl hready hw (.inl rfl) himm hcaddr hout
    · exact exec_jump_out rfl hready hw (.inr rfl) himm hcaddr hout
  case relative =>
    have himm : Operand s x .imm f (intW (BitVec.ofInt 32 (immOf x.exts f))) s := ⟨fun _ => ⟨rfl, rfl⟩, fun h => absurd rfl h, nofun, nofun⟩
    refine ⟨fun ht hin hready => ?_, fun ht hin hready => ?_⟩
    · exact exec_jump_in rfl hready himm (.inl rfl) (fun h => absurd rfl h) ht.symm hin
    · exact exec_jump_in rfl hready himm (.inr rfl) (fun h => absurd rfl h) ht.symm hin
  case ret =>
    rw [exec_serge_ok rfl hready rfl (regCheck_ret hlr) (jumpTo_in hin)]
    exact congrArg _ (sergeEnd_id _ _ _).symm
  case jmpa =>
    rw [exec_serge_ok rfl hready rfl (regCheck_jmpa ha) (jumpTo_in hin)]
    exact congrArg _ (sergeEnd_id _ _ _).symm

end Sys2Proof.Machine
end

section
/-! SUPPORT. The register instructions: which registers they read, and the values and flags they leave (08 R423, R424, R440, R452). -/

namespace Sys2Proof.Machine

set_option Elab.async false

variable {s : State} {x : SCtx} {i : Instr} {op : SOp} {g : GOp} {k : Core}

/-! ### Registers read -/

theorem regCheck_shift (sh : ShiftOp) (field : BitVec 5) (h : k.acc.tag ∈ [tInt, tBits]) : regCheck k false (.shift sh field) = none :=
  regCheck_reads (r₀ := 0) rfl void_not_num h

/-- The shifts by X read ACC and X. -/
theorem regCheck_shiftX (hg : g = .lslx ∨ g = .lsrx ∨ g = .asrx ∨ g = .rorx) (ha : k.acc.tag ∈ [tInt, tBits]) (hx : k.x.tag = tInt) :
    regCheck k false (.group g) = none := by
  have hacc : k.acc.tag ≠ tVoid := fun hv => void_not_num (hv ▸ ha)
  have hint : k.x.tag ≠ tVoid := by rw [hx]; decide
  have hneeds : [0, 1, 2, 3].map (regNeeds false (.group g)) = [0, 1, 2, 3].map fun r => if r = 0 then [[tInt, tBits]] else if r = 1 then [[tInt]] else [] := by
    rcases hg with rfl | rfl | rfl | rfl <;> rfl
  refine regCheck_one fun r hr tags htags => ?_
  rw [List.map_inj_left.1 hneeds r hr] at htags
  split at htags
  · next hzero =>
    subst hzero
    rw [List.mem_singleton.1 htags]
    exact ⟨hacc, ha⟩
  · split at htags
    · next hone =>
      subst hone
      rw [List.mem_singleton.1 htags]
      exact ⟨hint, List.mem_singleton.2 hx⟩
    · cases htags

/-! ### Outcomes -/

theorem exec_group (hi : sergeOp i = some (x, .group g)) (h : SergeReady s x (.group g)) (hc : controlOf (.group g) = none)
    (hjump : g ≠ .ret ∧ g ≠ .jmpa) (hr : regCheck (coreGet s x.core) false (.group g) = none) {f : Core → Core}
    (hf : groupCore g (coreGet s x.core) = f (coreGet s x.core)) : exec i s = .next (sergeEnd s x (sergeNext s x (.group g)) f) := by
  have hiter : iter x (.group g) s = .ok (coreUpd s x.core (groupCore g)) none := by
    obtain ⟨hret, hjmpa⟩ := hjump
    cases g with
    | ret => exact absurd rfl hret
    | jmpa => exact absurd rfl hjmpa
    | _ => rfl
  rw [exec_serge hi]
  exact instr_reg (groupCore g) h hc (ne_iret_of_controlOf hc) hr hiter hf

theorem exec_shift {sh : ShiftOp} {field : BitVec 5} (hi : sergeOp i = some (x, .shift sh field)) (h : SergeReady s x (.shift sh field))
    (ha : (coreGet s x.core).acc.tag ∈ [tInt, tBits]) {f : Core → Core}
    (hf : shiftAcc sh (field.toNat + 1) (coreGet s x.core) = f (coreGet s x.core)) :
    exec i s = .next (sergeEnd s x (sergeNext s x (.shift sh field)) f) := by
  rw [exec_serge hi]
  exact instr_reg (shiftAcc sh (field.toNat + 1)) h rfl nofun (regCheck_shift sh field ha) rfl hf

/-! ### Values and flags -/

theorem ssubOverflow_zero (a : BitVec 32) : BitVec.ssubOverflow 0 a = (a == 0x80000000) := by
  have ha := toInt_bounds a
  have hmin : a = 0x80000000 ↔ a.toInt = -2147483648 := by rw [← BitVec.toInt_inj]; rfl
  rw [BitVec.ssubOverflow, ← Bool.decide_or, Bool.eq_iff_iff, decide_eq_true_iff, beq_iff_eq, hmin, show (0 : BitVec 32).toInt = 0 from rfl]
  omega

theorem groupCore_neg (k : Core) : groupCore .neg k =
    withFlags (k.acc.val == 0) (-k.acc.val).msb (k.acc.val == 0) (k.acc.val == 0x80000000) { k with acc := intW (-k.acc.val) } := by
  have hz : (0 == k.acc.val) = (k.acc.val == 0) := Bool.beq_comm
  have hborrow : decide (k.acc.val.toNat ≤ (0 : BitVec 32).toNat) = (k.acc.val == 0) := by
    rw [Bool.eq_iff_iff, decide_eq_true_iff, beq_iff_eq, ← BitVec.toNat_inj]
    exact Nat.le_zero
  have hdiff : 0 - k.acc.val = -k.acc.val := BitVec.zero_sub _
  simp only [groupCore, subVal_eq, hz, hborrow, hdiff, ssubOverflow_zero]
  rfl

theorem groupCore_not (k : Core) : groupCore .not k =
    withFlags (k.acc.val == 0xFFFFFFFF) (!k.acc.val.msb) k.c k.v { k with acc := { tag := k.acc.tag, val := ~~~k.acc.val } } := by
  have hzero : decide (~~~k.acc.val = 0) = (k.acc.val == 0xFFFFFFFF) := by
    rw [Bool.eq_iff_iff, decide_eq_true_iff, beq_iff_eq]
    exact BitVec.not_eq_comm.trans ⟨fun h => h, fun h => h⟩
  have hsign : (~~~k.acc.val).msb = !k.acc.val.msb := by simp
  simp only [groupCore, hzero, hsign]
  rfl

theorem groupCore_tq (t : BitVec 3) (k : Core) : groupCore (.tq t) k = withFlags (decide (k.acc.tag.toNat = t.toNat)) false false false k := by
  have htag : (k.acc.tag == t.zeroExtend 4) = decide (k.acc.tag.toNat = t.toNat) := by
    rw [Bool.eq_iff_iff, decide_eq_true_iff, beq_iff_eq, ← BitVec.toNat_inj, BitVec.toNat_setWidth, Nat.mod_eq_of_lt (by omega)]
  simp only [groupCore, htag]
  rfl

theorem groupCore_dpa (k : Core) : groupCore .dpa k = { k with acc := daddrW (k.dp.zeroExtend 32 <<< 5) } := by
  have hval : BitVec.ofNat 32 (k.dp.toNat * 32) = k.dp.zeroExtend 32 <<< 5 := by
    rw [← BitVec.toNat_inj, BitVec.toNat_ofNat, BitVec.toNat_shiftLeft, BitVec.toNat_setWidth, Nat.shiftLeft_eq, Nat.mod_eq_of_lt (a := k.dp.toNat) (by omega)]
  rw [groupCore, hval]

/-- The value of a shift. -/
def shifted : ShiftOp → BitVec 32 → Nat → BitVec 32
  | .lsl, a, n => a <<< n
  | .lsr, a, n => a >>> n
  | .asr, a, n => a.sshiftRight n
  | .ror, a, n => a.rotateRight (n % 32)

/-- The place of the last bit shifted out. -/
def lastOut : ShiftOp → Nat → Nat
  | .lsl, n => 32 - n
  | _, n => n - 1

theorem shifted_zero (sh : ShiftOp) (a : BitVec 32) : shifted sh a 0 = a := by
  cases sh <;> simp [shifted, BitVec.rotateRight, BitVec.rotateRightAux]

theorem shiftVal_eq (sh : ShiftOp) (a : BitVec 32) (n : Nat) :
    shiftVal sh a n = (shifted sh a n, if n = 0 then none else some (decide (n ≤ 32) && a.getLsbD (lastOut sh n))) := by
  by_cases hn : n = 0
  · subst hn
    rw [shifted_zero]
    rfl
  · rw [if_neg hn]
    cases sh <;> exact if_neg hn

theorem shiftAcc_eq (sh : ShiftOp) (n : Nat) (k : Core) : shiftAcc sh n k =
    withFlags (shifted sh k.acc.val n == 0) (shifted sh k.acc.val n).msb (if n = 0 then k.c else decide (n ≤ 32) && k.acc.val.getLsbD (lastOut sh n)) k.v
      { k with acc := { tag := k.acc.tag, val := shifted sh k.acc.val n } } := by
  have hcarry : (if n = 0 then none else some (decide (n ≤ 32) && k.acc.val.getLsbD (lastOut sh n))).getD k.c =
      if n = 0 then k.c else decide (n ≤ 32) && k.acc.val.getLsbD (lastOut sh n) := by split <;> rfl
  simp only [shiftAcc, shiftVal_eq, hcarry]
  rfl

/-- A shift by an immediate, 1 to 32: a bit is shifted out. -/
theorem shiftAcc_immediate (sh : ShiftOp) (field : BitVec 5) (k : Core) : shiftAcc sh (field.toNat + 1) k =
    withFlags (shifted sh k.acc.val (field.toNat + 1) == 0) (shifted sh k.acc.val (field.toNat + 1)).msb
      (k.acc.val.getLsbD (lastOut sh (field.toNat + 1))) k.v { k with acc := { tag := k.acc.tag, val := shifted sh k.acc.val (field.toNat + 1) } } := by
  have hle : field.toNat + 1 ≤ 32 := field.isLt
  rw [shiftAcc_eq, if_neg (Nat.succ_ne_zero _), decide_eq_true hle, Bool.true_and]

end Sys2Proof.Machine
end

section
/-! OBLIGATIONS. The register instructions: O40. -/

namespace Sys2Proof.Machine

set_option Elab.async false

/-- Settles O40, instruction by instruction: the registers it reads have allowed tags, and what it does to its core is the row of the GROUP table. -/
theorem registerInstructionsComplete : Obligations.RegisterInstructionsComplete := by
  unfold Obligations.RegisterInstructionsComplete
  refine ⟨fun s x hready => ?nop, fun s x hready => ?di, fun s x hready ha => ?neg, fun s x hready ha => ?not, fun s x ha => ?store,
    fun s x hready hx => ?xa, fun s x hready hy => ?ya, fun s x hready hlr => ?lra, fun s x hready ha => ?alr, fun s x ha => ?retag,
    fun s x hready ha => ?adp, fun s x hready => ?dpa, fun s x t hready => ?tq, fun s x field ha => ?shift, fun s x ha hx => ?shiftX,
    fun s x op hlive hwaiting hrep hrepc hinstr hfront hcond => ?skip⟩
  case nop => exact exec_group rfl hready rfl ⟨nofun, nofun⟩ (regCheck_unread rfl) rfl
  case di => exact exec_group rfl hready rfl ⟨nofun, nofun⟩ (regCheck_unread rfl) rfl
  case neg =>
    exact exec_group rfl hready rfl ⟨nofun, nofun⟩ (regCheck_reads (r₀ := 0) (tags := [tInt]) rfl (by decide) (by simp [regOf, ha]))
      (groupCore_neg _)
  case not => exact exec_group rfl hready rfl ⟨nofun, nofun⟩ (regCheck_reads (r₀ := 0) rfl void_not_num ha) (groupCore_not _)
  case store =>
    exact ⟨fun hready => exec_group rfl hready rfl ⟨nofun, nofun⟩ (regCheck_reads (r₀ := 0) rfl (by decide) ha) rfl,
      fun hready => exec_group rfl hready rfl ⟨nofun, nofun⟩ (regCheck_reads (r₀ := 0) rfl (by decide) ha) rfl⟩
  case xa => exact exec_group rfl hready rfl ⟨nofun, nofun⟩ (regCheck_reads (r₀ := 1) rfl (by decide) hx) rfl
  case ya => exact exec_group rfl hready rfl ⟨nofun, nofun⟩ (regCheck_reads (r₀ := 2) rfl (by decide) hy) rfl
  case lra => exact exec_group rfl hready rfl ⟨nofun, nofun⟩ (regCheck_reads (r₀ := 3) rfl (by decide) hlr) rfl
  case alr =>
    exact exec_group rfl hready rfl ⟨nofun, nofun⟩ (regCheck_reads (r₀ := 0) (tags := [tCaddr]) rfl (by decide) (by simp [regOf, ha])) rfl
  case retag =>
    exact ⟨fun hready => exec_group rfl hready rfl ⟨nofun, nofun⟩ (regCheck_reads (r₀ := 0) rfl void_not_num ha) rfl,
      fun hready => exec_group rfl hready rfl ⟨nofun, nofun⟩ (regCheck_reads (r₀ := 0) rfl void_not_num ha) rfl⟩
  case adp =>
    exact exec_group rfl hready rfl ⟨nofun, nofun⟩ (regCheck_reads (r₀ := 0) (tags := [tDaddr]) rfl (by decide) (by simp [regOf, ha])) rfl
  case dpa => exact exec_group rfl hready rfl ⟨nofun, nofun⟩ (regCheck_unread rfl) (groupCore_dpa _)
  case tq => exact exec_group rfl hready rfl ⟨nofun, nofun⟩ (regCheck_unread rfl) (groupCore_tq t _)
  case shift =>
    intro n
    refine ⟨fun hready => exec_shift rfl hready ha (shiftAcc_immediate .lsl field _), fun hready => exec_shift rfl hready ha (shiftAcc_immediate .lsr field _),
      fun hready => exec_shift rfl hready ha ?_⟩
    have hsign : ((coreGet s x.core).acc.val.sshiftRight n).msb = (coreGet s x.core).acc.val.msb := BitVec.msb_sshiftRight
    rw [shiftAcc_immediate, shifted, hsign]
    rfl
  case shiftX =>
    intro n last put
    refine ⟨fun hready => ?_, fun hready => ?_, fun hready => ?_, fun hready => ?_⟩
    · exact exec_group rfl hready rfl ⟨nofun, nofun⟩ (regCheck_shiftX (by simp) ha hx) (shiftAcc_eq .lsl n _)
    · exact exec_group rfl hready rfl ⟨nofun, nofun⟩ (regCheck_shiftX (by simp) ha hx) (shiftAcc_eq .lsr n _)
    · exact exec_group rfl hready rfl ⟨nofun, nofun⟩ (regCheck_shiftX (by simp) ha hx) (shiftAcc_eq .asr n _)
    · exact exec_group rfl hready rfl ⟨nofun, nofun⟩ (regCheck_shiftX (by simp) ha hx) (shiftAcc_eq .ror n _)
  case skip => rw [instr_skip hlive hwaiting hrep hrepc hinstr hfront hcond, sergeEnd_id]

end Sys2Proof.Machine
end

section
/-! SUPPORT. The control instructions and the repeat iteration: what they carry out, and what the owner services leave (08 R442-R453, R460, 09 R522). -/

namespace Sys2Proof.Machine

set_option Elab.async false

variable {s t u : State} {c : CoreId} {x : SCtx} {i : Instr} {op : SOp} {g : GOp} {k : Core} {r : RepState}

/-! ### Outcomes -/

theorem SergeReady.live (h : SergeReady s x op) : coreLive s x.core = true := h.1

theorem SergeReady.awake (h : SergeReady s x op) : (coreGet s x.core).waiting = false := h.2.1

theorem SergeReady.unrepeated (h : SergeReady s x op) : (coreGet s x.core).rep = none ∧ (coreGet s x.core).repc = 0 := ⟨h.2.2.1, h.2.2.2.1⟩

/-- A control operation reads no register and is carried out at once. -/
theorem exec_control (hi : sergeOp i = some (x, .group g)) (h : SergeReady s x (.group g)) (hc : controlOf (.group g) = some g)
    (hiret : g = .iret → (coreGet s x.core).st ≠ .normal) :
    exec i s = .next (runControl s x.core g ((seqWords x (.group g)).getLastD 0) (sergeNext s x (.group g))) := by
  have hregs : regCheck (coreGet s x.core) false (.group g) = none := by
    refine regCheck_unread ?_
    cases g <;> cases hc <;> rfl
  rw [exec_serge hi, instr_ready h (fun hop => hiret (SOp.group.inj hop)) hregs, hc, done]

theorem coreOn_of_coreLive (h : coreLive s c = true) : coreOn s c = true := by
  rw [coreLive] at h
  rw [coreOn]
  simp only [Bool.and_eq_true] at h
  split
  · next hg => simpa [hg] using h.1.1
  · next hg => simpa [hg] using (And.left (by simpa [hg] using h.1.1))

theorem halted_of_coreLive (h : coreLive s c = true) : (coreGet s c).halted = false := by
  rw [coreLive] at h
  simp only [Bool.and_eq_true, Bool.not_eq_true'] at h
  exact h.1.2

theorem coreUpd_coreUpd (s : State) (c : CoreId) (f g : Core → Core) : coreUpd (coreUpd s c f) c g = coreUpd s c fun k => g (f k) := by cases c <;> rfl

theorem coreOn_coreUpd (s : State) (c d : CoreId) (f : Core → Core) : coreOn (coreUpd s c f) d = coreOn s d := by cases c <;> rfl

/-- What the end of an instruction does to its core (08 R442, R448). -/
def completed (c : CoreId) (pc : Nat) (ei : Bool) (k : Core) : Core :=
  setPc c pc { k with repc := 0, rep := none, ie := k.ie || k.eiNext, eiNext := ei }

theorem finish_eq (h : coreOn s c = true) (pc : Nat) (ei : Bool) : finish s c pc ei = coreUpd s c (completed c pc ei) := by rw [finish, h]; rfl

theorem finish_coreUpd (h : coreOn s c = true) (f : Core → Core) (pc : Nat) (ei : Bool) :
    finish (coreUpd s c f) c pc ei = coreUpd s c fun k => completed c pc ei (f k) := by
  rw [finish_eq ((coreOn_coreUpd s c c f).trans h), coreUpd_coreUpd]

/-! ### Interrupts waited for -/

/-- What a core waits for does not depend on its own registers. -/
theorem pendingSource_coreUpd (s : State) (c : CoreId) (f : Core → Core) : pendingSource (coreUpd s c f) c = pendingSource s c := by cases c <;> rfl

/-- A WAIT that completes: the core goes on, and takes the interrupt where IE and the state allow it. -/
theorem waitEnd_eq (hon : coreOn s c = true) {n : Nat} (hn : pendingSource s c = some n) (next : Nat) :
    waitEnd s c next = (finish (coreUpd s c fun k => { k with waiting := false }) c next false).when
      ((coreGet s c).st == .normal && ((coreGet s c).ie || (coreGet s c).eiNext)) fun t => takeIrq t c n next := by
  have htake : takeable (coreUpd s c fun k => completed c next false { k with waiting := false }) c =
      if (coreGet s c).st = .normal ∧ ((coreGet s c).ie || (coreGet s c).eiNext) = true then some n else none := by
    rw [takeable, coreGet_coreUpd_self, pendingSource_coreUpd, hn]
    rfl
  have hcond : ((coreGet s c).st == .normal && ((coreGet s c).ie || (coreGet s c).eiNext)) =
      decide ((coreGet s c).st = .normal ∧ ((coreGet s c).ie || (coreGet s c).eiNext) = true) := by
    rw [Bool.eq_iff_iff]
    simp
  rw [waitEnd, finish_coreUpd hon]
  simp only [htake, hcond]
  split
  · next m hm =>
    rw [Option.ite_none_right_eq_some] at hm
    rw [decide_eq_true hm.1, State.when_true, Option.some.inj hm.2]
  · next hm =>
    rw [ite_eq_right_iff] at hm
    rw [decide_eq_false (fun hh => Option.some_ne_none _ (hm hh)), State.when_false]

theorem finish_awake (h : (coreGet s c).waiting = false) (pc : Nat) (ei : Bool) :
    finish (coreUpd s c fun k => { k with waiting := false }) c pc ei = finish s c pc ei := by
  rw [coreUpd_congr (g := id) (by rw [← h]; rfl), coreUpd_id]

/-- WAIT with a source pending. -/
theorem exec_wait_pending (h : SergeReady s x (.group .wait)) {n : Nat} (hn : pendingSource s x.core = some n) :
    exec (.wait x) s = .next ((sergeEnd s x (sergeNext s x (.group .wait)) id).when
      ((coreGet s x.core).st == .normal && ((coreGet s x.core).ie || (coreGet s x.core).eiNext)) fun t =>
        takeIrq t x.core n (sergeNext s x (.group .wait))) := by
  rw [exec_control rfl h rfl nofun, runControl, hn, Option.isSome_some, if_pos rfl, waitEnd_eq (coreOn_of_coreLive h.live) hn, finish_awake h.awake,
    sergeEnd_id]

/-! ### SVC and the owner services -/

/-- SVC that no owner service answers is a trap. -/
theorem exec_svc_traps (h : SergeReady s x (.group .svc)) (howner : ownerCode s x.core = false) :
    exec (.svc x) s = .next (trap s x.core (trSvc, intW 0) (sergeNext s x (.group .svc))) := by
  rw [exec_control rfl h rfl nofun, runControl, howner]
  rfl

theorem exec_svc_serves (h : SergeReady s x (.group .svc)) (howner : ownerCode s x.core = true) (hst : (coreGet s x.core).st ≠ .trap) :
    exec (.svc x) s = .next (svcOwner s x.core (sergeNext s x (.group .svc))) := by
  have hst' : ((coreGet s x.core).st != .trap) = true := bne_iff_ne.2 hst
  rw [exec_control rfl h rfl nofun, runControl, howner, hst']
  rfl

theorem keeps_digUpd (s : State) (c : CoreId) (f : DigCore → DigCore) : Keeps [.dig] s (digUpd s c f) := keeps_onDig s _

theorem keeps_digBegin (s : State) (c : CoreId) (v : BitVec 32) : Keeps [.dig] s (digBegin s c v) := by
  unfold digBegin digResult
  extract_lets alg key
  split
  · exact keeps_digUpd s c _
  · split
    · exact keeps_digUpd s c _
    · split
      · exact keeps_digUpd s c _
      · cases key with
        | none => exact keeps_digUpd s c _
        | some k => exact (keeps_onDig s _).trans (keeps_digUpd _ c _)

theorem keeps_svcExtend (s : State) (c : CoreId) (y : W36) : Keeps [.dig] s (svcExtend s c y).2 := by
  unfold svcExtend
  split
  · exact .refl _ s
  · split
    · exact .refl _ s
    · split
      · exact .refl _ s
      · split
        · exact .refl _ s
        · exact (((keeps_digBegin s c 1).trans (keeps_onDig _ _)).trans (keeps_digUpd _ c _)).trans (keeps_extend _ _ _)

theorem keeps_svcRecord (s : State) (c : CoreId) (y : W36) : Keeps [.key, .mgt, .store, .unit] s (svcRecord s c y).2 := by
  unfold svcRecord
  split
  · exact .refl _ s
  · split
    · exact .refl _ s
    · split
      · exact .refl _ s
      · split
        · exact .refl _ s
        · exact keeps_append s _ _ _ _ _

theorem keeps_svcPost (s : State) (y : W36) : Keeps [.unit] s (svcPost s y).2 := by
  unfold svcPost
  split
  · exact keeps_post s _
  · exact .refl _ s

theorem keeps_svcAlert (s : State) (c : CoreId) (y : W36) : Keeps [.key, .mgt, .store, .unit] s (svcAlert s c y).2 := by
  unfold svcAlert
  split
  · exact (keeps_append s _ _ _ _ _).trans ((keeps_dbAlert _).mono (by simp))
  · exact .refl _ s

theorem keeps_service (s : State) (c : CoreId) : Keeps [.dig, .key, .mgt, .store, .unit] s (service s c).2 := by
  unfold service
  extract_lets k
  split
  · exact (keeps_svcPost s _).mono (by simp)
  · exact (keeps_svcRecord s c _).mono (by simp)
  · exact (keeps_svcExtend s c _).mono (by simp)
  · exact (keeps_svcAlert s c _).mono (by simp)
  · exact .refl _ s

/-- The numbers of two of the services. -/
theorem service_record (h : (coreGet s c).acc = intW 2) : service s c = svcRecord s c (coreGet s c).y := by
  rw [service, h]
  rfl

theorem service_alert (h : (coreGet s c).acc = intW 4) : service s c = svcAlert s c (coreGet s c).y := by
  rw [service, h]
  rfl

/-- The registers with which a service returns to owner code (09 R522). -/
def served (s : State) (c : CoreId) (result : Nat) (k k' : Core) (next : Nat) : Core :=
  setPc c next { k' with
    acc := intW (BitVec.ofNat 32 result), y := bitsW (Config.afterSvc (2 * s.core.calls + 1)), z := k.z, n := k.n, c := k.c, v := k.v
    ie := k.ie || k.eiNext, dp := k.dp, st := k.st }

theorem svcOwner_eq (s : State) (c : CoreId) (next : Nat) : svcOwner s c next =
    (coreUpd (service (enter s c false trSvc (intW 0) next 0x800 (4 * trSvc)) c).2 c fun k' =>
      served s c (service (enter s c false trSvc (intW 0) next 0x800 (4 * trSvc)) c).1 (coreGet s c) k' next).onCore
        fun m => { m with calls := m.calls + 1 } := rfl

theorem coreGet_svcOwner (s : State) (c : CoreId) (next : Nat) : coreGet (svcOwner s c next) c =
    served s c (service (enter s c false trSvc (intW 0) next 0x800 (4 * trSvc)) c).1 (coreGet s c)
      (coreGet (enter s c false trSvc (intW 0) next 0x800 (4 * trSvc)) c) next := by
  have hcalls (v : State) : coreGet (v.onCore fun m => { m with calls := m.calls + 1 }) c = coreGet v c := by cases c <;> rfl
  rw [svcOwner_eq, hcalls, coreGet_coreUpd_self, coreGet_congr (keeps_service _ c .core (by simp))]

/-! ### IRET -/

/-- What IRET does to its core with the program counter, status word and REPC of its frame (08 R460). -/
def restored (c : CoreId) (pc sw rc : BitVec 32) (k : Core) : Core :=
  setPc c pc.toNat { withFlags (sw.getLsbD 0) (sw.getLsbD 1) (sw.getLsbD 2) (sw.getLsbD 3) k with
    ie := sw.getLsbD 4 || k.eiNext, eiNext := false, dp := sw.extractLsb' 8 11, repc := rc.toNat
    st := if (sw.extractLsb' 5 2).toNat = 0 then .normal else .interrupt }

/-- IRET with a frame that passes the checks. -/
theorem iret_restores {f : Nat} (hf : f = if (coreGet s c).st = .trap then 0x7FE8 else 0x7FE0) (hecc : ∀ i < 3, f + i ∉ (coreGet s c).badData)
    (hpc : (ramGet s c f).tag = tCaddr) (hsw : (ramGet s c (f + 1)).tag = tBits) (hrc : (ramGet s c (f + 2)).tag = tInt)
    (hcount : (ramGet s c (f + 2)).val.toNat ≤ 65536)
    (hmode : ((ramGet s c (f + 1)).val.extractLsb' 5 2).toNat ≤ bitAt ((coreGet s c).st == .trap) 0) (w : BitVec 14) :
    iret s c w = coreUpd s c (restored c (ramGet s c f).val (ramGet s c (f + 1)).val (ramGet s c (f + 2)).val) := by
  have hframe : (if ((coreGet s c).st == .trap) = true then 0x7FE8 else 0x7FE0) = f := by simp only [hf, beq_iff_eq]
  have hwhole : ([f, f + 1, f + 2].find? fun a => (coreGet s c).badData.contains a) = none := by
    rw [List.find?_eq_none]
    simpa using ⟨hecc 0 (by decide), hecc 1 (by decide), hecc 2 (by decide)⟩
  have hvalid : ¬ ((ramGet s c (f + 2)).val.toNat > 65536 ∨ ((ramGet s c (f + 1)).val.extractLsb' 5 2).toNat > bitAt ((coreGet s c).st == .trap) 0) := by omega
  unfold iret
  simp only [hframe, hwhole, hpc, hsw, hrc, hvalid, ne_eq, not_true_eq_false, ↓reduceIte]
  rfl

/-! ### Repeats -/

/-- REP starts its iterations (08 R448, R449). -/
theorem instr_rep {n : Nat} {interruptible : Bool} (hrep : x.rep = .rep n interruptible) (h : SergeReady s { x with rep := .none } op)
    (hinstr : isInstr x op = true)
    (hfront : frontCheck x.core (coreGet s x.core).badProg (coreGet s x.core).pc.toNat (seqWords x op) = none) (hop : op ≠ .group .iret)
    (hregs : regCheck (coreGet s x.core) false op = none) :
    instr x op s = coreUpd s x.core fun k => { k with rep := some { x := x, op := op, left := n } } := by
  obtain ⟨hlive, hwaiting, hnone, hrepc, -, -, -, hcond⟩ := h
  have hpos : n ≠ 0 := by
    simp only [isInstr, hrep, Bool.and_eq_true, decide_eq_true_eq] at hinstr
    omega
  have hcount (w : BitVec 14) : repeatCount x (coreGet s x.core) w = .ok n := by
    rw [repeatCount, if_neg (not_not_intro hrepc), hrep]
  unfold instr
  simp only [hlive, hwaiting, hnone, hrepc, hinstr, hfront, hcond, hop, hregs, hcount, hpos, hrep, ne_eq, not_true_eq_false, decide_false, Bool.false_and,
    Bool.not_true, Bool.not_false, Bool.and_false, Option.isSome_none, Bool.or_self, Bool.false_eq_true, false_and, reduceCtorEq, ↓reduceIte]

theorem stepIndex_rep (op : SOp) (k : Core) (r : Option RepState) : stepIndex op { k with rep := r } = { stepIndex op k with rep := r } := by
  unfold stepIndex
  split <;> rfl

theorem stepIndex_acc (op : SOp) (k : Core) : (stepIndex op k).acc = k.acc := by
  unfold stepIndex
  split <;> rfl

/-- The end of a repeat forgets it. -/
theorem completed_stepIndex (c : CoreId) (pc : Nat) (ei : Bool) (op : SOp) (k : Core) (r : Option RepState) :
    completed c pc ei (stepIndex op { k with rep := r }) = completed c pc ei (stepIndex op k) := by
  rw [stepIndex_rep]
  rfl

theorem iter_load {m : SMode} {f : BitVec 5} {w : W36} (hw : Operand s x m f w u) : iter x (.mem .ld m f) s = .ok (coreUpd u x.core (loaded w)) none := by
  rw [iter_mem, memIter_operand (op := .ld) hw _ nofun nofun nofun (by simp)]
  simp only [useOperand, applyOp_ld, reduceCtorEq, false_and, ↓reduceIte]
  exact congrArg (Iter.ok · none) (coreUpd_congr rfl)

theorem coreOn_congr (h : t.pow = s.pow) (c : CoreId) : coreOn t c = coreOn s c := by rw [coreOn, coreOn, h]

/-- One iteration of a repeat that no interrupt precedes (08 R448). -/
theorem exec_repeatIteration (hlive : coreLive s c = true) (hrep : (coreGet s c).rep = some r) (hregs : regCheck (coreGet s c) false r.op = none)
    (htake : takeable s c = none) {jump : Option Nat} (hiter : iter r.x r.op s = .ok t jump) (hon : coreOn t c = true) :
    exec (.repeatIteration c) s = .next (
      if r.left ≤ 1 then coreUpd t c fun k => completed c ((coreGet s c).pc.toNat + (seqWords r.x r.op).length) false (stepIndex r.op k)
      else coreUpd t c fun k => stepIndex r.op { k with rep := some { r with left := r.left - 1 } }) := by
  have hnow (b : Bool) : (if b = true then takeable s c else none) = none := by rw [htake, ite_self]
  have hexec : exec (.repeatIteration c) s = execRepeatIteration c s := rfl
  rw [hexec, execRepeatIteration]
  simp only [hrep, hnow, hlive, hregs, hiter, hon, State.when_true, Bool.not_true, Bool.false_eq_true, ↓reduceIte, finish_coreUpd hon, completed_stepIndex, done]

end Sys2Proof.Machine
end

section
/-! OBLIGATIONS. The control instructions, the owner services and repeats: O43. -/

namespace Sys2Proof.Machine

set_option Elab.async false

/-- Settles O43, instruction by instruction: what `runControl` carries out, the services, and the iterations of a repeat from the one lemma on them. -/
theorem controlInstructionsAct : Obligations.ControlInstructionsAct := by
  unfold Obligations.ControlInstructionsAct
  refine ⟨fun s x hready => ?ei, fun s x hready => ?halt, fun s x hready => ?wait, fun s c n hlive hwaiting hn hie hst => ?complete,
    fun s x hready hst howner => ?svc, fun s x hready hst howner _ => ?owner, fun s c k hk hacc htag => ?alert, fun s c k id n a hk hacc htag hdesc => ?record,
    fun s x hready hst => ?iret, fun s x m f n i hrep hready hinstr hfront hx hy => ?start,
    fun s c r k hlive hrep hcore hregs htake t hiter hon hk => ?iteration, fun s c r sh f hlive hrep hcore hop ha htake => ?shift,
    fun s c r m f w u hlive hrep hcore hop hw hon htake => ?load, fun s c r m f hlive hrep hcore hop ha hindex haddr htake => ?store,
    fun s c ws i hlive hwaiting hrep hws hfront hst => ?undefined⟩
  case ei =>
    obtain ⟨hrep, hrepc⟩ := hready.unrepeated
    rw [exec_control rfl hready rfl nofun, runControl, finish_eq (coreOn_of_coreLive hready.live)]
    refine congrArg _ (coreUpd_congr ?_)
    rw [completed, ← hrep, ← hrepc]
  case halt =>
    refine ⟨_, exec_control rfl hready rfl nofun, ?_⟩
    rw [runControl, coreGet_haltCore (halted_of_coreLive hready.live)]
    exact ⟨rfl, rfl, rfl, rfl⟩
  case wait =>
    refine ⟨fun hnone => ?_, fun n hn hie heiNext => ?_, fun n hn hie hst => ?_⟩
    · rw [exec_control rfl hready rfl nofun, runControl, hnone]
      rfl
    · rw [exec_wait_pending hready hn, hie, heiNext, Bool.or_self, Bool.and_false, State.when_false]
    · rw [exec_wait_pending hready hn, hie, hst, Bool.true_or]
      rfl
  case complete =>
    have hon := coreOn_of_coreLive hlive
    have hexec : exec (.waitComplete c) s = .next (takeIrq (finish (coreUpd s c fun k => { k with waiting := false }) c ((coreGet s c).pc.toNat + 1) false) c n
        ((coreGet s c).pc.toNat + 1)) := by
      have hend : exec (.waitComplete c) s = .next (waitEnd s c ((coreGet s c).pc.toNat + 1)) := by
        have hunfold : exec (.waitComplete c) s = execWaitComplete c s := rfl
        rw [hunfold, execWaitComplete, hlive, hwaiting, hn]
        rfl
      rw [hend, waitEnd_eq hon hn, hie, hst, Bool.true_or]
      rfl
    refine ⟨_, hexec, ?_⟩
    rw [finish_coreUpd hon, takeIrq, coreGet_enter]
    refine ⟨rfl, rfl, rfl, rfl, fun hram => ?_⟩
    have hram' : RamWf (coreUpd s c fun k => completed c ((coreGet s c).pc.toNat + 1) false { k with waiting := false }) c := by
      rw [RamWf, coreGet_coreUpd_self]
      exact hram
    have hframe (i : Nat) (hi : i < 8) := ramGet_enter_frame true (0x100 + n) (intW 0) ((coreGet s c).pc.toNat + 1) 0x800 0x24 hram' hi
    exact ⟨hframe 0 (by decide), hframe 3 (by decide)⟩
  case svc =>
    rw [exec_svc_traps hready howner, trap_enters hst hready.unrepeated.1]
    rfl
  case owner =>
    intro k p
    refine ⟨_, exec_svc_serves hready howner hst, ?_⟩
    rw [coreGet_svcOwner, coreGet_enter]
    refine ⟨rfl, rfl, rfl, rfl, rfl, rfl, ?_, ?_, ?_⟩
    · rw [svcOwner_eq]
      exact congrArg UnitSt.posts (keeps_coreUpd _ _ _ .unit (by simp))
    · rw [svcOwner_eq]
      exact keeps_coreUpd _ _ _ .store (by simp)
    · rw [svcOwner_eq]
      exact keeps_coreUpd _ _ _ .dig (by simp)
  case alert =>
    subst hk
    rw [service_alert hacc, svcAlert]
    exact ⟨fun hcode => if_pos ⟨htag, hcode⟩, fun hcode => if_neg fun h => absurd h.2 (Nat.not_le.2 hcode)⟩
  case record =>
    subst hk
    rw [service_record hacc, svcRecord, if_pos htag, hdesc]
    refine ⟨fun hlong => if_pos hlong, fun hfits hid => ?_, fun b hfits hid hread => ?_⟩
    · rw [← Nat.not_lt] at hfits
      exact (if_neg hfits).trans (if_pos hid)
    · rw [← Nat.not_lt] at hfits hid
      refine (if_neg hfits).trans ((if_neg hid).trans ?_)
      rw [hread]
  case iret =>
    intro f pc sw rc hecc hpc hsw hrc hcount hmode hei
    have hcode : (sw.val.extractLsb' 5 2).toNat ≤ bitAt ((coreGet s x.core).st == .trap) 0 := by
      rcases hmode with hnormal | ⟨hinterrupt, htrap⟩
      · rw [hnormal]
        exact Nat.zero_le _
      · rw [hinterrupt, htrap]
        decide
    have hback : sw.val.extractLsb' 5 2 = 0 ↔ (sw.val.extractLsb' 5 2).toNat = 0 := BitVec.toNat_inj.symm
    rw [exec_control rfl hready rfl fun _ => hst, runControl, iret_restores rfl hecc hpc hsw hrc hcount hcode]
    refine congrArg _ (coreUpd_congr ?_)
    simp only [restored, hei, hback, Bool.or_false]
    rw [← hei]
    rfl
  case start =>
    have hexec : exec (.ld x m f) s = done (instr x (.mem .ld m f) s) := rfl
    rw [hexec, instr_rep hrep hready hinstr hfront nofun (regCheck_mem nofun hx hy), done]
  case iteration =>
    rw [exec_repeatIteration hlive hrep hregs htake hiter hon]
    refine ⟨fun hmore => ?_, fun hlast => ?_⟩
    · rw [if_neg (Nat.not_le.2 hmore), coreUpd_congr]
      rw [hk]
    · refine ⟨_, rfl, ?_⟩
      rw [if_pos hlast.le, coreGet_coreUpd_self, hk, completed, setPc_acc, stepIndex_acc]
      exact ⟨rfl, rfl, rfl, rfl⟩
  case shift =>
    subst hcore
    have hon := coreOn_of_coreLive hlive
    have hiter : iter r.x r.op s = .ok (coreUpd s r.x.core (shiftAcc sh (f.toNat + 1))) none := by rw [hop]; rfl
    have hregs : regCheck (coreGet s r.x.core) false r.op = none := by
      rw [hop]
      exact regCheck_shift sh f ha
    rw [exec_repeatIteration hlive hrep hregs htake hiter ((coreOn_coreUpd _ _ _ _).trans hon), coreUpd_coreUpd, coreUpd_coreUpd]
    refine ⟨fun hmore => ?_, fun hlast => ?_⟩
    · rw [if_neg (Nat.not_le.2 hmore), hop]
      rfl
    · rw [if_pos hlast, sergeEnd, finish_coreUpd hon, hop]
      rfl
  case load =>
    subst hcore
    intro ld
    have hregs : regCheck (coreGet s r.x.core) false r.op = none := by
      rw [hop]
      exact regCheck_mem nofun hw.indexX hw.indexY
    have hiter : iter r.x r.op s = .ok (coreUpd u r.x.core ld) none := by
      rw [hop]
      exact iter_load hw
    rw [exec_repeatIteration hlive hrep hregs htake hiter ((coreOn_coreUpd _ _ _ _).trans hon), coreUpd_coreUpd, coreUpd_coreUpd]
    refine ⟨fun hmore => ?_, fun hlast => ?_⟩
    · rw [if_neg (Nat.not_le.2 hmore)]
    · rw [if_pos hlast, sergeEnd, finish_coreUpd hon]
  case store =>
    subst hcore
    intro u
    have hregs : regCheck (coreGet s r.x.core) false r.op = none := by
      rw [hop]
      exact regCheck_st ha hindex.1 hindex.2
    have hiter : iter r.x r.op s = .ok u none := by
      rw [hop, iter_mem]
      exact memIter_st_ok (busWrite_ram s _ haddr _)
    have hon : coreOn u r.x.core = true := by
      rw [coreOn_congr (keeps_ramPut s _ _ _ .pow (by simp))]
      exact coreOn_of_coreLive hlive
    rw [exec_repeatIteration hlive hrep hregs htake hiter hon]
    refine ⟨fun hmore => ?_, fun hlast => ?_⟩
    · rw [if_neg (Nat.not_le.2 hmore)]
    · rw [if_pos hlast, sergeEnd, finish_coreUpd hon]
  case undefined =>
    have htrap : exec (.undefinedInstruction c ws) s = .next (trap s c i (coreGet s c).pc.toNat) := by
      have hunfold : exec (.undefinedInstruction c ws) s = execUndefinedInstruction c ws s := rfl
      have hsome : ws.isEmpty = false := List.isEmpty_eq_false_iff.2 hws
      rw [hunfold, execUndefinedInstruction]
      simp only [hlive, hwaiting, hrep, hsome, hfront, Bool.not_true, Option.isSome_none, Bool.or_self, Bool.false_eq_true, ↓reduceIte, done]
    rw [htrap, trap_enters hst hrep]
    rfl

end Sys2Proof.Machine
end

section
/-! SUPPORT. The control role and the reset of a core (09 R490-R492, R515-R518, 08 R417, R418). -/

namespace Sys2Proof.Machine

set_option Elab.async false

variable {s t : State} {c d : CoreId}

/-! ### The control role -/

theorem keeps_roleOk (s : State) (c : CoreId) : Keeps [.unit] s (roleOk s c) := keeps_onUnit s _

theorem bells_roleOk (s : State) (c : CoreId) : (roleOk s c).unit.bells = s.unit.bells := by cases c <;> rfl

/-- A measurement register takes the adoption digest that stands for it (11 R614). -/
def adopted (s : State) (p : Nat × Nat) : State :=
  match assoc p.1 s.dig.adoptDig with
  | some v => extend s p.2 v
  | none => s

theorem keeps_adopted (s : State) (p : Nat × Nat) : Keeps [.dig] s (adopted s p) := by
  unfold adopted
  split
  · exact keeps_extend s _ _
  · exact .refl _ s

theorem keeps_moveRole (s : State) (c : CoreId) : Keeps [.unit, .dig] s (moveRole s c) := by
  unfold moveRole
  extract_lets moved ext extended
  have hmoved : Keeps [.unit, .dig] s moved := (keeps_onUnit s _).mono (by simp)
  split
  · have hextended : Keeps [.unit, .dig] moved extended := (Keeps.foldl (f := ext) keeps_adopted _ moved).mono (by simp)
    exact (hmoved.trans hextended).trans (((keeps_onDig _ _).mono (by simp)).trans ((keeps_onUnit _ _).mono (by simp)))
  · exact hmoved

/-- The role moves, and a GIVE waits no longer. -/
theorem unit_moveRole (s : State) (c : CoreId) :
    (moveRole s c).unit.active = c ∧ (moveRole s c).unit.gave = false ∧ (moveRole s c).unit.bells = s.unit.bells := by
  unfold moveRole
  extract_lets moved ext extended
  split
  · have hunit : extended.unit = moved.unit := Keeps.foldl (f := ext) keeps_adopted _ moved .unit (by simp)
    clear_value extended
    have hactive : extended.unit.active = moved.unit.active := congrArg UnitSt.active hunit
    have hgave : extended.unit.gave = moved.unit.gave := congrArg UnitSt.gave hunit
    have hbells : extended.unit.bells = moved.unit.bells := congrArg UnitSt.bells hunit
    exact ⟨hactive, hgave, hbells⟩
  · exact ⟨rfl, rfl, rfl⟩

/-- A planned change of the role (09 R516). -/
theorem handedOver_moveRole (s : State) (p c : CoreId) : Keeps [.unit, .dig, .hq, .out] s (handedOver (moveRole (roleOk s c) p)) ∧
    (handedOver (moveRole (roleOk s c) p)).unit.active = p ∧ (handedOver (moveRole (roleOk s c) p)).unit.gave = false ∧
    (handedOver (moveRole (roleOk s c) p)).unit.bells = s.unit.bells ++ [.table] := by
  obtain ⟨hactive, hgave, hbells⟩ := unit_moveRole (roleOk s c) p
  have hcause := keeps_cause (ring (moveRole (roleOk s c) p) .table) 1
  have hunit : (handedOver (moveRole (roleOk s c) p)).unit = (ring (moveRole (roleOk s c) p) .table).unit := hcause .unit (by simp)
  refine ⟨(((keeps_roleOk s c).mono (by simp)).trans ((keeps_moveRole _ p).mono (by simp))).trans (((keeps_ring _ _).mono (by simp)).trans (hcause.mono (by simp))),
    ?_, ?_, ?_⟩
  · rw [hunit]
    exact hactive
  · rw [hunit]
    exact hgave
  · rw [hunit, ← bells_roleOk s c, ← hbells]
    rfl

theorem exec_pwrRoleGive (h : Reaches s c 0xAC00 false) : exec (.pwrRoleGive c) s = .next (roleGive s c) := by
  have hexec : exec (.pwrRoleGive c) s = execPwrRoleGive c s := rfl
  rw [hexec, execPwrRoleGive, winCmd_of_reaches h, done]
  rfl

theorem exec_pwrRoleTake (h : Reaches s c 0xAC00 false) : exec (.pwrRoleTake c) s = .next (roleTake s c) := by
  have hexec : exec (.pwrRoleTake c) s = execPwrRoleTake c s := rfl
  rw [hexec, execPwrRoleTake, winCmd_of_reaches h, done]
  rfl

/-! ### The reset of a core -/

/-- What a reset core held in the engines and windows is gone: its digest message, its handles, its transaction. -/
def relinquished (s : State) (c : CoreId) : State :=
  let s := s.when (s.dig.owner == some c) digEnd
  let s := rngUpd s c fun r => { r with busy := false, waiting := false, written := false, fresh := false }
  rollBack (onHandles s c fun _ => []) (coreIdx c)

/-- The registers of a core after its reset. -/
def cleared (k : Core) : Core := { prog := k.prog, badProg := k.badProg, startKind := k.startKind, ownerFw := k.ownerFw }

/-- What a reset withdraws of the unit window: interrupts, timer and mail. -/
def unlatched (s : State) (c : CoreId) : State :=
  let s := s.onUnit fun m => { m with
    irqEn := tput 0 m.irqEn (coreIdx c) 0, irqPend := tput 0 m.irqPend (coreIdx c) 0, timer := tput 0 m.timer (coreIdx c) 0 }
  if c = .g then onGateMail (onGateMail s .g fun _ => {}) .a fun m => { m with unacked := false }
  else
    let s := onPeerMail (onPeerMail s c fun _ => {}) (peerOf c) fun m => { m with unacked := false }
    s.when (s.unit.active != c && s.unit.reloaded) fun s => (s.onDig fun d => { d with adoptDig := [] }).onUnit fun m => { m with reloaded := false }

theorem coreReset_eq (s : State) (c : CoreId) : coreReset s c = unlatched (coreUpd (relinquished s c) c cleared) c := rfl

theorem keeps_digEnd (s : State) : Keeps [.dig] s (digEnd s) := by
  unfold digEnd
  split
  · exact (keeps_onDig s _).trans (keeps_onDig _ _)
  · exact .refl _ s

theorem keeps_killRecs (s : State) (p : Record → Bool) : Keeps [.store] s (killRecs s p) :=
  (keeps_onStore s _).trans (.foldl (fun v _ => keeps_progPage v _ _) _ _)

theorem keeps_rollBack (s : State) (key : Nat) : Keeps [.store] s (rollBack s key) := by
  unfold rollBack
  split
  · exact (keeps_killRecs s _).trans (keeps_onStore _ _)
  · exact .refl _ s

theorem keeps_onHandles (s : State) (c : CoreId) (f : List Handle → List Handle) : Keeps [.key] s (onHandles s c f) := keeps_onKey s _

theorem keeps_relinquished (s : State) (c : CoreId) : Keeps [.dig, .rng, .key, .store] s (relinquished s c) :=
  (((Keeps.when _ digEnd ((keeps_digEnd s).mono (by simp))).trans ((keeps_onRng _ _).mono (by simp))).trans ((keeps_onHandles _ c _).mono (by simp))).trans
    ((keeps_rollBack _ _).mono (by simp))

theorem key_relinquished (s : State) (c : CoreId) : (relinquished s c).key = (onHandles s c fun _ => []).key := by
  unfold relinquished
  extract_lets u v
  have hkey : v.key = s.key := ((Keeps.when _ digEnd (keeps_digEnd s)).mono (m := [.dig, .rng]) (by simp) |>.trans ((keeps_onRng u _).mono (by simp))) .key (by simp)
  rw [keeps_rollBack _ _ .key (by simp)]
  show (if c = .a then _ else if c = .b then _ else v.key) = _
  rw [hkey]
  rfl

theorem handlesOf_congr (h : t.key = s.key) (c : CoreId) : handlesOf t c = handlesOf s c := by rw [handlesOf, h, handlesOf]

theorem keeps_unlatched (s : State) (c : CoreId) : Keeps [.dig, .unit] s (unlatched s c) := by
  unfold unlatched
  extract_lets u v
  have hu : Keeps [.dig, .unit] s u := (keeps_onUnit s _).mono (by simp)
  split
  · exact hu.trans (((keeps_onUnit u _).trans (keeps_onUnit _ _)).mono (by simp))
  · exact (hu.trans (((keeps_onUnit u _).trans (keeps_onUnit _ _)).mono (by simp))).trans
      (.when _ _ (((keeps_onDig v _).mono (by simp)).trans ((keeps_onUnit _ _).mono (by simp))))

theorem tbl_unlatched (s : State) (c : CoreId) : (unlatched s c).unit.tbl = s.unit.tbl := by
  have hwhen (v : State) (b : Bool) : (v.when b fun s => (s.onDig fun d => { d with adoptDig := [] }).onUnit fun m => { m with reloaded := false }).unit.tbl =
      v.unit.tbl := by cases b <;> rfl
  cases c with
  | g => rfl
  | _ => exact hwhen _ _

/-- A reset core keeps its program RAM, its start kind and nothing else; no other core changes. -/
theorem coreReset_resets (s : State) (c : CoreId) : Keeps [.dig, .rng, .key, .store, .core, .unit] s (coreReset s c) ∧
    coreGet (coreReset s c) c = cleared (coreGet s c) ∧ handlesOf (coreReset s c) c = [] ∧ (∀ d, d ≠ c → coreGet (coreReset s c) d = coreGet s d) ∧
    (coreReset s c).key.slots = s.key.slots ∧ (coreReset s c).unit.tbl = s.unit.tbl := by
  have hheld := keeps_relinquished s c
  have hregs := keeps_coreUpd (relinquished s c) c cleared
  have hunit := keeps_unlatched (coreUpd (relinquished s c) c cleared) c
  have hcore (d : CoreId) : coreGet (coreReset s c) d = coreGet (coreUpd (relinquished s c) c cleared) d := coreGet_congr (hunit .core (by simp)) d
  have hstands (d : CoreId) : coreGet (relinquished s c) d = coreGet s d := coreGet_congr (hheld .core (by simp)) d
  have hkey : (coreReset s c).key = (onHandles s c fun _ => []).key :=
    ((hunit .key (by simp)).trans (hregs .key (by simp))).trans (key_relinquished s c)
  refine ⟨((hheld.mono (by simp)).trans (hregs.mono (by simp))).trans (hunit.mono (by simp)), ?_, ?_, fun d hd => ?_, ?_, ?_⟩
  · rw [hcore, coreGet_coreUpd_self, hstands]
  · rw [handlesOf_congr hkey]
    cases c <;> rfl
  · rw [hcore, coreGet_coreUpd_ne _ _ hd, hstands]
  · rw [hkey]
    cases c <;> rfl
  · have htbl := tbl_unlatched (coreUpd (relinquished s c) c cleared) c
    rw [coreReset_eq, htbl, hregs .unit (by simp), hheld .unit (by simp)]

end Sys2Proof.Machine
end

section
/-! OBLIGATIONS. The control role, the watchdog, the resets of cores and the program loader: O21. -/

namespace Sys2Proof.Machine

set_option Elab.async false

/-- Settles O21: the role moves with `moveRole`, whose window it is the writes reach; a reset is `coreReset`, part by part. -/
theorem controlRolesAndCoreResets : Obligations.ControlRolesAndCoreResets := by
  unfold Obligations.ControlRolesAndCoreResets
  refine ⟨fun s c hreach hc hactive hup => ?give, fun s c hreach hc hactive hgave => ?take, fun s c hreach hc hactive hgave hdown => ?unplanned,
    fun s hreach hactive => ?refused, fun s c hreach => ?wdog, fun s c hlive hram hwdog => ?forgives, fun s c hlive hram hwdog => ?expires,
    fun s c v hreach hc hreset hstaged => ?peer, fun s c hgate hmain => ?reset, fun s c w hreach hlock haddr => ?load, fun s c w hreach hlock => ?locked⟩
  case give =>
    obtain ⟨hkeeps, hmoved⟩ := handedOver_moveRole s (peerOf c) c
    have hgive : roleGive s c = handedOver (moveRole (roleOk s c) (peerOf c)) := by
      rw [roleGive, if_neg hc, if_neg (not_not_intro hactive), if_pos hup]
    exact ⟨_, (exec_pwrRoleGive hreach).trans (congrArg _ hgive), hmoved, hkeeps⟩
  case take =>
    obtain ⟨hkeeps, hmoved⟩ := handedOver_moveRole s c c
    have htake : roleTake s c = handedOver (moveRole (roleOk s c) c) := by
      simp only [roleTake, hc, hactive, hgave, Bool.or_true, Bool.not_true, Bool.false_eq_true, or_self, ↓reduceIte]
    exact ⟨_, (exec_pwrRoleTake hreach).trans (congrArg _ htake), hmoved, hkeeps⟩
  case unplanned =>
    have hgone : ((coreGet s (peerOf c)).halted || (coreGet s (peerOf c)).inReset) = true := Bool.or_eq_true_iff.2 hdown
    rw [exec_pwrRoleTake hreach]
    simp only [roleTake, hc, hactive, hgave, hgone, Bool.true_or, Bool.not_true, Bool.false_eq_true, or_self, ↓reduceIte]
  case refused =>
    have hown : s.unit.active = .a ∨ !((coreGet s (peerOf .a)).halted || (coreGet s (peerOf .a)).inReset || s.unit.gave) := .inl hactive
    rw [exec_pwrRoleTake hreach, roleTake, if_neg nofun, if_pos hown]
    rfl
  case wdog =>
    have hexec : exec (.pwrWdog c) s = execPwrWdog c s := rfl
    rw [hexec, execPwrWdog, winCmd_of_reaches hreach, wdogWrite, done]
  case forgives =>
    have hexec : exec (.watchdogExpire c) s = execWatchdogExpire c s := rfl
    rw [hexec, execWatchdogExpire, hlive, hram, Bool.and_self, State.when_true, if_pos hwdog, done]
  case expires =>
    have hexec : exec (.watchdogExpire c) s = execWatchdogExpire c s := rfl
    have hsilent : ¬ (coreGet s c).wdog = true := by simp [hwdog]
    rw [hexec, execWatchdogExpire, hlive, hram, Bool.and_self, State.when_true, if_neg hsilent, done]
  case peer =>
    have hexec : exec (.pwrPeerReset c v) s = execPwrPeerReset c v s := rfl
    rw [hexec, execPwrPeerReset, winCmd_of_reaches hreach]
    simp only [peerReset, hc, hreset, hstaged, Bool.not_true, Bool.false_eq_true, or_self, ↓reduceIte, done]
  case reset =>
    obtain ⟨hkeeps, hreset⟩ := coreReset_resets s c
    have hsupplied : (if c = .g then s.pow.standby else s.pow.mainUp) = true := by
      split
      · next hg => exact hgate hg
      · next hg => exact hmain hg
    have hexec : exec (.coreReset c) s = .next (coreReset s c) := by
      have hunfold : exec (.coreReset c) s = execCoreReset c s := rfl
      rw [hunfold, execCoreReset, hsupplied]
      rfl
    exact ⟨_, hexec, hreset, hkeeps⟩
  case load =>
    have hexec : exec (.idLoad c w) s = execIdLoad c w s := rfl
    rw [hexec, execIdLoad, winCmd_of_reaches hreach, done, idLoad]
    refine congrArg _ (coreUpd_congr ?_)
    rw [hlock, if_neg Bool.false_ne_true, if_pos haddr]
  case locked =>
    have hexec : exec (.idLoad c w) s = execIdLoad c w s := rfl
    rw [hexec, execIdLoad, winCmd_of_reaches hreach, done, idLoad]
    refine congrArg _ (Eq.trans (coreUpd_congr (g := id) ?_) (coreUpd_id s c))
    exact if_pos hlock

end Sys2Proof.Machine
end

section
/-! SUPPORT. Interrupt entry, the end of a unit's last work and the pulse crossings (08 R453, R463, 09 R503, 15 R815-R818). -/

namespace Sys2Proof.Machine

set_option Elab.async false

variable {s : State} {c : CoreId} {n u x : Nat}

/-! ### Interrupt entry -/

theorem takeable_none (h : (coreGet s c).st ≠ .normal ∨ (coreGet s c).ie = false) : takeable s c = none := by
  refine if_neg fun ⟨hst, hie⟩ => ?_
  rcases h with h | h
  · exact h hst
  · rw [h] at hie
    cases hie

theorem exec_interruptEntry_none (h : takeable s c = none) : exec (.interruptEntry c) s = .next s := by
  have hexec : exec (.interruptEntry c) s = execInterruptEntry c s := rfl
  rw [hexec, execInterruptEntry]
  simp only [h, done]

/-- Is the repeat interruptible? -/
def interruptible (r : RepState) : Bool := match r.x.rep with | .rep _ i => i | .repx i => i | .none => false

theorem exec_interruptEntry_some (hlive : coreLive s c = true) (hwaiting : (coreGet s c).waiting = false) (htake : takeable s c = some n) :
    exec (.interruptEntry c) s = .next (match (coreGet s c).rep with
      | none => takeIrq s c n (coreGet s c).pc.toNat
      | some r => if interruptible r then takeIrq (coreUpd s c fun k => { k with repc := r.left }) c n (coreGet s c).pc.toNat else s) := by
  have hexec : exec (.interruptEntry c) s = execInterruptEntry c s := rfl
  rw [hexec, execInterruptEntry]
  simp only [htake, hlive, hwaiting, Bool.not_true, Bool.or_self, Bool.false_eq_true, ↓reduceIte, done] <;> rfl

/-! ### The last work of a unit -/

/-- A unit without a lane to adopt shows drained; a DRAINING one is decided RETIRED (09 R503). -/
theorem unitDrained_eq (hlane : s.unit.adoptLane ≠ some u) : unitDrained s u = (s.onUnit fun m => { m with
    tbl := tupd {} m.tbl u fun x => if x.st = .absent then x else { x with drained := true }
    applyDrained := m.applyDrained || m.applyUnit == u }).when (unitSt s u == .draining) fun t => decideUnit t u .retired (unitEnt s u).reason := by
  rw [unitDrained]
  exact if_neg hlane

theorem unitEnt_unitDrained (hlane : s.unit.adoptLane ≠ some u) (hst : unitSt s u ≠ .absent) :
    unitEnt (unitDrained s u) u = { unitEnt s u with drained := true } := by
  have hshown : tget {} (tupd {} s.unit.tbl u fun x => if x.st = .absent then x else { x with drained := true }) u = { unitEnt s u with drained := true } := by
    have hvalue : (if (unitEnt s u).st = .absent then unitEnt s u else { unitEnt s u with drained := true }) = { unitEnt s u with drained := true } := if_neg hst
    rw [tget_tupd_self]
    · exact hvalue
    · intro hdefault
      have hdrained : true = false := congrArg UnitEnt.drained (hvalue.symm.trans hdefault)
      cases hdrained
  rw [unitDrained_eq hlane]
  cases unitSt s u == .draining <;> exact hshown

theorem decided_unitDrained (hlane : s.unit.adoptLane ≠ some u) : (unitDrained s u).unit.decided =
    if unitSt s u = .draining then s.unit.decided ++ [(u, .retired, (unitEnt s u).reason)] else s.unit.decided := by
  rw [unitDrained_eq hlane]
  split
  · next hst => rw [hst]; rfl
  · next hst => rw [beq_false_of_ne hst]; rfl

theorem keeps_unitDrained (hlane : s.unit.adoptLane ≠ some u) : Keeps [.unit] s (unitDrained s u) := by
  rw [unitDrained_eq hlane]
  exact (keeps_onUnit s _).trans (.when _ _ (keeps_onUnit _ _))

theorem exec_unitDrained (hst : unitSt s u = .draining ∨ unitSt s u = .disputed) (hnew : (unitEnt s u).drained = false) (hidle : unitBusy s u = false) :
    exec (.unitDrained u) s = .next (unitDrained s u) := by
  have hends : ((unitEnt s u).st == .draining || (unitEnt s u).st == .disputed) = true := by
    rcases hst with h | h <;> rw [unitSt] at h <;> rw [h] <;> rfl
  have hexec : exec (.unitDrained u) s = execUnitDrained u s := rfl
  rw [hexec, execUnitDrained]
  simp only [hends, hnew, hidle, Bool.not_false, Bool.and_self, State.when_true, done]

/-! ### Pulse crossings -/

/-- The end of the acknowledge phase for one crossing. -/
def phaseEnded (p : PulseX) : PulseX :=
  if !p.ack then p else if p.count = 0 then { p with ack := false } else { p with count := 0, events := p.events ++ [p.count] }

theorem exec_pulsePhaseEnd (x : Nat) (s : State) : exec (.pulsePhaseEnd x) s = .next (onPulse s x phaseEnded) := rfl

theorem phaseEnded_counted {p : PulseX} (hack : p.ack = true) (hcount : p.count ≠ 0) :
    phaseEnded p = { p with count := 0, events := p.events ++ [p.count] } := by
  simp only [phaseEnded, hack, hcount, Bool.not_true, Bool.false_eq_true, ↓reduceIte]

theorem phaseEnded_empty {p : PulseX} (hack : p.ack = true) (hcount : p.count = 0) : phaseEnded p = { p with ack := false } := by
  simp only [phaseEnded, hack, hcount, Bool.not_true, Bool.false_eq_true, ↓reduceIte]

end Sys2Proof.Machine
end

section
/-! OBLIGATIONS. Interrupts, posts by hardware, drained units and crossings: O38. -/

namespace Sys2Proof.Machine

set_option Elab.async false

/-- Settles O38, command by command. -/
theorem interruptsPostsAndCrossingsAct : Obligations.InterruptsPostsAndCrossingsAct := by
  unfold Obligations.InterruptsPostsAndCrossingsAct
  refine ⟨fun s c n hlive hwaiting htake => ?entry, fun s c hrefused => exec_interruptEntry_none (takeable_none hrefused),
    fun s u x r hmain hfitted hx => ?post, fun s u hst hnew hidle hlane => ?draining, fun s u hst hnew hidle hlane => ?disputed, fun s u hmain => ?stall,
    fun s x => rfl, fun s x l c r rest hreq => ?resync, fun s x => ?pulse, fun s x hack => ?phase⟩
  case entry =>
    rw [exec_interruptEntry_some hlive hwaiting htake]
    refine ⟨fun hrep => ?_, fun r d hrep hmode => ?_, fun r d hrep hmode => ?_⟩
    · simp only [hrep]
    · simp only [hrep, interruptible, hmode, ↓reduceIte]
    · simp only [hrep, interruptible, hmode, Bool.false_eq_true, ↓reduceIte]
  case post =>
    have hstate : (x == 1 || x == 3 || x == 6) = true := by simpa [or_assoc] using hx
    have hexec (q : BitVec 2) (hsource : (q == 0 || q == 2) = true) :
        exec (.observationPost u x q r) s = .next (post s { unit := u, st := x, source := q, reason := r }) := by
      have hunfold : exec (.observationPost u x q r) s = execObservationPost u x q r s := rfl
      rw [hunfold, execObservationPost, hmain, decide_eq_true hfitted, hstate, hsource]
      rfl
    exact ⟨hexec 0 rfl, hexec 2 rfl⟩
  case draining =>
    refine ⟨_, exec_unitDrained (.inl hst) hnew hidle, ⟨?_, ?_, ?_⟩, keeps_unitDrained hlane⟩
    · rw [unitEnt_unitDrained hlane (by simp [hst])]
    · rw [unitSt, unitEnt_unitDrained hlane (by simp [hst])]
      exact hst
    · rw [decided_unitDrained hlane, if_pos hst]
  case disputed =>
    refine ⟨_, exec_unitDrained (.inr hst) hnew hidle, ⟨?_, ?_, ?_⟩, keeps_unitDrained hlane⟩
    · rw [unitEnt_unitDrained hlane (by simp [hst])]
    · rw [unitSt, unitEnt_unitDrained hlane (by simp [hst])]
      exact hst
    · rw [decided_unitDrained hlane, if_neg (by simp [hst])]
  case stall =>
    have hexec : exec (.cdcStall u) s = execCdcStall u s := rfl
    rw [hexec, execCdcStall, hmain]
    rfl
  case resync =>
    have hdropped : dropItem s (l, c) = endReq s r .internalFault 0 := by simp only [dropItem, hreq]
    have hexec : exec (.crossingResync x ((l, c) :: rest)) s = execCrossingResync x ((l, c) :: rest) s := rfl
    rw [hexec, execCrossingResync, List.foldl_cons, hdropped]
    rfl
  case pulse =>
    have hexec : exec (.pulseDeliver x) s = execPulseDeliver x s := rfl
    rw [hexec, execPulseDeliver]
    simp only [Bool.not_eq_true', done]
  case phase =>
    refine ⟨_, exec_pulsePhaseEnd x s, ⟨fun hcount => ?_, fun hcount hwf => ?_⟩, keeps_onTele s _⟩
    · have hcounted := phaseEnded_counted hack hcount
      refine (tget_tupd_self fun hdefault => ?_).trans hcounted
      rw [hcounted] at hdefault
      exact List.append_ne_nil_of_right_ne_nil _ (List.cons_ne_nil _ _) (congrArg PulseX.events hdefault)
    · exact (tget_tupd hwf).trans (phaseEnded_empty hack hcount)

end Sys2Proof.Machine
end

section
/-! OBLIGATIONS. The source that an interrupt is taken from: O54. -/

namespace Sys2Proof.Machine

set_option Elab.async false

/-- A core's source `n` is pending and enabled. -/
def pendingEnabled (s : State) (c : CoreId) (n : Nat) : Bool := (pendingBits s c).getLsbD n && (tget 0 s.unit.irqEn (coreIdx c)).getLsbD n

variable {s : State} {c : CoreId} {n : Nat}

theorem pendingSource_eq (s : State) (c : CoreId) : pendingSource s c = (List.range 32).find? (pendingEnabled s c) := by
  simp only [pendingSource, BitVec.getLsbD_and]
  rfl

/-- The source of an interrupt is the lowest of those pending and enabled (09 R494). -/
theorem pendingSource_lowest (hn : pendingEnabled s c n = true) (hlower : ∀ m, m < n → pendingEnabled s c m = false) : pendingSource s c = some n := by
  obtain ⟨hpending, -⟩ := Bool.and_eq_true_iff.1 hn
  rw [pendingSource_eq, List.find?_range_eq_some]
  exact ⟨hn, List.mem_range.2 (BitVec.lt_of_getLsbD hpending), fun m hm => by rw [hlower m hm, Bool.not_false]⟩

theorem pendingSource_none (hall : ∀ n, pendingEnabled s c n = false) : pendingSource s c = none := by
  rw [pendingSource_eq, List.find?_eq_none]
  exact fun n _ => by rw [hall n]; exact Bool.false_ne_true

/-- In state NORMAL with IE set, what is pending and enabled may be taken (08 R463). -/
theorem takeable_normal (hst : (coreGet s c).st = .normal) (hie : (coreGet s c).ie = true) : takeable s c = pendingSource s c := if_pos ⟨hst, hie⟩

/-- Settles O54: the source searched for from 0 upwards is the lowest, and entry from it leaves its cause in the frame. -/
theorem lowestPendingSourceIsTaken : Obligations.LowestPendingSourceIsTaken := by
  unfold Obligations.LowestPendingSourceIsTaken
  intro s c hlive hwaiting hrep hst hie hram both
  have htake := takeable_normal hst hie
  refine ⟨fun n hn hlower => ?taken, fun hall => ?idle⟩
  case taken =>
    rw [pendingSource_lowest hn hlower] at htake
    have hexec : exec (.interruptEntry c) s = .next (takeIrq s c n (coreGet s c).pc.toNat) := by
      rw [exec_interruptEntry_some hlive hwaiting htake, hrep]
    have hframe (i : Nat) (hi : i < 8) : ramGet (takeIrq s c n (coreGet s c).pc.toNat) c (frameBase true + i) =
        (frameWords (coreGet s c) (0x100 + n) (intW 0) (coreGet s c).pc.toNat)[i] :=
      ramGet_enter_frame true (0x100 + n) (intW 0) (coreGet s c).pc.toNat 0x800 0x24 hram hi
    refine ⟨_, hexec, hframe 3 (by decide), hframe 0 (by decide), ?_⟩
    rw [takeIrq, coreGet_enter]
    exact ⟨by cases c <;> rfl, rfl⟩
  case idle =>
    rw [pendingSource_none hall] at htake
    exact exec_interruptEntry_none htake

end Sys2Proof.Machine
end

section
/-! SUPPORT. The commands of the KEY window: what carries each out, the handles it enters and takes out, its end (09 R484-R486, 10 R551-R553). -/

namespace Sys2Proof.Machine

set_option Elab.async false

variable {s t : State} {c : CoreId}

/-! ### A command that is carried out -/

/-- The act of each command code of KEY_CMD (09 R486). -/
def keyAct (s : State) (c : CoreId) : Nat → State
  | 0x01 => keyOpen s c
  | 0x02 => keyClose s c
  | 0x03 => keyImport s c
  | 0x04 => keyDerive s c
  | 0x05 => keyRetire s c
  | 0x06 => keyVerify s c
  | 0x07 => keyMac s c
  | 0x08 => keyWrap s c
  | 0x09 => keyUnwrap s c
  | 0x0A => keyAttest s c
  | _ => keyFail s c .badFormat

/-- With no command running and the key engine taking work, a command code has its act. -/
theorem keyCmd_of_free (h : KeyFree s c) (v : Nat) : keyCmd s c v = keyAct s c v := by
  obtain ⟨-, hidle, htakes⟩ := h
  unfold keyCmd
  rw [hidle, htakes]
  rfl

theorem done_keyCmd (h : KeyFree s c) (v : Nat) : done (winCmd s c 0x8000 false (keyCmd · c v)) = .next (keyAct s c v) := by
  rw [winCmd_of_reaches h.1, keyCmd_of_free h, done]

theorem exec_keyCmdOpen (h : KeyFree s c) : exec (.keyCmdOpen c) s = .next (keyOpen s c) := done_keyCmd h 0x01
theorem exec_keyCmdClose (h : KeyFree s c) : exec (.keyCmdClose c) s = .next (keyClose s c) := done_keyCmd h 0x02
theorem exec_keyCmdImport (h : KeyFree s c) : exec (.keyCmdImport c) s = .next (keyImport s c) := done_keyCmd h 0x03
theorem exec_keyCmdDerive (h : KeyFree s c) : exec (.keyCmdDerive c) s = .next (keyDerive s c) := done_keyCmd h 0x04
theorem exec_keyCmdRetire (h : KeyFree s c) : exec (.keyCmdRetire c) s = .next (keyRetire s c) := done_keyCmd h 0x05
theorem exec_keyCmdVerify (h : KeyFree s c) : exec (.keyCmdVerify c) s = .next (keyVerify s c) := done_keyCmd h 0x06
theorem exec_keyCmdMac (h : KeyFree s c) : exec (.keyCmdMac c) s = .next (keyMac s c) := done_keyCmd h 0x07
theorem exec_keyCmdTransportWrap (h : KeyFree s c) : exec (.keyCmdTransportWrap c) s = .next (keyWrap s c) := done_keyCmd h 0x08
theorem exec_keyCmdTransportUnwrap (h : KeyFree s c) : exec (.keyCmdTransportUnwrap c) s = .next (keyUnwrap s c) := done_keyCmd h 0x09
theorem exec_keyCmdAttest (h : KeyFree s c) : exec (.keyCmdAttest c) s = .next (keyAttest s c) := done_keyCmd h 0x0A

/-- A command of the active core is not denied it (09 R486). -/
theorem keyActive_active (h : s.unit.active = c) (f : State) : keyActive s c f = f := if_pos h

/-! ### Handles (10 R551-R553) -/

theorem keeps_keyRun (s : State) (r : KeyRun) : Keeps [.key] s (keyRun s r) := keeps_onKey s _

/-- A key resolved is the one that its slot holds. -/
theorem eq_slotOf_of_resolve {u : KeyUser} {k : KeyRef} {kinds : List (BitVec 8)} {x : Slot} (h : resolve s u k kinds = .ok x) : x = slotOf s k.slot := by
  simp only [resolve] at h
  split at h
  · cases h
  · split at h
    · cases h
    · split at h
      · cases h
      · exact (Except.ok.inj h).symm

/-- A command that ends after a change of its core's handles. -/
theorem keyRun_onHandles (hc : c ≠ .g) (f : List Handle → List Handle) (r : KeyRun) :
    handlesOf (keyRun (onHandles s c f) r) c = f (handlesOf s c) ∧ (keyRun (onHandles s c f) r).key.slots = s.key.slots ∧
      Keeps [.key] s (keyRun (onHandles s c f) r) := by
  refine ⟨?_, ?_, (keeps_onHandles s c f).trans (keeps_keyRun _ r)⟩
  · cases c with
    | g => exact absurd rfl hc
    | _ => rfl
  · cases c <;> rfl

theorem keyOpen_resolved {x : Slot} (hx : resolve s (.core c) { slot := regSlot s, gen := regGen s } allKinds = .ok x) (hroom : handleFull s c = false) :
    keyOpen s c = giveHandle s c (regSlot s) (slotOf s (regSlot s)).gen (slotOf s (regSlot s)).kind := by
  simp only [keyOpen, hx, hroom, Bool.false_eq_true, ↓reduceIte, eq_slotOf_of_resolve hx]

/-- A checked key is stored where a handle can be given and the DRBG serves (10 R552, 11 R635). -/
theorem storeGive_eq (s : State) (c : CoreId) (v : Nat) (k : NewKey) (gen origin : Nat) : storeGive s c v k gen origin =
    if handleFull s c then keyFail s c .keyDenied else if rngServes s = false then keyHold s c v
    else giveHandle (storeSlot s k.slot gen k.kind origin k.parent k.attrs k.material) c k.slot gen k.kind := by
  simp only [storeGive, Bool.not_eq_true']

/-! ### The end of a command (09 R484, 11 R635) -/

theorem irqMain_unit_congr (h : t.unit = s.unit) (n : Nat) : (irqMain t n).unit = (irqMain s n).unit := by
  simp only [irqMain, irq, State.onUnit_unit, h]

theorem exec_keyCommandEnd_held {v : Nat} (h : s.key.cmdHeld = some (c, v)) : exec .keyCommandEnd s =
    .next (s.when (rngServes s) fun s => keyEnd (keyCmd (s.onKey fun k => { k with cmdBusy := false, cmdHeld := none }) c v)) := by
  have hexec : exec .keyCommandEnd s = execKeyCommandEnd s := rfl
  rw [hexec, execKeyCommandEnd, h, done]

/-- What the end of a command shows: status, handle and result. -/
def keyShown (r : KeyRun) (k : KeySt) : KeySt :=
  { k with cmdBusy := false, cmdDone := true, cmdCode := r.code, cmdRun := none, handleOut := r.handle.getD k.handleOut, result := r.result.getD k.result }

theorem exec_keyCommandEnd_run {r : KeyRun} (hrun : s.key.cmdRun = some r) (hheld : s.key.cmdHeld = none) (hcommitted : keyAppends s = false) :
    exec .keyCommandEnd s = .next (irqMain ((writeStr s r.core s.key.outAddr.toNat r.out).onKey (keyShown r)) 10) := by
  have hexec : exec .keyCommandEnd s = execKeyCommandEnd s := rfl
  rw [hexec, execKeyCommandEnd, hheld, keyEnd, hrun]
  simp only [hcommitted, Bool.false_eq_true, ↓reduceIte, done]
  rfl

end Sys2Proof.Machine
end

section
/-! OBLIGATIONS. The commands of the KEY window: O14 and O15. -/

namespace Sys2Proof.Machine

set_option Elab.async false

/-- Settles O14, command by command: each is carried out by its act; what waits for the DRBG or has its records committed goes by KEY_COMMAND_END. -/
theorem keyWindowHandlesAndStores : Obligations.KeyWindowHandlesAndStores := by
  unfold Obligations.KeyWindowHandlesAndStores
  refine ⟨fun s c x hfree hc hx hroom => ?opens, fun s c => ?closes, fun s c b hfree hactive hin => ?imports, fun s c b p x hfree hactive hin hparent => ?derives,
    fun s c k x hfree hactive hkey hslot => ?retires, fun s c v hheld => ⟨fun hwaits => ?waits, fun hserves => ?carried, fun hrng => ?expires⟩,
    fun s r hrun hheld hcommitted => ?ends⟩
  case opens =>
    obtain ⟨hhandles, hslots, hkeeps⟩ := keyRun_onHandles (s := s) hc
      (· ++ [{ slot := regSlot s, gen := (slotOf s (regSlot s)).gen, kind := (slotOf s (regSlot s)).kind }])
      { core := c, handle := some (handleOf (regSlot s) (slotOf s (regSlot s)).gen (slotOf s (regSlot s)).kind) }
    exact ⟨_, (exec_keyCmdOpen hfree).trans (congrArg _ (keyOpen_resolved hx hroom)), ⟨rfl, hhandles, rfl, hslots⟩, hkeeps⟩
  case closes =>
    intro mine hfree hc htag hmine
    have hclose : keyClose s c = keyRun (onHandles s c fun l => (takeFirst mine l).2) { core := c } := if_pos ⟨htag, hmine⟩
    obtain ⟨hhandles, hslots, hkeeps⟩ := keyRun_onHandles (s := s) hc (fun l => (takeFirst mine l).2) { core := c }
    exact ⟨_, (exec_keyCmdClose hfree).trans (congrArg _ hclose), ⟨rfl, hhandles, hslots⟩, hkeeps⟩
  case imports =>
    rw [exec_keyCmdImport hfree, keyImport, keyActive_active hactive, hin]
    cases hcheck : checkImport s (.core c) (bodyRegs s b) with
    | error e => simp only [hcheck]
    | ok k =>
      simp only [hcheck]
      exact congrArg _ (storeGive_eq s c 0x03 k _ 2)
  case derives =>
    rw [exec_keyCmdDerive hfree, keyDerive, keyActive_active hactive, hin, hparent]
    cases hcheck : checkDerive s (.core c) (patch (bodyRegs s b) 8 (keyBytes (some p))) with
    | error e => simp only [hcheck]
    | ok k =>
      simp only [hcheck]
      exact congrArg _ (storeGive_eq s c 0x04 k _ 3)
  case retires =>
    rw [exec_keyCmdRetire hfree, keyRetire, keyActive_active hactive, hkey]
    simp only [hslot, Option.isSome_none, Bool.false_eq_true, ↓reduceIte]
  case waits => rw [exec_keyCommandEnd_held hheld, hwaits, State.when_false]
  case carried => rw [exec_keyCommandEnd_held hheld, hserves, State.when_true]
  case expires =>
    have hexec : exec (.drbgRequestTimeout c) s = execDrbgRequestTimeout c s := rfl
    rw [hexec, execDrbgRequestTimeout, hrng, if_neg Bool.false_ne_true, hheld]
    simp only [beq_self_eq_true, State.when_true, done]
  case ends =>
    have hwrites := keeps_writeStr s r.core s.key.outAddr.toNat r.out
    have hshows := keeps_onKey (writeStr s r.core s.key.outAddr.toNat r.out) (keyShown r)
    have hraises := keeps_irqMain ((writeStr s r.core s.key.outAddr.toNat r.out).onKey (keyShown r)) 10
    have hkey : (irqMain ((writeStr s r.core s.key.outAddr.toNat r.out).onKey (keyShown r)) 10).key = keyShown r s.key :=
      (hraises .key (by simp)).trans (congrArg (keyShown r) (hwrites .key (by simp)))
    refine ⟨_, exec_keyCommandEnd_run hrun hheld hcommitted, ?_,
      ((hwrites.mono (by simp)).trans (hshows.mono (by simp))).trans (hraises.mono (by simp))⟩
    beta_reduce
    rw [hkey]
    exact ⟨rfl, rfl, rfl, rfl, rfl, hraises .core (by simp), irqMain_unit_congr (hwrites .unit (by simp)) 10⟩

/-- Settles O15, command by command: past the checks of its input and of the handles it names, each prepares the result stated. -/
theorem keyWindowComputes : Obligations.KeyWindowComputes := by
  unfold Obligations.KeyWindowComputes
  refine ⟨fun s c b k x hfree hin hkey hlong => ?verifies, fun s c b k x hfree hin hkey => ?macs, fun s c k j x y hfree hactive hkey htransport hcarried hserves => ?wraps,
    fun s c b j y hfree hactive hin htransport => ?unwraps, fun s c ch x hfree htakes hread hsecret => ?attests⟩
  case verifies =>
    rw [exec_keyCmdVerify hfree, keyVerify, hin, hkey]
    simp only [Nat.not_lt.2 hlong, ↓reduceIte]
  case macs => rw [exec_keyCmdMac hfree, keyMac, hin, hkey]
  case wraps =>
    rw [exec_keyCmdTransportWrap hfree, keyWrap, keyActive_active hactive, hkey, htransport]
    simp only [hcarried, hserves, Bool.not_true, Bool.false_eq_true, ↓reduceIte]
  case unwraps =>
    rw [exec_keyCmdTransportUnwrap hfree, keyUnwrap, keyActive_active hactive, hin, htransport]
    cases hblob : openBlob y.material b (regSlot s) 0 (twinAddr s) with
    | none => simp only [hblob]
    | some kg => simp only [hblob, storeGive_eq, Bool.not_eq_true']
  case attests =>
    rw [exec_keyCmdAttest hfree, keyAttest, htakes, hread, hsecret]
    rfl

end Sys2Proof.Machine
end

section
/-! OBLIGATIONS. Retirement is final: O48. -/

namespace Sys2Proof.Machine

-- One theorem at a time: the check's memory limit leaves no room for a thread for each.
set_option Elab.async false

/-- With the life-cycle fuse at RETIRED nothing else decides the life-cycle state (10 R570, R571). -/
theorem lifecycle_of_retired {s : State} (h : s.key.fuse = 3) : lifecycle s = 5 := by
  simp [lifecycle, h]

/-- Settles O48: `Stays` relates the states before and after every step and keeps both fuses; the life-cycle fuse alone makes RETIRED. -/
theorem retirementIsFinal : Obligations.RetirementIsFinal := by
  intro s t hstep
  have h : Stays s t := .of_step hstep
  exact ⟨fun hs => ⟨h.retired hs, lifecycle_of_retired hs, lifecycle_of_retired (h.retired hs)⟩, h.rootKill⟩

end Sys2Proof.Machine
end

section
/-! SUPPORT. The data plane stays closed (10 R572): the predicate of a state with the plane closed, and how branches, folds, outcomes and named
updates keep it. -/

namespace Sys2Proof.Machine

-- One theorem at a time: the check's memory limit leaves no room for a thread for each.
set_option Elab.async false

/-- The data plane is closed. An update of any other field gives a state for which this is the same statement, so `h : Shut t` proves it there
too; every operation but the opening of the plane keeps it. -/
def Shut (t : State) : Prop := t.hq.open_ = false

/-- The plane is closed in every state that an outcome holds; one definition for each type of outcome. -/
def ShutNext (r : Result) : Prop := ∀ t, r = .next t → Shut t
def ShutSome (o : Option State) : Prop := ∀ t, o = some t → Shut t
def ShutPlace {α : Type} (o : Option (State × α)) : Prop := ∀ t x, o = some (t, x) → Shut t
def ShutOk {ε : Type} (x : Except ε State) : Prop := ∀ t, x = .ok t → Shut t
def ShutBody {ε : Type} (x : Except ε (State × Bytes)) : Prop := ∀ t b, x = .ok (t, b) → Shut t
def ShutBus (b : Bus) : Prop := ∀ w t, b = .ok w t → Shut t

variable {t u : State}

/-- A change of parts that do not hold the plane's state. -/
theorem Shut.of_keeps {l : List Part} (h : Shut t) (hk : Keeps l t u) (hl : Part.hq ∉ l := by decide) : Shut u :=
  (congrArg HqSt.open_ (hk .hq hl)).trans h

/-! ### Branches, folds and outcomes -/

theorem Shut.ite {c : Prop} [Decidable c] (ht : Shut t) (hu : Shut u) : Shut (if c then t else u) := by
  split
  · exact ht
  · exact hu

theorem Shut.when {b : Bool} {f : State → State} (h : Shut t) (hf : ∀ {u}, Shut u → Shut (f u)) : Shut (t.when b f) :=
  .ite (hf h) h

theorem Shut.foldl {α : Type} {f : State → α → State} {l : List α} (h : Shut t) (hf : ∀ {u} x, Shut u → Shut (f u x)) :
    Shut (l.foldl f t) := by
  induction l generalizing t with
  | nil => exact h
  | cons x l ih => exact ih (hf x h)

theorem Shut.foldlFst {α β : Type} {f : State × β → α → State × β} {l : List α} {p : State × β} (h : Shut p.1)
    (hf : ∀ {q} x, Shut q.1 → Shut (f q x).1) : Shut (l.foldl f p).1 := by
  induction l generalizing p with
  | nil => exact h
  | cons x l ih => exact ih (hf x h)

theorem ShutNext.done (h : Shut t) : ShutNext (done t) := by rintro _ ⟨⟩; exact h

theorem ShutSome.get {o : Option State} (h : ShutSome o) (e : o = some t) : Shut t := h t e
theorem ShutPlace.get {α : Type} {o : Option (State × α)} {x : α} (h : ShutPlace o) (e : o = some (t, x)) : Shut t := h t x e
theorem ShutOk.get {ε : Type} {x : Except ε State} (h : ShutOk x) (e : x = .ok t) : Shut t := h t e
theorem ShutBody.get {ε : Type} {x : Except ε (State × Bytes)} {b : Bytes} (h : ShutBody x) (e : x = .ok (t, b)) : Shut t := h t b e
theorem ShutBus.get {b : Bus} {w : W36} (h : ShutBus b) (e : b = .ok w t) : Shut t := h w t e

theorem ShutSome.map {α : Type} {o : Option α} {f : α → State} (hf : ∀ x, o = some x → Shut (f x)) : ShutSome (o.map f) := by
  cases o with
  | none => rintro _ ⟨⟩
  | some x => rintro _ ⟨⟩; exact hf x rfl

theorem Shut.getD {o : Option State} (ho : ShutSome o) (h : Shut t) : Shut (o.getD t) := by
  cases o with
  | none => exact h
  | some u => exact ho u rfl

theorem ShutOk.error {ε : Type} {e : ε} : ShutOk (.error e) := by rintro _ ⟨⟩
theorem ShutOk.ok {ε : Type} (h : Shut t) : ShutOk (ε := ε) (.ok t) := by rintro _ ⟨⟩; exact h
theorem ShutOk.ite {ε : Type} {c : Prop} [Decidable c] {x y : Except ε State} (hx : ShutOk x) (hy : ShutOk y) : ShutOk (if c then x else y) := by
  split
  · exact hx
  · exact hy

theorem ShutBody.error {ε : Type} {e : ε} : ShutBody (.error e) := by rintro _ _ ⟨⟩
theorem ShutBody.ok {ε : Type} {b : Bytes} (h : Shut t) : ShutBody (ε := ε) (.ok (t, b)) := by rintro _ _ ⟨⟩; exact h
theorem ShutBody.ite {ε : Type} {c : Prop} [Decidable c] {x y : Except ε (State × Bytes)} (hx : ShutBody x) (hy : ShutBody y) :
    ShutBody (if c then x else y) := by
  split
  · exact hx
  · exact hy

theorem ShutBus.bad {i : TrapInfo} {b : Bool} : ShutBus (.bad i b) := by rintro _ _ ⟨⟩
theorem ShutBus.ok {w : W36} (h : Shut t) : ShutBus (.ok w t) := by rintro _ _ ⟨⟩; exact h
theorem ShutBus.ite {c : Prop} [Decidable c] {x y : Bus} (hx : ShutBus x) (hy : ShutBus y) : ShutBus (if c then x else y) := by
  split
  · exact hx
  · exact hy

/-! ### The named updates -/

/-- A change of the host queue engine that leaves its `open_` as it is. -/
theorem Shut.onHq {f : HqSt → HqSt} (h : Shut t) (hf : (f t.hq).open_ = t.hq.open_ := by with_reducible rfl) : Shut (t.onHq f) := hf.trans h
theorem Shut.onLane {f : LaneBank → LaneBank} (h : Shut t) : Shut (t.onLane f) := h
theorem Shut.onHbm {f : HbmSt → HbmSt} (h : Shut t) : Shut (t.onHbm f) := h
theorem Shut.onLed {f : LedgerSt → LedgerSt} (h : Shut t) : Shut (t.onLed f) := h
theorem Shut.onDrives {f : Tbl Drive → Tbl Drive} (h : Shut t) : Shut (t.onDrives f) := h
theorem Shut.onFab {f : FabSt → FabSt} (h : Shut t) : Shut (t.onFab f) := h
theorem Shut.onKey {f : KeySt → KeySt} (h : Shut t) : Shut (t.onKey f) := h
theorem Shut.onDig {f : DigSt → DigSt} (h : Shut t) : Shut (t.onDig f) := h
theorem Shut.onRng {f : RngSt → RngSt} (h : Shut t) : Shut (t.onRng f) := h
theorem Shut.onStore {f : RecSt → RecSt} (h : Shut t) : Shut (t.onStore f) := h
theorem Shut.onTime {f : TimeSt → TimeSt} (h : Shut t) : Shut (t.onTime f) := h
theorem Shut.onUnit {f : UnitSt → UnitSt} (h : Shut t) : Shut (t.onUnit f) := h
theorem Shut.onCore {f : Cores → Cores} (h : Shut t) : Shut (t.onCore f) := h
theorem Shut.onTmp {f : TamperSt → TamperSt} (h : Shut t) : Shut (t.onTmp f) := h
theorem Shut.onMgt {f : MgtSt → MgtSt} (h : Shut t) : Shut (t.onMgt f) := h
theorem Shut.onPow {f : PowerSt → PowerSt} (h : Shut t) : Shut (t.onPow f) := h
theorem Shut.onTele {f : TeleSt → TeleSt} (h : Shut t) : Shut (t.onTele f) := h
theorem Shut.onOut {f : OutSt → OutSt} (h : Shut t) : Shut (t.onOut f) := h

end Sys2Proof.Machine
end

section
/-! SUPPORT. A closed data plane stays closed: each shared operation, the NOR array and the record store. -/

namespace Sys2Proof.Machine

-- One theorem at a time: the check's memory limit leaves no room for a thread for each.
set_option Elab.async false

variable {t : State}

/-! ### Shared operations -/

theorem Shut.coreUpd {c : CoreId} {f : Core → Core} (h : Shut t) : Shut (coreUpd t c f) := h.of_keeps (keeps_coreUpd _ _ _)
theorem Shut.setUnit {v : Nat} {st : UState} {reason : Byte} (h : Shut t) : Shut (setUnit t v st reason) := h
theorem Shut.ring {b : Bell} (h : Shut t) : Shut (ring t b) := h
theorem Shut.irq {c : CoreId} {n : Nat} (h : Shut t) : Shut (irq t c n) := h
theorem Shut.irqMain {n : Nat} (h : Shut t) : Shut (irqMain t n) := .irq (.irq h)
theorem Shut.irqAll {n : Nat} (h : Shut t) : Shut (irqAll t n) := .irq (.irqMain h)
theorem Shut.mgtAlert {bit : Nat} (h : Shut t) : Shut (mgtAlert t bit) := h
theorem Shut.dbAlert (h : Shut t) : Shut (dbAlert t) := .mgtAlert (.ring h)
theorem Shut.post {p : Post} (h : Shut t) : Shut (post t p) := h.of_keeps (keeps_post _ _)

theorem Shut.observe {unit : Nat} {st : UState} {source : BitVec 2} {reason : Byte} (h : Shut t) : Shut (observe t unit st source reason) :=
  h.of_keeps (keeps_observe _ _ _ _ _)

theorem Shut.signal {v : Nat} (h : Shut t) : Shut (signal t v) := .ite h h
theorem Shut.cause {n : Nat} (h : Shut t) : Shut (cause t n) := .when h .signal
theorem Shut.count {off n : Nat} (h : Shut t) : Shut (count t off n) := h
theorem Shut.gauge {off : Nat} {v : BitVec 64} (h : Shut t) : Shut (gauge t off v) := h
theorem Shut.mirrorTime (h : Shut t) : Shut (mirrorTime t) := h
theorem Shut.drew {n : Nat} (h : Shut t) : Shut (drew t n) := h
theorem Shut.closePlane (t : State) : Shut (closePlane t) := .cause (t := (t.onHq fun h => { h with open_ := false }).onPow _) rfl
theorem Shut.onSq {n : Nat} {f : SqRing → SqRing} (h : Shut t) : Shut (onSq t n f) := h
theorem Shut.onCq {n : Nat} {f : CqRing → CqRing} (h : Shut t) : Shut (onCq t n f) := h
theorem Shut.moderate {n : Nat} (h : Shut t) : Shut (moderate t n) := .when h fun h => .signal (.onCq h)
theorem Shut.countComp {kind : BitVec 2} {c : Comp} {us : Nat} (h : Shut t) : Shut (countComp t kind c us) := h.of_keeps (keeps_countComp _ _ _ _)

theorem Shut.complete {sq : Nat} {dropped : Bool} {fetched : Nat} {c : Comp} {outs : List HostWrite} (h : Shut t) :
    Shut (complete t sq dropped fetched c outs) := by
  unfold Machine.complete
  extract_lets s1 s2
  have h2 : Shut s2 := .when (.onOut h) .cause
  exact .ite h2 (.ite (.moderate (.countComp (.when (.onCq (.onOut (.onCq (.onSq h2)))) .onCq))) (.onCq (.onSq h2)))

/-! ### Words and strings in data RAM -/

theorem Shut.writeStr {c : CoreId} {a : Nat} {b : Bytes} (h : Shut t) : Shut (writeStr t c a b) := h.of_keeps (keeps_writeStr _ _ _ _)

/-! ### The NOR array -/

theorem Shut.progPage {n : Nat} {b : Bytes} (h : Shut t) : Shut (progPage t n b) := h.of_keeps (keeps_progPage _ _ _)
theorem Shut.progPages {r : Record} {n : Nat} (h : Shut t) : Shut (progPages t r n) := h.of_keeps (keeps_progPages _ _ _)
theorem Shut.writeRec {r : Record} {w : BitVec 32} (h : Shut t) : Shut (writeRec t r w) := h.of_keeps (keeps_writeRec _ _ _)
theorem Shut.killRecs {p : Record → Bool} (h : Shut t) : Shut (killRecs t p) := h.of_keeps (keeps_killRecs _ _)

/-! ### The record store -/

theorem Shut.useSector {part : BitVec 2} {n : Nat} (h : Shut t) : Shut (useSector t part n) := h.of_keeps (keeps_useSector _ _ _)
theorem ShutPlace.placeIn {part : BitVec 2} {pages : Nat} (h : Shut t) : ShutPlace (placeIn t part pages) := fun _ _ e => h.of_keeps (keeps_placeIn e)
theorem Shut.closeSector {n : Nat} (h : Shut t) : Shut (closeSector t n) := h
theorem ShutSome.copyForward {rs : List Record} (h : Shut t) : ShutSome (copyForward t rs) := fun _ e => h.of_keeps (keeps_copyForward e)
theorem Shut.releaseSector {n : Nat} (h : Shut t) : Shut (releaseSector t n) := h.of_keeps (keeps_releaseSector _ _)
theorem Shut.eraseSector {sector : Nat} (h : Shut t) : Shut (eraseSector t sector) := .when h .mgtAlert

theorem Shut.evacuate {n : Nat} (h : Shut t) : Shut (evacuate t n) := by
  unfold Machine.evacuate
  split
  next e =>
    exact .eraseSector ((ShutSome.copyForward (.closeSector h)).get e)
  · exact h

theorem Shut.compact {part : BitVec 2} (h : Shut t) : Shut (compact t part) := h.of_keeps (keeps_compact _ _)
theorem Shut.txnDone {part : BitVec 2} {txn : Nat} (h : Shut t) : Shut (txnDone t part txn) := h.of_keeps (keeps_txnDone _ _ _)
theorem ShutSome.commitRec {src : AppendSrc} {r : Record} (h : Shut t) : ShutSome (commitRec t src r) := fun _ e => h.of_keeps (keeps_commitRec e)
theorem ShutSome.writeDead {r : Record} (h : Shut t) : ShutSome (writeDead t r) := .map fun _ e => .writeRec ((ShutPlace.placeIn h).get e)
theorem Shut.beginHead (h : Shut t) : Shut (beginHead t) := .when h id

theorem Shut.appendRecord {src : AppendSrc} {r : Record} (h : Shut t) : Shut (appendRecord t src r) := by
  unfold Machine.appendRecord
  refine .ite ?_ (.beginHead h)
  split
  next e =>
    exact (ShutSome.commitRec h).get e
  · exact .ite (.beginHead (.compact h)) (.observe h)

theorem Shut.append {src : AppendSrc} {part : BitVec 2} {typ : BitVec 16} {id : Nat} {payload : Bytes} (h : Shut t) :
    Shut (append t src part typ id payload) :=
  h.of_keeps (keeps_append _ _ _ _ _ _)

theorem Shut.openTx {src : AppendSrc} {part : BitVec 2} {parts : Nat} (h : Shut t) : Shut (openTx t src part parts) := h
theorem Shut.hotPut {slot : Nat} {v : BitVec 64} (h : Shut t) : Shut (hotPut t slot v) := h
theorem Shut.startSave (h : Shut t) : Shut (startSave t) := .when h fun h => .onStore (.hotPut (.hotPut h))
theorem Shut.finishSave (h : Shut t) : Shut (finishSave t) := .when h fun h => .ite h (.onStore (.writeRec (.when h .useSector)))

/-! ### Telemetry -/

theorem ShutNext.execTelemetryRefresh {mainTemp gateTemp : Nat} (h : Shut t) : ShutNext (execTelemetryRefresh mainTemp gateTemp t) :=
  .done (.when h fun h => .when (.onTele (.foldl (.foldl (.gauge (.gauge (.gauge h))) fun _ h => .gauge h) fun _ h => .gauge h)) fun h =>
    .onTele (.foldl h fun _ h => .ite (.hotPut h) h))

end Sys2Proof.Machine
end

section
/-! SUPPORT. A closed data plane stays closed: the host queue engine, the keys and the fabric. -/

namespace Sys2Proof.Machine

-- One theorem at a time: the check's memory limit leaves no room for a thread for each.
set_option Elab.async false

variable {t : State}

/-! ### The host queue engine -/

theorem Shut.doorbellErr {was : RingState} (h : Shut t) : Shut (doorbellErr t was) := .ite h (.irqMain (.cause h))
theorem Shut.takeIndex {n : Nat} (h : Shut t) : Shut (takeIndex t n) := .onCq (.onHq (.onSq h))
theorem Shut.ungate {l : Nat} (h : Shut t) : Shut (ungate t l) := h.of_keeps (keeps_ungate _ _)

theorem Shut.callHook {c : CoreId} {addr : Nat} {ie : Bool} {y : Option W36} (h : Shut t) : Shut (callHook t c addr ie y) :=
  h.of_keeps (keeps_callHook _ _ _ _ _)

theorem Shut.hookInit {c : CoreId} (h : Shut t) : Shut (hookInit t c) := h.of_keeps (keeps_hookInit _ _)
theorem Shut.fetchCtl {entry : Bytes} (h : Shut t) : Shut (fetchCtl t entry) := .when h fun h => .onHq (.takeIndex (.hookInit h))

theorem Shut.dispatchEntry {n : Nat} {e : HeldEntry} {lane ctx : Nat} (h : Shut t) : Shut (dispatchEntry t n e lane ctx) :=
  h.of_keeps (keeps_dispatchEntry _ _ _ _ _)

theorem Shut.fetchEntry {n : Nat} {entry : Bytes} {lane ctx : Nat} (h : Shut t) : Shut (fetchEntry t n entry lane ctx) := by
  unfold Machine.fetchEntry
  extract_lets _ _ _ s1 _
  have h1 : Shut s1 := .takeIndex h
  split
  · exact .ite (.dispatchEntry (.onSq h)) h
  · exact .ite h (.ite (.onSq h1) (.ite (.dispatchEntry h1) h))

theorem Shut.cqDisable {n : Nat} (h : Shut t) : Shut (cqDisable n t) := .when h fun h => .ite (.onCq h) (.onCq h)
theorem Shut.sqTail {n : Nat} {value : BitVec 32} (h : Shut t) : Shut (sqTail n value t) := .when h fun h => .ite (.onSq h) (.doorbellErr (.onSq h))
theorem Shut.cqHead {n : Nat} {value : BitVec 32} (h : Shut t) : Shut (cqHead n value t) := .when h fun h => .ite (.onCq h) (.doorbellErr (.onCq h))
theorem Shut.devTimeLow (h : Shut t) : Shut (devTimeLow t) := h
theorem Shut.resetFunction (h : Shut t) : Shut (resetFunction t) := h

/-! ### Keys -/

theorem Shut.loadHolder (h : Shut t) : Shut (loadHolder t) := h
theorem Shut.purgeKeys {p : KeyRef → Bool} (h : Shut t) : Shut (purgeKeys t p) := h

theorem Shut.applyChange {c : KeyChange} (h : Shut t) : Shut (applyChange t c) := by
  unfold Machine.applyChange
  extract_lets _ _
  split
  · exact .purgeKeys h
  · exact h

theorem Shut.settleKeys (h : Shut t) : Shut (settleKeys t) := .ite h (.loadHolder (.foldl h fun _ h => .ite (.applyChange h) (.ite h h)))
theorem Shut.purgeLane {l : Nat} (h : Shut t) : Shut (purgeLane t l) := h
theorem Shut.retireSlot {slot : Nat} (h : Shut t) : Shut (retireSlot t slot) := .settleKeys (.append (.purgeKeys h))

/-! ### The fabric -/

theorem Shut.onPort {p : Port} {f : PortSt → PortSt} (h : Shut t) : Shut (onPort t p f) := h
theorem Shut.sendOn {p : Port} {f : Frame} (h : Shut t) : Shut (sendOn t p f) := h.of_keeps (keeps_sendOn _ _ _)

theorem Shut.putFrames {p : Port} {fs : List Frame} (h : Shut t) : Shut (putFrames t p fs) := by
  induction fs generalizing t with
  | nil => exact .onPort h
  | cons f fs ih => exact .ite (ih (.onOut (.onPort h))) (.onPort h)

theorem Shut.sendAgain {p : Port} {xs : List Sent} (h : Shut t) : Shut (sendAgain t p xs) := h
theorem Shut.discardFrame (h : Shut t) : Shut (discardFrame t) := h

theorem Shut.routeFrame {arrived : Option Nat} {n : Nat} {f : Frame} (h : Shut t) : Shut (routeFrame t arrived n f) :=
  h.of_keeps (keeps_routeFrame _ _ _ _)

theorem Shut.sendTo {dest : Nat} {body : FrameBody} {relayed : Bool} (h : Shut t) : Shut (sendTo t dest body relayed) :=
  h.of_keeps (keeps_sendTo _ _ _ _)

theorem Shut.onView {home : Nat} {f : HomeView → HomeView} (h : Shut t) : Shut (onView t home f) := h

theorem Shut.floodOn {k : MKind} {subject term value : Nat} {f : Frame} {except : Option Port} (h : Shut t) :
    Shut (floodOn t k subject term value f except) :=
  h.of_keeps (keeps_floodOn _ _ _ _ _ _ _)

theorem Shut.flood {k : MKind} {subject term value : Nat} (h : Shut t) : Shut (flood t k subject term value) := .floodOn h
theorem Shut.floodAgain {k : MKind} {f : MFrame} (h : Shut t) : Shut (floodAgain t k f) := h.of_keeps (keeps_floodAgain _ _ _)
theorem Shut.recordTerm {home term : Nat} (h : Shut t) : Shut (recordTerm t home term) := h.of_keeps (keeps_recordTerm _ _ _)

theorem Shut.adopt {home term : Nat} {f : HomeView → HomeView} (h : Shut t) : Shut (adopt t home term f) :=
  .ite (.irqMain (.recordTerm (.onView h))) h

theorem Shut.dropTwin (h : Shut t) : Shut (dropTwin t) := .when h fun h => .irqMain h

theorem Shut.takeAuthority {term : Nat} (h : Shut t) : Shut (takeAuthority t term) :=
  .flood (.irqMain (.cause (.onLed (.onFab (.dropTwin (.onView (.onView (.recordTerm h))))))))

theorem Shut.withdraw (h : Shut t) : Shut (withdraw t) := h.of_keeps (keeps_withdraw _)
theorem Shut.linkDown {p : Port} (h : Shut t) : Shut (linkDown t p) := h.of_keeps (keeps_linkDown _ _)

end Sys2Proof.Machine
end

section
/-! SUPPORT. A closed data plane stays closed: the ledger engine, the mint pipeline and the verdict pipeline. -/

namespace Sys2Proof.Machine

-- One theorem at a time: the check's memory limit leaves no room for a thread for each.
set_option Elab.async false

variable {t : State}

/-! ### The ledger engine -/

theorem Shut.putReq {r : Req} (h : Shut t) : Shut (putReq t r) := h

theorem Shut.inStage {lane ctx : Nat} {st : Stage} {f : Req → State} (h : Shut t) (hf : ∀ u, Shut (f u)) : Shut (inStage t lane ctx st f) := by
  unfold Machine.inStage
  split
  · exact .ite (hf _) h
  · exact h

theorem Shut.startFwd {f : FwdFrame} {lane ctx since : Nat} (h : Shut t) : Shut (startFwd t f lane ctx since) := h.of_keeps (keeps_startFwd _ _ _ _ _)
theorem Shut.freeReq {r : Req} (h : Shut t) : Shut (freeReq t r) := h.of_keeps (keeps_freeReq _ _)

theorem Shut.endMint {r : Req} {st : Status} {detail : BitVec 16} {length : Nat} {outs : List HostWrite} (h : Shut t) :
    Shut (endMint t r st detail length outs) :=
  .freeReq (.complete h)

theorem Shut.endVerdict {r : Req} {st : Status} {v : VCode} {detail : BitVec 16} (h : Shut t) : Shut (endVerdict t r st v detail) := by
  unfold Machine.endVerdict
  extract_lets _ _ _
  split
  · exact .freeReq (.sendTo h)
  · exact .freeReq (.complete h)

theorem Shut.endReq {r : Req} {st : Status} {detail : BitVec 16} (h : Shut t) : Shut (endReq t r st detail) := .ite (.endMint h) (.endVerdict h)

theorem Shut.endCtl {st : Status} {detail : BitVec 16} {resp : Bytes} (h : Shut t) : Shut (endCtl t st detail resp) := by
  unfold Machine.endCtl
  split
  · exact h
  · exact .callHook (.complete h)

theorem Shut.endWait {st : Status} {detail : BitVec 16} {resp : Bytes} (h : Shut t) : Shut (endWait t st detail resp) :=
  .ite (.ite (.irqMain h) (.irqMain h)) (.endCtl h)

theorem Shut.onPage {slot : Nat} {f : PageSt → PageSt} (h : Shut t) : Shut (onPage t slot f) := h

theorem Shut.evict (h : Shut t) : Shut (evict t) := by
  unfold Machine.evict
  refine .ite h ?_
  split
  · exact .onPage h
  · exact h

theorem Shut.nvme {ds : List Nat} {c : NvmeCmd} (h : Shut t) : Shut (nvme t ds c) := h
theorem Shut.closeGroup {own : Bool} (h : Shut t) : Shut (closeGroup t own) := h.of_keeps (closeGroup_frame _ _).1
theorem Shut.joinGroup {own : Bool} {rs : List JRec} (h : Shut t) : Shut (joinGroup t own rs).1 := h.of_keeps (joinGroup_frame _ _ _).1
theorem Shut.killGroups {p : Group → Bool} (h : Shut t) : Shut (killGroups t p) := h

theorem Shut.addExit {serial e : Nat} (h : Shut t) : Shut (addExit t serial e) := by
  unfold Machine.addExit
  exact .onLed (.ite (by split <;> exact h) h)

theorem Shut.applyVerdict {r : Req} (h : Shut t) : Shut (applyVerdict t r) := by
  unfold Machine.applyVerdict
  extract_lets _ _ _ _ _ _ _ _
  split
  · exact .observe (.endVerdict h)
  · extract_lets _
    split
    · exact .putReq (.joinGroup (.ite (.addExit (.onPage h)) (.onPage h)))
    · split
      · exact .putReq h
      · exact .endVerdict h

theorem Shut.startRead {slot : Nat} (h : Shut t) : Shut (startRead t slot) := .ite h (.count (.onLed (.onPage (.nvme h))))

theorem Shut.verdictAtLedger {r : Req} (h : Shut t) : Shut (verdictAtLedger t r) :=
  .ite (.endVerdict h) (.ite (.putReq h) (.ite (.putReq h) (.ite (.startRead (.putReq h)) (.applyVerdict (.count (.onPage h))))))

theorem Shut.endLeaseWaiters {st : Status} (h : Shut t) : Shut (endLeaseWaiters t st) :=
  .foldl h fun _ h => by
    split
    · exact .endMint h
    · exact h

theorem Shut.mirrorOpening (h : Shut t) : Shut (mirrorOpening t) := by
  unfold Machine.mirrorOpening
  split
  · exact .when h fun h => .sendTo h
  · exact h

theorem Shut.openLease (h : Shut t) : Shut (openLease t) := .ite (.endLeaseWaiters h) (.mirrorOpening (.beginHead h))
theorem Shut.assignSerial {r : Req} (h : Shut t) : Shut (assignSerial t r) := .ite (.observe (.endMint h)) (.putReq (.joinGroup (.onPage h)))

theorem Shut.mintAtLedger {r : Req} (h : Shut t) : Shut (mintAtLedger t r) :=
  .ite (.putReq h) (.ite (.ite (.putReq h) (.assignSerial h)) (.ite (.openLease (.onLane (.putReq h))) (.onLane (.putReq h))))

theorem Shut.drainLease (h : Shut t) : Shut (drainLease t) :=
  .foldl h fun _ h => by
    split
    · exact .mintAtLedger h
    · exact h

theorem Shut.closeLease (h : Shut t) : Shut (closeLease t) := h.of_keeps (keeps_closeLease _)

theorem Shut.tryLease (h : Shut t) : Shut (tryLease t) := by
  unfold Machine.tryLease
  split
  · exact .ite (.drainLease (.foldl (.onLed (.closeLease h)) fun _ h => .onPage h)) h
  · exact h

theorem Shut.retree {slots : List Nat} (h : Shut t) : Shut (retree t slots) := h.of_keeps (keeps_retree _ _)
theorem Shut.rebuildTree (h : Shut t) : Shut (rebuildTree t) := .retree h
theorem Shut.startCheckpoint (h : Shut t) : Shut (startCheckpoint t) := h.of_keeps (keeps_startCheckpoint _)
theorem Shut.startDue (h : Shut t) : Shut (startDue t) := h.of_keeps (keeps_startDue _)
theorem Shut.clearPages {gone : Nat → Bool} (h : Shut t) : Shut (clearPages t gone) := h

theorem Shut.writeLabel {d st seq : Nat} (h : Shut t) : Shut (writeLabel t d st seq) := .nvme h

theorem Shut.rollOwn {e : BitVec 4} (h : Shut t) : Shut (rollOwn t e) :=
  .nvme (.onDrives (.foldl (.rebuildTree (.onHbm (.onKey (.onLed (.when (.clearPages h) id))))) fun _ h => .writeLabel h))

theorem Shut.rollShadow {e : BitVec 4} (h : Shut t) : Shut (rollShadow t e) := .rebuildTree (.onFab (.onLed (.clearPages h)))

theorem Shut.releaseReq {k : Nat} (h : Shut t) : Shut (releaseReq t k) := by
  unfold Machine.releaseReq
  split
  · exact .ite (.ite (.putReq h) (.endVerdict h)) h
  · exact h

theorem Shut.settleRoll (h : Shut t) : Shut (settleRoll t) := by
  unfold Machine.settleRoll
  split
  · refine .ite ?_ h
    extract_lets s1
    have h1 : Shut s1 := .startDue (.rollOwn h)
    exact .ite (.endWait h1) h1
  · exact h

theorem Shut.releaseCtl (h : Shut t) : Shut (releaseCtl t) := by
  unfold Machine.releaseCtl
  extract_lets _ _ _
  refine .ite h ?_
  split
  · exact .endWait h
  · exact .endWait h
  · exact .ite h (.sendTo h)
  · exact h
  · exact h

theorem Shut.settle (h : Shut t) : Shut (settle t) := by
  unfold Machine.settle
  exact .onLed (.startDue (.releaseCtl (.settleRoll (.foldl (.onLed (.count h)) fun _ h => .releaseReq h))))

theorem Shut.putBlock {d : Nat} {b : JBlock} (h : Shut t) : Shut (putBlock t d b) := h
theorem Shut.onDrive {d : Nat} {f : Drive → Drive} (h : Shut t) : Shut (onDrive t d f) := h

/-! ### The mint pipeline -/

theorem Shut.cacheFront {lane : Nat} {e : CacheEnt} (h : Shut t) : Shut (cacheFront t lane e) := h

theorem Shut.touchKey {lane : Nat} {k : KeyRef} (h : Shut t) : Shut (touchKey t lane k) := by
  unfold Machine.touchKey
  split
  · exact .cacheFront h
  · exact h

theorem Shut.intakeEnd {r : Req} {e : EventRec} {c : ClassRec} {w : Option Bytes} (h : Shut t) : Shut (intakeEnd t r e c w) := by
  unfold Machine.intakeEnd
  extract_lets _ _
  split
  · exact .ite (.endMint h) (.putReq h)
  · split
    · exact .endMint h
    · exact .ite (.endMint h) (.putReq h)

theorem Shut.mintIntake {r : Req} (h : Shut t) : Shut (mintIntake t r) := by
  unfold Machine.mintIntake
  extract_lets _
  refine .ite (.endMint h) ?_
  split
  · exact .endMint h
  · refine .ite (.endMint h) ?_
    refine .ite (.endMint h) ?_
    split
    · exact .endMint h
    · split
      · exact .endMint h
      · exact .ite (.endMint h) (.ite (.endMint h) (.ite (.endMint h) (.ite (.endMint h) (.ite (.putReq h) (.intakeEnd h)))))

theorem ShutNext.execMintWrapperReadDone {lane ctx : Nat} {read : Option Bytes} (h : Shut t) : ShutNext (execMintWrapperReadDone lane ctx read t) :=
  .done (.inStage h fun _ => .ite (.endMint h) (by
    split
    · exact .endMint h
    · split
      · exact .endMint h
      · split
        · exact .endMint h
        · exact .intakeEnd h))

theorem Shut.mintClock {r : Req} (h : Shut t) : Shut (mintClock t r) := by
  unfold Machine.mintClock
  split
  · exact .endMint h
  · refine .ite (.endMint h) ?_
    extract_lets _ _ _ _ bad _
    clear_value bad
    split
    · exact .endMint h
    · exact .putReq h

theorem Shut.mintDraw {r : Req} {n : Nat} (h : Shut t) : Shut (mintDraw t r n) := .ite (.putReq h) (.ite (.drew (.putReq h)) (.onLane (.putReq h)))

theorem Shut.mintRuleOn {r : Req} {e : EventRec} (h : Shut t) : Shut (mintRuleOn t r e) := by
  unfold Machine.mintRuleOn
  split
  · exact .endMint h
  · refine .ite (.endMint h) ?_
    extract_lets _ _ _
    split
    · exact .endMint h
    · exact .ite (.putReq h) (.mintDraw (.foldl h fun _ h => .touchKey h))

theorem Shut.mintRule {r : Req} (h : Shut t) : Shut (mintRule t r) := by
  unfold Machine.mintRule
  split
  · exact .endMint h
  · exact .mintRuleOn h

theorem Shut.serveDraws (h : Shut t) : Shut (serveDraws t) :=
  .ite h (.foldl h fun _ h => by
    split
    · exact .ite (.mintDraw h) h
    · exact h)

theorem ShutNext.execLeaseOpenTimeout (h : Shut t) : ShutNext (execLeaseOpenTimeout t) :=
  .done (by
    split
    · exact .endLeaseWaiters h
    · exact h)

theorem Shut.mintSeal {r : Req} (h : Shut t) : Shut (mintSeal t r) :=
  .ite (.ite (.onLane (.putReq (.count h))) (.endMint (.count h))) (.endMint (.count h))

theorem ShutNext.execMldsaJobDone (h : Shut t) : ShutNext (execMldsaJobDone t) :=
  .done (by
    split
    · exact h
    · split
      · exact .endMint h
      · exact h)

theorem Shut.endJobs (h : Shut t) : Shut (endJobs t) :=
  .foldl h fun _ h => by
    split
    · exact .endMint h
    · exact h

theorem ShutNext.execMintOutputWriteFail {lane ctx : Nat} (h : Shut t) : ShutNext (execMintOutputWriteFail lane ctx t) :=
  .done (by
    split
    · exact .ite (.endMint (.count h)) (.ite (.endMint h) h)
    · exact h)

/-! ### The verdict pipeline -/

theorem Shut.giveFwd {w : HeldFwd} {lane ctx : Nat} (h : Shut t) : Shut (giveFwd t w lane ctx) := by
  unfold Machine.giveFwd
  refine .ite (.startFwd h) ?_
  split
  · exact .startFwd h
  · exact h

theorem Shut.serveHeld (h : Shut t) : Shut (serveHeld t) := .foldl h fun _ h => .ite (.giveFwd h) (.sendTo h)

theorem Shut.verdictDecide {r : Req} (h : Shut t) : Shut (verdictDecide t r) := by
  unfold Machine.verdictDecide
  extract_lets _ _ _
  refine .ite (.endVerdict h) ?_
  split
  · exact .endVerdict h
  · split
    · exact .endVerdict h
    · exact .ite (.endVerdict h) (.putReq h)

theorem Shut.verdictIntake {r : Req} (h : Shut t) : Shut (verdictIntake t r) := by
  unfold Machine.verdictIntake
  extract_lets s1 _ _ _ s2 s3 _
  have h1 : Shut s1 := .when h .gauge
  have h2 : Shut s2 := .onLane h1
  have h3 : Shut s3 := .count h2
  refine .ite (.endVerdict h1) ?_
  refine .ite (.endVerdict h1) ?_
  refine .ite (.endVerdict h1) ?_
  split
  · exact .endVerdict h1
  · refine .ite (.endVerdict h1) ?_
    refine .ite (.endVerdict h1) ?_
    refine .ite (.verdictDecide h1) ?_
    split
    · exact .endVerdict h1
    · exact .ite (.putReq h1) (.sendTo (.putReq h3))

theorem ShutNext.execVerdictFwdRx {f : FwdFrame} {lane ctx : Nat} (h : Shut t) : ShutNext (execVerdictFwdRx f lane ctx t) :=
  .done (by
    extract_lets _ s1 _ _ _
    have h1 : Shut s1 := h
    refine .ite h ?_
    split
    · exact .sendTo h1
    · exact .ite (.ite (.giveFwd h1) (.sendTo h1)) (.ite (.routeFrame h1) (.onLane h1)))

theorem ShutNext.execHeldForwardTimeout {src : Nat} {seq : BitVec 32} (h : Shut t) : ShutNext (execHeldForwardTimeout src seq t) :=
  .done (by
    split
    · exact .sendTo h
    · exact h)

theorem ShutNext.execForwardContextTimeout {src : Nat} {seq : BitVec 32} (h : Shut t) : ShutNext (execForwardContextTimeout src seq t) :=
  .done (by
    split
    · exact .sendTo h
    · exact h)

theorem ShutNext.execVerdictReplyRx {lane ctx : Nat} {status verdict : Byte} {seq : BitVec 32} {info : Byte} {detail decider : BitVec 16}
    {serial : BitVec 56} (h : Shut t) :
    ShutNext (execVerdictReplyRx lane ctx status verdict seq info detail decider serial t) :=
  .done (by
    split
    · exact .ite (.freeReq (.complete h)) h
    · exact h)

theorem Shut.verdictCheckOn {r : Req} {e : EventRec} (h : Shut t) : Shut (verdictCheckOn t r e) := by
  unfold Machine.verdictCheckOn
  split
  · exact .endVerdict h
  · split
    · exact .ite (.putReq h) (.ite (.putReq (.count (.touchKey h))) (.endVerdict (.count (.touchKey h))))
    · refine .ite (.endVerdict h) ?_
      extract_lets _ _ _ s6
      have h6 : Shut s6 := .count (.touchKey h)
      split
      · exact .endVerdict h
      · exact .ite (.putReq h) (.ite (.putReq h6) (.endVerdict h6))

theorem Shut.verdictCheck {r : Req} (h : Shut t) : Shut (verdictCheck t r) := by
  unfold Machine.verdictCheck
  split
  · exact .endVerdict h
  · exact .verdictCheckOn h

theorem Shut.retryKey {k : Nat} (h : Shut t) : Shut (retryKey t k) := by
  unfold Machine.retryKey
  split
  · split
    · exact .ite (.mintRuleOn h) (.ite (.verdictCheckOn h) h)
    · exact h
  · exact h

theorem Shut.verdictClock {r : Req} (h : Shut t) : Shut (verdictClock t r) := by
  unfold Machine.verdictClock
  split
  · exact .endVerdict h
  · exact .ite (.endVerdict h) (.ite (.endVerdict h) (.ite (.endVerdict h) (.putReq h)))

theorem Shut.verdictRule {r : Req} (h : Shut t) : Shut (verdictRule t r) := by
  unfold Machine.verdictRule
  split
  · exact .endVerdict h
  · split
    · exact .endVerdict h
    · exact .ite (.endVerdict h) (.ite (.endVerdict h) (.ite (.endVerdict h) (.putReq h)))

end Sys2Proof.Machine
end

section
/-! SUPPORT. A closed data plane stays closed: the signed control requests, the digest engine, the random bytes and the ordered change of a unit. -/

namespace Sys2Proof.Machine

-- One theorem at a time: the check's memory limit leaves no room for a thread for each.
set_option Elab.async false

variable {t : State}

/-! ### Signed control requests -/

theorem Shut.tryOpen (h : Shut t) : Shut (tryOpen t) := .when h fun h => .onPow (.ite h h)

theorem Shut.acceptVoucher {b : Bytes} (h : Shut t) : Shut (acceptVoucher t b) := by
  unfold Machine.acceptVoucher
  extract_lets _ _ _ _ _ s1 s2 s3 s4
  have h2 : Shut s2 := .mirrorTime h
  have h3 : Shut s3 := .ite h2 (.irqAll (.cause h2))
  have h4 : Shut s4 := .append h3
  exact .ite (.tryOpen (.onKey (.append h4))) h4

theorem Shut.publishEvent {num : Nat} {event : Option EventRec} (h : Shut t) : Shut (publishEvent t num event) := .ite (.endCtl (.when h id)) h

theorem Shut.doDefineEvent {b : Bytes} (h : Shut t) : Shut (doDefineEvent t b) := by
  unfold Machine.doDefineEvent
  split
  · exact .endCtl h
  · exact .publishEvent h

theorem Shut.doCloseEvent {b : Bytes} (h : Shut t) : Shut (doCloseEvent t b) := by
  unfold Machine.doCloseEvent
  refine .ite (.endCtl h) ?_
  split
  · exact .endCtl h
  · exact .publishEvent h

theorem Shut.setWait {w : CtlWait} (h : Shut t) : Shut (setWait t w) := h

theorem Shut.applyVoid {home f l : Nat} {viaLed : Bool} (h : Shut t) : Shut (applyVoid t home f l viaLed) :=
  .ite (.setWait h) (.setWait (.joinGroup h))

theorem ShutOk.startVoid {a b : Nat} {viaLed : Bool} (h : Shut t) : ShutOk (startVoid t a b viaLed) :=
  .ite .error (.ite .error (.ite .error (.ok (.applyVoid h))))

theorem Shut.doVoidSerials {b : Bytes} (h : Shut t) : Shut (doVoidSerials t b) := by
  unfold Machine.doVoidSerials
  refine .ite (.endCtl h) ?_
  refine .ite (.endCtl h) ?_
  split
  · exact .endCtl h
  next e =>
    exact (ShutOk.startVoid h).get e

theorem Shut.startQuery {g : Nat} {viaLed : Bool} (h : Shut t) : Shut (startQuery t g viaLed) :=
  .ite (.releaseCtl (.setWait h)) (.ite (.setWait h) (.startRead (.setWait h)))

theorem Shut.doQueryLedger {b : Bytes} (h : Shut t) : Shut (doQueryLedger t b) := by
  unfold Machine.doQueryLedger
  refine .ite (.endCtl h) ?_
  split
  · exact .endCtl h
  · exact .startQuery h

theorem Shut.writeRoll {e : BitVec 4} (h : Shut t) : Shut (writeRoll t e) := by
  unfold Machine.writeRoll
  exact .onLed (.closeGroup (.joinGroup (.closeGroup h)))

theorem Shut.failRoll (h : Shut t) : Shut (failRoll t) := .ite (.endWait h) h

theorem Shut.startRoll {e : BitVec 4} (h : Shut t) : Shut (startRoll t e) :=
  .ite h (.ite (.writeRoll (.append h)) (.ite (.failRoll (.append h)) (.append h)))

theorem Shut.resumeRoll (h : Shut t) : Shut (resumeRoll t) := by
  unfold Machine.resumeRoll
  split
  · exact .when h fun h => .startRoll h
  · exact h

theorem Shut.doEpochRoll {b : Bytes} (h : Shut t) : Shut (doEpochRoll t b) :=
  .ite (.endCtl h) (.ite (.endCtl h) (.ite (.endCtl h) (.ite (.endCtl h) (.ite (.endCtl h)
    (.ite (.sendTo (.onFab (.setWait h))) (.startRoll (.setWait h)))))))

theorem Shut.startHandBack {home : Nat} {viaLed : Bool} (h : Shut t) : Shut (startHandBack t home viaLed) := .releaseCtl (.setWait (.closeGroup h))

theorem Shut.doHandBack {b : Bytes} (h : Shut t) : Shut (doHandBack t b) := by
  unfold Machine.doHandBack
  extract_lets _
  refine .ite (.endCtl h) ?_
  refine .ite (.endCtl h) ?_
  split
  · exact .endCtl h
  · exact .startHandBack h

theorem Shut.doBindRing {b : Bytes} (h : Shut t) : Shut (doBindRing t b) := by
  unfold Machine.doBindRing
  extract_lets _
  split
  · exact .endCtl h
  · exact .endCtl (.onSq h)

theorem Shut.keyTurn {slot : Nat} {f : State → State} (h : Shut t) (hf : ∀ {u}, Shut u → Shut (f u)) : Shut (keyTurn t slot f) := .ite h (hf h)

theorem Shut.endStore {k : NewKey} {origin : Nat} (h : Shut t) : Shut (endStore t k origin) :=
  .ite (.endCtl (.settleKeys (.appendRecord (.drew h)))) h

theorem Shut.doImportKey {b : Bytes} (h : Shut t) : Shut (doImportKey t b) := by
  unfold Machine.doImportKey
  split
  · exact .endCtl h
  · exact .keyTurn h fun h => by
      split
      · exact .endCtl h
      · exact .endStore h

theorem Shut.doDeriveKey {b : Bytes} (h : Shut t) : Shut (doDeriveKey t b) := by
  unfold Machine.doDeriveKey
  split
  · exact .endCtl h
  · exact .keyTurn h fun h => by
      split
      · exact .endCtl h
      · exact .endStore h

theorem Shut.doRetireKey {b : Bytes} (h : Shut t) : Shut (doRetireKey t b) := by
  unfold Machine.doRetireKey
  split
  · exact .endCtl h
  · exact .endCtl (.retireSlot h)

theorem Shut.doVoucher {b : Bytes} (h : Shut t) : Shut (doVoucher t b) := by
  unfold Machine.doVoucher
  split
  · exact .endCtl h
  · exact .endCtl (.acceptVoucher h)

theorem Shut.ctlBody {e blk : Bytes} (h : Shut t) : Shut (ctlBody t e blk) := by
  unfold Machine.ctlBody
  extract_lets op _
  refine .ite (.endCtl h) ?_
  refine .ite (.endCtl h) ?_
  clear_value op
  split
  · exact .doDefineEvent h
  · exact .doCloseEvent h
  · exact .doVoidSerials h
  · exact .doImportKey h
  · exact .doDeriveKey h
  · exact .keyTurn h .doRetireKey
  · exact .doVoucher h
  · exact .doQueryLedger h
  · exact .doEpochRoll h
  · exact .doBindRing h
  · exact .endCtl h
  · exact .doHandBack h

theorem Shut.ctlResume (h : Shut t) : Shut (ctlResume t) := by
  unfold Machine.ctlResume
  split
  · split
    · exact .ite (.ctlBody h) h
    · exact h
  · exact h

theorem Shut.ctlGo (h : Shut t) : Shut (ctlGo t) := .ite h (.ctlResume h)

theorem Shut.ctlRecorded {e : CtlEntry} {blk : Bytes} (h : Shut t) : Shut (ctlRecorded t e blk) := by
  unfold Machine.ctlRecorded
  extract_lets _ s1 s2
  have h2 : Shut s2 := .onHq (.append h)
  exact .ite h2 (.endCtl h2)

theorem Shut.ctlRun {e : CtlEntry} {block : Bytes} (h : Shut t) : Shut (ctlRun t e block) := by
  unfold Machine.ctlRun
  refine .ite (.endCtl h) ?_
  extract_lets _
  split
  · exact .endCtl h
  · exact .ite (.ctlBody (.ctlRecorded h)) (.ctlRecorded h)

theorem Shut.ctlRequest {op : Nat} {block : Bytes} (h : Shut t) : Shut (ctlRequest op block t) := by
  unfold Machine.ctlRequest
  split
  · extract_lets _
    refine .ite h ?_
    refine .ite (.ctlRun h) ?_
    refine .ite ?_ (.ite (.resumeRoll h) h)
    split
    · exact .applyVoid h
    · exact h
  · exact h

theorem ShutNext.execControlBlockReadFail (h : Shut t) : ShutNext (execControlBlockReadFail t) :=
  .done (by
    split
    · extract_lets _
      refine .ite h ?_
      refine .ite (.endCtl h) ?_
      split
      · exact .endCtl h
      · exact .ite (.endCtl h) (.endCtl h)
    · exact h)

/-! ### The digest engine -/

theorem Shut.digUpd {c : CoreId} {f : DigCore → DigCore} (h : Shut t) : Shut (digUpd t c f) := h
theorem Shut.extend {n : Nat} {v : Bytes} (h : Shut t) : Shut (extend t n v) := h
theorem Shut.digFree (h : Shut t) : Shut (digFree t) := h
theorem Shut.digEnd (h : Shut t) : Shut (digEnd t) := h.of_keeps (keeps_digEnd _)
theorem Shut.digBegin {c : CoreId} {v : BitVec 32} (h : Shut t) : Shut (digBegin t c v) := h.of_keeps (keeps_digBegin _ _ _)

theorem Shut.digAbsorb {c : CoreId} (h : Shut t) : Shut (digAbsorb t c) := by
  unfold Machine.digAbsorb
  extract_lets _ _
  split
  · exact .digUpd h
  · refine .ite (.digUpd h) ?_
    refine .ite (.digUpd h) ?_
    split
    · exact .digUpd (.digFree h)
    · exact .digUpd h

theorem Shut.digClose {c : CoreId} {v : BitVec 32} (h : Shut t) : Shut (digClose t c v) := by
  unfold Machine.digClose
  split
  · exact .digUpd h
  · exact .ite (.digUpd h) (.digUpd h)

theorem Shut.digAbandon {c : CoreId} (h : Shut t) : Shut (digAbandon t c) := .ite (.digUpd h) (.ite (.digUpd h) (.digUpd (.digFree h)))

theorem ShutNext.execDigCommandEnd (h : Shut t) : ShutNext (execDigCommandEnd t) :=
  .done (by
    split
    · exact .ite (.onDig (.irqMain h)) (.digFree (.digUpd (.ite (.digUpd (.irqMain h)) (.extend (.irqMain h)))))
    · exact h)

theorem Shut.measWord {c : CoreId} {n w : Nat} (h : Shut t) : Shut (measWord t c n w).2 := by
  unfold Machine.measWord
  extract_lets _ _
  split
  · with_reducible exact .digUpd h
  · split <;> with_reducible exact h

/-! ### Random bytes -/

theorem Shut.rngUpd {c : CoreId} {f : RngCore → RngCore} (h : Shut t) : Shut (rngUpd t c f) := h
theorem Shut.rngStep {f : State → State} (h : Shut t) (hf : ∀ {u}, Shut u → Shut (f u)) : Shut (rngStep t f) := .ite (hf h) (.cause (hf h))
theorem Shut.rngServe {c : CoreId} (h : Shut t) : Shut (rngServe t c) := .ite (.rngUpd (.writeStr (.drew h))) h
theorem Shut.rngServeAll (h : Shut t) : Shut (rngServeAll t) := .rngServe (.rngServe (.serveDraws (.when h .ctlResume)))
theorem Shut.rngCmd {c : CoreId} {v : Nat} (h : Shut t) : Shut (rngCmd t c v) := .ite h (.rngStep (.when (.rngUpd h) id) .rngServe)

theorem ShutNext.execDrbgRequestTimeout {c : CoreId} (h : Shut t) : ShutNext (execDrbgRequestTimeout c t) :=
  .done (.ite (.irqMain (.rngUpd (.rngUpd h))) (by
    split
    · exact .when h id
    · exact .when h .endCtl))

theorem Shut.rngAbort {c : CoreId} (h : Shut t) : Shut (rngAbort t c) := .ite h (.irqMain (.rngUpd (.rngUpd (.when h .writeStr))))
theorem Shut.reseed (h : Shut t) : Shut (reseed t) := h
theorem Shut.rngZero (h : Shut t) : Shut (rngZero t) := .rngStep h id
theorem Shut.rngFeed (h : Shut t) : Shut (rngFeed t) := .ite h (.ite (.ite h (.rngServeAll h)) (.ite (.rngServeAll (.reseed h)) h))

theorem Shut.bankTo {next : Option Nat} (h : Shut t) : Shut (bankTo t next) := by
  unfold Machine.bankTo
  extract_lets s1
  have h1 : Shut s1 := .irqMain (.cause h)
  split
  · exact .onRng h1
  · exact .observe (.onRng h1)

theorem ShutNext.execNoiseHealthFail {bits : List Bool} (h : Shut t) : ShutNext (execNoiseHealthFail bits t) :=
  .done (.when h fun h => by
    extract_lets _ _
    split
    · exact h
    · exact .rngStep (.observe h) .bankTo)

theorem Shut.rngSelect {v : BitVec 32} (h : Shut t) : Shut (rngSelect t v) := .when h fun h => .rngStep h .bankTo

theorem ShutNext.execNoiseStartupTestDone {source : Nat} {bits : List Bool} (h : Shut t) : ShutNext (execNoiseStartupTestDone source bits t) :=
  .done (by
    split
    · exact h
    · refine .ite ?_ (.when h fun h => by
        split
        · exact .irqMain h
        · exact .rngStep (.observe h) .bankTo)
      extract_lets s5 s6
      have h5 : Shut s5 := h
      have h6 : Shut s6 := .irqMain h5
      split
      · exact .observe (.onRng h6)
      · exact .observe h6)

/-! ### Meeting point M1 -/

theorem Shut.startFailover (h : Shut t) : Shut (startFailover t) := .ite h (.closeGroup (.closeGroup (.when h fun _ => .closePlane _)))
theorem Shut.trySettle (h : Shut t) : Shut (trySettle t) := .when h fun h => .ite (.tryOpen h) h
theorem Shut.afterGain (h : Shut t) : Shut (afterGain t) := .serveHeld (.tryLease (.settle h))

theorem Shut.tryWithdrawn (h : Shut t) : Shut (tryWithdrawn t) := by
  unfold Machine.tryWithdrawn
  split
  · exact .ite (.afterGain (.takeAuthority h)) h
  · exact h

theorem Shut.mirrorWritten {own : Bool} (h : Shut t) : Shut (mirrorWritten t own) := by
  unfold Machine.mirrorWritten
  extract_lets _ _ _
  split
  · exact h
  · exact .trySettle (.tryWithdrawn (.settle (.sendTo h)))

theorem Shut.dropDrive {d : Nat} {writable : Bool} (h : Shut t) : Shut (dropDrive t d writable) := by
  unfold Machine.dropDrive
  extract_lets _ s1 s2 s3
  have h3 : Shut s3 := .irqMain (.cause (.when (.onDrive h) .writeLabel))
  exact .ite h (.ite (.startFailover h3) (.mirrorWritten (.mirrorWritten (.settle h3))))

theorem Shut.coresGone (h : Shut t) : Shut (coresGone t) := .when h .startFailover

theorem Shut.coreStopped {c : CoreId} (h : Shut t) : Shut (coreStopped t c) :=
  .coresGone (.mgtAlert (.dbAlert (by
    split
    · exact .irqMain (.observe h)
    · exact .irq (.observe h))))

theorem Shut.stopLane {l : Nat} (h : Shut t) : Shut (stopLane t l) :=
  .foldl h fun _ h => by
    split
    · exact .endReq h
    · exact h

theorem Shut.sendBlock {p : Port} {b : LinkBlock} (h : Shut t) : Shut (sendBlock t p b) := h

theorem Shut.retireLanes {p : Port} {lanes : BitVec 2} (h : Shut t) : Shut (retireLanes t p lanes) :=
  .ite (.linkDown (.onPort h)) (.ite (.sendBlock (.onPort (.onPort h))) (.onPort h))

theorem Shut.unitEffects {u : Nat} {new : UState} (h : Shut t) : Shut (unitEffects t u new) := by
  unfold Machine.unitEffects
  refine .ite (.ite h (.ite (.stopLane (.purgeLane h)) (.purgeLane h))) ?_
  refine .ite (.when (.foldl h fun _ h => .evict h) .startFailover) ?_
  refine .ite (.ite (.linkDown (.sendBlock h)) (.ite (.onPort h) h)) ?_
  refine .ite (.ite (.dropDrive (.ite h h)) (.ite h h)) ?_
  refine .ite (.ite (.when (.coreUpd h) .startFailover) h) ?_
  refine .ite (.ite h (.digEnd h)) ?_
  refine .ite (.irqMain (.ite h (.endJobs h))) ?_
  exact .ite (.ite h (.when h fun h => .rngStep h .bankTo)) (.ite (.startFailover h) h)

theorem Shut.finishChange {v : Nat} {st : UState} {lanes : BitVec 2} {reason : Byte} {version : Nat} (h : Shut t) :
    Shut (finishChange t v st lanes reason version) := by
  unfold Machine.finishChange
  extract_lets _ s1 s2 s3 s4 s5 s6
  have h1 : Shut s1 := .setUnit h
  have h2 : Shut s2 := .onUnit h1
  have h4 : Shut s4 := .when (.cause (.ring h2)) .mgtAlert
  have h5 : Shut s5 := .ite (.retireLanes h4) (.unitEffects h4)
  have h6 : Shut s6 := .ite (.onUnit h5) h5
  exact .ite (.mgtAlert (.append h6)) h6

theorem Shut.changeUnit {u : Nat} {st : UState} {lanes : BitVec 2} {reason : Byte} (h : Shut t) : Shut (changeUnit t u st lanes reason) :=
  .ite (.finishChange (.append h)) (.append h)

theorem Shut.entryCommitted {u : Nat} {payload : Bytes} (h : Shut t) : Shut (entryCommitted t u payload) := by
  unfold Machine.entryCommitted
  extract_lets _ _
  split
  · exact .ite (.cause (.ring h)) (.finishChange h)
  · exact h

theorem Shut.mbxApply {w : BitVec 32} (h : Shut t) : Shut (mbxApply t w) := by
  unfold Machine.mbxApply
  extract_lets _ _ _ _ s1
  have h1 : Shut s1 := h
  split
  · exact h1
  · exact .ite h1 (.changeUnit h)

theorem Shut.decideUnit {u : Nat} {st : UState} {reason : Byte} (h : Shut t) : Shut (decideUnit t u st reason) := h

theorem Shut.decideObservation {p : Post} (h : Shut t) : Shut (decideObservation t p) :=
  .ite (.ite h (.decideUnit h)) (.ite (.ite (.ite (.decideUnit h) (.dbAlert h)) h)
    (.ite (.ite (.decideUnit h) (.ite (.decideUnit h) (.ite (.dbAlert h) h))) h))

theorem Shut.decideProposal {p : Post} (h : Shut t) : Shut (decideProposal t p) :=
  .ite (.decideUnit h) (.ite (.decideUnit h) (.ite (.decideUnit h) (.ite (.decideUnit h) (.mgtAlert (.append h)))))

theorem Shut.decideDispute {u : Nat} {data mgmt : Post} (h : Shut t) : Shut (decideDispute t u data mgmt) := by
  unfold Machine.decideDispute
  extract_lets s1
  have h1 : Shut s1 := .mgtAlert (.append (.decideUnit h))
  exact .ite (.decideUnit h1) (.ite (.decideUnit h1) (.ite (.mgtAlert (.append (.decideUnit h1))) (.decideUnit h1)))

theorem Shut.processPost {p : Post} (h : Shut t) : Shut (processPost t p) := by
  unfold Machine.processPost
  extract_lets _ s1
  have h1 : Shut s1 := .ite h (.ite h h)
  refine .ite h ?_
  split
  · exact .ite (.decideDispute (.onUnit h1)) (.ite (.decideProposal h1) (.decideObservation h1))
  · exact .ite (.decideProposal h1) (.decideObservation h1)

theorem Shut.nextPost {hook : Bool} (h : Shut t) : Shut (nextPost t hook) := by
  unfold Machine.nextPost
  split
  · exact h
  · exact .when (.processPost (.when h fun h => .callHook h)) fun h => .foldl h fun _ h => .processPost h

end Sys2Proof.Machine
end

section
/-! SUPPORT. A closed data plane stays closed: traps, the KEY window, the ledger engine's events, the membership view and the links. -/

namespace Sys2Proof.Machine

-- One theorem at a time: the check's memory limit leaves no room for a thread for each.
set_option Elab.async false

variable {t : State}

/-! ### Traps and interrupts -/

theorem Shut.enter {c : CoreId} {intr : Bool} {cause : Nat} {fault : W36} {resume base offset : Nat} (h : Shut t) :
    Shut (enter t c intr cause fault resume base offset) :=
  h.of_keeps (keeps_enter _ _ _ _ _ _ _ _)

theorem Shut.haltCore {c : CoreId} (h : Shut t) : Shut (haltCore t c) := .ite h (.coreStopped (.coreUpd h))
theorem Shut.romHandler {c : CoreId} (h : Shut t) : Shut (romHandler t c) := .haltCore (.ite h (.observe h))

theorem Shut.trap {c : CoreId} {i : TrapInfo} {resume : Nat} (h : Shut t) : Shut (trap t c i resume) :=
  .ite (.haltCore h) (.ite (.romHandler (.enter (.coreUpd h))) (.enter (.coreUpd h)))

theorem Shut.takeIrq {c : CoreId} {src resume : Nat} (h : Shut t) : Shut (takeIrq t c src resume) := h.of_keeps (keeps_takeIrq _ _ _ _)

theorem ShutNext.execInterruptEntry {c : CoreId} (h : Shut t) : ShutNext (execInterruptEntry c t) :=
  .done (by
    extract_lets _
    split
    · refine .ite h ?_
      split
      · exact .takeIrq h
      · exact .ite (.takeIrq (.coreUpd h)) h
    · exact h)

theorem Shut.cdcStall {unit : Nat} (h : Shut t) : Shut (cdcStall t unit) := .observe (.irqMain (.cause h))

theorem Shut.winCmd {c : CoreId} {a : Nat} {aOnly : Bool} {f : State → State} (h : Shut t) (hf : ∀ {u}, Shut u → Shut (f u)) :
    Shut (winCmd t c a aOnly f) :=
  .ite h (.ite (.trap (.when h .cdcStall)) (hf h))

/-! ### The KEY window -/

theorem Shut.keyRun {r : KeyRun} (h : Shut t) : Shut (keyRun t r) := h
theorem Shut.keyHold {c : CoreId} {v : Nat} (h : Shut t) : Shut (keyHold t c v) := h

theorem Shut.onHandles {c : CoreId} {f : List Handle → List Handle} (h : Shut t) : Shut (onHandles t c f) := h

theorem Shut.dropHandle {r : KeyRun} (h : Shut t) : Shut (dropHandle t r) := by
  unfold Machine.dropHandle
  split
  · exact .onHandles h
  · exact h

theorem Shut.keyOpen {c : CoreId} (h : Shut t) : Shut (keyOpen t c) := by
  unfold Machine.keyOpen
  split
  · exact .keyRun h
  · exact .ite (.keyRun h) (.keyRun (.onHandles h))

theorem Shut.keyActive {c : CoreId} {t1 : State} (h : Shut t) (h1 : Shut t1) : Shut (keyActive t c t1) := .ite h1 (.keyRun h)

theorem Shut.storeGive {c : CoreId} {v : Nat} {k : NewKey} {gen origin : Nat} (h : Shut t) : Shut (storeGive t c v k gen origin) :=
  .ite (.keyRun h) (.ite (.keyHold h) (.keyRun (.onHandles (.settleKeys (.appendRecord (.drew h))))))

theorem Shut.keyImport {c : CoreId} (h : Shut t) : Shut (keyImport t c) :=
  .keyActive h (by
    split
    · exact .keyRun h
    · split
      · exact .keyRun h
      · exact .storeGive h)

theorem Shut.keyDerive {c : CoreId} (h : Shut t) : Shut (keyDerive t c) :=
  .keyActive h (by
    split
    · exact .keyRun h
    · exact .keyRun h
    · split
      · exact .keyRun h
      · exact .storeGive h)

theorem Shut.keyRetire {c : CoreId} (h : Shut t) : Shut (keyRetire t c) :=
  .keyActive h (by
    split
    · exact .keyRun h
    · exact .ite (.keyRun h) (.keyRun (.retireSlot h)))

theorem Shut.keyVerify {c : CoreId} (h : Shut t) : Shut (keyVerify t c) := by
  unfold Machine.keyVerify
  split
  · exact .keyRun h
  · exact .keyRun h
  · exact .ite (.keyRun h) (.keyRun h)

theorem Shut.keyMac {c : CoreId} (h : Shut t) : Shut (keyMac t c) := by
  unfold Machine.keyMac
  split <;> exact .keyRun h

theorem Shut.keyWrap {c : CoreId} (h : Shut t) : Shut (keyWrap t c) :=
  .keyActive h (by
    split
    · exact .keyRun h
    · exact .keyRun h
    · exact .ite (.keyRun h) (.ite (.keyHold h) (.keyRun (.drew h))))

theorem Shut.keyUnwrap {c : CoreId} (h : Shut t) : Shut (keyUnwrap t c) :=
  .keyActive h (by
    split
    · exact .keyRun h
    · exact .keyRun h
    · split
      · exact .ite (.keyRun h) (.storeGive h)
      · exact .keyRun h)

theorem Shut.keyAttest {c : CoreId} (h : Shut t) : Shut (keyAttest t c) := by
  unfold Machine.keyAttest
  refine .ite (.keyRun h) ?_
  split
  · exact .keyRun h
  · exact .keyRun h
  · exact .keyRun h

theorem Shut.keyCmd {c : CoreId} {v : Nat} (h : Shut t) : Shut (keyCmd t c v) := by
  unfold Machine.keyCmd
  refine .ite h ?_
  refine .ite (.keyRun h) ?_
  split
  · exact .keyOpen h
  · exact .ite (.keyRun (.onHandles h)) (.keyRun h)
  · exact .keyImport h
  · exact .keyDerive h
  · exact .keyRetire h
  · exact .keyVerify h
  · exact .keyMac h
  · exact .keyWrap h
  · exact .keyUnwrap h
  · exact .keyAttest h
  · exact .keyRun h

theorem Shut.keyEnd (h : Shut t) : Shut (keyEnd t) := by
  unfold Machine.keyEnd
  split
  · exact .ite h (.irqMain (.onKey (.writeStr h)))
  · exact h

theorem ShutNext.execKeyCommandEnd (h : Shut t) : ShutNext (execKeyCommandEnd t) :=
  .done (by
    split
    · exact .when h fun h => .keyEnd (.keyCmd h)
    · exact .keyEnd h)

theorem Shut.fabCode {e : Status} (h : Shut t) : Shut (fabCode t e) := h
theorem Shut.askKey {slot tries : Nat} (h : Shut t) : Shut (askKey t slot tries) := .sendTo h

theorem Shut.unveil (h : Shut t) : Shut (unveil t) := by
  unfold Machine.unveil
  exact .onTmp (.onKey (.append (.when h .append)))

theorem Shut.keyAskEnd {slot : Nat} {e : Status} (h : Shut t) : Shut (keyAskEnd t slot e) :=
  .ite (.fabCode h) (.ite (.askKey (.fabCode h)) (.tryOpen (.unveil (.onFab (.fabCode h)))))

theorem Shut.keyAskFail (h : Shut t) : Shut (keyAskFail t) := by
  unfold Machine.keyAskFail
  split
  · exact .ite (.askKey h) (.keyAskEnd (.when h .append))
  · exact h

theorem Shut.fromTwin {src : Nat} {f : State → State} (h : Shut t) (hf : ∀ {u}, Shut u → Shut (f u)) : Shut (fromTwin t src f) :=
  .ite (hf h) (.discardFrame h)

theorem ShutNext.execKeyTransportRequestRx {src slot : Nat} {xfer : BitVec 32} (h : Shut t) : ShutNext (execKeyTransportRequestRx src slot xfer t) :=
  .done (.fromTwin h fun h => by
    extract_lets _ _ _ s1
    have h1 : Shut s1 := .onFab (.drew h)
    split
    · exact .ite (.sendTo h1) (.sendTo h)
    · exact .sendTo h)

theorem Shut.keyReceipt {slot : Nat} (h : Shut t) : Shut (keyReceipt t slot) := by
  unfold Machine.keyReceipt
  split
  · exact .ite (.keyAskEnd (.sendTo h)) h
  · exact h

theorem Shut.takeDelivery {d : KeyDelivery} (h : Shut t) : Shut (takeDelivery t d) := by
  unfold Machine.takeDelivery
  split
  · refine .ite h ?_
    refine .ite h ?_
    split
    · refine .ite ?_ (.keyAskFail h)
      extract_lets _ s1
      have h1 : Shut s1 := .settleKeys (.appendRecord (.drew h))
      exact .ite (.keyReceipt h1) h1
    · exact .keyAskFail h
  · exact h

theorem ShutNext.execKeyTransportDeliverRx {src slot : Nat} {xfer : BitVec 32} {blob : Bytes} (h : Shut t) :
    ShutNext (execKeyTransportDeliverRx src slot xfer blob t) :=
  .done (.fromTwin h .takeDelivery)

theorem Shut.keyRecorded (h : Shut t) : Shut (keyRecorded t) := by
  unfold Machine.keyRecorded
  extract_lets s1
  have h1 : Shut s1 := .settleKeys h
  split
  · exact .ite h1 (.takeDelivery (.onFab h1))
  · exact h1

theorem ShutNext.execKeyTransportRefuseRx {src slot : Nat} {xfer : BitVec 32} (h : Shut t) : ShutNext (execKeyTransportRefuseRx src slot xfer t) :=
  .done (.fromTwin h fun h => by
    split
    · exact .ite (.keyAskEnd h) h
    · exact h)

theorem ShutNext.execKeyTransportReceiptRx {src slot : Nat} {xfer : BitVec 32} (h : Shut t) : ShutNext (execKeyTransportReceiptRx src slot xfer t) :=
  .done (.fromTwin h fun h => .ite h h)

/-! ### The ledger engine's events -/

theorem Shut.applyRecs {own : Bool} {home : Nat} {first : Option Nat} {rs : List JRec} (h : Shut t) : Shut (applyRecs t own home first rs) := by
  induction rs generalizing t first with
  | nil => exact h
  | cons r rs ih =>
    unfold Machine.applyRecs
    split
    · exact ih h
    · exact ih h
    · split
      · exact ih (.ite (.addExit (.onPage h)) (.onPage h))
      · exact ih h

theorem Shut.setPage {own : Bool} {page : Nat} {es : Tbl LState} (h : Shut t) : Shut (setPage t own page es) := h

theorem Shut.resendGroup {home g : Nat} (h : Shut t) : Shut (resendGroup t home g) := by
  unfold Machine.resendGroup
  split
  · exact .sendTo h
  · exact h

theorem Shut.passOn {r : Req} (h : Shut t) : Shut (passOn t r) := by
  unfold Machine.passOn
  split
  · exact .sendTo (.putReq (.count h))
  · exact .ite (.endVerdict h) (.freeReq (.routeFrame h))

theorem Shut.handedBack {term : Nat} (h : Shut t) : Shut (handedBack t term) := by
  unfold Machine.handedBack
  extract_lets _ s1 s2 s3 s4 s5
  have h4 : Shut s4 := .irqMain (.cause (.onLed (.onFab (.onView (.recordTerm h)))))
  have h5 : Shut s5 := .ite (.endWait h4) h4
  refine .foldl h5 fun _ h => ?_
  split
  · exact .passOn h
  · exact h

theorem Shut.askPages {n : Nat} (h : Shut t) : Shut (askPages t n) := by
  induction n generalizing t with
  | zero => exact h
  | succ n ih => exact .ite h (.ite (ih (.sendTo h)) (.ite (ih (.sendTo h)) h))

theorem Shut.tryCopied (h : Shut t) : Shut (tryCopied t) := .when h fun h => .startDue (.tryWithdrawn (.irqMain (.flood h)))
theorem Shut.discardLedgers {own : Bool} (h : Shut t) : Shut (discardLedgers t own) := h.of_keeps (keeps_discardLedgers _ _)

theorem Shut.startCopy {ownToo : Bool} (h : Shut t) : Shut (startCopy t ownToo) :=
  .ite h (.tryCopied (.sendTo (.askPages (.when (.flood (.onFab (.discardLedgers h))) .sendTo))))

theorem ShutNext.execJournalBlockWriteDone {d block : Nat} (h : Shut t) : ShutNext (execJournalBlockWriteDone d block t) :=
  .done (by
    split
    · refine .ite ?_ h
      extract_lets s1 s2
      have h2 : Shut s2 := .onLed (.putBlock h)
      exact .ite (.mirrorWritten h2) (.settle h2)
    · exact h)

theorem Shut.shadowWork {seq : Nat} (h : Shut t) : Shut (shadowWork t seq) := by
  unfold Machine.shadowWork
  extract_lets _
  split
  · exact .ungate h
  · exact h

theorem Shut.takeGroup {own : Bool} {g : Group} (h : Shut t) : Shut (takeGroup t own g) := by
  unfold Machine.takeGroup
  extract_lets _ s1 s2
  have h1 : Shut s1 := .ite h (.shadowWork h)
  have h2 : Shut s2 := .count (.onLed (.nvme h1))
  split
  · exact .ite (.startDue (.rollOwn h2)) (.ite (.startRoll (.onFab (.rollShadow h2))) (.rollShadow h2))
  · exact .applyRecs h2

theorem Shut.drainMirror {own : Bool} {n : Nat} (h : Shut t) : Shut (drainMirror t own n) := by
  induction n generalizing t with
  | zero => exact h
  | succ n ih =>
    unfold Machine.drainMirror
    extract_lets home
    split
    · exact ih (.takeGroup h)
    · exact h

theorem Shut.firstOfStream {own : Bool} {group tFirst : Nat} (h : Shut t) : Shut (firstOfStream t own group tFirst) := .ite h (.ite h h)

theorem ShutNext.execMirrorJournalRx {src : Nat} {epoch : BitVec 4} {group tFirst : Nat} {recs : List JRec} (h : Shut t) :
    ShutNext (execMirrorJournalRx src epoch group tFirst recs t) :=
  .done (.when h fun h => by
    extract_lets s1 _ _ s2
    have h1 : Shut s1 := by
      unfold s1
      split
      · exact .ite (.handedBack h) h
      · exact h
    have h2 : Shut s2 := .firstOfStream h1
    exact .ite (.when h2 .sendTo) (.ite (.drainMirror (.takeGroup h2)) (.ite h2 (.onLed h2))))

theorem ShutNext.execGroupAckRx {src : Nat} {epoch : BitVec 4} {group : Nat} (h : Shut t) : ShutNext (execGroupAckRx src epoch group t) :=
  .done (.when h fun h => .ite (.trySettle (.settle (.when (.onFab (.onLed (.count h))) fun h => .foldl h fun _ h => .resendGroup h))) (.settle
      (.onLed (.count h))))

theorem ShutNext.execMirrorResendTimeout {group : Nat} (h : Shut t) : ShutNext (execMirrorResendTimeout group t) :=
  .done (.when h fun h => by
    split
    · exact .sendTo h
    · exact .ite (.resendGroup h) (.ite (.resendGroup h) h))

theorem ShutNext.execLeaseMirrorRx {src : Nat} {epoch : BitVec 4} {ceiling : Nat} (h : Shut t) : ShutNext (execLeaseMirrorRx src epoch ceiling t) :=
  .done (.when h fun h => .when h fun h => .beginHead h)

theorem Shut.leaseMirrorCommitted {payload : Bytes} (h : Shut t) : Shut (leaseMirrorCommitted t payload) :=
  .ite h (.when (.sendTo h) fun h => .askPages h)

theorem Shut.leaseCommitted {payload : Bytes} (h : Shut t) : Shut (leaseCommitted t payload) := .ite h (.tryLease (.when h fun h => .askPages h))

theorem ShutNext.execLeaseAckRx {src : Nat} {epoch : BitVec 4} {ceiling : Nat} (h : Shut t) : ShutNext (execLeaseAckRx src epoch ceiling t) :=
  .done (.when h fun h => by
    extract_lets s1
    have h1 : Shut s1 := h
    split
    · exact .ite (.tryLease (.onLed h1)) (.ite (.openLease (.onLed h1)) h1)
    · exact .when h1 fun h => .beginHead h)

theorem ShutNext.execPageRequestRx {src : Nat} {epoch : BitVec 4} {subject page : Nat} (h : Shut t) :
    ShutNext (execPageRequestRx src epoch subject page t) :=
  .done (.when h fun h => .ite (.sendTo h) (.sendTo h))

theorem Shut.resumePages (h : Shut t) : Shut (resumePages t) :=
  .foldl (.when h fun h => .releaseCtl (.setWait h)) fun _ h => by
    split
    · exact .ite (.mintAtLedger h) (.verdictAtLedger h)
    · exact h

theorem ShutNext.execPageRx {src : Nat} {epoch : BitVec 4} {subject page groupEnd : Nat} {entries : Tbl LState} (h : Shut t) :
    ShutNext (execPageRx src epoch subject page groupEnd entries t) :=
  .done (.when h fun h => .resumePages (.tryCopied (.askPages (.onFab (.onPage (.onPage (.evict (.applyRecs (.setPage h)))))))))

theorem ShutNext.execPageAbsentRx {src : Nat} {epoch : BitVec 4} {subject page : Nat} (h : Shut t) :
    ShutNext (execPageAbsentRx src epoch subject page t) :=
  .done (.when h fun h => .ite (.sendTo h) (.onPage h))

theorem ShutNext.execVoidRequestRx {src : Nat} {epoch : BitVec 4} {subject block : Nat} (h : Shut t) :
    ShutNext (execVoidRequestRx src epoch subject block t) :=
  .done (.when h .sendTo)

theorem ShutNext.execVoidBlockRx {src : Nat} {epoch : BitVec 4} {subject block : Nat} {ranges : List (Nat × Nat)} (h : Shut t) :
    ShutNext (execVoidBlockRx src epoch subject block ranges t) :=
  .done (.when h fun h => .ite (.sendTo h) (.ite (.sendTo h) (.tryCopied h)))

theorem ShutNext.execDurabilityTimeout {lane ctx : Nat} (h : Shut t) : ShutNext (execDurabilityTimeout lane ctx t) :=
  .done (.ite (.ite (.endWait h) h) (by
    split
    · exact .ite (.endReq h) h
    · exact h))

theorem Shut.askTwin {slot : Nat} (h : Shut t) : Shut (askTwin t slot) := .when (.onPage (.foldl h fun _ h => .observe h)) .sendTo
theorem Shut.countRead {d : Nat} {bad : Bool} (h : Shut t) : Shut (countRead t d bad) := .when (.onDrive h) fun h => .dropDrive (.observe h)
theorem Shut.secondRead {slot d : Nat} (h : Shut t) : Shut (execPageReadDone.secondRead t slot d) := .onPage (.when h .nvme)

theorem ShutNext.execPageReadDone {slot d : Nat} {data : Option (Tbl LState)} (h : Shut t) : ShutNext (execPageReadDone slot d data t) :=
  .done (.when h fun h => by
    extract_lets _ _ s1 _ _ s2 s3
    have h1 : Shut s1 := .onPage (.countRead h)
    have h2 : Shut s2 := .countRead h
    have h3 : Shut s3 := .countRead h
    split
    · refine .ite (.ite h1 ?_) (.ite (.foldl (.onPage h2) fun _ h => .ite (.nvme (.onDrive h)) h) (.ite (.secondRead h2) (.askTwin h2)))
      extract_lets s4 s5
      have h5 : Shut s5 := .onPage (.onPage (.evict (.ite (.setPage h1) (.setPage h1))))
      exact .resumePages (.ite (.foldl h5 fun _ h => .nvme (.onDrive h)) h5)
    · exact .ite (.onPage h3) (.ite (.secondRead h3) (.askTwin h3)))

theorem Shut.enqueue {a : Append} (h : Shut t) : Shut (enqueue t a) := .beginHead h

theorem ShutNext.execCheckpointWritesDone (h : Shut t) : ShutNext (execCheckpointWritesDone t) :=
  .done (by
    split
    · exact .ite h (.enqueue (.onLed (h.of_keeps (keeps_ckptWrites _ _))))
    · exact h)

theorem Shut.checkpointCommitted (h : Shut t) : Shut (checkpointCommitted t) := by
  unfold Machine.checkpointCommitted
  split
  · extract_lets s1 _ s2 s3
    have h3 : Shut s3 := .resumeRoll (.foldl h fun _ h => .irqMain (.cause (.writeLabel (.onDrive h))))
    exact .startDue (.ite (.irqMain (.onLed h3)) h3)
  · exact h

theorem ShutNext.execResilverCopyDone {d : Nat} (h : Shut t) : ShutNext (execResilverCopyDone d t) :=
  .done (by
    split
    · exact .ite (.irqMain (.onDrive h)) h
    · exact h)

theorem Shut.makeQueues {d : Nat} (h : Shut t) : Shut (makeQueues t d) := .nvme (.nvme (.onDrive h))

theorem Shut.driveAttach {d : Nat} {id : DriveId} (h : Shut t) : Shut (driveAttach t d id) := by
  unfold Machine.driveAttach
  exact .when h fun h => .ite (.when (.irqMain (.onDrive (.nvme (.onDrive h)))) .changeUnit) (.irqMain (.cause (.writeLabel (.onDrive
    (.nvme (.makeQueues (.nvme (.onDrive h))))))))

theorem ShutNext.execDriveAttach {d : Nat} {id : DriveId} (h : Shut t) : ShutNext (execDriveAttach d id t) := by
  unfold Machine.execDriveAttach
  exact .done (.driveAttach h)

theorem Shut.rebuildRec {b : JBlock} {a : State × Bool} {r : JRec} (h : Shut a.1) : Shut (rebuildRec b a r).1 := by
  unfold Machine.rebuildRec
  extract_lets s1 _
  have h1 : Shut s1 := h
  split
  · exact h
  · split
    · split
      · exact h
      · exact .addExit h1
    · split
      · exact h1
      · exact .addExit h1

theorem Shut.rebuildBlock {q : Nat} {b : JBlock} (h : Shut t) : Shut (rebuildBlock t q b) := by
  unfold Machine.rebuildBlock
  extract_lets a
  have ha : Shut a.1 := .foldlFst h fun _ h => .rebuildRec h
  exact .ite (.onLed ha) (.onLed ha)

theorem ShutNext.execPassbackRebuildBlock (h : Shut t) : ShutNext (execPassbackRebuildBlock t) :=
  .done (by
    split
    · exact .ite h (.ite (.onLed (.foldl h fun _ h => h)) (.rebuildBlock h))
    · exact h)

/-! ### The membership view -/

theorem Shut.beginJoin {p : Port} (h : Shut t) : Shut (beginJoin t p) := .ite h (.sendTo (.flood h))
theorem Shut.knowAuthority (h : Shut t) : Shut (knowAuthority t) := .ite (.startCopy h) (.afterGain (.trySettle (.when (.when h id) .startCopy)))

theorem ShutNext.execViewRequestRx {f : MFrame} (h : Shut t) : ShutNext (execViewRequestRx f t) :=
  .done (.when h fun h => .ite (.sendTo h) (.foldl h fun _ h => .sendTo h))

theorem ShutNext.execViewRx {f : MFrame} (h : Shut t) : ShutNext (execViewRx f t) :=
  .done (.when h fun h => by
    extract_lets s1
    have h1 : Shut s1 := .when h fun h => .ite h (.recordTerm (.onView h))
    exact .ite (.when (.onFab (.foldl h1 fun _ h => .onView h)) .knowAuthority) h1)

theorem ShutNext.execPergolaJoinEnd (h : Shut t) : ShutNext (execPergolaJoinEnd t) :=
  .done (.when h fun h => by
    extract_lets s1 s2
    have h2 : Shut s2 := .when (.irqMain h) .askKey
    exact .ite (.knowAuthority h2) (.tryOpen (.onLed (.onView h2))))

theorem ShutNext.execViewRequestTimeout (h : Shut t) : ShutNext (execViewRequestTimeout t) :=
  .done (.when h fun h => by
    split
    · exact .sendTo h
    · exact h)

theorem Shut.yieldAuthority (h : Shut t) : Shut (yieldAuthority t) := by
  unfold Machine.yieldAuthority
  refine .ite h ?_
  extract_lets _ s1 s2 _ s3 _ s4 s5 s6
  have h3 : Shut s3 := .foldl (.dropTwin (.irqMain (.cause h))) fun _ h => by
    split
    · exact .endReq h
    · exact h
  have h4 : Shut s4 := .ite (.endWait h3) h3
  exact .startCopy (.onLed (.killGroups (.closeLease h4)))

theorem ShutNext.execHeartbeatTimer (h : Shut t) : ShutNext (execHeartbeatTimer t) :=
  .done (.when h fun h => .foldl h fun _ h => by
    split
    · exact .sendOn h
    · exact .sendTo h)

theorem Shut.resumeHolder (h : Shut t) : Shut (resumeHolder t) := .ite (.endWait h) h
theorem Shut.missedChange {old term : Nat} (h : Shut t) : Shut (missedChange t old term) := .ite h (.ite (.handedBack h) (.startCopy h))

theorem ShutNext.execHeartbeatRx {src : Nat} {ownAuth _twinAuth _shadow _dataOpen : Bool} {epoch : BitVec 4} {term groupEnd : Nat} (h : Shut t) :
    ShutNext (execHeartbeatRx src ownAuth _twinAuth _shadow _dataOpen epoch term groupEnd t) :=
  .done (.when h fun h => by
    extract_lets s1 _ s2 _ s3
    have h1 : Shut s1 := h
    have h2 : Shut s2 := .when h1 id
    have h3 : Shut s3 := .adopt h2
    split
    · exact .ite (.handedBack h2) (.ite (.resumeHolder h2) h2)
    · exact .when h3 .missedChange)

theorem Shut.startCollect {exclude forOffer : Bool} (h : Shut t) : Shut (startCollect t exclude forOffer) := by
  unfold Machine.startCollect
  extract_lets _ _ _ s1
  have h1 : Shut s1 := h
  split
  · exact h
  · exact .foldl h1 fun _ h => .sendTo h

theorem ShutNext.execWitnessQueryRx {src : Nat} {excl : Bool} {home term : Nat} (h : Shut t) : ShutNext (execWitnessQueryRx src excl home term t) :=
  .done (.when h fun h => .sendTo h)

theorem Shut.setCollect {excl : Bool} {c : Option Collect} (h : Shut t) : Shut (setCollect t excl c) := h

theorem ShutNext.execWitnessReplyRx {src : Nat} {excl : Bool} {answer : WAnswer} {home term : Nat} (h : Shut t) :
    ShutNext (execWitnessReplyRx src excl answer home term t) :=
  .done (by
    split
    · exact h
    · refine .ite h ?_
      refine .ite (.handedBack h) ?_
      refine .ite h ?_
      extract_lets _ _ s3 s4 _ s5
      have h3 : Shut s3 := .recordTerm h
      have h4 : Shut s4 := .onView h3
      have h5 : Shut s5 := .recordTerm (.setCollect h)
      split
      · exact h
      · exact .ite (.setCollect h) (.ite (.resumeHolder (.flood (.setCollect h4))) (.foldl h5 fun _ h => .sendTo h)))

theorem ShutNext.execDecisionAckRx {f : MFrame} (h : Shut t) : ShutNext (execDecisionAckRx f t) :=
  .done (by
    extract_lets _
    split
    · exact h
    · refine .ite h ?_
      extract_lets _
      split
      · exact h
      · exact .ite (.setCollect h) (.ite (.ite (.trySettle (.tryLease (.settle (.flood (.onFab (.dropTwin (.onView (.onView (.recordTerm h)))))))))
            (.setCollect h)) (.ite (.afterGain (.takeAuthority h)) (.setCollect h))))

theorem ShutNext.execJoinRx {f : MFrame} (h : Shut t) : ShutNext (execJoinRx f t) :=
  .done (.when h fun h => .when (.when (.floodAgain (.onView (.adopt h))) .missedChange) fun h =>
    .foldl (.sendTo (.irqMain (.sendTo (.mirrorOpening h)))) fun _ h => .resendGroup h)

theorem ShutNext.execWithdrawRx {f : MFrame} (h : Shut t) : ShutNext (execWithdrawRx f t) :=
  .done (.when h fun h => .when (.irqMain (.floodAgain (.onView (.when (.adopt h) .missedChange)))) fun h => .ite (.tryWithdrawn h) (.trySettle
      (.tryWithdrawn h)))

theorem Shut.ackDecision {k : MKind} {f : MFrame} (h : Shut t) : Shut (ackDecision t k f) := by
  unfold Machine.ackDecision
  split
  · exact .ite (.sendTo h) h
  · exact h

theorem Shut.takeoverRx {f : MFrame} (h : Shut t) : Shut (takeoverRx f t) :=
  .when h fun h => .ite (.ackDecision h) (.ite h (by
    extract_lets _ _ s1 s2 s3
    have h3 : Shut s3 := .floodAgain (.when (.adopt h) .onView)
    exact .ite (.yieldAuthority (.onFab h3)) h3))

theorem ShutNext.execExcludeRx {f : MFrame} (h : Shut t) : ShutNext (execExcludeRx f t) :=
  .done (.when h fun h => .ite (.ackDecision h) (.ite h (by
    extract_lets _ s1 _ s2 s3
    have h3 : Shut s3 := .floodAgain (.when (.adopt h) .onView)
    exact .ite (.startCopy (.onFab (.ite (.handedBack h3) h3))) h3)))

theorem ShutNext.execShadowCompleteRx {f : MFrame} (h : Shut t) : ShutNext (execShadowCompleteRx f t) :=
  .done (.when h fun h => .when (.floodAgain (.onView (.onView (.adopt h)))) fun h => .irqMain (.onLed (.mirrorOpening h)))

theorem ShutNext.execHandbackOfferRx {f : MFrame} (h : Shut t) : ShutNext (execHandbackOfferRx f t) :=
  .done (.when h fun h => .afterGain (.trySettle (.flood (.sendTo (.irqMain (.cause (.onLed (.closeLease (.onFab (.onView (.recordTerm h)))))))))))

theorem ShutNext.execHandbackAcceptRx {f : MFrame} (h : Shut t) : ShutNext (execHandbackAcceptRx f t) :=
  .done (.when h fun h => by
    extract_lets _ s1 s2
    have h1 : Shut s1 := .ite h (.adopt h)
    have h2 : Shut s2 := .floodAgain h1
    split
    · exact .ite (.handedBack h2) h2
    · exact .ite (.adopt h2) h2)

theorem ShutNext.execHandbackOfferTimeout (h : Shut t) : ShutNext (execHandbackOfferTimeout t) :=
  .done (by
    split
    · exact h
    · exact .ite h (.ite (.resumeHolder h) (.when h .startCollect)))

theorem ShutNext.execRollQueryRx {f : MFrame} (h : Shut t) : ShutNext (execRollQueryRx f t) := .done (.when h fun h => .sendTo (.when h id))

theorem ShutNext.execRollConfirmRx {f : MFrame} (h : Shut t) : ShutNext (execRollConfirmRx f t) :=
  .done (.when h fun h => .ite (.ite (.startRoll h) h) (.irqMain h))

theorem ShutNext.execRollRefuseRx {f : MFrame} (h : Shut t) : ShutNext (execRollRefuseRx f t) :=
  .done (.when h fun h => .ite (.endWait h) (.irqMain h))

theorem ShutNext.execTimePulseRx {p : Port} {_src time unc : Nat} {anchored : Bool} (h : Shut t) :
    ShutNext (execTimePulseRx p _src time unc anchored t) :=
  .done (.when h fun h => .when h fun h => .observe h)

/-! ### Links -/

theorem Shut.startTraining {p : Port} {echo : Option Nat} (h : Shut t) : Shut (startTraining t p echo) :=
  .ite h (.when (.sendBlock (.onPort h)) fun h => .sendBlock (.sendBlock (.drew (.onPort h))))

theorem ShutNext.execHelloRx {p : Port} {b : Hello} (h : Shut t) : ShutNext (execHelloRx p b t) :=
  .done (.when h fun h => .ite (.observe (.linkDown h)) (by
    extract_lets s1
    have h1 : Shut s1 := .onPort h
    split
    · exact h1
    · exact .sendBlock (.onPort h1)))

theorem Shut.rxFail {p : Port} {what : RxFault} (h : Shut t) : Shut (rxFail t p what) := by
  unfold Machine.rxFail
  extract_lets s1 s2
  have h1 : Shut s1 := .sendBlock h
  have h2 : Shut s2 := .onPort h1
  split
  · exact .when h2 .linkDown
  · exact h1

theorem Shut.rxTurn {p : Port} (h : Shut t) : Shut (rxTurn t p) := h.of_keeps (keeps_rxTurn _ _)

theorem Shut.finishRekey {p : Port} {nonce : Bytes} {switchAt : Nat} (h : Shut t) : Shut (finishRekey t p nonce switchAt) := by
  unfold Machine.finishRekey
  extract_lets s1
  have h1 : Shut s1 := .onPort h
  split
  · exact .linkDown h1
  · exact .putFrames (.rxTurn (.onPort h1))

theorem Shut.sendRekey {p : Port} (h : Shut t) : Shut (sendRekey t p) := h.of_keeps (keeps_sendRekey _ _)

theorem ShutNext.execKeyxRx {p : Port} {mac nonce : Bytes} {switchAt : Nat} (h : Shut t) : ShutNext (execKeyxRx p mac nonce switchAt t) :=
  .done (.ite h (.ite (.ite (.linkDown (.onPort h)) (.onPort h)) (.ite (.beginJoin (.sendOn (.when (.irqMain (.onPort h)) .sendOn)))
    (.ite (.ite (.finishRekey h) (.ite (.finishRekey (.sendRekey h)) (.linkDown h))) h))))

theorem ShutNext.execAckTimer {p : Port} (h : Shut t) : ShutNext (execAckTimer p t) :=
  .done (.ite (by
    split
    · exact h
    · exact .sendBlock h) h)

end Sys2Proof.Machine
end

section
/-! SUPPORT. A closed data plane stays closed: the REC and TIME windows, the engine windows, resets, power and tamper responses. -/

namespace Sys2Proof.Machine

-- One theorem at a time: the check's memory limit leaves no room for a thread for each.
set_option Elab.async false

variable {t : State}

/-! ### The REC and TIME windows -/

theorem Shut.recBusy {c : CoreId} {cmd : Nat} (h : Shut t) : Shut (recBusy t c cmd) := h
theorem Shut.recEnd {e : Status} (h : Shut t) : Shut (recEnd t e) := .irqAll h
theorem Shut.recQueue {c : CoreId} {r : Record} (h : Shut t) : Shut (recQueue t c r) := .ite (.beginHead h) (.irqAll (.onStore (.beginHead h)))

theorem Shut.recAppend {c : CoreId} (h : Shut t) : Shut (recAppend t c) := by
  unfold Machine.recAppend
  extract_lets _ s1
  have h1 : Shut s1 := .recBusy h
  refine .ite (.recEnd h1) ?_
  refine .ite (.recEnd h1) ?_
  refine .ite (.recEnd h1) ?_
  split
  · exact .recEnd h1
  · refine .ite (.recEnd h1) ?_
    extract_lets _
    split
    · exact .recQueue (.onStore h1)
    · exact .recQueue h1

theorem Shut.recRead {c : CoreId} (h : Shut t) : Shut (recRead t c) := .ite (.recEnd (.recBusy h)) (.ite (.recEnd (.recBusy h)) (.recBusy h))

theorem ShutNext.execRecReadDone (h : Shut t) : ShutNext (execRecReadDone t) :=
  .done (.when h fun h => by
    extract_lets _
    split
    · exact .recEnd h
    · exact .ite (.recEnd (.writeStr h)) (.recEnd (.writeStr (.writeStr h))))

theorem Shut.recBegin {c : CoreId} {parts : Nat} (h : Shut t) : Shut (recBegin t c parts) :=
  .ite (.recEnd (.recBusy h)) (.ite (.recEnd (.recBusy h)) (.ite (.recEnd (.recBusy h)) (.recQueue (.openTx (.recBusy h)))))

theorem Shut.rollBack {key : Nat} (h : Shut t) : Shut (rollBack t key) := h.of_keeps (keeps_rollBack _ _)

theorem Shut.recAbort {c : CoreId} (h : Shut t) : Shut (recAbort t c) :=
  .ite (.recEnd (.recBusy h)) (.ite (.recEnd (.recBusy h)) (.recEnd (.rollBack (.recBusy h))))

theorem Shut.recHotWrite {c : CoreId} (h : Shut t) : Shut (recHotWrite t c) := by
  unfold Machine.recHotWrite
  extract_lets _ s1 _ _ _
  have h1 : Shut s1 := .recBusy h
  refine .ite (.recEnd h1) ?_
  split
  · exact .recEnd h1
  · refine .ite (.recEnd h1) ?_
    refine .ite (.recEnd h1) ?_
    refine .ite (.recEnd h1) ?_
    split
    · exact .recEnd h1
    · exact .recEnd (.foldl h1 fun _ h => .hotPut h)

theorem Shut.recHotRead {c : CoreId} (h : Shut t) : Shut (recHotRead t c) := by
  unfold Machine.recHotRead
  extract_lets _ s1 _
  have h1 : Shut s1 := .recBusy h
  refine .ite (.recEnd h1) ?_
  split
  · exact .recEnd h1
  · exact .recEnd (.writeStr h1)

theorem Shut.recCmd {c : CoreId} {v : BitVec 32} (h : Shut t) : Shut (recCmd t c v) := by
  unfold Machine.recCmd
  extract_lets _ op
  refine .ite h ?_
  refine .ite (.recEnd (.recBusy h)) ?_
  clear_value op
  split
  · exact .recAppend h
  · exact .recRead h
  · exact .recBegin h
  · exact .recAbort h
  · exact .recHotWrite h
  · exact .recHotRead h
  · exact .recEnd (.recBusy h)

theorem Shut.timeCmd {c : CoreId} {v : Nat} (h : Shut t) : Shut (timeCmd t c v) := by
  unfold Machine.timeCmd
  refine .ite h ?_
  extract_lets _ _
  refine .ite h ?_
  refine .ite h ?_
  split
  · exact h
  · split
    · exact h
    · exact .onTime (.acceptVoucher h)

theorem Shut.timeNowLow {c : CoreId} (h : Shut t) : Shut (timeNowLow t c).2 := .onTime h

/-! ### The engine windows -/

theorem Shut.ledStart (h : Shut t) : Shut (ledStart t) := h
theorem Shut.ledFail {e : Status} (h : Shut t) : Shut (ledFail t e) := h
theorem Shut.ledRoll (h : Shut t) : Shut (ledRoll t) := .ite (.ledFail h) (.startRoll (.setWait h))

theorem Shut.ledCmd {v : Nat} (h : Shut t) : Shut (ledCmd t v) := by
  unfold Machine.ledCmd
  refine .ite h ?_
  extract_lets s1
  have h1 : Shut s1 := .ledStart h
  split
  · split
    · exact .ledFail h1
    · exact .startQuery h1
  · split
    · exact .ledFail h1
    next e =>
      exact (ShutOk.startVoid h1).get e
  · exact .ledRoll h1
  · exact .startCheckpoint (.onLed h1)
  · exact .ledFail h1

theorem Shut.onLaneSt {l : Nat} {f : LaneSt → LaneSt} (h : Shut t) : Shut (onLaneSt t l f) := h
theorem Shut.ctlFetch {c : CoreId} {entry : Bytes} (h : Shut t) : Shut (ctlFetch t c entry) := .ite h (.writeStr (.fetchCtl h))

theorem Shut.ctlComplete {c : CoreId} {hook : Bool} (h : Shut t) : Shut (ctlComplete t c hook) := by
  unfold Machine.ctlComplete
  split
  · exact .when (.complete h) fun h => .callHook h
  · exact h

theorem Shut.dmaStart {toHost : Bool} (h : Shut t) : Shut (dmaStart t toHost) := h
theorem Shut.dmaIn {c : CoreId} {b : Bytes} (h : Shut t) : Shut (dmaIn t c b) := .ite h (.ite (.dmaStart h) (.writeStr (.dmaStart h)))

theorem Shut.dmaOut {c : CoreId} (h : Shut t) : Shut (dmaOut t c) := by
  unfold Machine.dmaOut
  refine .ite h ?_
  extract_lets s1
  have h1 : Shut s1 := .dmaStart h
  refine .ite h1 ?_
  split
  · exact .onOut h1
  · exact .onHq h1

theorem Shut.planePause (h : Shut t) : Shut (planePause t) := .when h fun h => .cause h
theorem Shut.hqBind {v : BitVec 32} (h : Shut t) : Shut (hqBind t v) := .when h fun h => .onSq h

theorem Shut.pubEnd (h : Shut t) : Shut (pubEnd t) := by
  unfold Machine.pubEnd
  split
  · exact .ite h (.irqMain h)
  · exact h

theorem Shut.fabStart (h : Shut t) : Shut (fabStart t) := h
theorem Shut.fabKeyRequest (h : Shut t) : Shut (fabKeyRequest t) := .ite (.fabCode h) (.ite (.sendTo h) (.fabCode h))
theorem Shut.fabRollQuery (h : Shut t) : Shut (fabRollQuery t) := .ite (.fabCode h) (.sendTo h)

theorem Shut.fabCmd {v : Nat} (h : Shut t) : Shut (fabCmd t v) := by
  unfold Machine.fabCmd
  refine .ite h ?_
  extract_lets s1
  have h1 : Shut s1 := .fabStart h
  split
  · split
    · exact .fabCode h1
    · exact .startHandBack h1
  · exact .withdraw h1
  · exact .fabKeyRequest h1
  · exact .fabRollQuery h1
  · exact .fabCode h1

theorem Shut.nvmeCmd {v : BitVec 32} (h : Shut t) : Shut (nvmeCmd t v) := by
  unfold Machine.nvmeCmd
  extract_lets _
  refine .ite h ?_
  split
  · exact .when h .onDrive
  · exact .dropDrive h
  · exact h

theorem Shut.doorbell {v : BitVec 32} (h : Shut t) : Shut (doorbell t v) := .when (.when h fun h => .cause (.ring h)) .dbAlert
theorem Shut.irqClear {c : CoreId} {mask setNow : BitVec 32} (h : Shut t) : Shut (irqClear t c mask setNow) := h
theorem Shut.onPeerMail {c : CoreId} {f : Mail → Mail} (h : Shut t) : Shut (onPeerMail t c f) := h
theorem Shut.onGateMail {c : CoreId} {f : Mail → Mail} (h : Shut t) : Shut (onGateMail t c f) := h
theorem Shut.peerSend {c : CoreId} {count : Nat} (h : Shut t) : Shut (peerSend t c count) := .when h fun h => .irq (.onPeerMail (.onPeerMail h))
theorem Shut.peerAck {c : CoreId} (h : Shut t) : Shut (peerAck t c) := .when (.onPeerMail h) fun h => .irq (.onPeerMail h)
theorem Shut.gateIrq {c : CoreId} (h : Shut t) : Shut (gateIrq t c) := .ite (.irq h) (.irqMain h)
theorem Shut.gateSend {c : CoreId} {count : Nat} (h : Shut t) : Shut (gateSend t c count) := .when h fun h => .gateIrq (.onGateMail (.onGateMail h))

theorem Shut.gateAck {c : CoreId} (h : Shut t) : Shut (gateAck t c) := by
  unfold Machine.gateAck
  exact .when (.onGateMail h) fun h => .gateIrq (.onGateMail h)

theorem ShutNext.execMbxGAck {c : CoreId} (h : Shut t) : ShutNext (execMbxGAck c t) := by
  unfold Machine.execMbxGAck
  exact .done (.winCmd h .gateAck)

theorem Shut.gotWord {p : W36 × State} (h : Shut p.2) : Shut (gotWord p) := h

theorem Shut.earlyRead {c : CoreId} {a : ResultWin} (h : Shut t) : Shut (earlyRead t c a) := by
  unfold Machine.earlyRead
  split
  · exact h
  · exact .digUpd h
  · exact h
  · exact h
  · exact h

/-! ### Roles, resets and power states -/

theorem Shut.coreReset {c : CoreId} (h : Shut t) : Shut (coreReset t c) := h.of_keeps (coreReset_resets _ _).1

/-- The main reset closes the plane itself. -/
theorem Shut.mainReset (t : State) : Shut (mainReset t) := rfl

theorem Shut.standbyReset (h : Shut t) : Shut (standbyReset t) := by
  unfold Machine.standbyReset
  exact .onMgt (.onKey (.onTime (.onStore (.coreReset h))))

theorem Shut.moveRole {c : CoreId} (h : Shut t) : Shut (moveRole t c) := h.of_keeps (keeps_moveRole _ _)
theorem Shut.roleRefuse {c : CoreId} (h : Shut t) : Shut (roleRefuse t c) := h
theorem Shut.roleOk {c : CoreId} (h : Shut t) : Shut (roleOk t c) := h

theorem Shut.applyRecords (h : Shut t) : Shut (applyRecords t) :=
  .foldl h fun _ h => by
    split
    · extract_lets _ _ _
      split
      · exact .when h .finishChange
      · exact h
    · exact h

theorem Shut.roleGive {c : CoreId} (h : Shut t) : Shut (roleGive t c) :=
  .ite h (.ite (.roleRefuse h) (.ite (.cause (.ring (.moveRole (.roleOk h)))) (.roleRefuse h)))

theorem Shut.roleTake {c : CoreId} (h : Shut t) : Shut (roleTake t c) :=
  .ite h (.ite (.roleRefuse h) (.ite (.cause (.ring (.moveRole (.roleOk h)))) (.endCtl (.applyRecords (.moveRole (.roleOk h))))))

theorem Shut.pwrRole {c : CoreId} {v : BitVec 32} (h : Shut t) : Shut (pwrRole t c v) := by
  unfold Machine.pwrRole
  split
  · exact .roleGive h
  · exact .roleTake h
  · exact h

theorem Shut.peerReset {c : CoreId} {v : BitVec 32} (h : Shut t) : Shut (peerReset t c v) :=
  .ite h (.ite (.onUnit (.coreUpd (.coreReset h))) (.coreUpd (.coreReset h)))

theorem ShutNext.execMainPgoodFall (h : Shut t) : ShutNext (execMainPgoodFall t) := by
  unfold Machine.execMainPgoodFall
  exact .done (.when h fun _ => .onPow (.mainReset _))

theorem Shut.killStopped (h : Shut t) : Shut (killStopped t) := by
  unfold Machine.killStopped
  split
  · refine .ite ?_ h
    split
    next e =>
      exact .onStore (.progPage (.progPages ((ShutPlace.placeIn h).get e)))
    · exact h
  · exact h

theorem ShutNext.execSysReset (h : Shut t) : ShutNext (execSysReset t) := by
  unfold Machine.execSysReset
  exact .done (.when h fun _ => .onPow (.standbyReset (.mainReset _)))

theorem Shut.resumeAppends (h : Shut t) : Shut (resumeAppends t) := .ctlGo (.beginHead (.onStore (.killStopped (.finishSave h))))
theorem Shut.disarmRails (h : Shut t) : Shut (disarmRails t) := h

theorem Shut.standbyStop (t : State) : Shut (standbyStop t) := by
  unfold Machine.standbyStop
  exact .onPow (.onTmp (.onMgt (.onDig (.onUnit (.onKey (.onStore (.standbyReset (.mainReset _))))))))

theorem ShutNext.execStandbyDomainStop (h : Shut t) : ShutNext (execStandbyDomainStop t) := by
  unfold Machine.execStandbyDomainStop
  exact .done (.when h fun _ => .standbyStop _)

theorem ShutNext.execVaultEnter (h : Shut t) : ShutNext (execVaultEnter t) := by
  unfold Machine.execVaultEnter
  exact .done (.when h fun h => .onPow (.when h fun _ => .standbyStop _))

theorem ShutNext.execTotalPowerLoss (h : Shut t) : ShutNext (execTotalPowerLoss t) := by
  unfold Machine.execTotalPowerLoss
  exact .done (.when (.onPow (.onTmp (.onTime (.onKey (.when h fun _ => .standbyStop _))))) .mgtAlert)

theorem Shut.pwrNap (h : Shut t) : Shut (pwrNap t) := by
  unfold Machine.pwrNap
  split
  · exact h
  · exact .irqAll h

theorem Shut.keepOff (t : State) : Shut (keepOff t) := .onPow (.irqAll (.mainReset _))

theorem Shut.keepAdvance (h : Shut t) : Shut (keepAdvance t) := by
  unfold Machine.keepAdvance
  split
  · exact .ite (.startCheckpoint (.onPow h)) h
  · refine .ite h ?_
    extract_lets s1
    have h1 : Shut s1 := .foldl (.nvme h) fun _ h => .onDrive h
    exact .ite (.onPow (.ite h1 (.withdraw h1))) (.keepOff _)
  · exact h

theorem Shut.pwrKeep (h : Shut t) : Shut (pwrKeep t) := .ite h (.ite h (.keepAdvance (.closeGroup (.closeGroup (.when h fun _ => .closePlane _)))))

theorem Shut.pwrReq {c : CoreId} {v : BitVec 32} (h : Shut t) : Shut (pwrReq t c v) := by
  unfold Machine.pwrReq
  split
  · exact .ite h (.pwrNap h)
  · exact .ite h (.pwrKeep h)
  · exact .ite (.when h id) h
  · exact h

theorem ShutNext.execKeepWithdrawWaitTimeout (h : Shut t) : ShutNext (execKeepWithdrawWaitTimeout t) := by
  unfold Machine.execKeepWithdrawWaitTimeout
  exact .done (.when h fun _ => .keepOff _)

theorem ShutNext.execTakeoverRx {f : MFrame} (h : Shut t) : ShutNext (execTakeoverRx f t) := by
  unfold Machine.execTakeoverRx
  exact .done (.when (.takeoverRx h) fun _ => .keepOff _)

theorem Shut.dozeWake (h : Shut t) : Shut (dozeWake t) := h.of_keeps (keeps_dozeWake _)

theorem ShutNext.execKeepWake (h : Shut t) : ShutNext (execKeepWake t) :=
  .done (.when h fun h => by
    extract_lets s1
    have h1 : Shut s1 := h
    split
    · exact .when h1 id
    · exact .when h1 id
    · exact .dozeWake h1
    · exact h1
    · exact h1)

/-! ### Tamper responses -/

theorem Shut.logEvent {sensor level own : Nat} {measured : BitVec 32} (h : Shut t) : Shut (logEvent t sensor level own measured) :=
  .ite h (.onTmp (.append h))

theorem Shut.latchEvent {sensor : Nat} (h : Shut t) : Shut (latchEvent t sensor) := h
theorem Shut.wipeVoile (h : Shut t) : Shut (wipeVoile t) := h

theorem Shut.abortKey (h : Shut t) : Shut (abortKey t) :=
  .when h fun h => .irqMain (.onKey (by
    split
    · exact .dropHandle h
    · exact h))

theorem Shut.abortCtlKey (h : Shut t) : Shut (abortCtlKey t) := by
  unfold Machine.abortCtlKey
  split
  · exact .when h .endCtl
  · exact h

theorem Shut.abortLinks (h : Shut t) : Shut (abortLinks t) := .foldl h fun _ h => .ite (.linkDown h) h
theorem Shut.abortKeyOps (h : Shut t) : Shut (abortKeyOps t) := .abortLinks (.rngAbort (.rngAbort (.when (.abortCtlKey (.abortKey h)) .digEnd)))

theorem Shut.settleReqs (h : Shut t) : Shut (settleReqs t) :=
  .foldl h fun _ h => by
    split
    · exact .ite (.endReq h) (.ite (.endMint h) h)
    · exact h

theorem Shut.stepsHalt (h : Shut t) : Shut (stepsHalt t) := .dbAlert (.cause (.closeGroup (.closeGroup (.settleReqs (.abortKeyOps (.cause h))))))
theorem Shut.zeroKeys (h : Shut t) : Shut (zeroKeys t) := .rngZero (.digEnd h)
theorem Shut.loadTerms (h : Shut t) : Shut (loadTerms t) := .ite h (.ite (.onView (.onFab (.onView h))) (.onView h))

theorem Shut.loseHbm (h : Shut t) : Shut (loseHbm t) :=
  .loadTerms (.onFab (.onLed (.onHbm (.when (.foldl h fun _ h => by
    split
    · exact .endReq h
    · exact h) .endWait))))

theorem Shut.flushDone (h : Shut t) : Shut (flushDone t) :=
  .when h fun h => .loseHbm (.foldl (.onTmp (.when h .withdraw)) fun _ h => .ite h (.linkDown h))

theorem Shut.respond {old own : Nat} (h : Shut t) : Shut (respond t old own) :=
  .ite (.ite (.onPow (.mainReset _)) h) (.when (.when h .stepsHalt) fun h => .onTmp (.zeroKeys h))

theorem Shut.tamperAlarm {sensor : Nat} {measured : BitVec 32} (h : Shut t) : Shut (tamperAlarm t sensor measured) := by
  unfold Machine.tamperAlarm
  refine .ite h ?_
  extract_lets _ _ _ s1 s2 s3 s4 s5
  have h2 : Shut s2 := .logEvent (.onTmp h)
  have h4 : Shut s4 := .mgtAlert (.onTmp h2)
  have h5 : Shut s5 := .when h4 .zeroKeys
  exact .ite (.ite (.wipeVoile h) (.latchEvent h)) (.ite h2 (.ite (.respond h4) (.ite (.wipeVoile h5) (.onTmp h5))))

theorem Shut.startRestart (h : Shut t) : Shut (startRestart t) := h
theorem Shut.endResponse (h : Shut t) : Shut (endResponse t) := h
theorem Shut.rejoin (h : Shut t) : Shut (rejoin t) := .ite h (.flood (.onView h))

end Sys2Proof.Machine
end

section
/-! SUPPORT. A closed data plane stays closed: recovery, the start of the main die and the key store. -/

namespace Sys2Proof.Machine

-- One theorem at a time: the check's memory limit leaves no room for a thread for each.
set_option Elab.async false

variable {t : State}

/-! ### Recovery and the ends of appends -/

theorem Shut.recoverMarks {rs : List Record} (h : Shut t) : Shut (recoverMarks t rs).1 := by
  unfold Machine.recoverMarks
  refine .foldlFst h fun p hx => ?_
  split
  · exact .when hx fun h => .progPage h
  · exact .progPage hx
  · exact hx

theorem Shut.recoverRun {rd : Nat → Bytes} {run : BitVec 2 × List Nat} (h : Shut t) : Shut (recoverRun rd t run) :=
  .foldl (.onStore (.recoverMarks h)) fun _ h => .eraseSector h

theorem Shut.settleIntent {i : Record} (h : Shut t) : Shut (settleIntent t i) := .ite (.txnDone h) (.killRecs h)

theorem Shut.recoverArray {flips : List (Nat × Nat)} (h : Shut t) : Shut (recoverArray t flips).1 := by
  unfold Machine.recoverArray
  exact .onStore (.foldl (.onStore (.foldl (.onStore h) fun _ h => .recoverRun h)) fun _ h => .settleIntent h)

theorem Shut.recoverHot {prev : Nat} (h : Shut t) : Shut (recoverHot t prev) := by
  unfold Machine.recoverHot
  exact .onStore (.hotPut (.hotPut (.ite h (by split <;> exact h))))

theorem Shut.rebuildGate (h : Shut t) : Shut (rebuildGate t) := .ite h h
theorem Shut.logConflicts (h : Shut t) : Shut (logConflicts t) := .foldl h fun _ h => .foldl h fun _ h => .append h
theorem Shut.clearSaveArea (h : Shut t) : Shut (clearSaveArea t) := .foldl h fun _ h => .eraseSector h

theorem Shut.flushLatch (h : Shut t) : Shut (flushLatch t) := by
  unfold Machine.flushLatch
  exact .onTmp (.foldl h fun _ h => .append h)

theorem Shut.mainStart (h : Shut t) : Shut (mainStart t) := .when h .onPow

theorem ShutNext.execRecordStoreRecoveryDone {f : RecoveryFind} (h : Shut t) : ShutNext (execRecordStoreRecoveryDone f t) :=
  .done (.when h fun h => .mainStart (.foldl (.flushLatch (.logConflicts (.clearSaveArea (.append (.onStore (.rebuildGate (.recoverHot (.onStore
    (.recoverArray h))))))))) fun _ h => .evacuate h))

theorem Shut.sendMsg {m : MgtMsg} {b : Bytes} (h : Shut t) : Shut (sendMsg t m b) := h

theorem Shut.proposed {ok : Bool} (h : Shut t) : Shut (proposed t ok) := by
  unfold Machine.proposed
  split
  · exact .ite (.sendMsg (.post h)) (.sendMsg h)
  · exact h

theorem Shut.afterAppend {a : Append} (h : Shut t) : Shut (afterAppend t a) := by
  unfold Machine.afterAppend
  extract_lets s1
  have h1 : Shut s1 := .when (.when h fun h => .irqAll h) .keyRecorded
  split
  · exact .ite (.leaseCommitted h1) h1
  · exact .ite (.leaseMirrorCommitted h1) h1
  · exact .ite (.keepAdvance (.checkpointCommitted h1)) h1
  · exact .entryCommitted h1
  · split
    · exact .ite (.writeRoll h1) h1
    · exact h1
  · exact .ite (.keyReceipt h1) h1
  · exact .when h1 fun h => .unveil h
  · exact .proposed h1
  · exact h1

theorem Shut.failAppend {a : Append} (h : Shut t) : Shut (failAppend t a) := by
  unfold Machine.failAppend
  extract_lets s1 s2 s3 s4
  have h1 : Shut s1 := .when (.when h fun h => .irqAll h) .keyRecorded
  have h2 : Shut s2 := .onLed h1
  have h3 : Shut s3 := by
    unfold s3
    split
    · exact .dropHandle h1
    · exact h1
  have h4 : Shut s4 := by
    unfold s4
    split
    · exact .dropHandle h1
    · exact h1
  split
  · exact .ite (.irqMain (.onLed h2)) h2
  · exact .entryCommitted h1
  · exact .ite (.endCtl h1) h1
  · exact .ite (.failRoll h1) h1
  · exact .proposed h1
  · exact .onStore h1
  · exact .onKey h3
  · exact .onKey h4
  · exact h1

theorem ShutNext.execRecAppendCommit {verify : Bool} (h : Shut t) : ShutNext (execRecAppendCommit verify t) :=
  .done (by
    split
    · refine .ite h ?_
      extract_lets s2 s3
      have h2 : Shut s2 := h
      have h3 : Shut s3 := .ite (.compact h) (.ctlGo (.beginHead (.failAppend (.observe h2))))
      refine .ite ?_ ?_
      · split
        next e =>
          exact .ctlGo (.beginHead (.afterAppend ((ShutSome.commitRec h2).get e)))
        · exact h3
      · split
        next e =>
          have hdead := (ShutSome.writeDead h).get e
          exact .ite (.onStore hdead) (.ctlGo (.beginHead (.failAppend (.observe (.onStore hdead)))))
        · exact h3
    · exact h)

/-! ### The start of the main die -/

theorem Shut.recordUnit {u : Nat} (h : Shut t) : Shut (recordUnit t u) := .ite (.cause (.ring (.append h))) (.append h)
theorem Shut.bootUnit {u : Nat} {st : UState} {reason : Byte} (h : Shut t) : Shut (bootUnit t u st reason) := .ite h (.recordUnit (.setUnit h))
theorem Shut.restoreUnits (h : Shut t) : Shut (restoreUnits t) := h.of_keeps (keeps_restoreUnits _)
theorem Shut.enterRam {c : CoreId} {kind : BitVec 2} (h : Shut t) : Shut (enterRam t c kind) := h.of_keeps (keeps_enterRam _ _ _)
theorem Shut.startNoise (h : Shut t) : Shut (startNoise t) := h.of_keeps (keeps_startNoise _)
theorem Shut.startCores (h : Shut t) : Shut (startCores t) := h.of_keeps (keeps_startCores _)
theorem Shut.enterSafe (h : Shut t) : Shut (enterSafe t) := h
theorem Shut.measureBank {b : Bank} (h : Shut t) : Shut (measureBank t b) := h.of_keeps (keeps_measureBank _ _)

theorem Shut.acceptBank {n : BitVec 1} {b : Bank} (h : Shut t) : Shut (acceptBank t n b) :=
  .ite (.enterRam (.coreUpd (.coreUpd (.coreUpd (.measureBank h))))) (.coreUpd (.coreUpd (.measureBank h)))

theorem Shut.rejectBank {n : BitVec 1} {k : Nat} (h : Shut t) : Shut (rejectBank t n k) := by
  unfold Machine.rejectBank
  extract_lets s1
  have h1 : Shut s1 := h
  exact .ite (.enterSafe h1) h1

theorem Shut.readHeaders {h0 h1 : Bytes} (h : Shut t) : Shut (readHeaders t h0 h1) := h

theorem Shut.bootBank {n : BitVec 1} {b : Bank} (h : Shut t) : Shut (bootBank t n b) := by
  unfold Machine.bootBank
  extract_lets _ _ s1
  have h1 : Shut s1 := .readHeaders h
  split
  · exact .enterSafe h1
  · refine .ite h1 ?_
    split
    · exact .rejectBank h1
    · exact .acceptBank h1

theorem Shut.reloadCores {b : Bank} (h : Shut t) : Shut (reloadCores t b) := .foldl h fun _ h => .ite (.ite (.enterRam (.coreUpd h)) (.coreUpd h)) h
theorem Shut.adoptEnd {outcome step seq : Nat} (h : Shut t) : Shut (adoptEnd t outcome step seq) := .mgtAlert (.onMgt (.onUnit (.append h)))
theorem Shut.liveTamper (h : Shut t) : Shut (liveTamper t) := h
theorem Shut.liveOther (h : Shut t) : Shut (liveOther t) := h

theorem Shut.adoptNext (h : Shut t) : Shut (adoptNext t) := by
  unfold Machine.adoptNext
  split
  · exact .changeUnit h
  · exact .cause (.adoptEnd h)

theorem Shut.adoptBank {b : Bank} (h : Shut t) : Shut (adoptBank t b) := by
  unfold Machine.adoptBank
  split
  · exact .ite (.enterRam (.coreUpd h)) (.adoptEnd h)
  · exact .onMgt (.onUnit (.ite (.enterRam (.coreUpd h)) (.coreUpd h)))
  · exact .adoptNext (.liveOther (.onUnit (.onMgt (.onDig (by
      split
      · exact .extend (.liveTamper (.enterRam (.coreUpd (.coreReset h))))
      · exact .liveTamper (.enterRam (.coreUpd (.coreReset h))))))))
  · exact h

theorem Shut.unitDrained {v : Nat} (h : Shut t) : Shut (unitDrained t v) := by
  unfold Machine.unitDrained
  extract_lets _ s1
  have h1 : Shut s1 := h
  exact .ite (.adoptNext (.changeUnit (.onUnit (.onLane h1)))) (.when h1 .decideUnit)

/-! ### Boot step 6 -/

theorem Shut.retireDevice (h : Shut t) : Shut (retireDevice t) := by
  unfold Machine.retireDevice
  exact .onKey (.onLane (.foldl (.onStore (.killRecs h)) fun _ h => .evacuate h))

theorem Shut.openRoot (h : Shut t) : Shut (openRoot t) := by
  unfold Machine.openRoot
  refine .ite h (.ite (.ite h (.retireDevice h)) ?_)
  extract_lets s1
  have h1 : Shut s1 := .reseed h
  exact .onKey (.drew h1)

theorem Shut.openVoile (h : Shut t) : Shut (openVoile t) := by
  unfold Machine.openVoile
  refine .ite h ?_
  extract_lets s1 _ s2
  have h2 : Shut s2 := .onKey (.drew (.reseed h))
  exact .ite (.append (.onKey h2)) h2

theorem Shut.loadCounts (h : Shut t) : Shut (loadCounts t) := h

theorem Shut.storePack {p : Bytes} (h : Shut t) : Shut (storePack t p) :=
  .appendRecord (.foldl (.appendRecord (.openTx h)) fun _ h => .settleKeys (.appendRecord (.drew h)))

theorem Shut.actOnPackage {p : Bytes} (h : Shut t) : Shut (actOnPackage t p) := by
  unfold Machine.actOnPackage
  split
  · exact .append h
  · split
    · exact .storePack h
    · exact .ite (.unveil (.storePack h)) (.onKey (.storePack h))
    · exact .storePack h
    · exact .retireDevice h

theorem Shut.enrolStep (h : Shut t) : Shut (enrolStep t) := by
  unfold Machine.enrolStep
  extract_lets s1
  have h1 : Shut s1 := by
    unfold s1
    split <;> exact h
  split
  · exact .actOnPackage h1
  · exact h1

theorem Shut.hbmKey (h : Shut t) : Shut (hbmKey t) := .onHbm (.drew h)
theorem Shut.hbmStep (h : Shut t) : Shut (hbmStep t) := h.of_keeps (keeps_hbmStep _)
theorem Shut.tryAttachEnd (h : Shut t) : Shut (tryAttachEnd t) := h.of_keeps (keeps_tryAttachEnd _)
theorem Shut.unwrapStore {n : Nat} {badSlots : List Nat} (h : Shut t) : Shut (unwrapStore t n badSlots) := .loadHolder (.foldl h fun _ h => .append h)

theorem Shut.recordRestored (h : Shut t) : Shut (recordRestored t) := .foldl h fun _ h => .ite h (.recordUnit h)

theorem Shut.openStore {badSlots : List Nat} {keyEngineOk : Bool} (h : Shut t) : Shut (openStore t badSlots keyEngineOk) := by
  unfold Machine.openStore
  extract_lets s1 s2 s3 s4 s5 s6 s7
  have h1 : Shut s1 := .openRoot (.loadCounts h)
  have h4 : Shut s4 := .when (.openVoile h1) fun h => .enrolStep (.unwrapStore h)
  have h7 : Shut s7 := .onPow (.onFab (.loadTerms h4))
  exact .ite (.onPow (.when h1 .observe)) (.ite (.when h1 fun h => .onPow (.unwrapStore h))
    (.tryAttachEnd (.hbmStep (.foldl (.recordRestored h7) fun _ h => .ite (.enterRam h) h))))

/-! ### Boot steps 7 to 9 -/

theorem ShutNext.execDriveReady {d : Nat} {labelA labelB : Bytes} {id : DriveId} (h : Shut t) : ShutNext (execDriveReady d labelA labelB id t) := by
  unfold Machine.execDriveReady
  exact .done (.when h fun h => .ite (.driveAttach h) (.ite (.tryAttachEnd (.onPow (.bootUnit (.onDrive (.nvme (.onDrive h)))))) (.tryAttachEnd
      (.onDrive (.nvme (.nvme (.makeQueues (.nvme (.onDrive h)))))))))

theorem Shut.replayBlock {b : JBlock} (h : Shut t) : Shut (replayBlock t b) := by
  unfold Machine.replayBlock
  exact .onLed (by
    split
    · exact .ite (.rollOwn h) (.rollShadow h)
    · exact .applyRecs h)

theorem Shut.replayFrom {n q : Nat} {prev : BitVec 128} (h : Shut t) : Shut (replayFrom t n q prev) := by
  induction n generalizing t q prev with
  | zero => exact h
  | succ n ih =>
    unfold Machine.replayFrom
    split
    · exact h
    · exact ih (.replayBlock h)

theorem Shut.loadPage {b : Base} {slot : Nat} (h : Shut t) : Shut (loadPage t b slot) := by
  unfold Machine.loadPage
  extract_lets _ _ _
  split
  · exact .setPage h
  · refine .ite h ?_
    split
    · exact .onLed (.setPage h)
    · exact h

theorem Shut.replay {b : Base} (h : Shut t) : Shut (replay t b) := by
  unfold Machine.replay
  exact .onLed (.foldl (.replayFrom (.retree (.foldl (.retree h) fun _ h => .loadPage h))) fun _ h => .when (.nvme (.onDrive h)) .nvme)

theorem ShutNext.execJournalReplayDone (h : Shut t) : ShutNext (execJournalReplayDone t) :=
  .done (.when h fun h => by
    split
    · exact h
    · exact .trySettle (.onPow (.onLed (.replay h))))

/-! ### Clock crossings -/

theorem Shut.onPulse {x : Nat} {f : PulseX → PulseX} (h : Shut t) : Shut (onPulse t x f) := h

theorem Shut.dropItem {p : Nat × Nat} (h : Shut t) : Shut (dropItem t p) := by
  unfold Machine.dropItem
  split
  · exact .endReq h
  · exact h

end Sys2Proof.Machine
end

section
/-! SUPPORT. A closed data plane stays closed: the management plane and the frames. -/

namespace Sys2Proof.Machine

-- One theorem at a time: the check's memory limit leaves no room for a thread for each.
set_option Elab.async false

variable {t : State}

/-! ### The management plane -/

theorem Shut.takeMsg {m : MgtMsg} (h : Shut t) : Shut (takeMsg t m) := h

theorem Shut.mctpAnswer {p : Nat → Bool} {code : Byte} {data : Bytes} {f : State → State} (h : Shut t) (hf : ∀ {u}, Shut u → Shut (f u)) :
    Shut (mctpAnswer t p code data f) := by
  unfold Machine.mctpAnswer
  split
  · exact .ite (.sendMsg (hf (.takeMsg h))) h
  · exact h

theorem Shut.graward {cmd : Nat} {f : GEffect} {msg : Bytes} (hf : ∀ {u} b, Shut u → ShutBody (f u b)) (h : Shut t) :
    Shut (graward cmd f msg t) := by
  unfold Machine.graward
  split
  · extract_lets _ r _ s3 s4
    have h3 : Shut s3 := .when h .ring
    have h4 : Shut s4 := .when (.takeMsg h3) id
    refine .ite h ?_
    clear_value r
    split
    · exact .sendMsg (.when h4 fun h => .when (.onMgt (.append h)) .mgtAlert)
    · split
      · exact .sendMsg h4
      next e =>
        exact .ite ((hf _ h4).get e) (.sendMsg ((hf _ h4).get e))
  · exact h

theorem ShutBody.telemetry {b : Bytes} (h : Shut t) : ShutBody (telemetry t b) :=
  .ite .error (.ite .error (.ite .error (.ite .error (.ite (.ite .error (.ok h)) (.ite .error (.ok h))))))

theorem ShutBody.propose {b : Bytes} (h : Shut t) : ShutBody (propose t b) := by
  unfold Machine.propose
  split
  · exact .error
  · exact .ite (.ok (.onMgt (.append h))) (.ok (.post (.append h)))

theorem ShutBody.stageBlock {readBack : Bool} {b : Bytes} (h : Shut t) : ShutBody (stageBlock readBack t b) :=
  .ite .error (.ite .error (.ite .error (.ite .error (.ite .error (.ok (.when h fun h => .append h))))))

theorem ShutBody.commitImage {b : Bytes} (h : Shut t) : ShutBody (commitImage t b) :=
  .ite .error (.ite .error (.ite .error (.ite .error (.ok (.when (.onMgt (.append (.append h))) fun h => .irqMain (.ring h))))))

theorem ShutBody.attestG {b : Bytes} (h : Shut t) : ShutBody (attestG t b) := by
  unfold Machine.attestG
  refine .ite .error ?_
  split
  · exact .error
  · exact .ok h

theorem ShutBody.voucherG {b : Bytes} (h : Shut t) : ShutBody (voucherG t b) := by
  unfold Machine.voucherG
  refine .ite .error ?_
  split
  · exact .error
  · exact .ok (.acceptVoucher h)

theorem ShutBody.clearAlertG {b : Bytes} (h : Shut t) : ShutBody (clearAlertG t b) := .ok h

theorem ShutBody.getLogG {b : Bytes} (h : Shut t) : ShutBody (getLogG t b) :=
  .ite .error (.ite .error (.ite .error (.ite .error (.ite .error (.ite (.ok h) (.ok h))))))

theorem Shut.mgtTake (h : Shut t) : Shut (mgtTake t) := by
  unfold Machine.mgtTake
  split
  · exact .writeStr (.takeMsg h)
  · exact h

theorem Shut.mgtSend (h : Shut t) : Shut (mgtSend t) := by
  unfold Machine.mgtSend
  split
  · exact .when h .sendMsg
  · exact h

theorem Shut.mgtSet {mask : BitVec 32} (h : Shut t) : Shut (mgtSet t mask) := h
theorem Shut.mgtClear {mask setNow : BitVec 32} (h : Shut t) : Shut (mgtClear t mask setNow) := h

theorem Shut.mgtCmd {c : CoreId} {a : Nat} {f : State → State} (h : Shut t) (hf : ∀ {u}, Shut u → Shut (f u)) : Shut (mgtCmd t c a f) :=
  .when h fun h => .winCmd h fun h => hf h

/-! ### Register commands and the host's registers -/

theorem Shut.dmaCmd {c : CoreId} {v : Nat} (h : Shut t) : Shut (dmaCmd t c v) := by
  unfold Machine.dmaCmd
  split
  · exact .dmaIn h
  · exact .dmaOut h
  · exact h

theorem Shut.rcClear {f : RcField} {setNow : Bool} (h : Shut t) : Shut (rcClear t f setNow) := by
  unfold Machine.rcClear
  split
  · exact h
  · exact h
  · exact h
  · exact h
  · exact .onPulse h

theorem Shut.busTrap {c : CoreId} {i : TrapInfo} {stall : Bool} {resume : Nat} (h : Shut t) : Shut (busTrap t c i stall resume) :=
  .trap (.when h .cdcStall)

theorem Shut.sqCfgWrite {n : Nat} {v : BitVec 32} (h : Shut t) : Shut (sqCfgWrite t n v) :=
  .ite (.ite (.when h .onSq) (.onSq h)) (.when h fun h => .when h .onSq)

theorem Shut.cqCfgWrite {n : Nat} {v : BitVec 32} (h : Shut t) : Shut (cqCfgWrite t n v) := .ite (.ite (.when h .onCq) (.onCq h)) (.when h .cqDisable)

theorem Shut.bar0Write {a size : Nat} {v : BitVec 64} {setNow : BitVec 32} (h : Shut t) : Shut (bar0Write t a size v setNow) :=
  .ite h (.ite (.onSq h) (.ite (.onCq h) (.ite h (.ite (.foldl h fun _ h => .when h .cause) (.ite (.when h .signal) (.ite (.sqCfgWrite h) (.ite
    (.onSq h) (.ite (.cqCfgWrite h) (.ite (.onCq h) (.ite (.onCq h) (.ite (.sqTail h) (.ite (.cqHead h) h))))))))))))

theorem Shut.bar2Write32 {a : Nat} {v : BitVec 32} (h : Shut t) : Shut (bar2Write32 t a v) := by
  unfold Machine.bar2Write32
  extract_lets _ _
  refine .ite h ?_
  split
  · exact h
  · exact h
  · exact h
  · exact .ite h (.when h .signal)

theorem Shut.bar2Write {a size : Nat} {v : BitVec 64} (h : Shut t) : Shut (bar2Write t a size v) :=
  .ite h (.ite (.bar2Write32 (.bar2Write32 h)) (.bar2Write32 h))

/-! ### Frames -/

theorem Shut.after {r : Result} (h : Shut t) (hr : ShutNext r) : Shut (after t r) := by
  cases r with
  | next u => exact hr u rfl
  | fault _ => exact h
  | refused _ => exact h

theorem Shut.deliverMember {k : MKind} {m : MFrame} (h : Shut t) : Shut (deliverMember t k m) :=
  .after h (by
    split
    · exact .execJoinRx h
    · exact .execWithdrawRx h
    · exact .execTakeoverRx h
    · exact .execExcludeRx h
    · exact .execShadowCompleteRx h
    · exact .execHandbackOfferRx h
    · exact .execHandbackAcceptRx h
    · exact .execRollQueryRx h
    · exact .execRollConfirmRx h
    · exact .execRollRefuseRx h
    · exact .execViewRx h
    · exact .execViewRequestRx h
    · exact .execDecisionAckRx h)

theorem Shut.deliver {p : Port} {f : Frame} (h : Shut t) : Shut (deliver t p f) := by
  unfold Machine.deliver
  split
  · exact .after h (.execVerdictFwdRx h)
  · exact .after h (.execVerdictReplyRx h)
  · exact .after h (.execMirrorJournalRx h)
  · exact .after h (.execPageRequestRx h)
  · exact .after h (.execVoidRequestRx h)
  · exact .after h (.execGroupAckRx h)
  · exact .after h (.execLeaseAckRx h)
  · exact .after h (.execPageRx h)
  · exact .after h (.execPageAbsentRx h)
  · exact .after h (.execVoidBlockRx h)
  · exact .after h (.execLeaseMirrorRx h)
  · exact .after h (.execHeartbeatRx h)
  · exact .after h (.execWitnessQueryRx h)
  · exact .after h (.execWitnessReplyRx h)
  · exact .after h (.execTimePulseRx h)
  · exact .after h (by
      split
      · exact .execKeyTransportRequestRx h
      · exact .execKeyTransportDeliverRx h
      · exact .execKeyTransportRefuseRx h
      · exact .execKeyTransportReceiptRx h)
  · exact .deliverMember h

theorem Shut.acceptFrame {p : Port} {b : Header} {payload : Bytes} (h : Shut t) : Shut (acceptFrame t p b payload) := by
  unfold Machine.acceptFrame
  extract_lets _ _
  split
  · exact .ite (.after h (.execVerdictFwdRx h)) (.discardFrame h)
  · extract_lets _ _
    refine .ite (.discardFrame h) ?_
    refine .ite (.discardFrame h) ?_
    refine .ite (.deliver h) ?_
    refine .ite (.discardFrame h) ?_
    split
    · exact .ite (.deliver h) (.routeFrame h)
    · exact .routeFrame h

theorem ShutNext.execFrameRoute {p : Port} {wire : Bytes} (h : Shut t) : ShutNext (execFrameRoute p wire t) :=
  .done (by
    extract_lets _ _ _
    refine .ite h ?_
    refine .ite (.rxFail h) ?_
    refine .ite (.ite (.rxFail h) h) ?_
    split
    · exact .rxFail h
    · exact .acceptFrame (.rxTurn (.onPort h)))

end Sys2Proof.Machine
end

section
/-! SUPPORT. The data plane opens only in OPERATIONAL (10 R572): the window registers and the data bus, through which alone a step can open it. -/

namespace Sys2Proof.Machine

-- One theorem at a time: the check's memory limit leaves no room for a thread for each.
set_option Elab.async false

/-- An open data plane is that of an OPERATIONAL device (10 R572). -/
def Licensed (t : State) : Prop := t.hq.open_ = true → lifecycle t = 3

/-- Every state that an outcome holds is licensed; one definition for each type of outcome. -/
def LicensedNext (r : Result) : Prop := ∀ t, r = .next t → Licensed t
def LicensedBus (b : Bus) : Prop := ∀ w t, b = .ok w t → Licensed t
def LicensedIter (i : Iter) : Prop := ∀ t j, i = .ok t j → Licensed t

/-- A register of the windows: reading it leaves the plane closed, and writing it opens the plane only under the licence. -/
structure LicensedReg (r : Reg) : Prop where
  rd : ∀ {t : State} {c : CoreId}, Shut t → Shut (r.rd t c).2
  wr : ∀ {t : State} {c : CoreId} {w : W36}, Shut t → Licensed (r.wr t c w)
def LicensedWin (o : Option Reg) : Prop := ∀ r, o = some r → LicensedReg r

variable {t u : State}

theorem Shut.licensed (h : Shut t) : Licensed t := fun ho => absurd ho (by rw [h]; decide)

/-- The life-cycle state is a function of the key block. -/
theorem lifecycle_congr (hk : u.key = t.key) : lifecycle u = lifecycle t := by
  unfold lifecycle voileValid
  rw [hk]

/-- A change of parts that hold neither the plane's state nor the key block. -/
theorem Licensed.of_keeps {l : List Part} (h : Licensed t) (hk : Keeps l t u) (hhq : Part.hq ∉ l := by decide)
    (hkey : Part.key ∉ l := by decide) : Licensed u := fun ho =>
  (lifecycle_congr (hk .key hkey)).trans (h ((congrArg HqSt.open_ (hk .hq hhq)).symm.trans ho))

theorem Licensed.ite {c : Prop} [Decidable c] (ht : Licensed t) (hu : Licensed u) : Licensed (if c then t else u) := by
  split
  · exact ht
  · exact hu

theorem Licensed.when {b : Bool} {f : State → State} (h : Licensed t) (hf : ∀ {u}, Licensed u → Licensed (f u)) : Licensed (t.when b f) :=
  .ite (hf h) h

theorem Licensed.coreUpd {c : CoreId} {f : Core → Core} (h : Licensed t) : Licensed (coreUpd t c f) := h.of_keeps (keeps_coreUpd _ _ _)
theorem Licensed.finish {c : CoreId} {pc : Nat} {ei : Bool} (h : Licensed t) : Licensed (finish t c pc ei) := h.of_keeps (keeps_finish _ _ _ _)

theorem LicensedNext.done (h : Licensed t) : LicensedNext (done t) := by rintro _ ⟨⟩; exact h
theorem LicensedNext.of_shut {r : Result} (h : ShutNext r) : LicensedNext r := fun t e => (h t e).licensed
theorem LicensedBus.get {b : Bus} {w : W36} (h : LicensedBus b) (e : b = .ok w t) : Licensed t := h w t e
theorem LicensedBus.bad {i : TrapInfo} {b : Bool} : LicensedBus (.bad i b) := by rintro _ _ ⟨⟩
theorem LicensedBus.ok {w : W36} (h : Licensed t) : LicensedBus (.ok w t) := by rintro _ _ ⟨⟩; exact h
theorem LicensedBus.ite {c : Prop} [Decidable c] {x y : Bus} (hx : LicensedBus x) (hy : LicensedBus y) : LicensedBus (if c then x else y) := by
  split
  · exact hx
  · exact hy

theorem LicensedWin.get {o : Option Reg} {r : Reg} (h : LicensedWin o) (e : o = some r) : LicensedReg r := h r e
theorem LicensedWin.none : LicensedWin none := by rintro _ ⟨⟩
theorem LicensedWin.some {r : Reg} (h : LicensedReg r) : LicensedWin (some r) := by rintro _ ⟨⟩; exact h
theorem LicensedWin.ite {c : Prop} [Decidable c] {x y : Option Reg} (hx : LicensedWin x) (hy : LicensedWin y) : LicensedWin (if c then x else y) := by
  split
  · exact hx
  · exact hy

/-! ### The opening of the plane -/

theorem Licensed.openData (h : operational t = true) : Licensed (openData t) := fun _ =>
  (lifecycle_congr (keeps_openPlane _ .key (by simp))).trans (beq_iff_eq.mp h)

theorem Licensed.openIf {b : Bool} (hb : b = true → operational t = true) (hu : Licensed u) :
    Licensed (if b = true then Machine.openData t else u) := by
  split
  next ho => exact .openData (hb ho)
  · exact hu

theorem Shut.resumePlane (h : Shut t) : Shut (resumePlane t) := .cause h

/-- HQ_PLANE open opens the plane only past its test of the life-cycle state. -/
theorem Licensed.planeOpenCmd (h : Shut t) : Licensed (planeOpenCmd t) := by
  unfold Machine.planeOpenCmd
  extract_lets s1
  have h1 : Shut s1 := .endResponse (.rejoin h)
  have resume : ∀ {u : State} {b : Bool}, Shut u → Licensed (u.when b resumePlane) := fun hu => Shut.licensed (.when hu .resumePlane)
  have ready : ∀ {u : State} {a c : Bool}, (a && operational u && c) = true → operational u = true := fun hb =>
    (Bool.and_eq_true_iff.mp (Bool.and_eq_true_iff.mp hb).1).2
  refine .ite (.ite h.licensed (.ite ?levelOne ?levelTwo)) ?noResponse
  case levelOne => exact .ite (resume h1) (.openIf ready (Shut.licensed (.onLed (.onHq h1))))
  case levelTwo => exact .openIf (fun hb => (Bool.and_eq_true_iff.mp hb).2) h.licensed
  case noResponse => exact .ite (resume h) (.openIf ready h.licensed)

theorem Licensed.planeCmd {v : Nat} (h : Shut t) : Licensed (planeCmd t v) := by
  unfold Machine.planeCmd
  split
  · exact .planeOpenCmd h
  · exact (Shut.planePause h).licensed
  · exact h.licensed

/-! ### Window registers and the data bus -/

theorem LicensedReg.regRo {f : State → CoreId → W36} : LicensedReg (regRo f) := ⟨id, Shut.licensed⟩
theorem LicensedReg.regRoI {f : State → CoreId → BitVec 32} : LicensedReg (regRoI f) := .regRo

theorem LicensedReg.regRes {w : ResultWin} {f : State → CoreId → W36} : LicensedReg (regRes w f) where
  rd {t c} h := by
    show Shut (if resultBusy t c w then (_, earlyRead t c w) else _).2
    split
    · exact .earlyRead h
    · exact h
  wr := Shut.licensed

theorem LicensedReg.regWo {tags : List (BitVec 4)} {aOnly : Bool} {f : State → CoreId → W36 → State}
    (hf : ∀ {u} c w, Shut u → Shut (f u c w)) : LicensedReg (regWo tags aOnly f) :=
  ⟨id, fun h => (hf _ _ h).licensed⟩

theorem LicensedReg.regRw {tags : List (BitVec 4)} {aOnly : Bool} {g : State → CoreId → W36} {f : State → CoreId → W36 → State}
    (hf : ∀ {u} c w, Shut u → Shut (f u c w)) : LicensedReg (regRw tags aOnly g f) :=
  ⟨id, fun h => (hf _ _ h).licensed⟩

theorem LicensedWin.keyReg {a : Nat} : LicensedWin (keyReg a) := by
  unfold Machine.keyReg
  split
  · exact .some (.regWo fun _ _ h => .keyCmd h)
  · exact .some .regRoI
  · exact .some (.regRw fun _ _ h => h)
  · exact .some (.regWo fun _ _ h => h)
  · exact .some (.regWo fun _ _ h => h)
  · exact .some (.regRw fun _ _ h => h)
  · exact .some (.regRw fun _ _ h => h)
  · exact .some (.regRw fun _ _ h => h)
  · exact .some (.regRw fun _ _ h => h)
  · exact .some .regRes
  · exact .some .regRes
  · exact .none

theorem LicensedWin.digReg {o : Nat} : LicensedWin (digReg o) := by
  unfold Machine.digReg
  refine .ite (.some .regRes) ?_
  refine .ite (.some ⟨.measWord, Shut.licensed⟩) ?_
  split
  · exact .some (.regWo fun _ _ h => .digBegin h)
  · exact .some .regRoI
  · exact .some (.regWo fun _ _ h => .digUpd h)
  · exact .some (.regRw fun _ _ h => .digUpd h)
  · exact .some (.regRw fun _ _ h => .digUpd h)
  · exact .some (.regWo fun _ _ h => .digAbsorb h)
  · exact .some (.regWo fun _ _ h => .digClose h)
  · exact .some (.regWo fun _ _ h => .digAbandon h)
  · exact .some .regRoI
  · exact .some .regRoI
  · exact .some .regRoI
  · exact .none

theorem LicensedWin.rngReg {o : Nat} : LicensedWin (rngReg o) := by
  unfold Machine.rngReg
  refine .ite (.some .regRoI) ?_
  split
  · exact .some (.regWo fun _ _ h => .rngCmd h)
  · exact .some .regRoI
  · exact .some (.regRw fun _ _ h => .rngUpd h)
  · exact .some (.regRw fun _ _ h => .rngUpd h)
  · exact .some (.regWo fun _ _ h => .rngSelect h)
  · exact .some (.regWo fun _ _ h => .when h id)
  · exact .some .regRes
  · exact .some .regRoI
  · exact .some .regRoI
  · exact .some .regRoI
  · exact .none

theorem LicensedWin.ledReg {o : Nat} : LicensedWin (ledReg o) := by
  unfold Machine.ledReg
  refine .ite (.some (.regWo fun _ _ h => h)) ?_
  split
  · exact .some (.regWo fun _ _ h => .ledCmd h)
  · exact .some .regRoI
  · exact .some .regRes
  · exact .some .regRoI
  · exact .some .regRoI
  · exact .some .regRoI
  · exact .some .regRoI
  · exact .none

theorem LicensedWin.laneReg {l a : Nat} : LicensedWin (laneReg l a) := by
  unfold Machine.laneReg
  split
  · exact .some .regRoI
  · exact .some .regRoI
  · exact .some (.regWo fun _ _ h => .when h .onLaneSt)
  · exact .some .regRes
  · exact .some (.regWo fun _ _ h => .purgeLane h)
  · exact .some .regRo
  · exact .none

theorem LicensedWin.fabReg {o : Nat} : LicensedWin (fabReg o) := by
  unfold Machine.fabReg
  refine .ite (.some .regRoI) ?_
  split
  · exact .some (.regWo fun _ _ h => .fabCmd h)
  · exact .some .regRoI
  · exact .some (.regWo fun _ _ h => h)
  · exact .some (.regWo fun _ _ h => h)
  · exact .some .regRoI
  · exact .some .regRoI
  · exact .some (.regWo fun _ _ h => h)
  · exact .some .regRoI
  · exact .none

theorem LicensedWin.hqReg {a : Nat} : LicensedWin (hqReg a) := by
  unfold Machine.hqReg
  split
  · exact .some .regRoI
  · exact .some (.regRw fun _ _ h => h)
  · exact .some (.regWo fun _ _ h => .ctlFetch h)
  · exact .some (.regRw fun _ _ h => h)
  · exact .some (.regWo fun _ _ h => .ctlComplete h)
  · exact .some (.regWo fun _ _ h => h)
  · exact .some (.regWo fun _ _ h => h)
  · exact .some (.regWo fun _ _ h => h)
  · exact .some (.regWo fun _ _ h => h)
  · exact .some (.regWo fun _ _ h => .dmaCmd h)
  · exact .some .regRoI
  · exact .some ⟨id, .planeCmd⟩
  · exact .some (.regWo fun _ _ h => .hqBind h)
  · exact .none

theorem LicensedWin.mailReg {o : Nat} {aOnly : Bool} {get : State → CoreId → Mail} {upd : State → CoreId → (Mail → Mail) → State}
    {send : State → CoreId → Nat → State} {ack : State → CoreId → State} (hupd : ∀ {u} c f, Shut u → Shut (upd u c f))
    (hsend : ∀ {u} c n, Shut u → Shut (send u c n)) (hack : ∀ {u} c, Shut u → Shut (ack u c)) :
    LicensedWin (mailReg o aOnly get upd send ack) :=
  .ite (.some (.regWo fun _ _ h => hupd _ _ h)) (.ite (.some (.regWo fun _ _ h => hsend _ _ h)) (.ite (.some .regRo)
    (.ite (.some (.regWo fun _ _ h => hack _ h)) .none)))

theorem LicensedWin.mbxReg {o : Nat} : LicensedWin (mbxReg o) := by
  unfold Machine.mbxReg
  refine .ite (.some .regRoI) ?_
  refine .ite (.mailReg (fun _ _ h => .onPeerMail h) (fun _ _ h => .peerSend h) fun _ h => .peerAck h) ?_
  refine .ite (.mailReg (fun _ _ h => .onGateMail h) (fun _ _ h => .gateSend h) fun _ h => .gateAck h) ?_
  split
  · exact .some .regRoI
  · exact .some .regRo
  · exact .some .regRoI
  · exact .some (.regWo fun _ _ h => .nextPost h)
  · exact .some (.regWo fun _ _ h => .post h)
  · exact .some (.regWo fun _ _ h => .when h .mbxApply)
  · exact .some .regRoI
  · exact .some (.regWo fun _ _ h => .doorbell h)
  · exact .some (.regRw fun _ _ h => h)
  · exact .some (.regRw fun _ _ h => .irqClear h)
  · exact .some (.regRw fun _ _ h => h)
  · exact .none

theorem LicensedWin.timeReg {a : Nat} : LicensedWin (timeReg a) := by
  unfold Machine.timeReg
  split
  · exact .some ⟨.timeNowLow, Shut.licensed⟩
  · exact .some .regRoI
  · exact .some .regRoI
  · exact .some .regRoI
  · exact .some (.regWo fun _ _ h => h)
  · exact .some (.regWo fun _ _ h => h)
  · exact .some (.regWo fun _ _ h => .timeCmd h)
  · exact .some .regRoI
  · exact .none

theorem LicensedWin.recReg {a : Nat} : LicensedWin (recReg a) := by
  unfold Machine.recReg
  split
  · exact .some (.regWo fun _ _ h => .recCmd h)
  · exact .some (.regRw fun _ _ h => h)
  · exact .some (.regRw fun _ _ h => h)
  · exact .some (.regRw fun _ _ h => h)
  · exact .some (.regRw fun _ _ h => h)
  · exact .some (.regRw fun _ _ h => h)
  · exact .some .regRoI
  · exact .none

theorem LicensedWin.tmpReg {o : Nat} : LicensedWin (tmpReg o) := by
  unfold Machine.tmpReg
  refine .ite (.some .regRoI) ?_
  split
  · exact .some .regRoI
  · exact .some .regRoI
  · exact .some .regRoI
  · exact .some .regRoI
  · exact .some .regRoI
  · exact .none

theorem LicensedWin.pwrReg {a : Nat} : LicensedWin (pwrReg a) := by
  unfold Machine.pwrReg
  split
  · exact .some ⟨.rcClear, fun h => (Shut.pwrRole h).licensed⟩
  · exact .some (.regWo fun _ _ h => .coreUpd h)
  · exact .some (.regWo fun _ _ h => .peerReset h)
  · exact .some (.regWo fun _ _ h => .pwrReq h)
  · exact .some ⟨.rcClear, Shut.licensed⟩
  · exact .none

theorem LicensedWin.nvmeReg {a : Nat} : LicensedWin (nvmeReg a) := by
  unfold Machine.nvmeReg
  split
  · exact .some (.regWo fun _ _ h => .nvmeCmd h)
  · exact .some .regRoI
  · exact .some .regRoI
  · exact .none

theorem LicensedWin.mgtReg {a : Nat} : LicensedWin (mgtReg a) := by
  unfold Machine.mgtReg
  split
  · exact .some .regRoI
  · exact .some (.regRw fun _ _ h => h)
  · exact .some .regRoI
  · exact .some (.regWo fun _ _ h => .mgtTake h)
  · exact .some (.regRw fun _ _ h => h)
  · exact .some (.regRw fun _ _ h => h)
  · exact .some (.regWo fun _ _ h => .mgtSend h)
  · exact .some .regRoI
  · exact .some (.regWo fun _ _ h => .mgtSet h)
  · exact .some (.regWo fun _ _ h => .mgtClear h)
  · exact .some .regRoI
  · exact .some .regRoI
  · exact .none

theorem LicensedWin.hbmReg {o : Nat} : LicensedWin (hbmReg o) := by
  unfold Machine.hbmReg
  refine .ite (.some .regRoI) ?_
  split
  · exact .some (.regRw fun _ _ h => h)
  · exact .some (.regWo fun _ _ h => h)
  · exact .some (.regWo fun _ _ h => h)
  · exact .some (.regWo fun _ _ h => .when h id)
  · exact .some .regRoI
  · exact .none

theorem LicensedWin.idReg {a : Nat} : LicensedWin (idReg a) := by
  unfold Machine.idReg
  split
  · exact .some .regRoI
  · exact .some .regRoI
  · exact .some .regRoI
  · exact .some .regRoI
  · exact .some .regRoI
  · exact .some .regRoI
  · exact .some (.regWo fun _ _ h => .coreUpd h)
  · exact .some .regRoI
  · exact .some .regRoI
  · exact .none

theorem LicensedWin.pqReg {o : Nat} : LicensedWin (pqReg o) := .ite (.some .regRoI) (.ite (.some .regRoI) .none)

theorem LicensedWin.regAt {c : CoreId} {a : Nat} : LicensedWin (regAt c a) := by
  unfold Machine.regAt
  extract_lets _
  split
  · exact .keyReg
  · exact .digReg
  · exact .rngReg
  · exact .ledReg
  · exact .laneReg
  · exact .fabReg
  · exact .hqReg
  · exact .mbxReg
  · exact .timeReg
  · exact .recReg
  · exact .tmpReg
  · exact .pwrReg
  · exact .ite .mgtReg .nvmeReg
  · exact .hbmReg
  · exact .idReg
  · exact .pqReg

theorem ShutBus.busRead {c : CoreId} {a : Nat} (h : Shut t) : ShutBus (busRead t c a) := by
  unfold Machine.busRead
  refine .ite (.ite .bad (.ok h)) (.ite ?_ (.ite .bad (.ite .bad (.ok h))))
  split
  next e =>
    exact .ok (((LicensedWin.ite .none .regAt).get e).rd h)
  · exact .bad

theorem LicensedBus.busWrite {c : CoreId} {a : Nat} {w : W36} (h : Shut t) : LicensedBus (busWrite t c a w) := by
  unfold Machine.busWrite
  refine .ite (.ok (Shut.ite (.coreUpd h) h).licensed) (.ite ?_ (.ite .bad (.ite .bad (.ok (Shut.onHbm h).licensed))))
  split
  next e =>
    exact .ite .bad (.ite .bad (.ok (((LicensedWin.ite .none .regAt).get e).wr h)))
  · exact .bad

theorem Licensed.windowWrite {c : CoreId} {a : Nat} {w : W36} (h : Shut t) : Licensed (windowWrite t c a w) := by
  unfold Machine.windowWrite
  refine .ite h.licensed ?_
  split
  next e => exact (LicensedBus.busWrite h).get e
  · exact (Shut.busTrap h).licensed

theorem LicensedNext.execRegisterWrite {g : RegTarget} (h : Shut t) : LicensedNext (execRegisterWrite g t) :=
  .done (by
    split
    · exact (Shut.when h .bar0Write).licensed
    · exact (Shut.when h .bar2Write).licensed
    · exact (Shut.when h .onHq).licensed
    · exact .windowWrite h)

theorem LicensedNext.execHqPlaneOpen {c : CoreId} (h : Shut t) : LicensedNext (execHqPlaneOpen c t) :=
  .done (.ite h.licensed (.ite (Shut.trap (.when h .cdcStall)).licensed (.planeOpenCmd h)))

end Sys2Proof.Machine
end

section
/-! SUPPORT. The data plane opens only in OPERATIONAL: the Serge instructions. -/

namespace Sys2Proof.Machine

-- One theorem at a time: the check's memory limit leaves no room for a thread for each.
set_option Elab.async false

variable {t : State}

theorem LicensedIter.bad {i : TrapInfo} {b : Bool} : LicensedIter (.bad i b) := by rintro _ _ ⟨⟩
theorem LicensedIter.ok {j : Option Nat} (h : Licensed t) : LicensedIter (.ok t j) := by rintro _ _ ⟨⟩; exact h
theorem LicensedIter.get {i : Iter} {j : Option Nat} (h : LicensedIter i) (e : i = .ok t j) : Licensed t := h t j e
theorem LicensedIter.ite {c : Prop} [Decidable c] {x y : Iter} (hx : LicensedIter x) (hy : LicensedIter y) : LicensedIter (if c then x else y) := by
  split
  · exact hx
  · exact hy

/-- An iteration that changes its core only. -/
theorem LicensedIter.coreUpd {c : CoreId} {f : Core → Core} {j : Option Nat} (h : Shut t) : LicensedIter (.ok (coreUpd t c f) j) :=
  .ok (Shut.licensed (.coreUpd h))

theorem LicensedIter.jumpTo {c : CoreId} {link : Bool} {next : Nat} {offset : Int} (h : Shut t) : LicensedIter (jumpTo c link next offset t) :=
  .ite .bad (.ok (Shut.licensed (.when h .coreUpd)))

theorem LicensedIter.useOperand {c : CoreId} {op : MOp} {w fault : W36} {next : Nat} (h : Shut t) :
    LicensedIter (useOperand c op w fault next t) := by
  unfold Machine.useOperand
  split
  · exact .ite (.jumpTo h) .bad
  · exact .ite (.jumpTo h) .bad
  · split
    · exact .bad
    · exact .ite .bad (.coreUpd h)

theorem LicensedIter.memIter {c : CoreId} {exts : List (BitVec 9)} {op : MOp} {mode : SMode} {field : BitVec 5} {a : Nat} (h : Shut t) :
    LicensedIter (memIter c exts op mode field a t) := by
  unfold Machine.memIter
  extract_lets _ _
  split
  · split
    next _ u e =>
      exact .ok ((LicensedBus.busWrite h).get e)
    · exact .bad
  · exact .coreUpd h
  · exact .coreUpd h
  · split
    · exact .coreUpd h
    · exact .bad
  · split
    · exact .coreUpd h
    · exact .bad
  · exact .jumpTo h
  · exact .jumpTo h
  · exact .useOperand h
  · split
    · exact .bad
    next e =>
      split
      · exact .bad
      · exact .useOperand ((ShutBus.busRead h).get e)

theorem LicensedIter.xmovIter {c : CoreId} {exts : List (BitVec 9)} {field : BitVec 5} (h : Shut t) : LicensedIter (xmovIter c exts field t) := by
  unfold Machine.xmovIter
  extract_lets _ _
  split
  · exact .bad
  next _ u e =>
    split
    · exact .bad
    · split
      · exact .bad
      next w v e' =>
        exact .ok (.coreUpd ((LicensedBus.busWrite ((ShutBus.busRead h).get e)).get e'))

theorem LicensedIter.iter {x : SCtx} {op : SOp} (h : Shut t) : LicensedIter (iter x op t) := by
  unfold Machine.iter
  extract_lets _ _
  split
  · exact .memIter h
  · exact .xmovIter h
  · exact .jumpTo h
  · exact .jumpTo h
  · exact .coreUpd h
  · exact .coreUpd h

theorem Shut.finish {c : CoreId} {pc : Nat} {ei : Bool} (h : Shut t) : Shut (finish t c pc ei) := h.of_keeps (keeps_finish _ _ _ _)

theorem Shut.waitEnd {c : CoreId} {next : Nat} (h : Shut t) : Shut (waitEnd t c next) := by
  unfold Machine.waitEnd
  extract_lets s1
  have h1 : Shut s1 := .finish (.coreUpd h)
  split
  · exact .takeIrq h1
  · exact h1

theorem Shut.iret {c : CoreId} {w : BitVec 14} (h : Shut t) : Shut (iret t c w) := by
  unfold Machine.iret
  extract_lets _ _ _ _ _ _ _ _
  split
  · exact .trap h
  · exact .ite (.trap h) (.ite (.trap h) (.ite (.trap h) (.ite (.trap h) (.coreUpd h))))

theorem Shut.service {c : CoreId} (h : Shut t) : Shut (service t c).2 := h.of_keeps (keeps_service _ _)

theorem Shut.runControl {c : CoreId} {g : GOp} {w : BitVec 14} {next : Nat} (h : Shut t) : Shut (runControl t c g w next) := by
  unfold Machine.runControl
  split
  · exact .haltCore h
  · exact .ite (.waitEnd h) (.coreUpd h)
  · exact .ite (.onCore (.coreUpd (.service (.enter h)))) (.trap h)
  · exact .finish h
  · exact .iret h
  · exact h

theorem Licensed.instr {x : SCtx} {op : SOp} (h : Shut t) : Licensed (instr x op t) := by
  unfold Machine.instr
  extract_lets _ _ _ _ _ _ _
  refine .ite h.licensed ?_
  split
  · exact Shut.licensed (.trap h)
  · refine .ite (Shut.licensed (.finish h)) (.ite (Shut.licensed (.trap h)) ?_)
    split
    · exact Shut.licensed (.trap (.coreUpd h))
    · refine .ite ?_ ?_
      · split
        · exact Shut.licensed (.runControl h)
        · split
          · exact Shut.licensed (.busTrap h)
          next e => exact .finish ((LicensedIter.iter h).get e)
      · split
        · exact Shut.licensed (.trap h)
        · exact .ite (Shut.licensed (.finish h)) (Shut.licensed (.coreUpd h))

theorem LicensedNext.execRepeatIteration {c : CoreId} (h : Shut t) : LicensedNext (execRepeatIteration c t) :=
  .done (by
    extract_lets _ _
    split
    · exact h.licensed
    · extract_lets _ due
      refine .ite h.licensed ?_
      clear_value due
      split
      · exact Shut.licensed (.takeIrq (.coreUpd h))
      · exact Shut.licensed (.trap h)
      · split
        · exact Shut.licensed (.busTrap h)
        next e =>
          extract_lets s1
          have h1 : Licensed s1 := .when ((LicensedIter.iter h).get e) .coreUpd
          exact .ite (.finish h1) h1)

theorem ShutNext.execUndefinedInstruction {c : CoreId} {words : List (BitVec 14)} (h : Shut t) : ShutNext (execUndefinedInstruction c words t) :=
  .done (by
    extract_lets _
    refine .ite h ?_
    split
    · exact .trap h
    · exact h)

end Sys2Proof.Machine
end

section
/-! OBLIGATIONS. The data plane opens only in OPERATIONAL: O47. -/

namespace Sys2Proof.Machine

-- One theorem at a time: the check's memory limit leaves no room for a thread for each.
set_option Elab.async false

variable {t : State}

theorem LicensedNext.done_of_shut (h : Shut t) : LicensedNext (Machine.done t) := .of_shut (.done h)

/-- From a closed data plane every command leads to a licensed state. -/
theorem LicensedNext.exec {i : Instr} (h : Shut t) : LicensedNext (exec i t) := by
  unfold Machine.exec
  cases i with
  | vstbyEnterWindow => exact .done_of_shut (.when h fun h => .ite (.when h .resumeAppends) h)
  | recordStoreRecoveryDone => exact .of_shut (.execRecordStoreRecoveryDone h)
  | mainPgoodHigh => exact .done_of_shut (.when h fun h => .when (.startNoise (.extend (.onUnit (.startCores (.restoreUnits (.when h id)))))) .irq)
  | mainPgoodFall => exact .of_shut (.execMainPgoodFall h)
  | mainPgoodLowTimeout => exact .done_of_shut (.when h id)
  | sysReset => exact .of_shut (.execSysReset h)
  | pciePerst => exact .done_of_shut (.ite (.when (.when h .ring) id) (.when h fun h => .irqMain (Shut.onHq (.resetFunction h) rfl)))
  | functionLevelReset => exact .done_of_shut (.irqMain (.resetFunction h))
  | pwrfailAssert => exact .done_of_shut (.when h fun h => .irqAll (.startSave (.disarmRails h)))
  | vstbyWarning => exact .done_of_shut (.when h fun h => .irqAll (.startSave h))
  | pwrfailPause => exact .done_of_shut (.when h fun h => .closeGroup (.closeGroup (.cause h)))
  | pwrfailReopen => exact .done_of_shut (.when h fun h => .cause h)
  | pwrfailDeassert => exact .done_of_shut (.when h fun h => .when h .resumeAppends)
  | standbyDomainStop => exact .of_shut (.execStandbyDomainStop h)
  | vaultEnter => exact .of_shut (.execVaultEnter h)
  | vstbyReturn => exact .done_of_shut (.when h id)
  | totalPowerLoss => exact .of_shut (.execTotalPowerLoss h)
  | vbatLow => exact .done_of_shut (.mgtAlert h)
  | vbatReturn => exact .done_of_shut (.mgtAlert h)
  | holdcapMeasured => exact .done_of_shut (.when h fun h => .when h .append)
  | gatehouseLinkAgreed => exact .done_of_shut (.when h fun h => .mirrorTime h)
  | gatehouseLinkFrameRx => exact .done_of_shut (.when h fun h => .when h fun h => .tamperAlarm h)
  | imageBankStreamed =>
    exact .done_of_shut (.when h fun h => .ite (.when h .adoptBank) (.ite (.when h fun h => .bootBank (.when h id)) (.when h .reloadCores)))
  | bootKeyStoreOpen => exact .done_of_shut (.ite (.openStore h) (.ite (.ite (.hbmKey (.unwrapStore h)) (.when h .observe)) h))
  | hbmTrainingDone => exact .done_of_shut (.when h fun h => .tryAttachEnd (.hbmStep (.foldl h fun _ h => .bootUnit h)))
  | driveReady => exact .of_shut (.execDriveReady h)
  | driveAttachTimeout => exact .done_of_shut (.when h fun h => .tryAttachEnd h)
  | journalReplayDone => exact .of_shut (.execJournalReplayDone h)
  | pergolaJoinEnd => exact .of_shut (.execPergolaJoinEnd h)
  | sqEnable => exact .done_of_shut (.when h fun h => .when h .onSq)
  | sqDisable => exact .done_of_shut (.when h fun h => .when h .onSq)
  | sqDrainDone => exact .done_of_shut (.when h .onSq)
  | cqEnable => exact .done_of_shut (.when h fun h => .when h .onCq)
  | cqDisable => exact .done_of_shut (.when h .cqDisable)
  | sqTailDoorbell => exact .done_of_shut (.when h .sqTail)
  | cqHeadDoorbell => exact .done_of_shut (.when h .cqHead)
  | devAlertWrite => exact .done_of_shut (.when h fun h => .when h .signal)
  | devTimeLowRead => exact .done_of_shut (.when h .devTimeLow)
  | timeNowLowRead => exact .done_of_shut (.winCmd h fun h => .gotWord (.timeNowLow h))
  | measWord0Read => exact .done_of_shut (.winCmd h fun h => .gotWord (.measWord h))
  | resultEarlyRead => exact .done_of_shut (.winCmd h fun h => .when h fun h => .onCore (.earlyRead h))
  | readToClear => exact .done_of_shut (.rcClear (.onCore h))
  | registerWrite => exact .execRegisterWrite h
  | msixUnmask => exact .done_of_shut (.when h fun h => .when h .signal)
  | entryFetch => exact .done_of_shut (.ite (.fetchCtl h) (.fetchEntry h))
  | entryReadFail => exact .done_of_shut (.when h fun h => .irqMain (.cause (.onSq (.complete (.takeIndex h)))))
  | completionWriteFail => exact .done_of_shut (.when h fun h => .irqMain (.cause (.onCq h)))
  | irqModerationTick => exact .done_of_shut (.foldl h fun _ h => .moderate h)
  | telemetryRefresh => exact .of_shut (.execTelemetryRefresh h)
  | gatehouseTelemetryRefresh => exact .done_of_shut (.when h id)
  | driveLogPoll => exact .done_of_shut (.when h fun h => .onDrive (.nvme h))
  | defineEvent => exact .done_of_shut (.ctlRequest h)
  | closeEvent => exact .done_of_shut (.ctlRequest h)
  | voidSerials => exact .done_of_shut (.ctlRequest h)
  | importKey => exact .done_of_shut (.ctlRequest h)
  | deriveKey => exact .done_of_shut (.ctlRequest h)
  | retireKey => exact .done_of_shut (.ctlRequest h)
  | setTimeVoucher => exact .done_of_shut (.ctlRequest h)
  | queryLedger => exact .done_of_shut (.ctlRequest h)
  | epochRoll => exact .done_of_shut (.ctlRequest h)
  | bindRing => exact .done_of_shut (.ctlRequest h)
  | getStats => exact .done_of_shut (.ctlRequest h)
  | handBack => exact .done_of_shut (.ctlRequest h)
  | controlBlockReadFail => exact .of_shut (.execControlBlockReadFail h)
  | mintIntake => exact .done_of_shut (.inStage h fun _ => .ite (.mintIntake h) h)
  | mintWrapperReadDone => exact .of_shut (.execMintWrapperReadDone h)
  | mintWrapperReadTimeout => exact .done_of_shut (.inStage h fun _ => .endMint h)
  | mintClock => exact .done_of_shut (.inStage h fun _ => .ite (.mintClock h) h)
  | mintRule => exact .done_of_shut (.inStage h fun _ => .ite (.mintRule h) h)
  | keyCacheFill => exact .done_of_shut (.foldl (.when h fun h => .cacheFront h) fun _ h => .retryKey h)
  | mintDrbgTimeout => exact .done_of_shut (.inStage h fun _ => .endMint h)
  | mintLedgerAssign => exact .done_of_shut (.inStage h fun _ => .ite (.mintAtLedger h) h)
  | leaseOpenTimeout => exact .of_shut (.execLeaseOpenTimeout h)
  | mintSealDone => exact .done_of_shut (.inStage h fun _ => .mintSeal h)
  | mldsaJobDone => exact .of_shut (.execMldsaJobDone h)
  | mintOutputWriteFail => exact .of_shut (.execMintOutputWriteFail h)
  | verdictIntake => exact .done_of_shut (.inStage h fun _ => .ite h (.ite (.verdictDecide h) (.verdictIntake h)))
  | verdictFwdRx => exact .of_shut (.execVerdictFwdRx h)
  | heldForwardTimeout => exact .of_shut (.execHeldForwardTimeout h)
  | forwardContextTimeout => exact .of_shut (.execForwardContextTimeout h)
  | verdictCheck => exact .done_of_shut (.inStage h fun _ => .ite h (.verdictCheck h))
  | verdictClock => exact .done_of_shut (.inStage h fun _ => .ite h (.verdictClock h))
  | verdictRule => exact .done_of_shut (.inStage h fun _ => .ite h (.verdictRule h))
  | verdictLedgerApply => exact .done_of_shut (.inStage h fun _ => .ite h (.verdictAtLedger h))
  | verdictReplyRx => exact .of_shut (.execVerdictReplyRx h)
  | forwardReplyTimeout => exact .done_of_shut (.inStage h fun _ => .freeReq (.complete h))
  | passbackRebuildBlock => exact .of_shut (.execPassbackRebuildBlock h)
  | groupTick => exact .done_of_shut (.startDue (.closeGroup (.closeGroup h)))
  | journalBlockWriteDone => exact .of_shut (.execJournalBlockWriteDone h)
  | driveWriteError => exact .done_of_shut (.when h fun h => .dropDrive (.observe h))
  | driveLost => exact .done_of_shut (.when h fun h => .dropDrive (.onDrive (.when h .observe)))
  | mirrorJournalRx => exact .of_shut (.execMirrorJournalRx h)
  | groupAckRx => exact .of_shut (.execGroupAckRx h)
  | leaseMirrorRx => exact .of_shut (.execLeaseMirrorRx h)
  | leaseAckRx => exact .of_shut (.execLeaseAckRx h)
  | pageRequestRx => exact .of_shut (.execPageRequestRx h)
  | pageRx => exact .of_shut (.execPageRx h)
  | pageAbsentRx => exact .of_shut (.execPageAbsentRx h)
  | voidRequestRx => exact .of_shut (.execVoidRequestRx h)
  | voidBlockRx => exact .of_shut (.execVoidBlockRx h)
  | mirrorResendTimeout => exact .of_shut (.execMirrorResendTimeout h)
  | durabilityTimeout => exact .of_shut (.execDurabilityTimeout h)
  | pageReadDone => exact .of_shut (.execPageReadDone h)
  | pageMissSecondRead => exact .done_of_shut (.when h fun h => .onPage (.nvme h))
  | pageMissTimeout => exact .done_of_shut (.ite (.ite (.endWait h) h) (.inStage h fun _ => .endReq h))
  | checkpointStart => exact .done_of_shut (.when h fun h => .ite h (.when h .startCheckpoint))
  | checkpointWritesDone => exact .of_shut (.execCheckpointWritesDone h)
  | voidRewritePage => exact .done_of_shut (.foldl h fun _ h => .onPage h)
  | resilverCopyDone => exact .of_shut (.execResilverCopyDone h)
  | pcRebuildDone => exact .done_of_shut (.when h fun h => .resumePages (.when h .changeUnit))
  | rollConfirmTimeout => exact .done_of_shut (.when h fun h => .ite (.endWait h) (.irqMain h))
  | linkTrainStart => exact .done_of_shut (.startTraining h)
  | trainingPatternDetect => exact .done_of_shut (.when h .startTraining)
  | helloRx => exact .of_shut (.execHelloRx h)
  | keyxRx => exact .of_shut (.execKeyxRx h)
  | linkTrainTimeout => exact .done_of_shut (.when h .linkDown)
  | linkRetryTimer => exact .done_of_shut (.startTraining h)
  | linkRekey => exact .done_of_shut (.when h .sendRekey)
  | ackTimer => exact .of_shut (.execAckTimer h)
  | ackRx => exact .done_of_shut (.when h fun h => .putFrames (.onPort h))
  | nakRx => exact .done_of_shut (.when h fun h => .when (.when (.onPort (.sendAgain h)) .observe) .linkDown)
  | linkAckTimeout => exact .done_of_shut (.when h .linkDown)
  | degradeRx => exact .done_of_shut (.when h .onPort)
  | laneRetrainDone => exact .done_of_shut (.when h fun h => .putFrames (.sendAgain (.onPort h)))
  | laneRetrainTimeout => exact .done_of_shut (.when h .linkDown)
  | downRx => exact .done_of_shut (.when h .linkDown)
  | frameRoute => exact .of_shut (.execFrameRoute h)
  | heartbeatTimer => exact .of_shut (.execHeartbeatTimer h)
  | heartbeatRx => exact .of_shut (.execHeartbeatRx h)
  | heartbeatSilence => exact .done_of_shut (.ite h (.when (.when (.when h .startCollect) .startCollect) .startCollect))
  | witnessQueryRx => exact .of_shut (.execWitnessQueryRx h)
  | witnessReplyRx => exact .of_shut (.execWitnessReplyRx h)
  | decisionAckRx => exact .of_shut (.execDecisionAckRx h)
  | grantLapse => exact .done_of_shut h
  | collectionTimeout => exact .done_of_shut h
  | collectionRetry => exact .done_of_shut (.when (.when (.when h .startCollect) .startCollect) .startCollect)
  | abstainPeriodEnd => exact .done_of_shut (.when h id)
  | joinRx => exact .of_shut (.execJoinRx h)
  | withdrawRx => exact .of_shut (.execWithdrawRx h)
  | takeoverRx => exact .of_shut (.execTakeoverRx h)
  | excludeRx => exact .of_shut (.execExcludeRx h)
  | shadowCompleteRx => exact .of_shut (.execShadowCompleteRx h)
  | handbackOfferRx => exact .of_shut (.execHandbackOfferRx h)
  | handbackAcceptRx => exact .of_shut (.execHandbackAcceptRx h)
  | handbackOfferTimeout => exact .of_shut (.execHandbackOfferTimeout h)
  | rollQueryRx => exact .of_shut (.execRollQueryRx h)
  | rollConfirmRx => exact .of_shut (.execRollConfirmRx h)
  | rollRefuseRx => exact .of_shut (.execRollRefuseRx h)
  | rollConfirmLapse => exact .done_of_shut h
  | viewRequestRx => exact .of_shut (.execViewRequestRx h)
  | viewRx => exact .of_shut (.execViewRx h)
  | viewRequestTimeout => exact .of_shut (.execViewRequestTimeout h)
  | timePulseTimer => exact .done_of_shut (.foldl h fun _ h => .sendOn h)
  | timePulseRx => exact .of_shut (.execTimePulseRx h)
  | keyTransportRequestRx => exact .of_shut (.execKeyTransportRequestRx h)
  | keyTransportDeliverRx => exact .of_shut (.execKeyTransportDeliverRx h)
  | keyTransportRefuseRx => exact .of_shut (.execKeyTransportRefuseRx h)
  | keyTransportReceiptRx => exact .of_shut (.execKeyTransportReceiptRx h)
  | keyTransportTimeout => exact .done_of_shut (.ite h (.ite h (.keyAskFail h)))
  | coreReset => exact .done_of_shut (.when h .coreReset)
  | ld => exact .done (.instr h)
  | st => exact .done (.instr h)
  | add => exact .done (.instr h)
  | sub => exact .done (.instr h)
  | andOp => exact .done (.instr h)
  | orOp => exact .done (.instr h)
  | xor => exact .done (.instr h)
  | cmp => exact .done (.instr h)
  | mul => exact .done (.instr h)
  | div => exact .done (.instr h)
  | ldx => exact .done (.instr h)
  | ldy => exact .done (.instr h)
  | jmp => exact .done (.instr h)
  | call => exact .done (.instr h)
  | xmov => exact .done (.instr h)
  | nop => exact .done (.instr h)
  | halt => exact .done (.instr h)
  | wait => exact .done (.instr h)
  | waitComplete => exact .done_of_shut (.when h .waitEnd)
  | svc => exact .done (.instr h)
  | ei => exact .done (.instr h)
  | di => exact .done (.instr h)
  | iret => exact .done (.instr h)
  | ret => exact .done (.instr h)
  | jmpa => exact .done (.instr h)
  | neg => exact .done (.instr h)
  | notOp => exact .done (.instr h)
  | stx => exact .done (.instr h)
  | sty => exact .done (.instr h)
  | xa => exact .done (.instr h)
  | ya => exact .done (.instr h)
  | lra => exact .done (.instr h)
  | alr => exact .done (.instr h)
  | asi => exact .done (.instr h)
  | asb => exact .done (.instr h)
  | lslx => exact .done (.instr h)
  | lsrx => exact .done (.instr h)
  | asrx => exact .done (.instr h)
  | rorx => exact .done (.instr h)
  | adp => exact .done (.instr h)
  | tq => exact .done (.instr h)
  | dpa => exact .done (.instr h)
  | lsl => exact .done (.instr h)
  | lsr => exact .done (.instr h)
  | asr => exact .done (.instr h)
  | undefinedInstruction => exact .of_shut (.execUndefinedInstruction h)
  | repeatIteration => exact .execRepeatIteration h
  | interruptEntry => exact .of_shut (.execInterruptEntry h)
  | keyCmdOpen => exact .done_of_shut (.winCmd h .keyCmd)
  | keyCmdClose => exact .done_of_shut (.winCmd h .keyCmd)
  | keyCmdImport => exact .done_of_shut (.winCmd h .keyCmd)
  | keyCmdDerive => exact .done_of_shut (.winCmd h .keyCmd)
  | keyCmdRetire => exact .done_of_shut (.winCmd h .keyCmd)
  | keyCmdVerify => exact .done_of_shut (.winCmd h .keyCmd)
  | keyCmdMac => exact .done_of_shut (.winCmd h .keyCmd)
  | keyCmdTransportWrap => exact .done_of_shut (.winCmd h .keyCmd)
  | keyCmdTransportUnwrap => exact .done_of_shut (.winCmd h .keyCmd)
  | keyCmdAttest => exact .done_of_shut (.winCmd h .keyCmd)
  | keyCommandEnd => exact .of_shut (.execKeyCommandEnd h)
  | digStart => exact .done_of_shut (.winCmd h .digBegin)
  | digUpdate => exact .done_of_shut (.winCmd h .digAbsorb)
  | digFinish => exact .done_of_shut (.winCmd h .digClose)
  | digAbort => exact .done_of_shut (.winCmd h .digAbandon)
  | digCommandEnd => exact .of_shut (.execDigCommandEnd h)
  | rngGenerate => exact .done_of_shut (.winCmd h .rngCmd)
  | rngGenerateFresh => exact .done_of_shut (.winCmd h .rngCmd)
  | rngSelect => exact .done_of_shut (.winCmd h .rngSelect)
  | rngTest => exact .done_of_shut (.winCmd h fun h => .when h id)
  | rngCommandEnd => exact .done_of_shut (.when h fun h => .irqMain (.rngUpd h))
  | noiseHealthFail => exact .of_shut (.execNoiseHealthFail h)
  | noiseStartupTestDone => exact .of_shut (.execNoiseStartupTestDone h)
  | reseedBufferFull => exact .done_of_shut (.when h fun h => .tryOpen (.rngStep h fun h => .rngFeed h))
  | drbgReseedLimit => exact .done_of_shut (.when h fun h => .ite (.rngStep h id) (.rngStep h fun h => .rngFeed h))
  | drbgRequestTimeout => exact .of_shut (.execDrbgRequestTimeout h)
  | noiseRetestTimer => exact .done_of_shut (.when h fun h => .when (.changeUnit h) id)
  | ledQuery => exact .done_of_shut (.winCmd h .ledCmd)
  | ledVoid => exact .done_of_shut (.winCmd h .ledCmd)
  | ledRoll => exact .done_of_shut (.winCmd h .ledCmd)
  | ledCheckpoint => exact .done_of_shut (.winCmd h .ledCmd)
  | ledCommandEnd => exact .done_of_shut (.ite h (.ite (.ite h (.irqMain h)) (.ite (.applyVoid h) (.ite (.resumeRoll (.releaseCtl h)) h))))
  | laneSelftest => exact .done_of_shut (.winCmd h fun h => .when h .onLaneSt)
  | laneSelftestDone => exact .done_of_shut (.when h fun h => .ite (.observe (.onLaneSt h)) (.observe (.onLaneSt h)))
  | lanePurge => exact .done_of_shut (.winCmd h .purgeLane)
  | laneClockGate => exact .done_of_shut (.when h fun h => .when (.onLaneSt h) fun h => .irqAll h)
  | hqCtlFetch => exact .done_of_shut (.winCmd h .ctlFetch)
  | hqCtlComplete => exact .done_of_shut (.winCmd h .ctlComplete)
  | hqDmaHostToLocal => exact .done_of_shut (.winCmd h .dmaIn)
  | hqDmaLocalToHost => exact .done_of_shut (.winCmd h .dmaOut)
  | hqDmaDone => exact .done_of_shut (.when h id)
  | hqPlaneOpen => exact .execHqPlaneOpen h
  | hqPlanePause => exact .done_of_shut (.winCmd h .planePause)
  | hqBind => exact .done_of_shut (.winCmd h .hqBind)
  | hbmPublish => exact .done_of_shut (.winCmd h fun h => .when h id)
  | hbmPublishEnd => exact .done_of_shut (.when (.foldl (.pubEnd h) fun _ h => .when h id) .endCtl)
  | fabCmdHandBack => exact .done_of_shut (.winCmd h .fabCmd)
  | fabCmdWithdraw => exact .done_of_shut (.winCmd h .fabCmd)
  | fabCmdKeyRequest => exact .done_of_shut (.winCmd h .fabCmd)
  | fabCmdRollQuery => exact .done_of_shut (.winCmd h .fabCmd)
  | fabCommandEnd => exact .done_of_shut (.when h fun h => .irqMain h)
  | nvmeAttachResilver => exact .done_of_shut (.when h fun h => .winCmd h .nvmeCmd)
  | driveAttach => exact .of_shut (.execDriveAttach h)
  | nvmeRetire => exact .done_of_shut (.when h fun h => .winCmd h .nvmeCmd)
  | timeVoucherSubmit => exact .done_of_shut (.winCmd h .timeCmd)
  | timeCommandEnd => exact .done_of_shut (.when h fun h => .irqAll h)
  | timeMirrorUpdate => exact .done_of_shut (.onPow (.when h .mirrorTime))
  | recAppend => exact .done_of_shut (.winCmd h .recCmd)
  | recRead => exact .done_of_shut (.winCmd h .recCmd)
  | recReadDone => exact .of_shut (.execRecReadDone h)
  | recBeginTx => exact .done_of_shut (.winCmd h .recCmd)
  | recAbortTx => exact .done_of_shut (.winCmd h .recCmd)
  | recHotWrite => exact .done_of_shut (.winCmd h .recCmd)
  | recHotRead => exact .done_of_shut (.winCmd h .recCmd)
  | recAppendCommit => exact .of_shut (.execRecAppendCommit h)
  | appendPreconditionsMet => exact .done_of_shut (.when h fun h => .when (.ctlGo (.beginHead h)) id)
  | sectorEraseDone => exact .done_of_shut (.when h .eraseSector)
  | sectorRefresh => exact .done_of_shut (.when h .releaseSector)
  | pwrRoleGive => exact .done_of_shut (.winCmd h .pwrRole)
  | pwrRoleTake => exact .done_of_shut (.winCmd h .pwrRole)
  | pwrWdog => exact .done_of_shut (.winCmd h fun h => .coreUpd h)
  | watchdogExpire => exact .done_of_shut (.when h fun h => .ite (.coreUpd h) (.coreStopped (.coreUpd (.coreReset h))))
  | pwrPeerReset => exact .done_of_shut (.winCmd h .peerReset)
  | pwrReqNap => exact .done_of_shut (.winCmd h .pwrReq)
  | pwrReqKeep => exact .done_of_shut (.winCmd h .pwrReq)
  | pwrReqWake => exact .done_of_shut (.winCmd h .pwrReq)
  | keepWithdrawWaitTimeout => exact .of_shut (.execKeepWithdrawWaitTimeout h)
  | napWakeEvent => exact .done_of_shut (.ite (.dozeWake h) (.when h id))
  | napWakeDone => exact .done_of_shut (.when h fun h => .when (.irqAll (.onRng (.when h .mirrorTime))) .startCheckpoint)
  | keepWake => exact .of_shut (.execKeepWake h)
  | gpioWakeInput => exact .done_of_shut (.when h fun h => .ring h)
  | idLoad => exact .done_of_shut (.winCmd h fun h => .coreUpd h)
  | mbxPostNext => exact .done_of_shut (.winCmd h .nextPost)
  | mbxPostSelf => exact .done_of_shut (.winCmd h fun h => .post h)
  | observationPost => exact .done_of_shut (.when h .post)
  | mbxApply => exact .done_of_shut (.winCmd h fun h => .when h .mbxApply)
  | failoverSettled => exact .done_of_shut (.keepAdvance (.when h .withdraw))
  | unitDrained => exact .done_of_shut (.when h .unitDrained)
  | mbxDoorbellTable => exact .done_of_shut (.winCmd h .doorbell)
  | mbxDoorbellAlert => exact .done_of_shut (.winCmd h .doorbell)
  | mbxIrqPendingClear => exact .done_of_shut (.winCmd h .irqClear)
  | timerMatch => exact .done_of_shut (.when h fun h => .irq (.when h fun h => .callHook (.coreUpd h)))
  | mbxPeerSend => exact .done_of_shut (.winCmd h .peerSend)
  | mbxPeerAck => exact .done_of_shut (.winCmd h .peerAck)
  | mbxGSend => exact .done_of_shut (.winCmd h .gateSend)
  | mbxGAck => exact .of_shut (.execMbxGAck h)
  | tamperAlarm => exact .done_of_shut (.tamperAlarm h)
  | tamperFlushDone => exact .done_of_shut (.flushDone h)
  | tamperClear => exact .done_of_shut (.ite h (.ite (.when h fun h => .when h id) (.ite (.startRestart (.flushDone h)) h)))
  | tamperWithdrawTimer => exact .done_of_shut (.when h fun h => .withdraw h)
  | tamperLoopTick => exact .done_of_shut (.when h fun h => .when h .tamperAlarm)
  | jtagUpdateIr => exact .done_of_shut (.when h fun h => .when h .tamperAlarm)
  | cdcStall => exact .done_of_shut (.when h .cdcStall)
  | crossingResync => exact .done_of_shut (.onTele (.onPulse (.foldl h fun _ h => .dropItem h)))
  | pulseDeliver => exact .done_of_shut (.onPulse h)
  | pulsePhaseEnd => exact .done_of_shut (.onPulse h)
  | mctpMessageRx => exact .done_of_shut (.when h fun h => .ite h (.ite h (.irq h)))
  | setEndpointId => exact .done_of_shut (.when h fun h => .mctpAnswer h id)
  | getEndpointId => exact .done_of_shut (.mctpAnswer h id)
  | getMctpVersionSupport => exact .done_of_shut (.mctpAnswer h id)
  | getMessageTypeSupport => exact .done_of_shut (.mctpAnswer h id)
  | getVendorDefinedMessageSupport => exact .done_of_shut (.mctpAnswer h id)
  | mctpUnsupportedCommand => exact .done_of_shut (.when h fun h => .mctpAnswer h id)
  | getIdentity => exact .done_of_shut (.graward (fun _ h => .ok h) h)
  | getHealth => exact .done_of_shut (.graward (fun _ h => .ok h) h)
  | getTelemetry => exact .done_of_shut (.graward (fun _ h => .telemetry h) h)
  | getUnitTable => exact .done_of_shut (.graward (fun _ h => .ok h) h)
  | proposeUnitState => exact .done_of_shut (.graward (fun _ h => .propose h) h)
  | stageImageBlock => exact .done_of_shut (.graward (fun _ h => .stageBlock h) h)
  | commitStagedImage => exact .done_of_shut (.graward (fun _ h => .commitImage h) h)
  | attest => exact .done_of_shut (.graward (fun _ h => .attestG h) h)
  | mgtSetTimeVoucher => exact .done_of_shut (.graward (fun _ h => .voucherG h) h)
  | getLog => exact .done_of_shut (.graward (fun _ h => .getLogG h) h)
  | clearAlert => exact .done_of_shut (.graward (fun _ h => .clearAlertG h) h)
  | twinStatus => exact .done_of_shut (.graward (fun _ h => .ok h) h)
  | mgtRxTake => exact .done_of_shut (.mgtCmd h .mgtTake)
  | mgtTxSend => exact .done_of_shut (.mgtCmd h .mgtSend)
  | mgtAlertSet => exact .done_of_shut (.mgtCmd h .mgtSet)
  | mgtAlertClear => exact .done_of_shut (.mgtCmd h .mgtClear)
  | frameCrcGcmFailure => exact .done_of_shut (.when h .rxFail)

/-- Settles O47: of all that a step runs, only the opening of the plane makes it open, and its tests hold the life-cycle state at OPERATIONAL. -/
theorem dataPlaneOpensOnlyInOperational : Obligations.DataPlaneOpensOnlyInOperational := by
  intro s t hstep hclosed hopen
  unfold step at hstep
  split at hstep
  · cases hstep
    exact absurd hopen (by rw [hclosed]; decide)
  next command rest _ =>
    have h : Shut { s with pending := rest } := hclosed
    exact LicensedNext.exec h t hstep hopen

end Sys2Proof.Machine
end

section
/-! SUPPORT. The commands of the digest window and the latched reads of the measurement registers (11 R592-R608). -/

namespace Sys2Proof.Machine

set_option Elab.async false

variable {s : State} {c : CoreId}

/-! ### A core's view of the window (11 R594) -/

/-- Core G has none of the main die's windows (09 R473). -/
theorem ne_g_of_reaches {a : Nat} {aOnly : Bool} (h : Reaches s c a aOnly) (ha : winOfG a = false) : c ≠ .g := by
  rintro rfl
  obtain ⟨-, hrefused⟩ := h
  simp [winRefused, ha] at hrefused

theorem digGet_digUpd (s : State) (f : DigCore → DigCore) (hc : c ≠ .g) : digGet (digUpd s c f) c = f (digGet s c) := by
  cases c with
  | g => exact absurd rfl hc
  | _ => rfl

/-- A change of a core's view leaves the message and the measurement registers. -/
theorem digUpd_dig (s : State) (c : CoreId) (f : DigCore → DigCore) : ∃ a b, (digUpd s c f).dig = { s.dig with a := a, b := b } := by
  cases c <;> exact ⟨_, _, rfl⟩

@[simp] theorem digUpd_owner (s : State) (c : CoreId) (f : DigCore → DigCore) : (digUpd s c f).dig.owner = s.dig.owner := by
  obtain ⟨a, b, h⟩ := digUpd_dig s c f; rw [h]
@[simp] theorem digUpd_alg (s : State) (c : CoreId) (f : DigCore → DigCore) : (digUpd s c f).dig.alg = s.dig.alg := by
  obtain ⟨a, b, h⟩ := digUpd_dig s c f; rw [h]
@[simp] theorem digUpd_hmacKey (s : State) (c : CoreId) (f : DigCore → DigCore) : (digUpd s c f).dig.hmacKey = s.dig.hmacKey := by
  obtain ⟨a, b, h⟩ := digUpd_dig s c f; rw [h]
@[simp] theorem digUpd_msg (s : State) (c : CoreId) (f : DigCore → DigCore) : (digUpd s c f).dig.msg = s.dig.msg := by
  obtain ⟨a, b, h⟩ := digUpd_dig s c f; rw [h]
@[simp] theorem digUpd_running (s : State) (c : CoreId) (f : DigCore → DigCore) : (digUpd s c f).dig.running = s.dig.running := by
  obtain ⟨a, b, h⟩ := digUpd_dig s c f; rw [h]
@[simp] theorem digUpd_meas (s : State) (c : CoreId) (f : DigCore → DigCore) : (digUpd s c f).dig.meas = s.dig.meas := by
  obtain ⟨a, b, h⟩ := digUpd_dig s c f; rw [h]

theorem keeps_digFree (s : State) : Keeps [.dig] s (digFree s) := keeps_onDig s _

/-- The result of a command that ends at once (11 R595). -/
theorem digGet_digResult (s : State) (r : BitVec 4) (hc : c ≠ .g) : (digGet (digResult s c r) c).result = r := by
  rw [digResult, digGet_digUpd s _ hc]

/-! ### DIG_START (11 R594-R599) -/

/-- An empty message of core `c` in the FIRMWARE context. -/
def digOpened (s : State) (c : CoreId) (alg : BitVec 2) (key : Option Bytes) : State :=
  digUpd (s.onDig fun d => { d with owner := some c, alg := alg, hmacKey := key, msg := [], running := none }) c fun d =>
    { d with done := false, early := false, result := 1, count := 0, bank := [] }

section
variable {v : BitVec 32} (hreach : Reaches s c 0x8400 false) (htakes : unitTakes s 0x39 = true) (hfree : s.dig.owner = none)
  (hrsv : v.extractLsb' 3 29 = 0) (halg : v.extractLsb' 0 2 ≠ 3)
include hreach htakes hfree hrsv halg

theorem exec_digStart_plain (hmac : v.getLsbD 2 = false) : exec (.digStart c v) s = .next (digOpened s c (v.extractLsb' 0 2) none) := by
  show execDigStart c v s = _
  rw [execDigStart, winCmd_of_reaches hreach]
  simp only [digBegin, htakes, hfree, hrsv, halg, hmac, Bool.not_true, Option.isSome_none, ne_eq, not_true_eq_false, or_self, Bool.false_eq_true,
    ↓reduceIte]
  rfl

theorem exec_digStart_hmac {k : KeyRef} {x : Slot} (hmac : v.getLsbD 2 = true) (hkey : useHandle s c (digGet s c).key [kHmac] = .ok (k, x)) :
    exec (.digStart c v) s = .next (digOpened s c (v.extractLsb' 0 2) (some x.material)) := by
  show execDigStart c v s = _
  rw [execDigStart, winCmd_of_reaches hreach]
  simp only [digBegin, htakes, hfree, hrsv, halg, hmac, hkey, Bool.not_true, Option.isSome_none, ne_eq, not_true_eq_false, or_self,
    Bool.false_eq_true, ↓reduceIte]
  rfl

end

theorem keeps_digOpened (s : State) (c : CoreId) (alg : BitVec 2) (key : Option Bytes) : Keeps [.dig] s (digOpened s c alg key) :=
  (keeps_onDig s _).trans (keeps_digUpd _ c _)

theorem digOpened_message (s : State) (alg : BitVec 2) (key : Option Bytes) (hc : c ≠ .g) :
    let t := digOpened s c alg key
    t.dig.owner = some c ∧ t.dig.alg = alg ∧ t.dig.hmacKey = key ∧ t.dig.msg = [] ∧ (digGet t c).result = 1 := by
  refine ⟨?_, ?_, ?_, ?_, ?_⟩
  · exact digUpd_owner _ _ _
  · exact digUpd_alg _ _ _
  · exact digUpd_hmacKey _ _ _
  · exact digUpd_msg _ _ _
  · exact congrArg DigCore.result (digGet_digUpd _ _ hc)

/-! ### DIG_UPDATE, DIG_FINISH, DIG_ABORT (11 R593-R601) -/

theorem completes_digUpdate {b : Bytes} (hreach : Reaches s c 0x8405 false) (hmay : digRefuse s c = none) (hlen : (digGet s c).len.toNat ≤ 4096)
    (hroom : s.dig.msg.length + (digGet s c).len.toNat < 2 ^ 32)
    (hread : readStr s c (digGet s c).addr.toNat (digGet s c).len.toNat = some b) :
    Completes (.digUpdate c) s [.dig] fun t => t.dig.msg = s.dig.msg ++ b ∧ t.dig.owner = s.dig.owner ∧ t.dig.running = some 15 ∧ (digGet t c).result = 1 := by
  have hc := ne_g_of_reaches hreach (by decide)
  have hexec : exec (.digUpdate c) s = .next (digUpd (s.onDig fun d => { d with msg := d.msg ++ b, running := some 15 }) c fun d =>
      { d with result := 1, count := d.count + (digGet s c).len.toNat }) := by
    show execDigUpdate c s = _
    rw [execDigUpdate, winCmd_of_reaches hreach]
    simp only [digAbsorb, hmay, gt_iff_lt, ge_iff_le, Nat.not_lt.mpr hlen, Nat.not_le.mpr hroom, hread, ↓reduceIte]
    rfl
  refine ⟨_, hexec, ⟨digUpd_msg _ _ _, digUpd_owner _ _ _, digUpd_running _ _ _, ?_⟩, (keeps_onDig s _).trans (keeps_digUpd _ c _)⟩
  exact congrArg DigCore.result (digGet_digUpd _ _ hc)

theorem completes_digFinish {v : BitVec 32} (hreach : Reaches s c 0x8406 false) (hmay : digRefuse s c = none) (hrsv : v.extractLsb' 4 28 = 0)
    (hdest : v.extractLsb' 0 4 = 0 ∨ ((v.extractLsb' 0 4 = 6 ∨ v.extractLsb' 0 4 = 7) ∧ s.dig.alg = 1 ∧ s.dig.hmacKey = none)) :
    Completes (.digFinish c v) s [.dig] fun t => t.dig.running = some (v.extractLsb' 0 4) ∧ t.dig.msg = s.dig.msg ∧ (digGet t c).result = 1 := by
  have hc := ne_g_of_reaches hreach (by decide)
  have hexec : exec (.digFinish c v) s = .next (digResult (s.onDig fun d => { d with running := some (v.extractLsb' 0 4) }) c 1) := by
    show execDigFinish c v s = _
    rw [execDigFinish, winCmd_of_reaches hreach]
    rcases hdest with hbank | ⟨hmeas | hmeas, halg, hkey⟩
    · simp [digClose, hmay, hrsv, hbank, done]
    · simp [digClose, hmay, hrsv, hmeas, halg, hkey, done]
    · simp [digClose, hmay, hrsv, hmeas, halg, hkey, done]
  exact ⟨_, hexec, ⟨digUpd_running _ _ _, digUpd_msg _ _ _, digGet_digResult _ _ hc⟩, (keeps_onDig s _).trans (keeps_digUpd _ c _)⟩

theorem completes_digAbort (hreach : Reaches s c 0x8407 false) (htakes : unitTakes s 0x39 = true) (howner : s.dig.owner = some c) :
    Completes (.digAbort c) s [.dig] fun t =>
      t.dig.owner = none ∧ t.dig.hmacKey = none ∧ t.dig.msg = [] ∧ t.dig.meas = s.dig.meas ∧ (digGet t c).result = 1 := by
  have hc := ne_g_of_reaches hreach (by decide)
  have hexec : exec (.digAbort c) s = .next (digResult (digFree s) c 1) := by
    show execDigAbort c s = _
    rw [execDigAbort, winCmd_of_reaches hreach]
    simp only [digAbandon, htakes, howner, Bool.not_true, Bool.false_eq_true, ne_eq, not_true_eq_false, ↓reduceIte]
    rfl
  exact ⟨_, hexec, ⟨digUpd_owner _ _ _, digUpd_hmacKey _ _ _, digUpd_msg _ _ _, digUpd_meas _ _ _, digGet_digResult _ _ hc⟩,
    (keeps_digFree s).trans (keeps_digUpd _ c _)⟩

/-! ### DIG_COMMAND_END (11 R602, R604, R606) -/

/-- A finish has delivered what `u` shows: the owner's done bit is set and the context is free. -/
def digEnded (u : State) (c : CoreId) : State := digFree (digUpd u c fun d => { d with done := true })

theorem keeps_digEnded (u : State) (c : CoreId) : Keeps [.dig] u (digEnded u c) := (keeps_digUpd u c _).trans (keeps_digFree _)

theorem digGet_digEnded (u : State) (hc : c ≠ .g) : digGet (digEnded u c) c = { digGet u c with done := true } := digGet_digUpd u _ hc

theorem digEnded_meas (u : State) (c : CoreId) : (digEnded u c).dig.meas = u.dig.meas := digUpd_meas _ _ _

theorem completes_digCommandEnd_bank (hc : c ≠ .g) (howner : s.dig.owner = some c) (hruns : s.dig.running = some 0) :
    Completes .digCommandEnd s [.dig, .unit] fun t => t.dig.owner = none ∧ (digGet t c).done = true ∧
      (digGet t c).bank = digestOf s.dig.alg s.dig.hmacKey s.dig.msg ∧ t.dig.meas = s.dig.meas := by
  have hexec : exec .digCommandEnd s =
      .next (digEnded (digUpd (irqMain s 11) c fun d => { d with bank := digestOf s.dig.alg s.dig.hmacKey s.dig.msg }) c) := by
    show execDigCommandEnd s = _
    rw [execDigCommandEnd, howner, hruns]
    rfl
  have hview := digGet_digUpd (irqMain s 11) (fun d => { d with bank := digestOf s.dig.alg s.dig.hmacKey s.dig.msg }) hc
  refine ⟨_, hexec, ⟨rfl, ?_, ?_, ?_⟩, ?_⟩
  · rw [digGet_digEnded _ hc]
  · rw [digGet_digEnded _ hc, hview]
  · exact (digEnded_meas _ c).trans (digUpd_meas _ _ _)
  · exact ((keeps_irqMain s 11).mono (by simp)).trans (((keeps_digUpd _ c _).trans (keeps_digEnded _ c)).mono (by simp))

theorem completes_digCommandEnd_extend {n : BitVec 4} (hc : c ≠ .g) (howner : s.dig.owner = some c) (hruns : s.dig.running = some n)
    (hn : n = 6 ∨ n = 7) :
    Completes .digCommandEnd s [.dig, .unit] fun t => t.dig.owner = none ∧ (digGet t c).done = true ∧
      t.dig.meas = tput [] s.dig.meas n.toNat
        (bvBytes (Config.sha384 (measOf s.dig.meas n.toNat ++ digestOf s.dig.alg s.dig.hmacKey s.dig.msg))) := by
  have hexec : exec .digCommandEnd s = .next (digEnded (extend (irqMain s 11) n.toNat (digestOf s.dig.alg s.dig.hmacKey s.dig.msg)) c) := by
    show execDigCommandEnd s = _
    rw [execDigCommandEnd, howner, hruns]
    rcases hn with rfl | rfl <;> rfl
  refine ⟨_, hexec, ⟨rfl, ?_, digEnded_meas _ c⟩, ?_⟩
  · rw [digGet_digEnded _ hc]
  · exact ((keeps_irqMain s 11).mono (by simp)).trans (((keeps_extend _ _ _).trans (keeps_digEnded _ c)).mono (by simp))

/-! ### Measurement registers (11 R608) -/

/-- The view of a core that has latched a measurement register. -/
def measLatched (n : Nat) (b : Bytes) (d : DigCore) : DigCore := { d with latch := tput [] d.latch n b }

theorem completes_measWord0Read {n : Nat} (hn : n < 8) (hreach : Reaches s c (0x8440 + 12 * n) false) :
    Completes (.measWord0Read c n) s [.dig, .core] fun t =>
      t.core.busData = bitsW (BitVec.ofNat 32 (leAt (measOf s.dig.meas n) 0 4)) ∧ t.dig.meas = s.dig.meas ∧
      (digGet t c).latch = tput [] (digGet s c).latch n (measOf s.dig.meas n) := by
  have hc : c ≠ .g := ne_g_of_reaches hreach (by simp [winOfG]; omega)
  have hexec : exec (.measWord0Read c n) s = .next (gotWord (bitsW (BitVec.ofNat 32 (leAt (measOf s.dig.meas n) 0 4)),
      digUpd s c (measLatched n (measOf s.dig.meas n)))) := by
    show execMeasWord0Read c n s = _
    rw [execMeasWord0Read, Nat.mod_eq_of_lt hn, winCmd_of_reaches hreach]
    rfl
  refine ⟨_, hexec, ⟨rfl, digUpd_meas s c (measLatched _ _), congrArg DigCore.latch (digGet_digUpd s (measLatched _ _) hc)⟩, ?_⟩
  exact ((keeps_digUpd s c _).mono (by simp)).trans ((keeps_onCore _ _).mono (by simp))

end Sys2Proof.Machine
end

section
/-! OBLIGATIONS. The digest window: O7. -/

namespace Sys2Proof.Machine

set_option Elab.async false

/-- Settles O7, command by command: start without and with a key, update, finish, abort, the two ends, the latched read. -/
theorem digestWindowActs : Obligations.DigestWindowActs := by
  refine ⟨fun s c v hreach htakes hfree hrsv halg hmac => ?_, fun s c v k x hreach htakes hfree hrsv halg hmac hkey => ?_, fun s c b => completes_digUpdate,
    fun s c v => completes_digFinish, fun s c => completes_digAbort, fun s c => completes_digCommandEnd_bank, fun s c n => completes_digCommandEnd_extend,
    fun s c n => completes_measWord0Read⟩
  · exact ⟨_, exec_digStart_plain hreach htakes hfree hrsv halg hmac, digOpened_message s _ _ (ne_g_of_reaches hreach (by decide)), keeps_digOpened s c _ _⟩
  · exact ⟨_, exec_digStart_hmac hreach htakes hfree hrsv halg hmac hkey, digOpened_message s _ _ (ne_g_of_reaches hreach (by decide)),
      keeps_digOpened s c _ _⟩

end Sys2Proof.Machine
end

section
/-! SUPPORT. What the port, the MCTP control commands and the MGT window do (14 R723-R730). -/

namespace Sys2Proof.Machine

set_option Elab.async false

variable {s : State} {m : MgtMsg} {rest : List MgtMsg}

/-! ### The port (14 R723-R728) -/

section
variable {b : Bytes} {eid : BitVec 8} {tag : BitVec 3} (hserves : gServes s = true)
include hserves

theorem exec_mctpMessageRx_taken (htakes : portTakes b = true) (hroom : s.mgt.rx.length < 3) :
    exec (.mctpMessageRx b eid tag true false) s =
      .next (irq (s.onMgt fun x => { x with rx := x.rx ++ [{ bytes := b, eid := eid, tag := tag }] }) .g 4) := by
  have hfull : decide (3 ≤ s.mgt.rx.length) = false := decide_eq_false (Nat.not_le.mpr hroom)
  show execMctpMessageRx b eid tag true false s = _
  simp only [execMctpMessageRx, done, hserves, State.when_true, htakes, ge_iff_le, hfull, Bool.not_true, Bool.or_self, Bool.false_eq_true, ↓reduceIte]

theorem exec_mctpMessageRx_discarded (h : portTakes b = false ∨ 3 ≤ s.mgt.rx.length) :
    exec (.mctpMessageRx b eid tag true false) s = .next (s.onMgt fun x => { x with discards := satInc 16 x.discards }) := by
  have hbad : (false || !portTakes b || decide (3 ≤ s.mgt.rx.length)) = true := by
    rcases h with h | h
    · rw [h]; rfl
    · rw [decide_eq_true h, Bool.or_true]
  show execMctpMessageRx b eid tag true false s = _
  simp only [execMctpMessageRx, done, hserves, State.when_true, ge_iff_le, hbad, Bool.not_true, Bool.false_eq_true, ↓reduceIte]

theorem exec_mctpMessageRx_badPec (ic : Bool) :
    exec (.mctpMessageRx b eid tag false ic) s = .next (s.onMgt fun x => { x with pecFails := satInc 16 x.pecFails }) := by
  show execMctpMessageRx b eid tag false ic s = _
  rw [execMctpMessageRx, hserves]
  rfl

end

/-! ### MCTP control commands (14 R725) -/

/-- The message in hand leaves the queue. -/
theorem takeMsg_of_hand (h : s.mgt.rx = m :: rest) : takeMsg s m = s.onMgt fun x => { x with rx := rest, taken := some m } := by
  simp only [takeMsg, State.onMgt, h, List.drop_one, List.tail_cons]

/-- A control command is answered when it is the one in hand, `f` being what it changes besides the queue. -/
theorem mctpAnswer_of_hand {cmd : Nat} {p : Nat → Bool} (h : ControlInHand s m rest cmd) (hp : p cmd = true) (code : Byte) (data : Bytes) (f : State → State) :
    mctpAnswer s p code data f = sendMsg (f (s.onMgt fun x => { x with rx := rest, taken := some m })) m
      ([0, ((cut m.bytes 1 1).headD 0) &&& 0x1F, (cut m.bytes 2 1).headD 0, code] ++ data) := by
  obtain ⟨hrx, hserves, hcontrol, hcmd⟩ := h
  unfold mctpAnswer
  rw [hrx]
  simp only [hserves, hcontrol, hcmd, hp, takeMsg_of_hand hrx, beq_self_eq_true, Bool.and_self, ↓reduceIte]

theorem mctpAnswer_controlAnswer {cmd : Nat} {p : Nat → Bool} (h : ControlInHand s m rest cmd) (hp : p cmd = true) (code : Byte) (data : Bytes) :
    done (mctpAnswer s p code data id) = .next (controlAnswer s m rest code data) := by
  rw [mctpAnswer_of_hand h hp, done, id, controlAnswer]

theorem exec_setEndpointId {eid : BitVec 8} (h : ControlInHand s m rest 1) (heid : cut m.bytes 4 1 = [eid]) : exec (.setEndpointId eid) s =
    .next (controlAnswer (s.onMgt fun x => { x with eid := if eid = 0 then none else some eid }) m rest 0 [0, eid, 0]) := by
  have hrx : s.mgt.rx = m :: rest := h.1
  show execSetEndpointId eid s = _
  rw [execSetEndpointId, hrx]
  simp only [heid, beq_self_eq_true, State.when_true]
  rw [mctpAnswer_of_hand h rfl]
  rfl

theorem exec_mctpUnsupportedCommand {c : Byte} (hc : c.toNat ∉ [1, 2, 4, 5, 6]) (h : ControlInHand s m rest c.toNat) :
    exec (.mctpUnsupportedCommand c) s = .next (controlAnswer s m rest 5 []) := by
  have hundefined : ([0x01, 0x02, 0x04, 0x05, 0x06] : List Nat).contains c.toNat = false := by simpa using hc
  show execMctpUnsupportedCommand c s = _
  rw [execMctpUnsupportedCommand, hundefined]
  exact mctpAnswer_controlAnswer (p := (· == c.toNat)) h (beq_self_eq_true _) 5 []

/-! ### The MGT window (14 R729, R730) -/

theorem mgtCmd_of_reaches {a : Nat} (h : Reaches s .g a false) (f : State → State) : mgtCmd s .g a f = f s := winCmd_of_reaches h f

theorem exec_mgtRxTake (hreach : Reaches s .g 0xB003 false) (hrx : s.mgt.rx = m :: rest) : exec (.mgtRxTake .g) s =
    .next (writeStr (s.onMgt fun x => { x with rx := rest, taken := some m }) .g s.mgt.rxAddr.toNat m.bytes) := by
  show execMgtRxTake .g s = _
  rw [execMgtRxTake, mgtCmd_of_reaches hreach, mgtTake, hrx]
  simp only [takeMsg_of_hand hrx, done]

theorem exec_mgtTxSend {b : Bytes} (hreach : Reaches s .g 0xB006 false) (htaken : s.mgt.taken = some m) (hmin : 1 ≤ s.mgt.txLen.toNat)
    (hmax : s.mgt.txLen.toNat ≤ 4113) (hread : readStr s .g s.mgt.txAddr.toNat s.mgt.txLen.toNat = some b) :
    exec (.mgtTxSend .g) s = .next (sendMsg s m b) := by
  show execMgtTxSend .g s = _
  rw [execMgtTxSend, mgtCmd_of_reaches hreach, mgtSend, htaken, hread]
  simp only [hmin, hmax, and_self, decide_true, State.when_true, done]

theorem exec_mgtAlertSet (k : BitVec 32) (hreach : Reaches s .g 0xB008 false) :
    exec (.mgtAlertSet .g k) s = .next (s.onMgt fun x => { x with alert := x.alert ||| k }) := by
  show execMgtAlertSet .g k s = _
  rw [execMgtAlertSet, mgtCmd_of_reaches hreach, mgtSet, done]

theorem exec_mgtAlertClear (k n : BitVec 32) (hreach : Reaches s .g 0xB009 false) :
    exec (.mgtAlertClear .g k n) s = .next (s.onMgt fun x => { x with alert := x.alert &&& ~~~k ||| n }) := by
  show execMgtAlertClear .g k n s = _
  rw [execMgtAlertClear, mgtCmd_of_reaches hreach, mgtClear, done]

end Sys2Proof.Machine
end

section
/-! OBLIGATIONS. The management port and core G's window: O35. -/

namespace Sys2Proof.Machine

set_option Elab.async false

/-- Settles O35: the port, the control commands one by one, the window. -/
theorem controlMessagesAreTakenAndAnswered : Obligations.ControlMessagesAreTakenAndAnswered := by
  refine ⟨fun s b eid tag hserves => ⟨exec_mctpMessageRx_taken hserves, exec_mctpMessageRx_discarded hserves, exec_mctpMessageRx_badPec hserves⟩,
    fun s m rest => ⟨fun h eid => exec_setEndpointId h, ?getEid, ?version, ?types, ?vendor, fun c => exec_mctpUnsupportedCommand⟩,
    fun s m rest => exec_mgtRxTake, fun s m b => exec_mgtTxSend, fun s k => exec_mgtAlertSet k, fun s k n => exec_mgtAlertClear k n⟩
  case getEid => exact fun h => mctpAnswer_controlAnswer h rfl 0 _
  case version => exact fun h => mctpAnswer_controlAnswer h rfl 0 _
  case types => exact fun h => mctpAnswer_controlAnswer h rfl 0 _
  case vendor => exact fun h => mctpAnswer_controlAnswer h rfl 0 _

end Sys2Proof.Machine
end

section
/-! SUPPORT. The commands of the REC window: what carries each out, and what the hot set reads after a write (12 R652-R668, R679). -/

namespace Sys2Proof.Machine

set_option Elab.async false

variable {s : State} {c : CoreId}

/-! ### A command that is carried out (12 R665) -/

/-- The act of each command code of REC_CMD. -/
def recAct (s : State) (c : CoreId) (parts : Nat) : Nat → State
  | 1 => recAppend s c
  | 2 => recRead s c
  | 3 => recBegin s c parts
  | 4 => recAbort s c
  | 5 => recHotWrite s c
  | 6 => recHotRead s c
  | _ => recEnd (recBusy s c 0) .badFormat

/-- With no command running, a write whose reserved bits are 0 has the act of its code; only BEGIN_TX takes a count of parts. -/
theorem recCmd_of_idle (hidle : s.store.busy = false) {v : BitVec 32} (hrsv : v.extractLsb' 4 4 = 0) (hrsv' : v.extractLsb' 12 20 = 0)
    (hparts : (v.extractLsb' 0 4).toNat = 3 ∨ (v.extractLsb' 8 4).toNat = 0) :
    recCmd s c v = recAct s c (v.extractLsb' 8 4).toNat (v.extractLsb' 0 4).toNat := by
  have hformat : ¬(v.extractLsb' 4 4 ≠ 0 ∨ v.extractLsb' 12 20 ≠ 0 ∨ ((v.extractLsb' 0 4).toNat ≠ 3 ∧ (v.extractLsb' 8 4).toNat ≠ 0)) := by
    simp only [hrsv, hrsv', ne_eq, not_true_eq_false, false_or, not_and_or, not_not]
    exact hparts
  unfold recCmd
  simp only [hidle, hformat, Bool.false_eq_true, ↓reduceIte]
  rfl

theorem done_recCmd (h : RecFree s c) (v : BitVec 32) (hrsv : v.extractLsb' 4 4 = 0 := by decide) (hrsv' : v.extractLsb' 12 20 = 0 := by decide)
    (hparts : (v.extractLsb' 0 4).toNat = 3 ∨ (v.extractLsb' 8 4).toNat = 0 := by decide) :
    done (winCmd s c 0xA400 true (recCmd · c v)) = .next (recAct s c (v.extractLsb' 8 4).toNat (v.extractLsb' 0 4).toNat) := by
  obtain ⟨hreach, hidle, -⟩ := h
  rw [winCmd_of_reaches hreach, recCmd_of_idle hidle hrsv hrsv' hparts, done]

theorem exec_recAppend (h : RecFree s c) : exec (.recAppend c) s = .next (recAppend s c) := done_recCmd h 1
theorem exec_recRead (h : RecFree s c) : exec (.recRead c) s = .next (recRead s c) := done_recCmd h 2
theorem exec_recAbortTx (h : RecFree s c) : exec (.recAbortTx c) s = .next (recAbort s c) := done_recCmd h 4
theorem exec_recHotWrite (h : RecFree s c) : exec (.recHotWrite c) s = .next (recHotWrite s c) := done_recCmd h 5
theorem exec_recHotRead (h : RecFree s c) : exec (.recHotRead c) s = .next (recHotRead s c) := done_recCmd h 6

theorem exec_recBeginTx (h : RecFree s c) (parts : BitVec 4) : exec (.recBeginTx c parts) s = .next (recBegin s c parts.toNat) := by
  have hop : (3 + 256 * parts.zeroExtend 32 : BitVec 32).extractLsb' 0 4 = 3 := by revert parts; decide
  have hcount : (3 + 256 * parts.zeroExtend 32 : BitVec 32).extractLsb' 8 4 = parts := by revert parts; decide
  have hrsv : (3 + 256 * parts.zeroExtend 32 : BitVec 32).extractLsb' 4 4 = 0 := by revert parts; decide
  have hrsv' : (3 + 256 * parts.zeroExtend 32 : BitVec 32).extractLsb' 12 20 = 0 := by revert parts; decide
  have hact := done_recCmd h (3 + 256 * parts.zeroExtend 32) hrsv hrsv' (.inl (by rw [hop]; rfl))
  rw [hop, hcount] at hact
  exact hact

/-! ### APPEND (12 R657, R662, R667, R668) -/

theorem openTxn_recBusy (s : State) (c d : CoreId) (cmd : Nat) (part : BitVec 2) : openTxn (recBusy s c cmd) d part = openTxn s d part := rfl

/-- The record joins the queue, as the next part of the transaction that is open in its partition. -/
def queueAppend (s : State) (c : CoreId) (r : Record) : Option Txn → State
  | some x => recQueue ((recBusy s c 1).onStore fun y => { y with txns := tput none y.txns (coreIdx c) (some { x with queued := x.queued + 1 }) }) c
      { r with txn := x.txn, idx := x.queued }
  | none => recQueue (recBusy s c 1) c r

section
variable {b : Bytes} {x : Txn} (h : RecFree s c) (hlen : s.store.len.toNat ≤ 4000) (hpart : s.store.part ≠ 0) (htype : typeIn s.store.part s.store.typ = true)
  (hread : readStr s c s.store.addr.toNat s.store.len.toNat = some b) (hmay : mayAppend c s.store.part s.store.typ = true)
  (hveil : veilClear s.store.typ b = true)
include h hlen hpart htype hread hmay hveil

/-- An APPEND that the rules allow puts its record into the queue. -/
theorem exec_recAppend_allowed : exec (.recAppend c) s =
    .next (queueAppend s c { part := s.store.part, typ := s.store.typ, id := s.store.id.toNat, payload := b } (openTxn s c s.store.part)) := by
  obtain ⟨-, -, hready⟩ := id h
  have hread' : readStr (recBusy s c 1) c s.store.addr.toNat s.store.len.toNat = some b := hread
  rw [exec_recAppend h, recAppend]
  simp only [hready, gt_iff_lt, Nat.not_lt.mpr hlen, hpart, htype, hread', hmay, hveil, openTxn_recBusy, Bool.not_true, Bool.or_self, or_self,
    Bool.false_eq_true, ↓reduceIte]
  cases openTxn s c s.store.part <;> rfl

theorem exec_recAppend_alone (hnone : openTxn s c s.store.part = none) : exec (.recAppend c) s =
    .next (recQueue (recBusy s c 1) c { part := s.store.part, typ := s.store.typ, id := s.store.id.toNat, payload := b }) := by
  rw [exec_recAppend_allowed h hlen hpart htype hread hmay hveil, hnone, queueAppend]

theorem exec_recAppend_part (hopen : openTxn s c s.store.part = some x) : exec (.recAppend c) s = .next (recQueue
    ((recBusy s c 1).onStore fun y => { y with txns := tput none y.txns (coreIdx c) (some { x with queued := x.queued + 1 }) }) c
    { part := s.store.part, typ := s.store.typ, id := s.store.id.toNat, payload := b, txn := x.txn, idx := x.queued }) := by
  rw [exec_recAppend_allowed h hlen hpart htype hread hmay hveil, hopen, queueAppend]

end

/-! ### READ (12 R666, R667) -/

theorem exec_recRead_runs (h : RecFree s c) (hpart : s.store.part ≠ 0) (htype : typeIn s.store.part s.store.typ = true) :
    exec (.recRead c) s = .next (recBusy s c 2) := by
  obtain ⟨-, -, hready⟩ := id h
  have hready' : (recBusy s c 2).store.ready = true := hready
  have hpart' : (recBusy s c 2).store.part ≠ 0 := hpart
  have htype' : typeIn (recBusy s c 2).store.part (recBusy s c 2).store.typ = true := htype
  rw [exec_recRead h, recRead]
  simp only [hready', hpart', htype', Bool.not_true, Bool.false_eq_true, or_self, ↓reduceIte]

section
variable {r : Record} (hbusy : s.store.busy = true) (hcmd : s.store.cmd = 2)
include hbusy hcmd

theorem exec_recReadDone_none (hlatest : latest s s.store.part s.store.typ s.store.id.toNat = none) :
    exec .recReadDone s = .next (recEnd (s.onStore fun y => { y with len := 0xFFFFFFFF }) .done) := by
  show execRecReadDone s = _
  simp only [execRecReadDone, hbusy, hcmd, beq_self_eq_true, Bool.and_self, State.when_true, hlatest, done]

theorem exec_recReadDone_some (hlatest : latest s s.store.part s.store.typ s.store.id.toNat = some r) :
    let u := s.onStore fun y => { y with len := BitVec.ofNat 32 r.payload.length }
    let h := writeStr u s.store.core s.store.addr.toNat (recHeader r)
    exec .recReadDone s = .next (if idSpace r.typ = 0x0101 then recEnd h .keyDenied
      else recEnd (writeStr h s.store.core (s.store.addr.toNat + 4) r.payload) .done) := by
  show execRecReadDone s = _
  simp only [execRecReadDone, hbusy, hcmd, beq_self_eq_true, Bool.and_self, State.when_true, hlatest, done]

end

/-! ### Transactions (12 R662, R664) -/

/-- An INTENT of at most 16 parts has zeros after the count and the source. -/
theorem intentPayload_serge (n : Nat) (hn : n < 256) (c : CoreId) :
    intentPayload n (.serge c) = leBytes 1 n ++ leBytes 1 (coreIdx c) ++ zeros 2 := by
  rw [intentPayload, Nat.div_eq_of_lt hn, List.append_assoc _ (leBytes 1 0)]
  rfl

theorem exec_recBeginTx_opens {parts : BitVec 4} (h : RecFree s c) (hpart : s.store.part ≠ 0) (hparts : parts ≠ 0)
    (hnone : tget none s.store.txns (coreIdx c) = none) (hg : c = .g → s.store.part = 2) (hmain : c ≠ .g → s.store.part ≠ 2) :
    exec (.recBeginTx c parts) s = .next (recQueue ((recBusy s c 3).onStore fun y => { y with
        txns := tput none y.txns (coreIdx c) (some { part := s.store.part, txn := s.store.nextTxn, n := parts.toNat + 1 })
        nextTxn := if s.store.nextTxn = 255 then 1 else s.store.nextTxn + 1 }) c
      { part := s.store.part, typ := 0x0001, id := s.store.nextTxn, txn := s.store.nextTxn
        payload := leBytes 1 (parts.toNat + 1) ++ leBytes 1 (coreIdx c) ++ zeros 2 }) := by
  obtain ⟨-, -, hready⟩ := id h
  have hpos : ¬parts.toNat < 1 := fun q => hparts (BitVec.eq_of_toNat_eq (by simpa using q))
  have hown : ¬((c = .g ∧ s.store.part ≠ 2) ∨ (c ≠ .g ∧ s.store.part = 2)) := by
    rintro (⟨hc, hother⟩ | ⟨hc, hmgt⟩)
    · exact hother (hg hc)
    · exact hmain hc hmgt
  have hsmall : parts.toNat + 1 < 256 := by omega
  rw [exec_recBeginTx h, recBegin]
  simp only [hready, hpart, hpos, hnone, hown, intentPayload_serge _ hsmall, Bool.not_true, Option.isSome_none, Bool.false_eq_true, or_self, ↓reduceIte]
  rfl

theorem exec_recAbortTx_open (h : RecFree s c) (hopen : (tget none s.store.txns (coreIdx c)).isSome = true) :
    exec (.recAbortTx c) s = .next (recEnd (rollBack (recBusy s c 4) (coreIdx c)) .done) := by
  obtain ⟨-, -, hready⟩ := id h
  have hready' : (recBusy s c 4).store.ready = true := hready
  have hopen' : (tget none (recBusy s c 4).store.txns (coreIdx c)).isNone = false := by
    rw [Option.isNone_eq_false_iff]
    exact hopen
  rw [exec_recAbortTx h, recAbort]
  simp only [hready', hopen', Bool.not_true, Bool.false_eq_true, ↓reduceIte]

/-! ### The hot set (12 R665, R666, R679) -/

/-- The slots from `a` on set one after another to the values of `f`. -/
def hotPuts (s : State) (a n : Nat) (f : Nat → BitVec 64) : State := (List.range n).foldl (fun s i => hotPut s (a + i) (f i)) s

theorem hotPuts_succ (s : State) (a n : Nat) (f : Nat → BitVec 64) : hotPuts s a (n + 1) f = hotPut (hotPuts s a n f) (a + n) (f n) := by
  rw [hotPuts, List.range_succ, List.foldl_append]
  rfl

theorem keeps_hotPuts (s : State) (a n : Nat) (f : Nat → BitVec 64) : Keeps [.store] s (hotPuts s a n f) := .foldl (fun _ _ => keeps_onStore _ _) _ s

theorem twf_hotPuts (h : twf 0 s.store.hot = true) (a n : Nat) (f : Nat → BitVec 64) : twf 0 (hotPuts s a n f).store.hot = true := by
  induction n with
  | zero => exact h
  | succ n ih =>
    rw [hotPuts_succ]
    exact twf_tput ih

theorem hotGet_hotPut_ne (s : State) {m k : Nat} (h : m ≠ k) (v : BitVec 64) : hotGet (hotPut s k v) m = hotGet s m := tget_tput_ne h _

theorem hotGet_hotPuts_out (s : State) (a n : Nat) (f : Nat → BitVec 64) {m : Nat} (hm : m < a ∨ a + n ≤ m) : hotGet (hotPuts s a n f) m = hotGet s m := by
  induction n with
  | zero => rfl
  | succ n ih => rw [hotPuts_succ, hotGet_hotPut_ne _ (by omega), ih (by omega)]

theorem hotGet_hotPuts (h : twf 0 s.store.hot = true) (a n : Nat) (f : Nat → BitVec 64) {i : Nat} (hi : i < n) :
    hotGet (hotPuts s a n f) (a + i) = f i := by
  induction n with
  | zero => exact absurd hi (Nat.not_lt_zero _)
  | succ n ih =>
    rw [hotPuts_succ]
    by_cases hlast : i = n
    · subst hlast
      exact tget_tput (twf_hotPuts h a i f)
    · rw [hotGet_hotPut_ne _ (by omega), ih (by omega)]

/-- A command that begins or ends leaves the hot set as it is. -/
theorem hotGet_recBusy (s : State) (c : CoreId) (cmd m : Nat) : hotGet (recBusy s c cmd) m = hotGet s m := rfl
theorem hotGet_recEnd (s : State) (st : Status) (m : Nat) : hotGet (recEnd s st) m = hotGet s m := rfl
theorem recEnd_status (s : State) (st : Status) : (recEnd s st).store.code = st ∧ (recEnd s st).store.busy = false ∧ (recEnd s st).store.done = true :=
  ⟨rfl, rfl, rfl⟩

theorem keeps_recBusy (s : State) (c : CoreId) (cmd : Nat) : Keeps [.store] s (recBusy s c cmd) := keeps_onStore s _

theorem keeps_recEnd (s : State) (st : Status) : Keeps [.store, .unit] s (recEnd s st) :=
  ((keeps_onStore s _).mono (by simp)).trans ((keeps_irqAll _ 18).mono (by simp))

/-- The slots of a writer are nobody else's. -/
theorem hotOwners_of_writer {a n : Nat} (hown : ∀ i, i < n → hotOwner (a + i) = if c = .g then 2 else 1) :
    (((List.range n).map fun i => hotOwner (a + i)).any (· == 3)) = false ∧
      (((List.range n).map fun i => hotOwner (a + i)).any fun o => decide (o ≠ if c = .g then 2 else 1)) = false := by
  constructor
  · rw [List.any_eq_false]
    intro o ho
    obtain ⟨i, hi, rfl⟩ := List.mem_map.mp ho
    rw [hown i (List.mem_range.mp hi)]
    split <;> decide
  · rw [List.any_eq_false]
    intro o ho
    obtain ⟨i, hi, rfl⟩ := List.mem_map.mp ho
    rw [hown i (List.mem_range.mp hi)]
    simp

theorem completes_recHotWrite {b : Bytes} (h : RecFree s c) (hrange : hotRange s = none) (hsaving : s.store.saving = false)
    (hown : ∀ i, i < s.store.len.toNat → hotOwner (s.store.id.toNat + i) = if c = .g then 2 else 1)
    (hread : readStr s c s.store.addr.toNat (8 * s.store.len.toNat) = some b) (hform : twf 0 s.store.hot = true) :
    Completes (.recHotWrite c) s [.store, .unit] fun t => t.store.code = .done ∧ t.store.busy = false ∧ t.store.done = true ∧
      (∀ i, i < s.store.len.toNat → hotGet t (s.store.id.toNat + i) = BitVec.ofNat 64 (leAt b (8 * i) 8)) ∧
      ∀ m, m < s.store.id.toNat ∨ s.store.id.toNat + s.store.len.toNat ≤ m → hotGet t m = hotGet s m := by
  obtain ⟨-, -, hready⟩ := id h
  obtain ⟨hnobody, hother⟩ := hotOwners_of_writer hown
  have hrange' : hotRange (recBusy s c 5) = none := hrange
  have hread' : readStr (recBusy s c 5) c s.store.addr.toNat (8 * s.store.len.toNat) = some b := hread
  have hexec : exec (.recHotWrite c) s = .next (recEnd (hotPuts (recBusy s c 5) s.store.id.toNat s.store.len.toNat
      fun i => BitVec.ofNat 64 (leAt b (8 * i) 8)) .done) := by
    rw [exec_recHotWrite h, recHotWrite]
    simp only [hready, hrange', hsaving, hnobody, hother, hread', Bool.not_true, Bool.false_eq_true, ↓reduceIte]
    rfl
  obtain ⟨hcode, hbusy, hdone⟩ := recEnd_status (hotPuts (recBusy s c 5) s.store.id.toNat s.store.len.toNat fun i => BitVec.ofNat 64 (leAt b (8 * i) 8)) .done
  refine ⟨_, hexec, ⟨hcode, hbusy, hdone, fun i hi => ?_, fun m hm => ?_⟩, ?_⟩
  · rw [hotGet_recEnd, hotGet_hotPuts (s := recBusy s c 5) hform _ _ _ hi]
  · rw [hotGet_recEnd, hotGet_hotPuts_out _ _ _ _ hm, hotGet_recBusy]
  · exact (((keeps_recBusy s c 5).trans (keeps_hotPuts _ _ _ _)).mono (by simp)).trans (keeps_recEnd _ _)

theorem exec_recHotRead_slots (h : RecFree s c) (hrange : hotRange s = none) :
    exec (.recHotRead c) s = .next (recEnd (writeStr (recBusy s c 6) c s.store.addr.toNat
      ((List.range s.store.len.toNat).flatMap fun i =>
        leBytes 8 (if s.store.id.toNat + i < 384 then (hotGet s (s.store.id.toNat + i)).toNat else 0))) .done) := by
  obtain ⟨-, -, hready⟩ := id h
  have hrange' : hotRange (recBusy s c 6) = none := hrange
  rw [exec_recHotRead h, recHotRead]
  simp only [hready, hrange', Bool.not_true, Bool.false_eq_true, ↓reduceIte]
  rfl

end Sys2Proof.Machine
end

section
/-! OBLIGATIONS. The REC window: O17. -/

namespace Sys2Proof.Machine

set_option Elab.async false

/-- Settles O17, command by command. -/
theorem recordWindowCommandsAct : Obligations.RecordWindowCommandsAct :=
  ⟨fun _ _ _ => exec_recAppend_alone, fun _ _ _ _ => exec_recAppend_part, fun _ _ => exec_recRead_runs, fun _ => exec_recReadDone_none,
    fun _ _ => exec_recReadDone_some, fun _ _ _ => exec_recBeginTx_opens, fun _ _ => exec_recAbortTx_open, fun _ _ _ => completes_recHotWrite,
    fun _ _ => exec_recHotRead_slots⟩

end Sys2Proof.Machine
end

section
/-! SUPPORT. The end of a flush: every link goes DOWN, and the loss of HBM brings none back (13 R706 steps 8 and 9, R708). -/

namespace Sys2Proof.Machine

set_option Elab.async false

variable {s t u : State}

/-! ### The table of ports stays in canonical form -/

/-- The table of ports is in canonical form. -/
def PortsForm (s : State) : Prop := twf {} s.fab.ports = true

theorem PortsForm.of_ports (h : PortsForm s) (he : t.fab.ports = s.fab.ports) : PortsForm t := by
  rw [PortsForm, he]
  exact h

theorem PortsForm.onPort (h : PortsForm s) (p : Port) (f : PortSt → PortSt) : PortsForm (onPort s p f) := twf_tupd h

theorem PortsForm.sendOn (h : PortsForm s) (p : Port) (f : Frame) : PortsForm (sendOn s p f) := by
  unfold Machine.sendOn
  split
  · exact (h.onPort p _).of_ports rfl
  · exact h.onPort p _

theorem PortsForm.foldl {α : Type} {f : State → α → State} (hf : ∀ {s} x, PortsForm s → PortsForm (f s x)) :
    ∀ (xs : List α) {s : State}, PortsForm s → PortsForm (xs.foldl f s)
  | [], _, h => h
  | x :: xs, _, h => PortsForm.foldl hf xs (hf x h)

theorem PortsForm.withdraw (h : PortsForm s) : PortsForm (withdraw s) :=
  PortsForm.foldl (fun p h => h.sendOn p _) _ (h.of_ports rfl)

theorem PortsForm.linkDown (h : PortsForm s) (p : Port) : PortsForm (linkDown s p) :=
  (h.onPort p (wentDown s p)).of_ports (congrArg FabSt.ports (keeps_linkDown_port s p .fab (by simp)))

/-! ### Every link goes DOWN (13 R706 step 9) -/

/-- A port's link goes DOWN, unless it is. -/
def dropLink (s : State) (p : Port) : State := if (portSt s p).link == .down then s else linkDown s p

theorem keeps_dropLink (s : State) (p : Port) : Keeps [.fab, .unit] s (dropLink s p) := by
  unfold dropLink
  split
  · exact .refl _ s
  · exact keeps_linkDown s p

theorem PortsForm.dropLink (h : PortsForm s) (p : Port) : PortsForm (dropLink s p) := by
  unfold Machine.dropLink
  split
  · exact h
  · exact h.linkDown p

theorem portSt_linkDown_ne {p q : Port} (h : q ≠ p) : portSt (linkDown s p) q = portSt s q :=
  (portSt_congr (congrArg FabSt.ports (keeps_linkDown_port s p .fab (by simp))) q).trans (portSt_onPort_ne (f := wentDown s p) h)

theorem dropLink_down_self (h : PortsForm s) (p : Port) : (portSt (dropLink s p) p).link = .down := by
  unfold dropLink
  split
  next hdown => exact beq_iff_eq.mp hdown
  next => rw [portSt_linkDown_canonical h]; rfl

/-- A link that is DOWN stays so while others go DOWN. -/
theorem dropLink_down {q : Port} (h : PortsForm s) (p : Port) (hq : (portSt s q).link = .down) : (portSt (dropLink s p) q).link = .down := by
  by_cases e : q = p
  · subst e
    exact dropLink_down_self h q
  · unfold dropLink
    split
    · exact hq
    · rw [portSt_linkDown_ne e, hq]

theorem foldl_dropLink_down {q : Port} : ∀ (ps : List Port) {s : State}, PortsForm s → q ∈ ps ∨ (portSt s q).link = .down →
    (portSt (ps.foldl dropLink s) q).link = .down
  | [], _, _, h => h.resolve_left (by simp)
  | p :: ps, s, hform, h => by
    refine foldl_dropLink_down ps (hform.dropLink p) ?_
    rcases h with h | h
    · rcases List.mem_cons.mp h with rfl | h
      · exact .inr (dropLink_down_self hform q)
      · exact .inl h
    · exact .inr (dropLink_down hform p h)

theorem allPorts_down (h : PortsForm s) (q : Port) : (portSt (allPorts.foldl dropLink s) q).link = .down :=
  foldl_dropLink_down allPorts h (.inl (by cases q <;> decide))

/-! ### What the loss of HBM leaves (13 R708) -/

/-- Every link is in the state it was in, and so is the tamper response. -/
structure LinksStand (s t : State) : Prop where
  links : ∀ q, (portSt t q).link = (portSt s q).link
  tmp : t.tmp = s.tmp

theorem LinksStand.refl (s : State) : LinksStand s s := ⟨fun _ => rfl, rfl⟩

theorem LinksStand.trans (h : LinksStand s t) (k : LinksStand t u) : LinksStand s u := ⟨fun q => (k.links q).trans (h.links q), k.tmp.trans h.tmp⟩

theorem LinksStand.of_ports (hp : t.fab.ports = s.fab.ports) (ht : t.tmp = s.tmp) : LinksStand s t := ⟨fun q => by rw [portSt_congr hp], ht⟩

/-- A change of other parts. -/
theorem LinksStand.of_keeps {l : List Part} (hk : Keeps l s t) (hl : ∀ p ∈ [Part.fab, .tmp], p ∉ l := by decide) : LinksStand s t :=
  .of_ports (congrArg FabSt.ports (hk .fab (hl _ (by decide)))) (hk .tmp (hl _ (by decide)))

theorem LinksStand.of_sends (h : Sends s t) : LinksStand s t := ⟨h.links, h.keeps .tmp (by simp)⟩

theorem LinksStand.foldl {α : Type} {f : State → α → State} (h : ∀ s x, LinksStand s (f s x)) : ∀ (xs : List α) (s : State), LinksStand s (xs.foldl f s)
  | [], s => .refl s
  | x :: xs, s => (h s x).trans (LinksStand.foldl h xs (f s x))

theorem linksStand_endVerdict (s : State) (r : Req) (st : Status) (v : VCode) (detail : BitVec 16) : LinksStand s (endVerdict s r st v detail) := by
  unfold endVerdict
  extract_lets code
  split
  · exact .trans (.of_sends (sends_sendTo s _ _ _)) (.of_keeps (keeps_freeReq _ r))
  · exact .trans (.of_keeps (keeps_complete s _ _ _ _ _)) (.of_keeps (keeps_freeReq _ r))

theorem linksStand_endReq (s : State) (r : Req) (st : Status) (detail : BitVec 16) : LinksStand s (endReq s r st detail) := by
  unfold endReq
  split
  · exact .of_keeps (keeps_endMint s r st detail 0 [])
  · exact linksStand_endVerdict s r st _ detail

theorem linksStand_endCtl (s : State) (st : Status) (detail : BitVec 16) (resp : Bytes) : LinksStand s (endCtl s st detail resp) := by
  unfold endCtl
  split
  · exact .refl s
  · exact .trans (.of_keeps (keeps_onHq s _)) (.trans (.of_keeps (keeps_complete _ _ _ _ _ _)) (.of_keeps (keeps_callHook _ _ _ _ _)))

theorem linksStand_endWait (s : State) (st : Status) (detail : BitVec 16) (resp : Bytes) : LinksStand s (endWait s st detail resp) := by
  unfold endWait
  split
  · split
    · exact .of_ports rfl rfl
    · exact .of_ports rfl rfl
  · exact linksStand_endCtl s st detail resp

theorem linksStand_onView (s : State) (home : Nat) (f : HomeView → HomeView) : LinksStand s (onView s home f) := .of_ports rfl rfl

theorem linksStand_onFab (s : State) (f : FabSt → FabSt) (hf : (f s.fab).ports = s.fab.ports) : LinksStand s (s.onFab f) := .of_ports hf rfl

theorem linksStand_loadTerms (s : State) : LinksStand s (loadTerms s) := by
  unfold loadTerms
  extract_lets s1 own twin s2
  have h1 : LinksStand s s1 := linksStand_onFab s _ rfl
  have h2 : LinksStand s s2 := h1.trans (.trans (linksStand_onFab s1 _ rfl) (linksStand_onView _ _ _))
  clear_value s1 s2
  split
  · exact h1
  · split
    · exact h2.trans (.trans (linksStand_onFab s2 _ rfl) (linksStand_onView _ _ _))
    · exact h2

theorem linksStand_loseHbm (s : State) : LinksStand s (loseHbm s) := by
  unfold loseHbm
  extract_lets s1 s2 s3 s4 s5
  have h1 : LinksStand s s1 := .foldl (fun v k => by
    split
    · exact linksStand_endReq v _ _ _
    · exact .refl v) _ s
  have h2 : LinksStand s1 s2 := by
    show LinksStand s1 (s1.when _ _)
    unfold State.when
    split
    · exact linksStand_endWait s1 _ _ _
    · exact .refl s1
  have h5 : LinksStand s2 s5 := .of_ports rfl rfl
  exact ((h1.trans h2).trans h5).trans (linksStand_loadTerms s5)

/-! ### TAMPER_FLUSH_DONE -/

/-- The flush has ended and the node has withdrawn. -/
def flushEnded (s : State) : State := (s.when (!s.fab.withdrawn) withdraw).onTmp fun t => { t with withdrawn := true, flushing := false }

theorem flushDone_eq (h : s.tmp.flushing = true) : flushDone s = loseHbm (allPorts.foldl dropLink (flushEnded s)) := by
  have hdrop : dropLink = fun s p => if (portSt s p).link == .down then s else linkDown s p := rfl
  rw [flushDone, h, State.when_true, hdrop, flushEnded]

theorem PortsForm.flushEnded (h : PortsForm s) : PortsForm (flushEnded s) := by
  unfold Machine.flushEnded State.when
  split
  · exact h.withdraw.of_ports rfl
  · exact h

theorem exec_tamperFlushDone (hflush : s.tmp.flushing = true) (hform : twf {} s.fab.ports = true) :
    ∃ t, exec .tamperFlushDone s = .next t ∧ t.tmp.flushing = false ∧ t.tmp.withdrawn = true ∧ ∀ p, linkUp t p = false := by
  have hexec : exec .tamperFlushDone s = .next (loseHbm (allPorts.foldl dropLink (flushEnded s))) := by
    show execTamperFlushDone s = _
    rw [execTamperFlushDone, flushDone_eq hflush, done]
  have hstand := linksStand_loseHbm (allPorts.foldl dropLink (flushEnded s))
  have htmp : (loseHbm (allPorts.foldl dropLink (flushEnded s))).tmp = (flushEnded s).tmp :=
    hstand.tmp.trans (Keeps.foldl keeps_dropLink allPorts (flushEnded s) .tmp (by simp))
  refine ⟨_, hexec, by rw [htmp]; rfl, by rw [htmp]; rfl, fun p => ?_⟩
  rw [linkUp, hstand.links, allPorts_down (PortsForm.flushEnded hform)]
  rfl

end Sys2Proof.Machine
end

section
/-! SUPPORT. The clearing of a response, its withdrawal and the writes of HQ_PLANE open (13 R705-R715, 15 R793). -/

namespace Sys2Proof.Machine

set_option Elab.async false

variable {s : State} {c : CoreId}

/-! ### TAMPER_CLEAR and TAMPER_WITHDRAW_TIMER (13 R705, R710) -/

theorem respInForce_of_inForce (h : s.tmp.inForce = true) : respInForce s = true := by rw [respInForce, h, Bool.true_or]

/-- With every condition absent no sensor alarms. -/
def alarmsGone (s : State) : State := s.onTmp fun t => { t with alarming := 0, raisers := 0 }

theorem exec_tamperClear_operating (hforce : s.tmp.inForce = true) (hlevel : s.tmp.level = 1) (hup : s.pow.mainUp = true) (hboot : 6 ≤ s.pow.bootStep) :
    exec .tamperClear s = .next (s.onTmp fun t => { t with alarming := 0, raisers := 0, cleared := true }) := by
  have hforce' : respInForce (alarmsGone s) = true := respInForce_of_inForce hforce
  have hlate : ¬((s.tmp.level = 3 || !s.pow.mainUp || decide (s.pow.bootStep < 6)) = true) := by
    rw [hlevel, hup, decide_eq_false (Nat.not_lt.mpr hboot)]
    decide
  show done (if !respInForce (alarmsGone s) then alarmsGone s else if s.tmp.level = 3 || !s.pow.mainUp || s.pow.bootStep < 6 then _ else _) = _
  rw [hforce', if_neg (by decide), if_neg hlate]
  show done (if (decide (s.tmp.level = 2) && !s.tmp.restarting) = true then _ else _) = _
  rw [hlevel, if_neg (by simp)]
  rfl

theorem exec_tamperClear_off (hforce : s.tmp.inForce = true) (hheld : s.tmp.bootHeld = false) (hoff : s.pow.mainUp = false) (hlevel : s.tmp.level ≠ 3) :
    exec .tamperClear s = .next (s.onTmp fun t => { t with
      alarming := 0, raisers := 0, level := 0, inForce := false, cleared := false, bootHeld := false, restarting := false, withdrawn := false }) := by
  have hforce' : respInForce (alarmsGone s) = true := respInForce_of_inForce hforce
  have hends : (decide (s.tmp.level = 3) || !s.pow.mainUp || decide (s.pow.bootStep < 6)) = true := by rw [hoff]; simp
  have hboot : (s.tmp.bootHeld || (s.tmp.level == 3 && s.pow.standby && s.pow.state != .keep)) = false := by
    rw [hheld, beq_false_of_ne hlevel]
    rfl
  show done (if !respInForce (alarmsGone s) then alarmsGone s else if s.tmp.level = 3 || !s.pow.mainUp || s.pow.bootStep < 6 then
    State.when _ (s.tmp.bootHeld || (s.tmp.level == 3 && s.pow.standby && s.pow.state != .keep)) mainStart else _) = _
  rw [hforce', if_neg (by decide), if_pos hends, hboot]
  rfl

theorem exec_tamperWithdrawTimer (hforce : s.tmp.inForce = true) (hlevel : s.tmp.level = 1) (hcleared : s.tmp.cleared = false)
    (hup : s.pow.mainUp = true) (hboot : 6 ≤ s.pow.bootStep) (hmember : s.fab.withdrawn = false) :
    exec .tamperWithdrawTimer s = .next (withdraw (s.onTmp fun t => { t with withdrawn := true })) := by
  show execTamperWithdrawTimer s = _
  simp only [execTamperWithdrawTimer, done, hforce, hlevel, hcleared, hup, hboot, hmember, decide_true, beq_self_eq_true, Bool.not_false,
    Bool.and_self, State.when_true]

/-! ### HQ_PLANE open (13 R711, R712, 15 R793) -/

theorem exec_hqPlaneOpen (h : Reaches s c 0x9810 true) : exec (.hqPlaneOpen c) s = .next (planeOpenCmd s) := by
  show execHqPlaneOpen c s = _
  rw [execHqPlaneOpen, winCmd_of_reaches h, done]

theorem planeOpenCmd_uncleared (hforce : respInForce s = true) (hcleared : s.tmp.cleared = false) : planeOpenCmd s = s := by
  simp only [planeOpenCmd, hforce, hcleared, Bool.not_false, ↓reduceIte]

theorem planeOpenCmd_cleared (hforce : respInForce s = true) (hcleared : s.tmp.cleared = true) (hlevel : s.tmp.level = 1)
    (hmember : s.tmp.withdrawn = false) (hopen : s.hq.open_ = true) (hsupply : s.pow.pwrfail = false) :
    planeOpenCmd s = resumePlane (endResponse s) := by
  have hrejoin : rejoin s = s := by simp only [rejoin, hmember, Bool.not_false, ↓reduceIte]
  have hopen' : (endResponse s).hq.open_ = true := hopen
  have hsupply' : (endResponse s).pow.pwrfail = false := hsupply
  simp only [planeOpenCmd, hforce, hcleared, hlevel, hrejoin, hopen', hsupply', Bool.not_true, Bool.not_false, Bool.false_eq_true, ↓reduceIte, State.when_true]

theorem planeOpenCmd_opens (hforce : respInForce s = false) (hclosed : s.hq.open_ = false) (hsteps : stepsDone s = true) (hoper : operational s = true)
    (hboot : s.pow.bootStep = 11) : planeOpenCmd s = openData s := by
  simp only [planeOpenCmd, hforce, hclosed, hsteps, hoper, hboot, beq_self_eq_true, Bool.and_self, Bool.false_eq_true, ↓reduceIte, State.when_true]

theorem planeOpenCmd_resumes (hforce : respInForce s = false) (hopen : s.hq.open_ = true) (hpaused : s.hq.paused = true)
    (hplain : s.hq.pausedPwrfail = false) (hsupply : s.pow.pwrfail = false) : planeOpenCmd s = resumePlane s := by
  simp only [planeOpenCmd, hforce, hopen, hpaused, hplain, hsupply, Bool.not_false, Bool.and_self, Bool.false_eq_true, ↓reduceIte, State.when_true]

/-- A host cause leaves the plane as it is. -/
theorem cause_plane (s : State) (n : Nat) : (cause s n).hq.open_ = s.hq.open_ ∧ (cause s n).hq.paused = s.hq.paused := by
  unfold cause signal State.when
  extract_lets fire u
  cases fire
  · exact ⟨rfl, rfl⟩
  · simp only [↓reduceIte]
    split
    · exact ⟨rfl, rfl⟩
    · exact ⟨rfl, rfl⟩

theorem keeps_openData (s : State) : Keeps [.hq, .led, .pow, .out] s (openData s) :=
  (((keeps_onPow s _).mono (by simp)).trans ((keeps_onLed _ _).mono (by simp))).trans (keeps_openPlane _)

theorem openPlane_eq (s : State) : openPlane s = cause (((s.onHq fun h => { h with open_ := true, paused := false, pausedPwrfail := false }).onLed
    fun l => { l with openedAt := s.time.mUs, stopApply := false }).onPow fun p => { p with readyPin := true }) 3 := rfl

theorem openData_opens (s : State) :
    let t := openData s
    t.hq.open_ = true ∧ t.hq.paused = false ∧ t.pow.bootStep = 12 ∧ t.pow.readyPin = true ∧ t.led.exits = [] ∧ t.led.openedAt = s.time.mUs := by
  intro t
  obtain ⟨u, hu, hopen, hpaused, hboot, hpin, hexits, hat⟩ : ∃ u, t = cause u 3 ∧ u.hq.open_ = true ∧ u.hq.paused = false ∧ u.pow.bootStep = 12 ∧
      u.pow.readyPin = true ∧ u.led.exits = [] ∧ u.led.openedAt = s.time.mUs := ⟨_, openPlane_eq _, rfl, rfl, rfl, rfl, rfl, rfl⟩
  obtain ⟨hopen', hpaused'⟩ := cause_plane u 3
  have hpow : t.pow = u.pow := hu ▸ keeps_cause u 3 .pow (by simp)
  have hled : t.led = u.led := hu ▸ keeps_cause u 3 .led (by simp)
  rw [hpow, hled]
  exact ⟨by rw [hu, hopen', hopen], by rw [hu, hpaused', hpaused], hboot, hpin, hexits, hat⟩

theorem resumePlane_resumes (s : State) : (resumePlane s).hq.paused = false ∧ (resumePlane s).hq.open_ = s.hq.open_ ∧
    (resumePlane s).led.stopApply = false ∧ Keeps [.hq, .led, .out] s (resumePlane s) := by
  let u := (s.onHq fun h => { h with paused := false, pausedPwrfail := false }).onLed fun l => { l with stopApply := false }
  obtain ⟨hopen, hpaused⟩ := cause_plane u 3
  have hled : (cause u 3).led = u.led := keeps_cause u 3 .led (by simp)
  have hu : Keeps [.hq, .led, .out] s u := ((keeps_onHq s _).mono (by simp)).trans ((keeps_onLed _ _).mono (by simp))
  exact ⟨hpaused, hopen, congrArg LedgerSt.stopApply hled, hu.trans ((keeps_cause u 3).mono (by simp))⟩

end Sys2Proof.Machine
end

section
/-! OBLIGATIONS. The ends of tamper responses: O20. -/

namespace Sys2Proof.Machine

set_option Elab.async false

/-- Settles O20: the flush, the clearing, the withdrawal, and HQ_PLANE open in each of its uses. -/
theorem tamperResponsesEnd : Obligations.TamperResponsesEnd := by
  refine ⟨fun s => exec_tamperFlushDone, fun s => exec_tamperClear_operating, fun s => exec_tamperClear_off, fun s => exec_tamperWithdrawTimer,
    fun s c hreach hforce hcleared => ?ignored, fun s c hreach hforce hcleared hlevel hmember hopen hsupply => ?ends,
    fun s c hreach hforce hclosed hsteps hoper hboot => ?opens, fun s c hreach hforce hopen hpaused hplain hsupply => ?resumes⟩
  case ignored => rw [exec_hqPlaneOpen hreach, planeOpenCmd_uncleared hforce hcleared]
  case ends => rw [exec_hqPlaneOpen hreach, planeOpenCmd_cleared hforce hcleared hlevel hmember hopen hsupply, endResponse]
  case opens =>
    exact ⟨_, (exec_hqPlaneOpen hreach).trans (congrArg _ (planeOpenCmd_opens hforce hclosed hsteps hoper hboot)), openData_opens s, keeps_openData s⟩
  case resumes =>
    obtain ⟨hgoes, hstays, happlies, hkeeps⟩ := resumePlane_resumes s
    exact ⟨_, (exec_hqPlaneOpen hreach).trans (congrArg _ (planeOpenCmd_resumes hforce hopen hpaused hplain hsupply)),
      ⟨hgoes, hstays.trans hopen, happlies⟩, hkeeps⟩

end Sys2Proof.Machine
end

section
/-! SUPPORT. What the commands of the random window do once their write reaches the window (11 R629, R633, R635, R640-R643). -/

namespace Sys2Proof.Machine

set_option Elab.async false

variable {s t : State} {c : CoreId}

/-! ### A core's view of the window (11 R640) -/

theorem rngGet_rngUpd (s : State) (f : RngCore → RngCore) (hc : c ≠ .g) : rngGet (rngUpd s c f) c = f (rngGet s c) := by
  cases c with
  | g => exact absurd rfl hc
  | _ => rfl

theorem rngGet_congr (h : t.rng = s.rng) (c : CoreId) : rngGet t c = rngGet s c := by rw [rngGet, h, rngGet]

/-- A change of a core's view leaves the noise bank and the DRBG. -/
theorem rngUpd_rng (s : State) (c : CoreId) (f : RngCore → RngCore) : ∃ a b, (rngUpd s c f).rng = { s.rng with a := a, b := b } := by
  cases c <;> exact ⟨_, _, rfl⟩

@[simp] theorem rngUpd_drawn (s : State) (c : CoreId) (f : RngCore → RngCore) : (rngUpd s c f).rng.drawn = s.rng.drawn := by
  obtain ⟨a, b, h⟩ := rngUpd_rng s c f; rw [h]
@[simp] theorem rngUpd_full (s : State) (c : CoreId) (f : RngCore → RngCore) : (rngUpd s c f).rng.full = s.rng.full := by
  obtain ⟨a, b, h⟩ := rngUpd_rng s c f; rw [h]

theorem keeps_rngUpd (s : State) (c : CoreId) (f : RngCore → RngCore) : Keeps [.rng] s (rngUpd s c f) := keeps_onRng s _

theorem rngServes_rngUpd (s : State) (c : CoreId) (f : RngCore → RngCore) : rngServes (rngUpd s c f) = rngServes s := by
  obtain ⟨a, b, h⟩ := rngUpd_rng s c f
  rw [rngServes, rngServes, h]
  rfl

theorem randBytes_rngUpd (s : State) (c : CoreId) (f : RngCore → RngCore) (n : Nat) : randBytes (rngUpd s c f) n = randBytes s n := by
  obtain ⟨a, b, h⟩ := rngUpd_rng s c f
  rw [randBytes, randBytes, h]

/-! ### rng_ready and its cause (11 R637) -/

/-- A change that rng_ready shows sets a host cause besides. -/
theorem keeps_rngStep (s : State) (f : State → State) : Keeps [.hq, .out] (f s) (rngStep s f) := by
  unfold rngStep
  extract_lets u
  split
  · exact .refl _ u
  · exact keeps_cause u 10

theorem rngStep_rng (s : State) (f : State → State) : (rngStep s f).rng = (f s).rng := keeps_rngStep s f .rng (by simp)

/-! ### Serving a command (11 R629, R633) -/

/-- A command whose output has been written. -/
def rngServed (r : RngCore) : RngCore := { r with waiting := false, written := true, status := .done }

theorem rngServe_served (hwaiting : (rngGet s c).waiting = true) (hplain : (rngGet s c).fresh = false) (hserves : rngServes s = true) :
    rngServe s c = rngUpd (writeStr (drew s (rngGet s c).len.toNat) c (rngGet s c).addr.toNat (randBytes s (rngGet s c).len.toNat)) c rngServed := by
  simp only [rngServe, hwaiting, hplain, hserves, Bool.not_false, Bool.and_self, ↓reduceIte]
  rfl

theorem rngServe_none (h : (rngGet s c).waiting = false ∨ (rngGet s c).fresh = true ∨ rngServes s = false) : rngServe s c = s := by
  have hnot : ((rngGet s c).waiting && !(rngGet s c).fresh && rngServes s) = false := by
    rcases h with h | h | h <;> simp [h]
  simp only [rngServe, hnot, Bool.false_eq_true, ↓reduceIte]

/-! ### RNG_GENERATE and RNG_GENERATE_FRESH (11 R640, R643) -/

/-- A command that has begun and waits for the DRBG. -/
def rngBegun (fresh : Bool) (r : RngCore) : RngCore :=
  { r with busy := true, done := false, status := .done, written := false, waiting := true, fresh := fresh }

/-- A command that is served as it begins: its bytes are drawn and written. -/
def rngWritten (s : State) (c : CoreId) : State :=
  rngUpd (writeStr (drew (rngUpd s c (rngBegun false)) (rngGet s c).len.toNat) c (rngGet s c).addr.toNat (randBytes s (rngGet s c).len.toNat)) c rngServed

theorem rngServe_begun (hc : c ≠ .g) (hserves : rngServes s = true) : rngServe (rngUpd s c (rngBegun false)) c = rngWritten s c := by
  have hview := rngGet_rngUpd s (rngBegun false) hc
  have hlen : (rngBegun false (rngGet s c)).len = (rngGet s c).len := rfl
  have haddr : (rngBegun false (rngGet s c)).addr = (rngGet s c).addr := rfl
  rw [rngServe_served (by rw [hview]; rfl) (by rw [hview]; rfl) (by rw [rngServes_rngUpd, hserves]), hview, randBytes_rngUpd, hlen, haddr, rngWritten]

theorem rngGet_rngWritten (s : State) (hc : c ≠ .g) : rngGet (rngWritten s c) c = rngServed (rngBegun false (rngGet s c)) := by
  have hdrew : ∀ n, rngGet (drew (rngUpd s c (rngBegun false)) n) c = rngGet (rngUpd s c (rngBegun false)) c := fun _ => by cases c <;> rfl
  rw [rngWritten, rngGet_rngUpd _ _ hc, rngGet_congr (keeps_writeStr _ c _ _ .rng (by simp)), hdrew, rngGet_rngUpd _ _ hc]

theorem rngWritten_drawn (s : State) (c : CoreId) : (rngWritten s c).rng.drawn = s.rng.drawn + (rngGet s c).len.toNat := by
  have hdrew : ∀ (u : State) n, (drew u n).rng.drawn = u.rng.drawn + n := fun _ _ => rfl
  rw [rngWritten, rngUpd_drawn, keeps_writeStr _ c _ _ .rng (by simp), hdrew, rngUpd_drawn]

theorem rngWritten_core (s : State) (c : CoreId) :
    (rngWritten s c).core = (writeStr s c (rngGet s c).addr.toNat (randBytes s (rngGet s c).len.toNat)).core := by
  rw [rngWritten, keeps_rngUpd _ c _ .core (by simp)]
  exact writeStr_core_congr (s := s) (t := drew (rngUpd s c (rngBegun false)) _) rfl c _ _

theorem keeps_rngWritten (s : State) (c : CoreId) : Keeps [.rng, .core, .hq, .out] s (rngWritten s c) :=
  (((((keeps_rngUpd s c _).trans (keeps_drew _ _)).mono (by simp)).trans ((keeps_writeStr _ c _ _).mono (by simp)))).trans
    ((keeps_rngUpd _ c _).mono (by simp))

section
variable (hidle : (rngGet s c).busy = false) (hmin : 1 ≤ (rngGet s c).len.toNat) (hmax : (rngGet s c).len.toNat ≤ 4096)
include hidle hmin hmax

theorem rngCmd_generate : rngCmd s c 1 = rngStep (rngUpd s c (rngBegun false)) fun s => rngServe s c := by
  have hlen : ¬((rngGet s c).len.toNat < 1 ∨ (rngGet s c).len.toNat > 4096) := by omega
  unfold rngCmd
  simp only [hidle, hlen, Bool.false_eq_true, ↓reduceIte]
  rfl

theorem rngCmd_fresh : rngCmd s c 2 =
    rngStep ((rngUpd s c (rngBegun true)).onRng fun x => { x with full := false, entropy := [] }) fun s => rngServe s c := by
  have hlen : ¬((rngGet s c).len.toNat < 1 ∨ (rngGet s c).len.toNat > 4096) := by omega
  unfold rngCmd
  simp only [hidle, hlen, Bool.false_eq_true, ↓reduceIte]
  rfl

theorem completes_rngGenerate_served (hreach : Reaches s c 0x8800 false) (hserves : rngServes s = true) :
    Completes (.rngGenerate c) s [.rng, .core, .hq, .out] fun t =>
      (rngGet t c).busy = true ∧ (rngGet t c).waiting = false ∧ (rngGet t c).status = .done ∧ t.rng.drawn = s.rng.drawn + (rngGet s c).len.toNat ∧
      t.core = (writeStr s c (rngGet s c).addr.toNat (randBytes s (rngGet s c).len.toNat)).core := by
  have hc := ne_g_of_reaches hreach (by decide)
  have hexec : exec (.rngGenerate c) s = .next (rngStep (rngUpd s c (rngBegun false)) fun s => rngServe s c) := by
    show execRngGenerate c s = _
    rw [execRngGenerate, winCmd_of_reaches hreach, rngCmd_generate hidle hmin hmax, done]
  have hstep := keeps_rngStep (rngUpd s c (rngBegun false)) fun s => rngServe s c
  rw [rngServe_begun hc hserves] at hstep
  have hget := (rngGet_congr (hstep .rng (by simp)) c).trans (rngGet_rngWritten s hc)
  refine ⟨_, hexec, ⟨by rw [hget]; rfl, by rw [hget]; rfl, by rw [hget]; rfl, ?_, ?_⟩, (keeps_rngWritten s c).trans (hstep.mono (by simp))⟩
  · exact (congrArg RngSt.drawn (hstep .rng (by simp))).trans (rngWritten_drawn s c)
  · exact (hstep .core (by simp)).trans (rngWritten_core s c)

theorem completes_rngGenerate_waits (hreach : Reaches s c 0x8800 false) (hserves : rngServes s = false) :
    Completes (.rngGenerate c) s [.rng, .hq, .out] fun t => (rngGet t c).busy = true ∧ (rngGet t c).waiting = true ∧ t.rng.drawn = s.rng.drawn := by
  have hview := rngGet_rngUpd s (rngBegun false) (ne_g_of_reaches hreach (by decide))
  have hserve := rngServe_none (s := rngUpd s c (rngBegun false)) (c := c) (.inr (.inr (by rw [rngServes_rngUpd, hserves])))
  have hexec : exec (.rngGenerate c) s = .next (rngStep (rngUpd s c (rngBegun false)) fun s => rngServe s c) := by
    show execRngGenerate c s = _
    rw [execRngGenerate, winCmd_of_reaches hreach, rngCmd_generate hidle hmin hmax, done]
  have hstep := keeps_rngStep (rngUpd s c (rngBegun false)) fun s => rngServe s c
  rw [hserve] at hstep
  have hget := (rngGet_congr (hstep .rng (by simp)) c).trans hview
  refine ⟨_, hexec, ⟨by rw [hget]; rfl, by rw [hget]; rfl, ?_⟩, ((keeps_rngUpd s c _).mono (by simp)).trans (hstep.mono (by simp))⟩
  rw [hstep .rng (by simp), rngUpd_drawn]

theorem completes_rngGenerateFresh (hreach : Reaches s c 0x8800 false) :
    Completes (.rngGenerateFresh c) s [.rng, .hq, .out] fun t =>
      (rngGet t c).waiting = true ∧ (rngGet t c).fresh = true ∧ t.rng.full = false ∧ t.rng.drawn = s.rng.drawn := by
  have hview : rngGet ((rngUpd s c (rngBegun true)).onRng fun x => { x with full := false, entropy := [] }) c = rngBegun true (rngGet s c) :=
    rngGet_rngUpd s (rngBegun true) (ne_g_of_reaches hreach (by decide))
  have hserve := rngServe_none (s := (rngUpd s c (rngBegun true)).onRng fun x => { x with full := false, entropy := [] }) (c := c)
    (.inr (.inl (by rw [hview]; rfl)))
  have hexec : exec (.rngGenerateFresh c) s = .next (rngStep ((rngUpd s c (rngBegun true)).onRng fun x => { x with full := false, entropy := [] })
      fun s => rngServe s c) := by
    show execRngGenerateFresh c s = _
    rw [execRngGenerateFresh, winCmd_of_reaches hreach, rngCmd_fresh hidle hmin hmax, done]
  have hstep := keeps_rngStep ((rngUpd s c (rngBegun true)).onRng fun x => { x with full := false, entropy := [] }) fun s => rngServe s c
  rw [hserve] at hstep
  have hget := (rngGet_congr (hstep .rng (by simp)) c).trans hview
  refine ⟨_, hexec, ⟨by rw [hget]; rfl, by rw [hget]; rfl, ?_, ?_⟩, ?_⟩
  · rw [hstep .rng (by simp)]; rfl
  · rw [hstep .rng (by simp)]
    exact rngUpd_drawn s c _
  · exact (((keeps_rngUpd s c _).trans (keeps_onRng _ _)).mono (by simp)).trans (hstep.mono (by simp))

end

/-! ### The end of a command (11 R635, R642) -/

/-- A command that has ended. -/
def rngOver (r : RngCore) : RngCore := { r with busy := false, done := true, waiting := false, written := false, fresh := false }

theorem rngEnd_eq (s : State) (c : CoreId) : rngEnd s c = irqMain (rngUpd s c rngOver) 12 := rfl

theorem rngGet_rngEnd (s : State) (hc : c ≠ .g) : rngGet (rngEnd s c) c = rngOver (rngGet s c) := rngGet_rngUpd s rngOver hc

theorem keeps_rngEnd (s : State) (c : CoreId) : Keeps [.rng, .unit] s (rngEnd s c) :=
  ((keeps_rngUpd s c _).mono (by simp)).trans ((keeps_irqMain _ 12).mono (by simp))

theorem completes_rngCommandEnd (hc : c ≠ .g) (hbusy : (rngGet s c).busy = true) (hserved : (rngGet s c).waiting = false) :
    Completes (.rngCommandEnd c) s [.rng, .unit] fun t =>
      (rngGet t c).busy = false ∧ (rngGet t c).done = true ∧ (rngGet t c).status = (rngGet s c).status ∧ t.unit = (irqMain s 12).unit := by
  have hexec : exec (.rngCommandEnd c) s = .next (rngEnd s c) := by
    show execRngCommandEnd c s = _
    simp only [execRngCommandEnd, done, hbusy, hserved, Bool.not_false, Bool.and_self, State.when_true]
  have hget := rngGet_rngEnd s hc
  exact ⟨_, hexec, ⟨by rw [hget]; rfl, by rw [hget]; rfl, by rw [hget]; rfl, irqMain_unit_congr rfl 12⟩, keeps_rngEnd s c⟩

theorem completes_drbgRequestTimeout (hc : c ≠ .g) (hwaiting : (rngGet s c).waiting = true) :
    Completes (.drbgRequestTimeout c) s [.rng, .unit] fun t =>
      (rngGet t c).busy = false ∧ (rngGet t c).status = .randomNotReady ∧ t.rng.drawn = s.rng.drawn ∧ t.unit = (irqMain s 12).unit := by
  have hexec : exec (.drbgRequestTimeout c) s = .next (rngEnd (rngUpd s c fun r => { r with status := .randomNotReady }) c) := by
    show execDrbgRequestTimeout c s = _
    simp only [execDrbgRequestTimeout, done, hwaiting, ↓reduceIte]
  have hget := rngGet_rngEnd (rngUpd s c fun r => { r with status := .randomNotReady }) hc
  rw [rngGet_rngUpd s _ hc] at hget
  refine ⟨_, hexec, ⟨by rw [hget]; rfl, by rw [hget]; rfl, ?_, irqMain_unit_congr rfl 12⟩, ((keeps_rngUpd s c _).mono (by simp)).trans (keeps_rngEnd _ c)⟩
  rw [rngEnd_eq, keeps_irqMain _ 12 .rng (by simp), rngUpd_drawn, rngUpd_drawn]

end Sys2Proof.Machine
end

section
/-! SUPPORT. What changes the noise bank: another source, failures, tests (11 R618-R628). -/

namespace Sys2Proof.Machine

set_option Elab.async false

variable {s t : State} {c : CoreId}

/-! ### Another source (11 R624, R626, R628) -/

/-- The bank with its buffer and the state of its tests emptied. -/
def bankEmptied (r : RngSt) : RngSt := { r with full := false, entropy := [], nonce := [], raw := [], health := {} }

/-- The bank is emptied, and its change is reported to the host and the cores. -/
def bankLeft (s : State) : State := irqMain (cause (s.onRng bankEmptied) 10) 12

theorem keeps_bankLeft (s : State) : Keeps [.rng, .unit, .hq, .out] s (bankLeft s) :=
  (((keeps_onRng s _).mono (by simp)).trans ((keeps_cause _ 10).mono (by simp))).trans ((keeps_irqMain _ 12).mono (by simp))

theorem bankLeft_rng (s : State) : (bankLeft s).rng = bankEmptied s.rng := by
  rw [bankLeft, keeps_irqMain _ 12 .rng (by simp), keeps_cause _ 10 .rng (by simp)]
  rfl

theorem keeps_bankTo (s : State) (next : Option Nat) : Keeps [.rng, .unit, .hq, .out] s (bankTo s next) := by
  refine (keeps_bankLeft s).trans ?_
  cases next with
  | some m => exact (keeps_onRng (bankLeft s) _).mono (by simp)
  | none => exact ((keeps_onRng (bankLeft s) _).mono (by simp)).trans ((keeps_observe _ _ _ _ _).mono (by simp))

theorem bankTo_some (s : State) (m : Nat) : (bankTo s (some m)).rng = { bankEmptied s.rng with bank := .switching, source := m } := by
  have h : (bankTo s (some m)).rng = { (bankLeft s).rng with bank := .switching, source := m } := rfl
  rw [h, bankLeft_rng]

theorem bankTo_none (s : State) : (bankTo s none).rng = { bankEmptied s.rng with bank := .failed } := by
  have h : (bankTo s none).rng = { (bankLeft s).rng with bank := .failed } :=
    keeps_observe ((bankLeft s).onRng fun r => { r with bank := .failed }) _ _ _ _ .rng (by simp)
  rw [h, bankLeft_rng]

/-- The bank leaves its source after what `u` is of `s`. -/
theorem keeps_bankStep {u : State} (hu : Keeps [.rng, .unit, .hq, .out] s u) (next : Option Nat) :
    Keeps [.rng, .unit, .hq, .out] s (rngStep u fun s => bankTo s next) :=
  (hu.trans (keeps_bankTo u next)).trans ((keeps_rngStep u _).mono (by simp))

theorem completes_rngSelect {v : BitVec 32} (hreach : Reaches s c 0x8804 true) (hother : (v.extractLsb' 0 2).toNat ≠ s.rng.source)
    (hactive : unitActive s (0x40 + (v.extractLsb' 0 2).toNat) = true) (hready : s.rng.bank = .ready) :
    Completes (.rngSelect c v) s [.rng, .unit, .hq, .out] fun t =>
      t.rng.bank = .switching ∧ t.rng.source = (v.extractLsb' 0 2).toNat ∧ t.rng.full = false := by
  have hexec : exec (.rngSelect c v) s = .next (rngStep s fun s => bankTo s (some (v.extractLsb' 0 2).toNat)) := by
    show execRngSelect c v s = _
    have hrunning : (s.rng.bank != .stopped) = true := by rw [hready]; rfl
    rw [execRngSelect, winCmd_of_reaches hreach, rngSelect]
    simp only [hother, sourceUnit, hactive, hrunning, ne_eq, not_false_eq_true, decide_true, Bool.true_or, Bool.and_self, State.when_true, done]
  have hrng := (rngStep_rng s fun s => bankTo s (some (v.extractLsb' 0 2).toNat)).trans (bankTo_some s _)
  exact ⟨_, hexec, ⟨by rw [hrng], by rw [hrng], by rw [hrng]; rfl⟩, keeps_bankStep (.refl _ s) _⟩

/-! ### Failures of the source in use (11 R618-R624) -/

theorem keeps_sourceFailed (s : State) (n : Nat) (f : Bool × Bool) : Keeps [.rng, .unit] s (sourceFailed s n f) :=
  ((keeps_onRng s _).mono (by simp)).trans ((keeps_observe _ _ _ _ _).mono (by simp))

/-- A health failure stops no unit, so that the sources that are ACTIVE stay so (09 R500). -/
theorem nextSource_sourceFailed (s : State) (n : Nat) (f : Bool × Bool) (m : Nat) : nextSource (sourceFailed s n f) m = nextSource s m := by
  have htbl : (sourceFailed s n f).unit.tbl = s.unit.tbl := (UnitsStand.observe (.onRng (.refl s))).tbl
  have hactive : unitActive (sourceFailed s n f) = unitActive s := funext fun u => by rw [unitActive, unitSt_congr htbl, unitActive]
  rw [nextSource, nextSource, hactive]

section
variable {raw : List Bool} (hready : s.rng.bank = .ready) (hup : s.pow.mainUp = true)
include hready hup

theorem exec_noiseHealthFail_passes (hpass : (healthRun s.rng.mode s.rng.health (conditioned s.rng.mode (s.rng.raw ++ raw)).1).2 = none) :
    exec (.noiseHealthFail raw) s = .next (s.onRng fun r => { r with
      health := (healthRun s.rng.mode s.rng.health (conditioned s.rng.mode (s.rng.raw ++ raw)).1).1
      raw := (conditioned s.rng.mode (s.rng.raw ++ raw)).2 }) := by
  show execNoiseHealthFail raw s = _
  simp only [execNoiseHealthFail, done, hready, hup, beq_self_eq_true, Bool.and_self, State.when_true]
  generalize healthRun s.rng.mode s.rng.health (conditioned s.rng.mode (s.rng.raw ++ raw)).1 = run at hpass ⊢
  obtain ⟨h, f⟩ := run
  cases hpass
  rfl

theorem exec_noiseHealthFail_fails (hfail : (healthRun s.rng.mode s.rng.health (conditioned s.rng.mode (s.rng.raw ++ raw)).1).2.isSome = true) :
    ∃ f, exec (.noiseHealthFail raw) s = .next (rngStep (sourceFailed s s.rng.source f) fun u => bankTo u (nextSource s s.rng.source)) := by
  obtain ⟨f, hf⟩ := Option.isSome_iff_exists.mp hfail
  refine ⟨f, ?_⟩
  show execNoiseHealthFail raw s = _
  simp only [execNoiseHealthFail, done, hready, hup, beq_self_eq_true, Bool.and_self, State.when_true]
  generalize healthRun s.rng.mode s.rng.health (conditioned s.rng.mode (s.rng.raw ++ raw)).1 = run at hf ⊢
  obtain ⟨h, f'⟩ := run
  cases hf
  show Host.Outcome.next (rngStep (sourceFailed s s.rng.source f) fun u => bankTo u (nextSource u s.rng.source)) = _
  rw [rngStep, nextSource_sourceFailed, rngStep]

/-- The end of a source in use: its bank goes on with the next one, or is FAILED. -/
theorem completes_noiseHealthFail (hfail : (healthRun s.rng.mode s.rng.health (conditioned s.rng.mode (s.rng.raw ++ raw)).1).2.isSome = true) :
    Completes (.noiseHealthFail raw) s [.rng, .unit, .hq, .out] fun t => t.rng.full = false ∧
      (∀ m, nextSource s s.rng.source = some m → t.rng.bank = .switching ∧ t.rng.source = m) ∧
      (nextSource s s.rng.source = none → t.rng.bank = .failed) := by
  obtain ⟨f, hexec⟩ := exec_noiseHealthFail_fails hready hup hfail
  have hrng := rngStep_rng (sourceFailed s s.rng.source f) fun u => bankTo u (nextSource s s.rng.source)
  refine ⟨_, hexec, ⟨?_, fun m hnext => ?_, fun hnext => ?_⟩, keeps_bankStep ((keeps_sourceFailed s _ f).mono (by simp)) _⟩
  · rw [hrng]
    cases nextSource s s.rng.source with
    | some m => rw [bankTo_some]; rfl
    | none => rw [bankTo_none]; rfl
  · rw [hrng, hnext, bankTo_some]
    exact ⟨rfl, rfl⟩
  · rw [hrng, hnext, bankTo_none]

end

/-! ### Conditioning (11 R618) -/

/-- XOR of 2 takes the raw bits by pairs. -/
theorem conditioned_xor2 (a b : Bool) : ∀ t : List Bool, (conditioned 0 (a :: b :: t)).1 = (a ^^ b) :: (conditioned 0 t).1
  | [] => rfl
  | [_] => rfl
  | c :: d :: t => by
    have hfour : (conditioned 0 (a :: b :: c :: d :: t)).1 = (a ^^ b) :: (c ^^ d) :: (conditioned 0 t).1 := rfl
    rw [hfour, conditioned_xor2 c d t]

/-- XOR of 4 takes them by fours. -/
theorem conditioned_xor4 (a b c d : Bool) (t : List Bool) : (conditioned 1 (a :: b :: c :: d :: t)).1 = (a ^^ b ^^ c ^^ d) :: (conditioned 1 t).1 := rfl

/-! ### The repetition-count test (11 R619, R620) -/

/-- The tests after `k` identical bits, within the first window. -/
def sameBits (b : Bool) (k : Nat) : Health := { last := some b, run := k, first := b, pos := k, same := k }

theorem healthBit_first (b : Bool) : healthBit {} b = sameBits b 1 := rfl

theorem healthBit_sameBits (b : Bool) {k : Nat} (hpos : 0 < k) (hwindow : k < 1024) : healthBit (sameBits b k) b = sameBits b (k + 1) := by
  have hnew : ¬(k = 0 ∨ k ≥ 1024) := by omega
  simp only [healthBit, sameBits, hnew, ↓reduceIte]

/-- The repetition cutoff lies above 1 and below the proportion cutoff, which a window can reach. -/
theorem cutoffs_lt (mode : BitVec 2) : 1 < repCutoff mode ∧ repCutoff mode < propCutoff mode ∧ propCutoff mode < 1024 := by revert mode; decide

theorem healthFails_below {mode : BitVec 2} (b : Bool) {k : Nat} (h : k < repCutoff mode) : healthFails mode (sameBits b k) = (false, false) := by
  obtain ⟨-, hprop, -⟩ := cutoffs_lt mode
  simp only [healthFails, sameBits, ge_iff_le, Nat.not_le.mpr h, Nat.not_le.mpr (h.trans hprop), decide_false]

theorem healthFails_at (mode : BitVec 2) (b : Bool) : healthFails mode (sameBits b (repCutoff mode)) = (true, false) := by
  obtain ⟨-, hprop, -⟩ := cutoffs_lt mode
  simp only [healthFails, sameBits, ge_iff_le, Nat.le_refl, Nat.not_le.mpr hprop, decide_true, decide_false]

/-- One more identical bit below the cutoff passes. -/
theorem healthRun_pass {mode : BitVec 2} {h : Health} {b : Bool} {k : Nat} (hbit : healthBit h b = sameBits b k) (hk : k < repCutoff mode) (bs : List Bool) :
    healthRun mode h (b :: bs) = healthRun mode (sameBits b k) bs := by
  simp only [healthRun, hbit, healthFails_below b hk, Bool.or_self, Bool.false_eq_true, ↓reduceIte]

/-- A run that stays below the cutoff passes, and its next bits go on from there. -/
theorem healthRun_replicate {mode : BitVec 2} (b : Bool) (bs : List Bool) : ∀ (n k : Nat), 0 < k → k + n < repCutoff mode →
    healthRun mode (sameBits b k) (List.replicate n b ++ bs) = healthRun mode (sameBits b (k + n)) bs
  | 0, _, _, _ => rfl
  | n + 1, k, hpos, hk => by
    obtain ⟨-, hprop, hwindow⟩ := cutoffs_lt mode
    rw [List.replicate_succ, List.cons_append, healthRun_pass (healthBit_sameBits b hpos (by omega)) (by omega),
      healthRun_replicate b bs n (k + 1) (by omega) (by omega), Nat.add_assoc, Nat.add_comm 1 n]

/-- From new, bits that follow a run one short of the cutoff find the tests with that run. -/
theorem healthRun_new (mode : BitVec 2) (b : Bool) (bs : List Bool) :
    healthRun mode {} (List.replicate (repCutoff mode - 1) b ++ bs) = healthRun mode (sameBits b (repCutoff mode - 1)) bs := by
  obtain ⟨hone, -, -⟩ := cutoffs_lt mode
  obtain ⟨n, hn⟩ : ∃ n, repCutoff mode = n + 2 := ⟨repCutoff mode - 2, by omega⟩
  rw [hn, show n + 2 - 1 = n + 1 from rfl, List.replicate_succ, List.cons_append, healthRun_pass (healthBit_first b) hone,
    healthRun_replicate b bs n 1 Nat.one_pos (by omega), Nat.add_comm 1 n]

theorem healthRun_one_short (mode : BitVec 2) (b : Bool) : (healthRun mode {} (List.replicate (repCutoff mode - 1) b)).2 = none := by
  have h := healthRun_new mode b []
  rw [List.append_nil] at h
  rw [h, healthRun]

theorem healthRun_cutoff (mode : BitVec 2) (b : Bool) : (healthRun mode {} (List.replicate (repCutoff mode) b)).2 = some (true, false) := by
  obtain ⟨hone, hprop, hwindow⟩ := cutoffs_lt mode
  have hrun : List.replicate (repCutoff mode) b = List.replicate (repCutoff mode - 1) b ++ [b] := by
    rw [← List.replicate_succ', Nat.sub_add_cancel hone.le]
  have hbit : healthBit (sameBits b (repCutoff mode - 1)) b = sameBits b (repCutoff mode) := by
    rw [healthBit_sameBits b (by omega) (by omega), Nat.sub_add_cancel hone.le]
  rw [hrun, healthRun_new]
  simp only [healthRun, hbit, healthFails_at, Bool.true_or, ↓reduceIte]

/-! ### Start-up tests (11 R621, R625, R627) -/

theorem completes_noiseStartupTestDone_tested {n : Nat} {bits : List Bool} (htesting : s.rng.testing = some n)
    (hpass : startupTest s.rng.mode bits = some none) :
    Completes (.noiseStartupTestDone n bits) s [.rng, .unit] fun t => t.rng.testing = none ∧ t.rng.testResult = 1 ∧ t.rng.bank = s.rng.bank := by
  have hexec : exec (.noiseStartupTestDone n bits) s = .next (observe ((irqMain (s.onRng fun r => { r with testing := none, testResult := 1 }) 12).onRng
      fun r => { r with returned := tput none r.returned n (some s.time.clk), blocked := tput false r.blocked n false }) (sourceUnit n) .active 2 0x11) := by
    show execNoiseStartupTestDone n bits s = _
    simp only [execNoiseStartupTestDone, done, hpass, htesting, Option.isNone_none, ↓reduceIte]
    rfl
  have hposted := keeps_observe ((irqMain (s.onRng fun r => { r with testing := none, testResult := 1 }) 12).onRng
    fun r => { r with returned := tput none r.returned n (some s.time.clk), blocked := tput false r.blocked n false }) (sourceUnit n) .active 2 0x11
  have hrng := hposted .rng (by simp)
  refine ⟨_, hexec, ⟨by rw [hrng]; rfl, by rw [hrng]; rfl, by rw [hrng]; rfl⟩, ?_⟩
  exact ((((keeps_onRng s _).mono (by simp)).trans ((keeps_irqMain _ 12).mono (by simp))).trans ((keeps_onRng _ _).mono (by simp))).trans
    (hposted.mono (by simp))

theorem completes_noiseStartupTestDone_tried {n : Nat} {bits : List Bool} (htesting : s.rng.testing ≠ some n)
    (hbank : s.rng.bank = .starting ∨ s.rng.bank = .switching) (hsource : s.rng.source = n) (hup : s.pow.mainUp = true)
    (hpass : startupTest s.rng.mode bits = some none) :
    Completes (.noiseStartupTestDone n bits) s [.rng, .unit] fun t => t.rng = { s.rng with bank := .ready, raw := [], health := {} } := by
  have htried : (s.rng.bank == .starting || s.rng.bank == .switching) = true := by
    rcases hbank with h | h <;> rw [h] <;> rfl
  have hexec : exec (.noiseStartupTestDone n bits) s = .next (irqMain (s.onRng fun r => { r with bank := .ready, raw := [], health := {} }) 12) := by
    show execNoiseStartupTestDone n bits s = _
    simp only [execNoiseStartupTestDone, done, hpass, htesting, htried, hsource, hup, beq_self_eq_true, Bool.and_self, State.when_true, ↓reduceIte]
  exact ⟨_, hexec, rfl, ((keeps_onRng s _).mono (by simp)).trans ((keeps_irqMain _ 12).mono (by simp))⟩

end Sys2Proof.Machine
end

section
/-! SUPPORT. The buffer of the noise bank, the DRBG's reseeds (11 R630-R634), and the retest of a source (11 R627). -/

namespace Sys2Proof.Machine

set_option Elab.async false

variable {s t : State} {c : CoreId}

/-! ### With nothing waiting (11 R633) -/

/-- No request waits for random bytes: no mint, no command of core A or B, no CONTROL request. -/
def NothingWaits (s : State) : Prop :=
  s.lane.drawWait = [] ∧ s.rng.a.waiting = false ∧ s.rng.b.waiting = false ∧ s.hq.ctlHeld = false

theorem ctlResume_free (h : s.hq.ctlHeld = false) : ctlResume s = s := by
  have hready : ctlReady s = false := by rw [ctlReady, h, Bool.false_and]
  unfold ctlResume
  split
  · split
    · rw [hready]; rfl
    · rfl
  · rfl

theorem serveDraws_none (h : s.lane.drawWait = []) : serveDraws s = s := by
  have hsame : s.onLane (fun b => { b with drawWait := [] }) = s := by rw [State.onLane, ← h]
  unfold serveDraws
  split
  · rfl
  · simp only [h, List.foldl_nil, hsame]

theorem rngServeAll_none (h : NothingWaits s) : rngServeAll s = s := by
  obtain ⟨hdraws, ha, hb, hctl⟩ := h
  have hresume : s.when (s.hq.ctlFor == .random) ctlResume = s := by
    unfold State.when
    split
    · exact ctlResume_free hctl
    · rfl
  rw [rngServeAll, hresume, serveDraws_none hdraws, rngServe_none (c := .a) (.inl ha), rngServe_none (c := .b) (.inl hb)]

/-! ### A full buffer (11 R632, R634) -/

/-- The DRBG instantiated from the buffer, with unit number and time. -/
def instantiated (s : State) : State := s.onRng fun r => { r with
  inst := true, full := false, limit := false, requests := 0
  seed := bvBytes (Config.drbgSeed r.entropy r.nonce (persString s)), entropy := [], nonce := [] }

section
variable (hfull : s.rng.full = true) (hready : s.rng.bank = .ready)
include hfull hready

theorem rngFeed_instantiates (hinst : s.rng.inst = false) (hsafe : s.tmp.inForce = false) (hnone : NothingWaits s) : rngFeed s = instantiated s := by
  have hserved : rngServeAll (instantiated s) = instantiated s := rngServeAll_none hnone
  simp only [rngFeed, hfull, hready, hinst, hsafe, bne_self_eq_false, Bool.not_true, Bool.not_false, Bool.or_self, Bool.false_and, Bool.false_eq_true,
    ↓reduceIte]
  exact hserved

theorem rngFeed_reseeds (hinst : s.rng.inst = true) (hlimit : s.rng.limit = true) (hnone : NothingWaits s) : rngFeed s = reseed s := by
  have hserved : rngServeAll (reseed s) = reseed s := rngServeAll_none hnone
  simp only [rngFeed, hfull, hready, hinst, hlimit, bne_self_eq_false, Bool.not_true, Bool.or_self, Bool.true_or, Bool.false_eq_true, ↓reduceIte]
  exact hserved

end

/-! ### RESEED_BUFFER_FULL (11 R630, R632, R634) -/

theorem keeps_tryOpen (s : State) : Keeps [.fab, .pow] s (tryOpen s) := by
  refine .when _ (fun s => _) (.trans ?_ ((keeps_onPow _ _).mono (by simp)))
  split
  · exact .refl _ s
  · exact (keeps_onFab s _).mono (by simp)

/-- The entropy that fills the buffer, and the nonce besides it before the DRBG is instantiated. -/
def bufferFilled (e : Bytes) (r : RngSt) : RngSt :=
  { r with full := true, entropy := fit (entropyBytes r.mode) e, nonce := if r.inst then [] else fit 16 (e.drop (entropyBytes r.mode)) }

section
variable (e : Bytes) (hready : s.rng.bank = .ready) (hempty : s.rng.full = false) (hup : s.pow.mainUp = true)
include hready hempty hup

theorem exec_reseedBufferFull : exec (.reseedBufferFull e) s = .next (tryOpen (rngStep s fun s => rngFeed (s.onRng (bufferFilled e)))) := by
  show execReseedBufferFull e s = _
  simp only [execReseedBufferFull, done, hready, hempty, hup, beq_self_eq_true, Bool.not_false, Bool.and_self, State.when_true]
  rfl

theorem completes_reseedBufferFull_kept (hinst : s.rng.inst = true) (hlimit : s.rng.limit = false) (ha : s.rng.a.fresh = false)
    (hb : s.rng.b.fresh = false) : Completes (.reseedBufferFull e) s [.rng, .hq, .out, .pow, .fab] fun t =>
      t.rng = { s.rng with full := true, entropy := fit (entropyBytes s.rng.mode) e, nonce := [] } := by
  have hfeed : rngFeed (s.onRng (bufferFilled e)) = s.onRng (bufferFilled e) := by
    simp only [rngFeed, State.onRng_rng, bufferFilled, hready, hinst, hlimit, ha, hb, bne_self_eq_false, Bool.not_true, Bool.or_self, Bool.false_eq_true,
      ↓reduceIte]
  have hrng : (s.onRng (bufferFilled e)).rng = { s.rng with full := true, entropy := fit (entropyBytes s.rng.mode) e, nonce := [] } := by
    simp only [State.onRng_rng, bufferFilled, hinst, ↓reduceIte]
  have hstep := keeps_rngStep s fun s => rngFeed (s.onRng (bufferFilled e))
  rw [hfeed] at hstep
  have hopen := keeps_tryOpen (rngStep s fun s => rngFeed (s.onRng (bufferFilled e)))
  exact ⟨_, exec_reseedBufferFull e hready hempty hup, (hopen .rng (by simp)).trans ((hstep .rng (by simp)).trans hrng),
    (((keeps_onRng s _).mono (by simp)).trans (hstep.mono (by simp))).trans (hopen.mono (by simp))⟩

theorem exec_reseedBufferFull_instantiates (hinst : s.rng.inst = false) (hsafe : s.tmp.inForce = false) (hnone : NothingWaits s) :
    ∃ t, exec (.reseedBufferFull e) s = .next t ∧ t.rng.inst = true ∧ t.rng.full = false ∧ t.rng.requests = 0 ∧
      t.rng.seed = bvBytes (Config.drbgSeed (fit (entropyBytes s.rng.mode) e) (fit 16 (e.drop (entropyBytes s.rng.mode))) (persString s)) := by
  have hfeed := rngFeed_instantiates (s := s.onRng (bufferFilled e)) rfl hready hinst hsafe hnone
  have hstep := rngStep_rng s fun s => rngFeed (s.onRng (bufferFilled e))
  have hnonce : (bufferFilled e s.rng).nonce = fit 16 (e.drop (entropyBytes s.rng.mode)) := by
    rw [bufferFilled, hinst]
    rfl
  refine ⟨_, exec_reseedBufferFull e hready hempty hup, ?_⟩
  rw [keeps_tryOpen _ .rng (by simp), hstep, hfeed, ← hnonce]
  exact ⟨rfl, rfl, rfl, rfl⟩

end

/-! ### DRBG_RESEED_LIMIT (11 R631, R632) -/

theorem exec_drbgReseedLimit (hinst : s.rng.inst = true) (hbank : s.rng.bank ≠ .failed) :
    exec .drbgReseedLimit s = .next (rngStep s fun s => rngFeed (s.onRng fun r => { r with limit := true })) := by
  show execDrbgReseedLimit s = _
  simp only [execDrbgReseedLimit, done, hinst, State.when_true, beq_false_of_ne hbank, Bool.false_eq_true, ↓reduceIte]

theorem completes_drbgReseedLimit_stops (hinst : s.rng.inst = true) (hbank : s.rng.bank ≠ .failed) (hempty : s.rng.full = false) :
    Completes .drbgReseedLimit s [.rng, .hq, .out] fun t => t.rng = { s.rng with limit := true } := by
  have hfeed : rngFeed (s.onRng fun r => { r with limit := true }) = s.onRng fun r => { r with limit := true } := by
    simp only [rngFeed, State.onRng_rng, hempty, Bool.not_false, Bool.true_or, ↓reduceIte]
  have hstep := keeps_rngStep s fun s => rngFeed (s.onRng fun r => { r with limit := true })
  rw [hfeed] at hstep
  exact ⟨_, exec_drbgReseedLimit hinst hbank, hstep .rng (by simp), ((keeps_onRng s _).mono (by simp)).trans (hstep.mono (by simp))⟩

theorem exec_drbgReseedLimit_reseeds (hinst : s.rng.inst = true) (hready : s.rng.bank = .ready) (hfull : s.rng.full = true) (hnone : NothingWaits s) :
    ∃ t, exec .drbgReseedLimit s = .next t ∧ t.rng.limit = false ∧ t.rng.full = false ∧ t.rng.reseeds = s.rng.reseeds + 1 ∧
      t.rng.seed = bvBytes (Config.drbgReseed s.rng.seed s.rng.entropy) := by
  have hfeed := rngFeed_reseeds (s := s.onRng fun r => { r with limit := true }) hfull hready hinst rfl hnone
  have hstep := rngStep_rng s fun s => rngFeed (s.onRng fun r => { r with limit := true })
  refine ⟨_, exec_drbgReseedLimit hinst (by rw [hready]; decide), ?_⟩
  rw [hstep, hfeed]
  exact ⟨rfl, rfl, rfl, rfl⟩

/-! ### RNG_TEST (11 R627, R640) -/

theorem rngTest_testing {v : BitVec 32} (hunit : unitSt s (0x40 + (v.extractLsb' 0 2).toNat) = .testing) (hnone : s.rng.testing = none) :
    rngTest s v = s.onRng fun r => { r with testing := some (v.extractLsb' 0 2).toNat, testResult := 0, early := false } := by
  simp only [rngTest, sourceUnit, hunit, hnone, beq_self_eq_true, Option.isNone_none, Bool.and_self, State.when_true]

theorem exec_rngTest {v : BitVec 32} (hreach : Reaches s c 0x8805 true) (hunit : unitSt s (0x40 + (v.extractLsb' 0 2).toNat) = .testing)
    (hnone : s.rng.testing = none) :
    exec (.rngTest c v) s = .next (s.onRng fun r => { r with testing := some (v.extractLsb' 0 2).toNat, testResult := 0, early := false }) := by
  show execRngTest c v s = _
  rw [execRngTest, winCmd_of_reaches hreach, rngTest_testing hunit hnone, done]

/-! ### Room for a record depends on the record store alone (12 R661) -/

theorem progPage_store_congr (h : t.store = s.store) (n : Nat) (b : Bytes) : (progPage t n b).store = (progPage s n b).store := by
  have hpage : norPage t n = norPage s n := by rw [norPage, h, norPage]
  unfold progPage
  rw [h]
  split
  · exact h
  · simp only [State.onStore_store, h, hpage]

theorem sectorOf_congr (h : t.store = s.store) : sectorOf t = sectorOf s := funext fun n => by rw [sectorOf, h, sectorOf]

theorem useSector_store_congr (h : t.store = s.store) (part : BitVec 2) (n : Nat) : (useSector t part n).store = (useSector s part n).store := by
  simp only [useSector, State.onStore_store, sectorOf_congr h, progPage_store_congr h]

theorem openSector_store_congr (h : t.store = s.store) (part : BitVec 2) : (openSector t part).map State.store = (openSector s part).map State.store := by
  have hfresh : freshSector t part = freshSector s part := by simp only [freshSector, erasedSectors, sectorOf_congr h]
  rw [openSector, openSector, hfresh, Option.map_map, Option.map_map]
  refine Option.map_congr fun n _ => ?_
  simp only [Function.comp_apply, State.onStore_store, useSector_store_congr h]

theorem placeIn_isSome_congr (h : t.store = s.store) (part : BitVec 2) (pages : Nat) : (placeIn t part pages).isSome = (placeIn s part pages).isSome := by
  have hopen := openSector_store_congr h part
  unfold placeIn
  rw [h]
  extract_lets here
  cases here with
  | some x => rfl
  | none =>
    cases ht : openSector t part with
    | none =>
      have hs : openSector s part = none := by rwa [ht, Option.map_none, eq_comm, Option.map_eq_none_iff] at hopen
      rw [hs]
    | some u =>
      rw [ht, Option.map_some, eq_comm, Option.map_eq_some_iff] at hopen
      obtain ⟨v, hs, hstore⟩ := hopen
      rw [hs]
      simp only [hstore]
      split <;> rfl

theorem appendsNow_congr (h : t.store = s.store) (hpow : t.pow = s.pow) (htbl : t.unit.tbl = s.unit.tbl) : appendsNow t = appendsNow s := by
  have htakes : unitTakes t 0x50 = unitTakes s 0x50 := by simp only [unitTakes, unitActive, unitSt, unitEnt, htbl]
  rw [appendsNow, appendsNow, appendsTo, appendsTo, placeIn_isSome_congr h, appendOk, appendOk, htakes, h, hpow]

/-! ### The change of a source's unit leaves the test and the table's version (09 R505, 11 R624) -/

/-- The same source is under test, the table's version stands, and every unit that is not ABSENT is in the state it was in. -/
structure TestStands (s t : State) : Prop where
  testing : t.rng.testing = s.rng.testing
  version : t.unit.version = s.unit.version
  states : ∀ u, unitSt s u ≠ .absent → unitSt t u = unitSt s u

theorem TestStands.refl (s : State) : TestStands s s := ⟨rfl, rfl, fun _ _ => rfl⟩

theorem TestStands.trans {u : State} (h : TestStands s t) (k : TestStands t u) : TestStands s u :=
  ⟨k.testing.trans h.testing, k.version.trans h.version, fun v hv => (k.states v (by rw [h.states v hv]; exact hv)).trans (h.states v hv)⟩

/-- A change of other parts. -/
theorem TestStands.of_keeps {l : List Part} (hk : Keeps l s t) (hl : ∀ p ∈ [Part.rng, .unit], p ∉ l := by decide) : TestStands s t := by
  have hrng : t.rng = s.rng := hk .rng (hl _ (by decide))
  have hunit : t.unit = s.unit := hk .unit (hl _ (by decide))
  exact ⟨by rw [hrng], by rw [hunit], fun u _ => unitSt_congr (by rw [hunit]) u⟩

theorem TestStands.of_units (htesting : t.rng.testing = s.rng.testing) (hversion : t.unit.version = s.unit.version) (htbl : t.unit.tbl = s.unit.tbl) :
    TestStands s t := ⟨htesting, hversion, fun u _ => unitSt_congr htbl u⟩

theorem version_post (s : State) (p : Post) : (post s p).unit.version = s.unit.version := by
  unfold post
  extract_lets p' s'
  have hs' : s'.unit.version = s.unit.version := by
    show (s.when _ _).unit.version = _
    unfold State.when
    split <;> rfl
  clear_value s'
  rw [← hs']
  split
  · rfl
  · split <;> rfl

theorem testStands_observe (s : State) (u : Nat) (st : UState) (q : BitVec 2) (r : Byte) : TestStands s (observe s u st q r) :=
  ⟨congrArg RngSt.testing (keeps_observe s u st q r .rng (by simp)), version_post s _, fun _ hv => unitSt_post _ hv⟩

theorem testStands_append (s : State) (src : AppendSrc) (part : BitVec 2) (typ : BitVec 16) (id : Nat) (payload : Bytes) :
    TestStands s (append s src part typ id payload) := by
  rcases append_cases s src part typ id payload with h | h
  · exact .of_keeps h
  · rw [h]
    exact testStands_observe s _ _ _ _

theorem testStands_irqMain (s : State) (n : Nat) : TestStands s (irqMain s n) := .of_units rfl rfl rfl

theorem testStands_bankTo (s : State) (next : Option Nat) : TestStands s (bankTo s next) := by
  have hleft : TestStands s (bankLeft s) :=
    .trans (.trans (.of_units (t := s.onRng bankEmptied) rfl rfl rfl) (.of_keeps (keeps_cause _ 10))) (testStands_irqMain _ 12)
  refine hleft.trans ?_
  cases next with
  | some m => exact .of_units rfl rfl rfl
  | none => exact .trans (.of_units (t := (bankLeft s).onRng fun r => { r with bank := .failed }) rfl rfl rfl) (testStands_observe _ _ _ _ _)

theorem testStands_sourceLeft (s : State) (n : Nat) : TestStands s (sourceLeft s n) := by
  unfold sourceLeft State.when
  split
  · exact .trans (testStands_bankTo s (nextSource s n)) (.of_keeps (keeps_rngStep s fun s => bankTo s (nextSource s n)))
  · exact .refl s

theorem testStands_publishEntry (s : State) (u : Nat) (e : UnitEnt) (version : Nat) : TestStands s (publishEntry s u e version) :=
  .trans (.of_units (t := ring (s.onUnit fun m => { m with gate := tput {} m.gate u e, gateVersion := version }) .table) rfl rfl rfl)
    (.of_keeps (keeps_cause _ 1))

theorem testStands_outcomeAt (s : State) (u how version : Nat) : TestStands s (outcomeAt s u how version) :=
  .trans (testStands_append s _ _ _ _ _) (.of_keeps (keeps_mgtAlert _ 5))

/-- The entry of a unit takes its lanes, and the registers of MBX_APPLY tell of it (09 R503). -/
def entryApplied (s : State) (u : Nat) (lanes : BitVec 2) : State :=
  s.onUnit fun m => { m with
    tbl := tupd {} m.tbl u fun e => if e.st = .absent then e else { e with lanes := lanes }
    applyUnit := u, applyRefused := false, applyDrained := false }

theorem testStands_entryApplied (s : State) (u : Nat) (lanes : BitVec 2) : TestStands s (entryApplied s u lanes) :=
  ⟨rfl, rfl, fun _ hv => tget_tupd_st (f := fun e : UnitEnt => if e.st = .absent then e else { e with lanes := lanes }) (fun e => by split <;> rfl) hv⟩

section
variable {n : Nat} (hn : n < 4)
include hn

theorem unitEffects_source : unitEffects s (0x40 + n) .testing = sourceLeft s n := by
  have hkind : ¬0x40 + n < 16 ∧ ¬0x40 + n < 32 ∧ ¬(0x20 ≤ 0x40 + n ∧ 0x40 + n < 0x26) ∧ ¬(0x40 + n = 0x28 ∨ 0x40 + n = 0x29) ∧
      ¬(0x40 + n = 0x30 ∨ 0x40 + n = 0x31) ∧ ¬0x40 + n = 0x39 ∧ ¬0x40 + n = 0x3A ∧ (0x40 ≤ 0x40 + n ∧ 0x40 + n < 0x44) := by omega
  obtain ⟨hlane, hchannel, hport, hdrive, hcore, hdigest, hpq, hsource⟩ := hkind
  simp only [unitEffects, hlane, hchannel, hport, hdrive, hcore, hdigest, hpq, hsource, reduceCtorEq, and_self, ↓reduceIte, Nat.add_sub_cancel_left]

/-- A source that goes into TESTING from a state other than DISPUTED: its entry changes, and the bank goes on without it. -/
theorem finishChange_source (hdisputed : unitSt s (0x40 + n) ≠ .disputed) (lanes : BitVec 2) (reason : Byte) (version : Nat) :
    ∃ e, let u := sourceLeft (publishEntry (entryApplied (setUnit s (0x40 + n) .testing reason) (0x40 + n) lanes) (0x40 + n) e version) n
      finishChange s (0x40 + n) .testing lanes reason version = if reason = 0x10 then outcomeAt u (0x40 + n) 0 version else u := by
  have hold : ¬((unitEnt s (0x40 + n)).st = .disputed ∧ UState.testing ≠ .disputed) := fun q => hdisputed q.1
  have hport : (decide (0x20 ≤ 0x40 + n ∧ 0x40 + n < 0x26)) = false := decide_eq_false (by omega)
  have hnews : (UState.testing == .disputed || UState.testing == .failed) = false := rfl
  refine ⟨unitEnt (entryApplied (setUnit s (0x40 + n) .testing reason) (0x40 + n) lanes) (0x40 + n), ?_⟩
  have hreported : (reason = 0x10 ∧ UState.testing ≠ .draining ∧ UState.testing ≠ .disputed) = (reason = 0x10) := by simp
  simp only [finishChange, hnews, hport, hold, hreported, unitEffects_source hn, State.when_false, Bool.false_and, Bool.false_eq_true, ↓reduceIte]
  rfl

theorem finishChange_tests (hfailed : unitSt s (0x40 + n) = .failed) (lanes : BitVec 2) (reason : Byte) (version : Nat) :
    let t := finishChange s (0x40 + n) .testing lanes reason version
    unitSt t (0x40 + n) = .testing ∧ t.rng.testing = s.rng.testing ∧ t.unit.version = s.unit.version := by
  obtain ⟨e, heq⟩ := finishChange_source hn (by rw [hfailed]; decide) lanes reason version
  have hset : unitSt (setUnit s (0x40 + n) .testing reason) (0x40 + n) = .testing := unitSt_setUnit_self reason (by rw [hfailed]; decide) (by decide)
  have hleft := (((testStands_entryApplied (setUnit s (0x40 + n) .testing reason) (0x40 + n) lanes).trans (testStands_publishEntry _ (0x40 + n) e version)).trans
    (testStands_sourceLeft _ n))
  have hstands : TestStands (setUnit s (0x40 + n) .testing reason) (finishChange s (0x40 + n) .testing lanes reason version) := by
    rw [heq]
    split
    · exact hleft.trans (testStands_outcomeAt _ _ _ _)
    · exact hleft
  exact ⟨(hstands.states _ (by rw [hset]; decide)).trans hset, hstands.testing, hstands.version⟩

/-- With the record store free, the unit of a FAILED source is TESTING in the same step. -/
theorem changeUnit_tests (hfailed : unitSt s (0x40 + n) = .failed) (hnow : appendsNow s = true) (reason : Byte) :
    let t := changeUnit s (0x40 + n) .testing 0 reason
    unitSt t (0x40 + n) = .testing ∧ t.rng.testing = s.rng.testing ∧ t.unit.version = s.unit.version + 1 := by
  let u := s.onUnit fun m => { m with version := s.unit.version + 1 }
  let w := append u (.serge u.unit.active) 1 0x0107 (0x40 + n) (leBytes 4 (entryWord .testing 0 reason).toNat ++ leBytes 8 (s.unit.version + 1))
  have hstands : TestStands u w := testStands_append u _ _ _ _ _
  have hnow' : appendsNow u = true := (appendsNow_congr (s := s) (t := u) rfl rfl rfl).trans hnow
  have heq : changeUnit s (0x40 + n) .testing 0 reason = finishChange w (0x40 + n) .testing 0 reason (s.unit.version + 1) := by
    have hfirst : changeUnit s (0x40 + n) .testing 0 reason =
        if appendsNow u || !unitActive u 0x50 || 0x40 + n == 0x50 then finishChange w (0x40 + n) .testing 0 reason (s.unit.version + 1) else w := rfl
    rw [hfirst, hnow', Bool.true_or, Bool.true_or, if_pos rfl]
  have hfailed' : unitSt w (0x40 + n) = .failed := (hstands.states _ (by rw [show unitSt u _ = _ from hfailed]; decide)).trans hfailed
  obtain ⟨hst, htesting, hversion⟩ := finishChange_tests hn hfailed' 0 reason (s.unit.version + 1)
  rw [heq]
  exact ⟨hst, htesting.trans hstands.testing, hversion.trans hstands.version⟩

/-- The 10-second timer of a FAILED source (11 R627). -/
theorem exec_noiseRetestTimer (hup : coreUp s s.unit.active = true) (hfailed : unitSt s (0x40 + n) = .failed) (hopen : tget false s.rng.blocked n = false)
    (hnone : s.rng.testing = none) (hnow : appendsNow s = true) :
    ∃ t, exec (.noiseRetestTimer n) s = .next t ∧ unitSt t (0x40 + n) = .testing ∧ t.rng.testing = some n ∧ t.unit.version = s.unit.version + 1 := by
  have hexec : exec (.noiseRetestTimer n) s =
      .next (rngTest (changeUnit s (0x40 + n) .testing 0 (unitEnt s (0x40 + n)).reason) (BitVec.ofNat 32 n)) := by
    show execNoiseRetestTimer n s = _
    simp only [execNoiseRetestTimer, sourceUnit, done, hn, hup, hfailed, hopen, decide_true, beq_self_eq_true, Bool.not_false, Bool.and_self,
      State.when_true]
  have hvalue : ((BitVec.ofNat 32 n).extractLsb' 0 2).toNat = n := by
    simp only [BitVec.extractLsb'_toNat, BitVec.toNat_ofNat, Nat.shiftRight_zero]
    omega
  obtain ⟨hst, htesting, hversion⟩ := changeUnit_tests hn hfailed hnow (unitEnt s (0x40 + n)).reason
  refine ⟨_, hexec, ?_⟩
  rw [rngTest_testing (by rw [hvalue]; exact hst) (htesting.trans hnone), hvalue]
  exact ⟨hst, rfl, hversion⟩

end

end Sys2Proof.Machine
end

section
/-! OBLIGATIONS. The random window, the noise bank and the DRBG: O8 and O9. -/

namespace Sys2Proof.Machine

set_option Elab.async false

/-- Settles O8: the two commands, their ends, the choice of a source, its test, the retest. -/
theorem randomWindowActs : Obligations.RandomWindowActs :=
  ⟨fun _ _ hreach hidle hmin hmax => completes_rngGenerate_served hidle hmin hmax hreach,
    fun _ _ hreach hidle hmin hmax => completes_rngGenerate_waits hidle hmin hmax hreach,
    fun _ _ hreach hidle hmin hmax => completes_rngGenerateFresh hidle hmin hmax hreach, fun _ _ => completes_rngCommandEnd,
    fun _ _ => completes_drbgRequestTimeout, fun _ _ _ => completes_rngSelect, fun _ _ _ => exec_rngTest, fun _ _ => exec_noiseRetestTimer⟩

/-- Settles O9: the full buffer, the reseed limit, conditioning, the health tests and what they make of the bank, the start-up tests. -/
theorem noiseBankAndDrbgReact : Obligations.NoiseBankAndDrbgReact := by
  refine ⟨fun s e => completes_reseedBufferFull_kept e, fun s e hready hempty hup hinst hsafe hdraws ha hb hctl => ?_, fun s => completes_drbgReseedLimit_stops,
    fun s hinst hready hfull hdraws ha hb hctl => exec_drbgReseedLimit_reseeds hinst hready hfull ⟨hdraws, ha, hb, hctl⟩,
    fun a b c d t => ⟨conditioned_xor2 a b t, conditioned_xor4 a b c d t⟩, fun s raw => exec_noiseHealthFail_passes,
    fun s bits m hready hup hfail hnext => ?_, fun s bits hready hup hfail hnext => ?_, fun mode b => ⟨healthRun_one_short mode b, healthRun_cutoff mode b⟩,
    fun s n bits => completes_noiseStartupTestDone_tested, fun s n bits => completes_noiseStartupTestDone_tried⟩
  · exact exec_reseedBufferFull_instantiates e hready hempty hup hinst hsafe ⟨hdraws, ha, hb, hctl⟩
  · obtain ⟨t, hexec, ⟨hfull, hswitch, -⟩, hkeeps⟩ := completes_noiseHealthFail hready hup hfail
    obtain ⟨hbank, hsource⟩ := hswitch m hnext
    exact ⟨t, hexec, ⟨hbank, hsource, hfull⟩, hkeeps⟩
  · obtain ⟨t, hexec, ⟨hfull, -, hnobody⟩, hkeeps⟩ := completes_noiseHealthFail hready hup hfail
    exact ⟨t, hexec, ⟨hnobody hnext, hfull⟩, hkeeps⟩

end Sys2Proof.Machine
end
